-- ==== Sys2Proof/Word.lean ====
section
/-! DEFINITION. The widths the spec gives: bytes, 32-bit scalars and lanes, 64-bit pairs and instruction words
(00_scope.md R3, 02_instruction_words.md R32, 04_scalar.md R79). -/

namespace Sys2Proof

/-- One byte of memory. -/
abbrev Byte := BitVec 8
/-- A scalar register, or one lane of a vector register (R79, R95). -/
abbrev Word := BitVec 32
/-- A scalar pair, an address, an instruction word (R32, R79). -/
abbrev DWord := BitVec 64
/-- A set of lanes, bit `l` for lane `l` (R43). -/
abbrev LaneSet := BitVec 96
/-- The 32-bit values of the 96 lanes of a vector register (R95). -/
abbrev Lanes := Vector Word 96

/-- Join of the two halves of a pair: the even register holds bits [31:0] (R3). -/
def pairOf (lo hi : Word) : DWord := hi ++ lo
/-- Bits [31:0] of a pair. -/
def loHalf (x : DWord) : Word := x.extractLsb' 0 32
/-- Bits [63:32] of a pair. -/
def hiHalf (x : DWord) : Word := x.extractLsb' 32 32
/-- A condition as the value 1 or 0. -/
def boolWord (b : Bool) : Word := if b then 1 else 0

end Sys2Proof
end

