-- ==== Sys2Proof/Machine/Flags.lean ====
section
/-! DEFINITION. Floating point exactly as the spec computes it: values as exact dyadic numbers, RoundTo, FlushIn and Flush
of R102, the NaN rules of R99, every FPSR flag of R101, and binary8 and the block scales (R108 to R116). Elements and
results are natural numbers below 2 to the width of their format. -/

namespace Sys2Proof.Machine

open Sys2Proof

/-! ### Formats and flags -/

/-- The IEEE formats of R98. -/
inductive Fmt where
  | f32 | f16 | bf16 | f64
  deriving DecidableEq, Repr

/-- Significant bits, the implicit one included. -/
def Fmt.prec : Fmt → Nat
  | .f32 => 24 | .f16 => 11 | .bf16 => 8 | .f64 => 53
/-- The width of an element. -/
def Fmt.width : Fmt → Nat
  | .f32 => 32 | .f16 => 16 | .bf16 => 16 | .f64 => 64
/-- The largest exponent. -/
def Fmt.emax : Fmt → Nat
  | .f32 => 127 | .f16 => 15 | .bf16 => 127 | .f64 => 1023
/-- The weight of an element's last subnormal bit: 2 to this power. -/
def Fmt.qmin (t : Fmt) : Int := 2 - (t.emax : Int) - (t.prec : Int)
/-- The mantissa field's size. -/
def Fmt.mant (t : Fmt) : Nat := 2 ^ (t.prec - 1)
/-- The sign bit's weight. -/
def Fmt.signBit (t : Fmt) : Nat := 2 ^ (t.width - 1)
/-- The exponent field with every bit set. -/
def Fmt.expTop (t : Fmt) : Nat := 2 * t.emax + 1
/-- Infinity's bits, without the sign. -/
def Fmt.infBits (t : Fmt) : Nat := t.expTop * t.mant
/-- The canonical NaN (R98). -/
def Fmt.canon (t : Fmt) : Nat := t.infBits + t.mant / 2
/-- The FI bit of FPCR (R100). -/
def Fmt.fi : Fmt → Nat
  | .f32 => 4 | .f16 => 6 | .bf16 => 8 | .f64 => 10
/-- The FO bit of FPCR (R100). -/
def Fmt.fo (t : Fmt) : Nat := t.fi + 1

/-- FPSR flags (R101). -/
abbrev Flags := BitVec 6
/-- Invalid. -/
def flagIV : Flags := 1
/-- Divide by zero. -/
def flagDZ : Flags := 2
/-- Overflow. -/
def flagOF : Flags := 4
/-- Underflow. -/
def flagUF : Flags := 8
/-- Inexact. -/
def flagNX : Flags := 16
/-- Scale NaN. -/
def flagSN : Flags := 32
/-- A flag where a condition holds. -/
def flagIf (c : Bool) (f : Flags) : Flags := if c then f else 0

/-- The rounding modes of R100. -/
inductive Rnd where
  | rne | rtz | rdn | rup
  deriving DecidableEq, Repr

/-- The mode of two bits (R100, and X of VFRND). -/
def Rnd.ofBits (b : BitVec 2) : Rnd :=
  if b = 0 then .rne else if b = 1 then .rtz else if b = 2 then .rdn else .rup

/-- The mode that RM selects (R55): FPCR.MODE, RNE, RTZ, or the instruction's own. -/
def rndOf (fpcr : Word) (rm : BitVec 2) (own : Rnd) : Rnd :=
  if rm = 0 then .ofBits (fpcr.extractLsb' 0 2) else if rm = 1 then .rne else if rm = 2 then .rtz else own

/-- A result and the flags it raises. -/
structure FRes where
  bits : Nat
  flags : Flags
  deriving DecidableEq, Repr

/-! ### Exact values -/

/-- A number: sign, and a magnitude n × 2^e, or one that lies strictly between n × 2^e and (n + 1) × 2^e when `more`. -/
structure Exact where
  neg : Bool
  n : Nat
  e : Int
  more : Bool := false
  deriving DecidableEq, Repr

/-- The bits of an element as it is read. -/
inductive FVal where
  | nan (bits : Nat) (signalling : Bool)
  | inf (neg : Bool)
  | fin (x : Exact)
  deriving DecidableEq, Repr

/-- The value of an element. -/
def fval (t : Fmt) (b : Nat) : FVal :=
  let neg := decide (t.signBit ≤ b)
  let m := b % t.mant
  let ex := b / t.mant % (t.expTop + 1)
  if ex = t.expTop then
    if m = 0 then .inf neg else .nan b (decide (m < t.mant / 2))
  else if ex = 0 then .fin ⟨neg, m, t.qmin, false⟩
  else .fin ⟨neg, t.mant + m, t.qmin + ex - 1, false⟩

/-- A NaN with its quiet bit set and its payload kept (R99). -/
def quiet (t : Fmt) (b : Nat) : Nat := if b % t.mant < t.mant / 2 then b + t.mant / 2 else b

/-- The bits of a sign. -/
def signOf (t : Fmt) (neg : Bool) : Nat := if neg then t.signBit else 0

/-- A subnormal element. -/
def isSubnormal (t : Fmt) (b : Nat) : Bool := decide (b / t.mant % (t.expTop + 1) = 0) && decide (b % t.mant ≠ 0)

/-- FlushIn of R102. -/
def flushIn (fpcr : Word) (t : Fmt) (b : Nat) : Nat :=
  if isSubnormal t b && fpcr.getLsbD t.fi then signOf t (decide (t.signBit ≤ b)) else b

/-- Flush of R102. -/
def flushOut (fpcr : Word) (t : Fmt) (r : FRes) : FRes :=
  if isSubnormal t r.bits && fpcr.getLsbD t.fo then
    ⟨signOf t (decide (t.signBit ≤ r.bits)), r.flags ||| flagUF ||| flagNX⟩
  else r

/-! ### Rounding -/

/-- A nonnegative power of two, and 1 below. -/
def pow2 (k : Int) : Nat := 2 ^ k.toNat

/-- The whole part of a magnitude in units of 2^q, how the rest compares with half a unit, and whether there is a rest. -/
structure Cut where
  k : Nat
  half : Ordering
  rest : Bool
  deriving DecidableEq, Repr

/-- Cut a magnitude at 2^q. -/
def Exact.cut (x : Exact) (q : Int) : Cut :=
  if q ≤ x.e then ⟨x.n * pow2 (x.e - q), .lt, x.more⟩
  else if (Nat.log2 x.n : Int) + 2 < q - x.e then ⟨0, .lt, decide (x.n ≠ 0) || x.more⟩
  else
    let d := pow2 (q - x.e)
    let r := x.n % d
    let h := if 2 * r < d then Ordering.lt else if 2 * r = d then (if x.more then .gt else .eq) else .gt
    ⟨x.n / d, h, decide (r ≠ 0) || x.more⟩

/-- The magnitude rounded to a multiple of 2^q. -/
def Cut.round (c : Cut) (mode : Rnd) (neg : Bool) : Nat :=
  let up : Bool :=
    match mode with
    | .rne => decide (c.half = .gt) || (decide (c.half = .eq) && decide (c.k % 2 = 1))
    | .rtz => false
    | .rdn => c.rest && neg
    | .rup => c.rest && !neg
  if up then c.k + 1 else c.k

/-- floor(log2) of a nonzero magnitude. -/
def Exact.log2 (x : Exact) : Int := (Nat.log2 x.n : Int) + x.e

/-- RoundTo of R102 on a number that is no NaN and no infinity. -/
def roundTo (t : Fmt) (mode : Rnd) (x : Exact) : FRes :=
  if x.n = 0 then ⟨signOf t x.neg, 0⟩
  else
    let q := x.log2 - ((t.prec : Int) - 1)
    let u := (x.cut q).round mode x.neg
    let ulog := (Nat.log2 u : Int) + q
    if (t.emax : Int) < ulog then
      let toInf := match mode with
        | .rne => true
        | .rtz => false
        | .rup => !x.neg
        | .rdn => x.neg
      ⟨signOf t x.neg + (if toInf then t.infBits else t.infBits - 1), flagOF ||| flagNX⟩
    else
      let qy := max q t.qmin
      let c := x.cut qy
      let y := c.round mode x.neg
      let tiny := decide (ulog < 1 - (t.emax : Int))
      ⟨signOf t x.neg + ((qy - t.qmin).toNat * t.mant + y),
        flagIf c.rest (flagNX ||| flagIf tiny flagUF)⟩

/-- Round of R55 in a mode: RoundTo, then Flush. -/
def roundFlush (fpcr : Word) (t : Fmt) (mode : Rnd) (x : Exact) : FRes := flushOut fpcr t (roundTo t mode x)

/-- A signed exact sum of two dyadic numbers; an exact zero has the sign that R99 gives. -/
def Exact.add (mode : Rnd) (x y : Exact) : Exact :=
  let e := min x.e y.e
  let a : Int := x.n * pow2 (x.e - e)
  let b : Int := y.n * pow2 (y.e - e)
  let v := (if x.neg then -a else a) + (if y.neg then -b else b)
  if v = 0 then ⟨if x.neg = y.neg then x.neg else decide (mode = .rdn), 0, e, false⟩
  else ⟨decide (v < 0), v.natAbs, e, false⟩

/-- An exact product. -/
def Exact.mul (x y : Exact) : Exact := ⟨x.neg != y.neg, x.n * y.n, x.e + y.e, false⟩

/-- A quotient of two numbers, the second nonzero, to more bits than any format holds. -/
def Exact.div (x y : Exact) : Exact :=
  let k := 160 + Nat.log2 y.n
  ⟨x.neg != y.neg, x.n * 2 ^ k / y.n, x.e - y.e - k, decide (x.n * 2 ^ k % y.n ≠ 0)⟩

/-- The square root of a nonnegative number. -/
def Exact.sqrt (x : Exact) : Exact :=
  let odd := x.e % 2
  let n := x.n * 2 ^ odd.toNat * 4 ^ 80
  let r := Nat.sqrt n
  ⟨x.neg, r, (x.e - odd) / 2 - 80, decide (r * r ≠ n)⟩

/-! ### The NaN rules of R99 -/

/-- The value is a signalling NaN. -/
def FVal.isSig : FVal → Bool
  | .nan _ s => s
  | _ => false
/-- The value is a NaN. -/
def FVal.isNan : FVal → Bool
  | .nan _ _ => true
  | _ => false
/-- The value is a zero. -/
def FVal.isZero : FVal → Bool
  | .fin x => decide (x.n = 0)
  | _ => false
/-- The value is an infinity. -/
def FVal.isInf : FVal → Bool
  | .inf _ => true
  | _ => false
/-- The sign of a number or infinity. -/
def FVal.neg : FVal → Bool
  | .fin x => x.neg
  | .inf n => n
  | .nan _ _ => false

/-- The first NaN of a list of operands, quieted, with IV where an operand signals (R99). -/
def firstNan (t : Fmt) (vs : List FVal) : Option FRes :=
  match vs.find? FVal.isNan with
  | some (.nan b _) => some ⟨quiet t b, flagIf (vs.any FVal.isSig) flagIV⟩
  | _ => none

/-- An invalid operation: the canonical NaN and IV. -/
def invalid (t : Fmt) : FRes := ⟨t.canon, flagIV⟩

/-- An infinity. -/
def infOf (t : Fmt) (neg : Bool) : FRes := ⟨signOf t neg + t.infBits, 0⟩

/-! ### The operations of R105, on operands that FlushIn has passed -/

/-- a + b. -/
def fAdd (fpcr : Word) (t : Fmt) (mode : Rnd) (a b : Nat) : FRes :=
  match firstNan t [fval t a, fval t b] with
  | some r => r
  | none =>
    match fval t a, fval t b with
    | .inf x, .inf y => if x = y then infOf t x else invalid t
    | .inf x, _ => infOf t x
    | _, .inf y => infOf t y
    | .fin x, .fin y => roundFlush fpcr t mode (x.add mode y)
    | _, _ => invalid t

/-- The element with its sign inverted. -/
def negate (t : Fmt) (b : Nat) : Nat := if t.signBit ≤ b then b - t.signBit else b + t.signBit

/-- a − b; a NaN operand keeps its sign. -/
def fSub (fpcr : Word) (t : Fmt) (mode : Rnd) (a b : Nat) : FRes :=
  if (fval t b).isNan then fAdd fpcr t mode a b else fAdd fpcr t mode a (negate t b)

/-- a × b. -/
def fMul (fpcr : Word) (t : Fmt) (mode : Rnd) (a b : Nat) : FRes :=
  let va := fval t a
  let vb := fval t b
  match firstNan t [va, vb] with
  | some r => r
  | none =>
    if va.isInf || vb.isInf then
      if va.isZero || vb.isZero then invalid t else infOf t (va.neg != vb.neg)
    else
      match va, vb with
      | .fin x, .fin y => roundFlush fpcr t mode (x.mul y)
      | _, _ => invalid t

/-- ±(a × b) + c with one rounding (R99, R105). -/
def fMa (fpcr : Word) (t : Fmt) (mode : Rnd) (minus : Bool) (a b c : Nat) : FRes :=
  let va := fval t a
  let vb := fval t b
  let vc := fval t c
  let zeroInf := (va.isInf && vb.isZero) || (va.isZero && vb.isInf)
  match firstNan t [va, vb, vc] with
  | some r => ⟨r.bits, r.flags ||| flagIf zeroInf flagIV⟩
  | none =>
    let sp := (va.neg != vb.neg) != minus
    if zeroInf then invalid t
    else if va.isInf || vb.isInf then
      match vc with
      | .inf y => if y = sp then infOf t sp else invalid t
      | _ => infOf t sp
    else
      match va, vb, vc with
      | .fin _, .fin _, .inf y => infOf t y
      | .fin x, .fin y, .fin z => roundFlush fpcr t mode (Exact.add mode ⟨sp, x.n * y.n, x.e + y.e, false⟩ z)
      | _, _, _ => invalid t

/-- a / b. -/
def fDiv (fpcr : Word) (t : Fmt) (mode : Rnd) (a b : Nat) : FRes :=
  let va := fval t a
  let vb := fval t b
  match firstNan t [va, vb] with
  | some r => r
  | none =>
    let sq := va.neg != vb.neg
    if (va.isInf && vb.isInf) || (va.isZero && vb.isZero) then invalid t
    else if va.isInf then infOf t sq
    else if vb.isInf then ⟨signOf t sq, 0⟩
    else if vb.isZero then ⟨(infOf t sq).bits, flagDZ⟩
    else
      match va, vb with
      | .fin x, .fin y => roundFlush fpcr t mode (x.div y)
      | _, _ => invalid t

/-- √a. -/
def fSqrt (fpcr : Word) (t : Fmt) (mode : Rnd) (a : Nat) : FRes :=
  match fval t a with
  | .nan b s => ⟨quiet t b, flagIf s flagIV⟩
  | .inf neg => if neg then invalid t else infOf t false
  | .fin x => if x.n = 0 then ⟨signOf t x.neg, 0⟩ else if x.neg then invalid t else roundFlush fpcr t mode x.sqrt

/-- The order of two elements that are no NaN, as numbers: −0 and +0 equal. -/
def fCompare (t : Fmt) (a b : Nat) : Ordering :=
  let key (x : Nat) : Int := if t.signBit ≤ x then -((x - t.signBit : Nat) : Int) else (x : Int)
  compare (key a) (key b)

/-- −0 lies below +0 (R99). -/
def fBelow (t : Fmt) (a b : Nat) : Bool :=
  match fCompare t a b with
  | .lt => true
  | .gt => false
  | .eq => decide (t.signBit ≤ a) && decide (b < t.signBit)

/-- VFMIN, VFMAX, VFMINN and VFMAXN (R99): `big` selects the maximum, `number` the forms that prefer the number. -/
def fMinMax (t : Fmt) (big number : Bool) (a b : Nat) : FRes :=
  let va := fval t a
  let vb := fval t b
  let iv := flagIf (va.isSig || vb.isSig) flagIV
  if number && va.isNan && !vb.isNan then ⟨b, iv⟩
  else if number && vb.isNan && !va.isNan then ⟨a, iv⟩
  else
    match firstNan t [va, vb] with
    | some r => r
    | none => ⟨if fBelow t a b = big then b else a, 0⟩

/-- VFABS. -/
def fAbs (t : Fmt) (a : Nat) : Nat := a % t.signBit
/-- VFCPS: a with the sign of b. -/
def fCps (t : Fmt) (a b : Nat) : Nat := a % t.signBit + signOf t (decide (t.signBit ≤ b))

/-- VFRND (R105): the sign of a is kept and only a signalling NaN sets a flag. -/
def fIntegral (t : Fmt) (mode : Rnd) (a : Nat) : FRes :=
  match fval t a with
  | .nan b s => ⟨quiet t b, flagIf s flagIV⟩
  | .inf neg => infOf t neg
  | .fin x => ⟨(roundTo t .rtz ⟨x.neg, (x.cut 0).round mode x.neg, 0, false⟩).bits, 0⟩

/-- VFCLASS (R105). -/
def fClass (t : Fmt) (a : Nat) : Nat :=
  match fval t a with
  | .nan _ s => if s then 256 else 512
  | .inf neg => if neg then 1 else 128
  | .fin x =>
    if x.n = 0 then (if x.neg then 8 else 16)
    else if isSubnormal t a then (if x.neg then 4 else 32)
    else if x.neg then 2 else 64

/-- VFCMP's condition X (R104) and its flag, on operands that FlushIn has passed. -/
def fCond (t : Fmt) (x : Nat) (a b : Nat) : Bool × Flags :=
  let va := fval t a
  let vb := fval t b
  let un := va.isNan || vb.isNan
  let o := fCompare t a b
  let sig := va.isSig || vb.isSig
  let ivAny := decide (2 ≤ x) && decide (x ≤ 5)
  let r :=
    match x with
    | 0 => !un && o = .eq
    | 1 => un || o ≠ .eq
    | 2 => !un && o = .lt
    | 3 => !un && o ≠ .gt
    | 4 => !un && o = .gt
    | 5 => !un && o ≠ .lt
    | 6 => un
    | _ => !un
  (r, flagIf (if ivAny then un else sig) flagIV)

/-! ### Conversions (R120, R121) -/

/-- A NaN of one format in another (R120): quieted, its payload truncated or filled with zeros. -/
def nanTo (u t : Fmt) (b : Nat) : Nat :=
  let m := quiet u b % u.mant
  let m' := if t.prec ≤ u.prec then m / 2 ^ (u.prec - t.prec) else m * 2 ^ (t.prec - u.prec)
  signOf t (decide (u.signBit ≤ b)) + t.infBits + m'

/-- VCVTF of one element from format u to t; every row is Round in a mode, which is exact on the widening rows. -/
def fConvert (fpcr : Word) (u t : Fmt) (mode : Rnd) (b : Nat) : FRes :=
  match fval u b with
  | .nan _ s => ⟨nanTo u t b, flagIf s flagIV⟩
  | .inf neg => infOf t neg
  | .fin x => roundFlush fpcr t mode x

/-- VF2I (R121): an integer from `lo` to `hi`. -/
def fToInt (t : Fmt) (mode : Rnd) (lo hi : Int) (b : Nat) : Int × Flags :=
  match fval t b with
  | .nan _ _ => (0, flagIV)
  | .inf neg => (if neg then lo else hi, flagIV)
  | .fin x =>
    let c := x.cut 0
    let m : Int := c.round mode x.neg
    let n := if x.neg then -m else m
    if n < lo then (lo, flagIV) else if hi < n then (hi, flagIV) else (n, flagIf c.rest flagNX)

/-- An integer times 2^e as an exact number; zero is +0. -/
def Exact.ofInt (n : Int) (e : Int) : Exact := ⟨decide (n < 0), n.natAbs, e, false⟩

/-- a × 2^k of R124, before it is rounded: NaNs by R99. -/
def fScale (fpcr : Word) (t : Fmt) (mode : Rnd) (b : Nat) (k : Int) : FRes :=
  match fval t b with
  | .nan x s => ⟨quiet t x, flagIf s flagIV⟩
  | .inf neg => infOf t neg
  | .fin x => roundFlush fpcr t mode { x with e := x.e + k }

/-! ### Binary8 (R108 to R116) -/

/-- A format record (R108). -/
structure Rec8 where
  p : Nat
  signed : Bool
  infs : Bool
  deriving DecidableEq, Repr

/-- The record of five bits. -/
def Rec8.ofBits (b : BitVec 5) : Rec8 := ⟨(b.extractLsb' 0 3).toNat, b.getLsbD 3, b.getLsbD 4⟩

/-- A record byte, where it is well-formed (R109). -/
def Rec8.ofByte (b : Byte) : Option Rec8 :=
  if b.extractLsb' 5 3 = 0 && b.extractLsb' 0 3 ≠ 0 then some (Rec8.ofBits (b.setWidth 5)) else none

/-- The bias, 2^(w − 1). -/
def Rec8.bias (r : Rec8) : Nat := 2 ^ (if r.signed then 7 - r.p else 8 - r.p)
/-- The code of NaN. -/
def Rec8.nan (r : Rec8) : Nat := if r.signed then 0x80 else 0xFF
/-- The largest magnitude code of a finite value. -/
def Rec8.topCode (r : Rec8) : Nat :=
  match r.signed, r.infs with
  | true, false => 0x7F
  | true, true => 0x7E
  | false, false => 0xFE
  | false, true => 0xFD

/-- The values of a code. -/
inductive V8 where
  | nan
  | inf (neg : Bool)
  | fin (x : Exact)
  deriving DecidableEq, Repr

/-- The magnitude of a code without its sign. -/
def Rec8.mag (r : Rec8) (m : Nat) : Exact :=
  let t := r.p - 1
  let ex := m / 2 ^ t
  if ex = 0 then ⟨false, m % 2 ^ t, 2 - (r.bias : Int) - r.p, false⟩
  else ⟨false, 2 ^ t + m % 2 ^ t, (ex : Int) - r.bias - t, false⟩

/-- Dec8 of R110. -/
def dec8 (r : Rec8) (c : Nat) : V8 :=
  if c = 0 then .fin ⟨false, 0, 0, false⟩
  else if c = r.nan then .nan
  else if r.signed then
    if r.infs && c % 128 = 0x7F then .inf (decide (128 ≤ c))
    else .fin { r.mag (c % 128) with neg := decide (128 ≤ c) }
  else if r.infs && c = 0xFE then .inf false
  else .fin (r.mag c)

/-- The code of a magnitude y × 2^q that the format holds, with q the spacing there; 0 for zero of either sign. -/
def Rec8.code (r : Rec8) (neg : Bool) (y : Nat) (q : Int) : Nat :=
  if y = 0 then 0
  else
    let q0 := 2 - (r.bias : Int) - r.p
    let m := (q - q0).toNat * 2 ^ (r.p - 1) + y
    if r.signed && neg then 128 + m else m

/-- How a conversion into binary8 rounds (R114). -/
inductive Mode8 where
  | mode (m : Rnd)
  | stoch (g : Word)
  deriving DecidableEq, Repr

/-- Whether a magnitude cut at the spacing goes up (R115, R116). -/
def up8 (m : Mode8) (x : Exact) (q : Int) : Bool :=
  let c := x.cut q
  match m with
  | .mode r => decide (c.round r x.neg ≠ c.k)
  | .stoch g => decide (2 ^ 32 ≤ (x.cut (q - 32)).k % 2 ^ 32 + g.toNat)

/-- Cvt8 of R115 on a value. -/
def cvt8Val (r : Rec8) (m : Mode8) (sat : Bool) (v : FVal) : FRes :=
  match v with
  | .nan _ s => ⟨r.nan, flagIf s flagIV⟩
  | .inf neg =>
    if !r.signed && neg then (if sat then ⟨0, 0⟩ else ⟨r.nan, flagIV⟩)
    else if r.infs then ⟨if r.signed then (if neg then 0xFF else 0x7F) else 0xFE, 0⟩
    else if sat then ⟨if neg then 128 + r.topCode else r.topCode, 0⟩
    else ⟨r.nan, flagIV⟩
  | .fin x =>
    if x.n = 0 then ⟨0, 0⟩
    else if !r.signed && x.neg then (if sat then ⟨0, flagNX⟩ else ⟨r.nan, flagNX ||| flagIV⟩)
    else
      let q := max x.log2 (1 - (r.bias : Int)) - (r.p - 1)
      let c := x.cut q
      let y := c.k + (if up8 m x q then 1 else 0)
      let top := r.mag r.topCode
      let beyond := decide (top.n * pow2 (top.e - min top.e q) < y * pow2 (q - min top.e q))
      if beyond then
        if sat then ⟨if x.neg then 128 + r.topCode else r.topCode, flagOF ||| flagNX⟩
        else if r.infs then
          ⟨if r.signed then (if x.neg then 0xFF else 0x7F) else 0xFE, flagOF ||| flagNX⟩
        else ⟨r.nan, flagOF ||| flagNX ||| flagIV⟩
      else
        let tiny := decide (y = 0) || decide ((Nat.log2 y : Int) + q < 1 - (r.bias : Int))
        ⟨r.code x.neg y q, flagIf c.rest (flagNX ||| flagIf tiny flagUF)⟩

/-- Cvt8 of R115 on an FP32 element that FlushIn has passed. -/
def cvt8 (r : Rec8) (m : Mode8) (sat : Bool) (b : Nat) : FRes := cvt8Val r m sat (fval .f32 b)

/-! ### FX accumulators (R174, R175) -/

/-- The increment k of FXADD and its flags, from an FP32 element that FlushIn has passed. -/
def fxIncrement (b : Nat) : Int × Flags :=
  match fval .f32 b with
  | .fin x =>
    let c := { x with e := x.e + 64 }.cut 0
    let m : Int := c.round .rne x.neg
    let k := if x.neg then -m else m
    (k, flagIf c.rest flagNX ||| flagIf (decide (2 ^ 127 ≤ k.natAbs)) flagOF)
  | _ => (0, flagIV)

/-- FXRD's result from the accumulator. -/
def fxValue (fpcr : Word) (t : Fmt) (q : BitVec 128) : FRes := roundFlush fpcr t .rne (Exact.ofInt q.toInt (-64))

end Sys2Proof.Machine
end

