-- ==== Sys2Proof/Machine/Special.lean ====
section
/-! DEFINITION. The special functions of R106: exact values where the function has one, and otherwise fixed-point
enclosures of 192 fraction bits, far more than FP32 rounding can need (log entry 21). -/

namespace Sys2Proof.Machine

open Sys2Proof

/-- Fraction bits of the fixed-point numbers of this file. -/
def fxBits : Nat := 192
/-- One, in fixed point. -/
def fxOne : Nat := 2 ^ fxBits

/-- A sum of terms f 0, f 1, ..., f (n - 1). -/
def sumTerms (f : Nat → Nat) : Nat → Nat
  | 0 => 0
  | n + 1 => sumTerms f n + f n

/-- atanh of 1/m in fixed point, for m at least 3. -/
def fxAtanhInv (m : Nat) : Nat := sumTerms (fun k => fxOne / (m ^ (2 * k + 1) * (2 * k + 1))) 64
/-- atan of 1/m in fixed point, for m at least 5. -/
def fxAtanInv (m : Nat) : Nat :=
  sumTerms (fun k => fxOne / (m ^ (4 * k + 1) * (4 * k + 1)) - fxOne / (m ^ (4 * k + 3) * (4 * k + 3))) 24
/-- ln 2 in fixed point. -/
def fxLn2 : Nat := 2 * fxAtanhInv 3
/-- π in fixed point (Machin). -/
def fxPi : Nat := 16 * fxAtanInv 5 - 4 * fxAtanInv 239

/-- A power series in fixed point by Horner's rule: 1 + x/d₁ (1 + x/d₂ (1 + ...)), over the divisors d of the list. -/
def fxHorner (x : Nat) : List Nat → Nat
  | [] => fxOne
  | d :: ds => fxOne + x * fxHorner x ds / (fxOne * d)

/-- The same with alternating signs: 1 − x/d₁ (1 − x/d₂ (1 − ...)). -/
def fxHornerAlt (x : Nat) : List Nat → Nat
  | [] => fxOne
  | d :: ds => fxOne - x * fxHornerAlt x ds / (fxOne * d)

/-- 2^f for a fixed-point f from 0 to 1, from 1 to 2. -/
def fxExp2 (f : Nat) : Nat := fxHorner (f * fxLn2 / fxOne) ((List.range 56).map (· + 1))

/-- sin(πr)/r for a fixed-point r from 0 to 1/4. -/
def fxSinOver (r : Nat) : Nat :=
  let x := (fxPi * r / fxOne) * (fxPi * r / fxOne) / fxOne
  fxPi * fxHornerAlt x ((List.range 28).map (fun k => (2 * k + 2) * (2 * k + 3))) / fxOne

/-- cos(πr) for a fixed-point r from 0 to 1/4, below 1. -/
def fxCos (r : Nat) : Nat :=
  let x := (fxPi * r / fxOne) * (fxPi * r / fxOne) / fxOne
  min (fxOne - 1) (fxHornerAlt x ((List.range 28).map (fun k => (2 * k + 1) * (2 * k + 2))))

/-- z²/3 + z⁴/5 + ... in fixed point, for z² below 1/9. -/
def fxAtanhTail (z2 : Nat) : Nat :=
  (List.range 62).foldr (fun k acc => z2 * (fxOne / (2 * k + 3) + acc) / fxOne) 0

/-- ln m for a fixed-point m from 1 to 2. -/
def fxLn (m : Nat) : Nat :=
  let z := (m - fxOne) * fxOne / (m + fxOne)
  2 * (z * (fxOne + fxAtanhTail (z * z / fxOne)) / fxOne)

/-- A magnitude as a fixed-point number. -/
def Exact.fx (x : Exact) : Nat := (x.cut (-(fxBits : Int))).k

/-- A number that is one over the square root of a positive number. -/
def exactRsqrt (x : Exact) : Exact :=
  let odd := x.e % 2
  let n := x.n * 2 ^ odd.toNat
  let r := Nat.sqrt (4 ^ 120 / n)
  ⟨false, r, -(x.e - odd) / 2 - 120, decide (r * r * n ≠ 4 ^ 120)⟩

/-- 2^a. -/
def exactExp2 (x : Exact) : Exact :=
  if 8 ≤ x.log2 then ⟨false, 1, if x.neg then -400 else 400, true⟩
  else if !(x.cut 0).rest then ⟨false, 1, if x.neg then -((x.cut 0).k : Int) else (x.cut 0).k, false⟩
  else if x.log2 < -60 then ⟨false, if x.neg then 2 ^ 100 - 1 else 2 ^ 100, -100, true⟩
  else
    let v : Int := if x.neg then -(x.fx : Int) else x.fx
    ⟨false, fxExp2 (v % (fxOne : Int)).toNat, v / (fxOne : Int) - fxBits, true⟩

/-- log2 a of a positive number. -/
def exactLog2 (x : Exact) : Exact :=
  let l := Nat.log2 x.n
  if x.n = 2 ^ l then Exact.ofInt x.log2 0
  else
    let v : Int := x.log2 * fxOne + (fxLn (x.n * fxOne / 2 ^ l) * fxOne / fxLn2 : Nat)
    ⟨decide (v < 0), v.natAbs, -(fxBits : Int), true⟩

/-- sin(πr) for a fixed-point r above 0, up to 1/2. -/
def exactSin (neg : Bool) (r : Nat) : Exact :=
  if 2 * r = fxOne then ⟨neg, 1, 0, false⟩
  else if 4 * r ≤ fxOne then ⟨neg, r * fxSinOver r, -2 * (fxBits : Int), true⟩
  else ⟨neg, fxCos (fxOne / 2 - r), -(fxBits : Int), true⟩

/-- sin πa of a number that is no integer. -/
def exactSinpi (x : Exact) : Exact :=
  if x.log2 < -2 then ⟨x.neg, x.n * fxSinOver x.fx, x.e - fxBits, true⟩
  else
    let r2 := x.fx % (2 * fxOne)
    let r := r2 % fxOne
    exactSin (x.neg != decide (fxOne ≤ r2)) (if fxOne < 2 * r then fxOne - r else r)

/-- cos πa of a number that is neither an integer nor an integer and a half. -/
def exactCospi (x : Exact) : Exact :=
  let r2 := x.fx % (2 * fxOne)
  let r1 := if fxOne < r2 then 2 * fxOne - r2 else r2
  let neg := decide (fxOne < 2 * r1)
  let r := if neg then fxOne - r1 else r1
  if 4 * r ≤ fxOne then ⟨neg, fxCos r, -(fxBits : Int), true⟩ else exactSin neg (fxOne / 2 - r)

/-- tanh a of a nonzero number. -/
def exactTanh (x : Exact) : Exact :=
  if 6 ≤ x.log2 then ⟨x.neg, 2 ^ 100 - 1, -100, true⟩
  else if x.log2 < -40 then ⟨x.neg, x.n * 2 ^ 100 - 1, x.e - 100, true⟩
  else
    let y := 2 * x.fx * fxOne / fxLn2
    let ex := fxExp2 (y % fxOne) * 2 ^ (y / fxOne)
    ⟨x.neg, (ex - fxOne) * fxOne / (ex + fxOne), -(fxBits : Int), true⟩

/-- The functions of R106. -/
inductive Special where
  | rcp | rsq | exp2 | log2 | sinpi | cospi | tanh
  deriving DecidableEq, Repr

/-- One FP32 element, through FlushIn, the special values of R106, and Round with RNE. -/
def fSpecial (fpcr : Word) (fn : Special) (raw : Nat) : FRes :=
  let b := flushIn fpcr .f32 raw
  let fin (x : Exact) : FRes := roundFlush fpcr .f32 .rne x
  match fval .f32 b, fn with
  | .nan q s, _ => ⟨quiet .f32 q, flagIf s flagIV⟩
  | _, .rcp => fDiv fpcr .f32 .rne 0x3F800000 b
  | .inf neg, .rsq => if neg then invalid .f32 else ⟨0, 0⟩
  | .inf neg, .exp2 => if neg then ⟨0, 0⟩ else infOf .f32 false
  | .inf neg, .log2 => if neg then invalid .f32 else infOf .f32 false
  | .inf _, .sinpi => invalid .f32
  | .inf _, .cospi => invalid .f32
  | .inf neg, .tanh => ⟨signOf .f32 neg + 0x3F800000, 0⟩
  | .fin x, .rsq =>
    if x.n = 0 then ⟨(infOf .f32 x.neg).bits, flagDZ⟩ else if x.neg then invalid .f32 else fin (exactRsqrt x)
  | .fin x, .exp2 => if x.n = 0 then ⟨0x3F800000, 0⟩ else fin (exactExp2 x)
  | .fin x, .log2 =>
    if x.n = 0 then ⟨(infOf .f32 true).bits, flagDZ⟩ else if x.neg then invalid .f32 else fin (exactLog2 x)
  | .fin x, .sinpi => if !(x.cut 0).rest then ⟨signOf .f32 x.neg, 0⟩ else fin (exactSinpi x)
  | .fin x, .cospi =>
    if !(x.cut 0).rest then ⟨if (x.cut 0).k % 2 = 1 then 0xBF800000 else 0x3F800000, 0⟩
    else if !(x.cut (-1)).rest then ⟨0, 0⟩
    else fin (exactCospi x)
  | .fin x, .tanh => if x.n = 0 then ⟨signOf .f32 x.neg, 0⟩ else fin (exactTanh x)

end Sys2Proof.Machine
end

