-- ==== Sys2Proof/Config.lean ====
section
/-! DEFINITION. What the spec leaves free: constants with no body, so that no proof can see a value of them
(log entries 6, 10, 13 and 16). -/

namespace Sys2Proof

/-- The n-th value that the spec leaves open, such as the syndrome of a record of R289 (log entry 10). -/
opaque Config.freeValue : Nat → BitVec 64
/-- The core-clock periods that the n-th step of the machine lasts (R6: no exact time is stated). -/
opaque Config.stepCycles : Nat → Nat
/-- WORD of a parking record, by its moment and its TRAPPC, where the word cannot be fetched (R278 does not say). -/
opaque Config.lostWord : Nat → DWord → DWord
/-- The 256 KiB units of the carve allocation that the driver gives a context (R131: the spec gives no way to name it). -/
opaque Config.carveUnits : Nat → Nat
/-- What the n-th save of a context writes after its resumable records (R287: it has no layout in the spec). -/
opaque Config.saveBytes : Nat → List Byte

end Sys2Proof
end

