-- ==== Sys2Proof/Syntax.lean ====
section
/-! DEFINITION. The instruction formats of 02_instruction_words.md (R36, R41 to R45) and the ONE inductive of the
machine's steps: a constructor for every row of spec/opcode_table.json. An instruction row carries its whole raw
format, used or unused fields alike, so that no bit of a word is lost; what an event row is about (the group, the
command, the register and its value) is an `EvArg`, which the machine's step puts into State before the row runs. -/

namespace Sys2Proof

/-- SR, scalar format (R41). -/
structure SR where
  i : Bool
  d : BitVec 6
  a : BitVec 6
  b : BitVec 6
  imm : BitVec 32
  deriving DecidableEq, Repr

/-- CB, branch format (R41); `r` is the reserved bit [50]. -/
structure CB where
  r : Bool
  d : BitVec 6
  a : BitVec 6
  b : BitVec 6
  off : BitVec 32
  deriving DecidableEq, Repr

/-- VR, vector format (R41, R42). -/
structure VR where
  t : BitVec 3
  d : BitVec 7
  a : BitVec 7
  b : BitVec 7
  c : BitVec 7
  m : BitVec 6
  rm : BitVec 2
  ok : BitVec 6
  sat : Bool
  x : BitVec 5
  deriving DecidableEq, Repr

/-- SM, scalar memory format (R43); `r` is the reserved field [35:32]. -/
structure SM where
  sz : BitVec 3
  d : BitVec 6
  a : BitVec 6
  r : BitVec 4
  ofs : BitVec 32
  deriving DecidableEq, Repr

/-- VM, vector memory format (R43). -/
structure VM where
  sz : BitVec 3
  v : BitVec 7
  sb : BitVec 6
  vi : BitVec 7
  sc : BitVec 2
  m : BitVec 6
  ofs : BitVec 20
  deriving DecidableEq, Repr

/-- EX, engine, matrix, board, helper and region format (R44). -/
structure EX where
  sub : BitVec 3
  d : BitVec 6
  a : BitVec 6
  b : BitVec 6
  c : BitVec 6
  q : BitVec 4
  w : BitVec 4
  imm : BitVec 16
  deriving DecidableEq, Repr

/-- PFX, the word before an instruction (R45, R46); `r` is the reserved field [38:0]. -/
structure Pfx where
  ord : BitVec 3
  scope : BitVec 3
  space : BitVec 3
  cp : BitVec 3
  home : BitVec 2
  chan : BitVec 5
  r : BitVec 39
  deriving DecidableEq, Repr

/-- Who writes a register of the control block: function `n` over the host link (0 is the PF), or the board
management controller over MCTP (18_package_host_fabric.md R347, 19_bring_up_and_health.md R364). -/
inductive Master where
  | fn (n : Nat)
  | bmc
  deriving DecidableEq, Repr

/-- Why a device reset runs (R361). -/
inductive ResetCause where
  | powerOn
  | dreset
  | fatal
  deriving DecidableEq, Repr

/-- The access that ACCESS_PERFORMED performs (R135, R159, R357): the dirty bytes of a line of core `core`'s L1 are
written back and performed at scope `scope`; a remote read returns its bytes; a remote write is acknowledged; the oldest
release store of a group that waits is performed (R161). -/
inductive Performed where
  | writeBack (core line scope : Nat)
  | remoteRead (req : Nat) (bytes : List Byte)
  | remoteAck (req : Nat)
  | store (uid : Nat)
  deriving DecidableEq, Repr

/-- A world register of R337: FNWORLD, CLWORLD, or region `n` of SECREGn with its base and limit. -/
inductive WorldReg where
  | fnWorld
  | clWorld
  | secReg (n : Fin 16) (valid : Bool)
  deriving DecidableEq, Repr

/-- What an event row is about: the group, command, queue, register or input of the outside world that it concerns. -/
inductive EvArg where
  /-- The event needs no argument. -/
  | none
  /-- A group, by its uid. -/
  | group (uid : Nat)
  /-- A team barrier (0 to 15) of an instance of a band, or the band barrier (16). -/
  | barrier (band inst bar : Nat)
  /-- A copy command, and the engine that takes it. -/
  | cmd (cmd engine : Nat)
  /-- A tile of a group. -/
  | tile (uid tile : Nat)
  /-- A register bank of a slice, and whether its parity holds (R97). -/
  | bank (slice bank : Nat) (parityOk : Bool)
  /-- A soft error: the unit, the owning context if one owns it, where, the location and the syndrome (R289). -/
  | check (unit : Nat) (owner : Option Nat) (die cluster core slice : Byte) (loc synd : DWord)
  /-- A group to evict, and the tiles that the arriving group needs (R260, R261). -/
  | evict (uid : Nat) (tiles : BitVec 4)
  /-- A field's next band, the cluster, the core of each team instance and the slice of each group (R22). -/
  | place (field cluster : Nat) (cores slices : List Nat)
  /-- As `place`, for a guaranteed field whose leaf takes what these harvest groups hold (R260, R310). -/
  | assign (field cluster : Nat) (cores slices victims : List Nat)
  /-- A band, by its uid. -/
  | band (band : Nat)
  /-- A context number. -/
  | ctx (ctx : Nat)
  /-- A context and the cluster of each saved band (R287). -/
  | resume (ctx : Nat) (clusters : List Nat)
  /-- A doorbell write of function `fn` (R302). -/
  | doorbell (fn slot : Nat) (value : DWord)
  /-- A queue, by its place in the front end's list. -/
  | queue (q : Nat)
  /-- A bundle, and the index of a wait or a sub-launch in it. -/
  | bundle (bundle idx : Nat)
  /-- A write of `value` to the register of function `fn` that starts an operation. -/
  | fnReg (fn : Nat) (value : DWord)
  /-- A function: 0 the PF, 1 to 63 a VF. -/
  | fn (fn : Nat)
  /-- An ATS completion: the request, the rights granted (read, write, execute) and the host page (R326). -/
  | ats (req : Nat) (granted : BitVec 3) (host : DWord)
  /-- A PRI response (R326). -/
  | pri (req : Nat) (success : Bool)
  /-- A request to the host or to a remote device. -/
  | req (req : Nat)
  /-- A host Invalidate Request: function, PASID, address and size field (R327). -/
  | atsInv (fn pasid : Nat) (va : DWord) (log2Size : Nat)
  /-- One VF, or every VF (R338). -/
  | vf (only : Option Nat)
  /-- A posted write of function `fn` to a BAR (R346, R348). -/
  | post (fn bar : Nat) (offset : DWord) (bytes : List Byte)
  /-- A request of function `fn`'s stream at the ordering point (R348). -/
  | opoint (fn idx : Nat)
  /-- A host read (R348). -/
  | hostRead (fn bar : Nat) (offset : DWord) (count : Nat)
  /-- A read of `count` bytes of the PF's control block by the BMC over MCTP (R347). -/
  | bmcRead (offset count : Nat)
  /-- An inbound fabric request: its source, its class (R352), its address, and the bytes written or the count read (R356). -/
  | fabric (src : BitVec 20) (cls : Nat) (addr : DWord) (write : Option (List Byte)) (count : Nat)
  /-- A link of the Sahig endpoint (R358). -/
  | link (link : Nat)
  /-- A write of `value`, `size` bytes, at `offset` of a control block (R347). -/
  | reg (m : Master) (offset size : Nat) (value : DWord)
  /-- A device reset, and the dies that fail authentication (R361, R362). -/
  | reset (cause : ResetCause) (authFail : Byte)
  /-- A write of `value` by a master to the register the event names. -/
  | master (m : Master) (value : DWord)
  /-- Writes of two masters to that register in the same cycle (R365). -/
  | masters (m : Master) (value : DWord) (m2 : Master) (value2 : DWord)
  /-- A die. -/
  | die (die : Nat)
  /-- The new value of HEALTH (R369). -/
  | health (value : DWord)
  /-- The access performed (R159). -/
  | performed (what : Performed)
  /-- A world register and its new value, or base and limit (R337). -/
  | world (sel : WorldReg) (value lim : DWord)
  deriving DecidableEq, Repr

/-- Every step of the machine: one constructor per row of spec/opcode_table.json. Instruction rows stand first, in the
table's order, with their raw fields; the event rows follow, and what they are about is State's event argument. -/
inductive Instr where
  /-- Unconditional branch to a header at a signed word offset. (R69) -/
  | br (f : CB)
  /-- Branch when two scalars are equal. (R69) -/
  | beq (f : CB)
  /-- Branch when two scalars differ. (R69) -/
  | bne (f : CB)
  /-- Branch when one scalar is less than another, signed. (R69) -/
  | blt (f : CB)
  /-- Branch when one scalar is greater than or equal to another, signed. (R69) -/
  | bge (f : CB)
  /-- Branch when one scalar is less than another, unsigned. (R69) -/
  | bltu (f : CB)
  /-- Branch when one scalar is greater than or equal to another, unsigned. (R69) -/
  | bgeu (f : CB)
  /-- Branch when a mask triple has no live active lane. (R69) -/
  | bmz (f : CB)
  /-- Branch when a mask triple has some live active lane. (R69) -/
  | bmnz (f : CB)
  /-- Branch when a mask triple covers every live lane. (R69) -/
  | bmall (f : CB)
  /-- Relative call that writes the return address into a link pair. (R70) -/
  | call (f : CB)
  /-- Indirect call through a scalar pair, with a link pair. (R70) -/
  | calli (f : CB)
  /-- Return to the header address held in a scalar pair. (R70) -/
  | ret (f : CB)
  /-- Indirect jump to the header address held in a scalar pair. (R70) -/
  | jmpi (f : CB)
  /-- Enter a counted loop, or skip the body on a zero count. (R71) -/
  | loop (f : CB)
  /-- Leave the innermost loop and transfer to a header. (R72) -/
  | lbrk (f : CB)
  /-- Read a loop counter or the loop nest depth. (R73) -/
  | lcget (f : CB)
  /-- Write a loop counter. (R73) -/
  | lcset (f : CB)
  /-- End the group once its accesses are performed, and release its resources. (R74) -/
  | exit (f : SR)
  /-- Give up issue until one of the named events is present. (R75) -/
  | yield (f : SR)
  /-- Occupy one issue slot and change nothing. (R76) -/
  | nop (f : SR)
  /-- Stop issuing for a count of cc. (R77) -/
  | snooze (f : SR)
  /-- AND of two raw mask triples. (R78) -/
  | mand (f : SR)
  /-- OR of two raw mask triples. (R78) -/
  | mor (f : SR)
  /-- XOR of two raw mask triples. (R78) -/
  | mxor (f : SR)
  /-- AND NOT of two raw mask triples. (R78) -/
  | mandn (f : SR)
  /-- NOT of a raw mask triple. (R78) -/
  | mnot (f : SR)
  /-- Count the live lanes of a mask triple. (R78) -/
  | mpopc (f : SR)
  /-- Find the lowest live lane of a mask triple. (R78) -/
  | mffs (f : SR)
  /-- Set a triple to a range of lanes. (R78) -/
  | mrange (f : SR)
  /-- Test whether one lane is in a mask. (R78) -/
  | mtest (f : SR)
  /-- Copy a raw mask triple. (R78) -/
  | mmov (f : SR)
  /-- Write the live mask into a triple. (R78) -/
  | mlive (f : SR)
  /-- 32-bit scalar add. (R82) -/
  | add (f : SR)
  /-- 32-bit scalar subtract. (R82) -/
  | sub (f : SR)
  /-- Low 32 bits of a scalar product. (R82) -/
  | mul (f : SR)
  /-- High 32 bits of a signed scalar product. (R82) -/
  | mulhs (f : SR)
  /-- High 32 bits of an unsigned scalar product. (R82) -/
  | mulhu (f : SR)
  /-- Scalar bitwise AND. (R82) -/
  | and (f : SR)
  /-- Scalar bitwise OR. (R82) -/
  | or (f : SR)
  /-- Scalar bitwise XOR. (R82) -/
  | xor (f : SR)
  /-- Scalar AND NOT. (R82) -/
  | andn (f : SR)
  /-- Scalar shift left. (R82) -/
  | shl (f : SR)
  /-- Scalar logical shift right. (R82) -/
  | shr (f : SR)
  /-- Scalar arithmetic shift right. (R82) -/
  | sar (f : SR)
  /-- Scalar rotate left. (R82) -/
  | rotl (f : SR)
  /-- Signed scalar minimum. (R82) -/
  | min (f : SR)
  /-- Signed scalar maximum. (R82) -/
  | max (f : SR)
  /-- Unsigned scalar minimum. (R82) -/
  | minu (f : SR)
  /-- Unsigned scalar maximum. (R82) -/
  | maxu (f : SR)
  /-- Signed scalar less-than test. (R82) -/
  | slt (f : SR)
  /-- Unsigned scalar less-than test. (R82) -/
  | sltu (f : SR)
  /-- Scalar equality test. (R82) -/
  | seq (f : SR)
  /-- Scalar inequality test. (R82) -/
  | sne (f : SR)
  /-- Count leading zeros of a scalar. (R82) -/
  | clz (f : SR)
  /-- Count trailing zeros of a scalar. (R82) -/
  | ctz (f : SR)
  /-- Count the one bits of a scalar. (R82) -/
  | popc (f : SR)
  /-- Reverse the bits of a scalar. (R82) -/
  | brev (f : SR)
  /-- Conditional scalar move. (R82) -/
  | cmov (f : SR)
  /-- 64-bit pair add. (R83) -/
  | addw (f : SR)
  /-- 64-bit pair subtract. (R83) -/
  | subw (f : SR)
  /-- Low 64 bits of a pair product. (R83) -/
  | mulw (f : SR)
  /-- Pair shift left. (R83) -/
  | shlw (f : SR)
  /-- Pair logical shift right. (R83) -/
  | shrw (f : SR)
  /-- Pair arithmetic shift right. (R83) -/
  | sarw (f : SR)
  /-- Signed pair less-than test. (R83) -/
  | sltw (f : SR)
  /-- Unsigned pair less-than test. (R83) -/
  | sltuw (f : SR)
  /-- Load a 32-bit immediate into a scalar. (R84) -/
  | li (f : SR)
  /-- Load the following 64-bit literal word into a pair. (R85) -/
  | liw (f : SR) (lit : DWord)
  /-- Add a signed offset to an address pair. (R86) -/
  | lea (f : SR)
  /-- Copy one scalar pair to another. (R87) -/
  | movwCopy (f : SR)
  /-- Form a PC-relative code address in a pair. (R87) -/
  | movwRelative (f : SR)
  /-- Lane-wise integer add, optionally saturating. (R103) -/
  | vadd (f : VR)
  /-- Lane-wise integer subtract, optionally saturating. (R103) -/
  | vsub (f : VR)
  /-- Low bits of a lane-wise integer product. (R103) -/
  | vmul (f : VR)
  /-- High bits of a signed lane-wise product. (R103) -/
  | vmulh (f : VR)
  /-- High bits of an unsigned lane-wise product. (R103) -/
  | vmulhu (f : VR)
  /-- Lane-wise integer multiply-add. (R103) -/
  | vmad (f : VR)
  /-- Lane-wise AND. (R103) -/
  | vand (f : VR)
  /-- Lane-wise OR. (R103) -/
  | vor (f : VR)
  /-- Lane-wise XOR. (R103) -/
  | vxor (f : VR)
  /-- Lane-wise AND NOT. (R103) -/
  | vandn (f : VR)
  /-- Lane-wise shift left. (R103) -/
  | vshl (f : VR)
  /-- Lane-wise logical shift right. (R103) -/
  | vshr (f : VR)
  /-- Lane-wise arithmetic shift right. (R103) -/
  | vsar (f : VR)
  /-- Lane-wise signed minimum. (R103) -/
  | vmin (f : VR)
  /-- Lane-wise signed maximum. (R103) -/
  | vmax (f : VR)
  /-- Lane-wise unsigned minimum. (R103) -/
  | vminu (f : VR)
  /-- Lane-wise unsigned maximum. (R103) -/
  | vmaxu (f : VR)
  /-- Lane-wise integer absolute value. (R103) -/
  | vabs (f : VR)
  /-- Lane-wise integer negation. (R103) -/
  | vneg (f : VR)
  /-- Lane-wise population count. (R103) -/
  | vpopc (f : VR)
  /-- Lane-wise count of leading zeros. (R103) -/
  | vclz (f : VR)
  /-- Integer compare into a mask triple. (R104) -/
  | vicmp (f : VR)
  /-- Floating-point compare into a mask triple. (R104) -/
  | vfcmp (f : VR)
  /-- IEEE add. (R105) -/
  | vfadd (f : VR)
  /-- IEEE subtract. (R105) -/
  | vfsub (f : VR)
  /-- IEEE multiply. (R105) -/
  | vfmul (f : VR)
  /-- Fused multiply-add with one rounding. (R105) -/
  | vfma (f : VR)
  /-- Fused negated multiply-add with one rounding. (R105) -/
  | vfnma (f : VR)
  /-- Floating-point minimum that propagates NaN. (R105) -/
  | vfmin (f : VR)
  /-- Floating-point maximum that propagates NaN. (R105) -/
  | vfmax (f : VR)
  /-- Floating-point minimum that prefers the number. (R105) -/
  | vfminn (f : VR)
  /-- Floating-point maximum that prefers the number. (R105) -/
  | vfmaxn (f : VR)
  /-- Clear the sign bit. (R105) -/
  | vfabs (f : VR)
  /-- Invert the sign bit. (R105) -/
  | vfneg (f : VR)
  /-- Copy the sign of the second operand. (R105) -/
  | vfcps (f : VR)
  /-- Round to an integral value in a chosen mode. (R105) -/
  | vfrnd (f : VR)
  /-- Correctly rounded divide. (R105) -/
  | vfdiv (f : VR)
  /-- Correctly rounded square root. (R105) -/
  | vfsqrt (f : VR)
  /-- Write the class bit of each element. (R105) -/
  | vfclass (f : VR)
  /-- Correctly rounded reciprocal. (R106) -/
  | vrcp (f : VR)
  /-- Correctly rounded reciprocal square root. (R106) -/
  | vrsq (f : VR)
  /-- Correctly rounded power of two. (R106) -/
  | vexp2 (f : VR)
  /-- Correctly rounded base-2 logarithm. (R106) -/
  | vlog2 (f : VR)
  /-- Correctly rounded sin(pi a). (R106) -/
  | vsinpi (f : VR)
  /-- Correctly rounded cos(pi a). (R106) -/
  | vcospi (f : VR)
  /-- Correctly rounded tanh. (R106) -/
  | vtanh (f : VR)
  /-- Copy an operand into active lanes. (R107) -/
  | vmov (f : VR)
  /-- Select between two operands per live lane by mask. (R107) -/
  | vsel (f : VR)
  /-- Broadcast one lane of a register to active lanes. (R107) -/
  | vbcst (f : VR)
  /-- Write the lane index plus an operand. (R107) -/
  | vidx (f : VR)
  /-- Read one lane of a vector register into a scalar. (R107) -/
  | vget (f : VR)
  /-- Write a scalar into one lane of a vector register. (R107) -/
  | vput (f : VR)
  /-- Convert between floating-point types. (R120) -/
  | vcvtf (f : VR)
  /-- Convert floating point to a 32-bit integer, saturating. (R121) -/
  | vf2i (f : VR)
  /-- Convert a 32-bit integer to floating point. (R121) -/
  | vi2f (f : VR)
  /-- Convert FP32 to a binary8 format, with stochastic rounding as an option. (R122) -/
  | vcvt8 (f : VR)
  /-- Convert binary8 codes to FP32. (R123) -/
  | vext8 (f : VR)
  /-- Multiply by two to an integer power. (R124) -/
  | vscale (f : VR)
  /-- Apply, invert or derive a block scale. (R124) -/
  | vbscl (f : VR)
  /-- Shift a byte into the top of each lane. (R125) -/
  | vpk8 (f : VR)
  /-- Extract one byte of each lane. (R125) -/
  | vupk8 (f : VR)
  /-- Seed the lane generators. (R126) -/
  | vrngs (f : VR)
  /-- Draw from the lane generators. (R126) -/
  | vrng (f : VR)
  /-- Scalar load. (R144) -/
  | sld (p : Option Pfx) (f : SM)
  /-- Scalar store. (R144) -/
  | sst (p : Option Pfx) (f : SM)
  /-- Vector load, gathered or uniform. (R145) -/
  | vld (p : Option Pfx) (f : VM)
  /-- Vector store, scattered or uniform. (R145) -/
  | vst (p : Option Pfx) (f : VM)
  /-- Contiguous vector load. (R145) -/
  | vldb (p : Option Pfx) (f : VM)
  /-- Contiguous vector store. (R145) -/
  | vstb (p : Option Pfx) (f : VM)
  /-- Load a stream descriptor into a stream register. (R150) -/
  | zset (f : EX)
  /-- Set a one-dimensional stream from registers. (R150) -/
  | zsets (f : EX)
  /-- Rewind a stream. (R150) -/
  | zrew (f : EX)
  /-- Read a stream's cursor. (R150) -/
  | zposRead (f : EX)
  /-- Set a stream's cursor and clear its end flag. (R150) -/
  | zposSet (f : EX)
  /-- Read a stream's end flag. (R150) -/
  | zposEnd (f : EX)
  /-- Order the group's accesses at a scope. (R153) -/
  | fence (p : Option Pfx) (f : VM)
  /-- Write back dirty L1 bytes of lines. (R154) -/
  | cwb (p : Option Pfx) (f : VM)
  /-- Write back lines, then invalidate them in L1. (R154) -/
  | cinv (p : Option Pfx) (f : VM)
  /-- Prefetch lines into L2 and L1. (R154) -/
  | pref (p : Option Pfx) (f : VM)
  /-- Open an ordered channel to a die. (R156) -/
  | chopen (f : EX)
  /-- Wait until the group's stores on a channel are performed. (R156) -/
  | chwait (f : EX)
  /-- Drain a channel, then close it. (R156) -/
  | chclose (f : EX)
  /-- Scalar atomic read-modify-write. (R172) -/
  | satom (p : Option Pfx) (f : VM)
  /-- Per-lane atomic read-modify-write. (R172) -/
  | vatom (p : Option Pfx) (f : VM)
  /-- Add FP32 values exactly to FX accumulators. (R174) -/
  | fxadd (p : Option Pfx) (f : VM)
  /-- Read an FX accumulator as floating point, with clearing as an option. (R175) -/
  | fxrd (p : Option Pfx) (f : VM)
  /-- Arrive at a team barrier and wait for it. (R177) -/
  | bart (f : EX)
  /-- Arrive at a team barrier without waiting. (R177) -/
  | bara (f : EX)
  /-- Wait on a team barrier for the phase arrived at. (R177) -/
  | barw (f : EX)
  /-- Arrive at the band barrier and wait for it. (R177) -/
  | barb (f : EX)
  /-- Initialise a scratch byte-counting barrier. (R181) -/
  | sbinit (f : EX)
  /-- Count bytes into a scratch barrier as a release. (R181) -/
  | sbarv (f : EX)
  /-- Wait until a scratch barrier has passed a phase. (R181) -/
  | sbwait (f : EX)
  /-- Wait until a memory word satisfies a condition or a timeout passes. (R182) -/
  | waitv (p : Option Pfx) (f : EX)
  /-- Bind a board slot to the calling group. (R186) -/
  | batt (f : EX)
  /-- Post a value to a board slot and receive the view and view number. (R186) -/
  | bpost (f : EX)
  /-- Read a board slot's value and levels at its home. (R186) -/
  | bread (f : EX)
  /-- Release a board slot, and clear the board as an option. (R186) -/
  | bdet (f : EX)
  /-- Copy 96 bits of a view register into a triple. (R186) -/
  | bvseg (f : EX)
  /-- Compare or count view registers. (R186) -/
  | bvcmp (f : EX)
  /-- Vote any, all, count or ballot across members. (R190) -/
  | vvote (f : VR)
  /-- Read another member lane's value. (R191) -/
  | vshfl (f : VR)
  /-- Find the lowest lane and the count sharing each key. (R192) -/
  | vmatch (f : VR)
  /-- Tree reduction of members to a scalar. (R194) -/
  | vred (f : VR)
  /-- Tree prefix reduction over members. (R195) -/
  | vscan (f : VR)
  /-- Bind a queue register to a kind. (R203) -/
  | qbind (f : EX)
  /-- Send a value to a mailbox, waiting for room. (R203) -/
  | qpush (f : EX)
  /-- Pop the head of a completion or receive register, waiting for an entry. (R203) -/
  | qpop (f : EX)
  /-- Pop the head without waiting. (R203) -/
  | qtry (f : EX)
  /-- Read the state of a queue register. (R203) -/
  | qstat (f : EX)
  /-- Push a linear copy command of a byte count. (R211) -/
  | copyLinear (p : Option Pfx) (f : EX)
  /-- Push a copy command given by a copy descriptor. (R212) -/
  | copyDescribed (p : Option Pfx) (f : EX)
  /-- Push a gather copy command. (R213) -/
  | copyg (p : Option Pfx) (f : EX)
  /-- Push a command that writes a tensor as a checkpoint shard. (R215) -/
  | copys (p : Option Pfx) (f : EX)
  /-- Push a command that re-slices shards into a tensor. (R216) -/
  | copyr (p : Option Pfx) (f : EX)
  /-- Queue a loop of K-steps on a tile. (R233) -/
  | mloop (p : Option Pfx) (f : EX)
  /-- Queue a clear of a tile. (R234) -/
  | mzero (f : EX)
  /-- Move a tile row or column into a vector register. (R235) -/
  | mrd (f : EX)
  /-- Move a vector register into a tile row or column. (R235) -/
  | mwr (f : EX)
  /-- Queue a converting store of a tile. (R236) -/
  | mst (p : Option Pfx) (f : EX)
  /-- Wait for matrix commands, taking their faults and flags. (R237) -/
  | mwait (f : EX)
  /-- Read a tile's status. (R238) -/
  | mstat (f : EX)
  /-- Recruit helper groups for a loop of N iterations. (R249) -/
  | rcrt (f : EX)
  /-- Claim the next chunk and set em to its lanes. (R250) -/
  | hnext (f : EX)
  /-- Read a lent value from the snapshot. (R250) -/
  | hrd (f : EX)
  /-- End a helper with a release. (R250) -/
  | hend (f : EX)
  /-- Wait for all helpers and receive the done mask. (R250) -/
  | hjoin (f : EX)
  /-- Request release of the recruitment at the chunk counter. (R250) -/
  | hrel (f : EX)
  /-- Open a region, recording its live-in set and state. (R268) -/
  | rgnOpen (f : EX)
  /-- Commit the region buffer as a release, and loop as an option. (R269) -/
  | rgnClose (f : EX)
  /-- Discard the region buffer and restart the region. (R270) -/
  | rgnAbort (f : EX)
  /-- Read a special register. (R291) -/
  | rds (f : SR)
  /-- Write a special register under its access rules. (R291) -/
  | wrs (f : SR)
  /-- Raise SWTRAP with a code. (R292) -/
  | trap (f : SR)
  /-- Raise BRKPT with a code. (R292) -/
  | brk (f : SR)
  /-- Return from the handler to TRAPPC. (R293) -/
  | eret (f : SR)
  /-- Answer PREEMPT: capture the group's state and end its residency. (R294) -/
  | sigs (f : SR)
  /-- Read a performance or tenant counter. (R295) -/
  | pcnt (f : SR)
  /-- Read device time plus the tenant offset. (R295) -/
  | dtime (f : SR)
  /-- The scalar control thread issues a word with an unassigned MOP or FN, or a header word inside a block body, and takes ILLEGAL. (R51) -/
  | unassignedWord (w : DWord)
  /-- Event: A named event arrives and the yielding group continues at its continuation header. (R75) -/
  | yieldWake
  /-- Event: The snooze count elapses and the group continues at the next word. (R77) -/
  | snoozeExpiry
  /-- Event: The channel stores being waited on are performed, and CHWAIT or CHCLOSE completes. (R156) -/
  | channelDrained
  /-- Event: A barrier phase overruns its limit, and the barrier breaks with BARTMO and a kill of the context. (R178) -/
  | barrierWatchdogExpiry
  /-- Event: A scratch barrier phase completes and a waiting SBWAIT returns PHASE. (R181) -/
  | sbwaitRelease
  /-- Event: The watched word may have changed, and the wait reads it again. (R182) -/
  | waitvRecheck
  /-- Event: The WAITV timeout expires and the last value read is returned. (R182) -/
  | waitvTimeout
  /-- Event: The BPOST round trip returns and its results are written to the group or its saved state. (R186) -/
  | bpostReturn
  /-- Event: Room appears in the receiver and a waiting QPUSH appends its value. (R200) -/
  | qpushRoom
  /-- Event: An entry arrives and a waiting QPOP removes it. (R203) -/
  | qpopEntry
  /-- Event: A token is popped or room appears, and a waiting copy instruction pushes its command. (R198) -/
  | copyIssueUnblock
  /-- Event: An engine accepts the next command of a command register. (R199) -/
  | copyCommandStart
  /-- Event: A granule's bytes are performed at band scope and then counted into its barrier. (R206) -/
  | granuleLand
  /-- Event: A command ends and places its token in the completion register. (R209) -/
  | copyToken
  /-- Event: The awaited matrix commands complete and MWAIT returns. (R237) -/
  | mwaitDone
  /-- Event: The sequencer starts a K-step once both panels and their scales are pinned. (R220) -/
  | kstepStart
  /-- Event: A K-step ends after 32 cc and adds one rounded step sum to every element. (R225) -/
  | kstepComplete
  /-- Event: The tile fetch unit's line fetch returns and is pinned. (R226) -/
  | tileFetch
  /-- Event: A queued MST reaches its turn and writes the converted tile. (R236) -/
  | mstPerform
  /-- Event: A queued MZERO reaches its turn and clears the tile. (R234) -/
  | mzeroPerform
  /-- Event: A granted helper starts at its entry header with its defined state. (R241) -/
  | helperStart
  /-- Event: The last helper ends or parks and the waiting HJOIN returns or takes HFLT. (R250) -/
  | hjoinComplete
  /-- Event: A helper exceeds 16,384 cc on a chunk and parks with WDPROG. (R245) -/
  | chunkWatchdogExpiry
  /-- Event: A write buffer is freed and a waiting RGN.OPEN obtains it. (R257) -/
  | rgnOpenBufferGrant
  /-- Event: The gather ends, the entries are applied and the held lines are released at once. (R259) -/
  | rgnCommitPublish
  /-- Event: The retired-instruction count passes its limit and the group parks with WDPROG. (R283) -/
  | progressWatchdogExpiry
  /-- Event: A ready group unchosen for 64 cc is raised to the top of its class. (R27) -/
  | issueFairnessRaise
  /-- Event: A drowsy bank is swept for parity before any access to it. (R97) -/
  | bankSweep
  /-- Event: An uncorrectable error kills the owning context or reports FATAL. (R289) -/
  | machineCheck
  /-- Event: A guaranteed arrival evicts a harvest group, discarding its region buffer and spilling state. (R261) -/
  | harvestEviction
  /-- Event: The spill engine finishes writing a victim's state to its bittern slot. (R263) -/
  | spillComplete
  /-- Event: Capacity returns and an evicted group is reloaded with an acquire. (R265) -/
  | harvestReload
  /-- Event: A leaf places a whole band on one cluster. (R22) -/
  | bandPlace
  /-- Event: The last group of a band exits and the band retires with a release. (R164) -/
  | bandRetire
  /-- Event: A context's slice elapses with other work waiting, and tier 2 pre-emption begins. (R315) -/
  | tenantSliceEnd
  /-- Event: The drain deadline passes and tier 3 pre-emption delivers PREEMPT. (R285) -/
  | deadlineOverrun
  /-- Event: A group misses SIGS within 100 us, and the context is killed. (R286) -/
  | preemptHandlerTimeout
  /-- Event: Every remaining group has saved, and the part writes the context save. (R287) -/
  | contextSave
  /-- Event: A saved context is checked, restored and restarted on its dies. (R287) -/
  | contextResume
  /-- Event: The timer or step count fires, pausing dispatch for a checkpoint. (R316) -/
  | checkpointTrigger
  /-- Event: Started bundles drain and the checkpoint queue's next bundle starts. (R316) -/
  | checkpointBundleStart
  /-- Event: A doorbell write sets a queue's write index, or is ignored or puts the queue into ERROR. (R302) -/
  | doorbellWrite
  /-- Event: The next bundle is read and checked for MALFORMED cases. (R303) -/
  | bundleRead
  /-- Event: A bundle's wait condition is polled as an acquire at system scope. (R303) -/
  | waitConditionPoll
  /-- Event: All waits hold; fields are checked for refusal and the sub-launches start. (R303) -/
  | bundleStart
  /-- Event: The other sub-launches retire and an AFTER signal is performed. (R306) -/
  | signalAfter
  /-- Event: All sub-launches retire; the completion record, the interrupt and RDIDX follow. (R307) -/
  | bundleRetire
  /-- Event: Drop a cached QCB and reread the entries, which can leave ERROR. (R297) -/
  | qctlInval
  /-- Event: Begin destroying a queue, killing its bands as an option. (R317) -/
  | qctlDestroy
  /-- Event: Every leaf acknowledges, and the queue becomes DESTROYED. (R317) -/
  | destroyComplete
  /-- Event: Bind a doorbell slot to a queue. (R297) -/
  | qctlDbmap
  /-- Event: Unbind a doorbell slot. (R297) -/
  | qctlDbunmap
  /-- Event: Resume a parked group at TRAPPC. (R280) -/
  | parkctlResumeInstruction
  /-- Event: Resume a parked group at its handler. (R280) -/
  | parkctlResumeHandler
  /-- Event: Kill one group. (R279) -/
  | parkctlKillGroup
  /-- Event: Kill every group of a team instance. (R279) -/
  | parkctlKillTeam
  /-- Event: Kill a band, which retires KILLED. (R279) -/
  | parkctlKillBand
  /-- Event: Kill every band of a context and stop its dispatch. (R279) -/
  | parkctlKillContext
  /-- Event: Invalidate every translation of a PASID. (R328) -/
  | tlbinvPasid
  /-- Event: Invalidate translations of a page range. (R328) -/
  | tlbinvRange
  /-- Event: Invalidate every translation of a VF's stage 2. (R328) -/
  | tlbinvStage2
  /-- Event: Covered accesses are performed or dropped and GO returns to 0. (R329) -/
  | tlbinvComplete
  /-- Event: Read, check and install an object-table record. (R333) -/
  | objctlInstall
  /-- Event: Uninstall an object-table record. (R333) -/
  | objctlRemove
  /-- Event: An ATS Translation Completion arrives, and PRI is sent if it grants no access. (R326) -/
  | atsCompletion
  /-- Event: A PRI response arrives, repeating ATS or failing with TRANSL. (R326) -/
  | priResponse
  /-- Event: No PRI response comes within 100 ms, which is treated as Invalid Request. (R326) -/
  | priTimeout
  /-- Event: A host Invalidate Request drops translations before the completion is sent. (R327) -/
  | atsInvalidateRequest
  /-- Event: VF Enable is cleared or an FLR reaches a VF, and its work is torn down. (R338) -/
  | vfEnableClear
  /-- Event: A host posted write is split into requests at the ordering point. (R348) -/
  | inboundPostedWrite
  /-- Event: A held request is sent once earlier requests on other routes are acknowledged. (R348) -/
  | orderingPointSend
  /-- Event: A route acknowledges a request performed at system scope. (R348) -/
  | orderingPointAck
  /-- Event: A host read is served after earlier posted writes are acknowledged. (R348) -/
  | inboundHostRead
  /-- Event: The host link goes down and PF ownership lapses. (R365) -/
  | hostLinkDown
  /-- Event: An inbound Sahig request is matched to a window, or answered with a NAK. (R356) -/
  | inboundFabricRequest
  /-- Event: A remote access is answered by a NAK, and a fabric error record is written. (R357) -/
  | remoteNak
  /-- Event: A remote access is not answered within 1 ms. (R357) -/
  | remoteTimeout
  /-- Event: A link leaves its port, and its flits are resent or fail LINKDOWN. (R358) -/
  | linkLoss
  /-- Event: A returning link rejoins its port at the next window. (R358) -/
  | linkReturn
  /-- Event: A new 1 us window starts and the send allowances refill. (R355) -/
  | fabricWindowStart
  /-- Event: Reset one die, with kills and route drains per die. (R343) -/
  | dreset
  /-- Event: Power-on, DRESET 8 or FATAL runs the boot chain and authentication. (R361) -/
  | deviceReset
  /-- Event: Claim ownership while OWNER is 0. (R365) -/
  | ownClaim
  /-- Event: The owner names a master to hand ownership to. (R365) -/
  | ownHandto
  /-- Event: The named master accepts ownership. (R365) -/
  | ownAccept
  /-- Event: Park a running group as BRKPT with ARG 0xFF. (R368) -/
  | debugHalt
  /-- Event: Read a register or item of a parked group. (R368) -/
  | debugRead
  /-- Event: Write a register or item of a parked group. (R368) -/
  | debugWrite
  /-- Event: Write a live-in value into a parked group's region record. (R367) -/
  | debugWrec
  /-- Event: Write the class split, keeping fields written out of range unchanged. (R252) -/
  | classcfgWrite
  /-- Event: Set the VF aperture size, ignored out of range or while VF Enable is set. (R346) -/
  | vfapszWrite
  /-- Event: Select a tenant counter event, clearing that counter for every tenant. (R335) -/
  | tcselWrite
  /-- Event: Name the route table and empty its cache. (R351) -/
  | frtrootWrite
  /-- Event: Name the inbound window table and apply its changes. (R356) -/
  | finrootWrite
  /-- Event: Write to a control register with no behaviour of its own, subject to the owner check. (R347) -/
  | registerWrite
  /-- Event: The hourly update of HEALTH and the margin-based frequency cap. (R369) -/
  | healthUpdate
  /-- Event: A die passes 105 C, capping its cores at 2.0 GHz. (R370) -/
  | thermalLimit
  /-- Event: A die reaches 115 C, and the part reports FATAL and resets. (R370) -/
  | thermalTrip
  /-- Event: The 54 V feed stays below 48 V for over 1 ms, and the device resets. (R370) -/
  | feedLoss
  /-- Event: An outstanding load returns its value, or a store, write-back or remote access becomes performed at a scope and is acknowledged. (R159) -/
  | accessPerformed
  /-- Event: A function-level reset of the PF lapses ownership and cancels the function's copy commands. (R365) -/
  | pfFunctionLevelReset
  /-- Event: A correctable soft error is corrected, counted and reported with severity 0, and feeds HEALTH.HBMTR. (R289) -/
  | correctedError
  /-- Event: The host sets VF Enable, fixing the VF aperture size from VFAPSZ for every VF's BAR4. (R346) -/
  | vfEnableSet
  /-- Event: The security processor writes FNWORLD, CLWORLD or a SECREG region, changing which functions, clusters and memory are secure. (R337) -/
  | worldRegisterWrite
  deriving DecidableEq, Repr

end Sys2Proof
end

