-- ==== Sys2Proof/Decode.lean ====
section
/-! DEFINITION. The decoder, total on any words and rejecting by name, and the encoder, both from the tables of
02_instruction_words.md (R36, R41 to R51). -/

namespace Sys2Proof

/-- Why a word or a pair of words is no instruction; each is ILLEGAL at the word or its prefix (R46 to R51). -/
inductive DecodeErr where
  /-- A prefix before a word that accepts none (R46, R47). -/
  | pfxRefused
  /-- A prefix with a reserved value in a field (R47). -/
  | pfxReserved
  /-- A prefix followed by another prefix (R47). -/
  | pfxTwice
  /-- A prefix that is the last word of its block (R47). -/
  | pfxLast
  /-- LIW as the last word of its block (R48). -/
  | noLiteral
  /-- A SUB value of ZPOS or COPY that its entry does not list (R45). -/
  | unlistedSub
  /-- No word at all. -/
  | noWord
  deriving DecidableEq, Repr

/-- MOP, bits [63:58] (R41). -/
def mopOf (w : DWord) : BitVec 6 := w.extractLsb' 58 6
/-- FN, bits [57:51] (R41). -/
def fnOf (w : DWord) : BitVec 7 := w.extractLsb' 51 7
/-- One bit of a word. -/
def bitOf (w : DWord) (k : Nat) : Bool := w.getLsbD k
/-- A condition as one bit. -/
def bit1 (b : Bool) : BitVec 1 := BitVec.ofBool b

/-- The fields of a word in SR format (R41). -/
def SR.ofWord (w : DWord) : SR where
  i := bitOf w 50
  d := w.extractLsb' 44 6
  a := w.extractLsb' 38 6
  b := w.extractLsb' 32 6
  imm := w.extractLsb' 0 32
/-- The word of SR fields under MOP and FN (R41). -/
def SR.toWord (f : SR) (mop : BitVec 6) (fn : BitVec 7) : DWord :=
  mop ++ fn ++ bit1 f.i ++ f.d ++ f.a ++ f.b ++ f.imm

/-- The fields of a word in CB format (R41). -/
def CB.ofWord (w : DWord) : CB where
  r := bitOf w 50
  d := w.extractLsb' 44 6
  a := w.extractLsb' 38 6
  b := w.extractLsb' 32 6
  off := w.extractLsb' 0 32
/-- The word of CB fields under MOP and FN (R41). -/
def CB.toWord (f : CB) (mop : BitVec 6) (fn : BitVec 7) : DWord :=
  mop ++ fn ++ bit1 f.r ++ f.d ++ f.a ++ f.b ++ f.off

/-- The fields of a word in VR format (R41). -/
def VR.ofWord (w : DWord) : VR where
  t := w.extractLsb' 48 3
  d := w.extractLsb' 41 7
  a := w.extractLsb' 34 7
  b := w.extractLsb' 27 7
  c := w.extractLsb' 20 7
  m := w.extractLsb' 14 6
  rm := w.extractLsb' 12 2
  ok := w.extractLsb' 6 6
  sat := bitOf w 5
  x := w.extractLsb' 0 5
/-- The word of VR fields under MOP and FN (R41). -/
def VR.toWord (f : VR) (mop : BitVec 6) (fn : BitVec 7) : DWord :=
  mop ++ fn ++ f.t ++ f.d ++ f.a ++ f.b ++ f.c ++ f.m ++ f.rm ++ f.ok ++ bit1 f.sat ++ f.x

/-- The fields of a word in SM format (R43). -/
def SM.ofWord (w : DWord) : SM where
  sz := w.extractLsb' 48 3
  d := w.extractLsb' 42 6
  a := w.extractLsb' 36 6
  r := w.extractLsb' 32 4
  ofs := w.extractLsb' 0 32
/-- The word of SM fields under MOP and FN (R43). -/
def SM.toWord (f : SM) (mop : BitVec 6) (fn : BitVec 7) : DWord :=
  mop ++ fn ++ f.sz ++ f.d ++ f.a ++ f.r ++ f.ofs

/-- The fields of a word in VM format (R43). -/
def VM.ofWord (w : DWord) : VM where
  sz := w.extractLsb' 48 3
  v := w.extractLsb' 41 7
  sb := w.extractLsb' 35 6
  vi := w.extractLsb' 28 7
  sc := w.extractLsb' 26 2
  m := w.extractLsb' 20 6
  ofs := w.extractLsb' 0 20
/-- The word of VM fields under MOP and FN (R43). -/
def VM.toWord (f : VM) (mop : BitVec 6) (fn : BitVec 7) : DWord :=
  mop ++ fn ++ f.sz ++ f.v ++ f.sb ++ f.vi ++ f.sc ++ f.m ++ f.ofs

/-- The fields of a word in EX format (R44). -/
def EX.ofWord (w : DWord) : EX where
  sub := w.extractLsb' 48 3
  d := w.extractLsb' 42 6
  a := w.extractLsb' 36 6
  b := w.extractLsb' 30 6
  c := w.extractLsb' 24 6
  q := w.extractLsb' 20 4
  w := w.extractLsb' 16 4
  imm := w.extractLsb' 0 16
/-- The word of EX fields under MOP and FN (R44). -/
def EX.toWord (f : EX) (mop : BitVec 6) (fn : BitVec 7) : DWord :=
  mop ++ fn ++ f.sub ++ f.d ++ f.a ++ f.b ++ f.c ++ f.q ++ f.w ++ f.imm

/-- The fields of a prefix word (R45). -/
def Pfx.ofWord (w : DWord) : Pfx where
  ord := w.extractLsb' 55 3
  scope := w.extractLsb' 52 3
  space := w.extractLsb' 49 3
  cp := w.extractLsb' 46 3
  home := w.extractLsb' 44 2
  chan := w.extractLsb' 39 5
  r := w.extractLsb' 0 39
/-- The prefix word of its fields (R45). -/
def Pfx.toWord (p : Pfx) : DWord :=
  (0x3F#6) ++ p.ord ++ p.scope ++ p.space ++ p.cp ++ p.home ++ p.chan ++ p.r

/-- No field of the prefix holds a reserved value (R45, R47). -/
def Pfx.reservedOk (p : Pfx) : Bool :=
  decide (p.ord.toNat ≤ 4) && decide (p.scope.toNat ≤ 6) && decide (p.space.toNat ≤ 5) &&
  decide (p.cp.toNat ≤ 5) && decide (p.home.toNat ≤ 2) && decide (p.r = 0)

/-- A block header (R36). -/
structure Header where
  len : BitVec 10
  live : BitVec 16
  join : BitVec 16
  pfn : BitVec 4
  pfk : BitVec 4
  rsv : BitVec 2
  flagE : Bool
  flagT : Bool
  flagH : Bool
  flagG : Bool
  flagJ : Bool
  flagL : Bool
  deriving DecidableEq, Repr

/-- The part recognises a header by bits [63:58] = 0 and by nothing else (R33). -/
def isHeader (w : DWord) : Bool := decide (mopOf w = 0)

/-- The fields of a header word (R36). -/
def Header.ofWord (w : DWord) : Header where
  len := w.extractLsb' 48 10
  live := w.extractLsb' 32 16
  join := w.extractLsb' 16 16
  pfn := w.extractLsb' 12 4
  pfk := w.extractLsb' 8 4
  rsv := w.extractLsb' 6 2
  flagE := bitOf w 5
  flagT := bitOf w 4
  flagH := bitOf w 3
  flagG := bitOf w 2
  flagJ := bitOf w 1
  flagL := bitOf w 0

/-- The checks of R37 at each block entry: LEN is not 0, PFK is 0 to 2, bits [7:6] are zero. -/
def Header.ok (h : Header) : Bool :=
  decide (h.len ≠ 0) && decide (h.pfk.toNat ≤ 2) && decide (h.rsv = 0)

/-- MOP 0x01 of R50: BR, BEQ, BNE, BLT, BGE, BLTU, BGEU, BMZ, BMNZ, BMALL. -/
def decodeMop01 (w : DWord) : Except DecodeErr Instr :=
  match (fnOf w).toNat with
  | 0 => .ok (.br (CB.ofWord w))
  | 1 => .ok (.beq (CB.ofWord w))
  | 2 => .ok (.bne (CB.ofWord w))
  | 3 => .ok (.blt (CB.ofWord w))
  | 4 => .ok (.bge (CB.ofWord w))
  | 5 => .ok (.bltu (CB.ofWord w))
  | 6 => .ok (.bgeu (CB.ofWord w))
  | 7 => .ok (.bmz (CB.ofWord w))
  | 8 => .ok (.bmnz (CB.ofWord w))
  | 9 => .ok (.bmall (CB.ofWord w))
  | _ => .ok (.unassignedWord w)

/-- MOP 0x02 of R50: CALL, CALLI, RET, JMPI. -/
def decodeMop02 (w : DWord) : Except DecodeErr Instr :=
  match (fnOf w).toNat with
  | 0 => .ok (.call (CB.ofWord w))
  | 1 => .ok (.calli (CB.ofWord w))
  | 2 => .ok (.ret (CB.ofWord w))
  | 3 => .ok (.jmpi (CB.ofWord w))
  | _ => .ok (.unassignedWord w)

/-- MOP 0x03 of R50: LOOP, LBRK, LCGET, LCSET. -/
def decodeMop03 (w : DWord) : Except DecodeErr Instr :=
  match (fnOf w).toNat with
  | 0 => .ok (.loop (CB.ofWord w))
  | 1 => .ok (.lbrk (CB.ofWord w))
  | 2 => .ok (.lcget (CB.ofWord w))
  | 3 => .ok (.lcset (CB.ofWord w))
  | _ => .ok (.unassignedWord w)

/-- MOP 0x04 of R50: EXIT, YIELD, NOP, SNOOZE. -/
def decodeMop04 (w : DWord) : Except DecodeErr Instr :=
  match (fnOf w).toNat with
  | 0 => .ok (.exit (SR.ofWord w))
  | 1 => .ok (.yield (SR.ofWord w))
  | 2 => .ok (.nop (SR.ofWord w))
  | 3 => .ok (.snooze (SR.ofWord w))
  | _ => .ok (.unassignedWord w)

/-- MOP 0x05 of R50: MAND, MOR, MXOR, MANDN, MNOT, MPOPC, MFFS, MRANGE, MTEST, MMOV, MLIVE. -/
def decodeMop05 (w : DWord) : Except DecodeErr Instr :=
  match (fnOf w).toNat with
  | 0 => .ok (.mand (SR.ofWord w))
  | 1 => .ok (.mor (SR.ofWord w))
  | 2 => .ok (.mxor (SR.ofWord w))
  | 3 => .ok (.mandn (SR.ofWord w))
  | 4 => .ok (.mnot (SR.ofWord w))
  | 5 => .ok (.mpopc (SR.ofWord w))
  | 6 => .ok (.mffs (SR.ofWord w))
  | 7 => .ok (.mrange (SR.ofWord w))
  | 8 => .ok (.mtest (SR.ofWord w))
  | 9 => .ok (.mmov (SR.ofWord w))
  | 10 => .ok (.mlive (SR.ofWord w))
  | _ => .ok (.unassignedWord w)

/-- MOP 0x08 of R50: ADD, SUB, MUL, MULHS, MULHU, AND, OR, XOR, ANDN, SHL, SHR, SAR, ROTL, MIN, MAX, MINU, MAXU, SLT, SLTU, SEQ, SNE, CLZ, CTZ, POPC, BREV, CMOV. -/
def decodeMop08 (w : DWord) : Except DecodeErr Instr :=
  match (fnOf w).toNat with
  | 0 => .ok (.add (SR.ofWord w))
  | 1 => .ok (.sub (SR.ofWord w))
  | 2 => .ok (.mul (SR.ofWord w))
  | 3 => .ok (.mulhs (SR.ofWord w))
  | 4 => .ok (.mulhu (SR.ofWord w))
  | 5 => .ok (.and (SR.ofWord w))
  | 6 => .ok (.or (SR.ofWord w))
  | 7 => .ok (.xor (SR.ofWord w))
  | 8 => .ok (.andn (SR.ofWord w))
  | 9 => .ok (.shl (SR.ofWord w))
  | 10 => .ok (.shr (SR.ofWord w))
  | 11 => .ok (.sar (SR.ofWord w))
  | 12 => .ok (.rotl (SR.ofWord w))
  | 13 => .ok (.min (SR.ofWord w))
  | 14 => .ok (.max (SR.ofWord w))
  | 15 => .ok (.minu (SR.ofWord w))
  | 16 => .ok (.maxu (SR.ofWord w))
  | 17 => .ok (.slt (SR.ofWord w))
  | 18 => .ok (.sltu (SR.ofWord w))
  | 19 => .ok (.seq (SR.ofWord w))
  | 20 => .ok (.sne (SR.ofWord w))
  | 21 => .ok (.clz (SR.ofWord w))
  | 22 => .ok (.ctz (SR.ofWord w))
  | 23 => .ok (.popc (SR.ofWord w))
  | 24 => .ok (.brev (SR.ofWord w))
  | 25 => .ok (.cmov (SR.ofWord w))
  | _ => .ok (.unassignedWord w)

/-- MOP 0x09 of R50: ADDW, SUBW, MULW, SHLW, SHRW, SARW, SLTW, SLTUW. -/
def decodeMop09 (w : DWord) : Except DecodeErr Instr :=
  match (fnOf w).toNat with
  | 0 => .ok (.addw (SR.ofWord w))
  | 1 => .ok (.subw (SR.ofWord w))
  | 2 => .ok (.mulw (SR.ofWord w))
  | 3 => .ok (.shlw (SR.ofWord w))
  | 4 => .ok (.shrw (SR.ofWord w))
  | 5 => .ok (.sarw (SR.ofWord w))
  | 6 => .ok (.sltw (SR.ofWord w))
  | 7 => .ok (.sltuw (SR.ofWord w))
  | _ => .ok (.unassignedWord w)

/-- MOP 0x0A of R50: LI, LIW, LEA, MOVW. -/
def decodeMop0A (w : DWord) (lit : Option DWord) : Except DecodeErr Instr :=
  match (fnOf w).toNat with
  | 0 => .ok (.li (SR.ofWord w))
  | 1 =>
    match lit with
    | some l => .ok (.liw (SR.ofWord w) l)
    | none => .error .noLiteral
  | 2 => .ok (.lea (SR.ofWord w))
  | 3 => if (SR.ofWord w).i then .ok (.movwRelative (SR.ofWord w)) else .ok (.movwCopy (SR.ofWord w))
  | _ => .ok (.unassignedWord w)

/-- MOP 0x10 of R50: VADD, VSUB, VMUL, VMULH, VMULHU, VMAD, VAND, VOR, VXOR, VANDN, VSHL, VSHR, VSAR, VMIN, VMAX, VMINU, VMAXU, VABS, VNEG, VPOPC, VCLZ. -/
def decodeMop10 (w : DWord) : Except DecodeErr Instr :=
  match (fnOf w).toNat with
  | 0 => .ok (.vadd (VR.ofWord w))
  | 1 => .ok (.vsub (VR.ofWord w))
  | 2 => .ok (.vmul (VR.ofWord w))
  | 3 => .ok (.vmulh (VR.ofWord w))
  | 4 => .ok (.vmulhu (VR.ofWord w))
  | 5 => .ok (.vmad (VR.ofWord w))
  | 6 => .ok (.vand (VR.ofWord w))
  | 7 => .ok (.vor (VR.ofWord w))
  | 8 => .ok (.vxor (VR.ofWord w))
  | 9 => .ok (.vandn (VR.ofWord w))
  | 10 => .ok (.vshl (VR.ofWord w))
  | 11 => .ok (.vshr (VR.ofWord w))
  | 12 => .ok (.vsar (VR.ofWord w))
  | 13 => .ok (.vmin (VR.ofWord w))
  | 14 => .ok (.vmax (VR.ofWord w))
  | 15 => .ok (.vminu (VR.ofWord w))
  | 16 => .ok (.vmaxu (VR.ofWord w))
  | 17 => .ok (.vabs (VR.ofWord w))
  | 18 => .ok (.vneg (VR.ofWord w))
  | 19 => .ok (.vpopc (VR.ofWord w))
  | 20 => .ok (.vclz (VR.ofWord w))
  | _ => .ok (.unassignedWord w)

/-- MOP 0x11 of R50: VICMP, VFCMP. -/
def decodeMop11 (w : DWord) : Except DecodeErr Instr :=
  match (fnOf w).toNat with
  | 0 => .ok (.vicmp (VR.ofWord w))
  | 1 => .ok (.vfcmp (VR.ofWord w))
  | _ => .ok (.unassignedWord w)

/-- MOP 0x12 of R50: VFADD, VFSUB, VFMUL, VFMA, VFNMA, VFMIN, VFMAX, VFMINN, VFMAXN, VFABS, VFNEG, VFCPS, VFRND, VFDIV, VFSQRT, VFCLASS. -/
def decodeMop12 (w : DWord) : Except DecodeErr Instr :=
  match (fnOf w).toNat with
  | 0 => .ok (.vfadd (VR.ofWord w))
  | 1 => .ok (.vfsub (VR.ofWord w))
  | 2 => .ok (.vfmul (VR.ofWord w))
  | 3 => .ok (.vfma (VR.ofWord w))
  | 4 => .ok (.vfnma (VR.ofWord w))
  | 5 => .ok (.vfmin (VR.ofWord w))
  | 6 => .ok (.vfmax (VR.ofWord w))
  | 7 => .ok (.vfminn (VR.ofWord w))
  | 8 => .ok (.vfmaxn (VR.ofWord w))
  | 9 => .ok (.vfabs (VR.ofWord w))
  | 10 => .ok (.vfneg (VR.ofWord w))
  | 11 => .ok (.vfcps (VR.ofWord w))
  | 12 => .ok (.vfrnd (VR.ofWord w))
  | 13 => .ok (.vfdiv (VR.ofWord w))
  | 14 => .ok (.vfsqrt (VR.ofWord w))
  | 15 => .ok (.vfclass (VR.ofWord w))
  | _ => .ok (.unassignedWord w)

/-- MOP 0x13 of R50: VRCP, VRSQ, VEXP2, VLOG2, VSINPI, VCOSPI, VTANH. -/
def decodeMop13 (w : DWord) : Except DecodeErr Instr :=
  match (fnOf w).toNat with
  | 0 => .ok (.vrcp (VR.ofWord w))
  | 1 => .ok (.vrsq (VR.ofWord w))
  | 2 => .ok (.vexp2 (VR.ofWord w))
  | 3 => .ok (.vlog2 (VR.ofWord w))
  | 4 => .ok (.vsinpi (VR.ofWord w))
  | 5 => .ok (.vcospi (VR.ofWord w))
  | 6 => .ok (.vtanh (VR.ofWord w))
  | _ => .ok (.unassignedWord w)

/-- MOP 0x14 of R50: VMOV, VSEL, VBCST, VIDX, VGET, VPUT. -/
def decodeMop14 (w : DWord) : Except DecodeErr Instr :=
  match (fnOf w).toNat with
  | 0 => .ok (.vmov (VR.ofWord w))
  | 1 => .ok (.vsel (VR.ofWord w))
  | 2 => .ok (.vbcst (VR.ofWord w))
  | 3 => .ok (.vidx (VR.ofWord w))
  | 4 => .ok (.vget (VR.ofWord w))
  | 5 => .ok (.vput (VR.ofWord w))
  | _ => .ok (.unassignedWord w)

/-- MOP 0x18 of R50: VCVTF, VF2I, VI2F, VCVT8, VEXT8, VSCALE, VBSCL, VPK8, VUPK8. -/
def decodeMop18 (w : DWord) : Except DecodeErr Instr :=
  match (fnOf w).toNat with
  | 0 => .ok (.vcvtf (VR.ofWord w))
  | 1 => .ok (.vf2i (VR.ofWord w))
  | 2 => .ok (.vi2f (VR.ofWord w))
  | 3 => .ok (.vcvt8 (VR.ofWord w))
  | 4 => .ok (.vext8 (VR.ofWord w))
  | 5 => .ok (.vscale (VR.ofWord w))
  | 6 => .ok (.vbscl (VR.ofWord w))
  | 7 => .ok (.vpk8 (VR.ofWord w))
  | 8 => .ok (.vupk8 (VR.ofWord w))
  | _ => .ok (.unassignedWord w)

/-- MOP 0x19 of R50: VRNGS, VRNG. -/
def decodeMop19 (w : DWord) : Except DecodeErr Instr :=
  match (fnOf w).toNat with
  | 0 => .ok (.vrngs (VR.ofWord w))
  | 1 => .ok (.vrng (VR.ofWord w))
  | _ => .ok (.unassignedWord w)

/-- MOP 0x20 of R50: SLD, SST. -/
def decodeMop20 (p : Option Pfx) (w : DWord) : Except DecodeErr Instr :=
  match (fnOf w).toNat with
  | 0 => .ok (.sld p (SM.ofWord w))
  | 1 => .ok (.sst p (SM.ofWord w))
  | _ => .ok (.unassignedWord w)

/-- MOP 0x21 of R50: VLD, VST, VLDB, VSTB. -/
def decodeMop21 (p : Option Pfx) (w : DWord) : Except DecodeErr Instr :=
  match (fnOf w).toNat with
  | 0 => .ok (.vld p (VM.ofWord w))
  | 1 => .ok (.vst p (VM.ofWord w))
  | 2 => .ok (.vldb p (VM.ofWord w))
  | 3 => .ok (.vstb p (VM.ofWord w))
  | _ => .ok (.unassignedWord w)

/-- MOP 0x22 of R50: ZSET, ZSETS, ZREW, ZPOS. -/
def decodeMop22 (w : DWord) : Except DecodeErr Instr :=
  match (fnOf w).toNat with
  | 0 => .ok (.zset (EX.ofWord w))
  | 1 => .ok (.zsets (EX.ofWord w))
  | 2 => .ok (.zrew (EX.ofWord w))
  | 3 =>
    match (EX.ofWord w).sub.toNat with
    | 0 => .ok (.zposRead (EX.ofWord w))
    | 1 => .ok (.zposSet (EX.ofWord w))
    | 2 => .ok (.zposEnd (EX.ofWord w))
    | _ => .error .unlistedSub
  | _ => .ok (.unassignedWord w)

/-- MOP 0x23 of R50: FENCE, CWB, CINV, PREF. -/
def decodeMop23 (p : Option Pfx) (w : DWord) : Except DecodeErr Instr :=
  match (fnOf w).toNat with
  | 0 => .ok (.fence p (VM.ofWord w))
  | 1 => .ok (.cwb p (VM.ofWord w))
  | 2 => .ok (.cinv p (VM.ofWord w))
  | 3 => .ok (.pref p (VM.ofWord w))
  | _ => .ok (.unassignedWord w)

/-- MOP 0x24 of R50: CHOPEN, CHWAIT, CHCLOSE. -/
def decodeMop24 (w : DWord) : Except DecodeErr Instr :=
  match (fnOf w).toNat with
  | 0 => .ok (.chopen (EX.ofWord w))
  | 1 => .ok (.chwait (EX.ofWord w))
  | 2 => .ok (.chclose (EX.ofWord w))
  | _ => .ok (.unassignedWord w)

/-- MOP 0x28 of R50: SATOM, VATOM, FXADD, FXRD. -/
def decodeMop28 (p : Option Pfx) (w : DWord) : Except DecodeErr Instr :=
  match (fnOf w).toNat with
  | 0 => .ok (.satom p (VM.ofWord w))
  | 1 => .ok (.vatom p (VM.ofWord w))
  | 2 => .ok (.fxadd p (VM.ofWord w))
  | 3 => .ok (.fxrd p (VM.ofWord w))
  | _ => .ok (.unassignedWord w)

/-- MOP 0x29 of R50: BART, BARA, BARW, BARB, SBINIT, SBARV, SBWAIT. -/
def decodeMop29 (w : DWord) : Except DecodeErr Instr :=
  match (fnOf w).toNat with
  | 0 => .ok (.bart (EX.ofWord w))
  | 1 => .ok (.bara (EX.ofWord w))
  | 2 => .ok (.barw (EX.ofWord w))
  | 3 => .ok (.barb (EX.ofWord w))
  | 4 => .ok (.sbinit (EX.ofWord w))
  | 5 => .ok (.sbarv (EX.ofWord w))
  | 6 => .ok (.sbwait (EX.ofWord w))
  | _ => .ok (.unassignedWord w)

/-- MOP 0x2A of R50: WAITV. -/
def decodeMop2A (p : Option Pfx) (w : DWord) : Except DecodeErr Instr :=
  match (fnOf w).toNat with
  | 0 => .ok (.waitv p (EX.ofWord w))
  | _ => .ok (.unassignedWord w)

/-- MOP 0x2B of R50: BATT, BPOST, BREAD, BDET, BVSEG, BVCMP. -/
def decodeMop2B (w : DWord) : Except DecodeErr Instr :=
  match (fnOf w).toNat with
  | 0 => .ok (.batt (EX.ofWord w))
  | 1 => .ok (.bpost (EX.ofWord w))
  | 2 => .ok (.bread (EX.ofWord w))
  | 3 => .ok (.bdet (EX.ofWord w))
  | 4 => .ok (.bvseg (EX.ofWord w))
  | 5 => .ok (.bvcmp (EX.ofWord w))
  | _ => .ok (.unassignedWord w)

/-- MOP 0x2C of R50: VVOTE, VSHFL, VMATCH, VRED, VSCAN. -/
def decodeMop2C (w : DWord) : Except DecodeErr Instr :=
  match (fnOf w).toNat with
  | 0 => .ok (.vvote (VR.ofWord w))
  | 1 => .ok (.vshfl (VR.ofWord w))
  | 2 => .ok (.vmatch (VR.ofWord w))
  | 3 => .ok (.vred (VR.ofWord w))
  | 4 => .ok (.vscan (VR.ofWord w))
  | _ => .ok (.unassignedWord w)

/-- MOP 0x30 of R50: QBIND, QPUSH, QPOP, QTRY, QSTAT. -/
def decodeMop30 (w : DWord) : Except DecodeErr Instr :=
  match (fnOf w).toNat with
  | 0 => .ok (.qbind (EX.ofWord w))
  | 1 => .ok (.qpush (EX.ofWord w))
  | 2 => .ok (.qpop (EX.ofWord w))
  | 3 => .ok (.qtry (EX.ofWord w))
  | 4 => .ok (.qstat (EX.ofWord w))
  | _ => .ok (.unassignedWord w)

/-- MOP 0x31 of R50: COPY, COPYG, COPYS, COPYR. -/
def decodeMop31 (p : Option Pfx) (w : DWord) : Except DecodeErr Instr :=
  match (fnOf w).toNat with
  | 0 =>
    match (EX.ofWord w).sub.toNat with
    | 0 => .ok (.copyLinear p (EX.ofWord w))
    | 1 => .ok (.copyDescribed p (EX.ofWord w))
    | _ => .error .unlistedSub
  | 1 => .ok (.copyg p (EX.ofWord w))
  | 2 => .ok (.copys p (EX.ofWord w))
  | 3 => .ok (.copyr p (EX.ofWord w))
  | _ => .ok (.unassignedWord w)

/-- MOP 0x34 of R50: MLOOP, MZERO, MRD, MWR, MST, MWAIT, MSTAT. -/
def decodeMop34 (p : Option Pfx) (w : DWord) : Except DecodeErr Instr :=
  match (fnOf w).toNat with
  | 0 => .ok (.mloop p (EX.ofWord w))
  | 1 => if p = none then .ok (.mzero (EX.ofWord w)) else .error .pfxRefused
  | 2 => if p = none then .ok (.mrd (EX.ofWord w)) else .error .pfxRefused
  | 3 => if p = none then .ok (.mwr (EX.ofWord w)) else .error .pfxRefused
  | 4 => .ok (.mst p (EX.ofWord w))
  | 5 => if p = none then .ok (.mwait (EX.ofWord w)) else .error .pfxRefused
  | 6 => if p = none then .ok (.mstat (EX.ofWord w)) else .error .pfxRefused
  | _ => .ok (.unassignedWord w)

/-- MOP 0x36 of R50: RCRT, HNEXT, HRD, HEND, HJOIN, HREL. -/
def decodeMop36 (w : DWord) : Except DecodeErr Instr :=
  match (fnOf w).toNat with
  | 0 => .ok (.rcrt (EX.ofWord w))
  | 1 => .ok (.hnext (EX.ofWord w))
  | 2 => .ok (.hrd (EX.ofWord w))
  | 3 => .ok (.hend (EX.ofWord w))
  | 4 => .ok (.hjoin (EX.ofWord w))
  | 5 => .ok (.hrel (EX.ofWord w))
  | _ => .ok (.unassignedWord w)

/-- MOP 0x37 of R50: RGN_OPEN, RGN_CLOSE, RGN_ABORT. -/
def decodeMop37 (w : DWord) : Except DecodeErr Instr :=
  match (fnOf w).toNat with
  | 0 => .ok (.rgnOpen (EX.ofWord w))
  | 1 => .ok (.rgnClose (EX.ofWord w))
  | 2 => .ok (.rgnAbort (EX.ofWord w))
  | _ => .ok (.unassignedWord w)

/-- MOP 0x3A of R50: RDS, WRS, TRAP, ERET, BRK, SIGS, PCNT, DTIME. -/
def decodeMop3A (w : DWord) : Except DecodeErr Instr :=
  match (fnOf w).toNat with
  | 0 => .ok (.rds (SR.ofWord w))
  | 1 => .ok (.wrs (SR.ofWord w))
  | 2 => .ok (.trap (SR.ofWord w))
  | 3 => .ok (.eret (SR.ofWord w))
  | 4 => .ok (.brk (SR.ofWord w))
  | 5 => .ok (.sigs (SR.ofWord w))
  | 6 => .ok (.pcnt (SR.ofWord w))
  | 7 => .ok (.dtime (SR.ofWord w))
  | _ => .ok (.unassignedWord w)

/-- The instruction that a word stands for after an optional prefix `p`, with `lit` the next word of the block, or
the reason for ILLEGAL (R46 to R51). A word of an unassigned MOP or FN, and a header word met inside a block, is
the row UNASSIGNED_WORD. -/
def decodeWord (p : Option Pfx) (w : DWord) (lit : Option DWord) : Except DecodeErr Instr :=
  match (mopOf w).toNat with
  | 0x00 => if p = none then .ok (.unassignedWord w) else .error .pfxRefused
  | 0x01 => if p = none then decodeMop01 w else .error .pfxRefused
  | 0x02 => if p = none then decodeMop02 w else .error .pfxRefused
  | 0x03 => if p = none then decodeMop03 w else .error .pfxRefused
  | 0x04 => if p = none then decodeMop04 w else .error .pfxRefused
  | 0x05 => if p = none then decodeMop05 w else .error .pfxRefused
  | 0x08 => if p = none then decodeMop08 w else .error .pfxRefused
  | 0x09 => if p = none then decodeMop09 w else .error .pfxRefused
  | 0x0A => if p = none then decodeMop0A w lit else .error .pfxRefused
  | 0x10 => if p = none then decodeMop10 w else .error .pfxRefused
  | 0x11 => if p = none then decodeMop11 w else .error .pfxRefused
  | 0x12 => if p = none then decodeMop12 w else .error .pfxRefused
  | 0x13 => if p = none then decodeMop13 w else .error .pfxRefused
  | 0x14 => if p = none then decodeMop14 w else .error .pfxRefused
  | 0x18 => if p = none then decodeMop18 w else .error .pfxRefused
  | 0x19 => if p = none then decodeMop19 w else .error .pfxRefused
  | 0x20 => decodeMop20 p w
  | 0x21 => decodeMop21 p w
  | 0x22 => if p = none then decodeMop22 w else .error .pfxRefused
  | 0x23 => decodeMop23 p w
  | 0x24 => if p = none then decodeMop24 w else .error .pfxRefused
  | 0x28 => decodeMop28 p w
  | 0x29 => if p = none then decodeMop29 w else .error .pfxRefused
  | 0x2A => decodeMop2A p w
  | 0x2B => if p = none then decodeMop2B w else .error .pfxRefused
  | 0x2C => if p = none then decodeMop2C w else .error .pfxRefused
  | 0x30 => if p = none then decodeMop30 w else .error .pfxRefused
  | 0x31 => decodeMop31 p w
  | 0x34 => decodeMop34 p w
  | 0x36 => if p = none then decodeMop36 w else .error .pfxRefused
  | 0x37 => if p = none then decodeMop37 w else .error .pfxRefused
  | 0x3A => if p = none then decodeMop3A w else .error .pfxRefused
  | 0x3F => .error .pfxTwice
  | _ => if p = none then .ok (.unassignedWord w) else .error .pfxRefused

/-- How many words an instruction occupies: a prefix and a literal count (R33, R46, R48). -/
def Instr.words : Instr → Nat
  | .liw _ _ => 2
  | .sld p _ => (if p.isSome then 2 else 1)
  | .sst p _ => (if p.isSome then 2 else 1)
  | .vld p _ => (if p.isSome then 2 else 1)
  | .vst p _ => (if p.isSome then 2 else 1)
  | .vldb p _ => (if p.isSome then 2 else 1)
  | .vstb p _ => (if p.isSome then 2 else 1)
  | .fence p _ => (if p.isSome then 2 else 1)
  | .cwb p _ => (if p.isSome then 2 else 1)
  | .cinv p _ => (if p.isSome then 2 else 1)
  | .pref p _ => (if p.isSome then 2 else 1)
  | .satom p _ => (if p.isSome then 2 else 1)
  | .vatom p _ => (if p.isSome then 2 else 1)
  | .fxadd p _ => (if p.isSome then 2 else 1)
  | .fxrd p _ => (if p.isSome then 2 else 1)
  | .waitv p _ => (if p.isSome then 2 else 1)
  | .copyLinear p _ => (if p.isSome then 2 else 1)
  | .copyDescribed p _ => (if p.isSome then 2 else 1)
  | .copyg p _ => (if p.isSome then 2 else 1)
  | .copys p _ => (if p.isSome then 2 else 1)
  | .copyr p _ => (if p.isSome then 2 else 1)
  | .mloop p _ => (if p.isSome then 2 else 1)
  | .mst p _ => (if p.isSome then 2 else 1)
  | _ => 1

/-- The first instruction of a list of words, those of one block from the instruction's address on (R46 to R48):
total on any words. -/
def decode : List DWord → Except DecodeErr Instr
  | [] => .error .noWord
  | w :: rest =>
    if mopOf w = 0x3F#6 then
      match rest with
      | [] => .error .pfxLast
      | w2 :: rest2 =>
        if (Pfx.ofWord w).reservedOk then decodeWord (some (Pfx.ofWord w)) w2 rest2.head?
        else .error .pfxReserved
    else decodeWord none w rest.head?

/-- The prefix word of an instruction, where it has one. -/
def pfxWords : Option Pfx → List DWord
  | none => []
  | some p => [p.toWord]

/-- The words of an instruction, from the same encoding tables (R41 to R50); an event row has no words. -/
def encode : Instr → List DWord
  | .br f => [f.toWord 0x01 0x00]
  | .beq f => [f.toWord 0x01 0x01]
  | .bne f => [f.toWord 0x01 0x02]
  | .blt f => [f.toWord 0x01 0x03]
  | .bge f => [f.toWord 0x01 0x04]
  | .bltu f => [f.toWord 0x01 0x05]
  | .bgeu f => [f.toWord 0x01 0x06]
  | .bmz f => [f.toWord 0x01 0x07]
  | .bmnz f => [f.toWord 0x01 0x08]
  | .bmall f => [f.toWord 0x01 0x09]
  | .call f => [f.toWord 0x02 0x00]
  | .calli f => [f.toWord 0x02 0x01]
  | .ret f => [f.toWord 0x02 0x02]
  | .jmpi f => [f.toWord 0x02 0x03]
  | .loop f => [f.toWord 0x03 0x00]
  | .lbrk f => [f.toWord 0x03 0x01]
  | .lcget f => [f.toWord 0x03 0x02]
  | .lcset f => [f.toWord 0x03 0x03]
  | .exit f => [f.toWord 0x04 0x00]
  | .yield f => [f.toWord 0x04 0x01]
  | .yieldWake => []
  | .nop f => [f.toWord 0x04 0x02]
  | .snooze f => [f.toWord 0x04 0x03]
  | .snoozeExpiry => []
  | .mand f => [f.toWord 0x05 0x00]
  | .mor f => [f.toWord 0x05 0x01]
  | .mxor f => [f.toWord 0x05 0x02]
  | .mandn f => [f.toWord 0x05 0x03]
  | .mnot f => [f.toWord 0x05 0x04]
  | .mpopc f => [f.toWord 0x05 0x05]
  | .mffs f => [f.toWord 0x05 0x06]
  | .mrange f => [f.toWord 0x05 0x07]
  | .mtest f => [f.toWord 0x05 0x08]
  | .mmov f => [f.toWord 0x05 0x09]
  | .mlive f => [f.toWord 0x05 0x0A]
  | .add f => [f.toWord 0x08 0x00]
  | .sub f => [f.toWord 0x08 0x01]
  | .mul f => [f.toWord 0x08 0x02]
  | .mulhs f => [f.toWord 0x08 0x03]
  | .mulhu f => [f.toWord 0x08 0x04]
  | .and f => [f.toWord 0x08 0x05]
  | .or f => [f.toWord 0x08 0x06]
  | .xor f => [f.toWord 0x08 0x07]
  | .andn f => [f.toWord 0x08 0x08]
  | .shl f => [f.toWord 0x08 0x09]
  | .shr f => [f.toWord 0x08 0x0A]
  | .sar f => [f.toWord 0x08 0x0B]
  | .rotl f => [f.toWord 0x08 0x0C]
  | .min f => [f.toWord 0x08 0x0D]
  | .max f => [f.toWord 0x08 0x0E]
  | .minu f => [f.toWord 0x08 0x0F]
  | .maxu f => [f.toWord 0x08 0x10]
  | .slt f => [f.toWord 0x08 0x11]
  | .sltu f => [f.toWord 0x08 0x12]
  | .seq f => [f.toWord 0x08 0x13]
  | .sne f => [f.toWord 0x08 0x14]
  | .clz f => [f.toWord 0x08 0x15]
  | .ctz f => [f.toWord 0x08 0x16]
  | .popc f => [f.toWord 0x08 0x17]
  | .brev f => [f.toWord 0x08 0x18]
  | .cmov f => [f.toWord 0x08 0x19]
  | .addw f => [f.toWord 0x09 0x00]
  | .subw f => [f.toWord 0x09 0x01]
  | .mulw f => [f.toWord 0x09 0x02]
  | .shlw f => [f.toWord 0x09 0x03]
  | .shrw f => [f.toWord 0x09 0x04]
  | .sarw f => [f.toWord 0x09 0x05]
  | .sltw f => [f.toWord 0x09 0x06]
  | .sltuw f => [f.toWord 0x09 0x07]
  | .li f => [f.toWord 0x0A 0x00]
  | .liw f l => [f.toWord 0x0A 0x01, l]
  | .lea f => [f.toWord 0x0A 0x02]
  | .movwCopy f => [f.toWord 0x0A 0x03]
  | .movwRelative f => [f.toWord 0x0A 0x03]
  | .vadd f => [f.toWord 0x10 0x00]
  | .vsub f => [f.toWord 0x10 0x01]
  | .vmul f => [f.toWord 0x10 0x02]
  | .vmulh f => [f.toWord 0x10 0x03]
  | .vmulhu f => [f.toWord 0x10 0x04]
  | .vmad f => [f.toWord 0x10 0x05]
  | .vand f => [f.toWord 0x10 0x06]
  | .vor f => [f.toWord 0x10 0x07]
  | .vxor f => [f.toWord 0x10 0x08]
  | .vandn f => [f.toWord 0x10 0x09]
  | .vshl f => [f.toWord 0x10 0x0A]
  | .vshr f => [f.toWord 0x10 0x0B]
  | .vsar f => [f.toWord 0x10 0x0C]
  | .vmin f => [f.toWord 0x10 0x0D]
  | .vmax f => [f.toWord 0x10 0x0E]
  | .vminu f => [f.toWord 0x10 0x0F]
  | .vmaxu f => [f.toWord 0x10 0x10]
  | .vabs f => [f.toWord 0x10 0x11]
  | .vneg f => [f.toWord 0x10 0x12]
  | .vpopc f => [f.toWord 0x10 0x13]
  | .vclz f => [f.toWord 0x10 0x14]
  | .vicmp f => [f.toWord 0x11 0x00]
  | .vfcmp f => [f.toWord 0x11 0x01]
  | .vfadd f => [f.toWord 0x12 0x00]
  | .vfsub f => [f.toWord 0x12 0x01]
  | .vfmul f => [f.toWord 0x12 0x02]
  | .vfma f => [f.toWord 0x12 0x03]
  | .vfnma f => [f.toWord 0x12 0x04]
  | .vfmin f => [f.toWord 0x12 0x05]
  | .vfmax f => [f.toWord 0x12 0x06]
  | .vfminn f => [f.toWord 0x12 0x07]
  | .vfmaxn f => [f.toWord 0x12 0x08]
  | .vfabs f => [f.toWord 0x12 0x09]
  | .vfneg f => [f.toWord 0x12 0x0A]
  | .vfcps f => [f.toWord 0x12 0x0B]
  | .vfrnd f => [f.toWord 0x12 0x0C]
  | .vfdiv f => [f.toWord 0x12 0x0D]
  | .vfsqrt f => [f.toWord 0x12 0x0E]
  | .vfclass f => [f.toWord 0x12 0x0F]
  | .vrcp f => [f.toWord 0x13 0x00]
  | .vrsq f => [f.toWord 0x13 0x01]
  | .vexp2 f => [f.toWord 0x13 0x02]
  | .vlog2 f => [f.toWord 0x13 0x03]
  | .vsinpi f => [f.toWord 0x13 0x04]
  | .vcospi f => [f.toWord 0x13 0x05]
  | .vtanh f => [f.toWord 0x13 0x06]
  | .vmov f => [f.toWord 0x14 0x00]
  | .vsel f => [f.toWord 0x14 0x01]
  | .vbcst f => [f.toWord 0x14 0x02]
  | .vidx f => [f.toWord 0x14 0x03]
  | .vget f => [f.toWord 0x14 0x04]
  | .vput f => [f.toWord 0x14 0x05]
  | .vcvtf f => [f.toWord 0x18 0x00]
  | .vf2i f => [f.toWord 0x18 0x01]
  | .vi2f f => [f.toWord 0x18 0x02]
  | .vcvt8 f => [f.toWord 0x18 0x03]
  | .vext8 f => [f.toWord 0x18 0x04]
  | .vscale f => [f.toWord 0x18 0x05]
  | .vbscl f => [f.toWord 0x18 0x06]
  | .vpk8 f => [f.toWord 0x18 0x07]
  | .vupk8 f => [f.toWord 0x18 0x08]
  | .vrngs f => [f.toWord 0x19 0x00]
  | .vrng f => [f.toWord 0x19 0x01]
  | .sld p f => pfxWords p ++ [f.toWord 0x20 0x00]
  | .sst p f => pfxWords p ++ [f.toWord 0x20 0x01]
  | .vld p f => pfxWords p ++ [f.toWord 0x21 0x00]
  | .vst p f => pfxWords p ++ [f.toWord 0x21 0x01]
  | .vldb p f => pfxWords p ++ [f.toWord 0x21 0x02]
  | .vstb p f => pfxWords p ++ [f.toWord 0x21 0x03]
  | .zset f => [f.toWord 0x22 0x00]
  | .zsets f => [f.toWord 0x22 0x01]
  | .zrew f => [f.toWord 0x22 0x02]
  | .zposRead f => [f.toWord 0x22 0x03]
  | .zposSet f => [f.toWord 0x22 0x03]
  | .zposEnd f => [f.toWord 0x22 0x03]
  | .fence p f => pfxWords p ++ [f.toWord 0x23 0x00]
  | .cwb p f => pfxWords p ++ [f.toWord 0x23 0x01]
  | .cinv p f => pfxWords p ++ [f.toWord 0x23 0x02]
  | .pref p f => pfxWords p ++ [f.toWord 0x23 0x03]
  | .chopen f => [f.toWord 0x24 0x00]
  | .chwait f => [f.toWord 0x24 0x01]
  | .chclose f => [f.toWord 0x24 0x02]
  | .channelDrained => []
  | .satom p f => pfxWords p ++ [f.toWord 0x28 0x00]
  | .vatom p f => pfxWords p ++ [f.toWord 0x28 0x01]
  | .fxadd p f => pfxWords p ++ [f.toWord 0x28 0x02]
  | .fxrd p f => pfxWords p ++ [f.toWord 0x28 0x03]
  | .bart f => [f.toWord 0x29 0x00]
  | .bara f => [f.toWord 0x29 0x01]
  | .barw f => [f.toWord 0x29 0x02]
  | .barb f => [f.toWord 0x29 0x03]
  | .barrierWatchdogExpiry => []
  | .sbinit f => [f.toWord 0x29 0x04]
  | .sbarv f => [f.toWord 0x29 0x05]
  | .sbwait f => [f.toWord 0x29 0x06]
  | .sbwaitRelease => []
  | .waitv p f => pfxWords p ++ [f.toWord 0x2A 0x00]
  | .waitvRecheck => []
  | .waitvTimeout => []
  | .batt f => [f.toWord 0x2B 0x00]
  | .bpost f => [f.toWord 0x2B 0x01]
  | .bpostReturn => []
  | .bread f => [f.toWord 0x2B 0x02]
  | .bdet f => [f.toWord 0x2B 0x03]
  | .bvseg f => [f.toWord 0x2B 0x04]
  | .bvcmp f => [f.toWord 0x2B 0x05]
  | .vvote f => [f.toWord 0x2C 0x00]
  | .vshfl f => [f.toWord 0x2C 0x01]
  | .vmatch f => [f.toWord 0x2C 0x02]
  | .vred f => [f.toWord 0x2C 0x03]
  | .vscan f => [f.toWord 0x2C 0x04]
  | .qbind f => [f.toWord 0x30 0x00]
  | .qpush f => [f.toWord 0x30 0x01]
  | .qpushRoom => []
  | .qpop f => [f.toWord 0x30 0x02]
  | .qpopEntry => []
  | .qtry f => [f.toWord 0x30 0x03]
  | .qstat f => [f.toWord 0x30 0x04]
  | .copyLinear p f => pfxWords p ++ [f.toWord 0x31 0x00]
  | .copyDescribed p f => pfxWords p ++ [f.toWord 0x31 0x00]
  | .copyg p f => pfxWords p ++ [f.toWord 0x31 0x01]
  | .copys p f => pfxWords p ++ [f.toWord 0x31 0x02]
  | .copyr p f => pfxWords p ++ [f.toWord 0x31 0x03]
  | .copyIssueUnblock => []
  | .copyCommandStart => []
  | .granuleLand => []
  | .copyToken => []
  | .mloop p f => pfxWords p ++ [f.toWord 0x34 0x00]
  | .mzero f => [f.toWord 0x34 0x01]
  | .mrd f => [f.toWord 0x34 0x02]
  | .mwr f => [f.toWord 0x34 0x03]
  | .mst p f => pfxWords p ++ [f.toWord 0x34 0x04]
  | .mwait f => [f.toWord 0x34 0x05]
  | .mwaitDone => []
  | .mstat f => [f.toWord 0x34 0x06]
  | .kstepStart => []
  | .kstepComplete => []
  | .tileFetch => []
  | .mstPerform => []
  | .mzeroPerform => []
  | .rcrt f => [f.toWord 0x36 0x00]
  | .helperStart => []
  | .hnext f => [f.toWord 0x36 0x01]
  | .hrd f => [f.toWord 0x36 0x02]
  | .hend f => [f.toWord 0x36 0x03]
  | .hjoin f => [f.toWord 0x36 0x04]
  | .hjoinComplete => []
  | .hrel f => [f.toWord 0x36 0x05]
  | .chunkWatchdogExpiry => []
  | .rgnOpen f => [f.toWord 0x37 0x00]
  | .rgnOpenBufferGrant => []
  | .rgnClose f => [f.toWord 0x37 0x01]
  | .rgnCommitPublish => []
  | .rgnAbort f => [f.toWord 0x37 0x02]
  | .rds f => [f.toWord 0x3A 0x00]
  | .wrs f => [f.toWord 0x3A 0x01]
  | .trap f => [f.toWord 0x3A 0x02]
  | .brk f => [f.toWord 0x3A 0x04]
  | .eret f => [f.toWord 0x3A 0x03]
  | .sigs f => [f.toWord 0x3A 0x05]
  | .pcnt f => [f.toWord 0x3A 0x06]
  | .dtime f => [f.toWord 0x3A 0x07]
  | .progressWatchdogExpiry => []
  | .issueFairnessRaise => []
  | .bankSweep => []
  | .machineCheck => []
  | .harvestEviction => []
  | .spillComplete => []
  | .harvestReload => []
  | .bandPlace => []
  | .bandRetire => []
  | .tenantSliceEnd => []
  | .deadlineOverrun => []
  | .preemptHandlerTimeout => []
  | .contextSave => []
  | .contextResume => []
  | .checkpointTrigger => []
  | .checkpointBundleStart => []
  | .doorbellWrite => []
  | .bundleRead => []
  | .waitConditionPoll => []
  | .bundleStart => []
  | .signalAfter => []
  | .bundleRetire => []
  | .qctlInval => []
  | .qctlDestroy => []
  | .destroyComplete => []
  | .qctlDbmap => []
  | .qctlDbunmap => []
  | .parkctlResumeInstruction => []
  | .parkctlResumeHandler => []
  | .parkctlKillGroup => []
  | .parkctlKillTeam => []
  | .parkctlKillBand => []
  | .parkctlKillContext => []
  | .tlbinvPasid => []
  | .tlbinvRange => []
  | .tlbinvStage2 => []
  | .tlbinvComplete => []
  | .objctlInstall => []
  | .objctlRemove => []
  | .atsCompletion => []
  | .priResponse => []
  | .priTimeout => []
  | .atsInvalidateRequest => []
  | .vfEnableClear => []
  | .inboundPostedWrite => []
  | .orderingPointSend => []
  | .orderingPointAck => []
  | .inboundHostRead => []
  | .hostLinkDown => []
  | .inboundFabricRequest => []
  | .remoteNak => []
  | .remoteTimeout => []
  | .linkLoss => []
  | .linkReturn => []
  | .fabricWindowStart => []
  | .dreset => []
  | .deviceReset => []
  | .ownClaim => []
  | .ownHandto => []
  | .ownAccept => []
  | .debugHalt => []
  | .debugRead => []
  | .debugWrite => []
  | .debugWrec => []
  | .classcfgWrite => []
  | .vfapszWrite => []
  | .tcselWrite => []
  | .frtrootWrite => []
  | .finrootWrite => []
  | .registerWrite => []
  | .healthUpdate => []
  | .thermalLimit => []
  | .thermalTrip => []
  | .feedLoss => []
  | .unassignedWord w => [w]
  | .accessPerformed => []
  | .pfFunctionLevelReset => []
  | .correctedError => []
  | .vfEnableSet => []
  | .worldRegisterWrite => []

/-- The instruction whose bits are `w`, bit 0 the least significant bit of the first word (R32); bits above `nbits`
are 0. -/
def decodeTableWord (nbits w : Nat) : Option Instr :=
  let w' := w % 2 ^ nbits
  match decode [BitVec.ofNat 64 w', BitVec.ofNat 64 (w' / 2 ^ 64)] with
  | .ok i => some i
  | .error _ => none

end Sys2Proof
end

