-- ==== Sys2Proof/WellFormed.lean ====
section
/-! DEFINITION. The checks of ILLEGAL that an instruction's own fields decide (R41 to R49, R51 and each entry's Traps
paragraph). What also needs the group (its allocation, its tiles, a helper, an open region) is checked by the meaning. -/

namespace Sys2Proof

/-- A mask triple base that R43 accepts: not 62 and not 63. -/
def tripleOk (b : BitVec 6) : Bool := decide (b.toNat < 62)
/-- An even base of a pair (R49). -/
def even6 (b : BitVec 6) : Bool := decide (b.toNat % 2 = 0)
/-- A destination of four scalars: 4, 8, ..., 56 (R186, R203). -/
def quad6 (b : BitVec 6) : Bool := decide (b.toNat % 4 = 0) && decide (4 ≤ b.toNat) && decide (b.toNat ≤ 56)

/-- A prefix's fields that the word accepts (R46): `ords` are the nonzero ORD values, the rest says which fields may be
nonzero: SCOPE, SPACE, CP, HOME, CHAN. -/
def pfxOk (p : Option Pfx) (ords : List Nat) (scope space cp home chan : Bool) : Bool :=
  match p with
  | none => true
  | some q =>
    q.reservedOk && (decide (q.ord = 0) || ords.contains q.ord.toNat) && (scope || decide (q.scope = 0)) &&
    (space || decide (q.space = 0)) && (cp || decide (q.cp = 0)) && (home || decide (q.home = 0)) &&
    (chan || decide (q.chan = 0))

/-! ### CB format -/

/-- R69, BR: every field but OFF is zero. -/
def CB.okBr (f : CB) : Bool := !f.r && decide (f.d = 0) && decide (f.a = 0) && decide (f.b = 0)
/-- R69, the register comparisons. -/
def CB.okCond (f : CB) : Bool := !f.r && decide (f.d = 0)
/-- R69, the mask tests. -/
def CB.okMask (f : CB) : Bool := !f.r && decide (f.d = 0) && decide (f.b = 0) && tripleOk f.a
/-- R70, CALL. -/
def CB.okCall (f : CB) : Bool := !f.r && even6 f.d && decide (f.a = 0) && decide (f.b = 0)
/-- R70, CALLI. -/
def CB.okCalli (f : CB) : Bool := !f.r && even6 f.d && even6 f.a && decide (f.b = 0) && decide (f.off = 0)
/-- R70, RET and JMPI. -/
def CB.okJump (f : CB) : Bool :=
  !f.r && decide (f.d = 0) && even6 f.a && decide (f.b = 0) && decide (f.off = 0)
/-- R71: OFF is at least 2. -/
def CB.okLoop (f : CB) : Bool := !f.r && decide (f.d = 0) && decide (f.b = 0) && decide (2 ≤ f.off.toInt)
/-- R72. -/
def CB.okLbrk (f : CB) : Bool := f.okBr
/-- R73, LCGET. -/
def CB.okLcget (f : CB) : Bool := !f.r && decide (f.a = 0) && decide (f.b.toNat ≤ 3) && decide (f.off = 0)
/-- R73, LCSET. -/
def CB.okLcset (f : CB) : Bool := !f.r && decide (f.d = 0) && decide (f.b.toNat ≤ 2) && decide (f.off = 0)

/-! ### SR format -/

/-- The rule of R41 on B and IMM: B is 0 when I = 1, and IMM is 0 when I = 0. -/
def SR.immOk (f : SR) : Bool := if f.i then decide (f.b = 0) else decide (f.imm = 0)
/-- No field is used (R74, R76, R293). -/
def SR.allZero (f : SR) : Bool :=
  !f.i && decide (f.d = 0) && decide (f.a = 0) && decide (f.b = 0) && decide (f.imm = 0)
/-- R75. -/
def SR.okYield (f : SR) : Bool :=
  f.i && decide (f.d = 0) && decide (f.a = 0) && decide (f.b = 0) && decide (f.imm ≠ 0) && decide (f.imm.toNat ≤ 7)
/-- R77. -/
def SR.okSnooze (f : SR) : Bool := decide (f.d = 0) && decide (f.a = 0) && f.immOk
/-- R78, three triples. -/
def SR.okTriples (f : SR) : Bool := !f.i && decide (f.imm = 0) && tripleOk f.d && tripleOk f.a && tripleOk f.b
/-- R78, MNOT and MMOV. -/
def SR.okTriple2 (f : SR) : Bool :=
  !f.i && decide (f.imm = 0) && decide (f.b = 0) && tripleOk f.d && tripleOk f.a
/-- R78, MPOPC and MFFS. -/
def SR.okCount (f : SR) : Bool := !f.i && decide (f.imm = 0) && decide (f.b = 0) && tripleOk f.a
/-- R78, MRANGE. -/
def SR.okRange (f : SR) : Bool := f.immOk && tripleOk f.d
/-- R78, MTEST. -/
def SR.okTest (f : SR) : Bool := f.immOk && tripleOk f.a
/-- R78, MLIVE. -/
def SR.okLive (f : SR) : Bool :=
  !f.i && decide (f.imm = 0) && decide (f.a = 0) && decide (f.b = 0) && tripleOk f.d
/-- R82, the binary forms. -/
def SR.okBin (f : SR) : Bool := f.immOk
/-- R82, the shifts: an immediate count below the width. -/
def SR.okShift (f : SR) (width : Nat) : Bool := f.immOk && (!f.i || decide (f.imm.toNat < width))
/-- R82, the unary forms. -/
def SR.okUnary (f : SR) : Bool := !f.i && decide (f.b = 0) && decide (f.imm = 0)
/-- R83: even bases where the table names a pair. -/
def SR.okPair (f : SR) (dPair bPair : Bool) : Bool :=
  f.immOk && even6 f.a && (!dPair || even6 f.d) && (!bPair || f.i || even6 f.b)
/-- R83, the pair shifts. -/
def SR.okPairShift (f : SR) : Bool := f.okPair true false && f.okShift 64
/-- R84. -/
def SR.okLi (f : SR) : Bool := f.i && decide (f.a = 0) && decide (f.b = 0)
/-- R85. -/
def SR.okLiw (f : SR) : Bool :=
  !f.i && even6 f.d && decide (f.a = 0) && decide (f.b = 0) && decide (f.imm = 0)
/-- R86. -/
def SR.okLea (f : SR) : Bool := f.immOk && even6 f.d && even6 f.a
/-- R87, the copy form. -/
def SR.okMovCopy (f : SR) : Bool := !f.i && even6 f.d && even6 f.a && decide (f.b = 0) && decide (f.imm = 0)
/-- R87, the relative form. -/
def SR.okMovRel (f : SR) : Bool := f.i && even6 f.d && decide (f.a = 0) && decide (f.b = 0)
/-- The pair registers of R271. -/
def isPairSpecial (n : Nat) : Bool := [0x0C, 0x10, 0x12, 0x13, 0x17].contains n
/-- The registers of R271 that WRS may write. -/
def isWritableSpecial (n : Nat) : Bool := [0x0D, 0x0E, 0x0F, 0x10, 0x12, 0x13, 0x14].contains n
/-- R291, RDS. -/
def SR.okRds (f : SR) : Bool :=
  f.i && decide (f.a = 0) && decide (f.b = 0) && decide (f.imm.toNat ≤ 0x17) &&
  (!isPairSpecial f.imm.toNat || even6 f.d)
/-- R291, WRS. -/
def SR.okWrs (f : SR) : Bool :=
  f.i && decide (f.d = 0) && decide (f.b = 0) && isWritableSpecial f.imm.toNat &&
  (!isPairSpecial f.imm.toNat || even6 f.a)
/-- R292. -/
def SR.okTrap (f : SR) : Bool :=
  f.i && decide (f.d = 0) && decide (f.a = 0) && decide (f.b = 0) && decide (f.imm.toNat < 256)
/-- R294. -/
def SR.okSigs (f : SR) : Bool :=
  !f.i && decide (f.d = 0) && even6 f.a && decide (f.b = 0) && decide (f.imm = 0)
/-- R295, PCNT. -/
def SR.okPcnt (f : SR) : Bool :=
  f.i && even6 f.d && decide (f.a = 0) && decide (f.b = 0) && decide (f.imm.toNat ≤ 15)
/-- R295, DTIME. -/
def SR.okDtime (f : SR) : Bool :=
  !f.i && even6 f.d && decide (f.a = 0) && decide (f.b = 0) && decide (f.imm = 0)

/-! ### VR format -/

/-- How an instruction uses an operand: not at all, as a pair of `.d`, and the kinds it accepts (R42, R90, R91). -/
structure OpUse where
  used : Bool
  wide : Bool
  vec : Bool
  scal : Bool
  strm : Bool
  imm : Bool
  deriving DecidableEq, Repr

/-- An unused operand: its field and its kind are zero (R90). -/
def OpUse.none : OpUse := ⟨false, false, false, false, false, false⟩
/-- An operand of any kind. -/
def OpUse.any (wide : Bool) : OpUse := ⟨true, wide, true, true, true, true⟩
/-- An operand that is no immediate. -/
def OpUse.noImm (wide : Bool) : OpUse := ⟨true, wide, true, true, true, false⟩

/-- The type of a VR instruction is a floating-point type (R42). -/
def isFpType (t : BitVec 3) : Bool := decide (3 ≤ t.toNat)

/-- The rules of R42, R90 and R91 on one operand. -/
def opOk (u : OpUse) (fp : Bool) (kind : BitVec 2) (n : BitVec 7) : Bool :=
  if u.used then
    match kind.toNat with
    | 0 => u.vec && (!u.wide || decide (n.toNat % 2 = 0))
    | 1 => u.scal && decide (n.toNat ≤ 63) && (!u.wide || decide (n.toNat % 2 = 0))
    | 2 => u.strm && decide (n.toNat ≤ 7)
    | _ => u.imm && !fp
  else decide (kind = 0) && decide (n = 0)

/-- The kind of operand A, OK[11:10] of the word (R42). -/
def VR.kindA (f : VR) : BitVec 2 := f.ok.extractLsb' 4 2
/-- The kind of operand B. -/
def VR.kindB (f : VR) : BitVec 2 := f.ok.extractLsb' 2 2
/-- The kind of operand C. -/
def VR.kindC (f : VR) : BitVec 2 := f.ok.extractLsb' 0 2
/-- The type is FP64, whose operands are lane-wise pairs (R91). -/
def VR.wide (f : VR) : Bool := decide (f.t = 6)

/-- The three operands, the type and the mask are accepted (R42, R43, R90, R91). -/
def VR.opsOk (f : VR) (types : List Nat) (a b c : OpUse) : Bool :=
  types.contains f.t.toNat && decide (f.m.toNat < 62) && opOk a (isFpType f.t) f.kindA f.a &&
  opOk b (isFpType f.t) f.kindB f.b && opOk c (isFpType f.t) f.kindC f.c

/-- D names a vector register, an even one where the destination is a pair (R91). -/
def VR.dVec (f : VR) (wide : Bool) : Bool := !wide || decide (f.d.toNat % 2 = 0)
/-- D names a scalar (D[6] = 0), an even one where the destination is a pair. -/
def VR.dScal (f : VR) (wide : Bool) : Bool := decide (f.d.toNat < 64) && (!wide || decide (f.d.toNat % 2 = 0))
/-- D names a mask triple (D[6] = 0, R43). -/
def VR.dTriple (f : VR) : Bool := decide (f.d.toNat < 62)
/-- RM, SAT and X are all zero. -/
def VR.plain (f : VR) : Bool := decide (f.rm = 0) && !f.sat && decide (f.x = 0)

/-- R103: `canSat` and `canUsat` say whether SAT, and X = 1 with SAT, are accepted. -/
def VR.okInt (f : VR) (canSat canUsat b c : Bool) : Bool :=
  f.opsOk [0, 1, 2] (.any false) (if b then .any false else .none) (if c then .any false else .none) &&
  decide (f.rm = 0) && (!f.sat || canSat) &&
  (decide (f.x = 0) || (canUsat && f.sat && decide (f.x = 1)))
/-- R104. -/
def VR.okCmp (f : VR) (types : List Nat) (maxX : Nat) : Bool :=
  f.opsOk types (.any f.wide) (.any f.wide) .none && f.dTriple && decide (f.rm = 0) && !f.sat &&
  decide (f.x.toNat ≤ maxX)
/-- R105, all but VFRND: `rounds` says whether RM is accepted. -/
def VR.okFp (f : VR) (rounds b c : Bool) : Bool :=
  f.opsOk [3, 4, 5, 6] (.noImm f.wide) (if b then .noImm f.wide else .none) (if c then .noImm f.wide else .none) &&
  f.dVec f.wide && !f.sat && decide (f.x = 0) && (if rounds then decide (f.rm ≠ 3) else decide (f.rm = 0))
/-- R105, VFRND. -/
def VR.okRnd (f : VR) : Bool :=
  f.opsOk [3, 4, 5, 6] (.noImm f.wide) .none .none && f.dVec f.wide && !f.sat &&
  (if f.rm = 3 then decide (f.x.toNat ≤ 3) else decide (f.x = 0))
/-- R106. -/
def VR.okSpecial (f : VR) : Bool :=
  f.opsOk [3] (.noImm false) .none .none && decide (f.rm.toNat ≤ 1) && !f.sat && decide (f.x = 0)
/-- R107, VMOV and VSEL. -/
def VR.okMov (f : VR) (b : Bool) : Bool :=
  f.opsOk [0, 1, 2, 3, 4, 5, 6] (.any f.wide) (if b then .any f.wide else .none) .none && f.dVec f.wide && f.plain
/-- R107, VBCST: the lane index is one scalar under every type (DEDUCED, log entry 17). -/
def VR.okBcst (f : VR) : Bool :=
  f.opsOk [0, 1, 2, 3, 4, 5, 6] ⟨true, f.wide, true, false, false, false⟩ ⟨true, false, false, true, false, false⟩ .none &&
  f.dVec f.wide && f.plain
/-- R107, VIDX. -/
def VR.okIdx (f : VR) : Bool := f.opsOk [0] (.any false) .none .none && f.plain
/-- R107, VGET. -/
def VR.okGet (f : VR) : Bool :=
  f.opsOk [0] ⟨true, false, true, false, false, false⟩ ⟨true, false, false, true, false, false⟩ .none &&
  f.dScal false && f.plain && decide (f.m = 0)
/-- R107, VPUT. -/
def VR.okPut (f : VR) : Bool :=
  f.opsOk [0] ⟨true, false, false, true, false, false⟩ ⟨true, false, false, true, false, false⟩ .none &&
  f.plain && decide (f.m = 0)
/-- The source type of VCVTF, X[2:0] (R120). -/
def VR.srcType (f : VR) : Nat := (f.x.extractLsb' 0 3).toNat
/-- R120: the four rows of its table. -/
def VR.okCvtf (f : VR) : Bool :=
  !f.sat && !f.x.getLsbD 4 &&
  ((f.opsOk [6] (.noImm false) .none .none && decide (f.srcType = 3) && f.dVec true && decide (f.rm = 0) &&
      !f.x.getLsbD 3) ||
   (f.opsOk [3] (.noImm true) .none .none && decide (f.srcType = 6) && decide (f.rm ≠ 3) && !f.x.getLsbD 3) ||
   (f.opsOk [4, 5] (.noImm false) (.noImm false) .none && decide (f.srcType = 3) && decide (f.rm ≠ 3) &&
      !f.x.getLsbD 3) ||
   (f.opsOk [3] (.noImm false) .none .none && (decide (f.srcType = 4) || decide (f.srcType = 5)) &&
      decide (f.rm = 0)))
/-- R121: the floating-point side is A of VF2I and D of VI2F. -/
def VR.okF2i (f : VR) (fromFp : Bool) : Bool :=
  f.opsOk [3, 6] (.noImm (fromFp && f.wide)) .none .none && f.dVec (!fromFp && f.wide) && !f.sat &&
  decide (f.rm ≠ 3) && decide (f.x.toNat ≤ 1)
/-- R122. -/
def VR.okCvt8 (f : VR) : Bool := f.opsOk [3] (.noImm false) .none .none
/-- R123. -/
def VR.okExt8 (f : VR) : Bool := f.opsOk [3] (.noImm false) .none .none && decide (f.rm = 0) && !f.sat
/-- R124: VSCALE with X = 0, VBSCL with X up to 2. -/
def VR.okScale (f : VR) (maxX : Nat) : Bool :=
  f.opsOk [3] (.noImm false) (.noImm false) .none && !f.sat && decide (f.x.toNat ≤ maxX) &&
  decide (f.rm ≠ 3) && (decide (f.x ≠ 2) || decide (f.rm = 0))
/-- R125. -/
def VR.okPack (f : VR) (maxX : Nat) : Bool :=
  f.opsOk [0] (.any false) .none .none && decide (f.rm = 0) && !f.sat && decide (f.x.toNat ≤ maxX)
/-- R126, VRNGS. -/
def VR.okRngs (f : VR) : Bool := f.opsOk [0] (.any false) .none .none && f.plain && decide (f.d = 0)
/-- R126, VRNG. -/
def VR.okRng (f : VR) : Bool := f.opsOk [0] .none .none .none && f.plain
/-- R190. -/
def VR.okVote (f : VR) : Bool :=
  f.opsOk [0] (.any false) .none .none && decide (f.rm = 0) && !f.sat && decide (f.x.toNat ≤ 3) &&
  (if f.x = 3 then f.dTriple else f.dScal false)
/-- R191: B is one register under every type, and no stream. -/
def VR.okShfl (f : VR) : Bool :=
  f.opsOk [0, 1, 2, 3, 4, 5, 6] (.noImm f.wide) ⟨true, false, true, true, false, true⟩ .none && f.dVec f.wide &&
  decide (f.rm = 0) && !f.sat && decide (f.x.toNat ≤ 3)
/-- R192. -/
def VR.okMatch (f : VR) : Bool := f.opsOk [0, 3] (.noImm false) .none .none && f.dVec true && f.plain
/-- R194 and R195: VRED writes a scalar, VSCAN a vector register and takes X[3]. -/
def VR.okRed (f : VR) (toScalar : Bool) : Bool :=
  f.opsOk [0, 3, 6] (.any f.wide) .none .none && !f.sat && decide ((f.x.extractLsb' 0 3).toNat ≤ 4) &&
  !f.x.getLsbD 4 && (if toScalar then f.dScal f.wide && !f.x.getLsbD 3 else f.dVec f.wide) &&
  (decide (f.rm = 0) || (decide (f.rm = 1) && isFpType f.t && decide ((f.x.extractLsb' 0 3) = 0)))

/-! ### SM and VM formats -/

/-- SZ is a size of R44, and not a sign-extending one on a store. -/
def sizeOk (sz : BitVec 3) (store : Bool) : Bool :=
  decide (sz.toNat ≤ 5) && (!store || (decide (sz ≠ 1) && decide (sz ≠ 3)))
/-- R144. -/
def SM.ok (f : SM) (store : Bool) : Bool :=
  decide (f.r = 0) && sizeOk f.sz store && even6 f.a && (decide (f.sz ≠ 5) || even6 f.d)
/-- The atomic operation, OFS[19:16] (R43). -/
def VM.atomOp (f : VM) : Nat := (f.ofs.extractLsb' 16 4).toNat
/-- No index register: VI = 0x7F (R43). -/
def VM.noIndex (f : VM) : Bool := decide (f.vi = 0x7F)
/-- The base, the mask and the index scale of a vector access (R43, R44, R145). -/
def VM.baseOk (f : VM) : Bool :=
  even6 f.sb && decide (f.m.toNat < 62) && (!f.noIndex || decide (f.sc = 0))
/-- R145, VLD and VST. -/
def VM.okIndexed (f : VM) (store : Bool) : Bool :=
  f.baseOk && sizeOk f.sz store && (decide (f.sz ≠ 5) || decide (f.v.toNat % 2 = 0))
/-- R145, VLDB and VSTB. -/
def VM.okBlock (f : VM) (store : Bool) : Bool := f.okIndexed store && f.noIndex
/-- R153: every field is zero. -/
def VM.okFence (f : VM) : Bool :=
  decide (f.sz = 0) && decide (f.v = 0) && decide (f.sb = 0) && decide (f.vi = 0) && decide (f.sc = 0) &&
  decide (f.m = 0) && decide (f.ofs = 0)
/-- R154. -/
def VM.okLine (f : VM) : Bool :=
  f.baseOk && decide (f.sz = 0) && decide (f.v = 0) && (!f.noIndex || decide (f.m = 0))
/-- The register bases that the atomic table of R172 accepts. -/
def VM.atomRegOk (f : VM) : Bool :=
  (decide (f.sz = 4) || decide (f.sz = 5)) && decide (f.atomOp ≤ 9) &&
  (if f.sz = 4 then decide (f.atomOp ≠ 9) || decide (f.v.toNat % 2 = 0)
   else if f.atomOp = 9 then decide (f.v.toNat % 4 = 0) else decide (f.v.toNat % 2 = 0))
/-- R172, SATOM. -/
def VM.okSatom (f : VM) : Bool :=
  f.atomRegOk && even6 f.sb && decide (f.v.toNat < 64) && f.noIndex && decide (f.m = 0) && !f.sc.getLsbD 1
/-- R172, VATOM. -/
def VM.okVatom (f : VM) : Bool := f.atomRegOk && f.baseOk
/-- R174. -/
def VM.okFxadd (f : VM) : Bool := f.baseOk && decide (f.sz = 4) && decide (f.atomOp = 0)
/-- R175. -/
def VM.okFxrd (f : VM) : Bool :=
  (decide (f.sz = 4) || (decide (f.sz = 5) && decide (f.v.toNat % 2 = 0))) && decide (f.atomOp ≤ 1) && even6 f.sb &&
  decide (f.v.toNat < 64) && f.noIndex && decide (f.sc = 0) && decide (f.m = 0)

/-! ### EX format -/

/-- C, Q and W are zero. -/
def EX.cqw0 (f : EX) : Bool := decide (f.c = 0) && decide (f.q = 0) && decide (f.w = 0)
/-- R150, ZSET. -/
def EX.okZset (f : EX) : Bool :=
  decide (f.sub = 0) && decide (f.d = 0) && even6 f.a && decide (f.b = 0) && f.cqw0 && decide (f.imm.toNat ≤ 7)
/-- R150, ZSETS. -/
def EX.okZsets (f : EX) : Bool :=
  decide (f.sub.toNat ≤ 3) && decide (f.d = 0) && even6 f.a && f.cqw0 && decide (f.imm.toNat ≤ 7)
/-- R150, ZREW. -/
def EX.okZrew (f : EX) : Bool :=
  decide (f.sub = 0) && decide (f.d = 0) && decide (f.a = 0) && decide (f.b = 0) && f.cqw0 && decide (f.imm.toNat ≤ 7)
/-- R150, ZPOS with SUB 0. -/
def EX.okZposRead (f : EX) : Bool :=
  decide (f.sub = 0) && even6 f.d && decide (f.a = 0) && decide (f.b = 0) && f.cqw0 && decide (f.imm.toNat ≤ 7)
/-- R150, ZPOS with SUB 1. -/
def EX.okZposSet (f : EX) : Bool :=
  decide (f.sub = 1) && decide (f.d = 0) && even6 f.a && decide (f.b = 0) && f.cqw0 && decide (f.imm.toNat ≤ 7)
/-- R150, ZPOS with SUB 2. -/
def EX.okZposEnd (f : EX) : Bool :=
  decide (f.sub = 2) && decide (f.a = 0) && decide (f.b = 0) && f.cqw0 && decide (f.imm.toNat ≤ 7)
/-- R156: a channel number from 1 to 31, and the die bit of CHOPEN only. -/
def EX.okChan (f : EX) (die : Bool) : Bool :=
  decide (f.sub = 0) && decide (f.d = 0) && decide (f.a = 0) && decide (f.b = 0) && f.cqw0 &&
  decide (f.imm.toNat / 512 = 0) && decide (f.imm.toNat / 32 % 8 = 0) && decide (f.imm.toNat % 32 ≠ 0) &&
  (die || decide (f.imm.toNat / 256 = 0))
/-- R177. -/
def EX.okBar (f : EX) (maxN : Nat) : Bool :=
  decide (f.sub = 0) && decide (f.d = 0) && decide (f.a = 0) && decide (f.b = 0) && f.cqw0 &&
  decide (f.imm.toNat ≤ maxN)
/-- R181. -/
def EX.okSb (f : EX) (d c : Bool) : Bool :=
  decide (f.sub.toNat ≤ 1) && (d || decide (f.d = 0)) && even6 f.a && (c || decide (f.c = 0)) && decide (f.q = 0) &&
  decide (f.w = 0) && decide (f.imm = 0)
/-- R182. -/
def EX.okWaitv (f : EX) : Bool := even6 f.a && decide (f.q = 0) && decide (f.w = 0) && decide (f.imm = 0)
/-- R186, BATT. -/
def EX.okBatt (f : EX) : Bool := decide (f.sub = 0) && decide (f.d = 0) && decide (f.b = 0) && f.cqw0
/-- R186, BPOST. -/
def EX.okBpost (f : EX) : Bool :=
  decide (f.sub = 0) && even6 f.d && even6 f.b && decide (f.c = 0) && decide (f.q = 0) && decide (f.w.toNat ≤ 7)
/-- R186, BREAD. -/
def EX.okBread (f : EX) : Bool := decide (f.sub = 0) && quad6 f.d && decide (f.b = 0) && f.cqw0
/-- R186, BDET. -/
def EX.okBdet (f : EX) : Bool := decide (f.sub.toNat ≤ 1) && decide (f.b = 0) && f.cqw0
/-- R186, BVSEG. -/
def EX.okBvseg (f : EX) : Bool :=
  decide (f.sub = 0) && tripleOk f.d && decide (f.a = 0) && decide (f.b = 0) && decide (f.c = 0) && decide (f.q = 0) &&
  decide (f.w.toNat ≤ 7) && decide (f.imm.toNat ≤ 2)
/-- R186, BVCMP. -/
def EX.okBvcmp (f : EX) : Bool :=
  decide (f.sub.toNat ≤ 3) && decide (f.a = 0) && decide (f.b = 0) && decide (f.c = 0) && decide (f.q = 0) &&
  decide (f.w.toNat ≤ 7) && decide (f.imm.toNat ≤ 7)
/-- IMM16 of QBIND by kind: a copy register names a completion register and an engine choice, a mailbox register its
mailbox (R203). -/
def qbindImmOk (kind : Nat) (imm : Nat) : Bool :=
  match kind with
  | 1 => decide (imm < 256) && decide (imm / 4 % 4 = 0) && decide (imm % 4 ≠ 3)
  | 3 => decide (imm < 16)
  | 4 => decide (imm < 16)
  | _ => decide (imm = 0)
/-- R203, QBIND. -/
def EX.okQbind (f : EX) : Bool :=
  decide (f.sub.toNat ≤ 4) && decide (f.d = 0) && decide (f.a = 0) && decide (f.b = 0) && decide (f.c = 0) &&
  decide (f.w = 0) && qbindImmOk f.sub.toNat f.imm.toNat
/-- B, C, W and IMM16 are zero, and SUB is 0. -/
def EX.okQ (f : EX) : Bool :=
  decide (f.sub = 0) && decide (f.b = 0) && decide (f.c = 0) && decide (f.w = 0) && decide (f.imm = 0)
/-- R203, QPUSH. -/
def EX.okQpush (f : EX) : Bool := f.okQ && decide (f.d = 0) && even6 f.a
/-- R203, QPOP. -/
def EX.okQpop (f : EX) : Bool := f.okQ && even6 f.d && decide (f.a = 0)
/-- R203, QTRY. -/
def EX.okQtry (f : EX) : Bool := f.okQ && quad6 f.d && decide (f.a = 0)
/-- R203, QSTAT. -/
def EX.okQstat (f : EX) : Bool := f.okQ && decide (f.a = 0)
/-- R210, the linear COPY. -/
def EX.okCopyLinear (f : EX) : Bool :=
  decide (f.sub = 0) && even6 f.a && even6 f.b && even6 f.c && decide (f.w = 0) && decide (f.imm.toNat ≤ 7)
/-- R210, the forms that name only a descriptor: the described COPY (SUB 1) and COPYG (SUB 0). -/
def EX.okCopyAt (f : EX) (sub : Nat) : Bool :=
  decide (f.sub.toNat = sub) && even6 f.a && decide (f.b = 0) && decide (f.c = 0) && decide (f.w = 0) && decide (f.imm = 0)
/-- R210, COPYS (with a tensor identifier in pair B) and COPYR. -/
def EX.okShard (f : EX) (tid : Bool) : Bool :=
  decide (f.sub.toNat ≤ 1) && even6 f.a && (if tid then even6 f.b else decide (f.b = 0)) &&
  (decide (f.sub = 1) || decide (f.c = 0)) && decide (f.w = 0)
/-- W names one of the tiles acc0 to acc3 (R45). -/
def EX.tileName (f : EX) : Bool := decide (f.w.toNat ≤ 3)
/-- R233. -/
def EX.okMloop (f : EX) : Bool :=
  decide (f.sub = 0) && decide (f.a.toNat % 4 = 0) && decide (4 ≤ f.a.toNat) && decide (f.a.toNat ≤ 48) &&
  decide (f.b = 0) && decide (f.c = 0) && decide (f.q = 0) && f.tileName && decide (f.imm.toNat ≤ 1)
/-- R236. -/
def EX.okMst (f : EX) : Bool :=
  decide (f.sub = 0) && even6 f.a && decide (2 ≤ f.a.toNat) && decide (f.a.toNat ≤ 54) && decide (f.b = 0) &&
  decide (f.c = 0) && decide (f.q = 0) && f.tileName && decide (f.imm = 0)
/-- R234. -/
def EX.okMzero (f : EX) : Bool :=
  decide (f.sub = 0) && decide (f.d = 0) && decide (f.a = 0) && decide (f.b = 0) && decide (f.c = 0) &&
  decide (f.q = 0) && f.tileName && decide (f.imm = 0)
/-- R235. -/
def EX.okMrd (f : EX) : Bool :=
  decide (f.sub.toNat ≤ 1) && decide (f.d = 0) && decide (f.c = 0) && decide (f.q = 0) && f.tileName &&
  decide (f.imm.toNat < 128)
/-- R237. -/
def EX.okMwait (f : EX) : Bool :=
  decide (f.sub.toNat ≤ 1) && (decide (f.sub = 1) || decide (f.w = 0)) && decide (f.d = 0) && decide (f.a = 0) &&
  decide (f.b = 0) && decide (f.c = 0) && decide (f.q = 0) && f.tileName && decide (f.imm = 0)
/-- R238. -/
def EX.okMstat (f : EX) : Bool :=
  decide (f.sub = 0) && even6 f.d && decide (f.a = 0) && decide (f.b = 0) && decide (f.c = 0) && decide (f.q = 0) &&
  f.tileName && decide (f.imm = 0)
/-- R249. -/
def EX.okRcrt (f : EX) : Bool :=
  decide (f.sub.toNat ≤ 1) && decide (f.b.toNat < 16) && decide (f.c.toNat ≤ 8) && decide (f.q = 0) && decide (f.w = 0) &&
  (decide (f.c ≠ 0) || decide (f.b = 0))
/-- R250 and R270: D where named, IMM16 up to `maxImm` and W up to `maxW`, every other field zero. -/
def EX.okHelper (f : EX) (d : Bool) (maxImm maxW : Nat) : Bool :=
  decide (f.sub = 0) && (d || decide (f.d = 0)) && decide (f.a = 0) && decide (f.b = 0) && decide (f.c = 0) &&
  decide (f.q = 0) && decide (f.w.toNat ≤ maxW) && decide (f.imm.toNat ≤ maxImm)
/-- The number of octets that a mask names (R268). -/
def octetCount (m : BitVec 16) : Nat := (List.range 16).countP (fun k => m.getLsbD k)
/-- R268. -/
def EX.okRgnOpen (f : EX) : Bool :=
  decide (f.sub = 0) && decide (f.a = 0) && decide (f.b = 0) && decide (f.q = 0) && decide (f.c.toNat ≤ 60) &&
  (if f.c = 0 then decide (f.d = 0) else decide (1 ≤ f.d.toNat) && decide (f.d.toNat + f.c.toNat ≤ 61)) &&
  decide (octetCount f.imm ≤ 4)
/-- R269. -/
def EX.okRgnClose (f : EX) : Bool :=
  decide (1 ≤ f.sub.toNat) && decide (f.sub.toNat ≤ 6) && decide (f.c.toNat ≤ 60) && decide (f.q = 0) &&
  decide (f.w = 0) && decide (f.imm.toNat ≤ 1) && (decide (f.imm = 1) || decide (f.b = 0)) &&
  (if f.c = 0 then decide (f.d = 0) && decide (f.a = 0)
   else decide (f.d.toNat + f.c.toNat ≤ 64) && decide (f.a.toNat + f.c.toNat ≤ 64))

/-- No check of ILLEGAL that the instruction's own fields decide fails. -/
def Instr.wf : Instr → Bool
  | .br f => f.okBr
  | .beq f => f.okCond
  | .bne f => f.okCond
  | .blt f => f.okCond
  | .bge f => f.okCond
  | .bltu f => f.okCond
  | .bgeu f => f.okCond
  | .bmz f => f.okMask
  | .bmnz f => f.okMask
  | .bmall f => f.okMask
  | .call f => f.okCall
  | .calli f => f.okCalli
  | .ret f => f.okJump
  | .jmpi f => f.okJump
  | .loop f => f.okLoop
  | .lbrk f => f.okLbrk
  | .lcget f => f.okLcget
  | .lcset f => f.okLcset
  | .exit f => f.allZero
  | .yield f => f.okYield
  | .nop f => f.allZero
  | .snooze f => f.okSnooze
  | .mand f => f.okTriples
  | .mor f => f.okTriples
  | .mxor f => f.okTriples
  | .mandn f => f.okTriples
  | .mnot f => f.okTriple2
  | .mpopc f => f.okCount
  | .mffs f => f.okCount
  | .mrange f => f.okRange
  | .mtest f => f.okTest
  | .mmov f => f.okTriple2
  | .mlive f => f.okLive
  | .add f => f.okBin
  | .sub f => f.okBin
  | .mul f => f.okBin
  | .mulhs f => f.okBin
  | .mulhu f => f.okBin
  | .and f => f.okBin
  | .or f => f.okBin
  | .xor f => f.okBin
  | .andn f => f.okBin
  | .shl f => f.okShift 32
  | .shr f => f.okShift 32
  | .sar f => f.okShift 32
  | .rotl f => f.okShift 32
  | .min f => f.okBin
  | .max f => f.okBin
  | .minu f => f.okBin
  | .maxu f => f.okBin
  | .slt f => f.okBin
  | .sltu f => f.okBin
  | .seq f => f.okBin
  | .sne f => f.okBin
  | .clz f => f.okUnary
  | .ctz f => f.okUnary
  | .popc f => f.okUnary
  | .brev f => f.okUnary
  | .cmov f => f.okBin
  | .addw f => f.okPair true true
  | .subw f => f.okPair true true
  | .mulw f => f.okPair true true
  | .shlw f => f.okPairShift
  | .shrw f => f.okPairShift
  | .sarw f => f.okPairShift
  | .sltw f => f.okPair false true
  | .sltuw f => f.okPair false true
  | .li f => f.okLi
  | .liw f _ => f.okLiw
  | .lea f => f.okLea
  | .movwCopy f => f.okMovCopy
  | .movwRelative f => f.okMovRel
  | .vadd f => f.okInt true true true false
  | .vsub f => f.okInt true true true false
  | .vmul f => f.okInt false false true false
  | .vmulh f => f.okInt false false true false
  | .vmulhu f => f.okInt false false true false
  | .vmad f => f.okInt false false true true
  | .vand f => f.okInt false false true false
  | .vor f => f.okInt false false true false
  | .vxor f => f.okInt false false true false
  | .vandn f => f.okInt false false true false
  | .vshl f => f.okInt false false true false
  | .vshr f => f.okInt false false true false
  | .vsar f => f.okInt false false true false
  | .vmin f => f.okInt false false true false
  | .vmax f => f.okInt false false true false
  | .vminu f => f.okInt false false true false
  | .vmaxu f => f.okInt false false true false
  | .vabs f => f.okInt true false false false
  | .vneg f => f.okInt true false false false
  | .vpopc f => f.okInt false false false false
  | .vclz f => f.okInt false false false false
  | .vicmp f => f.okCmp [0] 9
  | .vfcmp f => f.okCmp [3, 6] 7
  | .vfadd f => f.okFp true true false
  | .vfsub f => f.okFp true true false
  | .vfmul f => f.okFp true true false
  | .vfma f => f.okFp true true true
  | .vfnma f => f.okFp true true true
  | .vfmin f => f.okFp false true false
  | .vfmax f => f.okFp false true false
  | .vfminn f => f.okFp false true false
  | .vfmaxn f => f.okFp false true false
  | .vfabs f => f.okFp false false false
  | .vfneg f => f.okFp false false false
  | .vfcps f => f.okFp false true false
  | .vfrnd f => f.okRnd
  | .vfdiv f => f.okFp true true false
  | .vfsqrt f => f.okFp true false false
  | .vfclass f => f.okFp false false false
  | .vrcp f => f.okSpecial
  | .vrsq f => f.okSpecial
  | .vexp2 f => f.okSpecial
  | .vlog2 f => f.okSpecial
  | .vsinpi f => f.okSpecial
  | .vcospi f => f.okSpecial
  | .vtanh f => f.okSpecial
  | .vmov f => f.okMov false
  | .vsel f => f.okMov true
  | .vbcst f => f.okBcst
  | .vidx f => f.okIdx
  | .vget f => f.okGet
  | .vput f => f.okPut
  | .vcvtf f => f.okCvtf
  | .vf2i f => f.okF2i true
  | .vi2f f => f.okF2i false
  | .vcvt8 f => f.okCvt8
  | .vext8 f => f.okExt8
  | .vscale f => f.okScale 0
  | .vbscl f => f.okScale 2
  | .vpk8 f => f.okPack 0
  | .vupk8 f => f.okPack 7
  | .vrngs f => f.okRngs
  | .vrng f => f.okRng
  | .sld p f => f.ok false && pfxOk p [1, 2] true true true true false
  | .sst p f => f.ok true && pfxOk p [1, 3] true true true true true
  | .vld p f => f.okIndexed false && pfxOk p [1, 2] true true true true false
  | .vst p f => f.okIndexed true && pfxOk p [1, 3] true true true true true
  | .vldb p f => f.okBlock false && pfxOk p [1, 2] true true true true false
  | .vstb p f => f.okBlock true && pfxOk p [1, 3] true true true true true
  | .zset f => f.okZset
  | .zsets f => f.okZsets
  | .zrew f => f.okZrew
  | .zposRead f => f.okZposRead
  | .zposSet f => f.okZposSet
  | .zposEnd f => f.okZposEnd
  | .fence p f => f.okFence && pfxOk p [1, 2, 3, 4] true false false false false
  | .cwb p f => f.okLine && pfxOk p [] true true true true false
  | .cinv p f => f.okLine && pfxOk p [] true true true true false
  | .pref p f => f.okLine && pfxOk p [] false true true true false
  | .chopen f => f.okChan true
  | .chwait f => f.okChan false
  | .chclose f => f.okChan false
  | .satom p f => f.okSatom && pfxOk p [1, 2, 3, 4] true true false true false
  | .vatom p f => f.okVatom && pfxOk p [1, 2, 3, 4] true true false true false
  | .fxadd p f => f.okFxadd && pfxOk p [1, 2, 3, 4] true true false true false
  | .fxrd p f => f.okFxrd && pfxOk p (if f.atomOp = 1 then [1, 2, 3, 4] else [1, 2]) true true false true false
  | .bart f => f.okBar 15
  | .bara f => f.okBar 15
  | .barw f => f.okBar 15
  | .barb f => f.okBar 0
  | .sbinit f => f.okSb false true
  | .sbarv f => f.okSb false false
  | .sbwait f => f.okSb true false
  | .waitv p f => f.okWaitv && pfxOk p [1, 2] true true false true false
  | .batt f => f.okBatt
  | .bpost f => f.okBpost
  | .bread f => f.okBread
  | .bdet f => f.okBdet
  | .bvseg f => f.okBvseg
  | .bvcmp f => f.okBvcmp
  | .vvote f => f.okVote
  | .vshfl f => f.okShfl
  | .vmatch f => f.okMatch
  | .vred f => f.okRed true
  | .vscan f => f.okRed false
  | .qbind f => f.okQbind
  | .qpush f => f.okQpush
  | .qpop f => f.okQpop
  | .qtry f => f.okQtry
  | .qstat f => f.okQstat
  | .copyLinear p f => f.okCopyLinear && pfxOk p [1, 2, 3, 4] true false true false false
  | .copyDescribed p f => f.okCopyAt 1 && pfxOk p [1, 2, 3, 4] true false true false false
  | .copyg p f => f.okCopyAt 0 && pfxOk p [1, 2, 3, 4] true false true false false
  | .copys p f => f.okShard true && pfxOk p [1, 2, 3, 4] true false true false false
  | .copyr p f => f.okShard false && pfxOk p [1, 2, 3, 4] true false true false false
  | .mloop p f => f.okMloop && pfxOk p [1, 2, 3, 4] true false true true false
  | .mzero f => f.okMzero
  | .mrd f => f.okMrd
  | .mwr f => f.okMrd
  | .mst p f => f.okMst && pfxOk p [1, 2, 3, 4] true false true true false
  | .mwait f => f.okMwait
  | .mstat f => f.okMstat
  | .rcrt f => f.okRcrt
  | .hnext f => f.okHelper true 0 0
  | .hrd f => f.okHelper true 22 0
  | .hend f => f.okHelper false 0 0
  | .hjoin f => f.okHelper false 0 7
  | .hrel f => f.okHelper false 0 0
  | .rgnOpen f => f.okRgnOpen
  | .rgnClose f => f.okRgnClose
  | .rgnAbort f => f.okHelper false 0 0
  | .rds f => f.okRds
  | .wrs f => f.okWrs
  | .trap f => f.okTrap
  | .brk f => f.okTrap
  | .eret f => f.allZero
  | .sigs f => f.okSigs
  | .pcnt f => f.okPcnt
  | .dtime f => f.okDtime
  | .unassignedWord _ => true
  | .yieldWake => true
  | .snoozeExpiry => true
  | .channelDrained => true
  | .barrierWatchdogExpiry => true
  | .sbwaitRelease => true
  | .waitvRecheck => true
  | .waitvTimeout => true
  | .bpostReturn => true
  | .qpushRoom => true
  | .qpopEntry => true
  | .copyIssueUnblock => true
  | .copyCommandStart => true
  | .granuleLand => true
  | .copyToken => true
  | .mwaitDone => true
  | .kstepStart => true
  | .kstepComplete => true
  | .tileFetch => true
  | .mstPerform => true
  | .mzeroPerform => true
  | .helperStart => true
  | .hjoinComplete => true
  | .chunkWatchdogExpiry => true
  | .rgnOpenBufferGrant => true
  | .rgnCommitPublish => true
  | .progressWatchdogExpiry => true
  | .issueFairnessRaise => true
  | .bankSweep => true
  | .machineCheck => true
  | .harvestEviction => true
  | .spillComplete => true
  | .harvestReload => true
  | .bandPlace => true
  | .bandRetire => true
  | .tenantSliceEnd => true
  | .deadlineOverrun => true
  | .preemptHandlerTimeout => true
  | .contextSave => true
  | .contextResume => true
  | .checkpointTrigger => true
  | .checkpointBundleStart => true
  | .doorbellWrite => true
  | .bundleRead => true
  | .waitConditionPoll => true
  | .bundleStart => true
  | .signalAfter => true
  | .bundleRetire => true
  | .qctlInval => true
  | .qctlDestroy => true
  | .destroyComplete => true
  | .qctlDbmap => true
  | .qctlDbunmap => true
  | .parkctlResumeInstruction => true
  | .parkctlResumeHandler => true
  | .parkctlKillGroup => true
  | .parkctlKillTeam => true
  | .parkctlKillBand => true
  | .parkctlKillContext => true
  | .tlbinvPasid => true
  | .tlbinvRange => true
  | .tlbinvStage2 => true
  | .tlbinvComplete => true
  | .objctlInstall => true
  | .objctlRemove => true
  | .atsCompletion => true
  | .priResponse => true
  | .priTimeout => true
  | .atsInvalidateRequest => true
  | .vfEnableClear => true
  | .inboundPostedWrite => true
  | .orderingPointSend => true
  | .orderingPointAck => true
  | .inboundHostRead => true
  | .hostLinkDown => true
  | .inboundFabricRequest => true
  | .remoteNak => true
  | .remoteTimeout => true
  | .linkLoss => true
  | .linkReturn => true
  | .fabricWindowStart => true
  | .dreset => true
  | .deviceReset => true
  | .ownClaim => true
  | .ownHandto => true
  | .ownAccept => true
  | .debugHalt => true
  | .debugRead => true
  | .debugWrite => true
  | .debugWrec => true
  | .classcfgWrite => true
  | .vfapszWrite => true
  | .tcselWrite => true
  | .frtrootWrite => true
  | .finrootWrite => true
  | .registerWrite => true
  | .healthUpdate => true
  | .thermalLimit => true
  | .thermalTrip => true
  | .feedLoss => true
  | .accessPerformed => true
  | .pfFunctionLevelReset => true
  | .correctedError => true
  | .vfEnableSet => true
  | .worldRegisterWrite => true

end Sys2Proof
end

