-- ==== Sys2Proof/Machine/State.lean ====
section
/-! DEFINITION. The machine's state as plain data: every piece of state that INVENTORY.md lists under '## State', with
the rule of spec/ that names it, and `State.reset`. Groups, bands, fields, bundles and commands are named by uids,
numbers that the model gives them once. -/

namespace Sys2Proof.Machine

open Sys2Proof

/-! ### Stops -/

/-- A step never ends in a fault: every exception of the spec is taken as the spec describes (log entry 18). The one
constructor names the absence of a step, for an agenda that names a turn of no agent. -/
inductive Fault where
  /-- Raised by `step` when a turn names a group that does not exist. Safe: nothing is claimed of such a turn. -/
  | noSuchGroup (uid : Nat)
  deriving DecidableEq, Repr

/-- Why a step is not taken. -/
inductive Refusal where
  /-- An instruction that has no meaning yet, by its mnemonic. Safe: nothing can be proved of it. -/
  | notModelled (mnemonic : String)
  /-- An event row met in a state in which the spec gives it no occasion: its arm answers so. Safe: such a turn is no
  turn of the machine (log entry 14). -/
  | notEnabled (row : String)
  /-- An instruction row offered as an event, or an event row as an instruction word, by `step`. Safe. -/
  | notATurn (row : String)
  deriving DecidableEq, Repr

/-! ### Traps -/

/-- The causes of R273, with their codes. -/
inductive Cause where
  | preempt | swtrap | brkpt | illegal | badtarget | misalign | transl | prot | obj | fmtill | mxlayout | qfault
  | board | rgnw | rgnovf | chfault | wdprog | bartmo | hflt | ecc
  deriving DecidableEq, Repr

/-- The code of a cause (R273). -/
def Cause.code : Cause → Nat
  | .preempt => 0x01 | .swtrap => 0x02 | .brkpt => 0x03 | .illegal => 0x10 | .badtarget => 0x11 | .misalign => 0x12
  | .transl => 0x13 | .prot => 0x14 | .obj => 0x15 | .fmtill => 0x16 | .mxlayout => 0x17 | .qfault => 0x18
  | .board => 0x19 | .rgnw => 0x1A | .rgnovf => 0x1B | .chfault => 0x1C | .wdprog => 0x1D | .bartmo => 0x1E
  | .hflt => 0x1F | .ecc => 0x20

/-- A trap: its cause, the ARG of TRAPC (R274), the new TRAPA where the rule that raises it sets one, and the faulting
PC where it is not the instruction's own (R33); `fetch`: the word that was read, or whose translation failed, in checking a target. -/
structure Trap where
  cause : Cause
  arg : Nat := 0
  trapa : Option DWord := none
  pc : Option DWord := none
  fetch : Option DWord := none
  deriving DecidableEq, Repr

/-! ### Memory and caches -/

/-- Memory: pairs of a key and a byte, keys strictly rising, no zero byte listed (an unlisted byte reads 0, log
entry 4). A key is the number of a region times 2^64, plus an offset (`Machine/Ops.lean`). -/
abbrev Memory := List Host.Cell

/-- For whom a line is allocated, and how: the tag of the function (R334), the class (R251) and CP (R137). -/
structure Want where
  fn : Nat
  cls : Nat
  cp : Nat
  deriving DecidableEq, Repr

/-- A line of a core's L1 (R134): which bytes are valid and which dirty, and for whom it was allocated or last stored to. -/
structure L1Line where
  core : Nat
  line : Nat
  valid : BitVec 128
  dirty : BitVec 128
  data : Vector Byte 128
  want : Want
  deriving DecidableEq, Repr

/-- A line of a cluster's L2 that may be stale (R159), with the class whose way holds it (R251), the priority with which it
stays there (R137: 0 lowest, 1 normal, 2 retention) and its layout tag (R152). -/
structure L2Line where
  cluster : Nat
  line : Nat
  cls : Nat
  prio : Nat
  tag : Option Nat
  data : Vector Byte 128
  deriving DecidableEq, Repr

/-- A line that the memory-side cache holds, and the class whose way holds it (R134, R251); `dirty` is the tag of the last write to
it that has not gone to HBM (R335). -/
structure MscLine where
  line : Nat
  cls : Nat
  dirty : Option Nat
  deriving DecidableEq, Repr

/-- Where a page's bytes are (R323, R138). -/
inductive PageKind where
  | loc (die : Nat)
  | spread
  | host
  | remote (dev : Nat)
  deriving DecidableEq, Repr

/-- A leaf of the walk: the page's physical address, its size as a power of two, its kind and rights (R323, R325). -/
structure Leaf where
  base : Nat
  log2 : Nat
  kind : PageKind
  r : Bool
  w : Bool
  x : Bool
  deriving DecidableEq, Repr

/-- An entry of the device translation cache (R324). -/
structure TlbEntry where
  fn : Nat
  pasid : Nat
  vpage : Nat
  leaf : Leaf
  deriving DecidableEq, Repr

/-- A translation of the host IOMMU, as an ATS completion gave it (R326): a page of the host and the rights on it. -/
structure HostEntry where
  fn : Nat
  pasid : Nat
  vpage : Nat
  page : Nat
  r : Bool
  w : Bool
  deriving DecidableEq, Repr

/-- A request to the host IOMMU on which an access waits (R326); `front`: an access of the front end or a leaf is among
them; `failed`: the host has refused the page, and the front end has not yet taken note; `held`: its page request waits
until fewer than 512 are outstanding (R345). -/
structure AtsReq where
  id : Nat
  fn : Nat
  pasid : Nat
  vpage : Nat
  pri : Bool
  since : Nat
  front : Bool
  failed : Bool
  held : Bool
  deriving DecidableEq, Repr

/-- For whom a byte of a HOST page or a remote window was written: the function and PASID that its write carries (R349), the
context, and the class and the compute die in which it travels (R352, R355). -/
structure Origin where
  fn : Nat
  pasid : Nat
  ctx : Nat
  cls : Nat
  die : Nat
  deriving DecidableEq, Repr

/-- A request to a remote device (R352, R357): a read of the line at `raddr`, or the write of its bytes. `pref`: a prefetch, for
the core named, and whether into its L1 too (R154); `prio` the priority at which its line is allocated in L2, if it is (R137). -/
structure RemoteReq where
  id : Nat
  group : Option Nat
  ctx : Nat
  dev : Nat
  raddr : Nat
  write : Option (List Host.Cell)
  since : Nat
  port : Nat
  cls : Nat
  die : Nat
  sent : Bool
  pref : Option (Nat × Bool)
  prio : Option Nat
  deriving DecidableEq, Repr

/-- A prefetch of a HOST page's line whose translation has not come yet (R154, R326): for whom, the core, whether the line goes
into its L1 too, and the class and priority of the line in L2. -/
structure Pref where
  fn : Nat
  pasid : Nat
  ctx : Nat
  va : DWord
  core : Nat
  intoL1 : Bool
  cls : Nat
  prio : Nat
  deriving DecidableEq, Repr

/-! ### A group -/

/-- A stream shape register (R146). -/
structure Stream where
  base : DWord
  esz : BitVec 2
  space : BitVec 3
  cp : BitVec 3
  home : BitVec 2
  stride : Vector Word 5
  extent : Vector Word 5
  cursor : DWord
  fin : Bool
  deriving DecidableEq, Repr

/-- A release store that the group has issued and that waits to be performed at its scope (R135, R161): its channel, its bytes and
its CP (R137). -/
structure RelStore where
  scope : Nat
  chan : Nat
  cells : List Host.Cell
  cp : Nat
  deriving DecidableEq, Repr

/-- A loop body that runs from the loop buffer (R66): the level of its loop, its first address and its words. -/
structure LoopBuf where
  level : Nat
  start : DWord
  words : List DWord
  deriving DecidableEq, Repr

/-- The binding of a queue register (R197). -/
inductive QKind where
  | unbound
  | copy (done eng : Nat)
  | done
  | recv (mbox : Nat)
  | send (mbox : Nat)
  deriving DecidableEq, Repr

/-- A queue register (R197, R198): its entries (for a command register, the uids of the commands not yet accepted) and
the outstanding commands of a completion register; `rel` are the scopes of the release flags of the held tokens. -/
structure QReg where
  kind : QKind
  entries : List DWord
  rel : List Nat
  outstanding : Nat
  deriving DecidableEq, Repr

/-- An accumulator tile and its status (R218, R227, R238): `cause` as MSTAT codes it, `takenAt` the instruction at which
the group has taken the deferred fault, `rel` the widest release scope of the stores that MWAIT has not yet acquired. -/
structure Tile where
  data : Vector (Vector Word 128) 128
  flags : BitVec 6
  cause : Nat
  faultAddr : DWord
  steps : Word
  tag : BitVec 16
  takenAt : Option DWord
  rel : Nat
  deriving DecidableEq, Repr

/-- The kinds of matrix commands (R219). -/
inductive MxKind where
  | loop | zero | store
  deriving DecidableEq, Repr

/-- A queued matrix command (R219, R226, R231): its captured operands, its flags, the K-steps completed (of a store, the rows
written), the units pinned, each by its step and its place in the step, the lines fetched for a step, each taken once, and the cc for
which a started step has run; `acqDone`: its acquire has been performed. -/
structure MxCmd where
  kind : MxKind
  tile : Nat
  tag : BitVec 16
  ops : List Word
  fblk : List Byte
  z : Bool
  acq : Bool
  acqDone : Bool
  rel : Bool
  scope : Nat
  cp : BitVec 3
  home : BitVec 2
  begun : Bool
  done : Nat
  pinned : List ((Nat × Nat) × Vector Byte 128)
  lines : List (Nat × Nat × Vector Byte 128)
  running : Option Nat
  waitHost : Option Nat
  denied : Bool
  deriving DecidableEq, Repr

/-- An entry of the region write buffer (R255): bytes of a line, or one atomic operation. -/
inductive BufEntry where
  | line (line : Nat) (mask : BitVec 128) (data : Vector Byte 128)
  | atom (key size op : Nat) (operand : BitVec 128)
  deriving DecidableEq, Repr

/-- The recorded state of a region (R253). -/
structure Recorded where
  em : Vector Word 3
  depth : Nat
  start : Vector DWord 3
  exit : Vector DWord 3
  lc : Vector Word 3
  zreg : Vector Stream 8
  gen : Lanes
  fpcr : Word
  fpsr : Word
  mdef : Word
  deriving DecidableEq, Repr

/-- An open region (R253, R255, R272); `evicted`: its group has left its core inside it and restarts (R261). -/
structure Region where
  marker : DWord
  first : Nat
  count : Nat
  octets : BitVec 16
  phys : List Nat
  tiles : BitVec 4
  svals : List Word
  vvals : List (Nat × Lanes)
  tvals : List (Nat × Tile)
  recd : Recorded
  restarted : Bool
  evicted : Bool
  buffer : List BufEntry
  deriving DecidableEq, Repr

/-- A helper's fault as the recruitment keeps it (R247). -/
structure HelperFault where
  hidx : Nat
  cause : Nat
  chunk : Option Nat
  pc : DWord
  trapa : DWord
  time : Nat
  deriving DecidableEq, Repr

/-- A recruitment (R239, R243, R247). -/
structure Recruit where
  iters : Nat
  next : Nat
  release : Bool
  done : BitVec 256
  lentVec : List Word
  lentScal : Vector Word 16
  granted : Nat
  withSelf : Bool
  selfClaim : Option Nat
  faults : List HelperFault
  fpsr : Word
  deriving DecidableEq, Repr

/-- What makes a group a helper (R241, R245): its recruiter, its index, its claimed chunk and when it was claimed. -/
structure Helper where
  recruiter : Nat
  hidx : Nat
  chunk : Option Nat
  claimedAt : Nat
  started : Bool
  deriving DecidableEq, Repr

/-- The five copy instructions (R210). -/
inductive CopyOp where
  | linear | described | gather | shardOut | shardIn
  deriving DecidableEq, Repr

/-- What a waiting group waits for. A wait whose end is no row of the table runs its instruction again: `again`, and
`host`, which waits for the host's translation of a page (R326); `hostWord` is a WAITV that waits so, with its t0 (R182). A `commit` at
system scope holds the remote bytes that its gather has sent (R259). -/
inductive Wait where
  | again
  | host (vpage : Nat)
  | yielding (events : BitVec 3)
  | snooze (until_ : Nat)
  | barrier (bar : Nat)
  | scratchBar (d : BitVec 6) (key : Nat) (phase : Word)
  | word (f : EX) (p : Option Pfx) (since : Nat)
  | hostWord (vpage : Nat) (f : EX) (p : Option Pfx) (since : Nat)
  | bpost (f : EX) (view : BitVec 256) (number level : Word)
  | push (q : BitVec 4) (value : DWord)
  | pop (d : BitVec 6) (q : BitVec 4)
  | copyRoom (op : CopyOp) (p : Option Pfx) (f : EX)
  | channel (n : Nat) (close : Bool)
  | matrix (f : EX)
  | mxRoom (len : Nat) (d : Option (BitVec 6)) (c : MxCmd)
  | join (view : BitVec 4)
  | regionBuffer (f : EX)
  | regionTiles (f : EX)
  | commit (f : EX) (sent : List Host.Cell)
  deriving DecidableEq, Repr

/-- What the group's control thread is doing. -/
inductive Status where
  /-- Not yet started: a helper between its grant and its start (R241). -/
  | granted
  | ready
  | waiting (w : Wait)
  | parked
  /-- Evicted (R261, R262): whether it restarts at its marker, and whether its state is spilled. -/
  | evicted (restart spilled : Bool) (wasParked : Bool)
  /-- Saved by SIGS, by the eviction sequence, or parked (R285, R287). -/
  | saved (restart wasParked : Bool)
  | exited
  deriving DecidableEq, Repr

/-- PREEMPT of a group (R277, R285, R286): none, due or held since a time, or delivered and not answered. -/
inductive Preempt where
  | none
  | due (since : Nat)
  | delivered (since : Nat)
  deriving DecidableEq, Repr

/-- What a group is and where it runs (R23, R24, R25, R241); fixed for its life. -/
structure GroupId where
  uid : Nat
  ctx : Nat
  pasid : Nat
  fn : Nat
  cls : Nat
  field : Nat
  band : Nat
  inst : Nat
  bandx : Nat
  teamx : Nat
  grpx : Nat
  stage : Nat
  nband : Nat
  nteam : Nat
  ngrp : Nat
  nstage : Nat
  die : Nat
  cluster : Nat
  core : Nat
  slice : Nat
  placedAt : Nat
  karg : DWord
  lanes : Nat
  banks : Nat
  frames : Nat
  priv : Nat
  ntiles : Nat
  bandBar : Bool
  deriving DecidableEq, Repr

/-- A group: its registers, its control state and what it waits for. `rgnRst` is the marker at which its region has been
restarted (R272), `reopens` that a commit has brought it back to its marker (R261); `acqLoad` that the group has acquired at team scope or wider by a load since an engine command of its last
had its core's L1 written back (R165); `readyCc`, `l1Misses` and `movedBytes` are
the counters 1 to 3 of R295; `unchosen` counts the cc for which it has been ready and not chosen, `raised` that it is raised
(R27), `stalled` that the scoreboard holds its next instruction back (R54); `drowsy` are the places among its banks of those
whose contents were spilled unswept (R97), `slot` its
slot of the bittern with the bytes that the spill found there (R264). -/
structure Group where
  id : GroupId
  sreg : Vector Word 64
  vreg : Vector Lanes 232
  gen : Lanes
  fpcr : Word
  fpsr : Word
  mdef : Word
  pc : DWord
  blockHdr : DWord
  blockEnd : DWord
  depth : Nat
  start : Vector DWord 3
  exit : Vector DWord 3
  lc : Vector Word 3
  latch : BitVec 3
  trapBlockEnd : DWord
  trapHdr : DWord
  trapv : DWord
  trapc : Word
  trappc : DWord
  trappcRec : DWord
  trapa : DWord
  wdcfg : Word
  zreg : Vector Stream 8
  view : Vector (BitVec 256) 8
  queues : Vector QReg 16
  copyTag : BitVec 16
  mxTag : BitVec 16
  arrived : Vector (Option Word) 17
  tiles : Vector Tile 4
  mxq : List MxCmd
  chanOpen : List (Nat × Nat)
  relq : List RelStore
  loopBuf : List LoopBuf
  recruit : Option Recruit
  helper : Option Helper
  region : Option Region
  rgnRst : Option DWord
  reopens : Bool
  ccnt : Nat
  retired : Nat
  readyCc : Nat
  acqLoad : Bool
  l1Misses : Nat
  movedBytes : Nat
  progress : Nat
  unchosen : Nat
  raised : Bool
  stalled : Bool
  drowsy : List Nat
  slot : Option Nat
  slotBytes : List Host.Cell
  preempt : Preempt
  status : Status
  remoteGot : List Host.Cell
  denied : Bool
  bankIds : List Nat
  deriving DecidableEq, Repr

/-! ### Bands, fields, bundles, queues, contexts -/

/-- A team or band barrier (R176, R178): the phase, the groups arrived, and the first arriver with the cc counted since. -/
structure Barrier where
  phase : Word
  arrived : List Nat
  first : Option (Nat × Nat)
  deriving DecidableEq, Repr

/-- A team instance (R20, R128, R155, R176). -/
structure Inst where
  k : Nat
  core : Nat
  scr : Nat
  ngrp : Nat
  bandBar : Bool
  bars : Vector Barrier 16
  chans : Vector (Option Nat) 32
  exited : Bool
  deriving DecidableEq, Repr

/-- A placed band. -/
structure Band where
  uid : Nat
  field : Nat
  ctx : Nat
  bandx : Nat
  cluster : Nat
  insts : List Inst
  bar : Barrier
  killed : Bool
  deriving DecidableEq, Repr

/-- A stage record of a kernel descriptor (R308). -/
structure StageDesc where
  entry : DWord
  ngrp : Nat
  banks : Nat
  tiles : Nat
  bandBar : Bool
  scr : Nat
  qinit : List (Nat × Nat)
  deriving DecidableEq, Repr

/-- A kernel descriptor (R308). -/
structure KernelDesc where
  lanes : Nat
  frames : Nat
  hquota : Nat
  priv : Nat
  handler : DWord
  stages : List StageDesc
  deriving DecidableEq, Repr

/-- A field in progress (R304, R309 to R314). -/
structure Field where
  uid : Nat
  bundle : Nat
  sub : Nat
  ctx : Nat
  cls : Nat
  kernel : KernelDesc
  nteam : Nat
  nband : Nat
  dieMask : BitVec 2
  resident : Bool
  tree : Bool
  karg : DWord
  repAddr : DWord
  repCfg : Word
  nextBand : Nat
  retired : List Nat
  base : Nat
  clusterRetired : List (Nat × Nat)
  fired : List Nat
  killed : Bool
  fault : Option Nat
  deriving DecidableEq, Repr

/-- A sub-launch record (R304 to R306) with its progress. -/
structure SubLaunch where
  bytes : List Byte
  started : Bool
  retired : Bool
  fault : Option (Nat × Nat)
  killed : Bool
  deriving DecidableEq, Repr

/-- A wait condition of a bundle (R301, R303). -/
structure WaitCond where
  addr : DWord
  value : Word
  cond : Nat
  held : Bool
  deriving DecidableEq, Repr

/-- A bundle that has been read (R301, R303, R307). -/
structure Bundle where
  uid : Nat
  queue : Nat
  ridx : Nat
  step : Bool
  serial : Bool
  cmode : Nat
  crec : DWord
  tag : DWord
  waits : List WaitCond
  subs : List SubLaunch
  started : Bool
  startTime : Nat
  early : Option (Nat × Nat × Nat)
  abandoned : Bool
  deriving DecidableEq, Repr

/-- The states of a queue (R300). -/
inductive QState where
  | idle | active | waiting | paused | error | destroying | destroyed
  deriving DecidableEq, Repr

/-- A queue (R299), and which of its bundles are read and retired; `cached`: the cache on HD holds its QCB, and
`entry2`: where its level-2 entry stood when it was read (R298). -/
structure Queue where
  pasid : Nat
  num : Nat
  qcb : Nat
  ring : DWord
  log2sz : Nat
  cls : Nat
  prio : Nat
  tenant : Nat
  ctx : Nat
  cmode : Nat
  ckq : Bool
  drain : Nat
  cvec : Nat
  state : QState
  rdidx : Nat
  wridx : Nat
  nextRead : Nat
  doneAhead : List Nat
  present : Bool
  cached : Bool
  entry2 : Nat
  force : Bool
  byFn : Nat
  deriving DecidableEq, Repr

/-- A TENSOR record (R330). -/
structure Tensor where
  fmt : Byte
  rank : Nat
  rights : Byte
  swz : Nat
  xidx : Nat
  base : DWord
  ext : Vector Nat 5
  stride : Vector Nat 5
  deriving DecidableEq, Repr

/-- An installed object-table record (R330). -/
inductive ObjRec where
  | tensor (t : Tensor)
  | board (rights : Byte) (num nslot : Nat)
  | extent (orig gext : Vector Nat 5)
  deriving DecidableEq, Repr

/-- A context: its descriptor (R315) and its run (R284, R316); `wrote`: its save's resumable records stand in its save area,
`savedCps` and `savedMxs` being the copies, and the groups of the matrix commands, in their order there;
`killDue`: a barrier of it has broken, and its kill waits for the records (R178). -/
structure Context where
  num : Nat
  pasid : Nat
  tenant : Nat
  debug : Bool
  fvec : Nat
  route : Word
  fsize : Nat
  fault : DWord
  faultNext : Nat
  save : DWord
  ssize : DWord
  bittern : DWord
  bslots : Nat
  objn : Nat
  objtab : DWord
  slice : Nat
  ckmode : Nat
  ckq : Nat
  ckval : Nat
  objs : List (Nat × ObjRec)
  carve : Nat
  sliceStart : Nat
  tier : Nat
  deadline : Nat
  isSaved : Bool
  wrote : Bool
  savedCps : List Nat
  savedMxs : List Nat
  killed : Bool
  killDue : Bool
  ckLast : Nat
  ckCount : Nat
  ckPaused : Bool
  ckBundle : Option Nat
  ckSince : Nat
  deriving DecidableEq, Repr

/-- A slot of a notice board (R183): its value, its level and its owner group. -/
structure Slot where
  idx : Nat
  value : DWord
  level : Nat
  owner : Option Nat
  deriving DecidableEq, Repr

/-- A notice board (R183); a slot that is not listed is clear. -/
structure Board where
  num : Nat
  slots : List Slot
  level : Nat
  deriving DecidableEq, Repr

/-! ### Copy engines -/

/-- One side of a transfer: a locator, or an object (R204, R205). -/
inductive Side where
  | locator (l : DWord)
  | object (t : Tensor)
  deriving DecidableEq, Repr

/-- A shard as COPYR reads it: its box, span and where its payload stands (R214). -/
structure Shard where
  loc : DWord
  orig : Vector Nat 5
  ext : Vector Nat 5
  code : Nat
  deriving DecidableEq, Repr

/-- What a COPYR has taken from the record of a suspended command (R217): the next shard, that is, the first that has not landed
whole, the overlapped elements and the first rejected shard of those before it. -/
structure ShardMark where
  next : Nat
  lap : Nat
  bad : Option Nat
  deriving DecidableEq, Repr

/-- What a copy command transfers, once the engine has read its descriptor (R211 to R216). A COPYS keeps the payload that it has
sent, none where it is resumed; a COPYR takes the shards of its directory one after another, and `bytes` are the destination
bytes that those taken so far bring, each with its offset. -/
inductive CopyPlan where
  | linear (src dst : DWord) (bytes swz : Nat)
  | box (src dst : Side) (rank elem swz : Nat) (sorg dorg box : Vector Nat 5)
  | gather (src dst idx : DWord) (count rowb : Nat) (stride : DWord) (swz : Nat)
  | shardOut (dst : DWord) (t : Tensor) (tid : DWord) (orig gext : Vector Nat 5) (sent : Option (List Byte))
  | shardIn (t : Tensor) (orig gext : Vector Nat 5) (tid : Nat) (locs : List DWord) (mark : ShardMark)
      (shards : List (Option Shard)) (bytes : List (Nat × Byte))
  deriving DecidableEq, Repr

/-- What a copy command is, as the instruction or the sub-launch captured it (R210, R212, R305). -/
inductive CopyForm where
  | linear (src dst : DWord) (bytes : Nat) (swz : Nat)
  | described (at_ : DWord)
  | gather (at_ : DWord)
  | shardOut (dst tid : DWord) (obj : Nat) (t : Tensor) (orig gext : Vector Nat 5)
  | shardIn (dir : DWord) (obj : Nat) (t : Tensor) (orig gext : Vector Nat 5)
  deriving DecidableEq, Repr

/-- A copy command (R199, R206, R217): `group` none for a sub-launch's; `acqDone`: its acquire has been performed; `mark`: where a
suspended COPYR stood; `again`: it has read its descriptor before, and was suspended; `keepBar` and `keepFlags`: a changed
record has given it its BAR or its flags (R217); `taken`: the shards of its directory that it had read as it was suspended. -/
structure CopyCmd where
  uid : Nat
  form : CopyForm
  group : Option Nat
  ctx : Nat
  pasid : Nat
  fn : Nat
  cls : Nat
  band : Nat
  inst : Nat
  cluster : Nat
  core : Nat
  reg : Nat
  doneReg : Nat
  eng : Nat
  tag : BitVec 16
  acq : Bool
  acqDone : Bool
  rel : Bool
  scope : Nat
  cp : BitVec 3
  bar : Word
  mark : ShardMark
  bundle : Nat
  sub : Nat
  entry : Nat
  engine : Option Nat
  plan : Option CopyPlan
  landed : Nat
  ended : Option (Nat × Nat × Nat)
  suspended : Bool
  again : Bool
  keepBar : Bool
  keepFlags : Bool
  taken : Nat
  dropToken : Bool
  waitHost : Option Nat
  denied : Bool
  deriving DecidableEq, Repr

/-- A token that the engine holds for an evicted group (R201). -/
structure HeldToken where
  group : Nat
  reg : Nat
  token : DWord
  rel : Option Nat
  deriving DecidableEq, Repr

/-! ### Registers of the part -/

/-- A region of secure memory (R337). -/
structure SecReg where
  valid : Bool
  base : DWord
  limit : DWord
  deriving DecidableEq, Repr

/-- A doorbell slot bound to a queue (R297, R302). -/
structure Bell where
  slot : Nat
  pasid : Nat
  queue : Nat
  deriving DecidableEq, Repr

/-- The registers of one function's control block (R347). -/
structure FnRegs where
  qctl : DWord
  objctl : DWord
  tlbinvLo : DWord
  tlbinvHi : DWord
  pktgt : DWord
  pkcmd : DWord
  dberr : Word
  bells : List Bell
  deriving DecidableEq, Repr

/-- The registers of the PF's control block and of the part (R347), and the world registers (R337); `healthAt` is when HEALTH
was last updated, `hbmErrs` the times of corrected HBM errors (R369), `corrected` the count of
corrected errors (R289), `fatalDue` whether a FATAL report awaits its device
reset (R289). -/
structure PartRegs where
  bootst : Word
  ownctl : Word
  ownerr : Word
  allowStore : Bool
  qtroot : DWord
  ctxroot : DWord
  pasidroot : DWord
  classcfg : Word
  vfapsz : DWord
  vfapInForce : DWord
  vfEnable : Bool
  dreset : DWord
  tcen : DWord
  tcsel : Vector Byte 12
  fdevid : Word
  frtroot : DWord
  finroot : DWord
  ferrcnt : DWord
  tweight : Vector Byte 64
  s2root : Vector DWord 64
  toffs : Vector DWord 64
  fplink : Vector Word 24
  fpallow : Vector DWord 24
  dbgtgt : DWord
  dbgreg : DWord
  dbgdata : DWord
  dbgcmd : DWord
  health : DWord
  healthAt : Nat
  hbmErrs : List Nat
  corrected : Nat
  fatalDue : Bool
  fnWorld : DWord
  clWorld : BitVec 48
  secReg : Vector SecReg 16
  tcount : Vector (Vector DWord 12) 64
  deriving DecidableEq, Repr

/-- A guaranteed band that a leaf has assigned to cores where harvest groups hold what it needs (R260, R310): the field, or the
context that resumes, what each of its groups needs: its slice, its banks and its tiles, and the harvest groups that the leaf
has chosen beyond those that hold what it lacks. -/
structure Arrival where
  field : Nat
  ctx : Nat
  need : List (Nat × Nat × Nat)
  takes : List Nat
  deriving DecidableEq, Repr

/-- The part as brought up (R359, R360): its dies, clusters, slices (four to a core), channels and links, which CAPS reports, the caps on the cores' frequency, and the links that
rejoin their ports at the next window (R358). -/
structure Built where
  dies : BitVec 2
  clusters : BitVec 48
  chan0 : Nat
  chan1 : Nat
  slices : BitVec 1536
  links : BitVec 24
  ods : BitVec 4
  marginCap : BitVec 2
  heatCap : BitVec 2
  linkUp : Bool
  linkBack : BitVec 24
  deriving DecidableEq, Repr

/-- A request that a posted write was split into (R348): its bytes in memory, or its write to BAR0 or BAR2, and its turn
among the requests sent; an acknowledged request is gone. -/
structure PostReq where
  write : Nat
  route : Nat
  cells : List Host.Cell
  barWrite : Option (Nat × DWord × List Byte)
  sentAt : Option Nat
  deriving DecidableEq, Repr

/-- The ordering point's stream of one function (R348). -/
structure PostStream where
  fn : Nat
  count : Nat
  reqs : List PostReq
  deriving DecidableEq, Repr

/-- An inbound window in force (R356). -/
structure InWindow where
  r : Bool
  w : Bool
  secure : Bool
  form : Nat
  tenant : Nat
  srcId : BitVec 20
  srcMask : BitVec 20
  base : Nat
  limit : Nat
  target : Nat
  deriving DecidableEq, Repr

/-- What the part has sent to the outside world (R345 to R349, R326, R327, R356), newest first. Reads and writes of host memory
carry the function and the PASID (R349), and a fabric message the class of the group that caused it (R352); `credits` returns
the flow-control credits of posted write `write` of a function's stream (R348). -/
inductive OutMsg where
  | msix (fn vec : Nat)
  | hostRead (fn pasid ha count : Nat)
  | hostWrite (fn pasid ha : Nat) (x : Byte)
  | credits (fn write : Nat)
  | regData (bytes : List Byte)
  | noReg
  | readDone (fn : Nat) (bytes : List Byte)
  | unsupported (fn : Nat)
  | atsRequest (id fn pasid : Nat) (va : DWord)
  | priRequest (id fn pasid : Nat) (va : DWord)
  | invalidateDone (fn : Nat)
  | fabricRequest (id dev raddr cls : Nat) (write : Option (List Host.Cell))
  | fabricData (src : BitVec 20) (cls : Nat) (bytes : List Byte)
  | fabricAck (src : BitVec 20) (cls : Nat)
  | fabricNak (src : BitVec 20) (cls : Nat)
  | fatal
  | errorLog (sev : Nat) (bytes : List Byte)
  deriving DecidableEq, Repr

/-- A turn of the agenda: which agent moves next. A group issues one instruction; an event row happens; time passes; or
the hardware uses a freedom that the spec leaves it: it fills or evicts a line, fills or trims the translation cache, lets a
bank drowse, stores a guaranteed group's registers in less or more than all its banks, holds a group's next instruction back
until the results that it needs have come, or holds it no more, reads a line for a group's matrix commands ahead of them, lets a
core go on reading a line as it stands before host writes that are to come, reads a route cache entry, sends a flit of a remote request, or answers an Invalidate Request of the host whose accesses have
been performed (R54, R89, R96, R97, R134, R160, R228, R324, R327, R351, R355). -/
inductive Turn where
  | issue (uid : Nat)
  | event (row : Instr) (arg : EvArg)
  | elapse (cycles : Nat)
  | l1Fill (core line : Nat)
  | l1Evict (core line : Nat)
  | l2Fill (cluster line cls prio : Nat)
  | l2Evict (cluster line : Nat)
  | mscFill (line cls : Nat)
  | mscEvict (line : Nat)
  | tlbFill (fn pasid : Nat) (va : DWord)
  | tlbDrop (fn pasid vpage : Nat)
  | drowse (slice bank : Nat)
  | compress (slice bank : Nat)
  | expand (slice bank : Nat)
  | scoreboard (uid : Nat) (waits : Bool)
  | mxAhead (uid line : Nat)
  | hostOld (core line : Nat)
  | routeFill (dev : Nat)
  | flit (req : Nat)
  | invalidated
  deriving DecidableEq, Repr

/-- The machine. `grp` is the group that issues or that the event concerns; the other groups stand in `others`. `records`
are fault-area records whose page the host has not translated yet, and `lost` the contexts and bytes of failed remote writes
whose records they are (R357); `origins` tells by key for whom the bytes of HOST pages and remote windows were written that are
not written through yet; `invs` are the functions and PASIDs of Invalidate Requests that wait for accesses (R327); `ahead` are the lines that a cluster's MXU has read for a group ahead of a matrix command (R228), and `hostOld` the lines of home
memory that loads of a core may still find as they stood before later writes of the host (R162, R390); `spare` are banks of guaranteed groups that compression
leaves unused, and `needy` those among them whose storage a write now waits for (R96); `waking` are the banks of cores that
have woken, in the order of their sweeps (R97); `served` has for each class the tenant served last and how often in a row,
`lastQueue` the queue served last of each class, tenant and priority (R309); `clock` counts the cc of a core at 2.0 GHz (R6); `made` is the part as made, `built` as brought up. -/
structure State where
  grp : Group
  others : List Group
  mem : Memory
  hostDirty : Memory
  remoteDirty : Memory
  origins : List (Nat × Origin)
  ahead : List (Nat × Nat × Vector Byte 128)
  hostOld : List (Nat × Nat × Vector Byte 128)
  l1 : List L1Line
  l2 : List L2Line
  msc : List MscLine
  tlb : List TlbEntry
  hostTlb : List HostEntry
  ats : List AtsReq
  invs : List (Nat × Nat)
  prefs : List Pref
  remote : List RemoteReq
  bands : List Band
  arrivals : List Arrival
  fields : List Field
  bundles : List Bundle
  queues : List Queue
  ctxs : List Context
  boards : List Board
  copies : List CopyCmd
  tokens : List HeldToken
  regs : PartRegs
  fns : Vector FnRegs 64
  built : Built
  made : Built
  posts : List PostStream
  windows : List InWindow
  routes : List (Nat × Byte)
  allowance : List (Nat × Nat)
  window : Nat
  unswept : List (Nat × Nat)
  spare : List (Nat × Nat)
  needy : List (Nat × Nat)
  waking : List (Nat × Nat)
  coreMHz : List (Nat × Nat)
  mxLast : List (Nat × Nat × Nat)
  served : List (Nat × Nat × Nat)
  lastQueue : List (Nat × Nat)
  outbox : List OutMsg
  records : List (Nat × List Byte)
  lost : List (Nat × List Host.Cell)
  time : Nat
  clock : Nat
  nextId : Nat
  freeIx : Nat
  choices : List Nat
  ev : EvArg
  agenda : List Turn
  deriving DecidableEq, Repr

/-! ### Reset -/

/-- A lane vector of zeros. -/
def zeroLanes : Lanes := Vector.replicate 96 0

/-- A stream register at group start (R146): N = 0, cursor 0, end flag 0. -/
def Stream.initial : Stream where
  base := 0
  esz := 0
  space := 1
  cp := 1
  home := 0
  stride := Vector.replicate 5 0
  extent := Vector.replicate 5 0
  cursor := 0
  fin := false

/-- A queue register at group start (R197). -/
def QReg.initial : QReg := ⟨.unbound, [], [], 0⟩

/-- A tile at group start (R218). -/
def Tile.initial : Tile := ⟨Vector.replicate 128 (Vector.replicate 128 0), 0, 0, 0, 0, 0, none, 0⟩

/-- The lane generator's state at group start (R117). -/
def genInitial : Lanes :=
  Vector.ofFn (fun l => if l.val = 0 then 1 else BitVec.ofNat 32 (l.val * 0x00010001))

/-- LiveMask: lanes 0 to LANES - 1 (R24). -/
def liveMask (lanes : Nat) : LaneSet := BitVec.ofNat 96 (2 ^ lanes - 1)

/-- Word `k` of a set of lanes (R43). -/
def laneWord (m : LaneSet) (k : Nat) : Word := m.extractLsb' (32 * k) 32

/-- The reset value of MDEF (R132). -/
def mdefReset : Word := 0x00000269
/-- The reset value of WDCFG (R282): BARLOG 24, PRGLOG 30, WKILL 1. -/
def wdcfgReset : Word := 0x00181E01

/-- The scalars at group start (R80): s1 to s60 zero, em0 to em2 LiveMask. -/
def sregInitial (lanes : Nat) : Vector Word 64 :=
  Vector.ofFn (fun i => if 61 ≤ i.val then laneWord (liveMask lanes) (i.val - 61) else 0)

/-- A group as it starts (R59, R80, R95, R101, R117, R132, R146, R176, R185, R197, R218, R271, R282, R283). -/
def Group.initial (id : GroupId) (entry trapv : DWord) (bankIds : List Nat) : Group where
  id := id
  sreg := sregInitial id.lanes
  vreg := Vector.replicate 232 zeroLanes
  gen := genInitial
  fpcr := 0
  fpsr := 0
  mdef := mdefReset
  pc := entry
  blockHdr := entry
  blockEnd := entry
  depth := 0
  start := Vector.replicate 3 0
  exit := Vector.replicate 3 0
  lc := Vector.replicate 3 0
  latch := 0
  trapBlockEnd := 0
  trapHdr := 0
  trapv := trapv
  trapc := 0
  trappc := 0
  trappcRec := 0
  trapa := 0
  wdcfg := wdcfgReset
  zreg := Vector.replicate 8 Stream.initial
  view := Vector.replicate 8 0
  queues := Vector.replicate 16 QReg.initial
  copyTag := 0
  mxTag := 0
  arrived := Vector.replicate 17 none
  tiles := Vector.replicate 4 Tile.initial
  mxq := []
  chanOpen := []
  relq := []
  loopBuf := []
  recruit := none
  helper := none
  region := none
  rgnRst := none
  reopens := false
  ccnt := 0
  retired := 0
  readyCc := 0
  acqLoad := false
  l1Misses := 0
  movedBytes := 0
  progress := 0
  unchosen := 0
  raised := false
  stalled := false
  drowsy := []
  slot := none
  slotBytes := []
  preempt := .none
  status := .ready
  remoteGot := []
  denied := false
  bankIds := bankIds

/-- The identity of the placeholder that `grp` holds while no group is resident (log entry 1). -/
def GroupId.none : GroupId where
  uid := 0
  ctx := 0
  pasid := 0
  fn := 0
  cls := 0
  field := 0
  band := 0
  inst := 0
  bandx := 0
  teamx := 0
  grpx := 0
  stage := 0
  nband := 1
  nteam := 1
  ngrp := 1
  nstage := 1
  die := 0
  cluster := 0
  core := 0
  slice := 0
  placedAt := 0
  karg := 0
  lanes := 96
  banks := 8
  frames := 0
  priv := 0
  ntiles := 0
  bandBar := false

/-- The placeholder group: no group of the machine, so exited (log entry 1). -/
def Group.placeholder : Group := { Group.initial GroupId.none 0 0 [] with status := .exited }

/-- A function's registers at reset (R347): zero, no doorbell bound. -/
def FnRegs.reset : FnRegs := ⟨0, 0, 0, 0, 0, 0, 0, []⟩

/-- The registers at reset (R252, R296, R320, R321, R335, R342, R346, R350 to R356, R362, R364, R369). -/
def PartRegs.reset : PartRegs where
  bootst := 0
  ownctl := 0
  ownerr := 0
  allowStore := false
  qtroot := 0
  ctxroot := 0
  pasidroot := 0
  classcfg := 0x0000F30C
  vfapsz := 36
  vfapInForce := 36
  vfEnable := false
  dreset := 0
  tcen := 0
  tcsel := Vector.replicate 12 0
  fdevid := 0
  frtroot := 0
  finroot := 0
  ferrcnt := 0
  tweight := Vector.replicate 64 1
  s2root := Vector.replicate 64 0
  toffs := Vector.replicate 64 0
  fplink := Vector.replicate 24 0
  fpallow := Vector.replicate 24 0
  dbgtgt := 0
  dbgreg := 0
  dbgdata := 0
  dbgcmd := 0
  health := 0xFF0000FFFFFF0000
  healthAt := 0
  hbmErrs := []
  corrected := 0
  fatalDue := false
  fnWorld := 0
  clWorld := 0
  secReg := Vector.replicate 16 ⟨false, 0, 0⟩
  tcount := Vector.replicate 64 (Vector.replicate 12 0)

/-- A complete part (R16), with its host link up (log entry 12). -/
def Built.complete : Built where
  dies := 3
  clusters := BitVec.ofNat 48 (2 ^ 48 - 1)
  chan0 := 256
  chan1 := 256
  slices := BitVec.ofNat 1536 (2 ^ 1536 - 1)
  links := BitVec.ofNat 24 (2 ^ 24 - 1)
  ods := 15
  marginCap := 0
  heatCap := 0
  linkUp := true
  linkBack := 0

/-- The machine at the device reset of a complete part (R361): no group, no queue, no context; every register at its reset
value; memory with nothing listed. The boot chain of power-on is the first turn (log entry 12). -/
def State.reset : State where
  grp := Group.placeholder
  others := []
  mem := []
  hostDirty := []
  remoteDirty := []
  origins := []
  ahead := []
  hostOld := []
  l1 := []
  l2 := []
  msc := []
  tlb := []
  hostTlb := []
  ats := []
  invs := []
  prefs := []
  remote := []
  bands := []
  arrivals := []
  fields := []
  bundles := []
  queues := []
  ctxs := []
  boards := []
  copies := []
  tokens := []
  regs := PartRegs.reset
  fns := Vector.replicate 64 FnRegs.reset
  built := Built.complete
  made := Built.complete
  posts := []
  windows := []
  routes := []
  allowance := []
  window := 0
  unswept := []
  spare := []
  needy := []
  waking := []
  coreMHz := []
  mxLast := []
  served := []
  lastQueue := []
  outbox := []
  records := []
  lost := []
  time := 0
  clock := 0
  nextId := 1
  freeIx := 0
  choices := []
  ev := .none
  agenda := [.event .deviceReset (.reset .powerOn 0)]

end Sys2Proof.Machine
end

