-- ==== Sys2Proof/Machine/Memory.lean ====
section
/-! DEFINITION. The named operations over memory: the canonical list, the places of bytes (R15, R127 to R131, R138,
R344), the L1 and L2 copies (R134 to R136, R152, R159, R160), and translation (R320 to R326, R337, R352). -/

namespace Sys2Proof.Machine

open Sys2Proof

/-! ### The canonical list of bytes -/

/-- The byte at a key; what is not listed reads 0 (log entry 4). -/
def Memory.get : Memory → Nat → Byte
  | [], _ => 0
  | (b, v) :: rest, a => if a = b then v else if a < b then 0 else Memory.get rest a

/-- Write a byte, keeping the keys rising and no zero byte listed. -/
def Memory.set : Memory → Nat → Byte → Memory
  | [], a, x => if x = 0 then [] else [(a, x)]
  | (b, v) :: rest, a, x =>
    if a < b then (if x = 0 then (b, v) :: rest else (a, x) :: (b, v) :: rest)
    else if a = b then (if x = 0 then rest else (a, x) :: rest)
    else (b, v) :: Memory.set rest a x

/-- Every key above `lo` in rising order, and no zero byte. -/
def Memory.wfFrom : Nat → Memory → Bool
  | _, [] => true
  | lo, (b, v) :: rest => decide (lo ≤ b) && decide (v ≠ 0) && Memory.wfFrom (b + 1) rest

/-- The canonical form. -/
def Memory.wf (m : Memory) : Bool := Memory.wfFrom 0 m

/-- Write bytes at rising keys from `a` on. -/
def Memory.setMany (m : Memory) (a : Nat) : List Byte → Memory
  | [] => m
  | x :: xs => Memory.setMany (m.set a x) (a + 1) xs

/-- `n` bytes from key `a` on. -/
def Memory.getMany (m : Memory) (a n : Nat) : List Byte := (List.range n).map (fun i => m.get (a + i))

/-- A list of bytes as a number, little-endian (R3). -/
def bytesNat : List Byte → Nat
  | [] => 0
  | b :: bs => b.toNat + 256 * bytesNat bs

/-- The `n` low bytes of a number, little-endian (R3). -/
def natBytes : Nat → Nat → List Byte
  | 0, _ => []
  | n + 1, x => BitVec.ofNat 8 x :: natBytes n (x / 256)

/-- An overlay of bytes by key: the value it holds for a key, if any. -/
def overlayGet (o : Memory) (a : Nat) : Option Byte := (o.find? (fun c => c.1 = a)).map (·.2)
/-- Put a byte into an overlay. -/
def overlaySet (o : Memory) (a : Nat) (x : Byte) : Memory := (a, x) :: o.filter (fun c => c.1 ≠ a)

/-! ### Places: the keys of bytes -/

/-- The key of a byte: the region (its kind and number) times 2^64, plus the offset. -/
def placeKey (kind num off : Nat) : Nat := (8 * num + kind) * 2 ^ 64 + off % 2 ^ 64
/-- Home memory of a die (R15). -/
def keyHome (die off : Nat) : Nat := placeKey 0 die off
/-- The carve allocation of a context (R131). -/
def keyCarve (ctx off : Nat) : Nat := placeKey 1 ctx off
/-- Scratch of team instance `k` of a band (R128, R129). -/
def keyScratch (band k off : Nat) : Nat := placeKey 2 (16 * band + k) off
/-- Private memory of a group (R130). -/
def keyPrivate (uid off : Nat) : Nat := placeKey 3 uid off
/-- Host memory, by the host's own address (R326). -/
def keyHost (ha : Nat) : Nat := placeKey 4 0 ha
/-- Memory of a remote device (R352). -/
def keyRemote (dev ra : Nat) : Nat := placeKey 5 dev ra
/-- The kind of a key's region. -/
def keyKind (key : Nat) : Nat := key / 2 ^ 64 % 8
/-- The number of a key's region. -/
def keyNum (key : Nat) : Nat := key / 2 ^ 64 / 8
/-- The offset in a key's region. -/
def keyOff (key : Nat) : Nat := key % 2 ^ 64
/-- The line of a key: lines are 128 bytes (R134). -/
def lineOf (key : Nat) : Nat := key / 128
/-- Whether a key's bytes are cached in L1: all but scratch (R127). -/
def isCached (key : Nat) : Bool := decide (keyKind key ≠ 2)
/-- Whether a key's bytes can be in L2: not those of scratch, and not private ones, which are cached in L1 only (R127, R130). -/
def isShared (key : Nat) : Bool := decide (keyKind key ≠ 2) && decide (keyKind key ≠ 3)

/-- Core number across the part: 8 cores in each of 48 clusters. -/
def coreIndex (cluster core : Nat) : Nat := 8 * cluster + core
/-- The cluster of a core. -/
def clusterOfCore (core : Nat) : Nat := core / 8
/-- The compute die of a cluster: XD0's clusters come first. -/
def dieOfCluster (cluster : Nat) : Nat := cluster / 24

/-- The core of the group across the part. -/
def Group.coreNo (g : Group) : Nat := coreIndex g.id.cluster g.id.core

/-- The group is resident: it holds its slot, its banks and its tiles. -/
def Group.resident (g : Group) : Bool :=
  match g.status with
  | .exited => false
  | .evicted _ _ _ => false
  | .saved _ _ => false
  | _ => true

/-! ### Home memory -/

/-- HSIZE of a die: 2 GiB for each present channel; an absent die has none (R344, R360). -/
def Built.hsize (b : Built) (die : Nat) : Nat :=
  if b.dies.getLsbD die then 2 ^ 31 * (if die = 0 then b.chan0 else b.chan1) else 0

/-- The die and home offset of a SPREAD address (R138, R344). -/
def Built.spreadHome (b : Built) (pa : Nat) : Nat × Nat :=
  if b.dies = 3 then (pa / 2048 % 2, pa / 4096 * 2048 + pa % 2048)
  else if b.dies.getLsbD 0 then (0, pa) else (1, pa)

/-- The key of a device physical address in a form (R344); none at or above HSIZE. -/
def Built.homeKey (b : Built) (kind : PageKind) (pa : Nat) : Option Nat :=
  match kind with
  | .loc d => if pa < b.hsize d then some (keyHome d pa) else none
  | .spread =>
    let h := b.spreadHome pa
    if h.2 < b.hsize h.1 then some (keyHome h.1 h.2) else none
  | _ => none

/-- The die that homes a byte: home memory's die, or carve's granule (R131, R138). -/
def homeDie (key : Nat) : Option Nat :=
  if keyKind key = 0 then some (keyNum key)
  else if keyKind key = 1 then some (keyOff key / 2048 % 2)
  else none

/-! ### Copies of lines -/

/-- A mask of `n` bytes from offset `o` of a line. -/
def byteMask (o n : Nat) : BitVec 128 := BitVec.ofNat 128 ((2 ^ n - 1) * 2 ^ o)

/-- The coherent value of a byte: what has been written back (R134); bytes of HOST and REMOTE pages that are written
back but not yet written through stand in an overlay (R136, R352). -/
def State.backing (s : State) (key : Nat) : Byte :=
  match keyKind key with
  | 4 => (overlayGet s.hostDirty key).getD (s.mem.get key)
  | 5 => (overlayGet s.remoteDirty key).getD ((overlayGet s.grp.remoteGot key).getD (s.mem.get key))
  | _ => s.mem.get key

/-- Write the coherent value of a byte; no load finds its line any more as it stood before writes of the host. -/
def State.setBacking (s : State) (key : Nat) (x : Byte) : State :=
  match keyKind key with
  | 4 => { s with hostDirty := overlaySet s.hostDirty key x }
  | 5 => { s with remoteDirty := overlaySet s.remoteDirty key x }
  | _ => { s with mem := s.mem.set key x, hostOld := s.hostOld.filter (fun o => o.2.1 ≠ lineOf key) }

/-- Core `core`'s L1 line. -/
def State.l1Line (s : State) (core line : Nat) : Option L1Line :=
  s.l1.find? (fun l => l.core = core && l.line = line)
/-- Cluster `cluster`'s L2 line. -/
def State.l2Line (s : State) (cluster line : Nat) : Option L2Line :=
  s.l2.find? (fun l => l.cluster = cluster && l.line = line)

/-- Where a read is served (R160): the core's L1, L2, or, for HOST and REMOTE lines only, beyond L2. The core's own dirty bytes
are kept in every case. -/
inductive ReadAt where
  | l1
  | l2
  | coherent
  deriving DecidableEq, Repr

/-- A byte as cluster `cluster`'s L2 gives it: its copy, stale or not, or the coherent value. -/
def State.readL2 (s : State) (cluster key : Nat) : Byte :=
  match s.l2Line cluster (lineOf key) with
  | some l => l.data[key % 128]?.getD 0
  | none => s.backing key

/-- The bytes of an L1 line that a read takes. -/
def L1Line.supplies (l : L1Line) : ReadAt → BitVec 128
  | .l1 => l.valid
  | _ => l.dirty

/-- A byte past the core's L1: system scope ignores L2's copies of HOST and REMOTE lines (R136, R160). -/
def State.readBeyond (s : State) (cluster : Nat) (how : ReadAt) (key : Nat) : Byte :=
  if how = .coherent && decide (4 ≤ keyKind key) then s.backing key else s.readL2 cluster key

/-- The byte of a line of home memory as loads of a core may still find it, from before later writes of the host (R390). -/
def State.oldByte (s : State) (core key : Nat) : Option Byte :=
  if keyKind key ≠ 0 then none
  else (s.hostOld.find? (fun o => o.1 = core && o.2.1 = lineOf key)).map (fun o => o.2.2[key % 128]?.getD 0)

/-- A byte that a core's L1 does not supply: a read that L1 may serve may find it as it stood before writes of the host (log
entry 5). -/
def State.readFar (s : State) (core : Nat) (how : ReadAt) (key : Nat) : Byte :=
  if how = .l1 then (s.oldByte core key).getD (s.readBeyond (clusterOfCore core) how key)
  else s.readBeyond (clusterOfCore core) how key

/-- A byte as core `core` reads it (R160). -/
def State.readByte (s : State) (core : Nat) (how : ReadAt) (key : Nat) : Byte :=
  if isCached key then
    match s.l1Line core (lineOf key) with
    | some l =>
      if (l.supplies how).getLsbD (key % 128) then l.data[key % 128]?.getD 0
      else s.readFar core how key
    | none => s.readFar core how key
  else s.mem.get key

/-- `n` bytes as core `core` reads them. -/
def State.readBytes (s : State) (core : Nat) (how : ReadAt) (key n : Nat) : List Byte :=
  (List.range n).map (fun i => s.readByte core how (key + i))

/-- The lines of some bytes that the core's L1 does not supply to a read. -/
def State.missedLines (s : State) (core : Nat) (how : ReadAt) (ks : List Nat) : List Nat :=
  ((ks.filter (fun k => isCached k && match s.l1Line core (lineOf k) with
    | some l => !(l.supplies how).getLsbD (k % 128)
    | none => true)).map lineOf).eraseDups

/-- The counters of R295 after accesses that miss `n` lines in L1 and move `bytes` from L2 or beyond. -/
def Group.countMisses (g : Group) (n bytes : Nat) : Group :=
  { g with l1Misses := g.l1Misses + n, movedBytes := g.movedBytes + bytes }

/-- The events of a tenant that a selector names are counted (R335). -/
def State.countEvent (s : State) (tenant sel n : Nat) : State :=
  let bump (v : Vector DWord 12) : Vector DWord 12 :=
    Vector.ofFn (fun k => if (s.regs.tcsel[k.val]?.getD 0).toNat = sel then v[k] + BitVec.ofNat 64 n else v[k])
  { s with regs := { s.regs with
      tcount := Vector.ofFn (fun t => if t.val = tenant then bump s.regs.tcount[t] else s.regs.tcount[t]) } }

/-- A line is read past L2 for a tenant (R335): from the memory-side cache, which holds every carved line (R131), or, where that
misses, from HBM. HOST and REMOTE lines are in neither. -/
def State.countMsc (s : State) (tenant line : Nat) : State :=
  match keyKind (128 * line) with
  | 0 => if s.msc.any (fun m => m.line = line) then s.countEvent tenant 3 1 else (s.countEvent tenant 4 1).countEvent tenant 5 128
  | 1 => s.countEvent tenant 3 1
  | _ => s

/-- A write of a line for a tenant comes to the memory-side cache (R335): it stays there where the line is listed, and goes to HBM
with the line's 128 bytes where it is not (log entry 81). -/
def State.mscKeep (s : State) (tenant line : Nat) : State :=
  if keyKind (128 * line) ≠ 0 then s
  else if s.msc.any (fun m => m.line = line) then
    { s with msc := s.msc.map (fun m => if m.line = line then { m with dirty := some tenant } else m) }
  else s.countEvent tenant 6 128

/-- A write that reaches memory at the memory-side cache is a hit or a miss there (R335). -/
def State.mscWrite (s : State) (tenant line : Nat) : State :=
  (match keyKind (128 * line) with
   | 0 => s.countEvent tenant (if s.msc.any (fun m => m.line = line) then 3 else 4) 1
   | 1 => s.countEvent tenant 3 1
   | _ => s).mscKeep tenant line

/-- Bytes are written, or with `read` read, at the memory-side cache for a tenant, line by line (R335). -/
def State.atMsc (s : State) (tenant : Nat) (read : Bool) (ks : List Nat) : State :=
  ((ks.map lineOf).eraseDups).foldl (fun t l => if read then t.countMsc tenant l else t.mscWrite tenant l) s

/-- A line is written at a cluster's L2 for a tenant, a hit or a miss (R335). -/
def State.countWrite (s : State) (tenant cluster line : Nat) : State :=
  if (s.l2Line cluster line).isSome then (s.countEvent tenant 1 1).mscKeep tenant line
  else (s.countEvent tenant 2 1).mscWrite tenant line

/-- The lines of the memory-side cache that stay; those that leave go to HBM where they are dirty (R335). -/
def State.leaveMsc (s : State) (kept : List MscLine) : State :=
  let gone := s.msc.filter (fun m => !kept.contains m)
  { gone.foldl (fun t m => match m.dirty with | some d => t.countEvent d 6 128 | none => t) s with msc := kept }

/-- Lines are read at a cluster's L2 for a tenant, each a hit or a miss (R335); `past` reads go past L2's copies. -/
def State.countL2 (s : State) (tenant cluster : Nat) (past : Bool) : List Nat → State
  | [] => s
  | l :: ls =>
    State.countL2
      (if (s.l2Line cluster l).isSome && !(past && decide (4 ≤ keyKind (128 * l))) then s.countEvent tenant 1 1
       else (s.countEvent tenant 2 1).countMsc tenant l) tenant cluster past ls

/-- Lines of HOST pages go out as reads of the host, for a function and a PASID (R349). -/
def State.askLines (s : State) (fn pasid : Nat) (lines : List Nat) : State :=
  { s with outbox := (lines.map (fun l => .hostRead fn pasid (keyOff (128 * l)) 128)).reverse ++ s.outbox }

/-- The lines of HOST pages among some that are read past a cluster's L2 are asked of the host. -/
def State.readHost (s : State) (fn pasid cluster : Nat) (past : Bool) (lines : List Nat) : State :=
  s.askLines fn pasid (lines.filter (fun l => decide (keyKind (128 * l) = 4) && (past || (s.l2Line cluster l).isNone)))

/-- What the issuing group's accesses that miss some lines of L1 leave: the counts of R295 and R335, and the reads of the host. -/
def State.readMissed (s : State) (past : Bool) (bytes : Nat) (lines : List Nat) : State :=
  let s1 := { s with grp := s.grp.countMisses lines.length bytes }
  (s1.countL2 s.grp.id.fn s.grp.id.cluster past (lines.filter (fun l => isShared (128 * l)))).readHost s.grp.id.fn
    s.grp.id.pasid s.grp.id.cluster past lines

/-- The lines that were read ahead for the issuing group's matrix commands are dropped: a command that follows a load reads no
older bytes (R165, log entry 85). -/
def State.forgetAhead (s : State) : State := { s with ahead := s.ahead.filter (fun a => a.1 ≠ s.grp.id.uid) }

/-- The guaranteed ways of an L2 slice (R252). -/
def PartRegs.l2g (r : PartRegs) : Nat := (r.classcfg.extractLsb' 0 5).toNat
/-- The guaranteed ways of the memory-side cache (R252). -/
def PartRegs.mscg (r : PartRegs) : Nat := (r.classcfg.extractLsb' 5 6).toNat

/-- The ways of an L2 slice in which a class allocates (R251). -/
def PartRegs.l2Ways (r : PartRegs) (cls : Nat) : Nat := if cls = 0 then r.l2g else 16 - r.l2g

/-- The last of a list that a test picks goes. -/
def dropLast1 {α : Type} (p : α → Bool) (xs : List α) : List α :=
  (xs.reverse.eraseP p).reverse

/-- The priority that CP gives a line in L2 (R137): 0 for stream, 2 for keep, 1 for the others. -/
def cpPrio (cp : Nat) : Nat := if cp = 2 then 0 else if cp = 5 then 2 else 1

/-- The priority at which an access allocates its line in L2, or none under no-L2-allocate (R137). -/
def l2Prio (cp : Nat) : Option Nat := if cp = 3 then none else some (cpPrio cp)

/-- The CP whose lines have a priority in L2 (R137). -/
def prioCp (prio : Nat) : Nat := if prio = 0 then 2 else if prio = 2 then 5 else 1

/-- Of the lines that a test picks one of the lowest priority goes (R137): stream lines first. Among equals it is the one that was
allocated first, and a HOME hint has no part in it, which are the model's choices (R139, log entry 90). -/
def dropWeakest (p : L2Line → Bool) (xs : List L2Line) : List L2Line :=
  match [0, 1].find? (fun k => xs.any (fun l => p l && decide (l.prio = k))) with
  | some k => dropLast1 (fun l => p l && decide (l.prio = k)) xs
  | none => dropLast1 p xs

/-- Room is made in a cluster's L2 for one more line of a class (R16, R137, R251, R252): its eight slices hold 8,192 lines in each
way. A class that has filled its ways loses one of its own; one that has not, in a full L2, takes a way that the other class
still holds. -/
def State.roomL2 (s : State) (cluster cls : Nat) : List L2Line :=
  let here := s.l2.filter (fun l => l.cluster = cluster)
  if 8192 * s.regs.l2Ways cls ≤ (here.filter (fun l => l.cls = cls)).length then
    dropWeakest (fun l => l.cluster = cluster && l.cls = cls) s.l2
  else if 131072 ≤ here.length then dropWeakest (fun l => l.cluster = cluster && l.cls ≠ cls) s.l2
  else s.l2

/-- A line takes a way of a class in a cluster's L2; a class without ways allocates none. -/
def State.allocL2 (s : State) (x : L2Line) : State :=
  if s.regs.l2Ways x.cls = 0 then s else { s with l2 := x :: s.roomL2 x.cluster x.cls }

/-- A line is fetched into a cluster's L2 for a class at a priority, untagged (R134, R137, R152). Lines of scratch and private
memory are not cached there, and a line of a remote window comes only as its answer. -/
def State.fillL2 (s : State) (cluster line cls prio : Nat) : State :=
  let k := keyKind (128 * line)
  if (s.l2Line cluster line).isSome || !(k = 0 || k = 1 || k = 4) then s
  else
    s.allocL2 { cluster := cluster, line := line, cls := cls, prio := prio, tag := none,
                data := Vector.ofFn (fun o => s.backing (128 * line + o.val)) }

/-! ### Lines of L1 that come and go -/

/-- A line comes into a core's L1: the bytes it does not hold become valid (R134). -/
def State.putL1 (s : State) (core line : Nat) (w : Want) : State :=
  let old := (s.l1Line core line).getD
    { core := core, line := line, valid := 0, dirty := 0, data := Vector.replicate 128 0, want := w }
  let new : L1Line := { old with
    valid := BitVec.allOnes 128, want := if old.dirty = 0 then w else old.want,
    data := Vector.ofFn (fun o => s.readByte core .l1 (128 * line + o.val)) }
  { s with l1 := new :: s.l1.filter (fun l => !(l.core = core && l.line = line)) }

/-- Whose private memory a line is, if any (R130). -/
def privateOf (line : Nat) : Option Nat := if keyKind (128 * line) = 3 then some (keyNum (128 * line)) else none

/-- A line is fetched into a core's L1 beside its accesses: one of a HOST page or a remote window only from L2 (R349), and a private
one only for its group, on its core (R130). -/
def State.fillL1 (s : State) (core line : Nat) (w : Want) : State :=
  let may :=
    match keyKind (128 * line) with
    | 2 => false
    | 3 => (s.grp :: s.others).any (fun g => decide (privateOf line = some g.id.uid) && g.resident && decide (g.coreNo = core))
    | k => decide (k < 2) || decide (k = 4 ∨ k = 5) && (s.l2Line (clusterOfCore core) line).isSome
  if may then s.putL1 core line w else s

/-- For whom, and how, the group's accesses under a CP allocate. -/
def Group.want (g : Group) (cp : Nat) : Want := ⟨g.id.fn, g.id.cls, cp⟩

/-- The lines that a load misses are allocated as its CP says (R137): in L2 but under no-L2-allocate, and in L1 where L1 may
serve the load. -/
def State.allocLoad (s : State) (core : Nat) (how : ReadAt) (w : Want) : List Nat → State
  | [] => s
  | l :: ls =>
    let t :=
      match l2Prio w.cp with
      | some p => s.fillL2 (clusterOfCore core) l w.cls p
      | none => s
    State.allocLoad (if how = .l1 then t.putL1 core l w else t) core how w ls

/-- Lines that a core reads are not found any more as they stood before writes of the host, but by the core that has just read them
so, past its L1 (R163). -/
def State.seen (s : State) (core : Nat) (how : ReadAt) (miss lines : List Nat) : State :=
  { s with hostOld := s.hostOld.filter (fun o => !lines.contains o.2.1 || (decide (how = .l1) && decide (o.1 = core) && miss.contains o.2.1)) }

/-- A read past L1 leaves no older copy of its bytes for a later load of the core (R163). -/
def State.past (s : State) (core : Nat) (how : ReadAt) (ks : List Nat) : State :=
  { s with
    l1 := ks.foldl (fun ls k => ls.map (fun l =>
        if l.core = core && l.line = lineOf k then
          { l with valid := l.valid &&& (~~~ byteMask (k % 128) 1 ||| l.dirty) } else l)) s.l1,
    l2 := if how = .coherent then
          s.l2.filter (fun l => !(l.cluster = clusterOfCore core && 4 ≤ keyKind (128 * l.line) && (ks.map lineOf).contains l.line))
        else s.l2 }

/-- What a read by the issuing group leaves: its misses are counted, each a line moved whole (R295), nothing read ahead for its
matrix commands stays, and a read past L1 leaves no older copy of its bytes for a later load of the core (R163): their clean L1
bytes go, and at system scope the cluster's copies of HOST and REMOTE lines. The lines that it misses are allocated as CP says
(R137). -/
def State.sawBeyond (s : State) (core : Nat) (how : ReadAt) (cp : Nat) (ks : List Nat) : State :=
  let miss := s.missedLines core how ks
  let s := ((s.readMissed (decide (how = .coherent)) (128 * miss.length) miss).forgetAhead).seen core how miss (ks.map lineOf)
  let t :=
    match how with
    | .l1 => s
    | _ => s.past core how ks
  t.allocLoad core how (s.grp.want cp) miss

/-- Put a byte into a line of data. -/
def setLineByte (d : Vector Byte 128) (o : Nat) (x : Byte) : Vector Byte 128 := d.setIfInBounds o x

/-- A write at L2 (R134, R152): the coherent value changes, the cluster's own copy follows, every copy of the line loses
its tag; copies in other clusters keep their stale bytes until they are invalidated (R159). -/
def State.writeL2Byte (s : State) (cluster key : Nat) (x : Byte) : State :=
  let s1 := s.setBacking key x
  { s1 with
    l2 := s1.l2.map (fun l =>
      if l.line = lineOf key then
        { l with tag := none, data := if l.cluster = cluster then setLineByte l.data (key % 128) x else l.data }
      else l) }

/-- Writes at L2 of bytes at rising keys. -/
def State.writeL2 (s : State) (cluster key : Nat) : List Byte → State
  | [] => s
  | x :: xs => State.writeL2 (s.writeL2Byte cluster key x) cluster (key + 1) xs

/-- A store into the core's L1 (R134): write-allocate, with the byte dirty; the line is written back for whom stored to it last. -/
def State.writeL1Byte (s : State) (core : Nat) (w : Want) (key : Nat) (x : Byte) : State :=
  match s.l1Line core (lineOf key) with
  | some _ =>
    { s with
      l1 := s.l1.map (fun l =>
        if l.core = core && l.line = lineOf key then
          { l with valid := l.valid ||| byteMask (key % 128) 1, dirty := l.dirty ||| byteMask (key % 128) 1,
                   data := setLineByte l.data (key % 128) x, want := w }
        else l) }
  | none =>
    { s with
      l1 := { core := core, line := lineOf key, valid := byteMask (key % 128) 1, dirty := byteMask (key % 128) 1,
              data := setLineByte (Vector.replicate 128 0) (key % 128) x, want := w } :: s.l1 }

/-- One byte of a group's store: scratch at once, else through L1 or into it. -/
def State.storeByte (s : State) (core : Nat) (through : Bool) (w : Want) (key : Nat) (x : Byte) : State :=
  if isCached key then
    if through then
      let s1 := s.writeL2Byte (clusterOfCore core) key x
      { s1 with
        l1 := s1.l1.map (fun l =>
          if l.core = core && l.line = lineOf key then
            { l with valid := l.valid &&& ~~~ byteMask (key % 128) 1, dirty := l.dirty &&& ~~~ byteMask (key % 128) 1 }
          else l) }
    else s.writeL1Byte core w key x
  else { s with mem := s.mem.set key x }

/-- A line of global or carve memory is written at a cluster's L2: it is counted (R335), and allocated there as CP says (R137). -/
def State.wroteL2 (s : State) (cluster : Nat) (w : Want) (line : Nat) : State :=
  let t := s.countWrite w.fn cluster line
  match l2Prio w.cp with
  | some p => if keyKind (128 * line) < 2 then t.fillL2 cluster line w.cls p else t
  | none => t

/-- The lines of some bytes are written at a cluster's L2. -/
def State.wroteLines (s : State) (cluster : Nat) (w : Want) (ks : List Nat) : State :=
  (((ks.filter isShared).map lineOf).eraseDups).foldl (fun t l => t.wroteL2 cluster w l) s

/-- Write back the dirty bytes of one L1 line to L2 (R135), byte by byte. -/
def State.writeBackBytes (s : State) (cluster : Nat) (l : L1Line) : List Nat → State
  | [] => s
  | o :: os =>
    State.writeBackBytes
      (if l.dirty.getLsbD o then s.writeL2Byte cluster (128 * l.line + o) (l.data[o]?.getD 0) else s) cluster l os

/-- An L1 line is written back where it is dirty; a private one only to where it is kept (R130). -/
def State.writeBackLine (s : State) (cluster : Nat) (l : L1Line) : State :=
  if l.dirty = 0 then s
  else ((if isShared (128 * l.line) then s.wroteL2 cluster l.want l.line else s).writeBackBytes cluster l (List.range 128))

/-- The line is one of a core that a release writes back and an acquire drops: global or carve memory (R135). -/
def L1Line.ofCore (l : L1Line) (core : Nat) : Bool := decide (l.core = core) && isShared (128 * l.line)

/-- Write back the lines of a list that a release of a core writes back. -/
def State.writeBackAll (s : State) (core : Nat) : List L1Line → State
  | [] => s
  | l :: ls =>
    State.writeBackAll (if l.ofCore core then s.writeBackLine (clusterOfCore core) l else s) core ls

/-- Every dirty byte of a core's lines but private ones is written back; the lines stay valid and clean (R135). -/
def State.cleanCore (s : State) (core : Nat) : State :=
  let s1 := s.writeBackAll core s.l1
  { s1 with l1 := s1.l1.map (fun l => if l.ofCore core then { l with dirty := 0 } else l) }

/-- The dirty bytes of one line of a core are written back. -/
def State.cleanLine (s : State) (core line : Nat) : State :=
  match s.l1Line core line with
  | some l =>
    let s1 := s.writeBackLine (clusterOfCore core) l
    { s1 with l1 := s1.l1.map (fun m => if m.core = core && m.line = line then { m with dirty := 0 } else m) }
  | none => s

/-- The clean bytes of a core's L1 but private ones are dropped, the dirty ones kept (R135). -/
def State.dropClean (s : State) (core : Nat) : State :=
  { s with
    l1 := (s.l1.map (fun l => if l.ofCore core then { l with valid := l.dirty } else l)).filter
      (fun l => !l.ofCore core || l.dirty ≠ 0) }

/-- An L2 copy that no longer holds the coherent bytes. -/
def State.isStale (s : State) (l : L2Line) : Bool :=
  (List.range 128).any (fun o => l.data[o]?.getD 0 ≠ s.backing (128 * l.line + o))

/-- CD's invalidations (R159): at die scope the stale copies in the other clusters of the die go, at device scope and
wider those of both dies. -/
def State.invalidateStale (s : State) (cluster scope : Nat) : State :=
  if scope ≤ 3 then s
  else
    { s with
      l2 := s.l2.filter (fun l =>
        !(l.cluster ≠ cluster && (5 ≤ scope || dieOfCluster l.cluster = dieOfCluster cluster) && s.isStale l)) }

/-- For whom a byte of a HOST page or a remote window was last stored. -/
def State.originOf (s : State) (key : Nat) : Origin :=
  ((s.origins.find? (fun o => o.1 = key)).map (·.2)).getD ⟨0, 0, 0, 1, 0⟩

/-- The bytes among some that lie in a HOST page or a remote window are stored for an agent. -/
def State.noteOrigin (s : State) (o : Origin) (ks : List Nat) : State :=
  let xs := ks.filter (fun k => decide (4 ≤ keyKind k))
  { s with origins := xs.map (fun k => (k, o)) ++ s.origins.filter (fun c => !xs.contains c.1) }

/-- The write of a byte of host memory, for the function and the PASID that stored it (R349). -/
def State.hostWriteOf (s : State) (c : Host.Cell) : OutMsg :=
  .hostWrite (s.originOf c.1).fn (s.originOf c.1).pasid (keyOff c.1) c.2

/-- Those bytes of HOST pages that a test picks are written through to the host (R136, R349). -/
def State.flushHostOf (s : State) (p : Nat → Bool) : State :=
  let out := s.hostDirty.filter (fun c => p c.1)
  { s with
    mem := out.foldr (fun c m => Memory.set m c.1 c.2) s.mem, hostDirty := s.hostDirty.filter (fun c => !p c.1),
    outbox := out.map s.hostWriteOf ++ s.outbox }

/-- Bytes of HOST pages are written through to the host (R136). -/
def State.flushHost (s : State) : State := s.flushHostOf (fun _ => true)

/-- Clean HOST and REMOTE lines of a cluster's L2 are invalidated by an acquire at system scope (R136, R352). -/
def State.dropForeignL2 (s : State) (cluster : Nat) : State :=
  { s with l2 := s.l2.filter (fun l => !(l.cluster = cluster && 4 ≤ keyKind (128 * l.line))) }

/-- An acquire at system scope orders what follows after every write of the host with which it may synchronise: no load finds a line
any more as it stood before (R162, R168). -/
def State.seeHost (s : State) : State := { s with hostOld := [] }

/-- The action of an acquire at a scope (R135, R136, R162): at team scope and wider. -/
def State.acquireAt (s : State) (core scope : Nat) : State :=
  if scope ≤ 1 then s
  else
    let s1 := s.dropClean core
    if scope = 6 then (s1.dropForeignL2 (clusterOfCore core)).seeHost else s1

/-- The action of a release at a scope (R135, R136, R159): at band scope and wider the core's dirty bytes are written
back, and stale copies invalidated as far as the scope reaches. -/
def State.releaseAt (s : State) (core scope : Nat) : State :=
  if scope ≤ 2 then s
  else
    let s1 := (s.cleanCore core).invalidateStale (clusterOfCore core) scope
    if scope = 6 then s1.flushHost else s1

/-! ### The memory-side cache (R131, R134, R251, R252) -/

/-- The ways that are carved: whole ways of 128 MiB for the allocations of the contexts (R131). -/
def State.carvedWays (s : State) : Nat := ((s.ctxs.map (·.carve)).sum + (2 ^ 27 - 1)) / 2 ^ 27

/-- The ways of the memory-side cache in which a class allocates: carved ways come from the harvest side first (R252). -/
def State.mscWays (s : State) (cls : Nat) : Nat :=
  let left := 32 - s.carvedWays
  let g := min s.regs.mscg left
  if cls = 0 then g else left - g

/-- The half of the memory-side cache that holds a line: its home die's (R138). -/
def lineHalf (line : Nat) : Nat := keyNum (128 * line)

/-- The memory-side cache takes a line of home memory for a class; each way holds 2^19 lines in each half. It is the point of
coherence, so a line in it has the bytes of memory itself. -/
def State.fillMsc (s : State) (line cls : Nat) : State :=
  if keyKind (128 * line) ≠ 0 || s.msc.any (fun m => m.line = line) || s.mscWays cls = 0 then s
  else
    let here := s.msc.filter (fun m => lineHalf m.line = lineHalf line)
    let kept :=
      if 2 ^ 19 * s.mscWays cls ≤ (here.filter (fun m => m.cls = cls)).length then
        dropLast1 (fun m => lineHalf m.line = lineHalf line && m.cls = cls) s.msc
      else if 2 ^ 19 * (32 - s.carvedWays) ≤ here.length then
        dropLast1 (fun m => lineHalf m.line = lineHalf line && m.cls ≠ cls) s.msc
      else s.msc
    let t := s.leaveMsc kept
    { t with msc := ⟨line, cls, none⟩ :: t.msc }

/-- An L1 line leaves, its dirty bytes written back first (R134, R154). -/
def State.evictL1 (s : State) (core line : Nat) : State :=
  let s1 := s.cleanLine core line
  { s1 with l1 := s1.l1.filter (fun l => !(l.core = core && l.line = line)) }

/-- A cluster's L2 copy of a line leaves. -/
def State.evictL2 (s : State) (cluster line : Nat) : State :=
  { s with l2 := s.l2.filter (fun l => !(l.cluster = cluster && l.line = line)) }

/-- Before an atomic at L2 (R170): the core's dirty bytes in the line are written back, its L1 copy goes, and the line is
held exclusively, so that no other cluster keeps a copy. -/
def State.takeExclusive (s : State) (core key : Nat) : State :=
  if isCached key then
    let s1 := s.cleanLine core (lineOf key)
    { s1 with
      l1 := s1.l1.filter (fun l => !(l.core = core && l.line = lineOf key)),
      l2 := s1.l2.filter (fun l => l.line ≠ lineOf key) }
  else s

/-- A write that is at once performed at device scope (an atomic, an inbound write): the coherent bytes change and no
cluster keeps a copy of the lines. -/
def State.writeCoherent (s : State) (key : Nat) : List Byte → State
  | [] => s
  | x :: xs =>
    let s1 := s.setBacking key x
    State.writeCoherent { s1 with l2 := s1.l2.filter (fun l => l.line ≠ lineOf key) } (key + 1) xs

/-- The coherent bytes. -/
def State.readCoherent (s : State) (key n : Nat) : List Byte := (List.range n).map (fun i => s.backing (key + i))

/-! ### Translation -/

/-- Who makes an access: the function and PASID that tag it (R334), and the context. -/
structure Who where
  fn : Nat
  pasid : Nat
  ctx : Nat
  deriving DecidableEq, Repr

/-- The right an access needs (R323). -/
inductive Need where
  | read
  | write
  | exec
  deriving DecidableEq, Repr

/-- The outcome of a translation: the key of the byte, a fault, or a wait for the host IOMMU (R326). -/
inductive Xlat where
  | at_ (key : Nat)
  | transl
  | prot
  | host (vpage : Nat)
  deriving DecidableEq, Repr

/-- A field of a 64-bit value. -/
def fld (x : DWord) (lo len : Nat) : Nat := (x.extractLsb' lo len).toNat

/-- A register in the layout of QTROOT (R296): its base, where EN is set. -/
def rootBase (r : DWord) : Option Nat := if r.getLsbD 0 then some (fld r 12 34 * 4096) else none

/-- A byte of device physical memory in a region marked secure (R337): its address, in whichever form a leaf gives it, is compared
with the base and the limit, which the region does not include (the model's choice, log entry 98). -/
def PartRegs.secureAt (r : PartRegs) (pa : Nat) : Bool :=
  r.secReg.toList.any (fun g => g.valid && decide (g.base.toNat ≤ pa) && decide (pa < g.limit.toNat))

/-- A function is secure (R337). -/
def PartRegs.fnSecure (r : PartRegs) (fn : Nat) : Bool := r.fnWorld.getLsbD fn

/-- Eight bytes of device physical memory in a form, which a walk reads at the point of coherence; a table that no stage-2 leaf
places is in the SPREAD form (log entry 19). None where the address lies outside device memory, or is secure and the walk is not. -/
def State.physDWord (s : State) (fn : Nat) (kind : PageKind) (pa : Nat) : Option DWord :=
  match s.built.homeKey kind pa with
  | some k =>
    if s.regs.secureAt pa && !s.regs.fnSecure fn then none
    else some (BitVec.ofNat 64 (bytesNat (s.mem.getMany k 8)))
  | none => none

/-- What a page-table entry is (R323). -/
inductive Pte where
  | table (pa : Nat)
  | leaf (l : Leaf)
  deriving DecidableEq, Repr

/-- A page-table entry at a level, or none where the walk ends with TRANSL (R323). -/
def pteOf (e : DWord) (level : Nat) : Option Pte :=
  if !e.getLsbD 0 || fld e 8 8 ≠ 0 then none
  else
    match fld e 1 3 with
    | 0 =>
      if level = 3 || fld e 4 4 ≠ 0 || fld e 16 2 ≠ 0 || fld e 46 18 ≠ 0 then none
      else some (.table (fld e 16 30 * 2 ^ 16))
    | k =>
      if level = 1 || 5 ≤ k then none
      else if level = 2 && k ≠ 3 && fld e 18 13 ≠ 0 then none
      else if k ≠ 1 && e.getLsbD 7 then none
      else if k ≠ 4 && (fld e 46 18 ≠ 0 || fld e 16 2 ≠ 0) then none
      else if k = 3 && fld e 16 30 ≠ 0 then none
      else
        some (.leaf
          { base := fld e 18 28 * 2 ^ 18, log2 := if level = 2 then 31 else 18,
            kind :=
              match k with
              | 1 => .loc (fld e 7 1)
              | 2 => .spread
              | 3 => .host
              | _ => .remote (fld e 46 18 * 4 + fld e 16 2),
            r := e.getLsbD 4, w := e.getLsbD 5, x := e.getLsbD 6 })

/-- The index of a level in a table of 8,192 entries (R322). -/
def levelIndex (va level : Nat) : Nat := va / 2 ^ (57 - 13 * level) % 8192

/-- A walk from a table over the levels still to read (R322); `host` turns the address of an entry into a device physical
one with its placement (stage 2 for a VF, R325), or ends the walk. -/
def State.walk (s : State) (fn : Nat) (host : Nat → Option (PageKind × Nat)) (va : Nat) : Nat → List Nat → Option Leaf
  | _, [] => none
  | table, level :: rest =>
    match host (table + 8 * levelIndex va level) with
    | none => none
    | some (kind, pa) =>
      match s.physDWord fn kind pa with
      | none => none
      | some e =>
        match pteOf e level with
        | some (.table t) => State.walk s fn host va t rest
        | some (.leaf l) => some l
        | none => none

/-- The device physical address of an offset in a leaf's page. -/
def Leaf.addr (l : Leaf) (va : Nat) : Nat := l.base + va % 2 ^ l.log2

/-- A table address as it stands, in the SPREAD form. -/
def spreadPlace (pa : Nat) : Option (PageKind × Nat) := some (.spread, pa)

/-- Stage 2 of a VF (R321, R325): the leaf of a guest physical address; only LOCAL and SPREAD. -/
def State.stage2 (s : State) (fn gpa : Nat) : Option Leaf :=
  match rootBase (s.regs.s2root[fn]?.getD 0) with
  | none => none
  | some root =>
    match s.walk fn spreadPlace gpa root [1, 2, 3] with
    | some l =>
      match l.kind with
      | .loc _ => some l
      | .spread => some l
      | _ => none
    | none => none

/-- The PASID entry of R320: its function and root, where it is well-formed and in its function's world. -/
def State.pasidEntry (s : State) (pasid : Nat) : Option (Nat × Nat) :=
  match rootBase s.regs.pasidroot with
  | none => none
  | some base =>
    match s.built.homeKey .spread (base + 16 * pasid) with
    | none => none
    | some k =>
      let b := s.mem.getMany k 16
      let flags := (b[0]?.getD 0).toNat
      let fn := (b[1]?.getD 0).toNat
      if flags % 2 = 1 && flags / 4 = 0 && (b.drop 2).take 6 = List.replicate 6 0 && fn ≤ 63 &&
          (flags / 2 % 2 = 1) = s.regs.fnSecure fn then
        some (fn, bytesNat (b.drop 8))
      else none

/-- The leaf that a walk of the tables gives for an address (R322 to R325). A stage-1 table is read whatever the rights of its
stage-2 leaf (the model's choice, log entry 97). -/
def State.walkLeaf (s : State) (fn pasid va : Nat) : Option Leaf :=
  match s.pasidEntry pasid with
  | none => none
  | some (owner, root) =>
    if owner ≠ fn then none
    else if fn = 0 then s.walk fn spreadPlace va root [1, 2, 3]
    else
      match s.walk fn (fun g => (s.stage2 fn g).map (fun l => (l.kind, l.addr g))) va root [1, 2, 3] with
      | none => none
      | some l =>
        match l.kind with
        | .host => some l
        | .remote _ => some { l with r := false, w := false, x := false }
        | _ =>
          match s.stage2 fn (l.addr va) with
          | none => none
          | some g =>
            some { base := g.base + (l.addr va % 2 ^ g.log2) / 2 ^ 18 * 2 ^ 18, log2 := 18, kind := g.kind,
                   r := l.r && g.r, w := l.w && g.w, x := l.x && g.x }

/-- The leaf that serves an address: a cached translation, else a walk (R324). Leaves alone are cached, no TABLE entries (the
model's choice, log entry 97). -/
def State.leafOf (s : State) (fn pasid va : Nat) : Option Leaf :=
  match s.tlb.find? (fun e => e.fn = fn && e.pasid = pasid && e.vpage = va / 2 ^ e.leaf.log2) with
  | some e => some e.leaf
  | none => s.walkLeaf fn pasid va

/-- The keys of the table entries that a walk reads (R322, R324, R325): `more` are the reads that place an entry, `host` its place. -/
def State.walkReads (s : State) (fn : Nat) (host : Nat → Option (PageKind × Nat)) (more : Nat → List Nat) (va : Nat) :
    Nat → List Nat → List Nat
  | _, [] => []
  | table, level :: rest =>
    let at_ := table + 8 * levelIndex va level
    more at_ ++
    match host at_ with
    | none => []
    | some (kind, pa) =>
      match s.built.homeKey kind pa with
      | none => []
      | some k =>
        k :: match (s.physDWord fn kind pa).bind (fun e => pteOf e level) with
          | some (.table t) => State.walkReads s fn host more va t rest
          | _ => []

/-- The entries that stage 2 reads for a guest physical address. -/
def State.stage2Reads (s : State) (fn gpa : Nat) : List Nat :=
  match rootBase (s.regs.s2root[fn]?.getD 0) with
  | none => []
  | some root => s.walkReads fn spreadPlace (fun _ => []) gpa root [1, 2, 3]

/-- The entries that the walk of an address reads: those of its tables, and those of stage 2 (R324, R325). -/
def State.leafReads (s : State) (fn pasid va : Nat) : List Nat :=
  match s.pasidEntry pasid with
  | some (owner, root) =>
    if owner ≠ fn then []
    else if fn = 0 then s.walkReads fn spreadPlace (fun _ => []) va root [1, 2, 3]
    else
      let place (g : Nat) := (s.stage2 fn g).map (fun l => (l.kind, l.addr g))
      s.walkReads fn place (s.stage2Reads fn) va root [1, 2, 3] ++
      match s.walk fn place va root [1, 2, 3] with
      | some l =>
        match l.kind with
        | .host => []
        | .remote _ => []
        | _ => s.stage2Reads fn (l.addr va)
      | none => []
  | none => []

/-- The translation of an address is cached (R324). -/
def State.isCachedVa (s : State) (fn pasid va : Nat) : Bool :=
  s.tlb.any (fun e => e.fn = fn && e.pasid = pasid && e.vpage = va / 2 ^ e.leaf.log2)

/-- An address of an access is translated: where its leaf is not cached, a walk reads the tables at the memory-side cache, and is
counted with its reads (R324, R335). -/
def State.walkVa (s : State) (fn pasid va : Nat) : State :=
  if s.isCachedVa fn pasid va || 2 ^ 57 ≤ va then s
  else (s.leafReads fn pasid va).foldl (fun t k => t.countMsc fn (lineOf k)) (s.countEvent fn 10 1)

/-- The addresses of an access are translated, once for each 4 KiB page (log entry 81). -/
def State.walkVas (s : State) (fn pasid : Nat) (vas : List Nat) : State :=
  ((vas.map (· / 4096)).eraseDups).foldl (fun t p => t.walkVa fn pasid (4096 * p)) s

/-- The byte of the route table for a device: cached, or read (R351). -/
def State.routeByte (s : State) (dev : Nat) : Byte :=
  match s.routes.find? (fun r => r.1 = dev) with
  | some r => r.2
  | none =>
    match rootBase s.regs.frtroot with
    | none => 0
    | some base =>
      match s.built.homeKey .spread (base + dev) with
      | some k => s.mem.get k
      | none => 0

/-- The links in force: those that have come back have rejoined once the next window begins (R355, R358). -/
def State.linksNow (s : State) : BitVec 24 :=
  if s.window < s.time / 1000 then s.built.links ||| s.built.linkBack else s.built.links

/-- The links of a port: those it names that are present, each belonging to the lowest-numbered port that names it
(R354, R358). -/
def State.portLinks (s : State) (port : Nat) : BitVec 24 :=
  let own := (s.regs.fplink[port]?.getD 0).extractLsb' 0 24
  let lower := (List.range port).foldl (fun m q => m ||| (s.regs.fplink[q]?.getD 0).extractLsb' 0 24) (0 : BitVec 24)
  own &&& ~~~ lower &&& s.linksNow

/-- A remote device can be reached (R350, R352). -/
def State.routeOk (s : State) (dev : Nat) : Bool :=
  let b := s.routeByte dev
  s.regs.fdevid.getLsbD 31 && b.getLsbD 7 && decide ((b.extractLsb' 5 2) = 0) &&
  decide ((b.extractLsb' 0 5).toNat ≤ 23) && decide (s.portLinks (b.extractLsb' 0 5).toNat ≠ 0) &&
  decide (fld (s.regs.fdevid.setWidth 64) 0 20 ≠ dev)

/-- The right of a leaf that an access needs. -/
def Leaf.grants (l : Leaf) : Need → Bool
  | .read => l.r
  | .write => l.w
  | .exec => l.x

/-- A device page has no memory at an address: it lies at or above HSIZE (R344). -/
def State.beyondHome (s : State) (l : Leaf) (va : Nat) : Bool :=
  match l.kind with
  | .host => false
  | .remote _ => false
  | k => (s.built.homeKey k (l.addr va)).isNone

/-- Translation of one address (R127, R320 to R326, R337, R344, R352, R53: a store to an executable page is PROT); TRANSL is
found before PROT (R52, R141). -/
def State.translate (s : State) (w : Who) (va : DWord) (need : Need) : Xlat :=
  if 2 ^ 57 ≤ va.toNat then .transl
  else
    match s.leafOf w.fn w.pasid va.toNat with
    | none => .transl
    | some l =>
      if s.beyondHome l va.toNat then .transl
      else if !l.grants need || (need = .write && l.x) then .prot
      else
        match l.kind with
        | .host =>
          if need = .exec then .prot
          else
            match s.hostTlb.find? (fun e => e.fn = w.fn && e.pasid = w.pasid && e.vpage = va.toNat / 4096) with
            | none => .host (va.toNat / 4096)
            | some e => if (if need = .write then e.w else e.r) then .at_ (keyHost (e.page * 4096 + va.toNat % 4096)) else .prot
        | .remote dev =>
          if need = .exec || w.fn ≠ 0 || !s.routeOk dev then .prot else .at_ (keyRemote dev (l.addr va.toNat))
        | k =>
          match s.built.homeKey k (l.addr va.toNat) with
          | none => .transl
          | some key =>
            if s.regs.secureAt (l.addr va.toNat) && !s.regs.fnSecure w.fn then .prot else .at_ key

/-- A context of the machine, by number. -/
def State.ctx? (s : State) (c : Nat) : Option Context := s.ctxs.find? (fun x => x.num = c)
/-- A placed band, by uid. -/
def State.band? (s : State) (b : Nat) : Option Band := s.bands.find? (fun x => x.uid = b)
/-- A team instance of a band. -/
def Band.inst? (b : Band) (k : Nat) : Option Inst := b.insts.find? (fun x => x.k = k)

/-! ### The host IOMMU (R326) -/

/-- A request for a page is under way. -/
def State.atsFor (s : State) (fn pasid vpage : Nat) : Option AtsReq :=
  s.ats.find? (fun q => q.fn = fn && q.pasid = pasid && q.vpage = vpage)

/-- An ATS request goes out. -/
def State.sendAts (s : State) (fn pasid vpage : Nat) (front : Bool) : State :=
  ({ s with
    ats := { id := s.nextId, fn := fn, pasid := pasid, vpage := vpage, pri := false, since := s.time, front := front,
             failed := false, held := false } :: s.ats,
    nextId := s.nextId + 1,
    outbox := .atsRequest s.nextId fn pasid (BitVec.ofNat 64 (vpage * 4096)) :: s.outbox } : State).countEvent fn 11 1

/-- An access waits for the host's translation of a page: a request goes out unless one is under way (R326). -/
def State.askHost (s : State) (fn pasid vpage : Nat) : State :=
  match s.atsFor fn pasid vpage with
  | some q => if q.failed then ({ s with ats := s.ats.filter (fun r => r.id ≠ q.id) } : State).sendAts fn pasid vpage q.front else s
  | none => s.sendAts fn pasid vpage false

/-- As `askHost`, for the front end or a leaf. -/
def State.askFront (s : State) (fn pasid vpage : Nat) : State :=
  match s.atsFor fn pasid vpage with
  | some q => { s with ats := s.ats.map (fun r => if r.id = q.id then { r with front := true } else r) }
  | none => s.sendAts fn pasid vpage true

/-- The front end has taken note of the refused pages of an agent. -/
def State.dropFailed (s : State) (w : Who) : State :=
  { s with ats := s.ats.filter (fun q => !(q.failed && q.fn = w.fn && q.pasid = w.pasid)) }

/-- The first page of `n` bytes that waits for the host's answer, for an access of the front end or a leaf; a page that
the host has refused does not. -/
def State.hostGap (s : State) (w : Who) (nd : Need) (va : DWord) : Nat → Option Nat
  | 0 => none
  | n + 1 =>
    match s.translate w va nd with
    | .host v =>
      if ((s.atsFor w.fn w.pasid v).map (·.failed)).getD false then State.hostGap s w nd (va + 1) n else some v
    | _ => State.hostGap s w nd (va + 1) n

/-- `n` bytes of a context's virtual memory as the front end or a leaf reads them, as an acquire at system scope
(R302, R303); or the CAUSE of R303: 1 no translation, 2 no right. A page whose host translation is still awaited is asked
for first (`hostGap`). In a REMOTE page the part's own bytes of the window are read (log entry 104). -/
def State.readVirt (s : State) (w : Who) (va : DWord) : Nat → Except Nat (List Byte)
  | 0 => .ok []
  | n + 1 =>
    match s.translate w va .read with
    | .at_ k =>
      match State.readVirt s w (va + 1) n with
      | .ok bs => .ok (s.backing k :: bs)
      | .error e => .error e
    | .prot => .error 2
    | _ => .error 1

/-- The keys of `n` bytes of a context's virtual memory that the front end or a leaf writes, or the CAUSE of R403. -/
def State.virtKeys (s : State) (w : Who) (va : DWord) : Nat → Except Nat (List Nat)
  | 0 => .ok []
  | n + 1 =>
    match s.translate w va .write with
    | .at_ k =>
      match State.virtKeys s w (va + 1) n with
      | .ok ks => .ok (k :: ks)
      | .error e => .error e
    | .prot => .error 2
    | _ => .error 1

/-- A byte of a HOST page is written through at once (R136). -/
def State.throughHost (s : State) (k : Nat) (x : Byte) : State :=
  if keyKind k = 4 then { s with mem := s.mem.set k x, hostDirty := s.hostDirty.filter (fun c => c.1 ≠ k) } else s

/-- Writes performed at system scope, byte by byte. -/
def State.writeKeys (s : State) : List Nat → List Byte → State
  | k :: ks, x :: xs => State.writeKeys ((s.writeCoherent k [x]).throughHost k x) ks xs
  | _, _ => s

/-- The bytes among some that lie in HOST pages leave as writes of the host, for a function and a PASID (R349). -/
def State.sendHost (s : State) (fn pasid : Nat) (cells : List Host.Cell) : State :=
  { s with
    outbox := ((cells.filter (fun c => decide (keyKind c.1 = 4))).map (fun c => .hostWrite fn pasid (keyOff c.1) c.2)).reverse ++
      s.outbox }

/-- The keys of `n` bytes that an agent may read; none where it may not read all of them. -/
def State.virtReads (s : State) (w : Who) (va : DWord) : Nat → Option (List Nat)
  | 0 => some []
  | n + 1 =>
    match s.translate w va .read, State.virtReads s w (va + 1) n with
    | .at_ k, some ks => some (k :: ks)
    | _, _ => none

/-- The front end or a leaf translates `n` bytes for an agent: the walks are counted (R324, R335). -/
def State.walkFront (s : State) (w : Who) (va : DWord) (n : Nat) : State :=
  s.walkVas w.fn w.pasid ((List.range ((va.toNat % 4096 + n + 4095) / 4096)).map (fun i => 4096 * (va.toNat / 4096 + i)))

/-- The front end or a leaf reads bytes for an agent: their lines of HOST pages go out as reads of the host (R349), the others are
read at the memory-side cache (R335). -/
def State.askKeys (s : State) (w : Who) (ks : List Nat) : State :=
  (s.atMsc w.fn true ks).askLines w.fn w.pasid ((ks.map lineOf).eraseDups.filter (fun l => keyKind (128 * l) = 4))

/-- The front end reads runs of bytes for an agent. -/
def State.asksFront (s : State) (w : Who) : List (DWord × Nat) → State
  | [] => s
  | (va, n) :: rest => State.asksFront ((s.walkFront w va n).askKeys w ((s.virtReads w va n).getD [])) w rest

/-- A write by the front end or a leaf through the context's translation (R403), a release at system scope; it is counted at the
memory-side cache (R335). -/
def State.writeVirt (s : State) (w : Who) (va : DWord) (bytes : List Byte) : Except Nat State :=
  match s.virtKeys w va bytes.length with
  | .ok ks =>
    .ok ((((s.walkFront w va bytes.length).atMsc w.fn false ks).writeKeys ks bytes).sendHost w.fn w.pasid (ks.zip bytes))
  | .error e => .error e

end Sys2Proof.Machine
end

