-- ==== Sys2Proof/Machine/Ops.lean ====
section
/-! DEFINITION. The named operations over a group's registers and control state: operands and destinations by name
(R49, R63, R67), block entry and sequencing (R33 to R40, R60, R61), taking a trap and returning from one (R273 to
R279), and the records of the fault area (R278). -/

namespace Sys2Proof.Machine

open Sys2Proof

/-- The outcome of a step. -/
abbrev Out := Host.Outcome State Fault Refusal

/-! ### Scalars, pairs and triples -/

/-- s[n]: s0 reads 0 (R49). -/
def Group.rs (g : Group) (n : BitVec 6) : Word := if n = 0 then 0 else g.sreg[n.toNat]'(by have := n.isLt; omega)

/-- s[n] := x; a write to s0 is discarded (R49). -/
def Group.ws (g : Group) (n : BitVec 6) (x : Word) : Group :=
  if n = 0 then g else { g with sreg := g.sreg.set n.toNat x (by have := n.isLt; omega) }

/-- Pair n: pair base 0 reads 0 in both halves (R49). -/
def Group.rp (g : Group) (n : BitVec 6) : DWord := if n = 0 then 0 else pairOf (g.rs n) (g.rs (n + 1))

/-- Pair n := x; a write to pair base 0 is discarded and s1 is unaffected (R49). -/
def Group.wp (g : Group) (n : BitVec 6) (x : DWord) : Group :=
  if n = 0 then g else (g.ws n (loHalf x)).ws (n + 1) (hiHalf x)

/-- The base of a mask triple: 0 names em0 to em2 (R43, R63). -/
def tripleBase (b : BitVec 6) : BitVec 6 := if b = 0 then 61 else b

/-- Raw(b): the 96 bits of a triple (R63, R78). -/
def Group.raw (g : Group) (b : BitVec 6) : LaneSet :=
  g.rs (tripleBase b + 2) ++ g.rs (tripleBase b + 1) ++ g.rs (tripleBase b)

/-- Raw(b) := m. -/
def Group.setRaw (g : Group) (b : BitVec 6) (m : LaneSet) : Group :=
  ((g.ws (tripleBase b) (laneWord m 0)).ws (tripleBase b + 1) (laneWord m 1)).ws (tripleBase b + 2) (laneWord m 2)

/-- LiveMask of the group (R24). -/
def Group.live (g : Group) : LaneSet := liveMask g.id.lanes

/-- Mask(b) of R55: the triple and the live mask. -/
def Group.mask (g : Group) (b : BitVec 6) : LaneSet := g.raw b &&& g.live

/-- The lanes of a set, ascending (R10). -/
def lanesOf (m : LaneSet) : List Nat := (List.range 96).filter (fun l => m.getLsbD l)

/-- The number of lanes in a set. -/
def popCount (m : LaneSet) : Nat := (lanesOf m).length

/-! ### Vector registers -/

/-- The physical register that a name denotes at the current loop depth, or none outside the group's allocation
(R49, R67, R95). -/
def Group.phys (g : Group) (n : Nat) : Option Nat :=
  if g.id.frames = 0 then (if n < 16 * g.id.banks && n < 128 then some n else none)
  else if n < 96 then (if n < 16 * g.id.banks then some n else none)
  else
    let f := min g.depth (g.id.frames - 1)
    if n < 120 then some (128 + 24 * f + (n - 96))
    else if n < 128 then some (if f = 0 then 224 + (n - 120) else 128 + 24 * (f - 1) + 16 + (n - 120))
    else none

/-- The name lies in the group's allocation. -/
def Group.hasVec (g : Group) (n : Nat) : Bool := (g.phys n).isSome

/-- The lanes of a physical register. -/
def Group.physLanes (g : Group) (p : Nat) : Lanes := g.vreg[p]?.getD zeroLanes

/-- v[n]: the lanes of a register by name; a name outside the allocation never gets here. -/
def Group.rv (g : Group) (n : Nat) : Lanes :=
  match g.phys n with
  | some p => g.physLanes p
  | none => zeroLanes

/-- Lane l of v[n]. -/
def Group.rvl (g : Group) (n l : Nat) : Word := (g.rv n)[l]?.getD 0

/-- v[n] := x, all lanes. -/
def Group.wv (g : Group) (n : Nat) (x : Lanes) : Group :=
  match g.phys n with
  | some p => { g with vreg := g.vreg.setIfInBounds p x }
  | none => g

/-- The lanes of `old` with those of a set replaced by `new`'s (R93). -/
def mergeLanes (m : LaneSet) (old new : Lanes) : Lanes :=
  Vector.ofFn (fun l => if m.getLsbD l.val then new[l] else old[l])

/-- v[n][l] := x[l] for the lanes of a set; the other lanes are left unchanged (R93). -/
def Group.wvm (g : Group) (n : Nat) (m : LaneSet) (x : Lanes) : Group := g.wv n (mergeLanes m (g.rv n) x)

/-! ### What a group may name -/

/-- A helper may name only s0 to s15 and em0 to em2 (R241); any other group names every scalar. -/
def Group.scalOk (g : Group) (n : BitVec 6) : Bool :=
  g.helper.isNone || decide (n.toNat ≤ 15) || decide (61 ≤ n.toNat)

/-- The three scalars of a triple may be named. -/
def Group.tripOk (g : Group) (b : BitVec 6) : Bool :=
  g.scalOk (tripleBase b) && g.scalOk (tripleBase b + 2)

/-- A region is open. -/
def Group.inRegion (g : Group) : Bool := g.region.isSome

/-- s[n] is live-in in the open region; s0 never is (R81, R253). -/
def Group.liveIn (g : Group) (n : BitVec 6) : Bool :=
  match g.region with
  | some r => decide (n ≠ 0) && decide (r.first ≤ n.toNat) && decide (n.toNat < r.first + r.count)
  | none => false

/-- A register of the triple is live-in. -/
def Group.liveInTriple (g : Group) (b : BitVec 6) : Bool :=
  g.liveIn (tripleBase b) || g.liveIn (tripleBase b + 1) || g.liveIn (tripleBase b + 2)

/-- A register of the pair is live-in; pair base 0 never is (R81). -/
def Group.liveInPair (g : Group) (n : BitVec 6) : Bool := decide (n ≠ 0) && (g.liveIn n || g.liveIn (n + 1))

/-- v[n], as the physical register it denotes, is live-in (R253). -/
def Group.liveInVec (g : Group) (n : Nat) : Bool :=
  match g.region, g.phys n with
  | some r, some p => r.phys.contains p
  | _, _ => false

/-- The tile is live-in (R253). -/
def Group.liveInTile (g : Group) (t : Nat) : Bool :=
  match g.region with
  | some r => r.tiles.getLsbD t
  | none => false

/-! ### Checks -/

/-- A check with the trap that its failure raises. -/
abbrev Chk (α : Type) := Except Trap α

/-- The trap `c` where the condition fails. -/
def need (ok : Bool) (c : Cause) : Chk Unit := if ok then .ok () else .error { cause := c }

/-- The trap `c` with TRAPA set, where the condition fails. -/
def needAt (ok : Bool) (c : Cause) (a : DWord) : Chk Unit := if ok then .ok () else .error { cause := c, trapa := some a }

/-- The agent that a group's accesses are made as. -/
def Group.who (g : Group) : Who := ⟨g.id.fn, g.id.pasid, g.id.ctx⟩


/-! ### Fetch and headers -/

/-- The loop whose body the loop buffer holds is open (R66). -/
def Group.bufferOpen (g : Group) (b : LoopBuf) : Bool :=
  decide (b.level < g.depth) && decide (g.start[b.level]? = some b.start)

/-- The word that a buffered body holds for an address (R66). -/
def LoopBuf.word (b : LoopBuf) (a : DWord) : Option DWord :=
  if (a - b.start).toNat % 8 = 0 then b.words[(a - b.start).toNat / 8]? else none

/-- The word that the loop buffer holds for an address while its loop is open (R66). -/
def Group.buffered (g : Group) (a : DWord) : Option DWord := (g.loopBuf.filter g.bufferOpen).findSome? (·.word a)

/-- The word at an address, or the cause of the fetch's failure (R32): a buffered body's word as its loop's entry fetched it
(R66), any other as it stands in memory (log entry 68). -/
def State.fetch (s : State) (a : DWord) : Except Cause DWord :=
  match s.grp.buffered a with
  | some w => .ok w
  | none =>
    match s.translate s.grp.who a .exec with
    | .at_ k => .ok (BitVec.ofNat 64 (bytesNat (s.readCoherent k 8)))
    | .prot => .error .prot
    | _ => .error .transl

/-- The trap of a fetch that fails: at or above HSIZE, TRAPA is its virtual address (R344). -/
def State.fetchTrap (s : State) (a : DWord) (c : Cause) : Trap :=
  { cause := c,
    trapa := if c = .transl && decide (a.toNat < 2 ^ 57) &&
      ((s.leafOf s.grp.id.fn s.grp.id.pasid a.toNat).any (fun l => s.beyondHome l a.toNat)) then some a else none }

/-- Check(t) of R60; every failure sets TRAPA to the target. -/
def State.check (s : State) (t : DWord) : Chk Header :=
  if t.toNat % 8 ≠ 0 then .error { cause := .misalign, trapa := some t }
  else
    match s.fetch t with
    | .error c => .error { cause := c, trapa := some t, fetch := some t }
    | .ok w => if isHeader w then .ok (Header.ofWord w) else .error { cause := .badtarget, trapa := some t, fetch := some t }

/-- The end of the block whose header stands at `a` (R59). -/
def blockEndOf (a : DWord) (h : Header) : DWord := a + 8 + BitVec.ofNat 64 (8 * h.len.toNat)

/-- Arrive(a) of R60: the loop state after the arrival, and where the block is entered. -/
def Group.arriveFuel : Nat → Group → DWord → Group × DWord
  | 0, g, a => (g, a)
  | fuel + 1, g, a =>
    if g.depth = 0 then (g, a)
    else
      let k := g.depth - 1
      if a = g.exit[k]?.getD 0 then
        let c := g.lc[k]?.getD 0
        if c.toNat ≤ 1 then
          Group.arriveFuel fuel { g with lc := g.lc.setIfInBounds k 0, depth := k } a
        else ({ g with lc := g.lc.setIfInBounds k (c - 1) }, g.start[k]?.getD 0)
      else (g, a)

/-- Arrive(a): at most three levels end at one address. -/
def Group.arrive (g : Group) (a : DWord) : Group × DWord := Group.arriveFuel 3 g a

/-- The LIVE effect of R38: every allocated register of an octet whose bit is clear reads as zero. -/
def Group.applyLive (g : Group) (live : BitVec 16) : Group :=
  (List.range 128).foldl (fun h n => if live.getLsbD (n / 8) then h else h.wv n zeroLanes) g

/-- Enter the block at `a`: the word is a header, its own checks (R37) and, with the G flag, an RGN.OPEN that stands
first (R39); then LIVE where it applies (R38). The group's pc is then the first word of the block. A failure is a trap
at the header, whose address is the faulting PC. -/
def State.enter (s : State) (a : DWord) (live : Bool) : Chk State :=
  match s.fetch a with
  | .error c => .error { s.fetchTrap a c with pc := some a, fetch := some a }
  | .ok w =>
    if !isHeader w then .error { cause := .badtarget, pc := some a, fetch := some a }
    else
      let h := Header.ofWord w
      let gOk :=
        match s.fetch (a + 8) with
        | .ok w1 => decide ((mopOf w1).toNat = 0x37) && decide ((fnOf w1).toNat = 0)
        | .error _ => false
      if !h.ok || (h.flagG && !gOk) then .error { cause := .illegal, pc := some a, fetch := some a }
      else
        let g := if live then s.grp.applyLive h.live else s.grp
        .ok { s with grp := { g with pc := a + 8, blockHdr := a, blockEnd := blockEndOf a h } }

/-! ### The fault area and interrupts -/

/-- The part sends a message to the outside world. -/
def State.send (s : State) (m : OutMsg) : State := { s with outbox := m :: s.outbox }

/-- Replace the context of a number. -/
def State.setCtx (s : State) (c : Context) : State :=
  { s with ctxs := s.ctxs.map (fun x => if x.num = c.num then c else x) }

/-- Device time in the offset of a tenant (R336), modulo 2^64. -/
def State.tenantTime (s : State) (tenant : Nat) : DWord :=
  BitVec.ofNat 64 s.time + s.regs.toffs[tenant]?.getD 0

/-- The agent that the front end and the leaves act as for a context (R403). -/
def Context.who (c : Context) : Who := ⟨c.tenant, c.pasid, c.num⟩

/-- A record is written to the context's fault area, the count at its start advances, and the context's fault
interrupt is raised (R278), for a front-end write record of any kind too (the model's choice, log entry 103); a write that fails is
dropped and logged (R403). -/
def State.writeRecord (s : State) (ctx : Nat) (bytes : List Byte) : State :=
  match s.ctx? ctx with
  | none => s
  | some c =>
    let ks := match s.virtKeys c.who c.fault 8 with
      | .ok ks => ks
      | .error _ => []
    let s0 := s.askKeys c.who ks
    let fits := decide (c.faultNext + bytes.length ≤ c.fsize)
    let s1 :=
      match s0.writeVirt c.who c.fault (natBytes 8 (bytesNat (ks.map s.backing) + 1)) with
      | .ok t => t
      | .error _ => s0.walkFront c.who c.fault 8
    let at_ := c.fault + BitVec.ofNat 64 c.faultNext
    let s2 :=
      if fits then
        match s1.writeVirt c.who at_ bytes with
        | .ok t => t.setCtx { c with faultNext := (c.faultNext + bytes.length + 63) / 64 * 64 }
        | .error _ => (s1.walkFront c.who at_ bytes.length).send (.errorLog 0 bytes)
      else s1
    s2.send (.msix c.tenant c.fvec)

/-- A page of the context's fault area that the next record needs and that waits for the host's answer (R326, R403). -/
def State.recordGap (s : State) (c : Context) (n : Nat) : Option Nat :=
  match s.hostGap c.who .write c.fault 8 with
  | some v => some v
  | none => if c.faultNext + n ≤ c.fsize then s.hostGap c.who .write (c.fault + BitVec.ofNat 64 c.faultNext) n else none

/-- A record for the context's fault area (R278): written now, or once the host has answered for its page (R403). -/
def State.faultRecord (s : State) (ctx : Nat) (bytes : List Byte) : State :=
  match s.ctx? ctx with
  | none => s
  | some c =>
    match s.recordGap c bytes.length with
    | some v => ({ s with records := s.records ++ [(ctx, bytes)] } : State).askFront c.tenant c.pasid v
    | none => s.writeRecord ctx bytes

/-! ### Taking a trap and returning from one -/

/-- HND of TRAPC (R274). -/
def Group.hnd (g : Group) : Bool := g.trapc.getLsbD 31

/-- TRAPC of its parts (R274). -/
def trapcOf (hnd nest : Bool) (arg code : Nat) : Word :=
  BitVec.ofNat 32 ((if hnd then 2 ^ 31 else 0) + (if nest then 2 ^ 30 else 0) + arg % 256 * 2 ^ 16 + code % 256)

/-- The queue, sub-launch and ring index of the bundle that launched the group's field (R278). -/
def State.launchOf (s : State) (g : Group) : Nat × Nat × Nat :=
  match s.fields.find? (fun f => f.uid = g.id.field) with
  | none => (0, 0, 0)
  | some f =>
    match s.bundles.find? (fun b => b.uid = f.bundle) with
    | none => (0, f.sub, 0)
    | some b => (((s.queues[b.queue]?).map (·.num)).getD 0, f.sub, b.ridx)

/-- The cause of a group's last trap is one that ends in a kill of the context (R281). -/
def Group.killFollows (g : Group) (c : Cause) : Bool :=
  match c with
  | .bartmo => true
  | .ecc => true
  | .wdprog => g.helper.isNone && g.wdcfg.getLsbD 0
  | _ => false

/-- The parking record of R278, 64 bytes; its WORD is a free value where the word at TRAPPC cannot be fetched (log entry 94). -/
def State.parkingRecord (s : State) (g : Group) (c : Cause) (arg : Nat) (failed : Bool) : List Byte :=
  let l := s.launchOf g
  let flags := (if g.trapc.getLsbD 30 then 1 else 0) + (if g.killFollows c then 2 else 0) +
    (if g.helper.isSome then 4 else 0) + (if failed then 8 else 0)
  let grpx := match g.helper with
    | some h => h.hidx
    | none => g.id.grpx
  let word := match s.fetch g.trappc with
    | .ok w => w.toNat
    | .error _ => (Config.lostWord s.time g.trappc).toNat
  natBytes 2 3 ++ natBytes 1 c.code ++ natBytes 1 flags ++ natBytes 4 g.id.bandx ++ natBytes 1 g.id.inst ++
  natBytes 1 grpx ++ natBytes 2 0 ++ natBytes 4 arg ++ natBytes 8 g.trappc.toNat ++ natBytes 8 g.trapa.toNat ++
  natBytes 8 word ++ natBytes 8 (s.tenantTime g.id.fn).toNat ++ natBytes 2 l.1 ++ natBytes 1 l.2.1 ++ natBytes 1 0 ++
  natBytes 4 l.2.2 ++ natBytes 8 0

/-- A helper's fault is charged to its recruiter (R247). Its PC at the fault is TRAPPC, also for TRAP and BRK, where that is the word
after (the model's choice, log entry 101). -/
def State.chargeHelper (s : State) (c : Cause) : State :=
  match s.grp.helper with
  | none => s
  | some h =>
    let x : HelperFault := ⟨h.hidx, c.code, h.chunk, s.grp.trappc, s.grp.trapa, s.time⟩
    { s with others := s.others.map (fun g =>
        if g.id.uid = h.recruiter then { g with recruit := g.recruit.map (fun r => { r with faults := x :: r.faults }) } else g) }

/-- The group as it parks: a PREEMPT that is due is not delivered, so that the group is saved parked; one that is held while HND is 1
stays (R277, R286). -/
def Group.parks (g : Group) : Group :=
  { g with status := .parked, preempt := match g.preempt with
      | .due t => if g.hnd then .due t else .none
      | x => x }

/-- The group parks (R278): a parking record is written and the fault interrupt raised. -/
def State.park (s : State) (c : Cause) (arg : Nat) (failed : Bool) : State :=
  let s1 := ({ s with grp := s.grp.parks } : State).chargeHelper c
  s1.faultRecord s1.grp.id.ctx (s1.parkingRecord s1.grp c arg failed)

/-- The header at TRAPV passes Check and carries T (R276). -/
def State.handlerOk (s : State) : Bool :=
  match s.check s.grp.trapv with
  | .ok h => h.flagT
  | .error _ => false

/-- A cause is delivered to the handler of this group: the user traps, and the faults that its context routes; BARTMO
and ECC never, a helper's trap never, and BRKPT not in a context with the debug bit (R276). -/
def State.routed (s : State) (c : Cause) : Bool :=
  if s.grp.helper.isSome then false
  else
    match c with
    | .preempt => true
    | .swtrap => true
    | .brkpt => match s.ctx? s.grp.id.ctx with
      | some x => !x.debug
      | none => true
    | .bartmo => false
    | .ecc => false
    | _ => match s.ctx? s.grp.id.ctx with
      | some x => x.route.getLsbD (c.code - 0x10)
      | none => false

/-- The walk of a word's address that a failed check of a target has made is counted (R335). -/
def State.walkFetch (s : State) (a : Option DWord) : State :=
  s.walkVas s.grp.id.fn s.grp.id.pasid (a.toList.map (·.toNat))

/-- The header at TRAPV is entered: HND is set, the block end of the block that holds TRAPPC is the trap block end, no
Arrive and no LIVE (R276). A header that fails its own checks parks the group, as a trap raised while HND is 1
(R277, R37). -/
def State.enterHandler (s : State) (c : Cause) (arg : Nat) : State :=
  let s1 := { s with grp := { s.grp with trapc := trapcOf true false arg c.code, status := .ready } }
  match s1.enter s1.grp.trapv false with
  | .ok t => t
  | .error e =>
    let s2 := { s1 with grp := { s1.grp with
      trapc := trapcOf true true 0 e.cause.code, trappc := s1.grp.trapv, blockHdr := s1.grp.trapv,
      blockEnd := s1.grp.trapv, pc := s1.grp.trapv } }
    (s2.park e.cause 0 false).walkFetch e.fetch

/-- What a trap records (R274, R275): the faulting PC is the instruction's own address, or the word that the trap names;
NEST is the HND that the trap meets. While HND is 1 the trap ends in a park, and what the delivery recorded for ERET stays
(R276, R293). -/
def State.recordTrap (s : State) (t : Trap) : State :=
  let g := s.grp
  let pc := t.pc.getD g.pc
  let atHeader := decide (t.pc.isSome) && decide (pc ≠ g.pc)
  let bend := if atHeader then (match s.check pc with
    | .ok h => blockEndOf pc h
    | .error _ => pc) else g.blockEnd
  let g1 := { g with
    pc := pc, blockHdr := if atHeader then pc else g.blockHdr, blockEnd := bend,
    trappc := pc, trappcRec := if g.hnd then g.trappcRec else pc, trapBlockEnd := if g.hnd then g.trapBlockEnd else bend,
    trapHdr := if g.hnd then g.trapHdr else if atHeader then pc else g.blockHdr,
    trapa := t.trapa.getD g.trapa, reopens := false, progress := if t.cause = .wdprog then 0 else g.progress, denied := false, remoteGot := [],
    trapc := trapcOf g.hnd g.hnd t.arg t.cause.code }
  { s with grp := g1 }

/-- Taking a trap (R275, R276, R277): the one operation of every exception. -/
def State.takeTrap (s : State) (t : Trap) : State :=
  let s1 := s.recordTrap t
  (if s.grp.hnd || !s1.routed t.cause then s1.park t.cause t.arg false
   else if s1.handlerOk then s1.enterHandler t.cause t.arg
   else (s1.park t.cause t.arg true).walkFetch (if s1.grp.trapv.toNat % 8 = 0 then some s1.grp.trapv else none)).walkFetch t.fetch

/-- Execution continues at `t` without Arrive and without LIVE (R59, R279, R293): at the address that delivery recorded
inside its block, which ends at the trap block end; anywhere else, and at a header, through the header's checks. -/
def State.resumeAt (s : State) (t : DWord) : State :=
  let g := s.grp
  if t = g.trappcRec && t ≠ g.trapHdr then
    { s with grp := { g with pc := t, blockHdr := g.trapHdr, blockEnd := g.trapBlockEnd, status := .ready } }
  else
    match ({ s with grp := { g with status := .ready } } : State).enter t false with
    | .ok s1 => s1
    | .error e => ({ s with grp := { g with pc := t, blockHdr := t, status := .ready } } : State).takeTrap
        { e with trapa := if e.cause = .illegal then none else some t }

/-- PREEMPT is delivered to the group at its pc (R275, R285). -/
def State.deliverPreempt (s : State) (since : Nat) : State :=
  ({ s with grp := { s.grp with preempt := .delivered since } } : State).takeTrap { cause := .preempt, arg := 3 }

/-! ### Sequencing -/

/-- Enter the block at `a`, and take the trap of a failing header (R37, R39). -/
def State.enterOrTrap (s : State) (a : DWord) : State :=
  match s.enter a true with
  | .ok t => t
  | .error e => s.takeTrap e

/-- Arrive at a header (R60) and enter the block that the arrival leads to. -/
def State.arriveAt (s : State) (a : DWord) : State :=
  let r := s.grp.arrive a
  ({ s with grp := r.1 } : State).enterOrTrap r.2

/-- What fall-through past the end of a block reaches: BADTARGET, TRANSL or PROT at that word, or a header (R33). -/
def State.fallOk (s : State) (a : DWord) : Chk Unit :=
  match s.fetch a with
  | .error c => .error { s.fetchTrap a c with pc := some a, fetch := some a }
  | .ok w => if isHeader w then .ok () else .error { cause := .badtarget, pc := some a, fetch := some a }

/-- Continue at the word `a` of the block, or fall through past its end (R33, R61). -/
def State.continueAt (s : State) (a : DWord) : State :=
  if a = s.grp.blockEnd then
    match s.fallOk a with
    | .ok () => s.arriveAt a
    | .error e => s.takeTrap e
  else { s with grp := { s.grp with pc := a } }

/-- One instruction has retired (R283, R295). -/
def Group.countRetired (g : Group) : Group := { g with retired := g.retired + 1, progress := g.progress + 1 }

/-- The instruction of `len` words completes and execution continues at the next word. -/
def State.retire (s : State) (len : Nat) : State :=
  let s1 := { s with grp := { s.grp.countRetired with status := .ready, remoteGot := [], denied := false } }
  s1.continueAt (s1.grp.pc + BitVec.ofNat 64 (8 * len))

/-- The instruction completes by a transfer of control to the header `t`, which Check has passed. -/
def State.transfer (s : State) (t : DWord) : State :=
  ({ s with grp := { s.grp.countRetired with status := .ready, denied := false } } : State).arriveAt t

/-- A progress event of R283. -/
def Group.progressed (g : Group) : Group := { g with progress := 0 }

/-- The group waits, holding no issue slot, with its pc at the instruction. -/
def State.waitFor (s : State) (w : Wait) : State := { s with grp := { s.grp with status := .waiting w } }

/-- How the body of an instruction ends: done, control transferred, a trap, or a wait. -/
inductive Ctl where
  | done (s : State)
  | goto (t : DWord) (s : State)
  | at_ (s : State)
  | trap (t : Trap) (s : State)
  | wait (w : Wait) (s : State)
  deriving DecidableEq, Repr

/-- The next state of an instruction of `len` words. -/
def settle (len : Nat) : Ctl → Out
  | .done s => .next (s.retire len)
  | .goto t s => .next (s.transfer t)
  | .at_ s => .next s
  | .trap t s => .next (s.takeTrap t)
  | .wait w s => .next (s.waitFor w)

/-- An instruction as its checks, in their listed order, then its effect (R9, R52). -/
def runChk {α : Type} (s : State) (len : Nat) (c : Chk α) (k : α → Ctl) : Out :=
  match c with
  | .ok a => settle len (k a)
  | .error t => .next (s.takeTrap t)

/-- A change of the issuing group. -/
def State.onGrp (s : State) (f : Group → Group) : State := { s with grp := f s.grp }

/-- The words of an instruction with an optional prefix (R46). -/
def pfxLen (p : Option Pfx) : Nat := if p.isSome then 2 else 1

/-! ### Groups by uid -/

/-- Make the group of a uid the one that `grp` holds. -/
def State.focus (s : State) (uid : Nat) : Option State :=
  if s.grp.id.uid = uid then some s
  else
    match s.others.find? (fun g => g.id.uid = uid) with
    | none => none
    | some g => some { s with grp := g, others := s.grp :: s.others.filter (fun h => h.id.uid ≠ uid) }

/-- Do something as the group of a uid, and come back. -/
def State.asGroup (s : State) (uid : Nat) (f : State → State) : State :=
  match s.focus uid with
  | none => s
  | some t => ((f t).focus s.grp.id.uid).getD (f t)

/-- Every group of the machine. -/
def State.groups (s : State) : List Group := s.grp :: s.others

/-- The group of a uid. -/
def State.group? (s : State) (uid : Nat) : Option Group := s.groups.find? (fun g => g.id.uid = uid)

/-- Change every group that a test picks. -/
def State.mapGroups (s : State) (p : Group → Bool) (f : Group → Group) : State :=
  { s with grp := if p s.grp then f s.grp else s.grp, others := s.others.map (fun g => if p g then f g else g) }


/-- The bands of a context, but those of its checkpoint bundle. -/
def State.ctxBands (s : State) (c : Context) : List Band :=
  s.bands.filter (fun b => decide (b.ctx = c.num) &&
    !((s.fields.find? (fun f => f.uid = b.field)).map (fun f => decide (c.ckBundle = some f.bundle))).getD false)

/-- A reset of the die, by its DRESET number, is under way: its routes take no new request (R341, R342). -/
def State.resetting (s : State) (die : Nat) : Bool := s.regs.dreset.getLsbD 63 && decide (fld s.regs.dreset 0 4 = die)

/-- The group has not exited and has not been killed (R176). -/
def Group.lives (g : Group) : Bool := decide (g.status ≠ .exited)

/-- The group's state waits for something. -/
def Group.waiting? (g : Group) : Option Wait :=
  match g.status with
  | .waiting w => some w
  | _ => none

end Sys2Proof.Machine
end

