-- ==== Sys2Proof/Machine/Operands.lean ====
section
/-! DEFINITION. How an instruction reaches its operands: the effective prefix fields and their fitting (R46, R55, R133),
spaces and the checks of an access (R127 to R131, R140, R141), the bytes of loads and stores with the region write buffer
over them (R142, R255, R256), ordered channels (R155), streams (R146 to R148), and the operand kinds of a VR word (R90
to R94). -/

namespace Sys2Proof.Machine

open Sys2Proof

/-! ### Bodies -/

/-- A part of an instruction's body: a value, or the way in which the instruction ends here. -/
abbrev Run (α : Type) := Except Ctl α

/-- A check inside a body. -/
def State.chk {α : Type} (s : State) (c : Chk α) : Run α :=
  match c with
  | .ok a => .ok a
  | .error t => .error (.trap t s)

/-- The trap `c` where a condition fails. -/
def State.need (s : State) (ok : Bool) (c : Cause) : Run Unit := s.chk (Machine.need ok c)

/-- The next state of an instruction of `len` words with this body. -/
def finish (len : Nat) : Run Ctl → Out
  | .ok c => settle len c
  | .error c => settle len c

/-! ### Effective fields -/

/-- The effective fields of a memory instruction (R55): a nonzero prefix field, else MDEF's. -/
structure Eff where
  ord : Nat
  scope : Nat
  space : Nat
  cp : Nat
  home : Nat
  chan : Nat
  spaceSet : Bool
  chanSet : Bool
  deriving DecidableEq, Repr

/-- A nonzero value, or a default. -/
def orElse (x d : Nat) : Nat := if x = 0 then d else x

/-- Eff of R55. -/
def Group.eff (g : Group) (p : Option Pfx) : Eff :=
  let m (lo len : Nat) : Nat := (g.mdef.extractLsb' lo len).toNat
  match p with
  | none => ⟨m 0 3, m 3 3, m 6 3, m 9 3, m 12 2, m 14 5, false, false⟩
  | some q =>
    ⟨orElse q.ord.toNat (m 0 3), orElse q.scope.toNat (m 3 3), orElse q.space.toNat (m 6 3),
     orElse q.cp.toNat (m 9 3), orElse q.home.toNat (m 12 2), orElse q.chan.toNat (m 14 5),
     decide (q.space ≠ 0), decide (q.chan ≠ 0)⟩

/-- ORD as a load fits it (R133): release as relaxed, acq-rel as acquire. -/
def fitLoad (ord : Nat) : Nat := if ord = 3 then 1 else if ord = 4 then 2 else ord
/-- ORD as a store fits it: acquire as relaxed, acq-rel as release. -/
def fitStore (ord : Nat) : Nat := if ord = 2 then 1 else if ord = 4 then 3 else ord
/-- The order acquires. -/
def acquires (ord : Nat) : Bool := decide (ord = 2) || decide (ord = 4)
/-- The order releases. -/
def releases (ord : Nat) : Bool := decide (ord = 3) || decide (ord = 4)

/-- Where a load reads (R160): an acquire at band scope or wider, or with L1-bypass, at L2 or beyond; an acquire at
system scope of a HOST page beyond clean L2 copies. -/
def readHow (ord scope cp : Nat) : ReadAt :=
  if acquires ord && decide (3 ≤ scope) then (if scope = 6 then .coherent else .l2)
  else if cp = 4 then .l2 else .l1

/-! ### Spaces -/

/-- Where the bytes of one access are, or the trap that it raises; `host` waits for the host IOMMU (R326). -/
inductive Place where
  | keys (ks : List Nat)
  | prot
  | transl
  | host (vpage : Nat)
  deriving DecidableEq, Repr

/-- `n` keys from `k` on. -/
def keyRun (k n : Nat) : List Nat := (List.range n).map (fun i => k + i)

/-- Bytes at global addresses, one by one. -/
def State.globalBytes (s : State) (w : Who) (nd : Need) (a : DWord) : Nat → Place
  | 0 => .keys []
  | n + 1 =>
    match s.translate w a nd with
    | .at_ k =>
      match State.globalBytes s w nd (a + 1) n with
      | .keys ks => .keys (k :: ks)
      | other => other
    | .transl => .transl
    | .prot => .prot
    | .host v => .host v

/-- `n` bytes at a global address: an aligned access lies in one page and one granule. -/
def State.globalPlace (s : State) (w : Who) (nd : Need) (a : DWord) (n : Nat) : Place :=
  if a.toNat % n = 0 then
    match s.translate w a nd with
    | .at_ k => .keys (keyRun k n)
    | .transl => .transl
    | .prot => .prot
    | .host v => .host v
  else s.globalBytes w nd a n

/-- The team instance of the issuing group. -/
def State.myInst (s : State) : Option Inst := (s.band? s.grp.id.band).bind (fun b => b.inst? s.grp.id.inst)

/-- The key of byte `o` of lane `l`'s private memory (R130). -/
def privateKey (uid l o : Nat) : Nat := keyPrivate uid (o / 4 * 384 + l * 4 + o % 4)

/-- The size of the carve allocation of the issuing group's context (R131). -/
def State.carveSize (s : State) : Nat := ((s.ctx? s.grp.id.ctx).map (·.carve)).getD 0

/-- `n` bytes at an address or offset in a space (R127 to R131); a scalar access (`lane` none) reaches no private memory: it takes
PROT, also where a prefix names the space (R130, log entry 23). -/
def State.place (s : State) (lane : Option Nat) (space : Nat) (nd : Need) (a : DWord) (n : Nat) : Place :=
  match space with
  | 1 => s.globalPlace s.grp.who nd a n
  | 2 =>
    match s.myInst with
    | some i => if a.toNat + n ≤ i.scr then .keys (keyRun (keyScratch s.grp.id.band i.k a.toNat) n) else .prot
    | none => .prot
  | 3 =>
    match (s.band? s.grp.id.band).bind (fun b => b.inst? (a.toNat / 2 ^ 20)) with
    | some i =>
      if !i.exited && decide (a.toNat % 2 ^ 20 + n ≤ i.scr) then
        .keys (keyRun (keyScratch s.grp.id.band i.k (a.toNat % 2 ^ 20)) n)
      else .prot
    | none => .prot
  | 4 =>
    match lane with
    | some l =>
      if a.toNat + n ≤ s.grp.id.priv then
        .keys ((List.range n).map (fun i => privateKey s.grp.id.uid l (a.toNat + i)))
      else .prot
    | none => .prot
  | _ => if a.toNat + n ≤ s.carveSize then .keys (keyRun (keyCarve s.grp.id.ctx a.toNat) n) else .prot

/-- The bytes lie in a HOST page or a remote window. -/
def isForeign (ks : List Nat) : Bool := ks.any (fun k => decide (4 ≤ keyKind k))

/-- A place for an access that may reach neither a HOST page nor a remote window (R170, R255). -/
def Place.local? : Place → Place
  | .keys ks => if isForeign ks then .prot else .keys ks
  | .host _ => .prot
  | other => other

/-- One access of an instruction: its lane (0 for a scalar access) and its address. -/
structure Access where
  lane : Nat
  addr : DWord
  deriving DecidableEq, Repr

/-- The trap of an access: TRAPA is its address and ARG its lane (R141, R274). -/
def Access.trap (x : Access) (c : Cause) : Trap := { cause := c, arg := x.lane, trapa := some x.addr }

/-- The issuing group's accesses in a space are translated: those in global space, whose walks are counted (R324, R335). -/
def State.walked (s : State) (space : Nat) (xs : List Access) : State :=
  if space = 1 then s.walkVas s.grp.id.fn s.grp.id.pasid (xs.map (·.addr.toNat)) else s

/-- One lane's access after its alignment has been checked (R141, step 3). -/
def State.settlePlace (s : State) (x : Access) : Place → Run (List Nat)
  | .keys ks => .ok ks
  | .prot => .error (.trap (x.trap .prot) s)
  | .transl => .error (.trap (x.trap .transl) s)
  | .host v =>
    if s.grp.denied then .error (.trap (x.trap .transl) s)
    else .error (.wait (.host v) (s.askHost s.grp.who.fn s.grp.who.pasid v))

/-- Steps 2 and 3 of R141 over the lanes in ascending order. -/
def State.placeEach (s : State) (find : Access → Place) : List Access → Run (List (Nat × List Nat))
  | [] => .ok []
  | x :: xs =>
    match s.settlePlace x (find x) with
    | .error c => .error c
    | .ok ks =>
      match State.placeEach s find xs with
      | .error c => .error c
      | .ok rest => .ok ((x.lane, ks) :: rest)

/-- A place that holds the bytes of its access. -/
def Place.found : Place → Bool
  | .keys _ => true
  | _ => false

/-- The accesses of an instruction that have been translated as one of them fails: those before it, and it. -/
def upToFailing (find : Access → Place) (xs : List Access) : List Access :=
  xs.takeWhile (fun x => (find x).found) ++ (xs.dropWhile (fun x => (find x).found)).take 1

/-- The places of an instruction's accesses in a space; where one of them fails, what has been translated until then is counted
(R335). -/
def State.placeAll (s : State) (space : Nat) (find : Access → Place) (xs : List Access) : Run (List (Nat × List Nat)) :=
  match s.placeEach find xs with
  | .ok ps => .ok ps
  | .error _ => (s.walked space (upToFailing find xs)).placeEach find xs

/-- MISALIGN for the lowest lane whose address is no multiple of `n` (R141, step 2). -/
def State.checkAlign (s : State) (n : Nat) (xs : List Access) : Run Unit :=
  match xs.find? (fun x => decide (x.addr.toNat % n ≠ 0)) with
  | some x => .error (.trap (x.trap .misalign) s)
  | none => .ok ()

/-- The checks of R141 but the fitting and the channel. -/
def State.accessAll (s : State) (space n : Nat) (find : Access → Place) (xs : List Access) : Run (List (Nat × List Nat)) :=
  match s.checkAlign n xs with
  | .error c => .error c
  | .ok () => s.placeAll space find xs

/-! ### Remote memory -/

/-- The byte that a waiting release store of the group holds for a key, the latest first (R161). -/
def relGet (q : List RelStore) (key : Nat) : Option Byte :=
  ((q.flatMap (·.cells)).reverse.find? (fun c => c.1 = key)).map (·.2)

/-- A byte of a remote window that neither L1, as the load reads it, nor L2 nor this load's own answers supply. -/
def State.missing (s : State) (how : ReadAt) (key : Nat) : Bool :=
  let inL1 :=
    match s.l1Line s.grp.coreNo (lineOf key) with
    | some l =>
      (l.supplies how).getLsbD (key % 128)
    | none => false
  let inL2 := decide (how ≠ .coherent) && (s.l2Line s.grp.id.cluster (lineOf key)).isSome
  decide (keyKind key = 5) && !inL1 && !inL2 && (overlayGet s.remoteDirty key).isNone &&
  (overlayGet s.grp.remoteGot key).isNone && (relGet s.grp.relq key).isNone

/-- The port that the route table gives for a device (R351). -/
def State.portOf (s : State) (dev : Nat) : Nat := ((s.routeByte dev).extractLsb' 0 5).toNat

/-- Whose accesses the group's are. -/
def Group.origin (g : Group) : Origin := ⟨g.id.fn, g.id.pasid, g.id.ctx, g.id.cls, g.id.die⟩

/-- A request to a remote device goes out (R352), in the class and from the die of the group that caused it; a read asks for a
whole line. -/
def State.request (s : State) (o : Origin) (group : Option Nat) (pref : Option (Nat × Bool)) (prio : Option Nat) (dev raddr : Nat)
    (write : Option (List Host.Cell)) : State :=
  { s with
    remote := { id := s.nextId, group := group, ctx := o.ctx, dev := dev, raddr := raddr, write := write, since := s.time,
                port := s.portOf dev, cls := o.cls, die := o.die, sent := false, pref := pref, prio := prio } :: s.remote,
    nextId := s.nextId + 1 }

/-- Reads of the remote lines that a load still lacks, to be allocated as its CP says. -/
def State.requestLines (s : State) (cp : Nat) : List Nat → State
  | [] => s
  | k :: ks =>
    let base := lineOf k * 128
    let known := s.remote.any (fun r =>
      r.group = some s.grp.id.uid && r.write.isNone && decide (r.dev = keyNum k) && decide (r.raddr = keyOff base))
    State.requestLines (if known then s
      else s.request s.grp.origin (some s.grp.id.uid) none (l2Prio cp) (keyNum k) (keyOff base) none) cp ks

/-- The load waits until every byte of a remote window that it reads has come. -/
def State.awaitRemote (s : State) (how : ReadAt) (cp : Nat) (ks : List Nat) : Run Unit :=
  let lack := ks.filter (s.missing how)
  if lack.isEmpty then .ok () else .error (.wait .again (s.requestLines cp lack))

/-- The dirty bytes of a line as its flits carry them (R353), each with the key at which the flit's data begins: one for the
whole line where more than 64 bytes are dirty, else one for each 32-byte chunk. -/
def flitCells (cells : List Host.Cell) (line : Nat) : List (Nat × List Host.Cell) :=
  let xs := cells.filter (fun c => lineOf c.1 = line)
  if 64 < xs.length then [(128 * line, xs)]
  else ((List.range 4).map (fun k => (128 * line + 32 * k, xs.filter (fun c => c.1 % 128 / 32 = k)))).filter
    (fun ys => !ys.2.isEmpty)

/-- The lowest key of some bytes. -/
def lowestKey (cells : List Host.Cell) : Nat := (cells.map (·.1)).foldl min ((cells.head?.map (·.1)).getD 0)

/-- A write request for each flit, in the class and from the die of the group that stored its lowest byte (R352, log entry 80). -/
def State.requestWrites (s : State) : List (Nat × List Host.Cell) → State
  | [] => s
  | (k, xs) :: rest =>
    State.requestWrites
      (s.request (s.originOf (lowestKey xs)) (some s.grp.id.uid) none none (keyNum k) (keyOff k) (some xs)) rest

/-- Writes of the remote bytes that have been written back, are not on their way, and have not failed (R357). -/
def State.sendRemoteWrites (s : State) (cells : List Host.Cell) : State :=
  let fresh := cells.filter (fun c =>
    !s.remote.any (fun r => (r.write.getD []).contains c) && !s.lost.any (fun l => l.2.contains c))
  s.requestWrites (((fresh.map (fun c => lineOf c.1)).eraseDups).flatMap (flitCells fresh))

/-- A release at system scope waits until the remote devices have acknowledged every byte (R159, R352). -/
def State.awaitRemoteWrites (s : State) (scope : Nat) : Run Unit :=
  if decide (scope = 6) && !s.remoteDirty.isEmpty then
    .error (.wait .again (s.sendRemoteWrites s.remoteDirty))
  else .ok ()

/-- A release at system scope has reached every remote device, or the writes that it still lacks go out (R159, R164). -/
def State.remoteClear (s : State) : Bool := s.remoteDirty.isEmpty

/-- What an event does once the remote devices have acknowledged every byte; until then the writes that are still to be sent go
out (R159, R164). -/
def State.remoteFirst (row : String) (s : State) (done : State → Out) : Out :=
  if s.remoteClear then done s
  else
    let t := s.sendRemoteWrites s.remoteDirty
    if t.remote.length = s.remote.length then .refused (.notEnabled row) else .next t

/-! ### Release stores that wait (R135, R159, R161) -/

/-- Copies of a line in other clusters go. -/
def State.dropOtherL2 (s : State) (cluster line : Nat) : State :=
  { s with l2 := s.l2.filter (fun l => !(l.line = line && l.cluster ≠ cluster)) }

/-- The earlier stores of a channel are performed at device scope (R155, R159). -/
def State.drainChannel (s : State) (n : Nat) : State :=
  let s1 := (s.grp.chanOpen.filter (fun c => c.1 = n)).foldl (fun t c => t.dropOtherL2 t.grp.id.cluster c.2) s
  s1.onGrp (fun g => { g with chanOpen := g.chanOpen.filter (fun c => c.1 ≠ n) })

/-- The bytes of a store are performed one by one. -/
def State.storeCells (s : State) (through : Bool) (w : Want) : List Host.Cell → State
  | [] => s
  | c :: cs => State.storeCells (s.storeByte s.grp.coreNo through w c.1 c.2) through w cs

/-- The bytes of the issuing group's store are performed: into L1, or through it, where L2 takes their lines as CP says (R134, R137). -/
def State.storeLines (s : State) (through : Bool) (cp : Nat) (cells : List Host.Cell) : State :=
  let w := s.grp.want cp
  (if through then s.wroteLines s.grp.id.cluster w (cells.map (·.1)) else s).storeCells through w cells

/-- The lines of a channel's stores are not performed at device scope yet. -/
def Group.onChannel (g : Group) (chan : Nat) (cells : List Host.Cell) : Group :=
  if chan = 0 then g
  else { g with chanOpen := (cells.map (fun c => (chan, lineOf c.1))).eraseDups ++ g.chanOpen }

/-- The group's oldest release store is performed at its scope, its release having been made: its channel's earlier stores
first (R155), then its bytes at L2, then what the scope still asks of them (R159). -/
def State.performRel (s : State) (r : RelStore) : State :=
  let s2 := if r.chan = 0 then s else s.drainChannel r.chan
  let s3 := ((s2.noteOrigin s.grp.origin (r.cells.map (·.1))).storeLines true r.cp r.cells).onGrp (fun g => { g.onChannel r.chan r.cells with relq := g.relq.drop 1 })
  let s4 := s3.invalidateStale s3.grp.id.cluster r.scope
  if r.scope = 6 then
    s4.flushHost.sendRemoteWrites (s4.remoteDirty.filter (fun c => (r.cells.map (·.1)).contains c.1))
  else s4

/-- Release stores are performed in order, each after its release and, at system scope, after the remote devices have
acknowledged every earlier byte. -/
def State.settleList : List RelStore → State → Run State
  | [], s => .ok s
  | r :: rs, s =>
    let s1 := s.releaseAt s.grp.coreNo r.scope
    match s1.awaitRemoteWrites r.scope with
    | .error c => .error c
    | .ok () => State.settleList rs (s1.performRel r)

/-- The group's waiting release stores are performed. -/
def State.settleStores (s : State) : Run State := State.settleList s.grp.relq s

/-- Release stores are performed in order as far as they can be now: one at system scope, and those after it, wait until the
remote devices have acknowledged every earlier byte, and the writes that are still to be sent go out (R159, R161). -/
def State.settleFar : List RelStore → State → State
  | [], s => s
  | r :: rs, s =>
    let s1 := s.releaseAt s.grp.coreNo r.scope
    if decide (r.scope = 6) && !s1.remoteClear then s1.sendRemoteWrites s1.remoteDirty
    else State.settleFar rs (s1.performRel r)

/-- The group's waiting release stores are performed as far as they can be now. -/
def State.settleNow (s : State) : State := State.settleFar s.grp.relq s

/-- What an event does once the group's waiting release stores are performed and, with `clear`, the remote devices have
acknowledged every byte (R159, R161, R164). -/
def State.settleFirst (row : String) (s : State) (clear : Bool) (done : State → Out) : Out :=
  let t := s.settleNow
  if t.grp.relq.isEmpty && (!clear || t.remoteClear) then done t
  else
    let u := t.sendRemoteWrites t.remoteDirty
    if u.remote.length = s.remote.length && u.grp.relq.length = s.grp.relq.length then .refused (.notEnabled row) else .next u

/-- An access waits for the release stores that touch one of its bytes (R135, R157). -/
def State.beforeKeys (s : State) (ks : List Nat) : Run State :=
  if ks.any (fun k => (relGet s.grp.relq k).isSome) then s.settleStores else .ok s

/-- The release of an instruction at a scope: every earlier access of the group is performed there (R135, R159, R161). -/
def State.releaseRun (s : State) (scope : Nat) : Run State := do
  let s0 ← s.settleStores
  let s1 := s0.releaseAt s0.grp.coreNo scope
  s1.awaitRemoteWrites scope
  return s1

/-! ### The region write buffer -/

/-- The bytes that an entry takes (R255). -/
def BufEntry.size : BufEntry → Nat
  | .line _ _ _ => 128
  | .atom _ _ _ _ => 32

/-- The entries take no more than the buffer holds. -/
def bufferFits (b : List BufEntry) : Bool := decide ((b.map BufEntry.size).sum ≤ 16384)

/-- The buffered byte at a key, where a line entry holds it (R256). -/
def bufferGet (b : List BufEntry) (key : Nat) : Option Byte :=
  match b with
  | [] => none
  | .line l m d :: rest =>
    if l = lineOf key && m.getLsbD (key % 128) then d[key % 128]? else bufferGet rest key
  | .atom _ _ _ _ :: rest => bufferGet rest key

/-- An atomic entry covers the key. -/
def bufferAtom (b : List BufEntry) (key : Nat) : Bool :=
  b.any (fun e => match e with
    | .atom k n _ _ => decide (k ≤ key) && decide (key < k + n)
    | .line _ _ _ => false)

/-- A line entry takes the byte, or a new one does, after the latest (R255). -/
def bufferPut (b : List BufEntry) (key : Nat) (x : Byte) : List BufEntry :=
  match b with
  | [] => [.line (lineOf key) (byteMask (key % 128) 1) (setLineByte (Vector.replicate 128 0) (key % 128) x)]
  | .line l m d :: rest =>
    if l = lineOf key then .line l (m ||| byteMask (key % 128) 1) (setLineByte d (key % 128) x) :: rest
    else .line l m d :: bufferPut rest key x
  | .atom k n o v :: rest => .atom k n o v :: bufferPut rest key x

/-- Stores into the buffer, or none where an atomic entry covers one of the bytes. -/
def bufferStore (b : List BufEntry) : List Host.Cell → Option (List BufEntry)
  | [] => some b
  | c :: cs => if bufferAtom b c.1 then none else bufferStore (bufferPut b c.1 c.2) cs

/-! ### Loads and stores -/

/-- The byte that the issuing group's load returns: its region's buffered byte (R256), its own waiting release store's (R54), or
what its core reads. -/
def State.loadByte (s : State) (how : ReadAt) (key : Nat) : Byte :=
  let own := (relGet s.grp.relq key).getD (s.readByte s.grp.coreNo how key)
  match s.grp.region with
  | some r => (bufferGet r.buffer key).getD own
  | none => own

/-- The bytes of a load as a number. -/
def State.loadNat (s : State) (how : ReadAt) (ks : List Nat) : Nat := bytesNat (ks.map (s.loadByte how))

/-- Bytes of a load extended as SZ says (R44). -/
def extendLoad (sz : BitVec 3) (x : Nat) : DWord :=
  if sz = 1 then (BitVec.ofNat 8 x).signExtend 32 |>.setWidth 64
  else if sz = 3 then (BitVec.ofNat 16 x).signExtend 32 |>.setWidth 64
  else BitVec.ofNat 64 x

/-- The access size of SZ (R44). -/
def sizeOf (sz : BitVec 3) : Nat :=
  if sz.toNat ≤ 1 then 1 else if sz.toNat ≤ 3 then 2 else if sz = 4 then 4 else 8

/-- Cells of a store. -/
def cellsOf (ks : List Nat) (x : Nat) : List Host.Cell := ks.zip (natBytes ks.length x)

/-- The lines of some bytes of which the core's L1 holds nothing: a store that allocates there misses them (R134, R295). -/
def State.absentLines (s : State) (core : Nat) (ks : List Nat) : List Nat :=
  ((ks.filter (fun k => isCached k && (s.l1Line core (lineOf k)).isNone)).map lineOf).eraseDups

/-- A group's stores that are not release stores at band scope or wider: the bytes into L1, or through it under L1-bypass and
on a channel, whose earlier stores are performed first (R155). A store into L1 counts the lines that it misses; it moves no byte
from L2 (R295). -/
def State.performStores (s : State) (cp chan : Nat) (cells : List Host.Cell) : State :=
  let through := decide (cp = 4) || decide (chan ≠ 0)
  let ks := cells.map (·.1)
  let miss := if through then 0 else (s.absentLines s.grp.coreNo ks).length
  let s1 := if chan = 0 then s else s.drainChannel chan
  ((s1.noteOrigin s.grp.origin ks).storeLines through cp cells).onGrp (fun g => (g.onChannel chan cells).countMisses miss 0)

/-- A release store at band scope or wider is issued: it waits for its release while the group goes on (R135, R161). -/
def State.issueRel (s : State) (r : RelStore) : State := s.onGrp (fun g => { g with relq := g.relq ++ [r] })

/-- A store with a lane active is a progress event (R283). -/
def State.storedCells (s : State) (cells : List Host.Cell) : State :=
  if cells.isEmpty then s else s.onGrp Group.progressed

/-- The release of a store whose order releases (R161). -/
def State.releaseIf (s : State) (ord scope : Nat) : Run State := if releases ord then s.releaseRun scope else .ok s

/-- The waiting release stores that a store's bytes, its channel or its own release order before it are performed. -/
def State.beforeStore (s : State) (ord chan : Nat) (cells : List Host.Cell) : Run State :=
  if releases ord || (decide (chan ≠ 0) && s.grp.relq.any (fun r => r.chan = chan)) then s.settleStores
  else s.beforeKeys (cells.map (·.1))

/-- A group's stores: in a region into its buffer (R255), a release there being one of the performed accesses (R256); else a
release store at band scope or wider waits (R161), and any other is performed, after the release stores that its bytes, its
channel or its own release order before it. -/
def State.storeAll (s : State) (ord scope cp chan : Nat) (cells : List Host.Cell) : Run State :=
  match s.grp.region with
  | some r => do
    let s1 ← s.releaseIf ord scope
    match bufferStore r.buffer cells with
    | some b =>
      if bufferFits b then return s1.onGrp (fun g => { g with region := some { r with buffer := b } })
      else .error (.trap { cause := .rgnovf } s1)
    | none => .error (.trap { cause := .rgnovf } s1)
  | none =>
    if releases ord && decide (3 ≤ scope) then .ok ((s.issueRel ⟨scope, chan, cells, cp⟩).storedCells cells)
    else do
      let s1 ← s.beforeStore ord chan cells
      return (s1.performStores cp chan cells).storedCells cells

/-- A load has acquired at a scope: what it synchronised with at team scope or wider is before the group's later commands (R165). -/
def Group.acquired (scope : Nat) (g : Group) : Group := { g with acqLoad := g.acqLoad || decide (2 ≤ scope) }

/-- The action of a load, an atomic or a poll whose order acquires (R135, R165). -/
def State.acquireIf (s : State) (ord scope : Nat) : State :=
  if acquires ord then (s.acquireAt s.grp.coreNo scope).onGrp (Group.acquired scope) else s

/-- The channel that a store uses: a prefix's, or MDEF's outside regions (R133, R258). -/
def State.chanOf (s : State) (e : Eff) : Nat := if s.grp.inRegion && !e.chanSet then 0 else e.chan

/-- CHFAULT of a channel store (R155), for the lowest lane that fails. -/
def State.checkChannel (s : State) (chan space : Nat) (xs : List Access) (ps : List (Nat × List Nat)) : Run Unit :=
  if chan = 0 then .ok ()
  else
    let die : Option Nat := s.myInst.bind (fun i => i.chans[chan]?.getD none)
    let bad (ks : List Nat) : Bool :=
      die.isNone || (decide (space ≠ 1) && decide (space ≠ 5)) || ks.any (fun k => decide (homeDie k ≠ die))
    match (xs.zip ps).find? (fun q => bad q.2.2) with
    | some q => .error (.trap (q.1.trap .chfault) s)
    | none => .ok ()

/-! ### Streams -/

/-- N: the product of the extents (R146). -/
def Stream.total (z : Stream) : Nat := z.extent.toList.foldl (fun n e => n * e.toNat) 1

/-- The offset of element `i`, in elements (R148). -/
def Stream.offset (z : Stream) (i : Nat) : Int :=
  ((List.range 5).foldl (fun (qo : Nat × Int) k =>
    let ext := (z.extent[k]?.getD 1).toNat
    (qo.1 / ext, qo.2 + (qo.1 % ext : Nat) * (z.stride[k]?.getD 0).toInt)) (i, 0)).2

/-- The accesses of a stream's next vector: the lanes whose element lies within N. -/
def Stream.accesses (z : Stream) : List Access :=
  (List.range 96).filterMap (fun l =>
    if z.cursor.toNat + l < z.total then
      some ⟨l, z.base + BitVec.ofInt 64 (z.offset (z.cursor.toNat + l) * (2 ^ z.esz.toNat : Nat))⟩
    else none)

/-- The stream after one vector (R148). -/
def Stream.advance (z : Stream) : Stream :=
  { z with cursor := BitVec.ofNat 64 (min (z.cursor.toNat + 96) (2 ^ 63)),
           fin := z.fin || decide (z.total < z.cursor.toNat + 96) }

/-- The values that operand registers give the lanes, 64 bits each; a lane of a single register uses the low half. -/
abbrev LaneVals := Vector DWord 96

/-- StreamVector of R148, before the cursor moves: every element within N is read as a relaxed load. -/
def State.streamVals (s : State) (z : Stream) : Run LaneVals :=
  let how := readHow 1 1 z.cp.toNat
  let n := 2 ^ z.esz.toNat
  match s.placeAll z.space.toNat (fun x => s.place (some x.lane) z.space.toNat .read x.addr n) z.accesses with
  | .error c => .error c
  | .ok ps =>
    match s.awaitRemote how z.cp.toNat (ps.flatMap (·.2)) with
    | .error c => .error c
    | .ok () =>
      .ok (ps.foldl (fun v p => v.setIfInBounds p.1 (BitVec.ofNat 64 (s.loadNat how p.2))) (Vector.replicate 96 0))

/-- What the reads of streams leave (R137, R163, R295). -/
def State.passL1 (s : State) : List Nat → State
  | [] => s
  | z :: zs =>
    let x := s.grp.zreg[z]?.getD Stream.initial
    let t :=
      match s.placeAll x.space.toNat (fun a => s.place (some a.lane) x.space.toNat .read a.addr (2 ^ x.esz.toNat)) x.accesses with
      | .ok ps => (s.walked x.space.toNat x.accesses).sawBeyond s.grp.coreNo (readHow 1 1 x.cp.toNat) x.cp.toNat (ps.flatMap (·.2))
      | .error _ => s
    State.passL1 t zs

/-! ### Operand kinds of VR -/

/-- The immediate operand in every element of the lane (R42, R55). -/
def immLane (t : BitVec 3) (n : BitVec 7) : Word :=
  if t = 1 then
    let e := n.signExtend 16
    e ++ e
  else if t = 2 then
    let e := n.signExtend 8
    e ++ e ++ e ++ e
  else n.signExtend 32

/-- An operand that an instruction uses, and whether it is a lane-wise pair (R91). -/
structure Use where
  kind : BitVec 2
  n : BitVec 7
  wide : Bool
  deriving DecidableEq, Repr

/-- The operand may be named by this group: its allocation, a helper's scalars, and the element size of a stream (R49,
R91, R241). -/
def Group.useOk (g : Group) (u : Use) : Bool :=
  match u.kind.toNat with
  | 0 => g.hasVec u.n.toNat && (!u.wide || g.hasVec (u.n.toNat + 1))
  | 1 => g.scalOk (u.n.setWidth 6) && (!u.wide || g.scalOk (u.n.setWidth 6 + 1))
  | 2 => decide ((g.zreg[u.n.toNat]?.getD Stream.initial).esz = 3) = u.wide
  | _ => true

/-- Lane(op, l) of every lane (R55), the streams having been read. -/
def Group.useVals (g : Group) (t : BitVec 3) (streams : Nat → LaneVals) (u : Use) : LaneVals :=
  match u.kind.toNat with
  | 0 =>
    let lo := g.rv u.n.toNat
    let hi := if u.wide then g.rv (u.n.toNat + 1) else zeroLanes
    Vector.ofFn (fun l => pairOf lo[l] hi[l])
  | 1 =>
    let x : DWord := if u.wide then g.rp (u.n.setWidth 6) else (g.rs (u.n.setWidth 6)).setWidth 64
    Vector.replicate 96 x
  | 2 => streams u.n.toNat
  | _ => Vector.replicate 96 ((immLane t u.n).setWidth 64)

/-- The values of an instruction's three operands. -/
structure Opnds where
  a : LaneVals
  b : LaneVals
  c : LaneVals
  deriving DecidableEq, Repr

/-- The streams that the operands name, in order, each once (R92). -/
def streamsOf (us : List Use) : List Nat := ((us.filter (fun u => u.kind = 2)).map (fun u => u.n.toNat)).eraseDups

/-- Read the streams of a list, in order (R94, step 3). -/
def State.readStreams (s : State) : List Nat → Run (List (Nat × LaneVals))
  | [] => .ok []
  | z :: zs =>
    match s.streamVals (s.grp.zreg[z]?.getD Stream.initial) with
    | .error c => .error c
    | .ok v =>
      match State.readStreams s zs with
      | .error c => .error c
      | .ok rest => .ok ((z, v) :: rest)

/-- The streams named have advanced, each once. -/
def Group.advanceStreams (g : Group) (zs : List Nat) : Group :=
  { g with zreg := zs.foldl (fun v z => v.setIfInBounds z (v[z]?.getD Stream.initial).advance) g.zreg }

/-- What a VR instruction does after its checks: from the operands, the group's next registers. -/
abbrev VBody := Opnds → Group → Group

/-- A VR instruction (R90 to R94): ILLEGAL (the word's own fields, its operands, and `dst`, what its destination needs),
FMTILL, RGNW, the stream faults, then the effect. -/
def State.runVR (s : State) (ok fmt rgnw : Bool) (t : BitVec 3) (us : List Use) (body : VBody) : Run Ctl :=
  match s.need (ok && us.all s.grp.useOk) .illegal with
  | .error c => .error c
  | .ok () =>
    match s.need fmt .fmtill with
    | .error c => .error c
    | .ok () =>
      match s.need (!rgnw) .rgnw with
      | .error c => .error c
      | .ok () =>
        match s.readStreams (streamsOf us) with
        | .error c => .error c
        | .ok vs =>
          let streams (z : Nat) : LaneVals := ((vs.find? (fun p => p.1 = z)).map (·.2)).getD (Vector.replicate 96 0)
          let vals (k : Nat) : LaneVals :=
            match us[k]? with
            | some u => s.grp.useVals t streams u
            | none => Vector.replicate 96 0
          .ok (.done ((s.passL1 (streamsOf us)).onGrp (fun g => body ⟨vals 0, vals 1, vals 2⟩ (g.advanceStreams (streamsOf us)))))

/-- Operand A of a word. -/
def useA (f : VR) (wide : Bool) : Use := ⟨f.kindA, f.a, wide⟩
/-- Operand B of a word. -/
def useB (f : VR) (wide : Bool) : Use := ⟨f.kindB, f.b, wide⟩
/-- Operand C of a word. -/
def useC (f : VR) (wide : Bool) : Use := ⟨f.kindC, f.c, wide⟩

/-- The destination vector register of a word, and its pair, are in the allocation. -/
def Group.dstOk (g : Group) (f : VR) (wide : Bool) : Bool :=
  g.hasVec f.d.toNat && (!wide || g.hasVec (f.d.toNat + 1))

/-- The destination vector register of a word, or its pair, is live-in. -/
def Group.dstLive (g : Group) (f : VR) (wide : Bool) : Bool :=
  g.liveInVec f.d.toNat || (wide && g.liveInVec (f.d.toNat + 1))

/-- What one lane of a computation gives. -/
structure LaneRes where
  val : DWord
  flags : BitVec 6
  deriving DecidableEq, Repr

/-- FPSR with flags set (R101). -/
def Group.raiseFlags (g : Group) (f : BitVec 6) : Group := { g with fpsr := g.fpsr ||| f.setWidth 32 }

/-- Write the results of the lanes of a set into v[D], or into the pair, and raise their flags (R93). -/
def Group.writeLanes (g : Group) (d : Nat) (wide : Bool) (m : LaneSet) (r : Nat → LaneRes) : Group :=
  let rs : Vector LaneRes 96 := Vector.ofFn (fun l => if m.getLsbD l.val then r l.val else ⟨0, 0⟩)
  let g1 := g.wvm d m (rs.map (fun x => loHalf x.val))
  let g2 := if wide then g1.wvm (d + 1) m (rs.map (fun x => hiHalf x.val)) else g1
  g2.raiseFlags (rs.toList.foldl (fun f x => f ||| x.flags) 0)

end Sys2Proof.Machine
end

