-- ==== Sys2Proof/Machine/Control.lean ====
section
/-! DEFINITION. Branches, calls, loops and mask triples (03_control.md R69 to R73, R78). -/

namespace Sys2Proof.Machine

open Sys2Proof

/-- Both scalars of a pair may be named by the group. -/
def Group.pairOk (g : Group) (n : BitVec 6) : Bool := g.scalOk n && g.scalOk (n + 1)

/-- The target of a word offset from the instruction (R34). -/
def Group.target (g : Group) (off : Word) : DWord := g.pc + 8 * off.signExtend 64

/-- A transfer of control to `t` (R60): Check, then Arrive. -/
def State.jump (s : State) (t : DWord) : Run Ctl := do
  let _ ← s.chk (s.check t)
  return .goto t s

/-! ### Branches (R69) -/

/-- A branch that is taken where `taken` holds. -/
def State.branch (s : State) (ok taken : Bool) (off : Word) : Run Ctl := do
  s.need ok .illegal
  if taken then s.jump (s.grp.target off) else return .done s

/-- A branch that compares two scalars. -/
def branchCmp (f : CB) (c : Word → Word → Bool) (s : State) : Out :=
  finish 1 (s.branch (f.okCond && s.grp.scalOk f.a && s.grp.scalOk f.b) (c (s.grp.rs f.a) (s.grp.rs f.b)) f.off)

/-- A branch that tests a mask triple. -/
def branchMask (f : CB) (c : LaneSet → LaneSet → Bool) (s : State) : Out :=
  finish 1 (s.branch (f.okMask && s.grp.tripOk f.a) (c (s.grp.mask f.a) s.grp.live) f.off)

/-- BR (R69). -/
def execBr (f : CB) (s : State) : Out := finish 1 (s.branch f.okBr true f.off)
/-- BEQ (R69). -/
def execBeq (f : CB) (s : State) : Out := branchCmp f (fun a b => decide (a = b)) s
/-- BNE (R69). -/
def execBne (f : CB) (s : State) : Out := branchCmp f (fun a b => decide (a ≠ b)) s
/-- BLT (R69). -/
def execBlt (f : CB) (s : State) : Out := branchCmp f (fun a b => a.slt b) s
/-- BGE (R69). -/
def execBge (f : CB) (s : State) : Out := branchCmp f (fun a b => !a.slt b) s
/-- BLTU (R69). -/
def execBltu (f : CB) (s : State) : Out := branchCmp f (fun a b => a.ult b) s
/-- BGEU (R69). -/
def execBgeu (f : CB) (s : State) : Out := branchCmp f (fun a b => !a.ult b) s
/-- BMZ (R69). -/
def execBmz (f : CB) (s : State) : Out := branchMask f (fun m _ => decide (m = 0)) s
/-- BMNZ (R69). -/
def execBmnz (f : CB) (s : State) : Out := branchMask f (fun m _ => decide (m ≠ 0)) s
/-- BMALL (R69). -/
def execBmall (f : CB) (s : State) : Out := branchMask f (fun m live => decide (m = live)) s

/-! ### Calls and indirect jumps (R70) -/

/-- A call: the link pair is written once the target has passed Check. -/
def State.call (s : State) (ok : Bool) (d : BitVec 6) (t : DWord) : Run Ctl := do
  s.need (ok && s.grp.pairOk d) .illegal
  s.need (!s.grp.liveInPair d) .rgnw
  let _ ← s.chk (s.check t)
  return .goto t (s.onGrp (fun g => g.wp d (g.pc + 8)))

/-- An indirect jump. -/
def State.indirect (s : State) (f : CB) : Run Ctl := do
  s.need (f.okJump && s.grp.pairOk f.a) .illegal
  s.jump (s.grp.rp f.a)

/-- CALL (R70). -/
def execCall (f : CB) (s : State) : Out := finish 1 (s.call f.okCall f.d (s.grp.target f.off))
/-- CALLI (R70). -/
def execCalli (f : CB) (s : State) : Out := finish 1 (s.call (f.okCalli && s.grp.pairOk f.a) f.d (s.grp.rp f.a))
/-- RET (R70). -/
def execRet (f : CB) (s : State) : Out := finish 1 (s.indirect f)
/-- JMPI (R70). -/
def execJmpi (f : CB) (s : State) : Out := finish 1 (s.indirect f)

/-! ### Loops (R71 to R73) -/

/-- A loop opens at the depth the group has (R71). -/
def Group.openLoop (g : Group) (e : DWord) (n : Word) : Group :=
  { g with
    start := g.start.setIfInBounds g.depth (g.pc + 8), exit := g.exit.setIfInBounds g.depth e,
    lc := g.lc.setIfInBounds g.depth n, depth := g.depth + 1 }

/-- The innermost loop is left (R72). -/
def Group.leaveLoop (g : Group) : Group :=
  { g with lc := g.lc.setIfInBounds (g.depth - 1) 0, depth := g.depth - 1 }

/-- An LIW, whose literal follows (R48). -/
def isLiw (w : DWord) : Bool := decide ((mopOf w).toNat = 0x0A) && decide ((fnOf w).toNat = 1)

/-- An instruction that keeps a body out of the loop buffer (R66): CALL, CALLI, RET, JMPI or YIELD. -/
def leavesBuffer (w : DWord) : Bool :=
  (decide ((mopOf w).toNat = 0x02) && decide ((fnOf w).toNat ≤ 3)) || (decide ((mopOf w).toNat = 0x04) && decide ((fnOf w).toNat = 1))

/-- The words of a loop body from `a` to the loop's end, where it may run from the loop buffer (R66): `n` words of the block
are left, and `lit` says that this word is a literal. -/
def State.bodyWords (s : State) (e : DWord) : Nat → DWord → Nat → Bool → Option (List DWord)
  | 0, a, n, _ => if n = 0 && a = e then some [] else none
  | fuel + 1, a, n, lit =>
    if n = 0 && a = e then some []
    else
      match s.fetch a with
      | .error _ => none
      | .ok w =>
        if n = 0 then
          if isHeader w && (Header.ofWord w).flagL && decide ((Header.ofWord w).len ≠ 0) then
            (State.bodyWords s e fuel (a + 8) (Header.ofWord w).len.toNat false).map (w :: ·)
          else none
        else if !lit && leavesBuffer w then none
        else (State.bodyWords s e fuel (a + 8) (n - 1) (!lit && isLiw w)).map (w :: ·)

/-- A buffered body holds every word of a loop that a LOOP at `pc` opens to `e` (R66). -/
def LoopBuf.holds (b : LoopBuf) (pc e : DWord) : Bool :=
  (b.word pc).isSome && decide ((pc - b.start).toNat < (e - b.start).toNat) &&
    decide ((e - b.start).toNat ≤ 8 * b.words.length)

/-- The loop buffer as a LOOP to `e` leaves it: the bodies of open loops stay, and a loop nested inside one of them runs from
it; else this loop's body is taken where it qualifies, in at most 256 words, a word that an open body holds as that body holds
it (R66). -/
def State.takeBody (s : State) (e : DWord) : List LoopBuf :=
  let bs := s.grp.loopBuf.filter s.grp.bufferOpen
  if bs.any (·.holds s.grp.pc e) then bs
  else
    match s.bodyWords e 256 (s.grp.pc + 8) 0 false with
    | some ws => ⟨s.grp.depth, s.grp.pc + 8, ws⟩ :: bs
    | none => bs

/-- LOOP (R71). -/
def execLoop (f : CB) (s : State) : Out :=
  finish 1 (do
    s.need (f.okLoop && s.grp.scalOk f.a) .illegal
    let e := s.grp.target f.off
    let _ ← s.chk (s.check e)
    let n := s.grp.rs f.a
    if n = 0 then return .goto e s
    else
      s.need (decide (s.grp.depth < 3)) .illegal
      return .done (s.onGrp (fun g => { g.openLoop e n with loopBuf := s.takeBody e })))

/-- LBRK (R72). -/
def execLbrk (f : CB) (s : State) : Out :=
  finish 1 (do
    s.need (f.okLbrk && decide (s.grp.depth ≠ 0)) .illegal
    let t := s.grp.target f.off
    let _ ← s.chk (s.check t)
    return .goto t (s.onGrp Group.leaveLoop))

/-- LCGET (R73). -/
def execLcget (f : CB) (s : State) : Out :=
  finish 1 (do
    s.need (f.okLcget && s.grp.scalOk f.d) .illegal
    s.need (!s.grp.liveIn f.d) .rgnw
    let x : Word := if f.b = 3 then BitVec.ofNat 32 s.grp.depth else s.grp.lc[f.b.toNat]?.getD 0
    return .done (s.onGrp (fun g => g.ws f.d x)))

/-- LCSET (R73). -/
def execLcset (f : CB) (s : State) : Out :=
  finish 1 (do
    s.need (f.okLcset && s.grp.scalOk f.a) .illegal
    return .done (s.onGrp (fun g => { g with lc := g.lc.setIfInBounds f.b.toNat (g.rs f.a) })))

/-! ### Mask triples (R78) -/

/-- An instruction that writes a triple. -/
def State.toTriple (s : State) (ok : Bool) (d : BitVec 6) (x : LaneSet) : Run Ctl := do
  s.need (ok && s.grp.tripOk d) .illegal
  s.need (!s.grp.liveInTriple d) .rgnw
  return .done (s.onGrp (fun g => g.setRaw d x))

/-- An instruction that writes a scalar. -/
def State.toScalar (s : State) (ok : Bool) (d : BitVec 6) (x : Word) : Run Ctl := do
  s.need (ok && s.grp.scalOk d) .illegal
  s.need (!s.grp.liveIn d) .rgnw
  return .done (s.onGrp (fun g => g.ws d x))

/-- A logic form over two raw triples. -/
def tripleLogic (f : SR) (op : LaneSet → LaneSet → LaneSet) (s : State) : Out :=
  finish 1 (s.toTriple (f.okTriples && s.grp.tripOk f.a && s.grp.tripOk f.b) f.d (op (s.grp.raw f.a) (s.grp.raw f.b)))

/-- B, or IMM when I = 1 (R41). -/
def Group.srcB (g : Group) (f : SR) : Word := if f.i then f.imm else g.rs f.b

/-- The set of lanes from `lo` up to but not including `hi` (R78, MRANGE). -/
def laneRange (lo hi : Nat) : LaneSet :=
  BitVec.ofNat 96 (((List.range 96).filter (fun l => decide (lo ≤ l) && decide (l < hi))).foldl (fun n l => n + 2 ^ l) 0)

/-- MAND (R78). -/
def execMand (f : SR) (s : State) : Out := tripleLogic f (fun a b => a &&& b) s
/-- MOR (R78). -/
def execMor (f : SR) (s : State) : Out := tripleLogic f (fun a b => a ||| b) s
/-- MXOR (R78). -/
def execMxor (f : SR) (s : State) : Out := tripleLogic f (fun a b => a ^^^ b) s
/-- MANDN (R78). -/
def execMandn (f : SR) (s : State) : Out := tripleLogic f (fun a b => a &&& ~~~b) s
/-- MNOT (R78). -/
def execMnot (f : SR) (s : State) : Out :=
  finish 1 (s.toTriple (f.okTriple2 && s.grp.tripOk f.a) f.d (~~~(s.grp.raw f.a)))
/-- MMOV (R78). -/
def execMmov (f : SR) (s : State) : Out :=
  finish 1 (s.toTriple (f.okTriple2 && s.grp.tripOk f.a) f.d (s.grp.raw f.a))
/-- MPOPC (R78). -/
def execMpopc (f : SR) (s : State) : Out :=
  finish 1 (s.toScalar (f.okCount && s.grp.tripOk f.a) f.d (BitVec.ofNat 32 (popCount (s.grp.mask f.a))))
/-- MFFS (R78). -/
def execMffs (f : SR) (s : State) : Out :=
  finish 1 (s.toScalar (f.okCount && s.grp.tripOk f.a) f.d
    (match lanesOf (s.grp.mask f.a) with
     | l :: _ => BitVec.ofNat 32 l
     | [] => 0xFFFFFFFF))
/-- MRANGE (R78). -/
def execMrange (f : SR) (s : State) : Out :=
  finish 1 (s.toTriple (f.okRange && s.grp.scalOk f.a && s.grp.scalOk f.b) f.d
    (laneRange (s.grp.rs f.a).toNat (s.grp.srcB f).toNat))
/-- MTEST (R78). -/
def execMtest (f : SR) (s : State) : Out :=
  finish 1 (s.toScalar (f.okTest && s.grp.tripOk f.a && s.grp.scalOk f.b) f.d
    (boolWord ((s.grp.mask f.a).getLsbD (s.grp.srcB f).toNat)))
/-- MLIVE (R78). -/
def execMlive (f : SR) (s : State) : Out := finish 1 (s.toTriple f.okLive f.d s.grp.live)

end Sys2Proof.Machine
end

