-- ==== Sys2Proof/Machine/Scalar.lean ====
section
/-! DEFINITION. Scalar arithmetic, pairs, immediates and addresses (04_scalar.md R82 to R87). -/

namespace Sys2Proof.Machine

open Sys2Proof

/-! ### Bit counts, for any width -/

/-- Leading zero bits. -/
def clzBits {w : Nat} (x : BitVec w) : Nat := ((List.range w).reverse.takeWhile (fun k => !x.getLsbD k)).length
/-- Trailing zero bits. -/
def ctzBits {w : Nat} (x : BitVec w) : Nat := ((List.range w).takeWhile (fun k => !x.getLsbD k)).length
/-- One bits. -/
def popBits {w : Nat} (x : BitVec w) : Nat := ((List.range w).filter (fun k => x.getLsbD k)).length
/-- Bit k moved to bit w - 1 - k. -/
def revBits {w : Nat} (x : BitVec w) : BitVec w :=
  BitVec.ofNat w ((List.range w).foldl (fun n k => if x.getLsbD k then n + 2 ^ (w - 1 - k) else n) 0)

/-! ### The scalar ALU (R82) -/

/-- A binary scalar operation: s[D] := op(s[A], B or IMM), after its checks. -/
def scalarBin (ok : Bool) (f : SR) (op : Word → Word → Word) (s : State) : Out :=
  finish 1 (s.toScalar (ok && s.grp.scalOk f.a && s.grp.scalOk f.b) f.d (op (s.grp.rs f.a) (s.grp.srcB f)))

/-- A unary scalar operation. -/
def scalarUn (f : SR) (op : Word → Word) (s : State) : Out :=
  finish 1 (s.toScalar (f.okUnary && s.grp.scalOk f.a) f.d (op (s.grp.rs f.a)))

/-- The shift count of R82: bits [4:0]. -/
def count5 (b : Word) : Nat := b.toNat % 32

/-- ADD (R82). -/
def execAdd (f : SR) (s : State) : Out := scalarBin f.okBin f (fun a b => a + b) s
/-- SUB (R82). -/
def execSub (f : SR) (s : State) : Out := scalarBin f.okBin f (fun a b => a - b) s
/-- MUL (R82). -/
def execMul (f : SR) (s : State) : Out := scalarBin f.okBin f (fun a b => a * b) s
/-- MULHS (R82). -/
def execMulhs (f : SR) (s : State) : Out :=
  scalarBin f.okBin f (fun a b => BitVec.ofInt 32 (a.toInt * b.toInt / 2 ^ 32)) s
/-- MULHU (R82). -/
def execMulhu (f : SR) (s : State) : Out :=
  scalarBin f.okBin f (fun a b => BitVec.ofNat 32 (a.toNat * b.toNat / 2 ^ 32)) s
/-- AND (R82). -/
def execAnd (f : SR) (s : State) : Out := scalarBin f.okBin f (fun a b => a &&& b) s
/-- OR (R82). -/
def execOr (f : SR) (s : State) : Out := scalarBin f.okBin f (fun a b => a ||| b) s
/-- XOR (R82). -/
def execXor (f : SR) (s : State) : Out := scalarBin f.okBin f (fun a b => a ^^^ b) s
/-- ANDN (R82). -/
def execAndn (f : SR) (s : State) : Out := scalarBin f.okBin f (fun a b => a &&& ~~~b) s
/-- SHL (R82). -/
def execShl (f : SR) (s : State) : Out := scalarBin (f.okShift 32) f (fun a b => a <<< count5 b) s
/-- SHR (R82). -/
def execShr (f : SR) (s : State) : Out := scalarBin (f.okShift 32) f (fun a b => a >>> count5 b) s
/-- SAR (R82). -/
def execSar (f : SR) (s : State) : Out := scalarBin (f.okShift 32) f (fun a b => a.sshiftRight (count5 b)) s
/-- ROTL (R82). -/
def execRotl (f : SR) (s : State) : Out := scalarBin (f.okShift 32) f (fun a b => a.rotateLeft (count5 b)) s
/-- MIN (R82). -/
def execMin (f : SR) (s : State) : Out := scalarBin f.okBin f (fun a b => if a.slt b then a else b) s
/-- MAX (R82). -/
def execMax (f : SR) (s : State) : Out := scalarBin f.okBin f (fun a b => if a.slt b then b else a) s
/-- MINU (R82). -/
def execMinu (f : SR) (s : State) : Out := scalarBin f.okBin f (fun a b => if a.ult b then a else b) s
/-- MAXU (R82). -/
def execMaxu (f : SR) (s : State) : Out := scalarBin f.okBin f (fun a b => if a.ult b then b else a) s
/-- SLT (R82). -/
def execSlt (f : SR) (s : State) : Out := scalarBin f.okBin f (fun a b => boolWord (a.slt b)) s
/-- SLTU (R82). -/
def execSltu (f : SR) (s : State) : Out := scalarBin f.okBin f (fun a b => boolWord (a.ult b)) s
/-- SEQ (R82). -/
def execSeq (f : SR) (s : State) : Out := scalarBin f.okBin f (fun a b => boolWord (decide (a = b))) s
/-- SNE (R82). -/
def execSne (f : SR) (s : State) : Out := scalarBin f.okBin f (fun a b => boolWord (decide (a ≠ b))) s
/-- CLZ (R82). -/
def execClz (f : SR) (s : State) : Out := scalarUn f (fun a => BitVec.ofNat 32 (clzBits a)) s
/-- CTZ (R82). -/
def execCtz (f : SR) (s : State) : Out := scalarUn f (fun a => BitVec.ofNat 32 (ctzBits a)) s
/-- POPC (R82). -/
def execPopc (f : SR) (s : State) : Out := scalarUn f (fun a => BitVec.ofNat 32 (popBits a)) s
/-- BREV (R82). -/
def execBrev (f : SR) (s : State) : Out := scalarUn f (fun a => revBits a) s
/-- CMOV (R82): the old s[D] is written back where s[A] is 0. -/
def execCmov (f : SR) (s : State) : Out :=
  scalarBin f.okBin f (fun a b => if a ≠ 0 then b else s.grp.rs f.d) s

/-! ### Pairs (R83) -/

/-- Pair B, or the sign-extended IMM. -/
def Group.srcPair (g : Group) (f : SR) : DWord := if f.i then f.imm.signExtend 64 else g.rp f.b

/-- An instruction that writes a pair. -/
def State.toPair (s : State) (ok : Bool) (d : BitVec 6) (x : DWord) : Run Ctl := do
  s.need (ok && s.grp.pairOk d) .illegal
  s.need (!s.grp.liveInPair d) .rgnw
  return .done (s.onGrp (fun g => g.wp d x))

/-- B names a pair the group may name, or nothing. -/
def Group.srcPairOk (g : Group) (f : SR) : Bool := f.i || g.pairOk f.b

/-- A binary pair operation. -/
def pairBin (f : SR) (op : DWord → DWord → DWord) (s : State) : Out :=
  finish 1 (s.toPair (f.okPair true true && s.grp.pairOk f.a && s.grp.srcPairOk f) f.d
    (op (s.grp.rp f.a) (s.grp.srcPair f)))

/-- A pair shift: the count is bits [5:0] of a scalar, or IMM. -/
def pairShift (f : SR) (op : DWord → Nat → DWord) (s : State) : Out :=
  finish 1 (s.toPair (f.okPairShift && s.grp.pairOk f.a && s.grp.scalOk f.b) f.d
    (op (s.grp.rp f.a) ((s.grp.srcB f).toNat % 64)))

/-- A pair comparison. -/
def pairCmp (f : SR) (op : DWord → DWord → Bool) (s : State) : Out :=
  finish 1 (s.toScalar (f.okPair false true && s.grp.pairOk f.a && s.grp.srcPairOk f) f.d
    (boolWord (op (s.grp.rp f.a) (s.grp.srcPair f))))

/-- ADDW (R83). -/
def execAddw (f : SR) (s : State) : Out := pairBin f (fun a b => a + b) s
/-- SUBW (R83). -/
def execSubw (f : SR) (s : State) : Out := pairBin f (fun a b => a - b) s
/-- MULW (R83). -/
def execMulw (f : SR) (s : State) : Out := pairBin f (fun a b => a * b) s
/-- SHLW (R83). -/
def execShlw (f : SR) (s : State) : Out := pairShift f (fun a n => a <<< n) s
/-- SHRW (R83). -/
def execShrw (f : SR) (s : State) : Out := pairShift f (fun a n => a >>> n) s
/-- SARW (R83). -/
def execSarw (f : SR) (s : State) : Out := pairShift f (fun a n => a.sshiftRight n) s
/-- SLTW (R83). -/
def execSltw (f : SR) (s : State) : Out := pairCmp f (fun a b => a.slt b) s
/-- SLTUW (R83). -/
def execSltuw (f : SR) (s : State) : Out := pairCmp f (fun a b => a.ult b) s

/-! ### Immediates and addresses (R84 to R87) -/

/-- LI (R84). -/
def execLi (f : SR) (s : State) : Out := finish 1 (s.toScalar f.okLi f.d f.imm)

/-- LIW (R85): its literal is the next word, and it continues past it. -/
def execLiw (f : SR) (lit : DWord) (s : State) : Out := finish 2 (s.toPair f.okLiw f.d lit)

/-- LEA (R86): the offset is one scalar, or IMM, read as signed. -/
def execLea (f : SR) (s : State) : Out :=
  finish 1 (s.toPair (f.okLea && s.grp.pairOk f.a && s.grp.scalOk f.b) f.d
    (s.grp.rp f.a + (s.grp.srcB f).signExtend 64))

/-- MOVW, the copy form (R87). -/
def execMovwCopy (f : SR) (s : State) : Out :=
  finish 1 (s.toPair (f.okMovCopy && s.grp.pairOk f.a) f.d (s.grp.rp f.a))

/-- MOVW, the relative form (R87). -/
def execMovwRelative (f : SR) (s : State) : Out := finish 1 (s.toPair f.okMovRel f.d (s.grp.target f.imm))

end Sys2Proof.Machine
end

