-- ==== Sys2Proof/Machine/VectorInt.lean ====
section
/-! DEFINITION. Vector integer instructions and the integer compare (05_vector.md R103, R104). -/

namespace Sys2Proof.Machine

open Sys2Proof

/-- The element width of an integer type (R103). -/
def elemBits (t : BitVec 3) : Nat := if t = 1 then 16 else if t = 2 then 8 else 32

/-- Element `k` of a lane, of `e` bits. -/
def elem (e : Nat) (x : Word) (k : Nat) : Nat := x.toNat / 2 ^ (e * k) % 2 ^ e

/-- S(x): an e-bit pattern as two's complement. -/
def signedOf (e x : Nat) : Int := if x < 2 ^ (e - 1) then (x : Int) else (x : Int) - 2 ^ e

/-- An integer modulo 2^e as an e-bit pattern. -/
def wrapTo (e : Nat) (t : Int) : Nat := (t % 2 ^ e).toNat

/-- A lane of elements of `e` bits. -/
def joinElems (e : Nat) (f : Nat → Nat) : Word :=
  BitVec.ofNat 32 ((List.range (32 / e)).foldl (fun n k => n + f k * 2 ^ (e * k)) 0)

/-- Clamp of R10. -/
def clampInt (x lo hi : Int) : Int := max lo (min hi x)

/-- The exact result of R103 from the element width and the patterns a, b and c. -/
abbrev IntOp := Nat → Nat → Nat → Nat → Int

/-- One element of an integer instruction, with the saturation of R103. -/
def intElem (op uop : IntOp) (sat u : Bool) (e a b c : Nat) : Nat :=
  if sat then
    if u then wrapTo e (clampInt (uop e a b c) 0 (2 ^ e - 1))
    else wrapTo e (clampInt (op e a b c) (-(2 ^ (e - 1))) (2 ^ (e - 1) - 1))
  else wrapTo e (op e a b c)

/-- The low half of a lane's operand value. -/
def LaneVals.word (v : LaneVals) (l : Nat) : Word := loHalf (v[l]?.getD 0)

/-- An integer instruction over the elements of the active lanes. -/
def vecInt (ok : Bool) (f : VR) (us : List Use) (op uop : IntOp) (s : State) : Out :=
  finish 1 (s.runVR (ok && s.grp.tripOk f.m && s.grp.dstOk f false) true (s.grp.dstLive f false) f.t us
    (fun o g => g.writeLanes f.d.toNat false (g.mask f.m) (fun l =>
      let e := elemBits f.t
      let w := joinElems e (fun k =>
        intElem op uop f.sat (f.x.getLsbD 0) e (elem e (o.a.word l) k) (elem e (o.b.word l) k) (elem e (o.c.word l) k))
      ⟨w.setWidth 64, 0⟩)))

/-- A binary integer instruction without saturation. -/
def vecInt2 (f : VR) (op : IntOp) (s : State) : Out :=
  vecInt (f.okInt false false true false) f [useA f false, useB f false] op op s

/-- A unary integer instruction. -/
def vecInt1 (canSat : Bool) (f : VR) (op : IntOp) (s : State) : Out :=
  vecInt (f.okInt canSat false false false) f [useA f false] op op s

/-- VADD (R103). -/
def execVadd (f : VR) (s : State) : Out :=
  vecInt (f.okInt true true true false) f [useA f false, useB f false]
    (fun e a b _ => signedOf e a + signedOf e b) (fun _ a b _ => (a : Int) + b) s
/-- VSUB (R103). -/
def execVsub (f : VR) (s : State) : Out :=
  vecInt (f.okInt true true true false) f [useA f false, useB f false]
    (fun e a b _ => signedOf e a - signedOf e b) (fun _ a b _ => (a : Int) - b) s
/-- VMUL (R103). -/
def execVmul (f : VR) (s : State) : Out := vecInt2 f (fun _ a b _ => (a : Int) * b) s
/-- VMULH (R103). -/
def execVmulh (f : VR) (s : State) : Out := vecInt2 f (fun e a b _ => signedOf e a * signedOf e b / 2 ^ e) s
/-- VMULHU (R103). -/
def execVmulhu (f : VR) (s : State) : Out := vecInt2 f (fun e a b _ => (a : Int) * b / 2 ^ e) s
/-- VMAD (R103). -/
def execVmad (f : VR) (s : State) : Out :=
  vecInt (f.okInt false false true true) f [useA f false, useB f false, useC f false]
    (fun _ a b c => (a : Int) * b + c) (fun _ a b c => (a : Int) * b + c) s
/-- VAND (R103). -/
def execVand (f : VR) (s : State) : Out := vecInt2 f (fun _ a b _ => (a &&& b : Nat)) s
/-- VOR (R103). -/
def execVor (f : VR) (s : State) : Out := vecInt2 f (fun _ a b _ => (a ||| b : Nat)) s
/-- VXOR (R103). -/
def execVxor (f : VR) (s : State) : Out := vecInt2 f (fun _ a b _ => (a ^^^ b : Nat)) s
/-- VANDN (R103). -/
def execVandn (f : VR) (s : State) : Out := vecInt2 f (fun e a b _ => (a &&& (2 ^ e - 1 - b) : Nat)) s
/-- VSHL (R103). -/
def execVshl (f : VR) (s : State) : Out := vecInt2 f (fun e a b _ => (a * 2 ^ (b % e) : Nat)) s
/-- VSHR (R103). -/
def execVshr (f : VR) (s : State) : Out := vecInt2 f (fun e a b _ => (a / 2 ^ (b % e) : Nat)) s
/-- VSAR (R103). -/
def execVsar (f : VR) (s : State) : Out := vecInt2 f (fun e a b _ => signedOf e a / 2 ^ (b % e)) s
/-- VMIN (R103). -/
def execVmin (f : VR) (s : State) : Out := vecInt2 f (fun e a b _ => min (signedOf e a) (signedOf e b)) s
/-- VMAX (R103). -/
def execVmax (f : VR) (s : State) : Out := vecInt2 f (fun e a b _ => max (signedOf e a) (signedOf e b)) s
/-- VMINU (R103). -/
def execVminu (f : VR) (s : State) : Out := vecInt2 f (fun _ a b _ => (min a b : Nat)) s
/-- VMAXU (R103). -/
def execVmaxu (f : VR) (s : State) : Out := vecInt2 f (fun _ a b _ => (max a b : Nat)) s
/-- VABS (R103). -/
def execVabs (f : VR) (s : State) : Out := vecInt1 true f (fun e a _ _ => ((signedOf e a).natAbs : Int)) s
/-- VNEG (R103). -/
def execVneg (f : VR) (s : State) : Out := vecInt1 true f (fun e a _ _ => -signedOf e a) s
/-- VPOPC (R103). -/
def execVpopc (f : VR) (s : State) : Out := vecInt1 false f (fun e a _ _ => (popBits (BitVec.ofNat e a) : Int)) s
/-- VCLZ (R103). -/
def execVclz (f : VR) (s : State) : Out := vecInt1 false f (fun e a _ _ => (clzBits (BitVec.ofNat e a) : Int)) s

/-! ### Compares (R104) -/

/-- A compare into the triple D: the bits of the active lanes are the lanes' conditions. -/
def vecCompare (ok : Bool) (f : VR) (cond : DWord → DWord → Bool × BitVec 6) (s : State) : Out :=
  finish 1 (s.runVR (ok && s.grp.tripOk f.m && s.grp.tripOk (f.d.setWidth 6)) true
    (s.grp.liveInTriple (f.d.setWidth 6)) f.t [useA f f.wide, useB f f.wide]
    (fun o g =>
      let m := g.mask f.m
      let lanes := lanesOf m
      let res (l : Nat) : Bool × BitVec 6 := cond (o.a[l]?.getD 0) (o.b[l]?.getD 0)
      let hits : LaneSet := BitVec.ofNat 96 (lanes.foldl (fun n l => if (res l).1 then n + 2 ^ l else n) 0)
      (g.setRaw (f.d.setWidth 6) ((g.raw (f.d.setWidth 6) &&& ~~~m) ||| hits)).raiseFlags
        (lanes.foldl (fun x l => x ||| (res l).2) 0)))

/-- The condition X of VICMP (R104). -/
def intCond (x : Nat) (a b : Word) : Bool :=
  match x with
  | 0 => decide (a = b)
  | 1 => decide (a ≠ b)
  | 2 => a.slt b
  | 3 => a.sle b
  | 4 => b.slt a
  | 5 => b.sle a
  | 6 => a.ult b
  | 7 => a.ule b
  | 8 => b.ult a
  | _ => b.ule a

/-- VICMP (R104). -/
def execVicmp (f : VR) (s : State) : Out :=
  vecCompare (f.okCmp [0] 9) f (fun a b => (intCond f.x.toNat (loHalf a) (loHalf b), 0)) s

end Sys2Proof.Machine
end

