-- ==== Sys2Proof/Machine/VectorFp.lean ====
section
/-! DEFINITION. Vector floating point, the floating-point compare and the special functions (05_vector.md R104 to
R106). -/

namespace Sys2Proof.Machine

open Sys2Proof

/-- The format of a floating-point type (R42). -/
def fmtOf (t : BitVec 3) : Fmt := if t = 3 then .f32 else if t = 4 then .f16 else if t = 5 then .bf16 else .f64

/-- A floating-point computation on the elements of one lane: one of FP32 or FP64, two of FP16 or BF16 (R98). -/
def fpLane (t : BitVec 3) (op : Nat → Nat → Nat → FRes) (a b c : DWord) : LaneRes :=
  if t = 4 || t = 5 then
    let part (x : DWord) (k : Nat) : Nat := (x.extractLsb' (16 * k) 16).toNat
    let r0 := op (part a 0) (part b 0) (part c 0)
    let r1 := op (part a 1) (part b 1) (part c 1)
    ⟨BitVec.ofNat 64 (r0.bits + 65536 * r1.bits), r0.flags ||| r1.flags⟩
  else if t = 6 then
    let r := op a.toNat b.toNat c.toNat
    ⟨BitVec.ofNat 64 r.bits, r.flags⟩
  else
    let r := op (loHalf a).toNat (loHalf b).toNat (loHalf c).toNat
    ⟨BitVec.ofNat 64 r.bits, r.flags⟩

/-- A floating-point instruction over the active lanes; `op` sees the elements as stored. -/
def vecFp (ok : Bool) (f : VR) (us : List Use) (op : Word → Fmt → Nat → Nat → Nat → FRes) (s : State) : Out :=
  finish 1 (s.runVR (ok && s.grp.tripOk f.m && s.grp.dstOk f f.wide) true (s.grp.dstLive f f.wide) f.t us
    (fun o g => g.writeLanes f.d.toNat f.wide (g.mask f.m) (fun l =>
      fpLane f.t (op g.fpcr (fmtOf f.t)) (o.a[l]?.getD 0) (o.b[l]?.getD 0) (o.c[l]?.getD 0))))

/-- The mode of Round for a word (R55). -/
def rmMode (f : VR) (fpcr : Word) : Rnd := rndOf fpcr f.rm .rne

/-- A binary instruction on flushed operands; `rounds` says whether RM is accepted. -/
def vecFp2 (rounds : Bool) (f : VR) (op : Word → Fmt → Rnd → Nat → Nat → FRes) (s : State) : Out :=
  vecFp (f.okFp rounds true false) f [useA f f.wide, useB f f.wide]
    (fun fpcr t a b _ => op fpcr t (rmMode f fpcr) (flushIn fpcr t a) (flushIn fpcr t b)) s

/-- A fused multiply-add. -/
def vecFma (minus : Bool) (f : VR) (s : State) : Out :=
  vecFp (f.okFp true true true) f [useA f f.wide, useB f f.wide, useC f f.wide]
    (fun fpcr t a b c => fMa fpcr t (rmMode f fpcr) minus (flushIn fpcr t a) (flushIn fpcr t b) (flushIn fpcr t c)) s

/-- A unary instruction on an operand as stored. -/
def vecFp1 (ok : Bool) (f : VR) (op : Word → Fmt → Nat → FRes) (s : State) : Out :=
  vecFp ok f [useA f f.wide] (fun fpcr t a _ _ => op fpcr t a) s

/-- VFADD (R105). -/
def execVfadd (f : VR) (s : State) : Out := vecFp2 true f fAdd s
/-- VFSUB (R105). -/
def execVfsub (f : VR) (s : State) : Out := vecFp2 true f fSub s
/-- VFMUL (R105). -/
def execVfmul (f : VR) (s : State) : Out := vecFp2 true f fMul s
/-- VFMA (R105). -/
def execVfma (f : VR) (s : State) : Out := vecFma false f s
/-- VFNMA (R105). -/
def execVfnma (f : VR) (s : State) : Out := vecFma true f s
/-- VFMIN (R99, R105). -/
def execVfmin (f : VR) (s : State) : Out := vecFp2 false f (fun _ t _ a b => fMinMax t false false a b) s
/-- VFMAX (R99, R105). -/
def execVfmax (f : VR) (s : State) : Out := vecFp2 false f (fun _ t _ a b => fMinMax t true false a b) s
/-- VFMINN (R99, R105). -/
def execVfminn (f : VR) (s : State) : Out := vecFp2 false f (fun _ t _ a b => fMinMax t false true a b) s
/-- VFMAXN (R99, R105). -/
def execVfmaxn (f : VR) (s : State) : Out := vecFp2 false f (fun _ t _ a b => fMinMax t true true a b) s
/-- VFABS (R105). -/
def execVfabs (f : VR) (s : State) : Out := vecFp1 (f.okFp false false false) f (fun _ t a => ⟨fAbs t a, 0⟩) s
/-- VFNEG (R105). -/
def execVfneg (f : VR) (s : State) : Out := vecFp1 (f.okFp false false false) f (fun _ t a => ⟨negate t a, 0⟩) s
/-- VFCPS (R105). -/
def execVfcps (f : VR) (s : State) : Out :=
  vecFp (f.okFp false true false) f [useA f f.wide, useB f f.wide] (fun _ t a b _ => ⟨fCps t a b, 0⟩) s
/-- VFRND (R105): RM = 0b11 takes the mode from X. -/
def execVfrnd (f : VR) (s : State) : Out :=
  vecFp1 f.okRnd f
    (fun fpcr t a => fIntegral t (rndOf fpcr f.rm (.ofBits (f.x.extractLsb' 0 2))) (flushIn fpcr t a)) s
/-- VFDIV (R105). -/
def execVfdiv (f : VR) (s : State) : Out := vecFp2 true f fDiv s
/-- VFSQRT (R105). -/
def execVfsqrt (f : VR) (s : State) : Out :=
  vecFp1 (f.okFp true false false) f (fun fpcr t a => fSqrt fpcr t (rmMode f fpcr) (flushIn fpcr t a)) s
/-- VFCLASS (R105): under `.d` the class goes to v(D) and zero to v(D+1). -/
def execVfclass (f : VR) (s : State) : Out :=
  vecFp1 (f.okFp false false false) f (fun _ t a => ⟨fClass t a, 0⟩) s

/-- VFCMP (R104). -/
def execVfcmp (f : VR) (s : State) : Out :=
  let t := fmtOf f.t
  let val (x : DWord) : Nat := if f.wide then x.toNat else (loHalf x).toNat
  vecCompare (f.okCmp [3, 6] 7) f
    (fun a b => fCond t f.x.toNat (flushIn s.grp.fpcr t (val a)) (flushIn s.grp.fpcr t (val b))) s

/-! ### Special functions (R106) -/

/-- A special function over the active lanes. -/
def vecSpecial (fn : Special) (f : VR) (s : State) : Out :=
  vecFp f.okSpecial f [useA f false] (fun fpcr _ a _ _ => fSpecial fpcr fn a) s

/-- VRCP (R106). -/
def execVrcp (f : VR) (s : State) : Out := vecSpecial .rcp f s
/-- VRSQ (R106). -/
def execVrsq (f : VR) (s : State) : Out := vecSpecial .rsq f s
/-- VEXP2 (R106). -/
def execVexp2 (f : VR) (s : State) : Out := vecSpecial .exp2 f s
/-- VLOG2 (R106). -/
def execVlog2 (f : VR) (s : State) : Out := vecSpecial .log2 f s
/-- VSINPI (R106). -/
def execVsinpi (f : VR) (s : State) : Out := vecSpecial .sinpi f s
/-- VCOSPI (R106). -/
def execVcospi (f : VR) (s : State) : Out := vecSpecial .cospi f s
/-- VTANH (R106). -/
def execVtanh (f : VR) (s : State) : Out := vecSpecial .tanh f s

end Sys2Proof.Machine
end

