-- ==== Sys2Proof/Machine/Lane.lean ====
section
/-! DEFINITION. Lane, conversion and generator instructions (05_vector.md R107, 06_narrow_formats.md R117 to R126). -/

namespace Sys2Proof.Machine

open Sys2Proof

/-! ### Lane instructions (R107) -/

/-- A lane-wise move of bits into the lanes of a set. -/
def vecMove (ok : Bool) (f : VR) (us : List Use) (m : Group → LaneSet) (val : Group → Opnds → Nat → DWord) (s : State) :
    Out :=
  finish 1 (s.runVR (ok && s.grp.tripOk f.m && s.grp.dstOk f f.wide) true (s.grp.dstLive f f.wide) f.t us
    (fun o g => g.writeLanes f.d.toNat f.wide (m g) (fun l => ⟨val g o l, 0⟩)))

/-- VMOV (R107). -/
def execVmov (f : VR) (s : State) : Out :=
  vecMove (f.okMov false) f [useA f f.wide] (fun g => g.mask f.m) (fun _ o l => o.a[l]?.getD 0) s

/-- VSEL (R107): every live lane is written; the mask selects. -/
def execVsel (f : VR) (s : State) : Out :=
  vecMove (f.okMov true) f [useA f f.wide, useB f f.wide] (fun g => g.live)
    (fun g o l => if (g.mask f.m).getLsbD l then o.a[l]?.getD 0 else o.b[l]?.getD 0) s

/-- A lane of a vector operand by an index that must name a live lane, else 0 (R107). -/
def Group.pickLane (g : Group) (v : LaneVals) (i : Nat) : DWord := if g.live.getLsbD i then v[i]?.getD 0 else 0

/-- VBCST (R107). -/
def execVbcst (f : VR) (s : State) : Out :=
  vecMove f.okBcst f [useA f f.wide, useB f false] (fun g => g.mask f.m)
    (fun g o _ => g.pickLane o.a (o.b.word 0).toNat) s

/-- VIDX (R107). -/
def execVidx (f : VR) (s : State) : Out :=
  vecMove f.okIdx f [useA f false] (fun g => g.mask f.m)
    (fun _ o l => (BitVec.ofNat 32 l + o.a.word l).setWidth 64) s

/-- VGET (R107): em is ignored. -/
def execVget (f : VR) (s : State) : Out :=
  finish 1 (s.runVR (f.okGet && s.grp.scalOk (f.d.setWidth 6)) true (s.grp.liveIn (f.d.setWidth 6)) f.t
    [useA f false, useB f false]
    (fun o g => g.ws (f.d.setWidth 6) (loHalf (g.pickLane o.a (o.b.word 0).toNat))))

/-- VPUT (R107): em is ignored. -/
def execVput (f : VR) (s : State) : Out :=
  finish 1 (s.runVR (f.okPut && s.grp.dstOk f false) true (s.grp.dstLive f false) f.t [useA f false, useB f false]
    (fun o g =>
      let i := (o.b.word 0).toNat
      if g.live.getLsbD i then g.wvm f.d.toNat (BitVec.ofNat 96 (2 ^ i)) (Vector.replicate 96 (o.a.word 0)) else g))

/-! ### Conversions (R120 to R125) -/

/-- A conversion: how wide its operands and its destination are differs from the type's own width. -/
def vecConv (ok fmt : Bool) (f : VR) (us : List Use) (dwide : Bool) (op : Word → Opnds → Nat → LaneRes) (s : State) : Out :=
  finish 1 (s.runVR (ok && s.grp.tripOk f.m && s.grp.dstOk f dwide) fmt (s.grp.dstLive f dwide) f.t us
    (fun o g => g.writeLanes f.d.toNat dwide (g.mask f.m) (fun l => op g.fpcr o l)))

/-- A result of a computation as a lane. -/
def FRes.lane (r : FRes) : LaneRes := ⟨BitVec.ofNat 64 r.bits, r.flags⟩

/-- VCVTF (R120): X[2:0] is the source type; the rows of its table. -/
def execVcvtf (f : VR) (s : State) : Out :=
  let u : Fmt := fmtOf (f.x.extractLsb' 0 3)
  let t : Fmt := fmtOf f.t
  let swide := decide (f.x.extractLsb' 0 3 = 6)
  let conv (fpcr : Word) (x : Nat) : FRes := fConvert fpcr u t (rmMode f fpcr) (flushIn fpcr u x)
  let packed := decide (f.t = 4) || decide (f.t = 5)
  vecConv f.okCvtf true f (if packed then [useA f false, useB f false] else [useA f swide]) f.wide
    (fun fpcr o l =>
      if packed then
        let r0 := conv fpcr (o.a.word l).toNat
        let r1 := conv fpcr (o.b.word l).toNat
        ⟨BitVec.ofNat 64 (r0.bits + 65536 * r1.bits), r0.flags ||| r1.flags⟩
      else if swide then (conv fpcr (o.a[l]?.getD 0).toNat).lane
      else if u = .f32 then (conv fpcr (o.a.word l).toNat).lane
      else (conv fpcr (elem 16 (o.a.word l) (if f.x.getLsbD 3 then 1 else 0))).lane) s

/-- VF2I (R121). -/
def execVf2i (f : VR) (s : State) : Out :=
  let t := fmtOf f.t
  let lo : Int := if f.x.getLsbD 0 then 0 else -(2 ^ 31)
  let hi : Int := if f.x.getLsbD 0 then 2 ^ 32 - 1 else 2 ^ 31 - 1
  vecConv (f.okF2i true) true f [useA f f.wide] false
    (fun fpcr o l =>
      let x := if f.wide then (o.a[l]?.getD 0).toNat else (o.a.word l).toNat
      let r := fToInt t (rmMode f fpcr) lo hi (flushIn fpcr t x)
      ⟨(BitVec.ofInt 32 r.1).setWidth 64, r.2⟩) s

/-- VI2F (R121). -/
def execVi2f (f : VR) (s : State) : Out :=
  vecConv (f.okF2i false) true f [useA f false] f.wide
    (fun fpcr o l =>
      let x := o.a.word l
      let n : Int := if f.x.getLsbD 0 then (x.toNat : Int) else x.toInt
      (roundFlush fpcr (fmtOf f.t) (rmMode f fpcr) (Exact.ofInt n 0)).lane) s

/-- The record of five bits is well-formed (R109). -/
def recOk (x : BitVec 5) : Bool := decide (x.extractLsb' 0 3 ≠ 0)

/-- One draw of the lane generator (R117). -/
def drawNext (x0 : Word) : Word :=
  let x1 := x0 ^^^ (x0 <<< 13)
  let x2 := x1 ^^^ (x1 >>> 17)
  x2 ^^^ (x2 <<< 5)

/-- The generator after a draw in each lane of a set (R116, R117). -/
def Group.draw (g : Group) (m : LaneSet) : Group := { g with gen := mergeLanes m g.gen (g.gen.map drawNext) }

/-- VCVT8 (R122): a stochastic conversion draws once in every active lane. -/
def execVcvt8 (f : VR) (s : State) : Out :=
  finish 1 (s.runVR (f.okCvt8 && s.grp.tripOk f.m && s.grp.dstOk f false) (recOk f.x) (s.grp.dstLive f false) f.t
    [useA f false]
    (fun o g =>
      let m := g.mask f.m
      let g1 := if f.rm = 3 then g.draw m else g
      let mode (l : Nat) : Mode8 := if f.rm = 3 then .stoch (g1.gen[l]?.getD 0) else .mode (rmMode f g.fpcr)
      g1.writeLanes f.d.toNat false m (fun l =>
        (cvt8 (Rec8.ofBits f.x) (mode l) f.sat (flushIn g.fpcr .f32 (o.a.word l).toNat)).lane)))

/-- A binary8 value in FP32, exact, then Flush; NaN is canonical and sets no flag (R123). -/
def ext8 (fpcr : Word) (r : Rec8) (c : Nat) : FRes :=
  match dec8 r c with
  | .nan => ⟨Fmt.f32.canon, 0⟩
  | .inf neg => infOf .f32 neg
  | .fin x => roundFlush fpcr .f32 .rne x

/-- VEXT8 (R123). -/
def execVext8 (f : VR) (s : State) : Out :=
  vecConv f.okExt8 (recOk f.x) f [useA f false] false
    (fun fpcr o l => (ext8 fpcr (Rec8.ofBits f.x) (elem 8 (o.a.word l) 0)).lane) s

/-- VSCALE (R124). -/
def execVscale (f : VR) (s : State) : Out :=
  vecConv (f.okScale 0) true f [useA f false, useB f false] false
    (fun fpcr o l =>
      (fScale fpcr .f32 (rmMode f fpcr) (flushIn fpcr .f32 (o.a.word l).toNat) (o.b.word l).toInt).lane) s

/-- The scale byte of `derive` (R124). -/
def deriveScale (fpcr : Word) (a b : Word) : FRes :=
  let v := fval .f32 (flushIn fpcr .f32 a.toNat)
  match v with
  | .fin x =>
    if x.n = 0 then ⟨0, 0⟩ else ⟨(clampInt (x.log2 - b.toInt + 127) 0 254).toNat, 0⟩
  | _ => ⟨0xFF, flagSN ||| flagIf v.isSig flagIV⟩

/-- VBSCL (R113, R124). -/
def execVbscl (f : VR) (s : State) : Out :=
  vecConv (f.okScale 2) true f [useA f false, useB f false] false
    (fun fpcr o l =>
      if f.x = 2 then (deriveScale fpcr (o.a.word l) (o.b.word l)).lane
      else
        let e := elem 8 (o.b.word l) 0
        if e = 0xFF then (⟨Fmt.f32.canon, flagSN ||| flagIV⟩ : FRes).lane
        else
          (fScale fpcr .f32 (rmMode f fpcr) (flushIn fpcr .f32 (o.a.word l).toNat)
            ((if f.x = 0 then (e : Int) else 254 - e) - 127)).lane) s

/-- VPK8 (R125): it reads its destination. -/
def execVpk8 (f : VR) (s : State) : Out :=
  vecMove (f.okPack 0) f [useA f false] (fun g => g.mask f.m)
    (fun g o l => ((g.rvl f.d.toNat l >>> 8) ||| ((o.a.word l &&& 0xFF) <<< 24)).setWidth 64) s

/-- VUPK8 (R125). -/
def execVupk8 (f : VR) (s : State) : Out :=
  vecMove (f.okPack 7) f [useA f false] (fun g => g.mask f.m)
    (fun _ o l =>
      let y : BitVec 8 := BitVec.ofNat 8 (elem 8 (o.a.word l) (f.x.extractLsb' 0 2).toNat)
      ((if f.x.getLsbD 2 then y.signExtend 32 else y.setWidth 32) : Word).setWidth 64) s

/-! ### The generator (R126) -/

/-- VRNGS (R126): seeds the generator of the active lanes. -/
def execVrngs (f : VR) (s : State) : Out :=
  finish 1 (s.runVR (f.okRngs && s.grp.tripOk f.m) true false f.t [useA f false]
    (fun o g =>
      let seed : Lanes := Vector.ofFn (fun l =>
        let x := o.a.word l.val ^^^ BitVec.ofNat 32 (l.val * 0x00010001)
        if x = 0 then 1 else x)
      { g with gen := mergeLanes (g.mask f.m) g.gen seed }))

/-- VRNG (R126). -/
def execVrng (f : VR) (s : State) : Out :=
  finish 1 (s.runVR (f.okRng && s.grp.tripOk f.m && s.grp.dstOk f false) true (s.grp.dstLive f false) f.t []
    (fun _ g =>
      let g1 := g.draw (g.mask f.m)
      g1.wvm f.d.toNat (g.mask f.m) g1.gen))

end Sys2Proof.Machine
end

