-- ==== Sys2Proof/Machine/Access.lean ====
section
/-! DEFINITION. Scalar and vector memory, streams, caches and fences, and ordered channels (07_memory_access.md R144 to
R156). -/

namespace Sys2Proof.Machine

open Sys2Proof

/-! ### Scalar memory (R144) -/

/-- The group may name what a scalar memory word names; a pair under SZ 0b101. -/
def Group.smOk (g : Group) (f : SM) : Bool :=
  g.pairOk f.a && (if f.sz = 5 then g.pairOk f.d else g.scalOk f.d)

/-- The effective address of a scalar memory word (R140). -/
def Group.smAddr (g : Group) (f : SM) : DWord := g.rp f.a + f.ofs.signExtend 64

/-- The fitting of R133: a private space that MDEF gives to a scalar access raises PROT. -/
def State.fitScalar (s : State) (e : Eff) (a : DWord) : Run Unit :=
  if !e.spaceSet && e.space = 4 then .error (.trap { cause := .prot, trapa := some a } s) else .ok ()

/-- The keys of a scalar access after its checks (R141). -/
def State.scalarKeys (s : State) (e : Eff) (nd : Need) (a : DWord) (n : Nat) : Run (List Nat) := do
  s.fitScalar e a
  let ps ← s.accessAll e.space n (fun x => s.place none e.space nd x.addr n) [⟨0, a⟩]
  return ps.flatMap (·.2)

/-- s[D], or pair D under SZ 0b101, := the value loaded. -/
def Group.putLoad (g : Group) (f : SM) (y : Nat) : Group :=
  if f.sz = 5 then g.wp f.d (BitVec.ofNat 64 y) else g.ws f.d (loHalf (extendLoad f.sz y))

/-- SLD (R144). -/
def execSld (p : Option Pfx) (f : SM) (s : State) : Out :=
  finish (pfxLen p) (do
    s.need ((Instr.sld p f).wf && s.grp.smOk f) .illegal
    s.need (!(if f.sz = 5 then s.grp.liveInPair f.d else s.grp.liveIn f.d)) .rgnw
    let e := s.grp.eff p
    let ord := fitLoad e.ord
    let ks ← s.scalarKeys e .read (s.grp.smAddr f) (sizeOf f.sz)
    let how := readHow ord e.scope e.cp
    s.awaitRemote how e.cp ks
    let y := s.loadNat how ks
    let t := s.walked e.space [⟨0, s.grp.smAddr f⟩]
    return .done (((t.sawBeyond s.grp.coreNo how e.cp ks).acquireIf ord e.scope).onGrp (fun g => g.putLoad f y)))

/-- A prefix with CHAN inside an open region (R258). -/
def Group.chanRefused (g : Group) (e : Eff) : Bool := g.inRegion && e.chanSet

/-- A store's place: in a region no HOST page and no remote window (R255). -/
def State.storePlace (s : State) (lane : Option Nat) (space : Nat) (a : DWord) (n : Nat) : Place :=
  let p := s.place lane space .write a n
  if s.grp.inRegion then p.local? else p

/-- SST (R144). -/
def execSst (p : Option Pfx) (f : SM) (s : State) : Out :=
  finish (pfxLen p) (do
    let e := s.grp.eff p
    s.need ((Instr.sst p f).wf && s.grp.smOk f && !s.grp.chanRefused e) .illegal
    let n := sizeOf f.sz
    let a := s.grp.smAddr f
    s.fitScalar e a
    let ps ← s.accessAll e.space n (fun x => s.storePlace none e.space x.addr n) [⟨0, a⟩]
    let chan := s.chanOf e
    (s.walked e.space [⟨0, a⟩]).checkChannel chan e.space [⟨0, a⟩] ps
    let x : Nat := if f.sz = 5 then (s.grp.rp f.d).toNat else (s.grp.rs f.d).toNat
    let t ← (s.walked e.space [⟨0, a⟩]).storeAll (fitStore e.ord) e.scope e.cp chan (ps.flatMap (fun q => cellsOf q.2 x))
    return .done t)

/-! ### Vector memory (R145) -/

/-- The group may name what a vector memory word names. -/
def Group.vmOk (g : Group) (f : VM) : Bool :=
  g.pairOk f.sb && g.tripOk f.m && (f.noIndex || g.hasVec f.vi.toNat)

/-- The data register of a word, and its pair when `wide`, are in the allocation. -/
def Group.vmDataOk (g : Group) (f : VM) (wide : Bool) : Bool :=
  g.hasVec f.v.toNat && (!wide || g.hasVec (f.v.toNat + 1))

/-- The term that a lane's index adds (R140). -/
def Group.indexTerm (g : Group) (f : VM) (l : Nat) : DWord :=
  if f.noIndex then 0 else (g.rvl f.vi.toNat l).signExtend 64 <<< f.sc.toNat

/-- EA(l) of R140 with the offset sign-extended from `ofs`. -/
def Group.vmAddr (g : Group) (f : VM) (ofs : DWord) (l : Nat) : DWord := g.rp f.sb + g.indexTerm f l + ofs

/-- The lanes' addresses of VLD and VST, and of VLDB and VSTB (`block`, with no lane term in private space). -/
def Group.vmAccesses (g : Group) (f : VM) (block : Bool) (space n : Nat) : List Access :=
  (lanesOf (g.mask f.m)).map (fun l =>
    ⟨l, g.vmAddr f (f.ofs.signExtend 64) l + (if block && space ≠ 4 then BitVec.ofNat 64 (n * l) else 0)⟩)

/-- A vector load; in private memory order and scope have no effect (R130). -/
def vecLoad (ok block : Bool) (p : Option Pfx) (f : VM) (s : State) : Out :=
  finish (pfxLen p) (do
    let wide := decide (f.sz = 5)
    s.need (ok && s.grp.vmOk f && s.grp.vmDataOk f wide) .illegal
    s.need (!(s.grp.liveInVec f.v.toNat || (wide && s.grp.liveInVec (f.v.toNat + 1)))) .rgnw
    let e := s.grp.eff p
    let ord := if e.space = 4 then 1 else fitLoad e.ord
    let n := sizeOf f.sz
    let xs := s.grp.vmAccesses f block e.space n
    let ps ← s.accessAll e.space n (fun x => s.place (some x.lane) e.space .read x.addr n) xs
    let how := readHow ord e.scope e.cp
    s.awaitRemote how e.cp (ps.flatMap (·.2))
    let val (l : Nat) : LaneRes :=
      match ps.find? (fun q => q.1 = l) with
      | some q => ⟨extendLoad f.sz (s.loadNat how q.2), 0⟩
      | none => ⟨0, 0⟩
    return .done ((((s.walked e.space xs).sawBeyond s.grp.coreNo how e.cp (ps.flatMap (·.2))).acquireIf ord e.scope).onGrp
      (fun g => g.writeLanes f.v.toNat wide (g.mask f.m) val)))

/-- A vector store: lanes in ascending order, so that the highest supplies a shared byte (R142). -/
def vecStore (ok block : Bool) (p : Option Pfx) (f : VM) (s : State) : Out :=
  finish (pfxLen p) (do
    let wide := decide (f.sz = 5)
    let e := s.grp.eff p
    s.need (ok && s.grp.vmOk f && s.grp.vmDataOk f wide && !s.grp.chanRefused e) .illegal
    let n := sizeOf f.sz
    let xs := s.grp.vmAccesses f block e.space n
    let ps ← s.accessAll e.space n (fun x => s.storePlace (some x.lane) e.space x.addr n) xs
    let chan := s.chanOf e
    (s.walked e.space xs).checkChannel chan e.space xs ps
    let val (l : Nat) : Nat :=
      (s.grp.rvl f.v.toNat l).toNat + (if wide then (s.grp.rvl (f.v.toNat + 1) l).toNat * 2 ^ 32 else 0)
    let ord := if e.space = 4 then 1 else fitStore e.ord
    let t ← (s.walked e.space xs).storeAll ord e.scope e.cp chan (ps.flatMap (fun q => cellsOf q.2 (val q.1)))
    return .done t)

/-- VLD (R145). -/
def execVld (p : Option Pfx) (f : VM) (s : State) : Out := vecLoad (Instr.vld p f).wf false p f s
/-- VST (R145). -/
def execVst (p : Option Pfx) (f : VM) (s : State) : Out := vecStore (Instr.vst p f).wf false p f s
/-- VLDB (R145). -/
def execVldb (p : Option Pfx) (f : VM) (s : State) : Out := vecLoad (Instr.vldb p f).wf true p f s
/-- VSTB (R145). -/
def execVstb (p : Option Pfx) (f : VM) (s : State) : Out := vecStore (Instr.vstb p f).wf true p f s

/-! ### Streams (R146 to R150) -/

/-- Change a stream of the group. -/
def Group.setStream (g : Group) (z : Nat) (x : Stream) : Group := { g with zreg := g.zreg.setIfInBounds z x }

/-- The stream that IMM16[2:0] names. -/
def zOf (f : EX) : Nat := f.imm.toNat % 8

/-- A 32-bit field of a record of bytes. -/
def wordAt (b : List Byte) (o : Nat) : Word := BitVec.ofNat 32 (bytesNat ((b.drop o).take 4))
/-- A 64-bit field of a record of bytes. -/
def dwordAt (b : List Byte) (o : Nat) : DWord := BitVec.ofNat 64 (bytesNat ((b.drop o).take 8))
/-- A byte of a record. -/
def byteAt (b : List Byte) (o : Nat) : Byte := b[o]?.getD 0
/-- A field of `n` bytes as a number. -/
def natAt (b : List Byte) (o n : Nat) : Nat := bytesNat ((b.drop o).take n)

/-- The stream of a descriptor (R147). -/
def Stream.ofBytes (b : List Byte) : Stream :=
  let h := wordAt b 8
  { base := dwordAt b 0
    esz := h.extractLsb' 0 2
    space := h.extractLsb' 2 3
    cp := h.extractLsb' 5 3
    home := h.extractLsb' 8 2
    stride := Vector.ofFn (fun k => wordAt b (16 + 8 * k.val))
    extent := Vector.ofFn (fun k => wordAt b (20 + 8 * k.val))
    cursor := 0
    fin := false }

/-- ILLEGAL of R147: reserved bits, SPACE, CP or HOME. -/
def streamBad (b : List Byte) : Bool :=
  let h := wordAt b 8
  decide (h.extractLsb' 10 22 ≠ 0) || decide (wordAt b 12 ≠ 0) || decide (dwordAt b 56 ≠ 0) ||
  !([1, 2, 3, 5].contains (h.extractLsb' 2 3).toNat) || decide (6 ≤ (h.extractLsb' 5 3).toNat) ||
  decide (h.extractLsb' 8 2 = 3)

/-- The keys of a 64-byte record in global memory that is read relaxed at group scope, with the checks of a load (R150). -/
def State.readRecord (s : State) (a : DWord) : Run (List Nat) := do
  let ps ← s.accessAll 1 64 (fun x => s.place none 1 .read x.addr 64) [⟨0, a⟩]
  let ks := ps.flatMap (·.2)
  s.awaitRemote .l1 1 ks
  return ks

/-- ZSET (R147, R150). -/
def execZset (f : EX) (s : State) : Out :=
  finish 1 (do
    s.need (f.okZset && s.grp.pairOk f.a) .illegal
    let a := s.grp.rp f.a
    let ks ← s.readRecord a
    let b := ks.map (s.loadByte .l1)
    let t := (s.walked 1 [⟨0, a⟩]).sawBeyond s.grp.coreNo .l1 1 ks
    t.chk (needAt (!streamBad b) .illegal a)
    let z := Stream.ofBytes b
    t.need (decide (z.base.toNat % 2 ^ z.esz.toNat = 0)) .misalign
    return .done (t.onGrp (fun g => g.setStream (zOf f) z)))

/-- ZSETS (R150). -/
def execZsets (f : EX) (s : State) : Out :=
  finish 1 (do
    s.need (f.okZsets && s.grp.pairOk f.a && s.grp.scalOk f.b) .illegal
    let z : Stream :=
      { base := s.grp.rp f.a, esz := f.sub.extractLsb' 0 2, space := 1, cp := 1, home := 0,
        stride := Vector.ofFn (fun k => if k.val = 0 then 1 else 0),
        extent := Vector.ofFn (fun k => if k.val = 0 then s.grp.rs f.b else 1), cursor := 0, fin := false }
    return .done (s.onGrp (fun g => g.setStream (zOf f) z)))

/-- The stream of the group by number. -/
def Group.streamAt (g : Group) (z : Nat) : Stream := g.zreg[z]?.getD Stream.initial

/-- ZREW (R150). -/
def execZrew (f : EX) (s : State) : Out :=
  finish 1 (do
    s.need f.okZrew .illegal
    return .done (s.onGrp (fun g => g.setStream (zOf f) { g.streamAt (zOf f) with cursor := 0, fin := false })))

/-- ZPOS, reading the cursor (R150). -/
def execZposRead (f : EX) (s : State) : Out :=
  finish 1 (s.toPair f.okZposRead f.d (s.grp.streamAt (zOf f)).cursor)

/-- ZPOS, setting the cursor (R150). -/
def execZposSet (f : EX) (s : State) : Out :=
  finish 1 (do
    s.need (f.okZposSet && s.grp.pairOk f.a) .illegal
    let c := BitVec.ofNat 64 (min (s.grp.rp f.a).toNat (2 ^ 63))
    return .done (s.onGrp (fun g => g.setStream (zOf f) { g.streamAt (zOf f) with cursor := c, fin := false })))

/-- ZPOS, reading the end flag (R150). -/
def execZposEnd (f : EX) (s : State) : Out :=
  finish 1 (s.toScalar f.okZposEnd f.d (boolWord (s.grp.streamAt (zOf f)).fin))

/-! ### Caches and fences (R153, R154) -/

/-- FENCE (R153): a relaxed order acts as acq-rel (R133). -/
def execFence (p : Option Pfx) (f : VM) (s : State) : Out :=
  finish (pfxLen p) (do
    s.need (Instr.fence p f).wf .illegal
    let e := s.grp.eff p
    let ord := if e.ord = 1 then 4 else e.ord
    let s1 ← s.releaseIf ord e.scope
    return .done (if acquires ord then s1.acquireAt s1.grp.coreNo e.scope else s1))

/-- The lines that a cache instruction acts on: the one of EA, or one for each active lane (R154). -/
def Group.lineAccesses (g : Group) (f : VM) : List Access :=
  if f.noIndex then [⟨0, g.vmAddr f (f.ofs.signExtend 64) 0⟩]
  else (lanesOf (g.mask f.m)).map (fun l => ⟨l, g.vmAddr f (f.ofs.signExtend 64) l⟩)

/-- The line's dirty bytes are written back and performed at a scope (R154, R159). -/
def State.writeBackAt (s : State) (scope line : Nat) : State :=
  let s1 := s.cleanLine s.grp.coreNo line
  let c := s1.grp.id.cluster
  let s2 : State := { s1 with
    l2 := s1.l2.filter (fun l =>
      !(l.line = line && l.cluster ≠ c && (decide (5 ≤ scope) ||
        (decide (scope = 4) && decide (dieOfCluster l.cluster = dieOfCluster c))))) }
  if scope = 6 then
    (s2.flushHostOf (fun k => lineOf k = line)).sendRemoteWrites (s2.remoteDirty.filter (fun x => lineOf x.1 = line))
  else s2

/-- Waiting release stores to some lines are performed first (R154, R157). -/
def State.beforeLines (s : State) (lines : List Nat) : Run State :=
  if s.grp.relq.any (fun r => r.cells.any (fun c => lines.contains (lineOf c.1))) then s.settleStores else .ok s

/-- CWB and CINV: the address is checked like a load's, but for its alignment; scratch and window addresses are left
alone. -/
def cacheLine (ok leave : Bool) (p : Option Pfx) (f : VM) (s : State) : Out :=
  finish (pfxLen p) (do
    s.need (ok && s.grp.vmOk f) .illegal
    let e := s.grp.eff p
    if e.space = 2 || e.space = 3 then return .done s
    else
      let ps ← s.placeAll e.space (fun x => s.place (if f.noIndex then none else some x.lane) e.space .read x.addr 1)
        (s.grp.lineAccesses f)
      let lines := ((ps.flatMap (·.2)).map lineOf).eraseDups
      let s0 ← (s.walked e.space (s.grp.lineAccesses f)).beforeLines lines
      let s1 := lines.foldl (fun t n => t.writeBackAt e.scope n) s0
      return .done (if leave then lines.foldl (fun t n => t.evictL1 t.grp.coreNo n) s1 else s1))

/-- CWB (R154). -/
def execCwb (p : Option Pfx) (f : VM) (s : State) : Out := cacheLine (Instr.cwb p f).wf false p f s
/-- CINV (R154). -/
def execCinv (p : Option Pfx) (f : VM) (s : State) : Out := cacheLine (Instr.cinv p f).wf true p f s

/-- A line comes into the L2 of a core's cluster for an agent, and into the core's L1, at the priority of its CP in both (R134, R137,
R349). -/
def State.fetchLine (s : State) (fn pasid core cls prio line : Nat) (intoL1 : Bool) : State :=
  let t := (s.readHost fn pasid (clusterOfCore core) false [line]).fillL2 (clusterOfCore core) line cls prio
  if intoL1 then t.fillL1 core line ⟨fn, cls, prioCp prio⟩ else t

/-- A line is prefetched for the issuing group (R154): one of a remote window that L2 lacks is asked for (R352). -/
def State.prefLine (s : State) (prio : Nat) (intoL1 : Bool) (line : Nat) : State :=
  let key := 128 * line
  if keyKind key = 5 && (s.l2Line s.grp.id.cluster line).isNone then
    if s.remote.any (fun r => decide (r.pref = some (s.grp.coreNo, intoL1)) && decide (r.dev = keyNum key) && decide (r.raddr = keyOff key)) then s
    else s.request s.grp.origin none (some (s.grp.coreNo, intoL1)) (some prio) (keyNum key) (keyOff key) none
  else s.fetchLine s.grp.id.fn s.grp.id.pasid s.grp.coreNo s.grp.id.cls prio line intoL1

/-- The line of an address is prefetched for the issuing group: an address that would fail is dropped, and one whose HOST page the
host has not translated yet waits for the answer beside the group (R154, R326). -/
def State.prefetch (s : State) (prio : Nat) (intoL1 : Bool) (a : DWord) : Place → State
  | .keys ks => (ks.map lineOf).foldl (fun t n => t.prefLine prio intoL1 n) s
  | .host v =>
    ({ s with prefs := ⟨s.grp.id.fn, s.grp.id.pasid, s.grp.id.ctx, a, s.grp.coreNo, intoL1, s.grp.id.cls, prio⟩ :: s.prefs } :
      State).askHost s.grp.who.fn s.grp.who.pasid v
  | _ => s

/-- The prefetches that waited for the host's answers: those whose page is translated are made, those whose page is refused are
dropped (R154, R326). -/
def State.servePrefs (s : State) : List Pref → State
  | [] => s
  | p :: ps =>
    let w : Who := ⟨p.fn, p.pasid, p.ctx⟩
    let t :=
      match s.translate w p.va .read with
      | .at_ k => s.fetchLine p.fn p.pasid p.core p.cls p.prio (lineOf k) p.intoL1
      | .host v => if (s.atsFor p.fn p.pasid v).any (fun q => !q.failed) then { s with prefs := p :: s.prefs } else s
      | _ => s
    State.servePrefs t ps

/-- The prefetches that wait for the host are looked at again. -/
def State.servePrefsNow (s : State) : State := ({ s with prefs := [] } : State).servePrefs s.prefs

/-- PREF (R154): L1 is filled unless CP bypasses it or L2 is not allocated. -/
def execPref (p : Option Pfx) (f : VM) (s : State) : Out :=
  finish (pfxLen p) (do
    s.need ((Instr.pref p f).wf && s.grp.vmOk f) .illegal
    let e := s.grp.eff p
    return .done ((s.grp.lineAccesses f).foldl (fun t x =>
      t.prefetch (cpPrio e.cp) (!(e.cp = 3 || e.cp = 4)) x.addr
        (s.place (if f.noIndex then none else some x.lane) e.space .read x.addr 1)) (s.walked e.space (s.grp.lineAccesses f))))

/-! ### Ordered channels (R155, R156) -/

/-- Change the issuing group's team instance. -/
def State.onInst (s : State) (h : Inst → Inst) : State :=
  { s with
    bands := s.bands.map (fun b =>
      if b.uid = s.grp.id.band then
        { b with insts := b.insts.map (fun i => if i.k = s.grp.id.inst then h i else i) }
      else b) }

/-- The die to which channel `n` of the issuing group's team is open. -/
def State.channelDie (s : State) (n : Nat) : Option Nat := s.myInst.bind (fun i => i.chans[n]?.getD none)

/-- CHOPEN (R156): a closed channel opens to a die that is present. -/
def execChopen (f : EX) (s : State) : Out :=
  finish 1 (do
    s.need (f.okChan true && !s.grp.inRegion) .illegal
    let n := f.imm.toNat % 32
    let d := f.imm.toNat / 256 % 2
    match s.channelDie n with
    | some e =>
      s.need (decide (e = d)) .chfault
      return .done s
    | none =>
      s.need (s.built.dies.getLsbD d) .chfault
      return .done (s.onInst (fun i => { i with chans := i.chans.setIfInBounds n (some d) })))

/-- No store of the group on the channel waits to be performed at device scope. -/
def Group.channelClear (g : Group) (n : Nat) : Bool :=
  g.chanOpen.all (fun c => c.1 ≠ n) && g.relq.all (fun r => r.chan ≠ n)

/-- CHWAIT (R156). -/
def execChwait (f : EX) (s : State) : Out :=
  finish 1 (do
    s.need (f.okChan false) .illegal
    let n := f.imm.toNat % 32
    if (s.channelDie n).isNone || s.grp.channelClear n then return .done s else return .wait (.channel n false) s)

/-- The channel is closed for the team. -/
def State.closeChannel (s : State) (n : Nat) : State :=
  s.onInst (fun i => { i with chans := i.chans.setIfInBounds n none })

/-- CHCLOSE (R156). -/
def execChclose (f : EX) (s : State) : Out :=
  finish 1 (do
    s.need (f.okChan false && !s.grp.inRegion) .illegal
    let n := f.imm.toNat % 32
    if (s.channelDie n).isNone then return .done s
    else if s.grp.channelClear n then return .done (s.closeChannel n)
    else return .wait (.channel n true) s)

/-! ### Events that concern one group -/

/-- An event row that concerns the group its argument names; that group becomes the one in `grp`. -/
def withGroup (row : String) (s : State) (k : State → Out) : Out :=
  match s.ev with
  | .group uid =>
    match s.focus uid with
    | none => .fault (.noSuchGroup uid)
    | some t => k t
  | _ => .refused (.notEnabled row)

/-- CHANNEL_DRAINED (R156): the stores waited on are performed at device scope, a release store among them after its release (R161),
and CHWAIT or CHCLOSE completes. -/
def execChannelDrained (s : State) : Out :=
  withGroup "CHANNEL_DRAINED" s (fun t =>
    match t.grp.waiting? with
    | some (.channel n close) =>
      let ended (u : State) : Out :=
        let v := u.drainChannel n
        settle 1 (.done (if close then v.closeChannel n else v))
      if t.grp.relq.any (fun r => r.chan = n) then t.settleFirst "CHANNEL_DRAINED" false ended else ended t
    | _ => .refused (.notEnabled "CHANNEL_DRAINED"))

end Sys2Proof.Machine
end

