-- ==== Sys2Proof/Machine/Atomics.lean ====
section
/-! DEFINITION. Atomics and exact sums (09_synchronisation.md R170 to R175, R188). -/

namespace Sys2Proof.Machine

open Sys2Proof

/-! ### The operations of R172 -/

/-- The value that operation `op` of R172 writes over `old`, both of `bits` bits, with operands x and, for `cas`, e. -/
def atomNew (bits op old x e : Nat) : Nat :=
  match op with
  | 0 => (old + x) % 2 ^ bits
  | 1 => if signedOf bits x < signedOf bits old then x else old
  | 2 => if signedOf bits old < signedOf bits x then x else old
  | 3 => min old x
  | 4 => max old x
  | 5 => old &&& x
  | 6 => old ||| x
  | 7 => old ^^^ x
  | 8 => x
  | _ => if old = e then x else old

/-- One atomic at its point (R170): the bytes at a key, with the line held exclusively; a progress event (R283). -/
def State.atomically (s : State) (key n : Nat) (f : Nat → Nat) : State × Nat :=
  let s1 := s.takeExclusive s.grp.coreNo key
  let old := bytesNat (s1.readCoherent key n)
  (((s1.writeCoherent key (natBytes n (f old))).mscKeep s.grp.id.fn (lineOf key)).onGrp Group.progressed, old)

/-- The place of an atomic's bytes: the write right (R323), and no private memory, HOST page or remote window (R170). A private space
that MDEF gives is found here, after MISALIGN, as R170 lists its PROT beside those of pages (log entry 23). -/
def State.atomPlace (s : State) (lane : Option Nat) (space : Nat) (a : DWord) (n : Nat) : Place :=
  if space = 4 then .prot else (s.place lane space .write a n).local?

/-- The signed byte offset of MOP 0x28, OFS[15:0] (R172). -/
def atomOfs (f : VM) : DWord := (f.ofs.extractLsb' 0 16).signExtend 64

/-! ### The order of lanes (R171): a free choice -/

/-- A permutation picked by a list of choices: each picks one of what is left; with no choice the first is taken. -/
def permute {α : Type} : List Nat → List α → List α
  | [], xs => xs
  | c :: cs, xs =>
    match xs[c % xs.length]? with
    | some y => y :: permute cs (xs.eraseIdx (c % xs.length))
    | none => xs

/-- The accesses of an instruction in the order the part chooses, and the choices left. -/
def State.chooseOrder {α : Type} (s : State) (xs : List α) : List α × State :=
  (permute (s.choices.take xs.length) xs, { s with choices := s.choices.drop xs.length })

/-! ### Buffered atomics in a region (R188, R255) -/

/-- The operation code of an FXADD's entry. -/
def opFxadd : Nat := 16

/-- Two operands of one operation combined (R255). -/
def combineOperands (size op : Nat) (x y : BitVec 128) : BitVec 128 :=
  if op = opFxadd then x + y else BitVec.ofNat 128 (atomNew (8 * size) op x.toNat y.toNat 0)

/-- An entry and `n` bytes from `key` on share a byte. -/
def BufEntry.overlaps (key n : Nat) : BufEntry → Bool
  | .atom k m _ _ => decide (key < k + m) && decide (k < key + n)
  | .line l m _ => (List.range n).any (fun i => decide (lineOf (key + i) = l) && m.getLsbD ((key + i) % 128))

/-- An atomic into the buffer: combined with the latest entry for its bytes where size and operation match, else a new
entry; none where a line entry holds one of the bytes. -/
def bufferAtomic (b : List BufEntry) (key size op : Nat) (x : BitVec 128) : Option (List BufEntry) :=
  let held := b.any (fun e => match e with
    | .line _ _ _ => e.overlaps key size
    | .atom _ _ _ _ => false)
  if held then none
  else
    match (b.filter (fun e => e.overlaps key size)).getLast? with
    | some (.atom k m o y) =>
      if k = key && m = size && o = op then
        let i := b.length - 1 - (b.reverse.findIdx (fun e => e.overlaps key size))
        some (b.set i (.atom k m o (combineOperands size op y x)))
      else some (b ++ [.atom key size op x])
    | _ => some (b ++ [.atom key size op x])

/-- Atomics into the buffer, in order. -/
def bufferAtomics (b : List BufEntry) : List (Nat × Nat × Nat × BitVec 128) → Option (List BufEntry)
  | [] => some b
  | (k, n, o, x) :: rest =>
    match bufferAtomic b k n o x with
    | some b1 => bufferAtomics b1 rest
    | none => none

/-- The group's atomics go into its buffer, all of them or RGNOVF (R255). -/
def State.holdAtomics (s : State) (r : Region) (xs : List (Nat × Nat × Nat × BitVec 128)) : Run State :=
  match bufferAtomics r.buffer xs with
  | some b =>
    if bufferFits b then .ok (s.onGrp (fun g => { g with region := some { r with buffer := b } }))
    else .error (.trap { cause := .rgnovf } s)
  | none => .error (.trap { cause := .rgnovf } s)

/-! ### SATOM and VATOM (R172) -/

/-- What an atomic on some bytes waits for: its release, or the group's release stores to those bytes. -/
def State.releaseFirst (s : State) (ord scope : Nat) (ks : List Nat) : Run State :=
  if releases ord then s.releaseRun scope else s.beforeKeys ks

/-- The group's atomic goes into its region's buffer; its order is that of the performed accesses (R256). -/
def State.orderHeld (s : State) (ord scope : Nat) : Run State := do
  let s1 ← s.releaseIf ord scope
  return s1.acquireIf ord scope

/-- The group accesses bytes at L2, past L1 (R170): each of their lines is one that L1 misses, and with `back` the bytes
themselves come from there (R295, R335, log entry 81). -/
def State.atL2 (s : State) (ks : List Nat) (back : Bool) : State :=
  let xs := ks.filter isCached
  let lines := (xs.map lineOf).eraseDups
  ((s.readMissed false (if back then xs.length else 0) lines).forgetAhead).seen s.grp.coreNo .l2 [] lines

/-- The `nret` form of SATOM. -/
def noReturn (f : VM) : Bool := f.sc.getLsbD 0

/-- SATOM (R172); in a region only `add` to `xor` with `nret`, which are buffered (R188). -/
def execSatom (p : Option Pfx) (f : VM) (s : State) : Out :=
  finish (pfxLen p) (do
    let wide := decide (f.sz = 5)
    let v : BitVec 6 := f.v.setWidth 6
    let op := f.atomOp
    let g := s.grp
    let regsOk :=
      if wide then g.pairOk v && (op ≠ 9 || g.pairOk (v + 2)) else g.scalOk v && (op ≠ 9 || g.scalOk (v + 1))
    s.need ((Instr.satom p f).wf && g.pairOk f.sb && regsOk && (!g.inRegion || (noReturn f && decide (op ≤ 7)))) .illegal
    s.need (noReturn f || !(if wide then g.liveInPair v else g.liveIn v)) .rgnw
    let e := g.eff p
    let n := sizeOf f.sz
    let a := g.rp f.sb + (atomOfs f)
    let ps ← s.accessAll e.space n (fun x => s.atomPlace none e.space x.addr n) [⟨0, a⟩]
    let s := s.walked e.space [⟨0, a⟩]
    let key := (ps.flatMap (·.2)).headD 0
    let reg (k : BitVec 6) : Nat := if wide then (g.rp k).toNat else (g.rs k).toNat
    let next : BitVec 6 := if wide then v + 2 else v + 1
    let x := if op = 9 then (if v = 0 then 0 else reg next) else reg v
    match g.region with
    | some r => do
      let s1 ← s.orderHeld e.ord e.scope
      let t ← s1.holdAtomics r [(key, n, op, BitVec.ofNat 128 x)]
      return .done t
    | none => do
      let s0 ← s.releaseFirst e.ord e.scope (ps.flatMap (·.2))
      let s1 := s0.atL2 (ps.flatMap (·.2)) (!noReturn f)
      let (s2, old) := s1.atomically key n (fun o => atomNew (8 * n) op o x (reg v))
      let s3 := s2.acquireIf e.ord e.scope
      return .done (if noReturn f then s3 else
        s3.onGrp (fun h => if wide then h.wp v (BitVec.ofNat 64 old) else h.ws v (BitVec.ofNat 32 old))))

/-- The lanes of an atomic one after another: each lane's old value. -/
def State.atomLanes (s : State) (n : Nat) (f : Nat → Nat → Nat) : List (Nat × List Nat) → State × List (Nat × Nat)
  | [] => (s, [])
  | q :: qs =>
    let (s1, old) := s.atomically (q.2.headD 0) n (f q.1)
    let (s2, rest) := State.atomLanes s1 n f qs
    (s2, (q.1, old) :: rest)

/-- VATOM (R171, R172). -/
def execVatom (p : Option Pfx) (f : VM) (s : State) : Out :=
  finish (pfxLen p) (do
    let wide := decide (f.sz = 5)
    let v := f.v.toNat
    let op := f.atomOp
    let g := s.grp
    let step := if wide then 2 else 1
    s.need ((Instr.vatom p f).wf && g.vmOk f && g.vmDataOk f wide &&
      (op ≠ 9 || (g.hasVec (v + step) && (!wide || g.hasVec (v + 3)))) && !g.inRegion) .illegal
    s.need (!(g.liveInVec v || (wide && g.liveInVec (v + 1)))) .rgnw
    let e := g.eff p
    let n := sizeOf f.sz
    let xs := (lanesOf (g.mask f.m)).map (fun l => (⟨l, g.vmAddr f (atomOfs f) l⟩ : Access))
    let ps ← s.accessAll e.space n (fun x => s.atomPlace (some x.lane) e.space x.addr n) xs
    let s := s.walked e.space xs
    let s0 ← s.releaseFirst e.ord e.scope (ps.flatMap (·.2))
    let s1 := s0.atL2 (ps.flatMap (·.2)) true
    let reg (l k : Nat) : Nat :=
      (g.rvl k l).toNat + (if wide then (g.rvl (k + 1) l).toNat * 2 ^ 32 else 0)
    let (order, s2) := s1.chooseOrder ps
    let (s3, olds) := s2.atomLanes n
      (fun l old => atomNew (8 * n) op old (if op = 9 then reg l (v + step) else reg l v) (reg l v)) order
    let val (l : Nat) : LaneRes :=
      ⟨BitVec.ofNat 64 (((olds.find? (fun q => q.1 = l)).map (·.2)).getD 0), 0⟩
    return .done ((s3.acquireIf e.ord e.scope).onGrp (fun h => h.writeLanes v wide (h.mask f.m) val)))

/-! ### FXADD and FXRD (R173 to R175) -/

/-- FXADD (R174); in a region its lanes' increments are buffered (R188). -/
def execFxadd (p : Option Pfx) (f : VM) (s : State) : Out :=
  finish (pfxLen p) (do
    let g := s.grp
    s.need ((Instr.fxadd p f).wf && g.vmOk f && g.vmDataOk f false) .illegal
    let e := g.eff p
    let xs := (lanesOf (g.mask f.m)).map (fun l => (⟨l, g.vmAddr f (atomOfs f) l⟩ : Access))
    let ps ← s.accessAll e.space 16 (fun x => s.atomPlace (some x.lane) e.space x.addr 16) xs
    let s := s.walked e.space xs
    let inc (l : Nat) : Int × Flags := fxIncrement (flushIn g.fpcr .f32 (g.rvl f.v.toNat l).toNat)
    let flags : Flags := (lanesOf (g.mask f.m)).foldl (fun x l => x ||| (inc l).2) 0
    match g.region with
    | some r => do
      let s1 ← s.orderHeld e.ord e.scope
      let t ← s1.holdAtomics r (ps.map (fun q => (q.2.headD 0, 16, opFxadd, BitVec.ofInt 128 (inc q.1).1)))
      return .done (t.onGrp (fun h => h.raiseFlags flags))
    | none => do
      let s0 ← s.releaseFirst e.ord e.scope (ps.flatMap (·.2))
      let s1 := s0.atL2 (ps.flatMap (·.2)) false
      let s2 := (s1.atomLanes 16 (fun l old => (BitVec.ofNat 128 old + BitVec.ofInt 128 (inc l).1).toNat) ps).1
      return .done ((s2.acquireIf e.ord e.scope).onGrp (fun h => h.raiseFlags flags)))

/-- FXRD (R175); `clr` is refused in a region, and the read form sees the accumulator as committed (R188). -/
def execFxrd (p : Option Pfx) (f : VM) (s : State) : Out :=
  finish (pfxLen p) (do
    let g := s.grp
    let wide := decide (f.sz = 5)
    let clr := decide (f.atomOp = 1)
    let v : BitVec 6 := f.v.setWidth 6
    s.need ((Instr.fxrd p f).wf && g.pairOk f.sb && (if wide then g.pairOk v else g.scalOk v) &&
      !(clr && g.inRegion)) .illegal
    s.need (!(if wide then g.liveInPair v else g.liveIn v)) .rgnw
    let e := g.eff p
    let ord := if clr then e.ord else fitLoad e.ord
    let a := g.rp f.sb + (atomOfs f)
    let ps ← s.accessAll e.space 16 (fun x =>
      if clr then s.atomPlace none e.space x.addr 16 else (s.place none e.space .read x.addr 16).local?) [⟨0, a⟩]
    let s := s.walked e.space [⟨0, a⟩]
    let ks := ps.flatMap (·.2)
    let s0 ← s.releaseFirst (if clr then ord else 1) e.scope ks
    let s1 := s0.atL2 ks true
    let (s2, old) :=
      if clr then s1.atomically (ks.headD 0) 16 (fun _ => 0)
      else
        let s0 := s1.takeExclusive s1.grp.coreNo (ks.headD 0)
        (s0, bytesNat (s0.readCoherent (ks.headD 0) 16))
    let q : Nat :=
      match g.region with
      | some r => bytesNat (ks.map (fun k => (bufferGet r.buffer k).getD (s2.backing k)))
      | none => old
    let y := fxValue g.fpcr (if wide then .f64 else .f32) (BitVec.ofNat 128 q)
    return .done ((s2.acquireIf ord e.scope).onGrp (fun h =>
      (if wide then h.wp v (BitVec.ofNat 64 y.bits) else h.ws v (BitVec.ofNat 32 y.bits)).raiseFlags y.flags)))

end Sys2Proof.Machine
end

