-- ==== Sys2Proof/Machine/Lifecycle.lean ====
section
/-! DEFINITION. Barrier phases (09_synchronisation.md R176), the power budget that a band barrier transfers
(14_harvest_regions.md R267), and how a group, a team, a band and a context end (03_control.md R74,
15_system_and_traps.md R279, 13_helpers.md R247). -/

namespace Sys2Proof.Machine

open Sys2Proof

/-! ### Barriers by name -/

/-- The number of the band barrier among a group's arrival marks. -/
def bandBar : Nat := 16

/-- Team barrier `bar` of an instance of a band, or the band barrier. -/
def State.barAt (s : State) (band inst bar : Nat) : Option Barrier :=
  (s.band? band).bind (fun b => if bar = bandBar then some b.bar else (b.inst? inst).bind (fun i => i.bars[bar]?))

/-- Change a band. -/
def State.onBand (s : State) (band : Nat) (h : Band → Band) : State :=
  { s with bands := s.bands.map (fun b => if b.uid = band then h b else b) }

/-- Change a team instance of a band. -/
def Band.onInst (b : Band) (k : Nat) (h : Inst → Inst) : Band :=
  { b with insts := b.insts.map (fun i => if i.k = k then h i else i) }

/-- Change a barrier. -/
def State.onBarrier (s : State) (band inst bar : Nat) (h : Barrier → Barrier) : State :=
  s.onBand band (fun b =>
    if bar = bandBar then { b with bar := h b.bar }
    else b.onInst inst (fun i =>
      match i.bars[bar]? with
      | some x => { i with bars := i.bars.setIfInBounds bar (h x) }
      | none => i))

/-- The group is a member of the barrier, and has not exited (R176). -/
def Group.memberOf (g : Group) (band inst bar : Nat) : Bool :=
  decide (g.id.band = band) && g.helper.isNone && g.lives && (if bar = bandBar then g.id.bandBar else decide (g.id.inst = inst))

/-- The members of a barrier that have not exited. -/
def State.members (s : State) (band inst bar : Nat) : List Group := s.groups.filter (fun g => g.memberOf band inst bar)

/-- The group waits on the barrier. -/
def Group.waitsOn (g : Group) (band inst bar : Nat) : Bool :=
  g.memberOf band inst bar &&
  match g.waiting? with
  | some (.barrier b) => decide (b = bar)
  | _ => false

/-! ### The power budget (R267) -/

/-- The frequency of a core, in MHz: 2,000 unless it has been raised. -/
def State.mhz (s : State) (core : Nat) : Nat := ((s.coreMHz.find? (fun c => c.1 = core)).map (·.2)).getD 2000

/-- The die raises no core above 2.0 GHz (R369, R370). -/
def State.capped (s : State) (die : Nat) : Bool := s.built.marginCap.getLsbD die || s.built.heatCap.getLsbD die

/-- Set a core's frequency; a core at 2,000 MHz is not listed. -/
def State.setMhz (s : State) (core f : Nat) : State :=
  let rest := s.coreMHz.filter (fun c => c.1 ≠ core)
  { s with coreMHz := if f = 2000 then rest else (core, f) :: rest }

/-- At the completion of a band barrier the core whose team arrived last is raised by 100 MHz, to no more than 2.6 GHz,
and the others fall back by 100 MHz. -/
def State.shiftBudget (s : State) (last : Option Nat) : List Nat → State
  | [] => s
  | c :: cs =>
    let f := s.mhz c
    let f1 :=
      if s.capped (dieOfCluster (clusterOfCore c)) then f
      else if last = some c then min 2600 (f + 100) else max 2000 (f - 100)
    State.shiftBudget (s.setMhz c f1) last cs

/-! ### The end of a phase (R176) -/

/-- Every member that has not exited has arrived. -/
def State.phaseFull (s : State) (band inst bar : Nat) (b : Barrier) : Bool :=
  !b.arrived.isEmpty && (s.members band inst bar).all (fun g => b.arrived.contains g.id.uid)

/-- Where the phase is complete it ends: P increases by 1, the arrived set empties, and every waiting group goes on. -/
def State.endPhase (s : State) (band inst bar : Nat) : State :=
  match s.barAt band inst bar with
  | none => s
  | some b =>
    if s.phaseFull band inst bar b then
      let cores := ((s.members band inst bar).map Group.coreNo).eraseDups
      let last := (b.arrived.head?.bind s.group?).map Group.coreNo
      let s1 := s.onBarrier band inst bar (fun x => { x with phase := x.phase + 1, arrived := [], first := none })
      let s2 := s1.mapGroups (fun g => g.waitsOn band inst bar) (fun g => { g with status := .ready })
      if bar = bandBar then s2.shiftBudget last cores else s2
    else s

/-- Every barrier that a group of the team instance could hold up is looked at. -/
def State.endPhases (s : State) (band inst : Nat) : State :=
  (List.range 17).foldl (fun t bar => t.endPhase band inst bar) s

/-! ### The end of a group -/

/-- A board slot loses an owner. -/
def Board.release (b : Board) (uid : Nat) : Board :=
  { b with slots := b.slots.map (fun x => if x.owner = some uid then { x with owner := none } else x) }

/-- The private memory of a group is dropped without write-back (R130, R279). -/
def State.dropPrivate (s : State) (uid : Nat) : State :=
  { s with
    mem := s.mem.filter (fun c => !(decide (keyKind c.1 = 3) && decide (keyNum c.1 = uid))),
    l1 := s.l1.filter (fun l => privateOf l.line ≠ some uid) }

/-- The private lines of a group leave L1, written back to be kept (R130). -/
def State.keepPrivate (s : State) (uid : Nat) : State :=
  (s.l1.filter (fun l => decide (privateOf l.line = some uid))).foldl (fun t l => t.evictL1 l.core l.line) s

/-- A group's reads of remote windows that are under way bring nothing any more: those not sent yet are dropped (R246). -/
def State.dropReads (s : State) (uid : Nat) : State :=
  { s with
    remote := (s.remote.filter (fun r => !(decide (r.group = some uid) && r.write.isNone && !r.sent))).map (fun r =>
      if r.group = some uid && r.write.isNone then { r with group := none } else r) }

/-- The group in `grp` leaves its core: its private lines leave L1, and its loads in flight are dropped (R130, R246). -/
def State.leavesCore (s : State) : State := (s.keepPrivate s.grp.id.uid).dropReads s.grp.id.uid

/-- The group is one of the helpers of a recruiter. -/
def Group.helps (g : Group) (uid : Nat) : Bool :=
  match g.helper with
  | some h => decide (h.recruiter = uid)
  | none => false

/-- A tile whose deferred fault is discarded with the command that had it (R227, R279). -/
def Tile.faultless (t : Tile) : Tile := { t with cause := 0, faultAddr := 0, takenAt := none }

/-- A group as it stands once it has ended. -/
def Group.ended (g : Group) : Group :=
  { g with status := .exited, region := none, recruit := none, chanOpen := [], relq := [], remoteGot := [], preempt := .none }

/-- The stores of the group in `grp` are performed as it ends or leaves its core: its waiting release stores as far as they can be
now, and those of its channels (R74, R156, R161). -/
def State.finishStores (s : State) : State :=
  let s1 := s.settleNow
  (s1.grp.chanOpen.foldl (fun t c => t.dropOtherL2 t.grp.id.cluster c.2) s1).onGrp (fun g => { g with chanOpen := [] })

/-- The queue register in which a group waits to push, and its mailbox. -/
def Group.pushBox (g : Group) : Option (BitVec 4 × Nat) :=
  match g.waiting? with
  | some (.push q _) =>
    match (g.queues[q.toNat]?.getD QReg.initial).kind with
    | .send m => some (q, m)
    | _ => none
  | _ => none

/-- The mailboxes that a group receives. -/
def Group.boxes (g : Group) : List Nat :=
  g.queues.toList.filterMap (fun r => match r.kind with
    | .recv m => some m
    | _ => none)

/-- A group that waits to push into a mailbox whose receiver has exited takes QFAULT (R200). -/
def State.faultPushers (s : State) (g : Group) : State :=
  s.groups.foldl (fun t h =>
    match h.pushBox with
    | some (q, m) =>
      if decide (h.id.band = g.id.band) && decide (h.id.inst = g.id.inst) && g.boxes.contains m then
        t.asGroup h.id.uid (fun x => x.takeTrap { cause := .qfault, trapa := some (q.setWidth 64) })
      else t
    | none => t) s

/-- Where no group of the instance is left, the instance has exited, and its channels close (R156). -/
def State.closeInst (s : State) (band inst : Nat) : State :=
  if s.groups.any (fun g => decide (g.id.band = band) && g.helper.isNone && g.lives && decide (g.id.inst = inst)) then s
  else s.onBand band (fun b => b.onInst inst (fun i => { i with exited := true, chans := Vector.replicate 32 none }))

/-- A group ends, by EXIT or by a kill (R74, R279): its stores are performed, its region buffer is discarded, its helpers end,
its private memory is dropped, of its release stores those that still wait for remote devices are dropped with it (log entry 82),
its board slots lose their owner, its tokens are dropped (R208), those that wait to push into its
mailboxes fault, and every phase that only waited for it completes. A killed group's matrix commands are discarded (R227). -/
def State.endGroup (s : State) (uid : Nat) (kill : Bool) : State :=
  match s.group? uid with
  | none => s
  | some g =>
    let ends := uid :: (s.groups.filter (fun h => h.helps uid && h.lives)).map (fun h => h.id.uid)
    let s0 := ends.foldl (fun t u => t.asGroup u State.finishStores) s
    let s1 := s0.mapGroups (fun h => decide (h.id.uid = uid))
      (fun h => if kill then { h.ended with mxq := [], tiles := h.tiles.map Tile.faultless } else h.ended)
    let s2 := s1.mapGroups (fun h => h.helps uid && h.lives) (fun h => { h.ended with mxq := [] })
    let s3 := (s2.groups.filter (fun h => h.helps uid)).foldl (fun t h => t.dropPrivate h.id.uid) (s2.dropPrivate uid)
    let s4 : State := { s3 with
      boards := s3.boards.map (fun b => b.release uid),
      copies := s3.copies.map (fun c => if c.group = some uid then { c with dropToken := true } else c),
      tokens := s3.tokens.filter (fun t => t.group ≠ uid), ahead := s3.ahead.filter (fun a => a.1 ≠ uid) }
    ((s4.faultPushers g).endPhases g.id.band g.id.inst).closeInst g.id.band g.id.inst

/-- The groups, helpers apart, that a test picks and that have not exited. -/
def State.uidsOf (s : State) (p : Group → Bool) : List Nat :=
  (s.groups.filter (fun g => g.helper.isNone && g.lives && p g)).map (fun g => g.id.uid)

/-- Every group of a list is killed. -/
def State.killGroups (s : State) : List Nat → State
  | [] => s
  | u :: us => State.killGroups (s.endGroup u true) us

/-- Kill team (R279): its groups end together, the team's copies stop, and its channels close without draining. -/
def State.killTeam (s : State) (band inst : Nat) : State :=
  let us := s.uidsOf (fun g => decide (g.id.band = band) && decide (g.id.inst = inst))
  let ours (g : Group) : Bool := decide (g.id.band = band) && decide (g.id.inst = inst)
  let s0 := s.mapGroups ours (fun g => { g with chanOpen := [] })
  let s1 := (s0.mapGroups (fun g => us.contains g.id.uid) (fun g => { g with status := .exited })).killGroups us
  let s2 := s1.mapGroups ours (fun g => { g with mxq := [] })
  let s3 : State := { s2 with
    copies := s2.copies.filter (fun c => !(c.group.isSome && decide (c.band = band) && decide (c.inst = inst))) }
  s3.onBand band (fun b => b.onInst inst (fun i => { i with exited := true, chans := Vector.replicate 32 none }))

/-- Kill band (R279): it then retires with status KILLED. -/
def State.killBand (s : State) (band : Nat) : State :=
  match s.band? band with
  | none => s
  | some b => (b.insts.foldl (fun t i => t.killTeam band i.k) s).onBand band (fun x => { x with killed := true })

/-- Kill context (R279): every band of the context is killed and dispatch from its queues stops. -/
def State.killContext (s : State) (ctx : Nat) : State :=
  let s1 := (s.bands.filter (fun b => b.ctx = ctx)).foldl (fun t b => t.killBand b.uid) s
  { s1 with
    fields := s1.fields.map (fun f => if f.ctx = ctx then { f with killed := true } else f),
    copies := s1.copies.filter (fun c => c.ctx ≠ ctx),
    ctxs := s1.ctxs.map (fun c => if c.num = ctx then { c with killed := true, killDue := false, tier := 0 } else c) }

/-- The kill of a context whose barrier has broken (R178, R281): now, or once every record of the context is written. -/
def State.killRecorded (s : State) (ctx : Nat) : State :=
  if s.records.any (fun r => r.1 = ctx) then
    { s with ctxs := s.ctxs.map (fun c => if c.num = ctx then { c with killDue := true } else c) }
  else s.killContext ctx

/-! ### Traps of other groups -/

/-- A trap is taken by each group of a list. -/
def State.trapAll (s : State) (t : Trap) : List Nat → State
  | [] => s
  | u :: us => State.trapAll (s.asGroup u (fun x => x.takeTrap t)) t us

/-- The context kill that a parked group's cause brings with it (R281). -/
def State.killIfDue (s : State) (c : Cause) : State :=
  if decide (s.grp.status = .parked) && s.grp.killFollows c then s.killContext s.grp.id.ctx else s

end Sys2Proof.Machine
end

