-- ==== Sys2Proof/Machine/Barriers.lean ====
section
/-! DEFINITION. Team and band barriers, scratch barriers and WAITV (09_synchronisation.md R176 to R182, R188). -/

namespace Sys2Proof.Machine

open Sys2Proof

/-! ### Team and band barriers (R177) -/

/-- ap of a barrier: the phase at which the group arrived, if any. -/
def Group.mark (g : Group) (bar : Nat) : Option Word := g.arrived[bar]?.getD none

/-- Set ap of a barrier. -/
def Group.setMark (g : Group) (bar : Nat) (p : Option Word) : Group := { g with arrived := g.arrived.setIfInBounds bar p }

/-- P of a barrier of the issuing group. -/
def State.phaseOf (s : State) (bar : Nat) : Word := ((s.barAt s.grp.id.band s.grp.id.inst bar).map (·.phase)).getD 0

/-- The scope of a barrier's ordering: team, or band (R166). -/
def barScope (bar : Nat) : Nat := if bar = bandBar then 3 else 2

/-- Arrive(b), its release having been made: the mark, the arrived set, the watchdog's start, and the phase's end where it is
complete. An arrival is a progress event (R283). -/
def State.enterPhase (s : State) (bar : Nat) : State :=
  let s2 := s.onGrp (fun g => (g.setMark bar (some (s.phaseOf bar))).progressed)
  let me := s2.grp.id.uid
  let s3 := s2.onBarrier s2.grp.id.band s2.grp.id.inst bar (fun b =>
    { b with arrived := me :: b.arrived.filter (fun u => u ≠ me), first := some (b.first.getD (me, 0)) })
  s3.endPhase s3.grp.id.band s3.grp.id.inst bar

/-- Arrive(b), which releases at the barrier's scope (R166). -/
def State.arriveBar (s : State) (bar : Nat) : Run State := do
  let t ← s.releaseRun (barScope bar)
  return t.enterPhase bar

/-- The phase of the group's arrival has ended, or there is no arrival. -/
def State.barPassed (s : State) (bar : Nat) : Bool :=
  match s.grp.mark bar with
  | some p => decide (s.phaseOf bar ≠ p)
  | none => true

/-- The group passes the barrier: the mark goes, and the arrivals of the phase are acquired. -/
def State.passBar (s : State) (bar : Nat) : State :=
  (s.acquireAt s.grp.coreNo (barScope bar)).onGrp (fun g => g.setMark bar none)

/-- Wait(b), where the group holds an arrival. -/
def State.waitBar (s : State) (bar : Nat) : Run State :=
  match s.grp.mark bar with
  | none => .ok s
  | some _ => if s.barPassed bar then .ok (s.passBar bar) else .error (.wait (.barrier bar) s)

/-- Arrive and wait, without arriving twice. -/
def State.arriveAndWait (s : State) (bar : Nat) : Run State :=
  if (s.grp.mark bar).isSome then s.waitBar bar
  else do
    let t ← s.arriveBar bar
    t.waitBar bar

/-- The barrier that IMM16 names. -/
def barOf (f : EX) : Nat := f.imm.toNat % 16

/-- BART (R177). -/
def execBart (f : EX) (s : State) : Out :=
  finish 1 (do
    s.need (f.okBar 15 && s.grp.helper.isNone && !s.grp.inRegion) .illegal
    let t ← s.arriveAndWait (barOf f)
    return .done t)

/-- BARA (R177): an earlier arrival's phase ends first. -/
def execBara (f : EX) (s : State) : Out :=
  finish 1 (do
    s.need (f.okBar 15 && s.grp.helper.isNone && !s.grp.inRegion) .illegal
    let t ← s.waitBar (barOf f)
    let u ← t.arriveBar (barOf f)
    return .done u)

/-- BARW (R177); accepted inside a region (R188). -/
def execBarw (f : EX) (s : State) : Out :=
  finish 1 (do
    s.need (f.okBar 15 && s.grp.helper.isNone) .illegal
    let t ← s.waitBar (barOf f)
    return .done t)

/-- BARB (R177). -/
def execBarb (f : EX) (s : State) : Out :=
  finish 1 (do
    s.need (f.okBar 0 && s.grp.helper.isNone && !s.grp.inRegion && s.grp.id.bandBar) .illegal
    let t ← s.arriveAndWait bandBar
    return .done t)

/-! ### The barrier watchdog (R178, R179) -/

/-- The number of groups that a barrier's record covers. -/
def State.barGroups (s : State) (band : Band) (inst bar : Nat) : Nat :=
  if bar = bandBar then
    match s.fields.find? (fun f => f.uid = band.field) with
    | some f => 16 * f.nteam * f.kernel.stages.length
    | none => 16 * band.insts.length
  else ((band.inst? inst).map (·.ngrp)).getD 0

/-- Group `i` of a barrier's record (R179), by its instance and its GRPX; one that has exited is still its band's. -/
def State.barGroup (s : State) (band inst bar i : Nat) : Option Group :=
  let k := if bar = bandBar then i / 16 else inst
  let x := if bar = bandBar then i % 16 else i
  s.groups.find? (fun g => decide (g.id.band = band) && g.helper.isNone && decide (g.id.inst = k) && decide (g.id.grpx = x))

/-- A set of groups as 32 bytes. -/
def groupSet (n : Nat) (p : Nat → Bool) : List Byte :=
  natBytes 32 (((List.range n).filter p).foldl (fun x i => x + 2 ^ i) 0)

/-- The barrier record of R179. -/
def State.barrierRecord (s : State) (band : Band) (inst bar : Nat) (b : Barrier) (waitcc : Nat) : List Byte :=
  let n := s.barGroups band inst bar
  let at_ := s.barGroup band.uid inst bar
  let tenant := ((s.ctx? band.ctx).map (·.tenant)).getD 0
  natBytes 2 1 ++ natBytes 1 bar ++ natBytes 1 0 ++ natBytes 4 band.bandx ++
  natBytes 1 (if bar = bandBar then 0xFF else inst) ++ natBytes 1 0 ++ natBytes 2 n ++ natBytes 4 b.phase.toNat ++
  natBytes 8 waitcc ++ natBytes 8 (s.tenantTime tenant).toNat ++
  groupSet n (fun i => match at_ i with
    | some g => g.memberOf band.uid inst bar
    | none => false) ++
  groupSet n (fun i => match at_ i with
    | some g => b.arrived.contains g.id.uid
    | none => false) ++
  (List.range n).flatMap (fun i => natBytes 8 (match at_ i with
    | some g => if g.lives then g.pc.toNat else 0
    | none => 0))

/-- The watchdog of a barrier does not count: a group of its team instance, or for the band barrier of the band, is evicted (R29),
or the context is saved, whether or not the phase's first arriver still lives (R176, R287, log entry 30). -/
def State.memberAway (s : State) (band inst bar : Nat) : Bool :=
  ((s.band? band).bind (fun b => s.ctx? b.ctx)).any (·.isSaved) ||
  s.groups.any (fun g => decide (g.id.band = band) && g.helper.isNone && (decide (bar = bandBar) || decide (g.id.inst = inst)) &&
    match g.status with
    | .evicted _ _ _ => true
    | _ => false)

/-- The cc of a barrier's phase as `cc` of its first arriver's core pass, which count while no group of it is evicted (R29) or
saved. -/
def State.clockBar (s : State) (cc : Nat → Nat) (band inst bar : Nat) (b : Barrier) : Barrier :=
  { b with first := b.first.map (fun f => match s.group? f.1 with
    | some g => (f.1, match g.status with
      | .saved _ _ => f.2
      | _ => if s.memberAway band inst bar then f.2 else f.2 + cc g.coreNo)
    | none => f) }

/-- The cc counted for a barrier's phase, and the limit in the WDCFG of the first arriver. -/
def State.barClock (s : State) (b : Barrier) : Option (Nat × Nat) :=
  match b.first with
  | none => none
  | some (u, n) => (s.group? u).map (fun g => (n, 2 ^ (g.wdcfg.extractLsb' 16 8).toNat))

/-- The context's kill is due: a barrier of it has broken, and records of it are still to be written (R178). -/
def State.killIsDue (s : State) (ctx : Nat) : Bool := (s.ctx? ctx).any (·.killDue)

/-- BARRIER_WATCHDOG_EXPIRY (R178): the record, BARTMO for every waiting member, then, once every record is written, the kill of the
context. A barrier breaks once: its phase is counted no more, and nothing breaks in a context whose kill is due. -/
def execBarrierWatchdogExpiry (s : State) : Out :=
  match s.ev with
  | .barrier u inst bar =>
    match s.band? u, s.barAt u inst bar with
    | some band, some b =>
      match s.barClock b with
      | some (waited, limit) =>
        if limit ≤ waited && !s.memberAway u inst bar && !s.killIsDue band.ctx then
          let s1 := s.faultRecord band.ctx (s.barrierRecord band inst bar b waited)
          let who := (s1.groups.filter (fun g => g.waitsOn u inst bar)).map (fun g => g.id.uid)
          let s2 := (s1.trapAll { cause := .bartmo } who).onBarrier u inst bar (fun x => { x with first := none })
          .next (s2.killRecorded band.ctx)
        else .refused (.notEnabled "BARRIER_WATCHDOG_EXPIRY")
      | none => .refused (.notEnabled "BARRIER_WATCHDOG_EXPIRY")
    | _, _ => .refused (.notEnabled "BARRIER_WATCHDOG_EXPIRY")
  | _ => .refused (.notEnabled "BARRIER_WATCHDOG_EXPIRY")

/-! ### Scratch barriers (R180, R181) -/

/-- A scratch barrier object (R180). -/
structure ScratchBar where
  rsv : BitVec 31
  valid : Bool
  phase : Word
  count : Word
  expect : Word
  deriving DecidableEq, Repr

/-- The object in 16 bytes. -/
def ScratchBar.ofNat (x : Nat) : ScratchBar :=
  { rsv := BitVec.ofNat 31 (x / 2 ^ 97), valid := (x / 2 ^ 96) % 2 == 1, phase := BitVec.ofNat 32 (x / 2 ^ 64),
    count := BitVec.ofNat 32 (x / 2 ^ 32), expect := BitVec.ofNat 32 x }

/-- The 16 bytes of an object. -/
def ScratchBar.toNat (b : ScratchBar) : Nat :=
  b.expect.toNat + 2 ^ 32 * b.count.toNat + 2 ^ 64 * b.phase.toNat + 2 ^ 96 * (if b.valid then 1 else 0) + 2 ^ 97 * b.rsv.toNat

/-- AddBytes (R180). -/
def ScratchBar.add (b : ScratchBar) (k : Nat) : ScratchBar :=
  let c := b.count.toNat + k
  if b.valid && decide (b.expect ≠ 0) then
    { b with phase := b.phase + BitVec.ofNat 32 (c / b.expect.toNat), count := BitVec.ofNat 32 (c % b.expect.toNat) }
  else { b with count := BitVec.ofNat 32 c }

/-- The object at a key of scratch. -/
def State.scratchBar (s : State) (key : Nat) : ScratchBar := .ofNat (bytesNat (s.mem.getMany key 16))

/-- Change the object at a key of scratch. -/
def State.onScratchBar (s : State) (key : Nat) (h : ScratchBar → ScratchBar) : State :=
  { s with mem := s.mem.setMany key (natBytes 16 (h (s.scratchBar key)).toNat) }

/-- The key of the object that a scratch barrier instruction names, after its checks (R181). -/
def State.sbKey (s : State) (f : EX) (nd : Need) : Run Nat := do
  let a := s.grp.rp f.a
  let ps ← s.accessAll (if f.sub = 1 then 3 else 2) 16 (fun x => s.place none (if f.sub = 1 then 3 else 2) nd x.addr 16) [⟨0, a⟩]
  return (ps.flatMap (·.2)).headD 0

/-- SBINIT (R181), after the group's own waiting stores to the object (R54, R157). -/
def execSbinit (f : EX) (s : State) : Out :=
  finish 1 (do
    s.need (f.okSb false true && s.grp.pairOk f.a && s.grp.scalOk f.b && s.grp.scalOk f.c && !s.grp.inRegion) .illegal
    let key ← s.sbKey f .write
    let t ← s.beforeKeys (keyRun key 16)
    let e := s.grp.rs f.b
    return .done ((t.onScratchBar key (fun b =>
      { b with valid := decide (e ≠ 0), phase := s.grp.rs f.c, count := 0, expect := e })).onGrp Group.progressed))

/-- SBARV (R181): a release at band scope of the group's earlier accesses (R166). -/
def execSbarv (f : EX) (s : State) : Out :=
  finish 1 (do
    s.need (f.okSb false false && s.grp.pairOk f.a && s.grp.scalOk f.b && !s.grp.inRegion) .illegal
    let key ← s.sbKey f .write
    let t ← s.releaseRun 3
    return .done ((t.onScratchBar key (fun b => b.add (s.grp.rs f.b).toNat)).onGrp Group.progressed))

/-- The object has passed phase `p` (R181). -/
def ScratchBar.passed (b : ScratchBar) (p : Word) : Bool := decide (0 < (b.phase - p).toInt)

/-- SBWAIT returns: an acquire at team scope (R166). -/
def State.sbReturn (s : State) (d : BitVec 6) (key : Nat) : State :=
  (s.acquireAt s.grp.coreNo 2).onGrp (fun g => g.ws d (s.scratchBar key).phase)

/-- SBWAIT (R181), after the group's own waiting stores to the object (R54, R157); it issues nothing until it returns. Stores to
the object that its region has buffered it does not see (the model's choice, log entry 100). -/
def execSbwait (f : EX) (s : State) : Out :=
  finish 1 (do
    s.need (f.okSb true false && s.grp.scalOk f.d && s.grp.pairOk f.a && s.grp.scalOk f.b) .illegal
    s.need (!s.grp.liveIn f.d) .rgnw
    let key ← s.sbKey f .read
    let t ← s.beforeKeys (keyRun key 16)
    if (t.scratchBar key).passed (s.grp.rs f.b) then return .done (t.sbReturn f.d key)
    else return .wait (.scratchBar f.d key (s.grp.rs f.b)) t)

/-- SBWAIT_RELEASE (R181). -/
def execSbwaitRelease (s : State) : Out :=
  withGroup "SBWAIT_RELEASE" s (fun t =>
    match t.grp.waiting? with
    | some (.scratchBar d key p) =>
      if (t.scratchBar key).passed p then settle 1 (.done (t.sbReturn d key)) else .refused (.notEnabled "SBWAIT_RELEASE")
    | _ => .refused (.notEnabled "SBWAIT_RELEASE"))

/-! ### WAITV (R182) -/

/-- The condition SUB of WAITV. -/
def waitCond (sub : BitVec 3) (w y : Word) : Bool :=
  match sub.toNat with
  | 0 => decide (w = y)
  | 1 => decide (w ≠ y)
  | 2 => w.slt y
  | 3 => !w.slt y
  | 4 => w.ult y
  | 5 => !w.ult y
  | 6 => decide (w &&& y ≠ 0)
  | _ => decide (w &&& y = 0)

/-- Where a poll reads: where an acquire load at the scope reads (R160, R182), its CP as the load's (R137). -/
def pollHow (scope cp : Nat) : ReadAt := readHow 2 scope cp

/-- One read of a poll, after the checks of an access: the word's value, and the machine after the read. -/
def State.pollRead (s : State) (p : Option Pfx) (f : EX) : Run (Word × State) := do
  let e := s.grp.eff p
  let a := s.grp.rp f.a
  s.fitScalar e a
  let ps ← s.accessAll e.space 4 (fun x => s.place none e.space .read x.addr 4) [⟨0, a⟩]
  let ks := ps.flatMap (·.2)
  let how := pollHow e.scope e.cp
  s.awaitRemote how e.cp ks
  return (BitVec.ofNat 32 (s.loadNat how ks), (s.walked e.space [⟨0, a⟩]).sawBeyond s.grp.coreNo how e.cp ks)

/-- The poll ends with its last value: an acquire where ORD says so. -/
def State.pollDone (s : State) (p : Option Pfx) (f : EX) (w : Word) : State :=
  let e := s.grp.eff p
  (s.acquireIf (fitLoad e.ord) e.scope).onGrp (fun g => g.ws f.d w)

/-- The timeout of R182 has passed. -/
def State.pollExpired (s : State) (f : EX) (since : Nat) : Bool :=
  decide (s.grp.rs f.c ≠ 0xFFFFFFFF) && decide ((s.grp.rs f.c).toNat ≤ s.time - since)

/-- A read whose value another device or the host's translation still owes is waited for as part of the poll, whose t0 stands (R182). -/
def pollAgain {α : Type} (p : Option Pfx) (f : EX) (since : Nat) : Run α → Run α
  | .error (.wait .again s) => .error (.wait (.word f p since) s)
  | .error (.wait (.host v) s) => .error (.wait (.hostWord v f p since) s)
  | other => other

/-- A read of the poll, and what follows it. -/
def State.poll (s : State) (p : Option Pfx) (f : EX) (since : Nat) : Run Ctl := do
  let (w, t) ← pollAgain p f since (s.pollRead p f)
  if waitCond f.sub w (s.grp.rs f.b) || s.pollExpired f since then return .done (t.pollDone p f w)
  else return .wait (.word f p since) { t with grp := { t.grp with remoteGot := [] } }

/-- WAITV (R182). -/
def execWaitv (p : Option Pfx) (f : EX) (s : State) : Out :=
  finish (pfxLen p) (do
    s.need ((Instr.waitv p f).wf && s.grp.scalOk f.d && s.grp.pairOk f.a && s.grp.scalOk f.b && s.grp.scalOk f.c) .illegal
    s.need (!s.grp.liveIn f.d) .rgnw
    s.poll p f s.time)

/-- WAITV_RECHECK (R182): the word is read again. -/
def execWaitvRecheck (s : State) : Out :=
  withGroup "WAITV_RECHECK" s (fun t =>
    match t.grp.waiting? with
    | some (.word f p since) => finish (pfxLen p) (t.poll p f since)
    | _ => .refused (.notEnabled "WAITV_RECHECK"))

/-- WAITV_TIMEOUT (R182): the timeout has passed, and the last value read is returned. -/
def execWaitvTimeout (s : State) : Out :=
  withGroup "WAITV_TIMEOUT" s (fun t =>
    match t.grp.waiting? with
    | some (.word f p since) =>
      if t.pollExpired f since then finish (pfxLen p) (t.poll p f since) else .refused (.notEnabled "WAITV_TIMEOUT")
    | _ => .refused (.notEnabled "WAITV_TIMEOUT"))

end Sys2Proof.Machine
end

