-- ==== Sys2Proof/Machine/Board.lean ====
section
/-! DEFINITION. The notice board and view registers (09_synchronisation.md R183 to R188, 17_translation_and_tenancy.md
R332). -/

namespace Sys2Proof.Machine

open Sys2Proof

/-! ### The board store -/

/-- The board of a number; what is not listed is clear. -/
def State.boardAt (s : State) (n : Nat) : Board := (s.boards.find? (fun b => b.num = n)).getD ⟨n, [], 0⟩

/-- Put a board back into the store. -/
def State.setBoard (s : State) (b : Board) : State := { s with boards := b :: s.boards.filter (fun x => x.num ≠ b.num) }

/-- A slot of a board; what is not listed is clear. -/
def Board.slot (b : Board) (j : Nat) : Slot := (b.slots.find? (fun x => x.idx = j)).getD ⟨j, 0, 0, none⟩

/-- Put a slot back into a board. -/
def Board.setSlot (b : Board) (x : Slot) : Board := { b with slots := x :: b.slots.filter (fun y => y.idx ≠ x.idx) }

/-- The view (R184): the slots below NSLOT whose level is nonzero. -/
def Board.view (b : Board) (nslot : Nat) : BitVec 256 :=
  (List.range nslot).foldl (fun v j => if (b.slot j).level ≠ 0 then v ||| BitVec.ofNat 256 (2 ^ j) else v) 0

/-- A post (R186): the value, the levels. -/
def Board.post (b : Board) (j : Nat) (value : DWord) : Board :=
  let x := b.slot j
  { b.setSlot { x with value := value, level := min (x.level + 1) 0xFFFF } with level := b.level + 1 }

/-- No slot has an owner. -/
def Board.free (b : Board) : Bool := b.slots.all (fun x => x.owner.isNone)

/-- A board with every value, level and owner cleared. -/
def Board.cleared (b : Board) : Board := { b with slots := [], level := 0 }

/-- The rights of a record that a use needs (R330). -/
def hasRight (rights : Byte) (bit : Nat) : Bool := rights.getLsbD bit

/-- The board number and NSLOT that an object index names, with the right needed; OBJ otherwise (R332). -/
def State.useBoard (s : State) (idx right : Nat) : Run (Nat × Nat) :=
  match s.ctx? s.grp.id.ctx with
  | none => .error (.trap { cause := .obj } s)
  | some c =>
    match c.objs.find? (fun o => o.1 = idx) with
    | some (_, .board rights num nslot) =>
      if decide (idx < c.objn) && hasRight rights right then .ok (num, nslot) else .error (.trap { cause := .obj } s)
    | _ => .error (.trap { cause := .obj } s)

/-! ### The board instructions (R186) -/

/-- BATT, BPOST and BDET: not in a helper, not in an open region. -/
def Group.mayPost (g : Group) : Bool := g.helper.isNone && !g.inRegion

/-- The board and the slot that an instruction names, after the checks that both exist. -/
def State.slotOf (s : State) (f : EX) (right : Nat) : Run (Board × Nat × Nat) := do
  let (num, nslot) ← s.useBoard f.imm.toNat right
  let j := (s.grp.rs f.a).toNat
  s.need (decide (j < nslot)) .board
  return (s.boardAt num, nslot, j)

/-- BATT (R186). -/
def execBatt (f : EX) (s : State) : Out :=
  finish 1 (do
    s.need (f.okBatt && s.grp.scalOk f.a && s.grp.mayPost) .illegal
    let (b, _, j) ← s.slotOf f 4
    let me := s.grp.id.uid
    s.need (decide ((b.slot j).owner = none) || decide ((b.slot j).owner = some me)) .board
    return .done ((s.setBoard (b.setSlot { b.slot j with owner := some me })).onGrp Group.progressed))

/-- BPOST (R186): acq-rel at device scope (R166). The post is performed at the home, and the group waits for the round
trip's return. -/
def execBpost (f : EX) (s : State) : Out :=
  finish 1 (do
    s.need (f.okBpost && s.grp.pairOk f.d && s.grp.scalOk f.a && s.grp.pairOk f.b && s.grp.mayPost) .illegal
    let (b, nslot, j) ← s.slotOf f 4
    s.need (decide ((b.slot j).owner = some s.grp.id.uid)) .board
    s.need (decide (b.level ≠ 0xFFFFFFFF)) .board
    let b1 := b.post j (s.grp.rp f.b)
    let t ← s.releaseRun 5
    let s1 := (t.setBoard b1).onGrp Group.progressed
    return .wait (.bpost f (b1.view nslot) (BitVec.ofNat 32 b1.level) (BitVec.ofNat 32 (b1.slot j).level)) s1)

/-- The results of a post are written. -/
def State.bpostDone (s : State) (f : EX) (view : BitVec 256) (number level : Word) : State :=
  (s.acquireAt s.grp.coreNo 5).onGrp (fun g =>
    { g.wp f.d (pairOf number level) with view := g.view.setIfInBounds f.w.toNat view })

/-- BPOST_RETURN (R186). -/
def execBpostReturn (s : State) : Out :=
  withGroup "BPOST_RETURN" s (fun t =>
    match t.grp.waiting? with
    | some (.bpost f view number level) => settle 1 (.done (t.bpostDone f view number level))
    | _ => .refused (.notEnabled "BPOST_RETURN"))

/-- BREAD (R186): an acquire at device scope. -/
def execBread (f : EX) (s : State) : Out :=
  finish 1 (do
    s.need (f.okBread && s.grp.scalOk f.a && s.grp.pairOk f.d && s.grp.pairOk (f.d + 2)) .illegal
    s.need (!(s.grp.liveInPair f.d || s.grp.liveInPair (f.d + 2))) .rgnw
    let (b, _, j) ← s.slotOf f 0
    let x := b.slot j
    return .done ((s.acquireAt s.grp.coreNo 5).onGrp (fun g =>
      (g.wp f.d x.value).wp (f.d + 2) (pairOf (BitVec.ofNat 32 x.level) (BitVec.ofNat 32 b.level)))))

/-- BDET (R186, R187). -/
def execBdet (f : EX) (s : State) : Out :=
  finish 1 (do
    s.need (f.okBdet && s.grp.scalOk f.d && s.grp.scalOk f.a && s.grp.mayPost) .illegal
    let (b, _, j) ← s.slotOf f 4
    s.need (decide ((b.slot j).owner = some s.grp.id.uid)) .board
    let b1 := b.setSlot { b.slot j with owner := none }
    let clear := decide (f.sub = 1) && b1.free
    return .done ((s.setBoard (if clear then b1.cleared else b1)).onGrp (fun g => (g.progressed).ws f.d (boolWord clear))))

/-- A view register of the group. -/
def Group.viewAt (g : Group) (w : Nat) : BitVec 256 := g.view[w]?.getD 0

/-- BVSEG (R186). -/
def execBvseg (f : EX) (s : State) : Out :=
  finish 1 (s.toTriple f.okBvseg f.d ((s.grp.viewAt f.w.toNat >>> (96 * f.imm.toNat)).setWidth 96))

/-- The bits of a view that are set, lowest first. -/
def viewBits (v : BitVec 256) : List Nat := (List.range 256).filter (fun j => v.getLsbD j)

/-- BVCMP (R186). -/
def execBvcmp (f : EX) (s : State) : Out :=
  let w := s.grp.viewAt f.w.toNat
  let j := s.grp.viewAt (f.imm.toNat % 8)
  finish 1 (s.toScalar f.okBvcmp f.d
    (match f.sub.toNat with
     | 0 => boolWord (decide (j &&& ~~~w = 0))
     | 1 => BitVec.ofNat 32 (viewBits w).length
     | 2 => BitVec.ofNat 32 (viewBits (w &&& ~~~j)).length
     | _ =>
       match viewBits (w &&& ~~~j) with
       | i :: _ => BitVec.ofNat 32 i
       | [] => 0xFFFFFFFF))

end Sys2Proof.Machine
end

