-- ==== Sys2Proof/Machine/Queues.lean ====
section
/-! DEFINITION. Queue registers and mailboxes (11_engines_and_copies.md R197 to R203). -/

namespace Sys2Proof.Machine

open Sys2Proof

/-- Queue register `q` of the group. -/
def Group.queue (g : Group) (q : Nat) : QReg := g.queues[q]?.getD QReg.initial

/-- Change queue register `q`. -/
def Group.onQueue (g : Group) (q : Nat) (h : QReg → QReg) : Group :=
  { g with queues := g.queues.setIfInBounds q (h (g.queue q)) }

/-- The group has no queue registers to name: it is a helper; or a region is open, in which only QSTAT is accepted. -/
def Group.mayQueue (g : Group) : Bool := g.helper.isNone && !g.inRegion

/-- QFAULT, whose TRAPA is the register's number (R203). -/
def State.qfault (s : State) (q : BitVec 4) (ok : Bool) : Run Unit := s.chk (needAt ok .qfault (q.setWidth 64))

/-- The number of the queue register that receives mailbox `m` in a group. -/
def Group.receives (g : Group) (m : Nat) : Option Nat :=
  (List.range 16).find? (fun q => decide ((g.queue q).kind = .recv m))

/-- The receiver of mailbox `m` of a team instance (R200): its group and the register. -/
def State.receiver (s : State) (band inst m : Nat) : Option (Nat × Nat) :=
  s.groups.findSome? (fun g =>
    if decide (g.id.band = band) && decide (g.id.inst = inst) && g.helper.isNone && g.lives then
      (g.receives m).map (fun q => (g.id.uid, q))
    else none)

/-- Change queue register `q` of the group of a uid. -/
def State.onQueueOf (s : State) (uid q : Nat) (h : QReg → QReg) : State :=
  s.mapGroups (fun g => decide (g.id.uid = uid)) (fun g => g.onQueue q h)

/-- The entries that the register of a group holds. -/
def State.held (s : State) (uid q : Nat) : Nat := ((s.group? uid).map (fun g => (g.queue q).entries.length)).getD 0

/-- An entry is added at the tail; `rel` is the scope of a token's release flag, or 0. -/
def QReg.push (r : QReg) (x : DWord) (rel : Nat) : QReg := { r with entries := r.entries ++ [x], rel := r.rel ++ [rel] }

/-- The head is removed; a completion register has one command fewer outstanding (R198). -/
def QReg.pop (r : QReg) : QReg :=
  { r with entries := r.entries.drop 1, rel := r.rel.drop 1,
           outstanding := if r.kind = .done then r.outstanding - 1 else r.outstanding }

/-! ### QBIND (R203) -/

/-- The kind that SUB and IMM16 give. -/
def kindOf (f : EX) : QKind :=
  match f.sub.toNat with
  | 1 => .copy (f.imm.toNat / 16 % 16) (f.imm.toNat % 4)
  | 2 => .done
  | 3 => .recv (f.imm.toNat % 16)
  | 4 => .send (f.imm.toNat % 16)
  | _ => .unbound

/-- A command register of the group names completion register `q`. -/
def Group.named (g : Group) (q : Nat) : Bool :=
  g.queues.toList.any (fun r => match r.kind with
    | .copy d _ => decide (d = q)
    | _ => false)

/-- The binding is accepted (R203). -/
def State.bindOk (s : State) (q : Nat) (k : QKind) : Bool :=
  let r := s.grp.queue q
  r.entries.isEmpty && decide (r.outstanding = 0) && !(decide (r.kind = .done) && s.grp.named q) &&
  match k with
  | .copy d _ => decide ((s.grp.queue d).kind = .done)
  | .recv m => (s.receiver s.grp.id.band s.grp.id.inst m).isNone
  | _ => true

/-- QBIND (R203). -/
def execQbind (f : EX) (s : State) : Out :=
  finish 1 (do
    s.need (f.okQbind && s.grp.mayQueue) .illegal
    s.qfault f.q (s.bindOk f.q.toNat (kindOf f))
    return .done (s.onGrp (fun g => (g.onQueue f.q.toNat (fun _ => ⟨kindOf f, [], [], 0⟩)).progressed)))

/-! ### QPUSH (R200, R203) -/

/-- The mailbox of a send register. -/
def Group.sendBox (g : Group) (q : BitVec 4) : Option Nat :=
  match (g.queue q.toNat).kind with
  | .send m => some m
  | _ => none

/-- The receiver of the mailbox that register `q` sends to. -/
def State.sendTo (s : State) (q : BitVec 4) : Option (Nat × Nat) :=
  (s.grp.sendBox q).bind (s.receiver s.grp.id.band s.grp.id.inst)

/-- QPUSH: a release at team scope; the value goes to the receiver's tail once it holds fewer than 8. -/
def State.tryPush (s : State) (q : BitVec 4) (value : DWord) : Run Ctl :=
  match s.sendTo q with
  | none => .error (.trap { cause := .qfault, trapa := some (q.setWidth 64) } s)
  | some (u, r) =>
    if s.held u r < 8 then do
      let t ← s.releaseRun 2
      return .done ((t.onQueueOf u r (fun x => x.push value 0)).onGrp Group.progressed)
    else .ok (.wait (.push q value) s)

/-- QPUSH (R203). -/
def execQpush (f : EX) (s : State) : Out :=
  finish 1 (do
    s.need (f.okQpush && s.grp.pairOk f.a && s.grp.mayQueue) .illegal
    s.tryPush f.q (s.grp.rp f.a))

/-- QPUSH_ROOM (R200). -/
def execQpushRoom (s : State) : Out :=
  withGroup "QPUSH_ROOM" s (fun t =>
    match t.grp.waiting? with
    | some (.push q value) =>
      match t.sendTo q with
      | some (u, r) => if t.held u r < 8 then finish 1 (t.tryPush q value) else .refused (.notEnabled "QPUSH_ROOM")
      | none => finish 1 (t.tryPush q value)
    | _ => .refused (.notEnabled "QPUSH_ROOM"))

/-! ### QPOP, QTRY and QSTAT (R203) -/

/-- The register is a completion or a receive register. -/
def Group.popsFrom (g : Group) (q : Nat) : Bool :=
  match (g.queue q).kind with
  | .done => true
  | .recv _ => true
  | _ => false

/-- The scope at which an ordering toward an engine command is carried out (R159): at group and team scope as at band scope; 0 is
no ordering. -/
def engineScope (scope : Nat) : Nat := if scope = 0 then 0 else max 3 scope

/-- The head of register `q` is removed: an acquire at team scope of a mailbox's value, and of a token's release flag at
its scope (R159, R165, R200). A queue operation is a progress event (R201). -/
def State.takeHead (s : State) (q : Nat) : State :=
  let r := s.grp.queue q
  let scope := if r.kind = .done then engineScope (r.rel.headD 0) else 2
  ((s.acquireAt s.grp.coreNo scope).onGrp (fun g => (g.onQueue q QReg.pop).acquired scope)).onGrp Group.progressed

/-- The head goes to pair D. -/
def State.popTo (s : State) (d : BitVec 6) (q : Nat) : State :=
  let x := (s.grp.queue q).entries.headD 0
  (s.takeHead q).onGrp (fun g => g.wp d x)

/-- QPOP (R203). -/
def execQpop (f : EX) (s : State) : Out :=
  finish 1 (do
    s.need (f.okQpop && s.grp.pairOk f.d && s.grp.mayQueue) .illegal
    s.qfault f.q (s.grp.popsFrom f.q.toNat)
    if (s.grp.queue f.q.toNat).entries.isEmpty then return .wait (.pop f.d f.q) s
    else return .done (s.popTo f.d f.q.toNat))

/-- QPOP_ENTRY (R203). -/
def execQpopEntry (s : State) : Out :=
  withGroup "QPOP_ENTRY" s (fun t =>
    match t.grp.waiting? with
    | some (.pop d q) =>
      if (t.grp.queue q.toNat).entries.isEmpty then .refused (.notEnabled "QPOP_ENTRY")
      else settle 1 (.done (t.popTo d q.toNat))
    | _ => .refused (.notEnabled "QPOP_ENTRY"))

/-- QTRY (R203). -/
def execQtry (f : EX) (s : State) : Out :=
  finish 1 (do
    s.need (f.okQtry && s.grp.pairOk f.d && s.grp.mayQueue) .illegal
    s.qfault f.q (s.grp.popsFrom f.q.toNat)
    if (s.grp.queue f.q.toNat).entries.isEmpty then
      return .done (s.onGrp (fun g => ((g.wp f.d 0).ws (f.d + 2) 0).progressed))
    else return .done ((s.popTo f.d f.q.toNat).onGrp (fun g => g.ws (f.d + 2) 1)))

/-- The word that QSTAT gives (R203). -/
def QReg.status (r : QReg) : Word :=
  let k := match r.kind with
    | .unbound => (0, 0, 0)
    | .copy d e => (1, d, e)
    | .done => (2, 0, 0)
    | .recv m => (3, m, 0)
    | .send m => (4, m, 0)
  BitVec.ofNat 32 (r.entries.length % 16 + r.outstanding % 16 * 2 ^ 4 + k.1 * 2 ^ 8 + k.2.1 % 16 * 2 ^ 16 + k.2.2 % 4 * 2 ^ 20)

/-- QSTAT (R203): accepted inside regions. -/
def execQstat (f : EX) (s : State) : Out :=
  finish 1 (s.toScalar (f.okQstat && s.grp.helper.isNone) f.d (s.grp.queue f.q.toNat).status)

end Sys2Proof.Machine
end

