-- ==== Sys2Proof/Machine/Sm3.lean ====
section
/-! DEFINITION. SM3, the digest of a checkpoint shard (11_engines_and_copies.md R214). The spec names the function and
does not describe it: it is written here from its public standard, GB/T 32905 (PRESUMED, log entry 15). -/

namespace Sys2Proof.Machine

open Sys2Proof

/-- Rotation of a word to the left. -/
def rotl32 (x : Word) (n : Nat) : Word := x.rotateLeft (n % 32)

/-- P0 of SM3. -/
def sm3P0 (x : Word) : Word := x ^^^ rotl32 x 9 ^^^ rotl32 x 17
/-- P1 of SM3. -/
def sm3P1 (x : Word) : Word := x ^^^ rotl32 x 15 ^^^ rotl32 x 23

/-- The chaining value: eight words. -/
abbrev Sm3 := Vector Word 8

/-- The initial value. -/
def sm3Init : Sm3 :=
  #v[0x7380166f, 0x4914b2b9, 0x172442d7, 0xda8a0600, 0xa96f30bc, 0x163138aa, 0xe38dee4d, 0xb0fb0e4e]

/-- The padded message: a one bit, zeros, and the length in bits as 64 bits big-endian. -/
def sm3Pad (m : List Byte) : List Byte :=
  let n := m.length
  m ++ [0x80] ++ List.replicate ((119 - n % 64) % 64) 0 ++
    (List.range 8).map (fun i => BitVec.ofNat 8 (8 * n / 2 ^ (8 * (7 - i))))

/-- A big-endian word of a block. -/
def sm3Word (b : List Byte) (i : Nat) : Word :=
  b.getD (4 * i) 0 ++ b.getD (4 * i + 1) 0 ++ b.getD (4 * i + 2) 0 ++ b.getD (4 * i + 3) 0

/-- The message expansion: `n` more words after those of the array. -/
def sm3Expand : Nat → Array Word → Array Word
  | 0, w => w
  | n + 1, w =>
    let j := w.size
    let x := sm3P1 (w.getD (j - 16) 0 ^^^ w.getD (j - 9) 0 ^^^ rotl32 (w.getD (j - 3) 0) 15) ^^^
      rotl32 (w.getD (j - 13) 0) 7 ^^^ w.getD (j - 6) 0
    sm3Expand n (w.push x)

/-- FF of SM3. -/
def sm3FF (j : Nat) (x y z : Word) : Word := if j < 16 then x ^^^ y ^^^ z else (x &&& y) ||| (x &&& z) ||| (y &&& z)
/-- GG of SM3. -/
def sm3GG (j : Nat) (x y z : Word) : Word := if j < 16 then x ^^^ y ^^^ z else (x &&& y) ||| (~~~x &&& z)

/-- One round. -/
def sm3Round (w : Array Word) (v : Sm3) (j : Nat) : Sm3 :=
  let k : Word := if j < 16 then 0x79cc4519 else 0x7a879d8a
  let ss1 := rotl32 (rotl32 v[0] 12 + v[4] + rotl32 k j) 7
  let ss2 := ss1 ^^^ rotl32 v[0] 12
  let wj := w.getD j 0
  let tt1 := sm3FF j v[0] v[1] v[2] + v[3] + ss2 + (wj ^^^ w.getD (j + 4) 0)
  let tt2 := sm3GG j v[4] v[5] v[6] + v[7] + ss1 + wj
  #v[tt1, v[0], rotl32 v[1] 9, v[2], sm3P0 tt2, v[4], rotl32 v[5] 19, v[6]]

/-- The compression of one block of 64 bytes. -/
def sm3Block (v : Sm3) (b : List Byte) : Sm3 :=
  let w := sm3Expand 52 ((List.range 16).map (sm3Word b)).toArray
  let u := (List.range 64).foldl (sm3Round w) v
  Vector.ofFn (fun i => v[i] ^^^ u[i])

/-- The blocks of a message, one after another; `n` bounds their number. -/
def sm3Blocks : Nat → Sm3 → List Byte → Sm3
  | 0, v, _ => v
  | n + 1, v, m => if m.isEmpty then v else sm3Blocks n (sm3Block v (m.take 64)) (m.drop 64)

/-- SM3 of a message: 32 bytes. -/
def sm3 (m : List Byte) : List Byte :=
  let p := sm3Pad m
  (sm3Blocks (p.length / 64) sm3Init p).toList.flatMap (fun x =>
    [x.extractLsb' 24 8, x.extractLsb' 16 8, x.extractLsb' 8 8, x.extractLsb' 0 8])

end Sys2Proof.Machine
end

