-- ==== Sys2Proof/Machine/Copy.lean ====
section
/-! DEFINITION. The copy engines: locators and objects (11_engines_and_copies.md R204, R205, 17_translation_and_tenancy.md
R330 to R332), what a command transfers (R211 to R216), its granules (R206 to R209), and the copy instructions (R210). -/

namespace Sys2Proof.Machine

open Sys2Proof

/-! ### Layout and element formats -/

/-- Swz of R151. -/
def swz (o code : Nat) : Nat :=
  let span := 16 * 2 ^ code
  let row := o / span
  row * span + ((o % span / 16) ^^^ (row % (span / 16))) * 16 + o % 16

/-- KIND of an element format code (R221). -/
def fmtKind (c : Byte) : Nat := c.toNat / 32

/-- An element format code is well-formed (R221). -/
def fmtOk (c : Byte) : Bool :=
  if fmtKind c = 0 then (Rec8.ofByte (c &&& 0x1F)).isSome else decide (fmtKind c ≤ 5) && decide (c.toNat % 32 = 0)

/-- The bytes of an element (R220, R331). -/
def fmtSize (c : Byte) : Nat := if fmtKind c ≤ 2 then 1 else if fmtKind c ≤ 4 then 2 else 4

/-- The number of elements of a box. -/
def boxCount (b : Vector Nat 5) : Nat := b.toList.foldl (fun n e => n * e) 1

/-- Coordinates of element `n` of a box, dimension 0 fastest. -/
def boxCoord (b : Vector Nat 5) (n : Nat) : Vector Nat 5 :=
  Vector.ofFn (fun k => n / ((b.toList.take k.val).foldl (fun x e => x * e) 1) % b[k])

/-- Sums of coordinates. -/
def addCoord (a b : Vector Nat 5) : Vector Nat 5 := Vector.ofFn (fun k => a[k] + b[k])

/-- Where element `v` of a TENSOR begins, from BASE, before the swizzle (R331). -/
def Tensor.offset (t : Tensor) (v : Vector Nat 5) : Nat :=
  ((List.finRange 5).foldl (fun n k => n + v[k] * t.stride[k]) 0) * fmtSize t.fmt

/-- A box lies within a TENSOR (R331). -/
def Tensor.inside (t : Tensor) (org box : Vector Nat 5) : Bool :=
  (List.finRange 5).all (fun k => decide (org[k] + box[k] ≤ t.ext[k]))

/-! ### Objects -/

/-- An object of a context by index, where it is installed. -/
def Context.obj (c : Context) (idx : Nat) : Option ObjRec :=
  if idx < c.objn then (c.objs.find? (fun o => o.1 = idx)).map (·.2) else none

/-- A TENSOR and its logical place, with the rights needed; none is OBJ (R332). -/
def State.tensor? (s : State) (ctx idx : Nat) (rights : List Nat) : Option (Tensor × Vector Nat 5 × Vector Nat 5) :=
  match (s.ctx? ctx).bind (fun c => c.obj idx) with
  | some (.tensor t) =>
    if rights.all (hasRight t.rights) then
      if t.xidx = 0xFFFF then some (t, Vector.replicate 5 0, t.ext)
      else
        match (s.ctx? ctx).bind (fun c => c.obj t.xidx) with
        | some (.extent orig gext) => some (t, orig, gext)
        | _ => none
    else none
  | _ => none

/-! ### Locators (R204) -/

/-- Why a command fails (R209): the CAUSE of its token; or the page of the host that it waits for. -/
inductive CopyStop where
  | cause (c : Nat)
  | host (vpage : Nat)
  deriving DecidableEq, Repr

/-- A part of an engine's work. -/
abbrev Eng (α : Type) := Except CopyStop α

/-- The stop with a CAUSE where a condition fails. -/
def engNeed (ok : Bool) (c : Nat) : Eng Unit := if ok then .ok () else .error (.cause c)

/-- The agent that a command's accesses are made as. -/
def CopyCmd.who (c : CopyCmd) : Who := ⟨c.fn, c.pasid, c.ctx⟩

/-- The reserved bits of a locator, and the spaces that a command may name (R204): a sub-launch's has no team. -/
def CopyCmd.locOk (c : CopyCmd) (l : DWord) : Bool :=
  match fld l 60 4 with
  | 0 => decide (fld l 57 3 = 0)
  | 1 => true
  | 2 => c.group.isSome
  | 3 => c.group.isSome && decide (fld l 24 36 = 0)
  | _ => false

/-- The address or offset in a locator. -/
def locBase (l : DWord) : Nat := if fld l 60 4 = 0 then fld l 0 57 else fld l 0 60

/-- The key of a byte in scratch of an instance of the command's band. -/
def State.scratchKey (s : State) (c : CopyCmd) (k o : Nat) : Eng Nat :=
  match (s.band? c.band).bind (fun b => b.inst? k) with
  | some i => if !i.exited && decide (o < i.scr) then .ok (keyScratch c.band k o) else .error (.cause 2)
  | none => .error (.cause 2)

/-- The key of the byte at an offset from a locator (R204, R209). -/
def State.locKey (s : State) (c : CopyCmd) (nd : Need) (l : DWord) (off : Nat) : Eng Nat :=
  let o := locBase l + off
  if !c.locOk l then .error (.cause 5)
  else
    match fld l 60 4 with
    | 0 =>
      if 2 ^ 57 ≤ o then .error (.cause 1)
      else
        match s.translate c.who (BitVec.ofNat 64 o) nd with
        | .at_ k => if keyKind k = 5 then .error (.cause 2) else .ok k
        | .transl => .error (.cause 1)
        | .prot => .error (.cause 2)
        | .host v => if c.denied then .error (.cause 1) else .error (.host v)
    | 1 => if o < ((s.ctx? c.ctx).map (·.carve)).getD 0 then .ok (keyCarve c.ctx o) else .error (.cause 2)
    | 2 => s.scratchKey c c.inst o
    | _ => s.scratchKey c (o / 2 ^ 20) (o % 2 ^ 20)

/-- A byte as an engine of a cluster reads it: at L2 and beyond (R134, R206). -/
def State.engineByte (s : State) (cluster key : Nat) : Byte := if isShared key then s.readL2 cluster key else s.mem.get key

/-- A byte that an engine writes. -/
def State.engineWrite (s : State) (cluster key : Nat) (x : Byte) : State :=
  if isShared key then s.writeL2Byte cluster key x else { s with mem := s.mem.set key x }

/-- `n` bytes at a locator and offset. -/
def State.locBytes (s : State) (c : CopyCmd) (l : DWord) (off : Nat) : Nat → Eng (List Byte)
  | 0 => .ok []
  | n + 1 => do
    let k ← s.locKey c .read l off
    let rest ← State.locBytes s c l (off + 1) n
    return s.engineByte c.cluster k :: rest

/-- The virtual address of a byte at a locator and offset, where it is in global space. -/
def locVa (q : DWord × Nat) : Option Nat := if fld q.1 60 4 = 0 then some (locBase q.1 + q.2) else none

/-- What an engine's reads of bytes, by locator and offset, leave: their walks and their reads at L2 are counted for the tenant
(R335), the host is asked for lines of its pages (R349), and no load finds their lines any more as they stood before. -/
def State.engineReads (s : State) (c : CopyCmd) (qs : List (DWord × Nat)) : State :=
  let ks := qs.filterMap (fun q => match s.locKey c .read q.1 q.2 with | .ok k => some k | .error _ => none)
  let lines := ((ks.filter isShared).map lineOf).eraseDups
  ((((s.walkVas c.fn c.pasid (qs.filterMap locVa)).countL2 c.fn c.cluster false lines).readHost c.fn c.pasid c.cluster false
    lines)).seen 0 .l2 [] lines

/-- What reads that fail leave: a command that waits for a page has translated its addresses, and reads when the page has come. -/
def State.engineTries (s : State) (c : CopyCmd) (qs : List (DWord × Nat)) : CopyStop → State
  | .cause _ => s.engineReads c qs
  | .host _ => s.walkVas c.fn c.pasid (qs.filterMap locVa)

/-- `n` bytes at a locator. -/
def locRun (l : DWord) (off n : Nat) : List (DWord × Nat) := (List.range n).map (fun i => (l, off + i))

/-! ### Reading a descriptor (R212, R213) -/

/-- Five 32-bit fields of a record. -/
def five (b : List Byte) (o : Nat) : Vector Nat 5 := Vector.ofFn (fun k => natAt b (o + 4 * k.val) 4)

/-- Every byte from `o` on, `n` of them, is zero. -/
def zeroAt (b : List Byte) (o n : Nat) : Bool := ((b.drop o).take n).all (fun x => decide (x = 0))

/-- The span rule of a destination named by a locator (R205). -/
def spanOk (l : DWord) (code : Nat) : Bool := decide (code = 0) || decide (locBase l % (16 * 2 ^ code) = 0)

/-- The barrier object of a command (R210): MISALIGN, then PROT; a sub-launch has none (R305). -/
def State.checkBar (s : State) (c : CopyCmd) (bar : Nat) : Eng Unit :=
  if bar = 0xFFFFFFFF then .ok ()
  else do
    engNeed c.group.isSome 5
    engNeed (decide (bar % 16 = 0)) 4
    match (s.band? c.band).bind (fun b => b.inst? c.inst) with
    | some i => engNeed (decide (bar + 16 ≤ i.scr)) 2
    | none => .error (.cause 2)

/-- A side of a described copy, with its element format where it is an object. -/
def State.sideOf (s : State) (c : CopyCmd) (obj : Bool) (x : DWord) (rights : List Nat) : Eng (Side × Option Tensor) :=
  if obj then
    if fld x 16 48 ≠ 0 then .error (.cause 5)
    else
      match s.tensor? c.ctx (fld x 0 16) rights with
      | some (t, _, _) => if fmtOk t.fmt then .ok (.object t, some t) else .error (.cause 6)
      | none => .error (.cause 3)
  else if c.locOk x then .ok (.locator x, none) else .error (.cause 5)

/-- The checks of a descriptor that is read again as its command resumes: every failure is BADDESC (R217). -/
def CopyCmd.rechecked {α : Type} (c : CopyCmd) (x : Eng α) : Eng α :=
  match x with
  | .error (.cause k) => .error (.cause (if c.again then 5 else k))
  | other => other

/-- The plan of a copy descriptor's bytes, and its barrier offset (R212). Where several checks fail, the CAUSE is that of the first in
the order written here (reserved fields, the sides, the barrier, the box, the span), which is the model's choice: R209 gives
none (log entry 91). -/
def State.describedPlan (s : State) (c : CopyCmd) (b : List Byte) : Eng (CopyPlan × Nat) := do
  let mode := byteAt b 28
  let flags := byteAt b 29
  let sobj := mode.getLsbD 0
  let dobj := mode.getLsbD 1
  let rank := (byteAt b 30).toNat
  let code := mode.toNat / 4 % 8
  let scope := flags.toNat / 4 % 8
  engNeed (decide (mode.toNat < 32) && decide (flags.toNat < 32) && zeroAt b 31 1 && zeroAt b 92 36) 5
  engNeed (c.group.isSome || (decide (1 ≤ scope) && decide (scope ≤ 6))) 5
  let (src, st) ← s.sideOf c sobj (dwordAt b 0) [0, 2]
  let (dst, dt) ← s.sideOf c dobj (dwordAt b 8) [1, 2]
  s.checkBar c (natAt b 24 4)
  if !sobj && !dobj then
    engNeed (decide (rank = 0) && (five b 72).toList.all (fun n => decide (n = 1))) 5
    engNeed (spanOk (dwordAt b 8) code) 4
    return (.linear (dwordAt b 0) (dwordAt b 8) (natAt b 16 8) code, natAt b 24 4)
  else
    let box := five b 72
    let sorg := five b 32
    let dorg := five b 52
    engNeed (decide (1 ≤ rank) && decide (rank ≤ 5) && decide (natAt b 16 8 = 0) &&
      (List.finRange 5).all (fun k => decide (k.val < rank) || decide (box[k] = 1)) &&
      (sobj || zeroAt b 32 20) && (dobj || zeroAt b 52 20)) 5
    let inS := match st with
      | some t => t.inside sorg box
      | none => true
    let inD := match dt with
      | some t => t.inside dorg box
      | none => true
    let same := match st, dt with
      | some x, some y => decide (x.fmt = y.fmt)
      | _, _ => true
    engNeed (inS && inD && same) 3
    engNeed (dobj || spanOk (dwordAt b 8) code) 4
    let e := match st, dt with
      | some x, _ => fmtSize x.fmt
      | none, some y => fmtSize y.fmt
      | none, none => 1
    return (.box src dst rank e code sorg dorg box, natAt b 24 4)

/-- The barrier of a command that resumes, or whose record was changed, is that of its record (R217); a command that starts takes its
descriptor's. -/
def State.resumedBar (s : State) (c : CopyCmd) (q : CopyPlan × Nat) : Eng (CopyPlan × Nat) :=
  if c.again || c.keepBar then do
    s.checkBar c c.bar.toNat
    return (q.1, c.bar.toNat)
  else .ok q

/-- The plan of a copy descriptor, and its barrier offset. -/
def State.readDescribed (s : State) (c : CopyCmd) (at_ : DWord) : Eng (CopyPlan × Nat) := do
  engNeed (c.locOk at_ && decide (locBase at_ % 128 = 0)) 5
  let b ← s.locBytes c at_ 0 128
  let q ← c.rechecked (s.describedPlan c b)
  s.resumedBar c q

/-- The plan of a gather descriptor's bytes (R213). -/
def State.gatherPlan (s : State) (c : CopyCmd) (b : List Byte) : Eng (CopyPlan × Nat) := do
  let rowb := natAt b 28 4
  let code := (byteAt b 44).toNat
  engNeed (c.locOk (dwordAt b 0) && c.locOk (dwordAt b 8) && c.locOk (dwordAt b 16) && decide (natAt b 16 8 % 4 = 0) &&
    decide (natAt b 24 4 ≤ 2 ^ 24) && decide (1 ≤ rowb) && decide (rowb ≤ 65536) && decide (code < 8) && zeroAt b 45 19) 5
  s.checkBar c (natAt b 40 4)
  engNeed (spanOk (dwordAt b 8) code) 4
  return (.gather (dwordAt b 0) (dwordAt b 8) (dwordAt b 16) (natAt b 24 4) rowb (dwordAt b 32) code, natAt b 40 4)

/-- The plan of a gather descriptor. -/
def State.readGather (s : State) (c : CopyCmd) (at_ : DWord) : Eng (CopyPlan × Nat) := do
  engNeed (c.locOk at_ && decide (locBase at_ % 64 = 0)) 5
  let b ← s.locBytes c at_ 0 64
  let q ← c.rechecked (s.gatherPlan c b)
  s.resumedBar c q

/-! ### Shards (R214 to R216) -/

/-- Header bytes 0 to 87 of a shard. -/
def shardHead (t : Tensor) (tid : DWord) (orig gext : Vector Nat 5) : List Byte :=
  let five (v : Vector Nat 5) : List Byte := v.toList.flatMap (natBytes 4)
  natBytes 4 0x48535843 ++ natBytes 2 1 ++ [t.fmt] ++ natBytes 1 t.rank ++ natBytes 8 tid.toNat ++ five gext ++ five orig ++
  five t.ext ++ natBytes 4 t.swz ++ natBytes 8 (boxCount t.ext * fmtSize t.fmt)

/-- The payload of a shard, `n` bytes in payload order: byte `i` is stored under the span (R214). -/
def State.shardPayload (s : State) (c : CopyCmd) (l : DWord) (code : Nat) : List Nat → Eng (List Byte)
  | [] => .ok []
  | i :: is => do
    let k ← s.locKey c .read l (128 + swz i code)
    let rest ← State.shardPayload s c l code is
    return s.engineByte c.cluster k :: rest

/-- A shard that passes the checks of R216, else none; the record in a header is checked as it is read (R109), and one that a resumed
command reads again is rejected for it (R217). -/
def State.readShard (s : State) (c : CopyCmd) (t : Tensor) (tid : Nat) (gext : Vector Nat 5) (l : DWord) (again : Bool) :
    Eng (Option Shard) := do
  engNeed (c.locOk l) 5
  let h ← s.locBytes c l 0 128
  let code := natAt h 76 4 % 8
  let isShard := decide (natAt h 0 4 = 0x48535843) && decide (natAt h 4 2 = 1)
  engNeed (again || !isShard || fmtOk (byteAt h 6)) 6
  let ok := isShard && decide (natAt h 8 8 = tid) && decide (byteAt h 6 = t.fmt) && decide ((byteAt h 7).toNat = t.rank) &&
    decide (five h 16 = gext)
  if !ok then return none
  else
    let payload ← s.shardPayload c l code (List.range (natAt h 80 8))
    if sm3 (h.take 88 ++ payload) = (h.drop 88).take 32 then return some ⟨l, five h 36, five h 56, code⟩
    else return none

/-- The element of a shard at a logical coordinate, where it has one. -/
def Shard.index (h : Shard) (v : Vector Nat 5) : Option Nat :=
  if (List.finRange 5).all (fun k => decide (h.orig[k] ≤ v[k]) && decide (v[k] < h.orig[k] + h.ext[k])) then
    some ((List.finRange 5).foldr (fun k n => n * h.ext[k] + (v[k] - h.orig[k])) 0)
  else none

/-- The shards of a list that hold element `n` of the destination, by their index in the directory. -/
def coverOf (t : Tensor) (orig : Vector Nat 5) (shards : List (Option Shard)) (n : Nat) : List Nat :=
  (List.range shards.length).filter (fun i =>
    match shards[i]?.getD none with
    | some h => (h.index (addCoord orig (boxCoord t.ext n))).isSome
    | none => false)

/-- The elements of the destination that a further shard writes, with their places in it: those that no earlier shard covers
(R216), in the destination's order: in which order a shard's elements land R216 leaves open (the model's choice, log entry 99). -/
def shardElems (t : Tensor) (orig : Vector Nat 5) (earlier : List (Option Shard)) (h : Shard) : List (Nat × Nat) :=
  (List.range (boxCount t.ext)).filterMap (fun n =>
    if (coverOf t orig earlier n).isEmpty then (h.index (addCoord orig (boxCoord t.ext n))).map (fun m => (n, m)) else none)

/-- The bytes that elements of a shard bring: each destination offset with its byte. -/
def State.shardBytes (s : State) (c : CopyCmd) (t : Tensor) (h : Shard) : List (Nat × Nat) → Eng (List (Nat × Byte))
  | [] => .ok []
  | (n, m) :: rest => do
    let e := fmtSize t.fmt
    let x ← s.shardPayload c h.loc h.code ((List.range e).map (m * e + ·))
    let xs ← State.shardBytes s c t h rest
    return ((List.range e).zip x).map (fun q => (t.offset (boxCoord t.ext n) + q.1, q.2)) ++ xs

/-- The engine takes the next shard of a COPYR's directory (R216). The shards before the one with which a record resumes have
landed: no byte of theirs lands past the granules that had (R217). -/
def State.takeShard (s : State) (c : CopyCmd) (p : CopyPlan) : Eng CopyPlan :=
  match p with
  | .shardIn t orig gext tid locs mark shards bytes =>
    match locs[shards.length]? with
    | some l => do
      let x ← s.readShard c t tid gext l (decide (shards.length < c.taken))
      match x with
      | none => return .shardIn t orig gext tid locs mark (shards ++ [none]) bytes
      | some h =>
        let new ← s.shardBytes c t h (shardElems t orig shards h)
        let all := bytes ++ new
        return .shardIn t orig gext tid locs mark (shards ++ [some h])
          (if shards.length < mark.next then all.take (4096 * c.landed) else all)
    | none => return p
  | _ => return p

/-- The plan of a COPYR: its directory; the shards follow as the granules need them (R206, R216). -/
def State.readDirectory (s : State) (c : CopyCmd) (dir : DWord) (t : Tensor) (orig gext : Vector Nat 5) : Eng CopyPlan := do
  engNeed (fmtOk t.fmt) 6
  engNeed (c.locOk dir) 5
  let head ← s.locBytes c dir 0 16
  let count := natAt head 8 4
  engNeed (decide (1 ≤ count) && decide (count ≤ 4096) && zeroAt head 12 4) 5
  let b ← s.locBytes c dir 16 (8 * count)
  return .shardIn t orig gext (natAt head 0 8) ((List.range count).map (fun i => dwordAt b (8 * i))) c.mark [] []

/-- What a command transfers, and its barrier offset, as the engine reads it when the command starts. -/
def State.planOf (s : State) (c : CopyCmd) : Eng (CopyPlan × Nat) :=
  match c.form with
  | .linear src dst n code => do
    engNeed (c.locOk src && c.locOk dst) 5
    s.checkBar c c.bar.toNat
    engNeed (spanOk dst code) 4
    return (.linear src dst n code, c.bar.toNat)
  | .described a => s.readDescribed c a
  | .gather a => s.readGather c a
  | .shardOut dst tid _ t orig gext => do
    engNeed (fmtOk t.fmt) 6
    engNeed (c.locOk dst) 5
    s.checkBar c c.bar.toNat
    engNeed (decide (t.swz = 0) || decide ((locBase dst + 128) % (16 * 2 ^ t.swz) = 0)) 4
    return (.shardOut dst t tid orig gext (if c.landed = 0 then some [] else none), c.bar.toNat)
  | .shardIn dir _ t orig gext => do
    s.checkBar c c.bar.toNat
    let p ← s.readDirectory c dir t orig gext
    return (p, c.bar.toNat)

/-- The bytes that the engine reads as it starts a command: its descriptor or its directory. -/
def State.planPlaces (s : State) (c : CopyCmd) : List (DWord × Nat) :=
  match c.form with
  | .linear _ _ _ _ => []
  | .described a => locRun a 0 128
  | .gather a => locRun a 0 64
  | .shardOut _ _ _ _ _ _ => []
  | .shardIn dir _ _ _ _ =>
    match s.locBytes c dir 0 16 with
    | .ok head => locRun dir 0 (16 + (if natAt head 8 4 ≤ 4096 then 8 * natAt head 8 4 else 0))
    | .error _ => locRun dir 0 16

/-- The bytes that the engine reads as it takes the next shard of a directory: its header and its payload. -/
def State.shardPlaces (s : State) (c : CopyCmd) (p : CopyPlan) : List (DWord × Nat) :=
  match p with
  | .shardIn _ _ _ _ locs _ shards _ =>
    match locs[shards.length]? with
    | some l =>
      match s.locBytes c l 0 128 with
      | .ok h => locRun l 0 (128 + (if natAt h 0 4 = 0x48535843 then natAt h 80 8 else 0))
      | .error _ => locRun l 0 128
    | none => []
  | _ => []

/-! ### Bytes and granules (R206) -/

/-- The destination bytes of a plan, a COPYS's header apart; of a COPYR, those that the shards taken so far bring. -/
def CopyPlan.total : CopyPlan → Nat
  | .linear _ _ n _ => n
  | .box _ _ _ e _ _ _ bx => boxCount bx * e
  | .gather _ _ _ count rowb _ _ => count * rowb
  | .shardOut _ t _ _ _ _ => boxCount t.ext * fmtSize t.fmt
  | .shardIn _ _ _ _ _ _ _ bytes => bytes.length

/-- The swizzle span with which a plan's destination is written (R205). -/
def CopyPlan.span : CopyPlan → Nat
  | .linear _ _ _ code => code
  | .box _ (.object t) _ _ _ _ _ _ => t.swz
  | .box _ (.locator _) _ _ code _ _ _ => code
  | .gather _ _ _ _ _ _ code => code
  | .shardOut _ t _ _ _ _ => t.swz
  | .shardIn t _ _ _ _ _ _ _ => t.swz

/-- Where byte `i` of a side of a box lies: a locator and an offset. -/
def sideAt (x : Side) (e code : Nat) (org box : Vector Nat 5) (i : Nat) : DWord × Nat :=
  match x with
  | .locator l => (l, swz i code)
  | .object t => (t.base, swz (t.offset (addCoord org (boxCoord box (i / e))) + i % e) t.swz)

/-- Where destination byte `i` of a plan lies (R205, R211 to R216). -/
def CopyPlan.dest (p : CopyPlan) (i : Nat) : DWord × Nat :=
  match p with
  | .linear _ dst _ code => (dst, swz i code)
  | .box _ dst _ e code _ dorg bx => sideAt dst e code dorg bx i
  | .gather _ dst _ _ _ _ code => (dst, swz i code)
  | .shardOut dst t _ _ _ _ =>
    let n := boxCount t.ext * fmtSize t.fmt
    if i < n then (dst, 128 + swz i t.swz) else (dst, i - n)
  | .shardIn t _ _ _ _ _ _ bytes => (t.base, swz ((bytes[i]?.getD (0, 0)).1) t.swz)

/-- A COPYS's header (R214): the digest is over the payload that it has sent or, where it is resumed, as it stands written
(R215). -/
def State.shardHeader (s : State) (c : CopyCmd) (dst : DWord) (t : Tensor) (tid : DWord) (orig gext : Vector Nat 5) :
    Option (List Byte) → Eng (List Byte)
  | some sent =>
    let head := shardHead t tid orig gext
    .ok (head ++ sm3 (head ++ sent) ++ natBytes 8 0)
  | none => do
    let payload ← s.shardPayload c dst t.swz (List.range (boxCount t.ext * fmtSize t.fmt))
    let head := shardHead t tid orig gext
    return head ++ sm3 (head ++ payload) ++ natBytes 8 0

/-- Where the source byte of destination byte `i` lies, where it comes from memory as the granule lands. SRC + IDX[k] × STRIDE is
summed without a modulus (R213, log entry 83). -/
def State.sourceAt (s : State) (c : CopyCmd) (p : CopyPlan) (i : Nat) : Eng (Option (DWord × Nat)) :=
  match p with
  | .linear src _ _ _ => .ok (some (src, i))
  | .box src _ _ e _ sorg _ box => .ok (some (sideAt src e 0 sorg box i))
  | .gather src _ idx _ rowb stride _ => do
    let b ← s.locBytes c idx (4 * (i / rowb)) 4
    return some (src, bytesNat b * stride.toNat + i % rowb)
  | .shardOut _ t _ _ _ _ =>
    if i < boxCount t.ext * fmtSize t.fmt then .ok (some (sideAt (.object t) (fmtSize t.fmt) 0 (Vector.replicate 5 0) t.ext i))
    else .ok none
  | .shardIn _ _ _ _ _ _ _ _ => .ok none

/-- The key of that source byte. -/
def State.sourceKey (s : State) (c : CopyCmd) (p : CopyPlan) (i : Nat) : Eng (Option Nat) := do
  match ← s.sourceAt c p i with
  | some q => do
    let k ← s.locKey c .read q.1 q.2
    return some k
  | none => return none

/-- The source byte of destination byte `i`. -/
def State.sourceByte (s : State) (c : CopyCmd) (p : CopyPlan) (i : Nat) : Eng Byte :=
  match s.sourceKey c p i with
  | .error e => .error e
  | .ok (some k) => .ok (s.engineByte c.cluster k)
  | .ok none =>
    match p with
    | .shardOut dst t tid orig gext sent => do
      let head ← s.shardHeader c dst t tid orig gext sent
      return head.getD (i - boxCount t.ext * fmtSize t.fmt) 0
    | .shardIn _ _ _ _ _ _ _ bytes => .ok ((bytes[i]?.getD (0, 0)).2)
    | _ => .ok 0

/-- The bytes that the engine reads as a granule lands: its sources, the index words of a gather's rows, and the payload that a
resumed COPYS reads again for its header. -/
def State.sourcePlaces (s : State) (c : CopyCmd) (p : CopyPlan) (is : List Nat) : List (DWord × Nat) :=
  (match p with
   | .gather _ _ idx _ rowb _ _ => ((is.map (· / rowb)).eraseDups).flatMap (fun r => locRun idx (4 * r) 4)
   | .shardOut dst t _ _ _ none =>
     let n := boxCount t.ext * fmtSize t.fmt
     if is.any (fun i => decide (n ≤ i)) then locRun dst 128 n else []
   | _ => []) ++
  is.filterMap (fun i => match s.sourceAt c p i with
    | .ok q => q
    | .error _ => none)

/-- The number of granules of a plan: runs of 4,096 bytes, and a COPYS's header as a last one of 128 (R206, R215). -/
def CopyPlan.granules (p : CopyPlan) : Nat :=
  (p.total + 4095) / 4096 + (match p with
    | .shardOut _ _ _ _ _ _ => 1
    | _ => 0)

/-- The bytes of granule `k`: the first, and how many. -/
def CopyPlan.granule (p : CopyPlan) (k : Nat) : Nat × Nat :=
  if 4096 * k < p.total then (4096 * k, min 4096 (p.total - 4096 * k))
  else if k < p.granules then (p.total, 128)
  else (p.total, 0)

/-- A COPYR has shards of its directory to take still. -/
def CopyPlan.more : CopyPlan → Bool
  | .shardIn _ _ _ _ locs _ shards _ => decide (shards.length < locs.length)
  | _ => false

/-- The payload that a COPYS sends, so far (R215). -/
def CopyPlan.sending (p : CopyPlan) (bytes : List Byte) : CopyPlan :=
  match p with
  | .shardOut dst t tid orig gext sent => .shardOut dst t tid orig gext (sent.map (· ++ bytes))
  | q => q

/-- The keys of destination bytes and the bytes for them. -/
def State.granuleCells (s : State) (c : CopyCmd) (p : CopyPlan) : List Nat → Eng (List Host.Cell)
  | [] => .ok []
  | i :: is => do
    let x ← s.sourceByte c p i
    let k ← s.locKey c .write (p.dest i).1 (p.dest i).2
    let rest ← State.granuleCells s c p is
    return (k, x) :: rest

/-- The bytes of a granule are written. -/
def State.engineWrites (s : State) (cluster : Nat) : List Host.Cell → State
  | [] => s
  | c :: cs => State.engineWrites (s.engineWrite cluster c.1 c.2) cluster cs

/-- The lines that a command has written whole are allocated for its class and tagged with its span (R152, R205); under
`.nol2` they are written back past L2 (R137). -/
def State.tagLines (s : State) (c : CopyCmd) (code : Nat) (keys : List Nat) : List Nat → State
  | [] => s
  | l :: ls =>
    let whole := isShared (128 * l) && (List.range 128).all (fun o => keys.contains (128 * l + o))
    let s1 : State := if whole then s.evictL2 c.cluster l else s
    let s2 : State :=
      if whole && decide (c.cp ≠ 3) then
        s1.allocL2 { cluster := c.cluster, line := l, cls := c.cls, prio := cpPrio c.cp.toNat, tag := some code,
                     data := Vector.ofFn (fun o => s.backing (128 * l + o.val)) }
      else s1
    State.tagLines s2 c code keys ls

/-- The keys of a command's destination bytes that have landed before granule `k`. -/
def State.landedKeys (s : State) (c : CopyCmd) (p : CopyPlan) (k : Nat) : List Nat :=
  (List.range (min (4096 * k) p.total)).filterMap (fun i =>
    match s.locKey c .write (p.dest i).1 (p.dest i).2 with
    | .ok key => some key
    | .error _ => none)

/-! ### Commands in the machine -/

/-- A copy command by uid. -/
def State.copy? (s : State) (uid : Nat) : Option CopyCmd := s.copies.find? (fun c => c.uid = uid)

/-- Put a copy command back. -/
def State.setCopy (s : State) (c : CopyCmd) : State :=
  { s with copies := s.copies.map (fun x => if x.uid = c.uid then c else x) }

/-- The command stops here (R209): the token's STATUS, CAUSE and DETAIL; or it waits for a page of the host. -/
def State.copyStop (s : State) (c : CopyCmd) (detail : Nat) : CopyStop → State
  | .cause k => s.setCopy { c with ended := some (4, k, detail) }
  | .host v => (s.askHost c.fn c.pasid v).setCopy { c with waitHost := some v }

/-- The first rejected shard of a COPYR, so far. -/
def CopyPlan.bad : CopyPlan → Option Nat
  | .shardIn _ _ _ _ _ mark shards _ =>
    match mark.bad with
    | some i => some i
    | none => shards.findIdx? Option.isNone
  | _ => none

/-- The elements of a COPYR's destination that no shard taken so far covers. -/
def CopyPlan.gap : CopyPlan → Nat
  | .shardIn t orig _ _ _ _ shards _ =>
    ((List.range (boxCount t.ext)).filter (fun n => (coverOf t orig shards n).isEmpty)).length
  | _ => 0

/-- The elements covered more than once, so far: those of the record (R217), and those that a later shard was the second to cover. -/
def CopyPlan.overlap : CopyPlan → Nat
  | .shardIn t orig _ _ _ mark shards _ =>
    mark.lap + ((List.range (boxCount t.ext)).filter (fun n =>
      match (coverOf t orig shards n)[1]? with
      | some i => decide (mark.next ≤ i)
      | none => false)).length
  | _ => 0

/-- The bytes that the first `n` shards taken bring. -/
def shardSum (t : Tensor) (orig : Vector Nat 5) (shards : List (Option Shard)) (n : Nat) : Nat :=
  ((List.range n).map (fun i => match shards[i]?.getD none with
    | some h => (shardElems t orig (shards.take i) h).length * fmtSize t.fmt
    | none => 0)).sum

/-- Where a COPYR stands as it is suspended with some granules landed (R217): the first shard that has not landed whole, and what
the shards before it leave. -/
def CopyPlan.standing (landed : Nat) : CopyPlan → ShardMark
  | .shardIn t orig gext tid locs mark shards bytes =>
    let n := ((List.range (shards.length + 1)).filter (fun n => decide (shardSum t orig shards n ≤ 4096 * landed))).length - 1
    let p : CopyPlan := .shardIn t orig gext tid locs mark (shards.take (max mark.next n)) bytes
    ⟨max mark.next n, p.overlap, p.bad⟩
  | _ => ⟨0, 0, none⟩

/-- STATUS and DETAIL of a command that has landed every granule (R209, R216). -/
def CopyPlan.verdict (p : CopyPlan) : Nat × Nat × Nat :=
  match p.bad with
  | some i => (3, 0, i)
  | none => if p.gap ≠ 0 then (1, 0, p.gap) else if p.overlap ≠ 0 then (2, 0, p.overlap) else (0, 0, 0)

/-- A command is over once its last granule has landed. -/
def CopyCmd.settled (c : CopyCmd) (p : CopyPlan) : CopyCmd :=
  if !p.more && decide (p.granules ≤ c.landed) then { c with ended := some p.verdict } else c

/-- The acquire of a command waits (R165): for the group's waiting release stores and, at system scope, for the remote devices'
acknowledgements. A sub-launch's has no group whose accesses it waits for. -/
def State.copyAcquireWaits (s : State) (c : CopyCmd) : Bool :=
  c.acq && !c.acqDone &&
    (match c.group.bind s.group? with
     | some g => (decide (c.scope = 6) && !s.remoteDirty.isEmpty) || !g.relq.isEmpty
     | none => false)

/-- The command may be accepted by an engine, its class apart (R198, R199): the choice of its register, push order, and one after
another on one engine; a sub-launch's command by any engine of the part, of a cluster of its world (R305, R337), on a die whose
routes take requests (R341). A command that a changed record has given to another group stands in no register (R217). -/
def State.copyReady (s : State) (c : CopyCmd) (engine : Nat) : Bool :=
  c.engine.isNone && c.ended.isNone && !c.suspended && c.waitHost.isNone && !s.copyAcquireWaits c &&
  match c.group with
  | some u =>
    decide (engine < 2) && (decide (c.eng = 0) || decide (c.eng = engine + 1)) &&
    (match s.group? u with
     | some g =>
       let xs := (g.queue c.reg).entries
       !xs.contains (BitVec.ofNat 64 c.uid) || decide (xs.head? = some (BitVec.ofNat 64 c.uid))
     | none => false) &&
    s.copies.all (fun d => !(d.group = some u && decide (d.reg = c.reg) && d.engine = some engine && d.ended.isNone))
  | none =>
    decide (engine < 96) && s.built.clusters.getLsbD (engine / 2) && !s.resetting (dieOfCluster (engine / 2)) &&
    decide (s.regs.clWorld.getLsbD (engine / 2) = s.regs.fnSecure c.fn)

/-- Guaranteed work is on an engine of a cluster, or ready for it: harvest commands wait (R208). -/
def State.guaranteedAt (s : State) (cluster e : Nat) : Bool :=
  s.copies.any (fun d => decide (d.cls = 0) && d.ended.isNone && !d.suspended && d.waitHost.isNone &&
    (match d.engine, d.group with
     | some x, _ => decide (x = e) && decide (d.cluster = cluster)
     | none, some _ => decide (d.cluster = cluster) && s.copyReady d e
     | none, none => s.copyReady d (2 * cluster + e)))

/-- The cluster and the engine that an engine's number names for a command. -/
def CopyCmd.engineAt (c : CopyCmd) (engine : Nat) : Nat × Nat :=
  if c.group.isSome then (c.cluster, engine) else (engine / 2, engine % 2)

/-- The command may be accepted by an engine (R198, R199, R208). -/
def State.copyMayStart (s : State) (c : CopyCmd) (engine : Nat) : Bool :=
  s.copyReady c engine &&
    (decide (c.cls = 0) || !s.guaranteedAt (c.engineAt engine).1 (c.engineAt engine).2)

/-- The command register has given its head to the engine (R199); a command that a changed record has given to another group stood
in none (R217). -/
def State.copyAccept (s : State) (c : CopyCmd) : State :=
  match c.group with
  | some u => s.onQueueOf u c.reg (fun r =>
      if r.entries.head? = some (BitVec.ofNat 64 c.uid) then { r with entries := r.entries.drop 1, rel := r.rel.drop 1 } else r)
  | none => s

/-- A described command of a sub-launch takes its flags from its descriptor, which is read first (R305, R212); one that resumes has
those of its record, as one whose record was changed has (R217). -/
def State.subFlags (s : State) (c : CopyCmd) : CopyCmd :=
  match c.group, c.form with
  | none, .described a =>
    if c.again || c.keepFlags then c else
    match s.locBytes c a 29 1 with
    | .ok (f :: _) => { c with acq := f.getLsbD 0, rel := f.getLsbD 1, scope := f.toNat / 4 % 8 }
    | _ => c
  | _, _ => c

/-- The destination byte at which a command goes on: 0, or the first granule that a suspended one has not landed (R209). -/
def CopyCmd.resumesAt (c : CopyCmd) : Nat :=
  match c.form with
  | .shardOut _ _ _ t _ _ => min (4096 * c.landed) (boxCount t.ext * fmtSize t.fmt)
  | _ => 4096 * c.landed

/-- The acquire flag of a command at system scope, as its engine makes it before it reads: the cluster's clean copies of HOST lines
go (R136, R165). -/
def State.acquireEngine (s : State) (c : CopyCmd) : State :=
  if c.acq && decide (c.scope = 6) then (s.dropForeignL2 c.cluster).seeHost else s

/-- The engine reads what the command is about (R210, R212, R213, R216), its acquire having been made. A page that it waits for is
read when it has come. -/
def State.copyPlan (s : State) (c : CopyCmd) : State :=
  let c1 := s.subFlags c
  let s1 := s.acquireEngine c1
  match s1.planOf c1 with
  | .error e => (s1.engineTries c1 (s1.planPlaces c1) e).copyStop c1 c1.resumesAt e
  | .ok (p, bar) =>
    (s1.engineReads c1 (s1.planPlaces c1)).setCopy (({ c1 with plan := some p, bar := BitVec.ofNat 32 bar, waitHost := none, acqDone := c1.acq } : CopyCmd).settled p)

/-- COPY_COMMAND_START (R199). -/
def execCopyCommandStart (s : State) : Out :=
  match s.ev with
  | .cmd u engine =>
    match s.copy? u with
    | some c =>
      if s.copyMayStart c engine then
        let at_ := c.engineAt engine
        let c1 : CopyCmd := { c with engine := some at_.2, cluster := at_.1, acqDone := c.acq }
        .next (((s.copyAccept c).setCopy c1).copyPlan c1)
      else .refused (.notEnabled "COPY_COMMAND_START")
    | none => .refused (.notEnabled "COPY_COMMAND_START")
  | _ => .refused (.notEnabled "COPY_COMMAND_START")

/-- A guaranteed command is served on the engine before this one's next granule (R208). -/
def State.guaranteedFirst (s : State) (c : CopyCmd) : Bool :=
  decide (c.cls = 1) && s.guaranteedAt c.cluster (c.engine.getD 0)

/-- The landed bytes of a granule are counted into the command's barrier (R166, R206). -/
def State.countLanded (s : State) (c : CopyCmd) (n : Nat) : State :=
  if c.bar = 0xFFFFFFFF || c.group.isNone then s
  else s.onScratchBar (keyScratch c.band c.inst c.bar.toNat) (fun b => b.add n)

/-- A COPYR takes the next shard of its directory. -/
def State.nextShard (s : State) (c : CopyCmd) (p : CopyPlan) : State :=
  match s.takeShard c p with
  | .error e => (s.engineTries c (s.shardPlaces c p) e).copyStop c (4096 * c.landed) e
  | .ok q => (s.engineReads c (s.shardPlaces c p)).setCopy (({ c with plan := some q, waitHost := none } : CopyCmd).settled q)

/-- The scope at which a command's release is carried out: a sub-launch's has device scope instances (R158). -/
def CopyCmd.relScope (c : CopyCmd) : Nat := if c.group.isNone then max 5 c.scope else c.scope

/-- A command's writes are performed at the scope of its release flag before it completes (R158, R165). -/
def State.copyRelease (s : State) (c : CopyCmd) : State :=
  if c.rel then
    let s1 := s.invalidateStale c.cluster c.relScope
    if c.scope = 6 then s1.flushHost else s1
  else s

/-- A command's writes are performed at the scope of its release flag before it completes, by its last count as by its token (R158,
R165). The shards that a COPYR has still to take may bring no byte, so that any of its full granules may be its last count. -/
def State.releaseLast (s : State) (c : CopyCmd) : State :=
  if c.ended.isSome || (c.plan.map CopyPlan.more).getD false then s.copyRelease c else s

/-- The destinations of bytes of a granule are translated (R335). -/
def State.walkDests (s : State) (c : CopyCmd) (p : CopyPlan) (is : List Nat) : State :=
  s.walkVas c.fn c.pasid (is.filterMap (fun i => locVa (p.dest i)))

/-- One granule of a command (R206, R209); its reads and writes count as the tenant's at L2 (R335). Its sources are read in the step in
which it lands: that reads can run ahead of landing, by how much or when, R206 leaves open (log entry 8). -/
def State.landOne (s : State) (c : CopyCmd) (p : CopyPlan) : State :=
  let (first, n) := p.granule c.landed
  let is := (List.range n).map (first + ·)
  match s.granuleCells c p is with
  | .error e => ((s.engineTries c (s.sourcePlaces c p is) e).walkDests c p is).copyStop c first e
  | .ok cells =>
    let keys := cells.map (·.1)
    let s0 := ((s.engineReads c (s.sourcePlaces c p is)).walkDests c p is).noteOrigin
      ⟨c.fn, c.pasid, c.ctx, c.cls, dieOfCluster c.cluster⟩ keys
    let s1 := (s0.wroteLines c.cluster ⟨c.fn, c.cls, c.cp.toNat⟩ keys).engineWrites c.cluster cells
    let s2 := s1.tagLines c p.span (keys ++ s.landedKeys c p c.landed) ((keys.map lineOf).eraseDups)
    let q := if first < p.total then p.sending (cells.map (·.2)) else p
    let c1 := ({ c with landed := c.landed + 1, plan := some q, waitHost := none } : CopyCmd).settled q
    (((s2.releaseLast c1).countLanded c n).countEvent c.fn 7 n).setCopy c1

/-- The next step of a command that runs (R206, R216): a COPYR whose next granule is not full yet takes a shard first. -/
def State.landGranule (s : State) (c : CopyCmd) (p : CopyPlan) : State :=
  if p.more && decide (p.total < 4096 * (c.landed + 1)) then s.nextShard c p else s.landOne c p

/-- GRANULE_LAND (R206). -/
def execGranuleLand (s : State) : Out :=
  match s.ev with
  | .cmd u _ =>
    match s.copy? u with
    | some c =>
      match c.plan with
      | some p =>
        if c.ended.isNone && !c.suspended && c.engine.isSome && c.waitHost.isNone && !s.guaranteedFirst c then
          .next (s.landGranule c p)
        else .refused (.notEnabled "GRANULE_LAND")
      | none =>
        if c.ended.isNone && !c.suspended && c.engine.isSome && c.waitHost.isNone then .next (s.copyPlan c)
        else .refused (.notEnabled "GRANULE_LAND")
    | none => .refused (.notEnabled "GRANULE_LAND")
  | _ => .refused (.notEnabled "GRANULE_LAND")

/-! ### Tokens (R165, R201, R209) -/

/-- The token of a command that has ended. -/
def copyToken (tag : BitVec 16) (status cause detail : Nat) : DWord :=
  BitVec.ofNat 64 (tag.toNat + status % 8 * 2 ^ 16 + cause % 32 * 2 ^ 19 + detail % 2 ^ 40 * 2 ^ 24)

/-- The latched YIELD events of R75. -/
def latchCopy : BitVec 3 := 2
/-- The wake of R75. -/
def latchWake : BitVec 3 := 4

/-- A token is placed in a completion register, and event 1 latched (R201). -/
def State.placeToken (s : State) (uid reg : Nat) (token : DWord) (rel : Nat) : State :=
  s.mapGroups (fun g => decide (g.id.uid = uid))
    (fun g => { g.onQueue reg (fun r => r.push token rel) with latch := g.latch ||| latchCopy })

/-- The group is evicted, so the engine holds its tokens (R201). -/
def State.isEvicted (s : State) (uid : Nat) : Bool :=
  match s.group? uid with
  | some g => (match g.status with
    | .evicted _ _ _ => true
    | _ => false)
  | none => false

/-- The token goes to its register, or is held for an evicted group, or is dropped (R201, R208). -/
def State.deliverToken (s : State) (c : CopyCmd) (token : DWord) : State :=
  match c.group with
  | none => s
  | some u =>
    let rel := if c.rel then c.scope else 0
    if c.dropToken then s
    else if s.isEvicted u then { s with tokens := s.tokens ++ [⟨u, c.doneReg, token, if c.rel then some c.scope else none⟩] }
    else s.placeToken u c.doneReg token rel

/-- A sub-launch's copy reports its fault to its bundle: CAUSE and list entry (R305). -/
def State.subFault (s : State) (c : CopyCmd) (status cause : Nat) : State :=
  if c.group.isSome || status = 0 then s
  else
    { s with
      bundles := s.bundles.map (fun b =>
        if b.uid = c.bundle then
          match b.subs[c.sub]? with
          | some x => { b with subs := b.subs.set c.sub { x with fault := some (match x.fault with
              | some (k, e) => if c.entry < e then (cause, c.entry) else (k, e)
              | none => (cause, c.entry)) } }
          | none => b
        else b) }

/-- The token of an earlier command of the register and the engine comes first (R199). -/
def State.tokenBefore (s : State) (c : CopyCmd) : Bool :=
  c.group.isSome && s.copies.any (fun d => decide (d.group = c.group) && decide (d.reg = c.reg) &&
    decide (d.engine = c.engine) && decide (d.uid < c.uid))

/-- COPY_TOKEN (R209): the command is over. -/
def execCopyToken (s : State) : Out :=
  match s.ev with
  | .cmd u _ =>
    match s.copy? u with
    | some c =>
      match c.ended with
      | some (status, cause, detail) =>
        if s.tokenBefore c then .refused (.notEnabled "COPY_TOKEN")
        else
          let s1 := ((s.copyRelease c).deliverToken c (copyToken c.tag status cause detail)).subFault c status cause
          .next { s1 with copies := s1.copies.filter (fun d => d.uid ≠ u) }
      | none => .refused (.notEnabled "COPY_TOKEN")
    | none => .refused (.notEnabled "COPY_TOKEN")
  | _ => .refused (.notEnabled "COPY_TOKEN")

/-! ### The resumable copy record (R217) -/

/-- KIND of a command's record. -/
def CopyCmd.kindCode (c : CopyCmd) : Nat :=
  if c.group.isNone then 6
  else match c.form with
    | .linear _ _ _ _ => 1
    | .described _ => 2
    | .gather _ => 3
    | .shardOut _ _ _ _ _ _ => 4
    | .shardIn _ _ _ _ _ => 5

/-- SRC, DST, BYTES, OBJ and SWZ of a record. -/
def CopyForm.fields : CopyForm → DWord × DWord × Nat × Nat × Nat
  | .linear src dst n code => (src, dst, n, 0, code)
  | .described a => (a, 0, 0, 0, 0)
  | .gather a => (a, 0, 0, 0, 0)
  | .shardOut dst tid obj _ _ _ => (0, dst, tid.toNat, obj, 0)
  | .shardIn dir obj _ _ _ => (dir, 0, 0, obj, 0)

/-- FLAGS of a command's record. -/
def CopyCmd.flagBits (c : CopyCmd) : Nat :=
  let flag (x : Bool) (k : Nat) : Nat := if x then 2 ^ k else 0
  flag c.acq 0 + flag c.rel 1 + c.scope * 4 + flag c.acqDone 5

/-- The record that a suspended command leaves. -/
def State.copyRecord (s : State) (c : CopyCmd) : List Byte :=
  let (src, dst, n, obj, code) := c.form.fields
  let grpx := match c.group.bind s.group? with
    | some g => g.id.grpx
    | none => 0xFF
  natBytes 1 c.kindCode ++ natBytes 1 c.flagBits ++ natBytes 1 c.cp.toNat ++
  natBytes 1 (c.doneReg + 16 * c.eng) ++ natBytes 1 grpx ++ natBytes 1 c.inst ++ natBytes 2 c.tag.toNat ++
  natBytes 8 c.landed ++ natBytes 8 src.toNat ++ natBytes 8 dst.toNat ++ natBytes 8 n ++ natBytes 4 c.bar.toNat ++
  natBytes 2 obj ++ natBytes 2 code ++ natBytes 4 c.mark.next ++ natBytes 6 c.mark.lap ++
  natBytes 2 (c.mark.bad.getD 0xFFFF) ++ natBytes 4 0

/-- The TENSOR that a command has checked at its issue (R333), with its index and whether it reads from it. -/
def CopyForm.kept : CopyForm → Option (Nat × Bool × Tensor × Vector Nat 5 × Vector Nat 5)
  | .shardOut _ _ obj t orig gext => some (obj, true, t, orig, gext)
  | .shardIn _ obj t orig gext => some (obj, false, t, orig, gext)
  | _ => none

/-- The TENSOR of a record: the one that its command keeps from its issue (R333), or where the record names another, that one as it
is installed now; none where it fails as OBJ does. -/
def State.recordTensor (s : State) (c : CopyCmd) (obj : Nat) (out : Bool) : Option (Tensor × Vector Nat 5 × Vector Nat 5) :=
  match c.form.kept with
  | some (o, d, t) => if o = obj && d = out then some t else s.tensor? c.ctx obj [if out then 0 else 1, 2]
  | none => s.tensor? c.ctx obj [if out then 0 else 1, 2]

/-- The form that a record names; none where its TENSOR fails. The rule names no fate for a SWZ or a CP past its field: the model
takes both modulo 8 (log entry 83). -/
def State.recordForm (s : State) (c : CopyCmd) (kind : Nat) (b : List Byte) : Option CopyForm :=
  let src := dwordAt b 16
  let dst := dwordAt b 24
  let obj := natAt b 44 2
  let out : Option CopyForm :=
    (s.recordTensor c obj true).map (fun t => .shardOut dst (dwordAt b 32) obj t.1 t.2.1 t.2.2)
  match kind with
  | 1 => some (.linear src dst (natAt b 32 8) ((byteAt b 46).toNat % 8))
  | 2 => some (.described src)
  | 3 => some (.gather src)
  | 4 => out
  | 5 => (s.recordTensor c obj false).map (fun t => .shardIn src obj t.1 t.2.1 t.2.2)
  | _ =>
    match c.form with
    | .shardOut _ _ _ _ _ _ => out
    | _ => some (.described src)

/-- The group that a record names. -/
def State.recordGroup (s : State) (band : Nat) (b : List Byte) : Option Group :=
  s.groups.find? (fun g => decide (g.id.band = band) && decide (g.id.grpx = (byteAt b 4).toNat) &&
    decide (g.id.inst = (byteAt b 5).toNat) && g.helper.isNone)

/-- The checks of a restored record: its zero fields, its KIND, and its register, instance and index. -/
def State.copyRecordOk (s : State) (c : CopyCmd) (b : List Byte) : Bool :=
  let kind := (byteAt b 0).toNat
  zeroAt b 47 1 && zeroAt b 57 1 && zeroAt b 60 4 && decide (1 ≤ kind) && decide (kind ≤ 6) &&
  decide ((byteAt b 1).toNat < 64) && decide ((byteAt b 3).toNat < 48) && decide ((byteAt b 5).toNat < 16) &&
  (if kind = 6 then decide ((byteAt b 4).toNat = 0xFF) else (s.recordGroup c.band b).isSome) &&
  decide (natAt b 44 2 < max 1 (((s.ctx? c.ctx).map (·.objn)).getD 0)) && decide (natAt b 48 4 ≤ 4096) &&
  (decide (natAt b 58 2 = 0xFFFF) || decide (natAt b 58 2 < 4096))

/-- The suspended command as its record has it. -/
def State.copyRestored (s : State) (c : CopyCmd) (b : List Byte) : CopyCmd :=
  let kind := (byteAt b 0).toNat
  let flags := byteAt b 1
  let c1 : CopyCmd := { c with
    group := if kind = 6 then none else (s.recordGroup c.band b).map (fun g => g.id.uid),
    inst := (byteAt b 5).toNat, doneReg := (byteAt b 3).toNat % 16, eng := (byteAt b 3).toNat / 16, tag := BitVec.ofNat 16 (natAt b 6 2),
    acq := flags.getLsbD 0, rel := flags.getLsbD 1, scope := flags.toNat / 4 % 8, acqDone := flags.getLsbD 5,
    cp := (byteAt b 2).setWidth 3, landed := natAt b 8 8, bar := BitVec.ofNat 32 (natAt b 40 4),
    keepBar := c.keepBar || decide (natAt b 40 4 ≠ c.bar.toNat), keepFlags := c.keepFlags || decide (flags.toNat ≠ c.flagBits),
    mark := ⟨natAt b 48 4, natAt b 52 5, if natAt b 58 2 = 0xFFFF then none else some (natAt b 58 2)⟩ }
  match s.recordForm c kind b with
  | some f => { c1 with form := f }
  | none => { c1 with ended := some (4, 3, c1.resumesAt) }

/-- The shards of its directory that a COPYR has taken. -/
def CopyPlan.shardsTaken : CopyPlan → Nat
  | .shardIn _ _ _ _ _ _ shards _ => shards.length
  | _ => 0

/-- A command suspends at a granule boundary (R208): a command that has not ended forgets its descriptor and keeps where it
stands. -/
def CopyCmd.suspend (c : CopyCmd) : CopyCmd :=
  if c.ended.isSome then c
  else
    { c with suspended := true, plan := none, again := c.again || c.plan.isSome,
             taken := max c.taken ((c.plan.map CopyPlan.shardsTaken).getD 0),
             mark := (c.plan.map (CopyPlan.standing c.landed)).getD c.mark }

/-! ### The copy instructions (R210) -/

/-- The form that a copy instruction captures; none where an object fails (OBJ). -/
def State.copyForm (s : State) (op : CopyOp) (f : EX) : Option (CopyForm × Word) :=
  let g := s.grp
  let a := g.rp f.a
  let k := f.imm.toNat
  let bar := if f.sub = 1 then g.rs f.c else 0xFFFFFFFF
  match op with
  | .linear => some (.linear a (g.rp f.b) (g.rs f.c).toNat (f.imm.toNat % 8), if f.c = 0 then 0 else g.rs (f.c + 1))
  | .described => some (.described a, 0xFFFFFFFF)
  | .gather => some (.gather a, 0xFFFFFFFF)
  | .shardOut => (s.tensor? g.id.ctx k [0, 2]).map (fun t => (.shardOut a (g.rp f.b) k t.1 t.2.1 t.2.2, bar))
  | .shardIn => (s.tensor? g.id.ctx k [1, 2]).map (fun t => (.shardIn a k t.1 t.2.1 t.2.2, bar))

/-- The command register's links: its completion register and engine choice. -/
def QReg.copyLink (r : QReg) : Option (Nat × Nat) :=
  match r.kind with
  | .copy d e => some (d, e)
  | _ => none

/-- The acquire flag at any scope makes the issuing group's earlier accesses performed at least at band scope, its dirty L1
bytes written back (R165); its waiting release stores are performed at the wider of their own scope and that one. Without it the command still comes after the
loads from which its operands were computed, as the group's own accesses would: what such a load has synchronised with at team scope
may stand in the core's L1 only, and is written back (R165, log entry 92). -/
def State.engineAcquire (s : State) (acq : Bool) (scope : Nat) : State :=
  if acq then
    let s1 := (s.releaseAt s.grp.coreNo (max 3 scope)).onGrp (fun g =>
      { g with relq := g.relq.map (fun r => { r with scope := max r.scope (engineScope scope) }), acqLoad := false })
    if scope = 6 then s1.sendRemoteWrites s1.remoteDirty else s1
  else if s.grp.acqLoad then (s.cleanCore s.grp.coreNo).onGrp (fun g => { g with acqLoad := false })
  else s

/-- A command is pushed: its uid joins the command register, one more is outstanding, and the tag is used (R198, R199). -/
def State.pushCopy (s : State) (p : Option Pfx) (f : EX) (form : CopyForm) (bar : Word) (link : Nat × Nat) : State :=
  let g := s.grp
  let e := g.eff p
  let q := f.q.toNat
  let cmd : CopyCmd :=
    { uid := s.nextId, form := form, group := some g.id.uid, ctx := g.id.ctx, pasid := g.id.pasid, fn := g.id.fn,
      cls := g.id.cls, band := g.id.band, inst := g.id.inst, cluster := g.id.cluster, core := g.id.core, reg := q,
      doneReg := link.1, eng := link.2, tag := g.copyTag, acq := acquires e.ord, acqDone := false,
      rel := releases e.ord, scope := e.scope, cp := BitVec.ofNat 3 e.cp, bar := bar, mark := ⟨0, 0, none⟩, bundle := 0, sub := 0, entry := 0, engine := none, plan := none, landed := 0,
      ended := none, suspended := false, again := false, keepBar := false, keepFlags := false, taken := 0, dropToken := false, waitHost := none, denied := false }
  let s1 := s.engineAcquire cmd.acq cmd.scope
  let s2 := s1.onGrp (fun h =>
    { ((h.onQueue q (fun r => r.push (BitVec.ofNat 64 s.nextId) 0)).onQueue link.1
        (fun r => { r with outstanding := r.outstanding + 1 })).ws f.d (h.copyTag.setWidth 32) with
      copyTag := h.copyTag + 1 })
  { s2 with copies := s2.copies ++ [cmd], nextId := s2.nextId + 1 }

/-- OBJ, QFAULT, the wait of R198, then the push. -/
def State.tryCopy (s : State) (op : CopyOp) (p : Option Pfx) (f : EX) : Run Ctl :=
  match s.copyForm op f with
  | none => .error (.trap { cause := .obj } s)
  | some (form, bar) =>
    match (s.grp.queue f.q.toNat).copyLink with
    | none => .error (.trap { cause := .qfault, trapa := some (f.q.setWidth 64) } s)
    | some link =>
      if decide ((s.grp.queue link.1).outstanding < 8) && decide ((s.grp.queue f.q.toNat).entries.length < 8) then
        .ok (.done (s.pushCopy p f form bar link))
      else .ok (.wait (.copyRoom op p f) s)

/-- A copy instruction: its fields, and the scalars it names. -/
def copyInstr (ok : Bool) (op : CopyOp) (p : Option Pfx) (f : EX) (s : State) : Out :=
  finish (pfxLen p) (do
    s.need (ok && s.grp.mayQueue) .illegal
    s.tryCopy op p f)

/-- The linear COPY (R211). -/
def execCopyLinear (p : Option Pfx) (f : EX) (s : State) : Out := copyInstr (Instr.copyLinear p f).wf .linear p f s
/-- The described COPY (R212). -/
def execCopyDescribed (p : Option Pfx) (f : EX) (s : State) : Out := copyInstr (Instr.copyDescribed p f).wf .described p f s
/-- COPYG (R213). -/
def execCopyg (p : Option Pfx) (f : EX) (s : State) : Out := copyInstr (Instr.copyg p f).wf .gather p f s
/-- COPYS (R215). -/
def execCopys (p : Option Pfx) (f : EX) (s : State) : Out := copyInstr (Instr.copys p f).wf .shardOut p f s
/-- COPYR (R216). -/
def execCopyr (p : Option Pfx) (f : EX) (s : State) : Out := copyInstr (Instr.copyr p f).wf .shardIn p f s

/-- COPY_ISSUE_UNBLOCK (R198): a token was popped or room has appeared. -/
def execCopyIssueUnblock (s : State) : Out :=
  withGroup "COPY_ISSUE_UNBLOCK" s (fun t =>
    match t.grp.waiting? with
    | some (.copyRoom op p f) =>
      match t.tryCopy op p f with
      | .ok (.wait _ _) => .refused (.notEnabled "COPY_ISSUE_UNBLOCK")
      | r => finish (pfxLen p) r
    | _ => .refused (.notEnabled "COPY_ISSUE_UNBLOCK"))

end Sys2Proof.Machine
end

