-- ==== Sys2Proof/Machine/MatrixStep.lean ====
section
/-! DEFINITION. What a matrix command computes: the format block (12_matrix.md R221, R222), panels and scales (R223, R224),
StepAdd (R225), and the converting store (R236). -/

namespace Sys2Proof.Machine

open Sys2Proof

/-! ### The format block (R222) -/

/-- The format block of a loop. -/
structure FmtBlock where
  afmt : Byte
  bfmt : Byte
  ascaled : Bool
  alen : Nat
  bscaled : Bool
  blen : Nat
  ascl : DWord
  bscl : DWord
  deriving DecidableEq, Repr

/-- The block in 32 bytes. -/
def FmtBlock.ofBytes (b : List Byte) : FmtBlock where
  afmt := byteAt b 0
  bfmt := byteAt b 1
  ascaled := (byteAt b 2).getLsbD 7
  alen := 16 * 2 ^ ((byteAt b 2).toNat % 4)
  bscaled := (byteAt b 3).getLsbD 7
  blen := 16 * 2 ^ ((byteAt b 3).toNat % 4)
  ascl := dwordAt b 8
  bscl := dwordAt b 16

/-- A locator names global or carve; in global a nonzero reserved bit counts as another space (log entry 84). -/
def mxLoc (l : DWord) : Bool := (decide (fld l 60 4 = 0) && decide (fld l 57 3 = 0)) || decide (fld l 60 4 = 1)

/-- One operand's block byte and scale locator. -/
def blockSideOk (fmt blk : Byte) (scl : DWord) : Bool :=
  decide (blk.toNat / 4 % 32 = 0) && fmtOk fmt &&
  (if blk.getLsbD 7 then decide (fmtSize fmt = 1) && mxLoc scl else decide (blk.toNat % 4 = 0) && decide (scl = 0))

/-- FMTILL of R222. -/
def fmtBlockOk (b : List Byte) : Bool :=
  zeroAt b 4 4 && zeroAt b 24 8 && blockSideOk (byteAt b 0) (byteAt b 2) (dwordAt b 8) &&
  blockSideOk (byteAt b 1) (byteAt b 3) (dwordAt b 16) && decide (fmtSize (byteAt b 0) = fmtSize (byteAt b 1))

/-- KS (R220) of an element width. -/
def kSize (e : Nat) : Nat := if e = 1 then 32 else if e = 2 then 16 else 4

/-! ### Operands of a command -/

/-- Captured operand scalar `i`. -/
def MxCmd.op (c : MxCmd) (i : Nat) : Word := c.ops[i]?.getD 0
/-- A captured pair. -/
def MxCmd.pair (c : MxCmd) (i : Nat) : DWord := pairOf (c.op i) (c.op (i + 1))
/-- The format block. -/
def MxCmd.fmt (c : MxCmd) : FmtBlock := .ofBytes c.fblk
/-- NSTEP. -/
def MxCmd.nstep (c : MxCmd) : Nat := (c.op 10).toNat

/-- The address `off` bytes from a locator, modulo 2^60 within its space (R223); the space keeps its bits. -/
def locAdd (l : DWord) (off : Int) : DWord :=
  BitVec.ofNat 64 (fld l 60 4 * 2 ^ 60 + (((fld l 0 60 : Int) + off) % 2 ^ 60).toNat)

/-- The locator of a panel at step `s`: of A, or of B. -/
def MxCmd.panel (c : MxCmd) (isB : Bool) (s : Nat) : DWord :=
  if isB then locAdd (c.pair 2) (s * (c.op 5).toInt) else locAdd (c.pair 0) (s * (c.op 4).toInt)

/-- A unit that the tile fetch unit pins for a step: where its 128 bytes stand, and the layout that a panel's line must
have (R226). -/
structure MxUnit where
  loc : DWord
  layout : Option Nat
  deriving DecidableEq, Repr

/-- The scale blocks of a step: K div L over its K (R224). -/
def scaleBlocks (kbase ks s len : Nat) : List Nat :=
  let lo := (kbase + s * ks) / len
  let hi := (kbase + s * ks + ks - 1) / len
  (List.range (hi - lo + 1)).map (lo + ·)

/-- The units of step `s`: A's lines, B's lines, A's scale blocks, B's scale blocks. -/
def MxCmd.units (c : MxCmd) (s : Nat) : List MxUnit :=
  let b := c.fmt
  let e := fmtSize b.afmt
  let ks := kSize e
  let kbase := (c.op 11).toNat
  let lines (isB : Bool) (lay : Nat) : List MxUnit :=
    (List.range (ks * e)).map (fun n => ⟨locAdd (c.panel isB s) (128 * n : Nat), some lay⟩)
  let scales (on : Bool) (scl : DWord) (len : Nat) : List MxUnit :=
    if on then (scaleBlocks kbase ks s len).map (fun k => ⟨locAdd scl (128 * k : Nat), none⟩) else []
  lines false ((c.op 6).toNat % 8) ++ lines true ((c.op 7).toNat % 8) ++ scales b.ascaled b.ascl b.alen ++
  scales b.bscaled b.bscl b.blen

/-- The pinned bytes of a unit of the next step. -/
def MxCmd.pin (c : MxCmd) (slot : Nat) : Option (Vector Byte 128) :=
  (c.pinned.find? (fun p => p.1 = (c.done, slot))).map (·.2)

/-- Every unit of the next step is pinned. -/
def MxCmd.ready (c : MxCmd) : Bool :=
  (List.range (c.units c.done).length).all (fun i => (c.pin i).isSome)

/-! ### StepAdd (R225) -/

/-- A term of a step sum: a NaN, an infinity, or an exact number, with the flags it raises. -/
structure MxTerm where
  nan : Bool
  inf : Option Bool
  val : Exact
  flags : Flags
  deriving DecidableEq, Repr

/-- Dec of R225. -/
def mxDec (fmt : Byte) (x : Nat) : FVal :=
  match fmtKind fmt with
  | 0 =>
    match dec8 (Rec8.ofBits (fmt.setWidth 5)) x with
    | .nan => .nan 0 false
    | .inf neg => .inf neg
    | .fin v => .fin v
  | 1 => .fin (Exact.ofInt (signedOf 8 x) 0)
  | 2 => .fin (Exact.ofInt x 0)
  | 3 => fval .f16 x
  | 4 => fval .bf16 x
  | _ => fval .f32 x

/-- An element as a term, after its scale byte (R113). -/
def mxScaled (v : FVal) (scale : Nat) : MxTerm :=
  let zero : Exact := ⟨false, 0, 0, false⟩
  let sn := flagIf (decide (scale = 0xFF)) (flagSN ||| flagIV)
  match v with
  | .nan _ sig => ⟨true, none, zero, sn ||| flagIf sig flagIV⟩
  | .inf neg => ⟨decide (scale = 0xFF), some neg, zero, sn⟩
  | .fin x => ⟨decide (scale = 0xFF), none, { x with e := x.e + (scale : Int) - 127 }, sn⟩

/-- A term is zero. -/
def MxTerm.isZero (t : MxTerm) : Bool := !t.nan && t.inf.isNone && decide (t.val.n = 0)

/-- The sign of a term. -/
def MxTerm.neg (t : MxTerm) : Bool := t.inf.getD t.val.neg

/-- The exact product of two terms; a zero product of two integers is +0, and one of an integer and a binary8 element keeps its IEEE
sign (the model's choice, log entry 33). -/
def mxMul (ints : Bool) (a b : MxTerm) : MxTerm :=
  let fl := a.flags ||| b.flags
  let zero : Exact := ⟨false, 0, 0, false⟩
  if a.nan || b.nan then ⟨true, none, zero, fl⟩
  else if (a.inf.isSome && b.isZero) || (b.inf.isSome && a.isZero) then ⟨true, none, zero, fl ||| flagIV⟩
  else if a.inf.isSome || b.inf.isSome then ⟨false, some (a.neg != b.neg), zero, fl⟩
  else
    let x := a.val.mul b.val
    ⟨false, none, if ints && decide (x.n = 0) then { x with neg := false } else x, fl⟩

/-- A sum of exact numbers: mantissa and exponent. -/
def exactSum (xs : List Exact) : Int × Int :=
  let e := xs.foldl (fun m x => if x.n = 0 then m else min m x.e) 0
  (xs.foldl (fun (n : Int) x =>
    let m : Int := (x.n * pow2 (x.e - e) : Nat)
    if x.neg then n - m else n + m) 0, e)

/-- The sum of the accumulator and the products, rounded once (R225). -/
def stepSum (acc : MxTerm) (ps : List MxTerm) : FRes :=
  let ts := acc :: ps
  let fl := ts.foldl (fun f t => f ||| t.flags) 0
  let pos := ts.any (fun t => !t.nan && decide (t.inf = some false))
  let neg := ts.any (fun t => !t.nan && decide (t.inf = some true))
  let fl1 := fl ||| flagIf (pos && neg) flagIV
  if ts.any (·.nan) || (pos && neg) then ⟨Fmt.f32.canon, fl1⟩
  else if pos || neg then ⟨(infOf .f32 neg).bits, fl1⟩
  else
    let s := exactSum (ts.map (·.val))
    let x : Exact :=
      if s.1 = 0 then ⟨ts.all (fun t => t.val.neg), 0, 0, false⟩ else ⟨decide (s.1 < 0), s.1.natAbs, s.2, false⟩
    let r := roundTo .f32 .rne x
    ⟨r.bits, fl1 ||| r.flags⟩

/-- The pinned bytes of a run of units, as one array. -/
def MxCmd.pinArray (c : MxCmd) (first n : Nat) : Array Byte :=
  ((List.range n).flatMap (fun i => ((c.pin (first + i)).getD (Vector.replicate 128 0)).toList)).toArray

/-- Little-endian bytes of an array as a number. -/
def arrayNat (a : Array Byte) (o : Nat) : Nat → Nat
  | 0 => 0
  | n + 1 => (a.getD o 0).toNat + 256 * arrayNat a (o + 1) n

/-- The terms of an operand's panel: row or column `i`, element `k` of the step. -/
def MxCmd.terms (c : MxCmd) (isB : Bool) : Array (Array MxTerm) :=
  let b := c.fmt
  let e := fmtSize b.afmt
  let ks := kSize e
  let nl := ks * e
  let fmt := if isB then b.bfmt else b.afmt
  let lay := (c.op (if isB then 7 else 6)).toNat % 8
  let panel := c.pinArray (if isB then nl else 0) nl
  let kbase := (c.op 11).toNat + c.done * ks
  let ablk := if b.ascaled then scaleBlocks (c.op 11).toNat ks c.done b.alen else []
  let bblk := if b.bscaled then scaleBlocks (c.op 11).toNat ks c.done b.blen else []
  let scales := if isB then c.pinArray (2 * nl + ablk.length) bblk.length else c.pinArray (2 * nl) ablk.length
  let on := if isB then b.bscaled else b.ascaled
  let len := if isB then b.blen else b.alen
  let first := kbase / len
  ((List.range 128).map (fun i =>
    ((List.range ks).map (fun k =>
      let o := if isB then (k * 128 + i) * e else (i * ks + k) * e
      let scale := if on then (scales.getD (((kbase + k) / len - first) * 128 + i) 0).toNat else 127
      mxScaled (mxDec fmt (arrayNat panel (swz o lay) e)) scale)).toArray)).toArray

/-- The tile after the command's next step (R225), from the pinned bytes. -/
def stepTile (t : Tile) (c : MxCmd) : Tile :=
  let a := c.terms false
  let b := c.terms true
  let ints := decide (fmtKind c.fmt.afmt = 1 ∨ fmtKind c.fmt.afmt = 2) && decide (fmtKind c.fmt.bfmt = 1 ∨ fmtKind c.fmt.bfmt = 2)
  let res : Vector (Vector FRes 128) 128 :=
    Vector.ofFn (fun i => Vector.ofFn (fun j =>
      let ps := ((a.getD i.val #[]).toList.zip (b.getD j.val #[]).toList).map (fun q => mxMul ints q.1 q.2)
      stepSum (mxScaled (fval .f32 (t.data[i][j]).toNat) 127) ps))
  { t with
    data := res.map (fun row => row.map (fun r => BitVec.ofNat 32 r.bits)),
    flags := res.toList.foldl (fun f row => row.toList.foldl (fun g r => g ||| r.flags) f) t.flags,
    steps := BitVec.ofNat 32 (c.done + 1) }

/-! ### The converting store (R236) -/

/-- The output descriptor of an MST. -/
structure MstOut where
  code : Byte
  len : Nat
  scl : Bool
  sat : Bool
  span : Nat
  deriving DecidableEq, Repr

/-- s[A+3] of an MST. -/
def MstOut.ofWord (w : Word) : MstOut :=
  ⟨w.setWidth 8, 16 * 2 ^ (w.extractLsb' 8 2).toNat, w.getLsbD 10, w.getLsbD 11, (w.extractLsb' 12 3).toNat⟩

/-- FMTILL of R236. -/
def mstOk (w : Word) (scla : DWord) : Bool :=
  let o := MstOut.ofWord w
  decide (w.extractLsb' 15 17 = 0) && fmtOk o.code && decide (fmtKind o.code ≠ 1) && decide (fmtKind o.code ≠ 2) &&
  (decide (fmtKind o.code = 0) || (!o.scl && !o.sat)) &&
  (o.scl || (decide (w.extractLsb' 8 2 = 0) && decide (scla = 0)))

/-- The largest magnitude of a block of a row, an infinity being the largest, or a NaN: of several the first in column order (R236,
log entry 84). -/
def blockMax (xs : List Word) : Word :=
  let abs (x : Word) : Word := x &&& 0x7FFFFFFF
  match xs.find? (fun x => (fval .f32 x.toNat).isNan) with
  | some x => x
  | none => xs.foldl (fun m x => if m.ult (abs x) then abs x else m) 0

/-- The scale byte of a block, with its flags: the scale NaN raises SN, and IV only for a signalling NaN (R236, log entry 84). -/
def blockScale (r : Rec8) (xs : List Word) : FRes :=
  deriveScale 0 (blockMax xs) (BitVec.ofInt 32 (r.mag r.topCode).log2)

/-- An element of a tile as it is stored: its bits and its flags. -/
def mstElem (o : MstOut) (scale : Nat) (x : Word) : FRes :=
  match fmtKind o.code with
  | 5 => ⟨x.toNat, 0⟩
  | 3 => fConvert 0 .f32 .f16 .rne x.toNat
  | 4 => fConvert 0 .f32 .bf16 .rne x.toNat
  | _ =>
    let r := Rec8.ofBits (o.code.setWidth 5)
    let v : FVal :=
      if o.scl then
        if scale = 0xFF then .nan 0 false
        else
          match fval .f32 x.toNat with
          | .fin y => .fin { y with e := y.e + 127 - (scale : Int) }
          | other => other
      else fval .f32 x.toNat
    cvt8Val r (.mode .rne) o.sat v

/-- Row `i` of a tile as an MST stores it: offsets from DST with their bytes, offsets from SCLA with theirs, and the
flags. -/
def mstRow (o : MstOut) (pitch : Nat) (row : Vector Word 128) (i : Nat) : List (Nat × Byte) × List (Nat × Byte) × Flags :=
  let e := fmtSize o.code
  let r := Rec8.ofBits (o.code.setWidth 5)
  let blocks : List FRes :=
    if o.scl then (List.range (128 / o.len)).map (fun k => blockScale r ((row.toList.drop (k * o.len)).take o.len)) else []
  let elems := (List.range 128).map (fun j => mstElem o ((blocks.getD (j / o.len) ⟨0, 0⟩).bits) (row[j]?.getD 0))
  ((elems.zipIdx).flatMap (fun q =>
      (List.range e).zip (natBytes e q.1.bits) |>.map (fun z => (swz (i * pitch + q.2 * e + z.1) o.span, z.2))),
   (blocks.zipIdx).map (fun q => (q.2 * 128 + i, BitVec.ofNat 8 q.1.bits)),
   blocks.foldl (fun f b => f ||| b.flags) (elems.foldl (fun f x => f ||| x.flags) 0))

end Sys2Proof.Machine
end

