-- ==== Sys2Proof/Machine/Matrix.lean ====
section
/-! DEFINITION. The matrix unit: the queue and its order (12_matrix.md R218, R219), the tile fetch unit and deferred faults
(R226, R227), and the matrix instructions and events (R228 to R238). -/

namespace Sys2Proof.Machine

open Sys2Proof

/-! ### Tiles and the queue -/

/-- A tile of the group. -/
def Group.tile (g : Group) (t : Nat) : Tile := g.tiles[t]?.getD Tile.initial

/-- Change a tile of the group. -/
def Group.onTile (g : Group) (t : Nat) (h : Tile → Tile) : Group := { g with tiles := g.tiles.setIfInBounds t (h (g.tile t)) }

/-- The command at the head of a tile's queue. -/
def Group.mxHead (g : Group) (t : Nat) : Option MxCmd := g.mxq.find? (fun c => c.tile = t)

/-- The number of the group's commands on a tile. -/
def Group.mxCount (g : Group) (t : Nat) : Nat := (g.mxq.filter (fun c => c.tile = t)).length

/-- The head of a tile's queue is changed. -/
def mxSetHead (t : Nat) (h : MxCmd → MxCmd) : List MxCmd → List MxCmd
  | [] => []
  | c :: cs => if c.tile = t then h c :: cs else c :: mxSetHead t h cs

/-- The head of a tile's queue is changed. -/
def Group.onHead (g : Group) (t : Nat) (h : MxCmd → MxCmd) : Group := { g with mxq := mxSetHead t h g.mxq }

/-- The head of a tile's queue leaves it. -/
def Group.dropHead (g : Group) (t : Nat) : Group := { g with mxq := g.mxq.eraseP (fun c => decide (c.tile = t)) }

/-- The release flag of a command that completes: an MWAIT acquires at its scope (R228, R237). -/
def Group.noteRel (g : Group) (t : Nat) (c : MxCmd) : Group :=
  if c.rel then g.onTile t (fun x => { x with rel := max x.rel c.scope }) else g

/-- A tile with every element +0 and its status clear. -/
def Tile.zeroed (t : Tile) : Tile :=
  { t with data := Vector.replicate 128 (Vector.replicate 128 0), flags := 0, cause := 0, faultAddr := 0, steps := 0 }

/-- A loop whose steps are all done. -/
def MxCmd.finished (c : MxCmd) : Bool := decide (c.kind = .loop) && c.begun && decide (c.nstep ≤ c.done)

/-- A loop begins: it clears its tile under Z and counts its steps from 0 (R233). -/
def Group.beginLoop (g : Group) (t : Nat) (c : MxCmd) : Group :=
  if c.begun then g
  else
    (g.onTile t (fun x => { (if c.z then x.zeroed else x) with steps := 0, tag := c.tag })).onHead t
      (fun d => { d with begun := true })

/-- The commands of a tile that begin with nothing to wait for; a loop with no step left to do, as one of no steps, or one that
its restored record leaves without any (R230), is complete at once (R233). `fuel` bounds the number of such loops. -/
def Group.beginHeads : Nat → Nat → Group → Group
  | 0, _, g => g
  | fuel + 1, t, g =>
    match g.mxHead t with
    | none => g
    | some c =>
      if c.kind ≠ .loop || c.running.isSome || (g.tile t).cause ≠ 0 then g
      else if c.nstep ≤ c.done then Group.beginHeads fuel t (((g.beginLoop t c).noteRel t c).dropHead t)
      else g.beginLoop t c

/-- The next command of a tile begins. -/
def Group.startMx (g : Group) (t : Nat) : Group := Group.beginHeads 8 t g

/-- The head of a tile's queue is complete. -/
def Group.mxComplete (g : Group) (t : Nat) : Group :=
  ((((g.mxHead t).map (g.noteRel t)).getD g).dropHead t).startMx t

/-- A running K-step ends with its result in the tile (R225), and its lines are pinned no more (R226). -/
def Group.finishStep (g : Group) (t : Nat) : Group :=
  match g.mxHead t with
  | some c =>
    if c.running.isSome then
      (g.onTile t (fun x => stepTile x c)).onHead t
        (fun d => { d with
          done := d.done + 1, pinned := d.pinned.filter (fun p => p.1.1 ≠ c.done),
          lines := d.lines.filter (fun l => l.1 ≠ c.done), running := none })
    else g
  | none => g

/-- A running K-step ends; after a loop's last one the loop is complete. -/
def Group.endStep (g : Group) (t : Nat) : Group :=
  let g1 := g.finishStep t
  if ((g1.mxHead t).map MxCmd.finished).getD false then g1.mxComplete t else g1

/-- Every loop of the group stops at its next K-step boundary, and no further command of a tile begins (R230). -/
def Group.haltLoops (g : Group) : Group :=
  let g0 := (List.range 4).foldl Group.finishStep g
  let g1 := (g0.mxq.filter MxCmd.finished).foldl (fun h c => h.noteRel c.tile c) g0
  { g1 with mxq := (g1.mxq.filter (fun c => !c.finished)).map (fun c => { c with pinned := [], lines := [] }) }

/-- The group's matrix commands are stopped and discarded (R230). -/
def Group.discardMx (g : Group) : Group := { g.haltLoops with mxq := [] }

/-- The next commands of every tile begin, after a save (R230). -/
def Group.startAll (g : Group) : Group := (List.range 4).foldl Group.startMx g

/-! ### Deferred faults (R227) -/

/-- The cause of a tile's deferred fault. -/
def mxCause (c : Nat) : Cause := if c = 1 then .transl else if c = 2 then .prot else .mxlayout

/-- The instruction at which the issuing group takes a tile's deferred fault: the trap, the first time; resumption at that
instruction clears the cause and abandons the command. `owner` is the group whose tile it is. -/
def State.takeMx (s : State) (owner t : Nat) : Run State :=
  match (s.group? owner).map (fun g => g.tile t) with
  | none => .ok s
  | some x =>
    if x.cause = 0 then .ok s
    else if x.takenAt = some s.grp.pc then
      .ok (s.mapGroups (fun g => decide (g.id.uid = owner)) (fun g =>
        ((g.onTile t (fun y => { y with cause := 0, faultAddr := 0, takenAt := none })).dropHead t).startMx t))
    else
      let s1 := s.mapGroups (fun g => decide (g.id.uid = owner))
        (fun g => g.onTile t (fun y => { y with takenAt := some s.grp.pc }))
      .error (.trap { cause := mxCause x.cause, trapa := some x.faultAddr } s1)

/-- The deferred faults of several tiles, in order. -/
def State.takeMxAll (s : State) : List (Nat × Nat) → Run State
  | [] => .ok s
  | q :: qs =>
    match s.takeMx q.1 q.2 with
    | .ok s1 => State.takeMxAll s1 qs
    | .error c => .error c

/-- A matrix command stops with a deferred fault (R227). -/
def Group.deferFault (g : Group) (t cause : Nat) (a : DWord) : Group :=
  (g.onTile t (fun x => { x with
    cause := cause, faultAddr := a, takenAt := none,
    tag := match g.mxHead t with
      | some c => if c.kind = .zero then x.tag else c.tag
      | none => x.tag })).onHead t (fun c => { c with pinned := [], lines := [], running := none, waitHost := none })

/-! ### The tile fetch unit (R226) -/

/-- Where a byte at a locator is, for a matrix command: no HOST page and no remote window for a read. -/
inductive MxPlace where
  | key (k : Nat)
  | fault (cause : Nat)
  | host (vpage : Nat)
  deriving DecidableEq, Repr

/-- The place of the byte that a locator names. -/
def State.mxKey (s : State) (nd : Need) (l : DWord) : MxPlace :=
  if fld l 60 4 = 0 then
    match s.translate s.grp.who (BitVec.ofNat 64 (fld l 0 60)) nd with
    | .at_ k => if nd = .read && 4 ≤ keyKind k then .fault 2 else .key k
    | .transl => .fault 1
    | .prot => .fault 2
    | .host v => if nd = .read then .fault 2 else .host v
  else if fld l 0 60 < s.carveSize then .key (keyCarve s.grp.id.ctx (fld l 0 60)) else .fault 2

/-- A line is read for a group's matrix commands ahead of them: a command without an acquire flag may take these bytes (R228). -/
def State.mxAhead (s : State) (g : Group) (line : Nat) : State :=
  { s with
    ahead := (g.id.uid, line, Vector.ofFn (fun o => s.engineByte g.id.cluster (128 * line + o.val))) ::
      s.ahead.filter (fun a => !(a.1 = g.id.uid && a.2.1 = line)) }

/-- A byte as a command of the group reads it: of a line that it has fetched for the step, as it was then (R226); without an acquire
flag it may have been read ahead (R228, R377, log entry 85). -/
def State.mxByte (s : State) (c : MxCmd) (step k : Nat) : Byte :=
  match (c.lines.find? (fun l => l.1 = step && l.2.1 = lineOf k)).map (·.2.2) |>.or
    (if c.acq then none else (s.ahead.find? (fun a => a.1 = s.grp.id.uid && a.2.1 = lineOf k)).map (·.2.2)) with
  | some d => d[k % 128]?.getD 0
  | none => s.engineByte s.grp.id.cluster k

/-- The lines of a unit that a command has not fetched for the step yet; a unit that is not aligned to 128 bytes has two. -/
def State.newLines (s : State) (c : MxCmd) (step : Nat) (u : MxUnit) : List Nat :=
  (((List.range 128).filterMap (fun o => match s.mxKey .read (locAdd u.loc (o : Nat)) with
    | .key k => some (lineOf k)
    | _ => none)).eraseDups).filter (fun n => !c.lines.any (fun l => l.1 = step && l.2.1 = n))

/-- A command with the lines of a unit fetched for a step: the bytes of each are taken once (R226). -/
def State.withLines (s : State) (c : MxCmd) (step : Nat) (u : MxUnit) : MxCmd :=
  { c with lines := (s.newLines c step u).map (fun n =>
      (step, n, Vector.ofFn (fun o => s.mxByte c step (128 * n + o.val)))) ++ c.lines }

/-- The bytes of a unit, or the fault and its address: a panel's line is checked for its tag. -/
def State.mxFetch (s : State) (c : MxCmd) (step : Nat) (u : MxUnit) : Except (Nat × DWord) (Vector Byte 128) :=
  let byte (o : Nat) : MxPlace := s.mxKey .read (locAdd u.loc (o : Nat))
  match (List.range 128).findSome? (fun o => match byte o with
      | .key _ => none
      | .fault c => some (c, locAdd u.loc (o : Nat))
      | .host _ => some (2, locAdd u.loc (o : Nat))) with
  | some e => .error e
  | none =>
    let data : Vector Byte 128 := Vector.ofFn (fun o => match byte o.val with
      | .key k => s.mxByte c step k
      | _ => 0)
    match u.layout, byte 0 with
    | some lay, .key k =>
      match (s.l2Line s.grp.id.cluster (lineOf k)).bind (·.tag) with
      | some tag => if tag = lay then .ok data else .error (3, u.loc)
      | none => .ok data
    | _, _ => .ok data

/-- The units of step `s` that are not pinned yet: the step and their places in it. -/
def MxCmd.lackingAt (c : MxCmd) (s : Nat) : List (Nat × Nat) :=
  if s < c.nstep then
    ((List.range (c.units s).length).map (fun i => (s, i))).filter (fun q => !c.pinned.any (fun p => p.1 = q))
  else []

/-- The units that may be fetched: of the next step unless it runs already, and of the step after it (R220, R226). -/
def MxCmd.lacking (c : MxCmd) : List (Nat × Nat) := c.lackingAt c.done ++ c.lackingAt (c.done + 1)

/-- A pick among the members of a list by the machine's choices; the first where there is no choice. -/
def State.pick {α : Type} (s : State) (xs : List α) : Option α × State :=
  match s.choices with
  | [] => (xs.head?, s)
  | c :: cs => (xs[c % xs.length]?, { s with choices := cs })

/-- Bytes at offsets from locators are translated for the focused group's commands (R335). -/
def State.mxWalk (s : State) (qs : List (DWord × Nat)) : State :=
  s.walkVas s.grp.id.fn s.grp.id.pasid
    (qs.filterMap (fun q => if fld q.1 60 4 = 0 then some (fld (locAdd q.1 (q.2 : Nat)) 0 60) else none))

/-- The new lines of a unit are read at L2 for the tenant, after the walk of its address (R335), and allocated there unless CP says
otherwise (R137, R226). -/
def State.mxFill (s : State) (cp : BitVec 3) (u : MxUnit) (lines : List Nat) : State :=
  let g := s.grp
  let s2 := ((s.mxWalk [(u.loc, 0)]).countL2 g.id.fn g.id.cluster false lines).seen 0 .l2 [] lines
  match l2Prio cp.toNat with
  | some p => lines.foldl (fun t n => t.fillL2 g.id.cluster n g.id.cls p) s2
  | none => s2

/-- One fetch of the tile fetch unit for a tile of the focused group. A fault stops the loop before the step that needs the line,
so that a fetch ahead of its step that would fault is made when the step is the next one (R227). -/
def State.fetchUnit (s : State) (t : Nat) (c : MxCmd) : Option State :=
  let (pick, s1) := s.pick c.lacking
  match pick.bind (fun q => (c.units q.1)[q.2]?.map (fun u => (q, u))) with
  | none => none
  | some (q, u) =>
    match s1.mxFetch c q.1 u with
    | .ok d => some ((s1.mxFill c.cp u (s1.newLines c q.1 u)).onGrp (fun g =>
        g.onHead t (fun x => { s1.withLines x q.1 u with pinned := (q, d) :: x.pinned, acqDone := x.acq })))
    | .error (cause, a) =>
      if q.1 = c.done && c.running.isNone then
        some ((s1.mxWalk [(u.loc, 0)]).onGrp (fun g => g.deferFault t cause a))
      else none

/-- The acquire of a command of the focused group waits (R165): for the group's waiting release stores and, at system scope, for
the remote devices' acknowledgements. -/
def State.mxAcquireWaits (s : State) (c : MxCmd) : Bool :=
  c.acq && !c.acqDone && ((decide (c.scope = 6) && !s.remoteClear) || !s.grp.relq.isEmpty)

/-- After a deadline overrun the context's matrix commands stand still; those of its checkpoint bundle, which runs beside the saved
bands, do not (R230, R316). -/
def State.mxHeld (s : State) : Bool :=
  match s.ctx? s.grp.id.ctx with
  | some c => decide (c.tier = 3) && (s.ctxBands c).any (fun b => decide (b.uid = s.grp.id.band))
  | none => false

/-- An event that concerns a tile of a group, with the head of the tile's queue. -/
def withHead (row : String) (s : State) (k : State → Nat → MxCmd → Out) : Out :=
  match s.ev with
  | .tile uid t =>
    match s.focus uid with
    | none => .fault (.noSuchGroup uid)
    | some s1 =>
      match s1.grp.mxHead t with
      | some c => if (s1.grp.tile t).cause = 0 && !s1.mxHeld then k s1 t c else .refused (.notEnabled row)
      | none => .refused (.notEnabled row)
  | _ => .refused (.notEnabled row)

/-- The matrix commands of an evicted or saved group do not run. -/
def Group.mxRuns (g : Group) : Bool :=
  match g.status with
  | .evicted _ _ _ => false
  | .saved _ _ => false
  | _ => true

/-- TILE_FETCH (R226). -/
def execTileFetch (s : State) : Out :=
  withHead "TILE_FETCH" s (fun s1 t c =>
    if c.kind = .loop && c.begun && s1.grp.mxRuns && !s1.mxAcquireWaits c then
      match s1.fetchUnit t c with
      | some s2 => .next s2
      | none => .refused (.notEnabled "TILE_FETCH")
    else .refused (.notEnabled "TILE_FETCH"))

/-! ### The sequencer (R219, R220) -/

/-- The tiles of a core's groups of a class whose next K-step could start, in the order of the round robin. -/
def State.readyTiles (s : State) (core cls : Nat) : List (Nat × Nat) :=
  (s.groups.filter (fun g => decide (g.coreNo = core) && decide (g.id.cls = cls) && g.mxRuns)).flatMap (fun g =>
    (List.range 4).filterMap (fun t =>
      match g.mxHead t with
      | some c =>
        if c.kind = .loop && c.begun && c.running.isNone && decide (c.done < c.nstep) && decide ((g.tile t).cause = 0) &&
            c.ready then some (g.id.uid, t)
        else none
      | none => none))

/-- One tile comes before another in the order of uids and tiles. -/
def tileBefore (a b : Nat × Nat) : Bool := decide (a.1 < b.1) || (decide (a.1 = b.1) && decide (a.2 < b.2))

/-- The first of a list of tiles. -/
def firstTile (xs : List (Nat × Nat)) : Option (Nat × Nat) :=
  xs.foldl (fun m x => match m with
    | none => some x
    | some y => if tileBefore x y then some x else some y) none

/-- The tile of a class whose turn it is on a core: round robin within the class. -/
def State.classTurn (s : State) (core cls : Nat) : Option (Nat × Nat) :=
  let xs := s.readyTiles core cls
  match s.mxLast.find? (fun l => l.1 = 2 * core + cls) with
  | none => firstTile xs
  | some l =>
    match firstTile (xs.filter (fun x => tileBefore (l.2.1, l.2.2) x)) with
    | some x => some x
    | none => firstTile xs

/-- The tile whose turn it is on a core (R219): guaranteed before harvest. -/
def State.mxTurn (s : State) (core : Nat) : Option (Nat × Nat) := (s.classTurn core 0).or (s.classTurn core 1)

/-- A K-step holds the core's multiplier array. -/
def State.mxBusy (s : State) (core : Nat) : Bool :=
  s.groups.any (fun g => decide (g.coreNo = core) && g.mxq.any (fun c => c.running.isSome))

/-- KSTEP_START (R220). -/
def execKstepStart (s : State) : Out :=
  withHead "KSTEP_START" s (fun s1 t c =>
    let core := s1.grp.coreNo
    if c.ready && !s1.mxBusy core && s1.mxTurn core = some (s1.grp.id.uid, t) then
      let k := 2 * core + s1.grp.id.cls
      .next { (s1.onGrp (fun g => g.onHead t (fun x => { x with running := some 0 }))) with
        mxLast := (k, s1.grp.id.uid, t) :: s1.mxLast.filter (fun l => l.1 ≠ k) }
    else .refused (.notEnabled "KSTEP_START"))

/-- KSTEP_COMPLETE (R220, R225): after 32 cc. -/
def execKstepComplete (s : State) : Out :=
  withHead "KSTEP_COMPLETE" s (fun s1 t c =>
    match c.running with
    | some n =>
      if 32 ≤ n then .next (s1.onGrp (fun g => g.endStep t)) else .refused (.notEnabled "KSTEP_COMPLETE")
    | none => .refused (.notEnabled "KSTEP_COMPLETE"))

/-- MZERO_PERFORM (R234). -/
def execMzeroPerform (s : State) : Out :=
  withHead "MZERO_PERFORM" s (fun s1 t c =>
    if c.kind = .zero && s1.grp.mxRuns then .next (s1.onGrp (fun g => (g.onTile t Tile.zeroed).mxComplete t))
    else .refused (.notEnabled "MZERO_PERFORM"))

/-! ### MST_PERFORM (R236) -/

/-- The keys of bytes that an MST writes; the first that fails stops it. -/
def State.mstKeys (s : State) (base : DWord) : List (Nat × Byte) → Except (DWord × MxPlace) (List Host.Cell)
  | [] => .ok []
  | (o, x) :: rest =>
    match s.mxKey .write (locAdd base (o : Nat)) with
    | .key k =>
      match State.mstKeys s base rest with
      | .ok ks => .ok ((k, x) :: ks)
      | .error e => .error e
    | p => .error (locAdd base (o : Nat), p)

/-- The rows of an MST one after another, each counted as it is written: rows written stay written where a later one fails, and
no row is written twice (R236). -/
def State.mstRows (s : State) (t : Nat) (c : MxCmd) (o : MstOut) : List Nat → State × Option (DWord × MxPlace)
  | [] => (s, none)
  | i :: is =>
    let row := mstRow o (c.op 2).toNat (((s.grp.tile t).data)[i]?.getD (Vector.replicate 128 0)) i
    let s := s.mxWalk (row.1.map (fun x => (c.pair 0, x.1)) ++ row.2.1.map (fun x => (c.pair 4, x.1)))
    match s.mstKeys (c.pair 0) row.1, s.mstKeys (c.pair 4) row.2.1 with
    | .ok ks, .ok ss =>
      let s0 := s.noteOrigin s.grp.origin ((ks ++ ss).map (·.1))
      let s1 := (s0.wroteLines s.grp.id.cluster (s.grp.want c.cp.toNat) ((ks ++ ss).map (·.1))).engineWrites s.grp.id.cluster (ks ++ ss)
      State.mstRows (s1.onGrp (fun g =>
        (g.onTile t (fun x => { x with flags := x.flags ||| row.2.2 })).onHead t (fun d => { d with done := i + 1 }))) t c o is
    | .error e, _ => (s, some e)
    | _, .error e => (s, some e)

/-- An MST is complete: its writes are performed at the scope of its release flag first (R165, R228). -/
def State.mstDone (s : State) (t : Nat) (c : MxCmd) : State :=
  let s1 := if c.rel then s.invalidateStale s.grp.id.cluster c.scope else s
  let s2 := if c.rel && decide (c.scope = 6) then s1.flushHost else s1
  s2.onGrp (fun g => (g.onTile t (fun x => { x with tag := c.tag })).mxComplete t)

/-- The rows of an MST are written: it is complete, after the remote devices' acknowledgements where its release is at system
scope (R159, R228). -/
def State.mstWritten (s : State) (t : Nat) (c : MxCmd) : Out :=
  if c.rel && decide (c.scope = 6) then
    if c.done < 128 && !s.remoteClear then .next (s.sendRemoteWrites s.remoteDirty)
    else s.remoteFirst "MST_PERFORM" (fun u => .next (u.mstDone t c))
  else .next (s.mstDone t c)

/-- The acquire of the command at the head of a tile's queue is made (R165, R228). -/
def State.acquiredHead (s : State) (t : Nat) : State := s.onGrp (fun g => g.onHead t (fun x => { x with acqDone := x.acq }))

/-- MST_PERFORM (R236), once its acquire may be made (R165). -/
def execMstPerform (s : State) : Out :=
  withHead "MST_PERFORM" s (fun s1 t c =>
    if c.kind = .store && s1.grp.mxRuns && c.waitHost.isNone && !s1.mxAcquireWaits c then
      match (s1.acquiredHead t).mstRows t c (.ofWord (c.op 3)) ((List.range 128).drop c.done) with
      | (s2, none) => s2.mstWritten t c
      | (s2, some (a, .fault cause)) => .next (s2.onGrp (fun g => g.deferFault t cause a))
      | (s2, some (a, .host v)) =>
        if c.denied then .next (s2.onGrp (fun g => g.deferFault t 1 a))
        else
          .next ((s2.askHost s2.grp.id.fn s2.grp.id.pasid v).onGrp (fun g =>
            g.onHead t (fun x => { x with waitHost := some v })))
      | (s2, some (_, .key _)) => .next s2
    else .refused (.notEnabled "MST_PERFORM"))

/-! ### The resumable matrix record (R230, R231) -/

/-- The record of a queued command of a group. -/
def MxCmd.record (c : MxCmd) (g : Group) : List Byte :=
  let flag (x : Bool) (k : Nat) : Nat := if x then 2 ^ k else 0
  let kind := match c.kind with
    | .loop => 7
    | .zero => 8
    | .store => 9
  natBytes 1 kind ++ natBytes 1 c.tile ++ natBytes 1 (flag c.acq 0 + flag c.rel 1 + c.scope * 4 + flag c.acqDone 5) ++
  natBytes 1 (c.cp.toNat + 16 * c.home.toNat) ++ natBytes 1 g.id.grpx ++ natBytes 1 g.id.inst ++ natBytes 2 c.tag.toNat ++
  natBytes 4 (if c.kind = .loop then c.done else 0) ++ natBytes 4 0 ++
  (List.range 12).flatMap (fun i => natBytes 4 (c.op i).toNat) ++ (List.range 32).map (fun i => c.fblk[i]?.getD 0) ++ natBytes 32 0

/-- The kind of command that a record names. -/
def mxKindOf (k : Nat) : MxKind := if k = 7 then .loop else if k = 8 then .zero else .store

/-- The checks of a restored record (R230): its zero fields, bit 3 of POL among them (log entry 84), its KIND, a tile that the group
holds, and its format block. -/
def State.mxRecordOk (s : State) (band : Nat) (b : List Byte) : Bool :=
  let kind := (byteAt b 0).toNat
  decide (7 ≤ kind) && decide (kind ≤ 9) && decide ((byteAt b 2).toNat < 64) && decide (fld (dwordAt b 0) 27 1 = 0) &&
  decide (fld (dwordAt b 0) 30 2 = 0) && zeroAt b 12 4 && zeroAt b 96 32 &&
  (if kind = 7 then fmtBlockOk ((b.drop 64).take 32) else zeroAt b 64 32) &&
  (decide (kind = 7) || zeroAt b (if kind = 9 then 40 else 16) (if kind = 9 then 24 else 48)) &&
  (match s.recordGroup band b with
   | some g => decide ((byteAt b 1).toNat < g.id.ntiles)
   | none => false)

/-- The command as its record has it; what the record has no place for stays. -/
def MxCmd.restored (c : MxCmd) (b : List Byte) : MxCmd :=
  let kind := mxKindOf (byteAt b 0).toNat
  let flags := byteAt b 2
  let pol := (byteAt b 3).toNat
  { c with
    kind := kind, tile := (byteAt b 1).toNat, acq := flags.getLsbD 0, rel := flags.getLsbD 1, scope := flags.toNat / 4 % 8,
    acqDone := flags.getLsbD 5, cp := BitVec.ofNat 3 pol, home := BitVec.ofNat 2 (pol / 16), tag := BitVec.ofNat 16 (natAt b 6 2),
    done := if kind = .loop then natAt b 8 4 else if kind = c.kind then c.done else 0,
    ops := (List.range (if kind = .loop then 12 else if kind = .store then 6 else 0)).map (fun i => wordAt b (16 + 4 * i)),
    fblk := if kind = .loop then (b.drop 64).take 32 else [] }

/-! ### The matrix instructions (R232 to R238) -/

/-- The tile that W names. -/
def tileOf (f : EX) : Nat := f.w.toNat

/-- ILLEGAL cases that every matrix instruction shares: a helper, and a tile that the group does not hold (R45, R232). -/
def Group.mxOk (g : Group) (f : EX) : Bool := g.helper.isNone && decide (tileOf f < g.id.ntiles)

/-- A command joins the queue (R219); it begins at once where its tile is idle. -/
def Group.queueMx (g : Group) (c : MxCmd) : Group := ({ g with mxq := g.mxq ++ [c] } : Group).startMx c.tile

/-- A matrix command with its captured operands and flags. -/
def Group.mkMx (g : Group) (kind : MxKind) (p : Option Pfx) (f : EX) (ops : List Word) (fblk : List Byte) (z : Bool) : MxCmd :=
  let e := g.eff p
  { kind := kind, tile := tileOf f, tag := g.mxTag, ops := ops, fblk := fblk, z := z,
    acq := kind ≠ .zero && acquires e.ord, rel := kind ≠ .zero && releases e.ord, scope := e.scope,
    cp := BitVec.ofNat 3 e.cp, home := BitVec.ofNat 2 e.home, acqDone := false, begun := false, done := 0, pinned := [], lines := [], running := none,
    waitHost := none, denied := false }

/-- The scalars from `a` on, captured. -/
def Group.capture (g : Group) (a : BitVec 6) (n : Nat) : List Word :=
  (List.range n).map (fun i => g.rs (a + BitVec.ofNat 6 i))

/-- A command is queued, and a tagged one takes its tag and gives it to s[D] (R219). -/
def State.pushMx (s : State) (d : Option (BitVec 6)) (c : MxCmd) : State :=
  (s.engineAcquire c.acq c.scope).onGrp (fun g =>
    match d with
    | some r => ({ g.ws r (g.mxTag.setWidth 32) with mxTag := g.mxTag + 1 } : Group).queueMx { c with tag := g.mxTag }
    | none => g.queueMx c)

/-- A command as its instruction captured it is queued; a ninth waits until one completes (R219). -/
def State.queueOrWait (s : State) (len : Nat) (d : Option (BitVec 6)) (c : MxCmd) : Ctl :=
  if s.grp.mxq.length < 8 then .done (s.pushMx d c) else .wait (.mxRoom len d c) s

/-- A command that waits for room is tried again; a fault of its tile that has come up meanwhile is taken first (R227). -/
def State.tryMx (s : State) (len : Nat) (d : Option (BitVec 6)) (c : MxCmd) : Run Ctl :=
  match s.takeMx s.grp.id.uid c.tile with
  | .ok s1 => .ok (s1.queueOrWait len d c)
  | .error e => .error e

/-- A line holds bytes that a command reads after its format block: the block's own bytes `ks`, or the scale bytes whose addresses
come from the block (R165, R228). -/
def State.followsBlock (s : State) (c : MxCmd) (ks : List Nat) (line : Nat) : Bool :=
  (ks.map lineOf).contains line ||
  (List.range c.nstep).any (fun k => (c.units k).any (fun u =>
    u.layout.isNone && (s.newLines { c with lines := [] } k u).contains line))

/-- What the group's own load of a format block leaves (R228): lines that were read ahead for its matrix commands stay, but for those
that the command reads after the block. -/
def State.readBlock (s : State) (c : MxCmd) (a : DWord) (ks : List Nat) : State :=
  let s := { s with ahead := s.ahead.filter (fun x => !(x.1 = s.grp.id.uid && s.followsBlock c ks x.2.1)) }
  let missed := s.missedLines s.grp.coreNo .l1 ks
  let t := ((s.walked 1 [⟨0, a⟩]).readMissed false (128 * missed.length) missed).seen s.grp.coreNo .l1 missed (ks.map lineOf)
  t.allocLoad s.grp.coreNo .l1 (s.grp.want 1) missed

/-- MLOOP (R233). -/
def execMloop (p : Option Pfx) (f : EX) (s : State) : Out :=
  finish (pfxLen p) (do
    s.need ((Instr.mloop p f).wf && s.grp.mxOk f) .illegal
    s.need (!(s.grp.liveInTile (tileOf f) || s.grp.liveIn f.d)) .rgnw
    let s ← s.takeMx s.grp.id.uid (tileOf f)
    let ops := s.grp.capture f.a 12
    let c0 := s.grp.mkMx .loop p f ops [] (decide (f.imm = 1))
    let a := c0.pair 8
    let ps ← s.accessAll 1 32 (fun x => s.place none 1 .read x.addr 32) [⟨0, a⟩]
    let ks := ps.flatMap (·.2)
    s.awaitRemote .l1 1 ks
    let c : MxCmd := { c0 with fblk := ks.map (s.loadByte .l1) }
    let t := s.readBlock c a ks
    t.need (fmtBlockOk c.fblk) .fmtill
    t.need (decide ((c.op 6).toNat < 8) && decide ((c.op 7).toNat < 8)) .mxlayout
    t.chk (needAt (mxLoc (c.pair 0)) .prot (c.pair 0))
    t.chk (needAt (mxLoc (c.pair 2)) .prot (c.pair 2))
    let unit (lay : Word) : Nat := max 128 (16 * 2 ^ lay.toNat)
    let aligned (l : DWord) (inc lay : Word) : Bool :=
      decide (locBase l % unit lay = 0) && decide (inc.toInt % (unit lay : Nat) = 0)
    t.need (aligned (c.pair 0) (c.op 4) (c.op 6) && aligned (c.pair 2) (c.op 5) (c.op 7)) .misalign
    return t.queueOrWait (pfxLen p) (some f.d) c)

/-- MZERO (R234). -/
def execMzero (f : EX) (s : State) : Out :=
  finish 1 (do
    s.need (f.okMzero && s.grp.mxOk f) .illegal
    s.need (!s.grp.liveInTile (tileOf f)) .rgnw
    let s ← s.takeMx s.grp.id.uid (tileOf f)
    return s.queueOrWait 1 none (s.grp.mkMx .zero none f [] [] false))

/-- The vector register that IMM16 names. -/
def mxVec (f : EX) : Nat := f.imm.toNat

/-- A row or a column of a tile at element `x` of line `r`; none outside the tile. -/
def cellOf (f : EX) (t : Tile) (r x : Nat) : Option Word :=
  if r < 128 && x < 128 then some (if f.sub = 0 then (t.data[r]?.getD (Vector.replicate 128 0))[x]?.getD 0
    else (t.data[x]?.getD (Vector.replicate 128 0))[r]?.getD 0)
  else none

/-- The checks of MRD and MWR, and the wait for the group's commands on the tile. -/
def State.mxLine (s : State) (f : EX) (rgnw : Bool) : Run State := do
  s.need (f.okMrd && s.grp.mxOk f && s.grp.hasVec (mxVec f)) .illegal
  s.need (!rgnw) .rgnw
  let s ← s.takeMx s.grp.id.uid (tileOf f)
  if s.grp.mxCount (tileOf f) = 0 then return s else .error (.wait .again s)

/-- MRD (R235): the execution mask does not apply. -/
def execMrd (f : EX) (s : State) : Out :=
  finish 1 (do
    let s ← s.mxLine f (s.grp.liveInVec (mxVec f))
    let t := s.grp.tile (tileOf f)
    let r := (s.grp.rs f.a).toNat
    let c0 := (s.grp.rs f.b).toNat
    return .done (s.onGrp (fun g =>
      g.wvm (mxVec f) g.live (Vector.ofFn (fun l => (cellOf f t r (c0 + l.val)).getD 0)))))

/-- One cell of a tile is written. -/
def Tile.setCell (t : Tile) (f : EX) (r x : Nat) (w : Word) : Tile :=
  let i := if f.sub = 0 then r else x
  let j := if f.sub = 0 then x else r
  if i < 128 && j < 128 then
    { t with data := t.data.setIfInBounds i ((t.data[i]?.getD (Vector.replicate 128 0)).setIfInBounds j w) }
  else t

/-- MWR (R235). -/
def execMwr (f : EX) (s : State) : Out :=
  finish 1 (do
    let s ← s.mxLine f (s.grp.liveInTile (tileOf f))
    let r := (s.grp.rs f.a).toNat
    let c0 := (s.grp.rs f.b).toNat
    let v := s.grp.rv (mxVec f)
    return .done (s.onGrp (fun g =>
      g.onTile (tileOf f) (fun t => (lanesOf g.live).foldl (fun x l => x.setCell f r (c0 + l) (v[l]?.getD 0)) t))))

/-- MST (R236): queues a converting store. -/
def execMst (p : Option Pfx) (f : EX) (s : State) : Out :=
  finish (pfxLen p) (do
    s.need ((Instr.mst p f).wf && s.grp.mxOk f && !s.grp.inRegion) .illegal
    s.need (!s.grp.liveIn f.d) .rgnw
    let s ← s.takeMx s.grp.id.uid (tileOf f)
    let c := s.grp.mkMx .store p f (s.grp.capture f.a 6) [] false
    let o := MstOut.ofWord (c.op 3)
    s.need (mstOk (c.op 3) (c.pair 4)) .fmtill
    s.chk (needAt (mxLoc (c.pair 0)) .prot (c.pair 0))
    s.chk (needAt (!o.scl || mxLoc (c.pair 4)) .prot (c.pair 4))
    s.need (decide (locBase (c.pair 0) % max 16 (16 * 2 ^ o.span) = 0) && decide ((c.op 2).toNat % 16 = 0) &&
      decide (128 * fmtSize o.code ≤ (c.op 2).toNat)) .misalign
    return s.queueOrWait (pfxLen p) (some f.d) c)

/-- The tiles that an MWAIT waits for. -/
def Group.waitedTiles (g : Group) (f : EX) : List Nat := if f.sub = 1 then [tileOf f] else List.range g.id.ntiles

/-- An MWAIT returns: flags into FPSR, and an acquire at the scope of each release flag waited on (R159, R237). -/
def State.mwaitReturn (s : State) (f : EX) : State :=
  let ts := s.grp.waitedTiles f
  let scope := engineScope (ts.foldl (fun m t => max m (s.grp.tile t).rel) 0)
  (s.acquireAt s.grp.coreNo scope).onGrp (fun g =>
    (ts.foldl (fun h t => (h.raiseFlags (h.tile t).flags).onTile t (fun x => { x with rel := 0 })) g).progressed)

/-- MWAIT's deferred faults, and whether the commands waited on are complete. -/
def State.mwait (s : State) (f : EX) : Run Ctl := do
  let ts := s.grp.waitedTiles f
  let s ← s.takeMxAll (ts.map (fun t => (s.grp.id.uid, t)))
  if ts.all (fun t => decide (s.grp.mxCount t = 0)) then return .done (s.mwaitReturn f) else return .wait (.matrix f) s

/-- MWAIT (R237). -/
def execMwait (f : EX) (s : State) : Out :=
  finish 1 (do
    s.need (f.okMwait && s.grp.helper.isNone && (decide (f.sub = 0) || decide (tileOf f < s.grp.id.ntiles))) .illegal
    s.mwait f)

/-- MWAIT_DONE (R237): the awaited commands are complete, or one of them has faulted. -/
def execMwaitDone (s : State) : Out :=
  withGroup "MWAIT_DONE" s (fun t =>
    match t.grp.waiting? with
    | some (.matrix f) =>
      match t.mwait f with
      | .ok (.wait _ _) => .refused (.notEnabled "MWAIT_DONE")
      | r => finish 1 r
    | _ => .refused (.notEnabled "MWAIT_DONE"))

/-- The word that MSTAT gives in s[D] (R238). -/
def Group.mstat (g : Group) (t : Nat) : Word :=
  let x := g.tile t
  let busy := (g.mxHead t).isSome && decide (x.cause = 0)
  BitVec.ofNat 32 ((x.flags &&& 0x3D).toNat + min 8 (g.mxCount t) * 2 ^ 8 + (if busy then 2 ^ 12 else 0) +
    x.cause % 8 * 2 ^ 13 + x.tag.toNat * 2 ^ 16)

/-- MSTAT (R238). -/
def execMstat (f : EX) (s : State) : Out :=
  finish 1 (do
    s.need (f.okMstat && s.grp.mxOk f && s.grp.pairOk f.d) .illegal
    s.need (!s.grp.liveInPair f.d) .rgnw
    return .done (s.onGrp (fun g => g.wp f.d (pairOf (g.mstat (tileOf f)) (g.tile (tileOf f)).steps))))

end Sys2Proof.Machine
end

