-- ==== Sys2Proof/Machine/Placement.lean ====
section
/-! DEFINITION. What the groups of a slice and a core hold, and what is free (01_machine.md R16 to R18, R20 to R22,
05_vector.md R95, R96, 12_matrix.md R218, R229, 14_harvest_regions.md R257). Banks are counted uncompressed,
and harvest groups may take banks that compression leaves unused (log entry 9). -/

namespace Sys2Proof.Machine

open Sys2Proof

/-- The bank count of a group (R95): its ordinary banks and those of the framed window (R68). -/
def bankCount (banks frames : Nat) : Nat := if frames = 0 then banks else banks + (24 * frames + 8 + 15) / 16

/-- The bank count of a group. -/
def GroupId.bankNeed (i : GroupId) : Nat := bankCount i.banks i.frames

/-- A slice across the part. -/
def sliceIndex (core slice : Nat) : Nat := 4 * core + slice

/-- The slice of the group across the part. -/
def Group.sliceNo (g : Group) : Nat := sliceIndex g.coreNo g.id.slice

/-- A helper that has been granted and has not started holds its place in the counts, not yet a slot (R240). -/
def Group.granted (g : Group) : Bool := decide (g.status = .granted)

/-- The groups that hold a slot of a slice. -/
def State.onSlice (s : State) (slice : Nat) : List Group :=
  s.groups.filter (fun g => g.resident && !g.granted && decide (g.sliceNo = slice))

/-- The guaranteed groups that a slice is committed to, granted helpers included (R17, R240). -/
def State.guaranteedOn (s : State) (slice : Nat) : List Group :=
  s.groups.filter (fun g => g.resident && decide (g.id.cls = 0) && decide (g.sliceNo = slice))

/-- The bank numbers of a slice that a group of a class may take: those that no group has, and for a harvest group also
those that compression leaves unused (R95, R96). -/
def State.freeBanks (s : State) (slice cls : Nat) : List Nat :=
  let used := (s.onSlice slice).flatMap (fun g =>
    if cls = 0 || decide (g.id.cls ≠ 0) then g.bankIds else g.bankIds.filter (fun b => !s.spare.contains (slice, b)))
  (List.range 96).filter (fun b => !used.contains b)

/-- A harvest group holds a bank. -/
def State.harvestHolds (s : State) (slice bank : Nat) : Bool :=
  (s.onSlice slice).any (fun g => decide (g.id.cls ≠ 0) && g.bankIds.contains bank)

/-- The group whose registers a bank holds: a harvest group that took it as a spare bank before the guaranteed group that
has it (R96). -/
def State.bankOwner (s : State) (slice bank : Nat) : Option Group :=
  (s.onSlice slice).find? (fun g => g.bankIds.contains bank && (decide (g.id.cls ≠ 0) || !s.harvestHolds slice bank))

/-- A group keeps registers in a bank of its own that has not been swept (R97). -/
def State.unsweptBank (s : State) (g : Group) (b : Nat) : Bool :=
  s.unswept.contains (g.sliceNo, b) && (decide (g.id.cls ≠ 0) || !s.harvestHolds g.sliceNo b)

/-- The banks that a slice is committed to for guaranteed groups. -/
def State.guaranteedBanks (s : State) (slice : Nat) : Nat := ((s.guaranteedOn slice).map (fun g => g.id.bankNeed)).sum

/-! ### Guaranteed bands that have been assigned (R251, R260, R266) -/

/-- A context's bands may be placed, those of a bundle among them: no kill, no pre-emption under way; a checkpoint's bundle goes on
beside bands that are saved (R279, R284, R316). -/
def Context.mayRun (c : Context) (bundle : Nat) : Bool :=
  !c.killed && ((decide (c.tier < 2) && !c.isSaved) || decide (c.ckBundle = some bundle))

/-- The assignment of a guaranteed band still stands (R260): its field goes on, or its context is still to come back. -/
def State.arrivalStands (s : State) (a : Arrival) : Bool :=
  s.fields.any (fun f => decide (f.uid = a.field) && !f.killed && decide (f.nextBand < f.nband) &&
    ((s.ctx? f.ctx).map (fun c => c.mayRun f.bundle)).getD false) ||
  (decide (a.field = 0) && ((s.ctx? a.ctx).map (fun c => c.isSaved && !c.killed)).getD false)

/-- The assignments that stand, the latest first. -/
def State.standing (s : State) : List Arrival := s.arrivals.filter s.arrivalStands

/-- An assignment needs something of a core. -/
def Arrival.onCore (a : Arrival) (core : Nat) : Bool := a.need.any (fun n => decide (n.1 / 4 = core))

/-- What the assigned bands still need. -/
def State.owed (s : State) : List (Nat × Nat × Nat) := s.standing.flatMap (·.need)

/-- What they need of one slice. -/
def State.owedOn (s : State) (slice : Nat) : List (Nat × Nat × Nat) := s.owed.filter (fun n => n.1 = slice)

/-- The banks among some needs. -/
def banksOf (need : List (Nat × Nat × Nat)) : Nat := (need.map (fun n => n.2.1)).sum

/-- A band that a field, or a context that comes back, was assigned to the core before this one is served first (R266); harvest
bands take nothing of a core to which a guaranteed one has been assigned (R251). -/
def State.servedFirst (s : State) (field ctx core : Nat) : Bool :=
  (match s.standing.dropWhile (fun (a : Arrival) => !(decide (a.field = field) && decide (a.ctx = ctx))) with
   | _ :: older => older
   | [] => s.standing).any (fun a => a.onCore core)

/-- A slot and `n` banks are free now on a slice for a group of a class; harvest groups leave what an assigned band needs. -/
def State.slotFree (s : State) (slice cls n : Nat) : Bool :=
  let owed := if cls = 0 then [] else s.owedOn slice
  s.built.slices.getLsbD slice && decide ((s.onSlice slice).length + owed.length < 16) &&
  decide (n + banksOf owed ≤ (s.freeBanks slice cls).length)

/-- The helpers that have been granted a place on a slice and have not started. -/
def State.grantedOn (s : State) (slice : Nat) : List Group := s.groups.filter (fun g => g.granted && decide (g.sliceNo = slice))

/-- A slice can be committed to one more group of a class with `n` banks (R17, R95, R240): a guaranteed group may take what
harvest groups hold; a harvest group finds a slot and spare banks beside the helpers that are still to start, the assigned bands
and the writes that wait for storage (R251). -/
def State.canHost (s : State) (slice cls n : Nat) : Bool :=
  if cls = 0 then s.built.slices.getLsbD slice && decide ((s.guaranteedOn slice).length < 8) && decide (s.guaranteedBanks slice + n ≤ 96)
  else
    s.built.slices.getLsbD slice && !s.needy.any (fun b => decide (b.1 = slice)) &&
    decide ((s.onSlice slice).length + (s.grantedOn slice).length + (s.owedOn slice).length < 16) &&
    decide (n + (s.grantedOn slice).length + banksOf (s.owedOn slice) ≤ (s.freeBanks slice cls).length)

/-- A helper that has been granted a place finds it free now: a harvest helper beside the guaranteed helpers that are still to start,
and not where a guaranteed group's write waits for storage (R251). -/
def State.helperFits (s : State) (g : Group) : Bool :=
  let first := if g.id.cls = 0 then 0 else ((s.grantedOn g.sliceNo).filter (fun h => decide (h.id.cls = 0))).length
  s.slotFree g.sliceNo g.id.cls (1 + first) &&
    (decide (g.id.cls = 0) || (!s.needy.any (fun b => decide (b.1 = g.sliceNo)) &&
      decide ((s.onSlice g.sliceNo).length + (s.owedOn g.sliceNo).length + first < 16)))

/-- What harvest work must leave on a slice: the slots and the banks of the helpers that are still to start and of the assigned bands
(R251). -/
def State.leaves (s : State) (slice : Nat) : Nat × Nat :=
  ((s.grantedOn slice).length + (s.owedOn slice).length, (s.grantedOn slice).length + banksOf (s.owedOn slice))

/-- The bittern slots of a context that no harvest group or helper holds a claim to (R264). -/
def State.freeSlots (s : State) (c : Context) : Nat :=
  c.bslots - (s.groups.filter (fun g => g.lives && decide (g.id.ctx = c.num) && decide (g.id.cls = 1))).length

/-- The slices of a cluster, each as a core and a slice, those of core `first` before the others. -/
def clusterSlices (first : Nat) : List (Nat × Nat) :=
  (first :: (List.range 8).filter (fun c => c ≠ first)).flatMap (fun c => (List.range 4).map (fun l => (c, l)))

/-- The band's groups have all been saved, so it holds nothing (R287). -/
def State.bandSaved (s : State) (b : Band) : Bool :=
  ((s.ctx? b.ctx).map (·.isSaved)).getD false &&
  s.groups.all (fun g => decide (g.id.band ≠ b.uid) || !g.lives || !g.resident)

/-- An exited group keeps its tiles until the last of its commands completes (R229). -/
def Group.keepsTiles (g : Group) : Bool := decide (g.status = .exited) && !g.mxq.isEmpty

/-- The tiles that a core's groups hold, those of exited groups whose commands run on included (R218, R229); a saved band holds
none. -/
def State.tilesUsed (s : State) (core : Nat) : Nat :=
  ((s.groups.filter (fun g => decide (g.coreNo = core) &&
    (g.resident || (g.keepsTiles && !(s.band? g.id.band).any s.bandSaved)))).map (fun g => g.id.ntiles)).sum

/-- The team instances that are resident on a core, each as a band and an instance. -/
def State.instsOn (s : State) (core : Nat) : List (Nat × Inst) :=
  ((s.bands.filter (fun b => !s.bandSaved b)).flatMap (fun b => (b.insts.filter (fun i => !i.exited && decide (coreIndex b.cluster i.core = core))).map
    (fun i => (b.uid, i))))

/-- The scratch that a core's pool carves for instances of given sizes (R18). -/
def scratchCarve (sizes : List Nat) : Nat := (sizes.sum + 65535) / 65536 * 65536

/-- The region write buffers of a core that are held (R257). -/
def State.buffersHeld (s : State) (core : Nat) : List Group :=
  s.groups.filter (fun g => decide (g.coreNo = core) && g.resident && (g.region.isSome || match g.waiting? with
    | some (.regionTiles _) => true
    | _ => false))

/-- What a guaranteed group needs of a slice that harvest groups hold (R260). -/
def State.lacks (s : State) (slice groups banks : Nat) : Bool :=
  decide (16 < (s.onSlice slice).length + groups) || decide ((s.freeBanks slice 0).length < banks)

/-- A harvest group holds what a set of new groups needs: its slice lacks slots or banks for them, or its core tiles. -/
def State.holdsFor (s : State) (need : List (Nat × Nat × Nat)) (v : Group) : Bool :=
  let on := need.filter (fun n => n.1 = v.sliceNo)
  let tiles : Nat := ((need.filter (fun n => n.1 / 4 = v.coreNo)).map (fun n => n.2.2)).sum
  (!on.isEmpty && s.lacks v.sliceNo on.length (banksOf on)) ||
  (decide (0 < v.id.ntiles) && decide (0 < tiles) && decide (16 < s.tilesUsed v.coreNo + tiles))

/-- A harvest group that an eviction can take. -/
def Group.victim (g : Group) : Bool := decide (g.id.cls = 1) && g.resident && !g.granted

/-- The machine with the harvest groups of a cluster gone, as a guaranteed band's place is looked for (R310). -/
def State.withoutHarvest (s : State) (cluster : Nat) : State :=
  s.mapGroups (fun g => g.victim && decide (g.id.cluster = cluster)) (fun g => { g with status := .evicted false false false, bankIds := [] })

/-- A core with no resident group wakes for its first one (R97): its whole file, which was at retention, is to be swept, the banks
of that group first, then the rest in ascending order, slice by slice (log entry 87). -/
def State.wake (s : State) (core : Nat) (first : List (Nat × Nat)) : State :=
  if s.groups.any (fun g => g.resident && !g.granted && decide (g.coreNo = core)) then s
  else
    let all := (List.range 4).flatMap (fun l => (List.range 96).map (fun b => (sliceIndex core l, b)))
    let order := first ++ all.filter (fun b => !first.contains b)
    { s with
      unswept := order ++ s.unswept.filter (fun b => decide (b.1 / 4 ≠ core)),
      waking := order ++ s.waking.filter (fun b => decide (b.1 / 4 ≠ core)) }

/-- A bank that has woken with its core is the next of that core to be swept (R97). -/
def State.sweepDue (s : State) (slice bank : Nat) : Bool :=
  match s.waking.find? (fun b => decide (b.1 / 4 = slice / 4)) with
  | some b => !s.waking.contains (slice, bank) || decide (b = (slice, bank))
  | none => true

/-- Storage for a guaranteed group's write that a slice has free (R96): the bank itself where no harvest group holds it, else an
unallocated one, else another that compression leaves unused. -/
def State.storageFor (s : State) (slice bank : Nat) : Option Nat :=
  if !s.harvestHolds slice bank then some bank
  else
    match s.freeBanks slice 0 with
    | b :: _ => some b
    | [] => (s.spare.find? (fun b => decide (b.1 = slice) && !s.harvestHolds slice b.2)).map (·.2)

/-- The write takes bank `dst` in place of `bank`, whose number the group that had `dst` gets (R96). -/
def State.giveStorage (s : State) (slice bank dst : Nat) : State :=
  let swap (b : Nat) : Nat := if b = bank then dst else if b = dst then bank else b
  let s1 := s.mapGroups (fun g => decide (g.sliceNo = slice) && decide (g.id.cls = 0))
    (fun g => { g with bankIds := g.bankIds.map swap })
  { s1 with
    spare := s.spare.filter (fun b => b ≠ (slice, if s.spare.contains (slice, dst) then dst else bank)),
    needy := s.needy.filter (fun b => b ≠ (slice, bank)) }

/-- The place among a group's banks of the one that holds a physical register: the window's banks come after the ordinary
ones, its frames in order and the eight base registers of frame 0 after them (R68, R95; the order within the window is the
model's choice: log entry 87). -/
def Group.bankOfPhys (g : Group) (p : Nat) : Nat :=
  if p < 128 then p / 16
  else g.id.banks + (if p < 224 then p - 128 else 24 * g.id.frames + (p - 224)) / 16

/-- A bank holds live-in registers of the open region of a harvest group (R263). -/
def Group.liveInBank (g : Group) (bank : Nat) : Bool :=
  match g.region with
  | some r => decide (g.id.cls = 1) && r.phys.any (fun p => decide (g.bankIds[g.bankOfPhys p]? = some bank))
  | none => false

end Sys2Proof.Machine
end

