-- ==== Sys2Proof/Machine/Helpers.lean ====
section
/-! DEFINITION. Helper recruitment (13_helpers.md R239 to R250). -/

namespace Sys2Proof.Machine

open Sys2Proof

/-! ### Recruitments -/

/-- The chunks of N iterations: 96 in each (R239). -/
def chunksOf (n : Nat) : Nat := (n + 95) / 96

/-- The recruitment that a group works in: a helper's recruiter's, or its own, with the recruiter's uid. -/
def State.recruitOf (s : State) : Option (Nat × Recruit) :=
  match s.grp.helper with
  | some h => (s.group? h.recruiter).bind (fun g => g.recruit.map (fun r => (h.recruiter, r)))
  | none => s.grp.recruit.map (fun r => (s.grp.id.uid, r))

/-- Change the recruitment of a group. -/
def State.onRecruit (s : State) (uid : Nat) (h : Recruit → Recruit) : State :=
  s.mapGroups (fun g => decide (g.id.uid = uid)) (fun g => { g with recruit := g.recruit.map h })

/-- A chunk is complete. -/
def Recruit.complete (r : Recruit) : Option Nat → Recruit
  | some c => { r with done := r.done ||| BitVec.ofNat 256 (2 ^ c) }
  | none => r

/-- The group has parked; a harvest group that parked may have left its core since (R262). -/
def Group.hasParked (g : Group) : Bool :=
  match g.status with
  | .parked => true
  | .evicted _ _ p => p
  | .saved _ p => p
  | _ => false

/-- The helpers of a recruiter that have not ended. -/
def State.helpersOf (s : State) (uid : Nat) : List Group := s.groups.filter (fun g => g.helps uid && g.lives)

/-- The quota that is left for a band (R240). -/
def State.quotaLeft (s : State) (band : Nat) : Nat :=
  let quota := ((s.band? band).bind (fun b => s.fields.find? (fun f => f.uid = b.field))).map (fun f => f.kernel.hquota)
  quota.getD 0 - (s.groups.filter (fun g => g.helper.isSome && g.lives && decide (g.id.band = band))).length

/-! ### RCRT (R249) -/

/-- A helper as it is granted (R241): where it will run, its entry and its start state; TRAPV is 0 (log entry 86). -/
def Group.makeHelper (r : Group) (uid core slice hidx now : Nat) (entry : DWord) : Group :=
  let id := { r.id with uid := uid, core := core, slice := slice, placedAt := now, lanes := 96, banks := 1, frames := 0, ntiles := 0 }
  let g := Group.initial id entry 0 []
  { g with
    sreg := Vector.replicate 64 0, fpcr := r.fpcr, mdef := r.mdef, wdcfg := r.wdcfg, status := .granted,
    helper := some ⟨r.id.uid, hidx, none, 0, false⟩ }

/-- A helper of the issuing group finds a bittern slot, which a guaranteed one does not need (R264). -/
def State.slotForHelper (s : State) : Bool :=
  decide (s.grp.id.cls = 0) || ((s.ctx? s.grp.id.ctx).map (fun c => decide (0 < s.freeSlots c))).getD false

/-- The first slice of the cluster that can be committed to one more helper of the issuing group, beside the guaranteed bands that
have been assigned to it. -/
def State.helperPlace (s : State) : Option (Nat × Nat) :=
  if !s.slotForHelper then none
  else (clusterSlices s.grp.id.core).find? (fun p =>
    let sl := sliceIndex (coreIndex s.grp.id.cluster p.1) p.2
    s.canHost sl s.grp.id.cls 1 && (decide (s.grp.id.cls ≠ 0) ||
      (decide ((s.guaranteedOn sl).length + (s.owedOn sl).length < 8) &&
       decide (s.guaranteedBanks sl + banksOf (s.owedOn sl) + 1 ≤ 96))))

/-- Up to `n` helpers are granted, as long as there is a placement: how many, and the machine with them. -/
def State.grantHelpers (s : State) (entry : DWord) : Nat → Nat → Nat × State
  | 0, k => (k, s)
  | n + 1, k =>
    match s.helperPlace with
    | none => (k, s)
    | some p =>
      let g := s.grp.makeHelper s.nextId p.1 p.2 k s.clock entry
      State.grantHelpers { s with others := s.others ++ [g], nextId := s.nextId + 1 } entry n (k + 1)

/-- The recruitment that a granted RCRT creates: the snapshot is of the recruiting lane (R239). -/
def Group.newRecruit (g : Group) (f : EX) (n granted : Nat) : Recruit :=
  let lane := (lanesOf (g.mask 0)).headD 0
  { iters := n, next := 0, release := false, done := 0,
    lentVec := (List.range f.c.toNat).map (fun j => g.rvl (8 * f.b.toNat + j) lane),
    lentScal := Vector.ofFn (fun i => g.rs (BitVec.ofNat 6 i.val)),
    granted := granted, withSelf := f.sub.getLsbD 0, selfClaim := none, faults := [], fpsr := 0 }

/-- The lent registers lie in the allocation. -/
def Group.lentOk (g : Group) (f : EX) : Bool := (List.range f.c.toNat).all (fun j => g.hasVec (8 * f.b.toNat + j))

/-- The codes of a refusal, in their order; 0 for none before the placement (R249). -/
def State.recruitCode (s : State) : Nat :=
  if s.grp.helper.isSome then 3
  else if s.grp.inRegion then 4
  else if popCount (s.grp.mask 0) ≠ 1 then 1
  else if s.quotaLeft s.grp.id.band = 0 then 5
  else if s.helperPlace.isNone then 2
  else 0

/-- RCRT (R249). -/
def execRcrt (f : EX) (s : State) : Out :=
  finish 1 (do
    let g := s.grp
    s.need (f.okRcrt && g.scalOk f.d && g.scalOk f.a && g.lentOk f && g.recruit.isNone) .illegal
    s.need (!g.liveIn f.d) .rgnw
    let t := g.pc + 8 * f.imm.signExtend 64
    let h ← s.chk (s.check t)
    s.chk (needAt h.flagH .badtarget t)
    let n := (g.rs f.a).toNat
    s.chk (needAt (decide (n ≤ 24576)) .illegal (BitVec.ofNat 64 n))
    if n = 0 then return .done (s.onGrp (fun g => g.ws f.d 0))
    else if s.recruitCode ≠ 0 then return .done (s.onGrp (fun g => g.ws f.d (BitVec.ofNat 32 s.recruitCode)))
    else
      let s1 ← s.releaseRun 3
      let (k, s2) := s1.grantHelpers t (min 16 (min (chunksOf n) (s.quotaLeft g.id.band))) 0
      let res : Word := BitVec.ofNat 32 (k * 2 ^ 8 + chunksOf n * 2 ^ 16)
      return .done (s2.onGrp (fun g => { g.ws f.d res with recruit := some (g.newRecruit f n k) })))

/-- HELPER_START (R241): once its slot and bank are free, the helper starts with an acquire at band scope. -/
def execHelperStart (s : State) : Out :=
  withGroup "HELPER_START" s (fun t =>
    if t.grp.granted && t.helperFits t.grp then
      let b := (t.freeBanks t.grp.sliceNo t.grp.id.cls).take 1
      .next (((t.wake t.grp.coreNo (b.map (fun k => (t.grp.sliceNo, k)))).acquireAt t.grp.coreNo 3).onGrp (fun g =>
        { g with status := .ready, bankIds := b, helper := g.helper.map (fun h => { h with started := true }) }))
    else .refused (.notEnabled "HELPER_START"))

/-! ### HNEXT, HRD, HEND, HREL (R243, R250) -/

/-- A helper, or a recruiter with SELF. -/
def Group.mayClaim (g : Group) : Bool :=
  g.helper.isSome ||
  match g.recruit with
  | some r => r.withSelf
  | none => false

/-- The claim that the issuing group holds. -/
def State.myClaim (s : State) : Option Nat :=
  match s.grp.helper with
  | some h => h.chunk
  | none => s.grp.recruit.bind (·.selfClaim)

/-- The issuing group's claim is replaced. -/
def State.setClaim (s : State) (c : Option Nat) : State :=
  s.onGrp (fun g =>
    match g.helper with
    | some h => { g with helper := some { h with chunk := c, claimedAt := g.ccnt } }
    | none => { g with recruit := g.recruit.map (fun r => { r with selfClaim := c }) })

/-- The group has claimed chunk `c`, or none is left: em and s[D] (R250). -/
def Group.claimed (g : Group) (d : BitVec 6) (iters : Nat) : Option Nat → Group
  | some c => ((g.setRaw 0 (laneRange 0 (min 96 (iters - 96 * c)) &&& g.live)).ws d (BitVec.ofNat 32 (96 * c)))
  | none => (g.setRaw 0 0).ws d 0xFFFFFFFF

/-- HNEXT (R243, R250): a progress event (R245). -/
def execHnext (f : EX) (s : State) : Out :=
  finish 1 (do
    s.need (f.okHelper true 0 0 && s.grp.scalOk f.d && s.grp.mayClaim) .illegal
    s.need (!s.grp.liveIn f.d) .rgnw
    match s.recruitOf with
    | none => return .done (s.onGrp (fun g => (g.claimed f.d 0 none).progressed))
    | some (u, r) =>
      let c : Option Nat := if r.release || decide (chunksOf r.iters ≤ r.next) then none else some r.next
      let s1 := s.onRecruit u (fun r => { r.complete s.myClaim with next := if c.isSome then r.next + 1 else r.next })
      return .done ((s1.setClaim c).onGrp (fun g => (g.claimed f.d r.iters c).progressed)))

/-- A bank of the group is drowsy or not yet swept (R97), or a write of a guaranteed group waits for storage (R96). -/
def State.asleep (s : State) (g : Group) : Bool :=
  g.bankIds.any (fun b => s.unsweptBank g b || (decide (g.id.cls = 0) && s.needy.contains (g.sliceNo, b)))

/-- HRD (R250): it waits while the lent bank, which drowses with the recruiter's, is unswept. -/
def execHrd (f : EX) (s : State) : Out :=
  finish 1 (do
    s.need (f.okHelper true 22 0 && s.grp.scalOk f.d && s.grp.mayClaim) .illegal
    s.need (!s.grp.liveIn f.d) .rgnw
    match s.recruitOf with
    | none => return .done (s.onGrp (fun g => g.ws f.d 0))
    | some (u, r) =>
      let n := f.imm.toNat
      let x : Word := if n < 8 then r.lentVec[n]?.getD 0 else r.lentScal[n - 7]?.getD 0
      if ((s.group? u).map s.asleep).getD false then return .wait .again s
      else return .done (s.onGrp (fun g => g.ws f.d x)))

/-- A helper ends, its release made, its chunk complete and its flags kept with the recruitment (R247, R250). -/
def State.endHelper (s : State) (u : Nat) : State :=
  let g := s.grp
  let s1 := s.onRecruit u (fun r => { r.complete s.myClaim with fpsr := r.fpsr ||| g.fpsr })
  (s1.onGrp Group.ended).dropPrivate g.id.uid

/-- HEND (R250). -/
def execHend (f : EX) (s : State) : Out :=
  finish 1 (do
    s.need (f.okHelper false 0 0 && s.grp.helper.isSome) .illegal
    match s.grp.helper with
    | some h => do
      let t ← s.releaseRun 3
      return .at_ (t.endHelper h.recruiter)
    | none => return .done s)

/-- HREL (R250). -/
def execHrel (f : EX) (s : State) : Out :=
  finish 1 (do
    s.need (f.okHelper false 0 0 && s.grp.helper.isNone) .illegal
    return .done (s.onRecruit s.grp.id.uid (fun r => { r with release := true })))

/-! ### HJOIN (R247, R250) -/

/-- The lowest-numbered faulted helper of a recruitment. -/
def Recruit.firstFault (r : Recruit) : Option HelperFault :=
  r.faults.foldl (fun m x => match m with
    | none => some x
    | some y => if x.hidx < y.hidx then some x else some y) none

/-- The helper fault record (R247); the chunk of a helper that held none is a free value. -/
def State.helperRecord (s : State) (x : HelperFault) (n : Nat) : List Byte :=
  let chunk := x.chunk.getD ((Config.freeValue s.freeIx).toNat % 2 ^ 16)
  natBytes 2 2 ++ natBytes 1 x.cause ++ natBytes 1 n ++ natBytes 2 chunk ++ natBytes 1 x.hidx ++ natBytes 1 0 ++
  natBytes 8 x.pc.toNat ++ natBytes 8 x.trapa.toNat ++
  natBytes 8 (BitVec.ofNat 64 x.time + s.regs.toffs[s.grp.id.fn]?.getD 0).toNat

/-- The parked helpers of a recruiter are freed, their flags kept (R247). -/
def State.freeParked (s : State) (u : Nat) : State :=
  let parked := (s.helpersOf u).filter Group.hasParked
  let s0 := parked.foldl (fun t g => t.asGroup g.id.uid State.finishStores) s
  let s1 := s0.mapGroups (fun g => g.helps u && g.lives && g.hasParked) Group.ended
  let s2 := parked.foldl (fun t g => t.dropPrivate g.id.uid) s1
  s2.onRecruit u (fun r => { r with faults := [], fpsr := parked.foldl (fun f g => f ||| g.fpsr) r.fpsr })

/-- The recruitment ends: the SELF claim is complete, the flags are raised, the helpers' accesses are acquired (R250). -/
def State.joined (s : State) (r : Recruit) : State :=
  (s.acquireAt s.grp.coreNo 3).onGrp (fun g => { g with fpsr := g.fpsr ||| r.fpsr, recruit := none })

/-- The wait of HJOIN is over (R250). -/
def State.joinReady (s : State) : Bool :=
  (s.helpersOf s.grp.id.uid).all Group.hasParked

/-- HJOIN, after its own checks: wait, HFLT, or the join; `view` takes the done mask. -/
def State.join (s : State) (view : Option (BitVec 4)) : Run State :=
  match s.grp.recruit with
  | none => .ok (s.onGrp (fun g => match view with
    | some w => { g with view := g.view.setIfInBounds w.toNat 0 }
    | none => g))
  | some r =>
    if !s.joinReady then .error (.wait (match view with
      | some w => .join w
      | none => .again) s)
    else
      match r.firstFault with
      | some x =>
        let s1 := s.faultRecord s.grp.id.ctx (s.helperRecord x r.faults.length)
        let s2 : State := { s1.freeParked s.grp.id.uid with freeIx := s1.freeIx + 1 }
        .error (.trap { cause := .hflt, trapa := some x.trapa } s2)
      | none =>
        let r1 := r.complete r.selfClaim
        .ok ((s.joined r1).onGrp (fun g => match view with
          | some w => { g with view := g.view.setIfInBounds w.toNat r1.done }
          | none => g))

/-- HJOIN (R250). -/
def execHjoin (f : EX) (s : State) : Out :=
  finish 1 (do
    s.need (f.okHelper false 0 7 && s.grp.helper.isNone) .illegal
    let t ← s.join (some f.w)
    return .done t)

/-- HJOIN_COMPLETE (R250). -/
def execHjoinComplete (s : State) : Out :=
  withGroup "HJOIN_COMPLETE" s (fun t =>
    match t.grp.waiting? with
    | some (.join w) =>
      if t.joinReady then
        finish 1 (do
          let u ← t.join (some w)
          return .done u)
      else .refused (.notEnabled "HJOIN_COMPLETE")
    | _ => .refused (.notEnabled "HJOIN_COMPLETE"))

/-- A helper has held its chunk for more than 16,384 cc of its residency (R245). -/
def Group.chunkOver (g : Group) : Bool :=
  match g.helper with
  | some h => h.chunk.isSome && decide (16384 < g.ccnt - h.claimedAt)
  | none => false

/-- CHUNK_WATCHDOG_EXPIRY (R245): the helper parks with WDPROG. -/
def execChunkWatchdogExpiry (s : State) : Out :=
  withGroup "CHUNK_WATCHDOG_EXPIRY" s (fun t =>
    if t.grp.chunkOver && t.grp.resident && decide (t.grp.status ≠ .parked) then .next (t.takeTrap { cause := .wdprog })
    else .refused (.notEnabled "CHUNK_WATCHDOG_EXPIRY"))

end Sys2Proof.Machine
end

