-- ==== Sys2Proof/Machine/Regions.lean ====
section
/-! DEFINITION. Regions (14_harvest_regions.md R253 to R259, R268 to R270), the eviction of harvest groups and their reload
(R260 to R266, 13_helpers.md R246). -/

namespace Sys2Proof.Machine

open Sys2Proof

/-! ### RGN.OPEN (R268) -/

/-- The word stands first in a G block (R39). -/
def State.firstInG (s : State) : Bool :=
  decide (s.grp.pc = s.grp.blockHdr + 8) &&
  match s.fetch s.grp.blockHdr with
  | .ok w => isHeader w && (Header.ofWord w).flagG
  | .error _ => false

/-- The vector names of the octets of a mask. -/
def octetNames (m : BitVec 16) : List Nat :=
  ((List.range 16).filter (fun k => m.getLsbD k)).flatMap (fun k => (List.range 8).map (fun j => 8 * k + j))

/-- The dynamic conditions of RGN.OPEN: octets and tiles that the group holds, no region, no recruitment, no helper. -/
def Group.mayOpen (g : Group) (f : EX) : Bool :=
  g.helper.isNone && g.region.isNone && g.recruit.isNone && (octetNames f.imm).all g.hasVec &&
  (List.range 4).all (fun t => !f.w.getLsbD t || decide (t < g.id.ntiles))

/-- A queued matrix command names a tile of W. -/
def Group.tilesBusy (g : Group) (w : BitVec 4) : Bool := g.mxq.any (fun c => w.getLsbD c.tile)

/-- The recorded state (R253). -/
def Group.recordState (g : Group) : Recorded where
  em := Vector.ofFn (fun i => g.rs (BitVec.ofNat 6 (61 + i.val)))
  depth := g.depth
  start := g.start
  exit := g.exit
  lc := g.lc
  zreg := g.zreg
  gen := g.gen
  fpcr := g.fpcr
  fpsr := g.fpsr
  mdef := g.mdef

/-- The region that RGN.OPEN opens, with its live-in set by value (R253). -/
def Group.newRegion (g : Group) (f : EX) : Region where
  marker := g.pc - 8
  first := f.d.toNat
  count := f.c.toNat
  octets := f.imm
  phys := (octetNames f.imm).filterMap g.phys
  tiles := f.w
  svals := (List.range f.c.toNat).map (fun i => g.rs (BitVec.ofNat 6 (f.d.toNat + i)))
  vvals := ((octetNames f.imm).filterMap g.phys).map (fun p => (p, g.physLanes p))
  tvals := ((List.range 4).filter (fun t => f.w.getLsbD t)).map (fun t => (t, g.tile t))
  recd := g.recordState
  restarted := decide (g.rgnRst = some (g.pc - 8))
  evicted := false
  buffer := []

/-- The guaranteed groups of a core that wait for a write buffer. -/
def State.bufferWaiters (s : State) (core : Nat) : List Group :=
  s.groups.filter (fun g => decide (g.id.cls = 0) && g.resident && decide (g.coreNo = core) && match g.waiting? with
    | some (.regionBuffer _) => true
    | _ => false)

/-- A write buffer of the group's core is free, or is the group's own already (R257); a harvest group takes none that a guaranteed
one waits for (R251). -/
def State.bufferFree (s : State) : Bool :=
  decide (((s.buffersHeld s.grp.coreNo).filter (fun g => g.id.uid ≠ s.grp.id.uid)).length +
    (if s.grp.id.cls = 0 then 0 else (s.bufferWaiters s.grp.coreNo).length) < 8)

/-- RGN.OPEN after its checks: the buffer first, which the group then holds, then the tiles of W. -/
def State.openRegion (s : State) (f : EX) : Run Ctl :=
  if !s.bufferFree then .ok (.wait (.regionBuffer f) s)
  else if s.grp.tilesBusy f.w then .ok (.wait (.regionTiles f) s)
  else .ok (.done (s.onGrp (fun g => { g with region := some (g.newRegion f), reopens := false })))

/-- RGN.OPEN (R268). -/
def execRgnOpen (f : EX) (s : State) : Out :=
  finish 1 (do
    s.need (f.okRgnOpen && s.firstInG && s.grp.mayOpen f) .illegal
    s.openRegion f)

/-- RGN_OPEN_BUFFER_GRANT (R257): a buffer is free for the waiting group. -/
def execRgnOpenBufferGrant (s : State) : Out :=
  withGroup "RGN_OPEN_BUFFER_GRANT" s (fun t =>
    match t.grp.waiting? with
    | some (.regionBuffer f) =>
      if t.bufferFree then finish 1 (t.openRegion f) else .refused (.notEnabled "RGN_OPEN_BUFFER_GRANT")
    | _ => .refused (.notEnabled "RGN_OPEN_BUFFER_GRANT"))

/-! ### RGN.CLOSE (R259, R269) -/

/-- The bytes of a line entry are published. -/
def State.publishLine (s : State) (line : Nat) (mask : BitVec 128) (data : Vector Byte 128) : State :=
  (List.range 128).foldl (fun t o => if mask.getLsbD o then t.setBacking (128 * line + o) (data[o]?.getD 0) else t)
    (s.takeExclusive s.grp.coreNo (128 * line))

/-- The value that an atomic entry writes over a value of its size (R172, R173). -/
def entryNew (size op : Nat) (operand : BitVec 128) (old : Nat) : Nat :=
  if op = opFxadd then (BitVec.ofNat 128 old + operand).toNat else atomNew (8 * size) op old operand.toNat 0

/-- Bytes are published at rising keys. -/
def State.publishBytes (s : State) (key : Nat) : List Byte → State
  | [] => s
  | x :: xs => State.publishBytes (s.setBacking key x) (key + 1) xs

/-- One entry of the buffer is applied, its line held exclusively (R259). -/
def State.applyEntry (s : State) : BufEntry → State
  | .line l m d => s.publishLine l m d
  | .atom k n o x =>
    let s1 := s.takeExclusive s.grp.coreNo k
    s1.publishBytes k (natBytes n (entryNew n o x (bytesNat (s1.readCoherent k n))))

/-- The commit, its release having been made: the entries in creation order, which no agent sees in part. -/
def State.publish (s : State) (r : Region) : State :=
  ((r.buffer.foldl State.applyEntry s).onGrp (fun g => { g with region := none, rgnRst := none })).onGrp Group.progressed

/-- Scalars from `d` on take the values of a list. -/
def Group.writeScalars (g : Group) (d : Nat) : List Word → Group
  | [] => g
  | x :: xs => Group.writeScalars (g.ws (BitVec.ofNat 6 d) x) (d + 1) xs

/-- N scalars from A on, read before the commit. -/
def Group.sources (g : Group) (f : EX) : List Word := (List.range f.c.toNat).map (fun i => g.rs (BitVec.ofNat 6 (f.a.toNat + i)))

/-- RGN.CLOSE (R269): once the group's matrix commands are complete the gather begins, with the release at the commit's scope
(R259). -/
def execRgnClose (f : EX) (s : State) : Out :=
  finish 1 (do
    s.need (f.okRgnClose && s.grp.inRegion) .illegal
    if !s.grp.mxq.isEmpty then return .wait .again s
    else
      let t ← s.settleStores
      let u := t.releaseAt t.grp.coreNo f.sub.toNat
      if f.sub = 6 then return .wait (.commit f u.remoteDirty) (u.sendRemoteWrites u.remoteDirty)
      else return .wait (.commit f []) u)

/-- What RGN.CLOSE does from its commit point on. -/
def State.commit (s : State) (f : EX) (r : Region) : Ctl :=
  let again := decide (f.imm = 1) && decide (s.grp.rs f.b ≠ 0)
  let src := s.grp.sources f
  let t := (s.publish r).onGrp (fun g => g.writeScalars f.d.toNat src)
  if again then .goto r.marker (t.onGrp (fun g => { g with reopens := true })) else .done t

/-- Some of these bytes of remote windows are not acknowledged yet. -/
def State.unacked (s : State) (cells : List Host.Cell) : Bool :=
  cells.any (fun c => s.remote.any (fun r => (r.write.getD []).contains c) || s.lost.any (fun l => l.2.contains c))

/-- RGN_COMMIT_PUBLISH (R259): at system scope once the remote devices have acknowledged what the gather has sent. -/
def execRgnCommitPublish (s : State) : Out :=
  withGroup "RGN_COMMIT_PUBLISH" s (fun t =>
    match t.grp.waiting?, t.grp.region with
    | some (.commit f sent), some r =>
      if t.unacked sent then .refused (.notEnabled "RGN_COMMIT_PUBLISH")
      else settle 1 (t.commit f r)
    | _, _ => .refused (.notEnabled "RGN_COMMIT_PUBLISH"))

/-! ### Restart (R254) -/

/-- The physical vector registers at a restart: the live-in ones as they were, every other zero. -/
def restartVec (vvals : List (Nat × Lanes)) : Vector Lanes 232 :=
  vvals.foldl (fun v p => v.setIfInBounds p.1 p.2) (Vector.replicate 232 zeroLanes)

/-- The tiles at a restart: the live-in ones as they were, every other +0. -/
def restartTiles (tvals : List (Nat × Tile)) (old : Vector Tile 4) : Vector Tile 4 :=
  tvals.foldl (fun v p => v.setIfInBounds p.1 p.2) (old.map Tile.zeroed)

/-- The scalars at a restart: the live-in ones, em0 to em2 as recorded, every other zero. -/
def restartScalars (r : Region) : Vector Word 64 :=
  Vector.ofFn (fun i =>
    if 61 ≤ i.val then r.recd.em[i.val - 61]?.getD 0
    else if r.first ≤ i.val && i.val < r.first + r.count then r.svals[i.val - r.first]?.getD 0
    else 0)

/-- The group as a restart leaves it, before it enters its marker's block; what the table does not name, as its TRAP registers, the
tag of its matrix commands and its YIELD latches, stays (R254, log entry 37). -/
def Group.restart (g : Group) (r : Region) : Group :=
  { g with
    sreg := restartScalars r, vreg := restartVec r.vvals, tiles := restartTiles r.tvals g.tiles, gen := r.recd.gen,
    fpcr := r.recd.fpcr, fpsr := r.recd.fpsr, mdef := r.recd.mdef, zreg := r.recd.zreg, depth := r.recd.depth,
    start := r.recd.start, exit := r.recd.exit, lc := r.recd.lc, region := none, rgnRst := some r.marker, reopens := false,
    mxq := [], pc := r.marker, blockHdr := r.marker, status := .ready }

/-- The group stands at its region's marker with the recorded state, after an acquire at system scope (R164, R254). -/
def State.toMarker (s : State) (r : Region) : State := (s.acquireAt s.grp.coreNo 6).onGrp (fun g => g.discardMx.restart r)

/-- A region restart: the recorded state, and the marker's header without LIVE. -/
def State.restartRegion (s : State) : State :=
  match s.grp.region with
  | none => s
  | some r =>
    match (s.toMarker r).enter r.marker false with
    | .ok t => t
    | .error e => (s.toMarker r).takeTrap e

/-- RGN.ABORT (R270). -/
def execRgnAbort (f : EX) (s : State) : Out :=
  finish 1 (do
    s.need (f.okHelper false 0 0 && s.grp.inRegion) .illegal
    return .at_ (s.onGrp Group.countRetired).restartRegion)

/-! ### Eviction (R260 to R264) -/

/-- A guaranteed group needs what a harvest group holds (R260): a region buffer of its core, a slot or bank for a helper
that has been granted, storage for a write (R96), or the place of a band that has been assigned to its core; of such a band the leaf
may choose it (R260, R384). -/
def State.evictionDue (s : State) (v : Group) : Bool :=
  s.groups.any (fun g => decide (g.id.cls = 0) && g.resident &&
    ((decide (g.coreNo = v.coreNo) && decide (8 ≤ (s.buffersHeld v.coreNo).length) && (s.buffersHeld v.coreNo).any (fun h => decide (h.id.uid = v.id.uid)) && match g.waiting? with
      | some (.regionBuffer _) => true
      | _ => false) ||
     (g.granted && decide (g.sliceNo = v.sliceNo) && !s.slotFree g.sliceNo 0 1))) ||
  (s.needy.any (fun n => decide (n.1 = v.sliceNo) && (s.storageFor n.1 n.2).isNone) && !v.bankIds.isEmpty) ||
  s.holdsFor s.owed v || s.standing.any (fun a => a.takes.contains v.id.uid)

/-- A post in flight ends before the group leaves (R262, R186). -/
def State.endPost (s : State) : State :=
  match s.grp.waiting? with
  | some (.bpost f view number level) => (s.bpostDone f view number level).retire 1
  | _ => s

/-- A recruiter that is evicted releases its helpers, and a helper that is evicted its recruitment (R244). -/
def State.releaseRecruit (s : State) : State :=
  match s.grp.helper with
  | some h => s.onRecruit h.recruiter (fun r => { r with release := true })
  | none => s.onRecruit s.grp.id.uid (fun r => { r with release := true })

/-- A group that a commit with `again` has brought back to its marker stands inside the new region (R261). -/
def State.reopened (s : State) : State :=
  match s.fetch s.grp.pc with
  | .ok w =>
    match decode [w] with
    | .ok (.rgnOpen f) =>
      if s.grp.reopens && f.okRgnOpen && s.firstInG && s.grp.mayOpen f then
        s.onGrp (fun g => { g with region := some (g.newRegion f), reopens := false })
      else s
    | _ => s
  | .error _ => s

/-- The release at system scope of a group that leaves its core; its remote bytes are on their way (R164). -/
def State.releaseAll (s : State) : State :=
  let s1 := s.finishStores
  let s2 := s1.releaseAt s1.grp.coreNo 6
  s2.sendRemoteWrites s2.remoteDirty

/-- The group's drowsy banks leave with their contents unswept (R97, R263). -/
def State.spillDrowsy (s : State) : State :=
  let sl := s.grp.sliceNo
  { s with
    grp := { s.grp with drowsy := (List.range s.grp.bankIds.length).filter (fun i =>
      ((s.grp.bankIds[i]?).map (fun b => s.unswept.contains (sl, b))).getD false) },
    unswept := s.unswept.filter (fun b => !(decide (b.1 = sl) && s.grp.bankIds.contains b.2)),
    waking := s.waking.filter (fun b => !(decide (b.1 = sl) && s.grp.bankIds.contains b.2)) }

/-- A region whose group leaves its core inside it: the buffer is discarded, the record kept (R261). -/
def Region.leave (r : Region) : Region := { r with buffer := [], evicted := true }

/-- A harvest group leaves its slice (R261, R262): its buffer is discarded, its matrix commands end, its state goes to the
bittern. -/
def State.evict (s : State) : State :=
  let s1 := s.endPost.reopened
  let inRegion := s1.grp.inRegion
  s1.leavesCore.releaseRecruit.releaseAll.spillDrowsy.onGrp (fun g =>
    { g.discardMx with
      region := g.region.map Region.leave, bankIds := [], remoteGot := [],
      status := .evicted inRegion false (decide (g.status = .parked) && !inRegion) })

/-- HARVEST_EVICTION (R260, R261, R262). -/
def execHarvestEviction (s : State) : Out :=
  match s.ev with
  | .evict uid _ =>
    match s.focus uid with
    | none => .fault (.noSuchGroup uid)
    | some t =>
      if t.grp.victim && t.evictionDue t.grp then .next t.evict
      else .refused (.notEnabled "HARVEST_EVICTION")
  | _ => .refused (.notEnabled "HARVEST_EVICTION")

/-- The runs of memory that a slot of a context's bittern takes: the key of the first byte of each, and its length (R264). -/
def State.slotRuns (s : State) (c : Context) (i : Nat) : List (Nat × Nat) :=
  let lo := fld c.bittern 0 57 + 352256 * i
  (List.range 173).filterMap (fun j =>
    let a := max lo ((lo / 2048 + j) * 2048)
    let b := min (lo + 352256) ((lo / 2048 + j + 1) * 2048)
    if b ≤ a then none
    else if fld c.bittern 60 4 = 1 then some (keyCarve c.num a, b - a)
    else
      match s.translate c.who (BitVec.ofNat 64 a) .write with
      | .at_ k => some (k, b - a)
      | _ => none)

/-- The bytes that memory holds in a slot. -/
def State.slotCells (s : State) (c : Context) (i : Nat) : List Host.Cell :=
  let runs := s.slotRuns c i
  s.mem.filter (fun x => runs.any (fun r => decide (r.1 ≤ x.1) && decide (x.1 < r.1 + r.2)))

/-- The first slot of the issuing group's context that no other group's state takes. -/
def State.openSlot (s : State) (c : Context) : Nat :=
  ((List.range c.bslots).find? (fun i => !s.groups.any (fun g => decide (g.id.ctx = c.num) && decide (g.slot = some i)))).getD 0

/-- The group's state has been written to its slot. -/
def State.spilled (s : State) (restart parked : Bool) : State :=
  match s.ctx? s.grp.id.ctx with
  | some c =>
    let i := s.openSlot c
    s.onGrp (fun g => { g with slot := some i, slotBytes := s.slotCells c i, status := .evicted restart true parked })
  | none => s.onGrp (fun g => { g with status := .evicted restart true parked })

/-- The software has changed the slot since (R264). -/
def State.slotChanged (s : State) : Bool :=
  match s.ctx? s.grp.id.ctx, s.grp.slot with
  | some c, some i => decide (s.slotCells c i ≠ s.grp.slotBytes)
  | _, _ => false

/-- SPILL_COMPLETE (R263): the group's accesses are performed at system scope (R164) and its state is in its slot. -/
def execSpillComplete (s : State) : Out :=
  withGroup "SPILL_COMPLETE" s (fun t =>
    match t.grp.status with
    | .evicted r false p => t.settleFirst "SPILL_COMPLETE" true (fun u => .next (u.spilled r p))
    | _ => .refused (.notEnabled "SPILL_COMPLETE"))

/-! ### Reload (R265) -/

/-- No guaranteed band or write still waits for what a slice has (R260). -/
def State.unclaimed (s : State) (slice : Nat) : Bool :=
  !s.needy.any (fun n => decide (n.1 = slice)) &&
  !s.standing.any (fun a => a.onCore (slice / 4))

/-- Capacity is back on the group's own core: the slice that takes it. -/
def State.reloadSlice (s : State) : Option Nat :=
  let core := s.grp.coreNo
  (List.range 4).find? (fun l => s.unclaimed (sliceIndex core l) && s.canHost (sliceIndex core l) s.grp.id.cls s.grp.id.bankNeed &&
    decide (s.tilesUsed core + s.grp.id.ntiles ≤ 16))

/-- The tokens that the engine held for the group are placed in its registers, in their order (R201). -/
def State.placeHeld (s : State) : State :=
  let mine := s.tokens.filter (fun t => t.group = s.grp.id.uid)
  let s1 := mine.foldl (fun x t => x.placeToken t.group t.reg t.token (t.rel.getD 0)) s
  { s1 with tokens := s1.tokens.filter (fun t => t.group ≠ s.grp.id.uid) }

/-- The banks that a group takes on a slice, their drowsy contents still to be swept (R97); its core wakes for it. -/
def State.wakeFor (s : State) (core slice need : Nat) : List Nat × State :=
  let sl := sliceIndex core slice
  let banks := (s.freeBanks sl s.grp.id.cls).take need
  let asleep := (s.grp.drowsy.filterMap (fun i => banks[i]?)).map (fun b => (sl, b))
  let t := s.wake core (banks.map (fun b => (sl, b)))
  (banks, { t with unswept := asleep ++ t.unswept.filter (fun b => !asleep.contains b) })

/-- The group comes back to a slice of its core; one that a debugger has halted inside its region stays parked (log entry 56). -/
def State.reload (s : State) (slice : Nat) (restart parked : Bool) : State :=
  let (banks, t) := s.wakeFor s.grp.coreNo slice s.grp.id.bankNeed
  let s1 := (t.acquireAt t.grp.coreNo 6).onGrp (fun g =>
    { g with
      id := { g.id with slice := slice, placedAt := s.clock }, bankIds := banks, drowsy := [], slot := none, slotBytes := [],
      status := if parked then .parked else .ready })
  if restart && !parked then s1.placeHeld.restartRegion else s1.placeHeld

end Sys2Proof.Machine
end

