-- ==== Sys2Proof/Machine/Flow.lean ====
section
/-! DEFINITION. EXIT, YIELD, NOP and SNOOZE, and the events that end their waits (03_control.md R74 to R77). -/

namespace Sys2Proof.Machine

open Sys2Proof

/-! ### EXIT (R74) -/

/-- Another group of the issuing group's team has not exited. -/
def State.notLast (s : State) : Bool :=
  s.groups.any (fun g => decide (g.id.uid ≠ s.grp.id.uid) && decide (g.id.band = s.grp.id.band) &&
    decide (g.id.inst = s.grp.id.inst) && g.helper.isNone && g.lives)

/-- The tiles whose deferred faults an EXIT takes (R227, R229): the group's own, and as the last of its team those of the
groups that have exited. -/
def State.exitTiles (s : State) : List (Nat × Nat) :=
  let own := (List.range s.grp.id.ntiles).map (fun t => (s.grp.id.uid, t))
  let gone := (s.groups.filter (fun g => decide (g.id.uid ≠ s.grp.id.uid) && decide (g.id.band = s.grp.id.band) &&
    decide (g.id.inst = s.grp.id.inst) && !g.lives)).flatMap (fun g => (List.range g.id.ntiles).map (fun t => (g.id.uid, t)))
  if s.notLast then own else own ++ gone

/-- The team's copies and matrix commands are complete (R208, R229). -/
def State.teamIdle (s : State) : Bool :=
  !s.copies.any (fun c => c.group.isSome && decide (c.band = s.grp.id.band) && decide (c.inst = s.grp.id.inst)) &&
  s.groups.all (fun g => !(decide (g.id.band = s.grp.id.band) && decide (g.id.inst = s.grp.id.inst)) || g.mxq.isEmpty)

/-- A remote access of the group is not answered yet. -/
def State.remoteOpen (s : State) : Bool := s.remote.any (fun r => r.group = some s.grp.id.uid)

/-- HREL, and HJOIN into no view register, where a recruitment is outstanding. -/
def State.exitJoin (s : State) : Run State :=
  if s.grp.recruit.isSome then (s.onRecruit s.grp.id.uid (fun r => { r with release := true })).join none else .ok s

/-- EXIT (R74). -/
def execExit (f : SR) (s : State) : Out :=
  finish 1 (do
    s.need (f.allZero && s.grp.helper.isNone) .illegal
    let s ← s.exitJoin
    let s ← s.takeMxAll s.exitTiles
    let s ← s.settleStores
    if s.remoteOpen || (!s.notLast && !s.teamIdle) then return .wait .again s
    else return .at_ ((s.onGrp (fun g => g.countRetired.progressed)).endGroup s.grp.id.uid false))

/-! ### YIELD (R75) -/

/-- The events present: bit 0 a completion or receive register that holds an entry, bits 1 and 2 as latched. -/
def Group.yieldEvents (g : Group) : BitVec 3 :=
  let held := g.queues.toList.any (fun q => !q.entries.isEmpty && match q.kind with
    | .done => true
    | .recv _ => true
    | _ => false)
  (g.latch &&& 6) ||| (if held then 1 else 0)

/-- The continuation: the latched events named are consumed, and the next word must be a header. -/
def State.continueYield (s : State) (e : BitVec 3) : Run Ctl := do
  let t := s.onGrp (fun g => { g with latch := g.latch &&& ~~~(e &&& 6) })
  let _ ← t.chk (t.check (t.grp.pc + 8))
  return .goto (t.grp.pc + 8) (t.onGrp Group.progressed)

/-- The event set of a YIELD. -/
def yieldSet (f : SR) : BitVec 3 := f.imm.setWidth 3

/-- YIELD (R75). -/
def execYield (f : SR) (s : State) : Out :=
  finish 1 (do
    s.need f.okYield .illegal
    if s.grp.yieldEvents &&& yieldSet f ≠ 0 then s.continueYield (yieldSet f)
    else return .wait (.yielding (yieldSet f)) (s.onGrp Group.progressed))

/-- YIELD_WAKE (R75). -/
def execYieldWake (s : State) : Out :=
  withGroup "YIELD_WAKE" s (fun t =>
    match t.grp.waiting? with
    | some (.yielding e) =>
      if t.grp.yieldEvents &&& e ≠ 0 then finish 1 (t.continueYield e) else .refused (.notEnabled "YIELD_WAKE")
    | _ => .refused (.notEnabled "YIELD_WAKE"))

/-! ### NOP and SNOOZE (R76, R77) -/

/-- NOP (R76). -/
def execNop (f : SR) (s : State) : Out :=
  finish 1 (do
    s.need f.allZero .illegal
    return .done s)

/-- SNOOZE (R77): the count is of cc of the core, as CCNT counts them. -/
def execSnooze (f : SR) (s : State) : Out :=
  finish 1 (do
    s.need (f.okSnooze && s.grp.scalOk f.b) .illegal
    if s.grp.srcB f = 0 then return .done s else return .wait (.snooze (s.grp.ccnt + (s.grp.srcB f).toNat)) s)

/-- SNOOZE_EXPIRY (R77). -/
def execSnoozeExpiry (s : State) : Out :=
  withGroup "SNOOZE_EXPIRY" s (fun t =>
    match t.grp.waiting? with
    | some (.snooze u) => if u ≤ t.grp.ccnt then settle 1 (.done t) else .refused (.notEnabled "SNOOZE_EXPIRY")
    | _ => .refused (.notEnabled "SNOOZE_EXPIRY"))

end Sys2Proof.Machine
end

