-- ==== Sys2Proof/Machine/System.lean ====
section
/-! DEFINITION. Special registers, the system instructions, PREEMPT, watchdogs and machine checks
(15_system_and_traps.md R271 to R295). -/

namespace Sys2Proof.Machine

open Sys2Proof

/-! ### Reading special registers (R271, R248, R272) -/

/-- HSTAT (R248). -/
def State.hstat (s : State) : Word :=
  let hlp := if s.grp.helper.isSome then 2 ^ 31 else 0
  let hidx := (s.grp.helper.map (·.hidx)).getD 0
  match s.recruitOf with
  | some (_, r) =>
    BitVec.ofNat 32 (hlp + 2 ^ 30 + (if r.release then 2 ^ 29 else 0) + chunksOf r.iters % 512 * 2 ^ 16 +
      r.granted % 256 * 2 ^ 8 + hidx % 16)
  | none => BitVec.ofNat 32 (hlp + hidx % 16)

/-- RGNST (R272). -/
def Group.rgnst (g : Group) : Word :=
  match g.region with
  | some r =>
    BitVec.ofNat 32 (2 ^ 31 + (if r.restarted then 2 ^ 30 else 0) + r.tiles.toNat * 2 ^ 26 + r.count % 64 * 2 ^ 20 +
      r.octets.toNat)
  | none => 0

/-- A special register that is no pair (R271). -/
def State.special (s : State) (n : Nat) : Word :=
  let g := s.grp
  let i := g.id
  match n with
  | 0x00 => BitVec.ofNat 32 i.cls
  | 0x01 => BitVec.ofNat 32 (i.fn % 64)
  | 0x02 => BitVec.ofNat 32 (i.ctx % 256)
  | 0x03 => BitVec.ofNat 32 i.die
  | 0x04 => BitVec.ofNat 32 i.bandx
  | 0x05 => BitVec.ofNat 32 i.teamx
  | 0x06 => BitVec.ofNat 32 i.grpx
  | 0x07 => BitVec.ofNat 32 i.stage
  | 0x08 => BitVec.ofNat 32 i.nband
  | 0x09 => BitVec.ofNat 32 i.nteam
  | 0x0A => BitVec.ofNat 32 i.ngrp
  | 0x0B => BitVec.ofNat 32 i.nstage
  | 0x0D => g.fpcr
  | 0x0E => g.fpsr
  | 0x0F => g.mdef
  | 0x11 => g.trapc
  | 0x14 => g.wdcfg
  | 0x15 => s.hstat
  | 0x16 => g.rgnst
  | _ => 0

/-- A special register that is a pair (R271). -/
def Group.specialPair (g : Group) (n : Nat) : DWord :=
  match n with
  | 0x0C => g.id.karg
  | 0x10 => g.trapv
  | 0x12 => g.trappc
  | 0x13 => g.trapa
  | 0x17 => BitVec.ofNat 64 g.ccnt
  | _ => 0

/-- RDS (R291). -/
def execRds (f : SR) (s : State) : Out :=
  let n := f.imm.toNat
  let pair := isPairSpecial n
  finish 1 (do
    s.need (f.okRds && (if pair then s.grp.pairOk f.d else s.grp.scalOk f.d)) .illegal
    s.need (!(if pair then s.grp.liveInPair f.d else s.grp.liveIn f.d)) .rgnw
    return .done (s.onGrp (fun g => if pair then g.wp f.d (g.specialPair n) else g.ws f.d (s.special n))))

/-! ### Writing special registers -/

/-- A value that MDEF takes (R132). -/
def mdefOk (x : Word) : Bool :=
  let fit (lo len a b : Nat) : Bool := decide (a ≤ (x.extractLsb' lo len).toNat) && decide ((x.extractLsb' lo len).toNat ≤ b)
  fit 0 3 1 4 && fit 3 3 1 6 && fit 6 3 1 5 && fit 9 3 1 5 && fit 12 2 0 2 && fit 19 13 0 0

/-- A value that WDCFG takes (R282). -/
def wdcfgOk (x : Word) : Bool :=
  let fit (lo len a b : Nat) : Bool := decide (a ≤ (x.extractLsb' lo len).toNat) && decide ((x.extractLsb' lo len).toNat ≤ b)
  fit 24 8 0 0 && fit 16 8 16 40 && fit 8 8 16 40 && fit 1 7 0 0

/-- The bits of FPCR that are not reserved (R100). -/
def fpcrMask : Word := 0x00000FF3

/-- The value is accepted by the register. -/
def specialOk (n : Nat) (x : Word) : Bool :=
  match n with
  | 0x0F => mdefOk x
  | 0x14 => wdcfgOk x
  | _ => true

/-- A special register takes a value, under its access (R271, R100, R101). -/
def Group.setSpecial (g : Group) (n : Nat) (x : Word) (p : DWord) : Group :=
  match n with
  | 0x0D => { g with fpcr := x &&& fpcrMask }
  | 0x0E => { g with fpsr := g.fpsr &&& ~~~x }
  | 0x0F => { g with mdef := x }
  | 0x10 => { g with trapv := p }
  | 0x12 => { g with trappc := p }
  | 0x13 => { g with trapa := p }
  | 0x14 => { g with wdcfg := x }
  | _ => g

/-- WRS (R291). -/
def execWrs (f : SR) (s : State) : Out :=
  let n := f.imm.toNat
  finish 1 (do
    s.need (f.okWrs && (if isPairSpecial n then s.grp.pairOk f.a else s.grp.scalOk f.a) && specialOk n (s.grp.rs f.a)) .illegal
    return .done (s.onGrp (fun g => g.setSpecial n (g.rs f.a) (g.rp f.a))))

/-! ### TRAP and BRK (R292) -/

/-- The group stands at the word that fall-through from its instruction reaches, back-edges taken, and a header there is
not entered yet (R275). -/
def State.fallTo (s : State) (a : DWord) : Chk State :=
  if a = s.grp.blockEnd then
    match s.fallOk a with
    | .error e => .error e
    | .ok () =>
      let (g, t) := s.grp.arrive a
      let bend := match s.check t with
        | .ok h => blockEndOf t h
        | .error _ => t
      .ok { s with grp := { g with pc := t, blockHdr := t, blockEnd := bend } }
  else .ok (s.onGrp (fun g => { g with pc := a }))

/-- A user trap that an instruction raises: TRAPPC is what follows it. -/
def State.userTrap (s : State) (c : Cause) (code : Nat) : Run Ctl :=
  match s.fallTo (s.grp.pc + 8) with
  | .error e => .error (.trap e s)
  | .ok t => .ok (.trap { cause := c, arg := code } (t.onGrp (fun g => { g.countRetired with status := .ready })))

/-- TRAP (R292). -/
def execTrap (f : SR) (s : State) : Out :=
  finish 1 (do
    s.need f.okTrap .illegal
    s.userTrap .swtrap f.imm.toNat)

/-- BRK (R292). -/
def execBrk (f : SR) (s : State) : Out :=
  finish 1 (do
    s.need f.okTrap .illegal
    s.userTrap .brkpt f.imm.toNat)

/-! ### PREEMPT (R275, R277, R285) -/

/-- The helpers of the group have ended or parked (R244). -/
def State.helpersQuiet (s : State) : Bool := (s.helpersOf s.grp.id.uid).all Group.hasParked

/-- The instruction that a YIELD, a SNOOZE or a BPOST waits in ends, so that TRAPPC can hold what follows it (R75, R77,
R186); any other wait stays at its instruction (R177, R181, R182, R202). -/
def State.endWait (s : State) : State :=
  match s.grp.waiting? with
  | some (.yielding _) =>
    match s.check (s.grp.pc + 8) with
    | .error e => s.takeTrap e
    | .ok _ =>
      let (g, t) := s.grp.arrive (s.grp.pc + 8)
      let bend := match s.check t with
        | .ok h => blockEndOf t h
        | .error _ => t
      { s with grp := { g.countRetired with pc := t, blockHdr := t, blockEnd := bend, status := .ready } }
  | some (.snooze _) => s.onGrp (fun g => { g.countRetired with pc := g.pc + 8, status := .ready })
  | some (.bpost f view number level) => (s.bpostDone f view number level).retire 1
  | _ => s

/-- PREEMPT that is due at `since` is delivered, or held while HND is 1 or helpers run (R244, R277). -/
def State.preemptNow (s : State) (since : Nat) : State :=
  let s1 := s.onGrp (fun g => { g with preempt := .due since })
  if s1.grp.hnd || !s1.helpersQuiet then s1
  else
    let s2 := s1.endWait
    if decide (s2.grp.status = .parked) || s2.grp.hnd then s2
    else (s2.onGrp (fun g => { g with status := .ready })).deliverPreempt since

/-- A PREEMPT that is due can be delivered. -/
def State.preemptable (s : State) : Bool :=
  match s.grp.preempt with
  | .due _ => s.grp.resident && decide (s.grp.status ≠ .parked) && !s.grp.hnd && s.helpersQuiet && !s.grp.inRegion
  | _ => false

/-! ### ERET (R293) -/

/-- A PREEMPT that was held while the handler ran is delivered, with TRAPPC at ERET's target `t` (R277). -/
def State.deliverHeld (s : State) (t : DWord) : State :=
  match s.grp.preempt with
  | .due since =>
    if s.preemptable && decide (s.grp.status = .ready) then (s.onGrp (fun g => { g with pc := t })).deliverPreempt since else s
  | _ => s

/-- ERET (R293). -/
def execEret (f : SR) (s : State) : Out :=
  finish 1 (do
    s.need (f.allZero && s.grp.helper.isNone && s.grp.hnd) .illegal
    let t := s.grp.trappc
    if t ≠ s.grp.trappcRec then
      let _ ← s.chk (s.check t)
    let s1 := s.onGrp (fun g => { g.countRetired with trapc := g.trapc &&& 0x7FFFFFFF })
    return .at_ ((s1.resumeAt t).deliverHeld t))

/-! ### SIGS (R294) -/

/-- A PREEMPT has been delivered and not answered, or is held while HND is 1. -/
def Group.mayAnswer (g : Group) : Bool :=
  match g.preempt with
  | .delivered _ => true
  | .due _ => g.hnd
  | .none => false

/-- The group's state is captured with its resume entry, and its residency ends. -/
def State.saveGroup (s : State) (entry : DWord) : State :=
  s.leavesCore.onGrp (fun g =>
    { g.countRetired with
      pc := entry, trapc := g.trapc &&& 0x7FFFFFFF, preempt := .none, bankIds := [], remoteGot := [],
      status := .saved false false })

/-- SIGS (R294). -/
def execSigs (f : SR) (s : State) : Out :=
  finish 1 (do
    s.need (f.okSigs && s.grp.helper.isNone && !s.grp.inRegion && s.grp.mayAnswer) .illegal
    let e := if f.a = 0 then s.grp.trappc else s.grp.rp f.a
    if f.a ≠ 0 || e ≠ s.grp.trappcRec then
      let _ ← s.chk (s.check e)
    let t ← s.releaseRun 6
    if t.remoteOpen then return .wait .again t
    else return .at_ (t.finishStores.saveGroup e))

/-! ### PCNT and DTIME (R295) -/

/-- Counter `k` of the issuing group's tenant as PCNT reads it (R335), its events counted where they happen (log entry 81): 0 where
it is not enabled or its selector names no event. -/
def State.tenantCounter (s : State) (k : Nat) : DWord :=
  let sel := (s.regs.tcsel[k]?.getD 0).toNat
  if !s.regs.tcen.getLsbD s.grp.id.fn || sel = 0 || 13 ≤ sel then 0
  else (s.regs.tcount[s.grp.id.fn]?.getD (Vector.replicate 12 0))[k]?.getD 0

/-- The value of a counter (R295). -/
def State.counter (s : State) (n : Nat) : DWord :=
  match n with
  | 0 => BitVec.ofNat 64 s.grp.retired
  | 1 => BitVec.ofNat 64 s.grp.readyCc
  | 2 => BitVec.ofNat 64 s.grp.l1Misses
  | 3 => BitVec.ofNat 64 s.grp.movedBytes
  | _ => s.tenantCounter (n - 4)

/-- PCNT (R295). -/
def execPcnt (f : SR) (s : State) : Out :=
  finish 1 (do
    s.need (f.okPcnt && s.grp.pairOk f.d) .illegal
    s.need (!s.grp.liveInPair f.d) .rgnw
    return .done (s.onGrp (fun g => g.wp f.d (s.counter f.imm.toNat))))

/-- DTIME (R295). -/
def execDtime (f : SR) (s : State) : Out :=
  finish 1 (do
    s.need (f.okDtime && s.grp.pairOk f.d) .illegal
    s.need (!s.grp.liveInPair f.d) .rgnw
    return .done (s.onGrp (fun g => g.wp f.d (s.tenantTime g.id.fn))))

/-! ### An unassigned word (R51) -/

/-- UNASSIGNED_WORD (R51): a word with an unassigned MOP or FN, or a header inside a block, is ILLEGAL. -/
def execUnassignedWord (_w : DWord) (s : State) : Out := .next (s.takeTrap { cause := .illegal })

/-! ### Watchdog and issue (R283, R27, R97) -/

/-- The retired-instruction count has passed its limit (R283). -/
def Group.overLimit (g : Group) : Bool := decide (2 ^ (g.wdcfg.extractLsb' 8 8).toNat < g.progress)

/-- WDPROG is taken, and the kill that may follow (R281, R283). -/
def State.progressTrap (s : State) : State := (s.takeTrap { cause := .wdprog }).killIfDue .wdprog

/-- PROGRESS_WATCHDOG_EXPIRY (R283). -/
def execProgressWatchdogExpiry (s : State) : Out :=
  withGroup "PROGRESS_WATCHDOG_EXPIRY" s (fun t =>
    if t.grp.overLimit && decide (t.grp.status = .ready) then .next t.progressTrap
    else .refused (.notEnabled "PROGRESS_WATCHDOG_EXPIRY"))

/-- ISSUE_FAIRNESS_RAISE (R27). -/
def execIssueFairnessRaise (s : State) : Out :=
  withGroup "ISSUE_FAIRNESS_RAISE" s (fun t =>
    if decide (t.grp.status = .ready) && !t.grp.raised && decide (64 ≤ t.grp.unchosen) then
      .next (t.onGrp (fun g => { g with raised := true }))
    else .refused (.notEnabled "ISSUE_FAIRNESS_RAISE"))

/-! ### Machine checks (R289) -/

/-- A machine-check record (R289), 32 bytes. -/
def State.checkRecord (s : State) (unit sev : Nat) (die cluster core slice : Byte) (loc synd : DWord) : List Byte :=
  natBytes 2 4 ++ natBytes 1 unit ++ natBytes 1 sev ++ [die, cluster, core, slice] ++ natBytes 8 loc.toNat ++
  natBytes 8 synd.toNat ++ natBytes 8 s.time

/-- ECC is recorded for each group of a list; a post in flight ends first (R186). -/
def State.recordEcc (s : State) : List Nat → State
  | [] => s
  | u :: us => State.recordEcc (s.asGroup u (fun t => t.endPost.takeTrap { cause := .ecc })) us

/-- An uncorrectable error of a context: ECC for its groups, evicted and saved ones too, the record in its fault area and the
error log, and the kill of the context. -/
def State.eccContext (s : State) (ctx : Nat) (rec_ : List Byte) : State :=
  let who := (s.groups.filter (fun g => decide (g.id.ctx = ctx) && g.lives && !g.granted)).map (fun g => g.id.uid)
  let s1 := (s.recordEcc who).faultRecord ctx rec_
  (s1.send (.errorLog 1 rec_)).killContext ctx

/-- The part reports FATAL through management; a device reset follows (R289, R361). -/
def State.reportFatal (s : State) : State := { s.send .fatal with regs := { s.regs with fatalDue := true } }

/-- MACHINE_CHECK (R289). -/
def execMachineCheck (s : State) : Out :=
  match s.ev with
  | .check unit (some ctx) die cluster core slice loc synd =>
    .next (s.eccContext ctx (s.checkRecord unit 1 die cluster core slice loc synd))
  | .check unit none die cluster core slice loc synd =>
    .next (s.send (.errorLog 2 (s.checkRecord unit 2 die cluster core slice loc synd))).reportFatal
  | _ => .refused (.notEnabled "MACHINE_CHECK")

/-- The record of a bank's failed sweep: unit 0, the bank's number and its place; the syndrome is a free value. -/
def State.sweepRecord (s : State) (sev slice bank : Nat) : List Byte :=
  let cl := clusterOfCore (slice / 4)
  s.checkRecord 0 sev (BitVec.ofNat 8 (dieOfCluster cl)) (BitVec.ofNat 8 (cl % 24)) (BitVec.ofNat 8 (slice / 4 % 8))
    (BitVec.ofNat 8 (slice % 4)) (BitVec.ofNat 64 bank) ((Config.freeValue s.freeIx).setWidth 64)

/-- A corrected error is counted, and reported with severity 0 (R289). -/
def State.corrected (s : State) (rec_ : List Byte) : State :=
  { s.send (.errorLog 0 rec_) with regs := { s.regs with corrected := s.regs.corrected + 1 } }

/-- BANK_SWEEP (R97): banks that woke with their core are swept in its order. -/
def execBankSweep (s : State) : Out :=
  match s.ev with
  | .bank slice bank ok =>
    if s.unswept.contains (slice, bank) && s.sweepDue slice bank then
      let s1 : State := { s with
        unswept := s.unswept.filter (fun b => b ≠ (slice, bank)), waking := s.waking.filter (fun b => b ≠ (slice, bank)) }
      if ok then .next s1
      else
        let s2 : State := { s1 with freeIx := s1.freeIx + 1 }
        match s.bankOwner slice bank with
        | some g => .next (s2.eccContext g.id.ctx (s.sweepRecord 1 slice bank))
        | none => .next (s2.corrected (s.sweepRecord 0 slice bank))
    else .refused (.notEnabled "BANK_SWEEP")
  | _ => .refused (.notEnabled "BANK_SWEEP")

/-! ### Disposal of parked groups (R279) -/

/-- Every cause. -/
def allCauses : List Cause :=
  [.preempt, .swtrap, .brkpt, .illegal, .badtarget, .misalign, .transl, .prot, .obj, .fmtill, .mxlayout, .qfault, .board,
   .rgnw, .rgnovf, .chfault, .wdprog, .bartmo, .hflt, .ecc]

/-- The cause that TRAPC holds. -/
def Group.lastCause (g : Group) : Cause := (allCauses.find? (fun c => decide (c.code = g.trapc.toNat % 256))).getD .illegal

/-- A group that a debugger has halted while it was evicted or saved inside its region restarts the region as it goes on (R261,
log entry 56). -/
def State.restartHalted (s : State) : State :=
  match s.grp.region with
  | some r => if r.evicted then (s.toMarker r).onGrp (fun g => { g with status := s.grp.status }) else s
  | none => s

/-- A PREEMPT becomes due for a parked group that the host resumes after its context's deadline overrun and before its save, at that
moment (R286; the model's choice, log entry 102). -/
def State.duePreempt (s : State) : State :=
  match s.ctx? s.grp.id.ctx with
  | some c =>
    if decide (c.tier = 3) && decide (s.grp.preempt = .none) && s.grp.helper.isNone then s.onGrp (fun g => { g with preempt := .due s.time })
    else s
  | none => s

/-- Resume at the instruction: where the parked group stands while TRAPPC still names it, at a header or in its block, so that an
unchanged cause faults again; else at the header that TRAPPC names (R279). -/
def State.resumeInstruction (s : State) : State :=
  let s1 := s.restartHalted.duePreempt.onGrp (fun g => { g.progressed with status := .ready })
  let t := s1.grp.trappc
  if t = s1.grp.pc then s1
  else
    match s1.check t with
    | .ok _ => s1.resumeAt t
    | .error _ => (s1.onGrp (fun g => { g with pc := t, blockHdr := t })).takeTrap { cause := .badtarget, trapa := some t }

/-- The block that holds a TRAPPC that was changed while the group was parked: the one whose header it names (R276). -/
def State.renewDelivery (s : State) : State :=
  if s.grp.trappc = s.grp.pc then s
  else
    let t := s.grp.trappc
    s.onGrp (fun g => { g with
      trappcRec := t, trapHdr := t, trapBlockEnd := match s.check t with
        | .ok h => blockEndOf t h
        | .error _ => t })

/-- Resume at the handler: the recorded trap is delivered as a user trap (R276, R279). -/
def State.resumeHandler (s : State) : State :=
  let s1 := s.restartHalted.duePreempt.onGrp Group.progressed
  let arg := (s1.grp.trapc.extractLsb' 16 8).toNat
  if s1.handlerOk then s1.renewDelivery.enterHandler s1.grp.lastCause arg else s1.park s1.grp.lastCause arg true

end Sys2Proof.Machine
end

