-- ==== Sys2Proof/Machine/Frontend.lean ====
section
/-! DEFINITION. The front end: the queue table, queue control blocks, contexts, doorbells and the reading of bundles
(16_launch_and_scheduling.md R296 to R303, R315, R317). -/

namespace Sys2Proof.Machine

open Sys2Proof

/-! ### Device physical memory, as the front end reaches it -/

/-- `n` bytes of device physical memory in the SPREAD form (log entry 19). -/
def State.physBytes (s : State) (pa : Nat) : Nat → Option (List Byte)
  | 0 => some []
  | n + 1 =>
    match s.built.homeKey .spread pa, State.physBytes s (pa + 1) n with
    | some k, some bs => some (s.backing k :: bs)
    | _, _ => none

/-- Bytes of device physical memory are written, and performed at system scope. -/
def State.writePhys (s : State) (pa : Nat) : List Byte → State
  | [] => s
  | x :: xs =>
    State.writePhys (match s.built.homeKey .spread pa with
      | some k => s.writeCoherent k [x]
      | none => s) (pa + 1) xs

/-! ### The queue table (R298) -/

/-- STAGE of BOOTST. -/
def State.stage (s : State) : Nat := (s.regs.bootst.extractLsb' 28 4).toNat

/-- The part is up: queues, contexts and apertures are served (R362, R363). -/
def State.isUp (s : State) : Bool := decide (s.regs.bootst.extractLsb' 28 4 = 4)

/-- The part is enumerated on the host link (R363): up, or in recovery. -/
def State.enumerated (s : State) : Bool := decide (4 ≤ s.stage)

/-- An entry of a queue table: its address and its P bit; none for V = 0 or a reserved bit. -/
def queueEntry (e : DWord) : Option (Nat × Bool) :=
  if !e.getLsbD 0 || fld e 3 3 ≠ 0 || fld e 46 18 ≠ 0 then none else some (fld e 6 40 * 64, e.getLsbD 1)

/-- An entry as the walk reads it, its A bit set. -/
def State.readEntry (s : State) (pa : Nat) : Option (Nat × Bool) × State :=
  match s.physDWord 0 .spread pa with
  | none => (none, s)
  | some e =>
    match queueEntry e with
    | none => (none, s)
    | some r => (some r, s.writePhys pa (natBytes 8 (e ||| 4).toNat))

/-- The addresses of a queue's entries and of its QCB, and whether it may be dispatched. -/
structure QueueWalk where
  entry2 : Nat
  qcb : Nat
  present : Bool
  deriving DecidableEq, Repr

/-- A walk of the queue table, or none where it ends with no queue. -/
def State.walkQueue (s : State) (pasid num : Nat) : Option QueueWalk × State :=
  match rootBase s.regs.qtroot with
  | none => (none, s)
  | some base =>
    match s.readEntry (base + 8 * pasid) with
    | (none, s1) => (none, s1)
    | (some (t, p1), s1) =>
      match s1.readEntry (t + 8 * num) with
      | (none, s2) => (none, s2)
      | (some (q, p2), s2) => (some ⟨t + 8 * num, q, p1 && p2⟩, s2)

/-! ### Contexts (R315) -/

/-- A context descriptor, where every field is in range. -/
def contextOf (num : Nat) (b : List Byte) : Option Context :=
  if natAt b 0 4 < 2 ^ 20 && natAt b 4 1 < 64 && natAt b 5 1 < 2 && natAt b 8 4 < 2 ^ 17 && natAt b 52 4 ≤ 65536 &&
      natAt b 72 1 ≤ 2 && natAt b 73 1 = 0 && natAt b 74 2 < 4096 && zeroAt b 76 4 && zeroAt b 88 40 then
    some
      { num := num, pasid := natAt b 0 4, tenant := natAt b 4 1, debug := decide (natAt b 5 1 = 1), fvec := natAt b 6 2,
        route := BitVec.ofNat 32 (natAt b 8 4), fsize := natAt b 12 4, fault := BitVec.ofNat 64 (natAt b 16 8), faultNext := 64,
        save := BitVec.ofNat 64 (natAt b 24 8), ssize := BitVec.ofNat 64 (natAt b 32 8),
        bittern := BitVec.ofNat 64 (natAt b 40 8), bslots := natAt b 48 4, objn := natAt b 52 4,
        objtab := BitVec.ofNat 64 (natAt b 56 8), slice := natAt b 64 8, ckmode := natAt b 72 1, ckq := natAt b 74 2,
        ckval := natAt b 80 8, objs := [], carve := 262144 * (Config.carveUnits num % 8193), sliceStart := 0, tier := 0,
        deadline := 0, isSaved := false, wrote := false, savedCps := [], savedMxs := [], killed := false, killDue := false, ckLast := 0, ckCount := 0, ckPaused := false, ckBundle := none,
        ckSince := 0 }
  else none

/-- A context that runs nothing: no band, field or copy, and no started bundle that is still to retire. -/
def State.ctxIdle (s : State) (num : Nat) : Bool :=
  !s.bands.any (fun b => b.ctx = num) && !s.fields.any (fun f => f.ctx = num) && !s.copies.any (fun c => c.ctx = num) &&
  !s.bundles.any (fun b => b.started && ((s.queues[b.queue]?).map (fun q => decide (q.ctx = num))).getD false)

/-- A context's descriptor is read: a new one's allocation is cut to what is left of the part's 2 GiB (R16, R131); its run so far, its objects and its place in the fault area are kept, and where it runs
nothing a kill is over. -/
def Context.renew (s : State) (old : Option Context) (c : Context) : Context :=
  match old with
  | none =>
    let left := 2 ^ 31 - (s.ctxs.map (·.carve)).sum
    { c with carve := min c.carve left, sliceStart := s.time, ckLast := s.time }
  | some o =>
    { c with
      faultNext := if o.fault = c.fault then o.faultNext else 64, objs := o.objs, carve := o.carve, sliceStart := o.sliceStart, tier := o.tier,
      deadline := o.deadline, isSaved := o.isSaved, wrote := o.wrote, savedCps := o.savedCps, savedMxs := o.savedMxs, killed := o.killed && !s.ctxIdle c.num, killDue := o.killDue, ckLast := o.ckLast,
      ckCount := o.ckCount, ckPaused := o.ckPaused, ckBundle := o.ckBundle, ckSince := o.ckSince }

/-- Context `num`'s descriptor is read from the context table. -/
def State.loadCtx (s : State) (num : Nat) : State :=
  match (rootBase s.regs.ctxroot).bind (fun base => s.physBytes (base + 128 * num) 128) with
  | none => { s with ctxs := s.ctxs.filter (fun c => c.num ≠ num) }
  | some b =>
    match contextOf num b with
    | none => { s with ctxs := s.ctxs.filter (fun c => c.num ≠ num) }
    | some c => { s with ctxs := c.renew s (s.ctx? num) :: s.ctxs.filter (fun c => c.num ≠ num) }

/-! ### Queue control blocks (R299, R300) -/

/-- The code of a queue's STATE. -/
def QState.code : QState → Nat
  | .idle => 0
  | .active => 1
  | .waiting => 2
  | .paused => 3
  | .error => 4
  | .destroying => 5
  | .destroyed => 6

/-- A queue of a QCB's bytes, whether or not they are in range. -/
def queueOf (pasid num : Nat) (w : QueueWalk) (b : List Byte) : Queue where
  pasid := pasid
  num := num
  qcb := w.qcb
  ring := BitVec.ofNat 64 (natAt b 0 8)
  log2sz := natAt b 8 1
  cls := natAt b 9 1
  prio := natAt b 10 1
  tenant := natAt b 11 1
  ctx := natAt b 16 1
  cmode := natAt b 17 1
  ckq := decide (natAt b 19 1 % 2 = 1)
  drain := natAt b 28 4
  cvec := natAt b 32 2
  state := .idle
  rdidx := natAt b 20 4
  wridx := natAt b 24 4
  nextRead := natAt b 20 4
  doneAhead := []
  present := w.present
  cached := true
  entry2 := w.entry2
  force := false
  byFn := 0

/-- A difference of indices modulo 2^32. -/
def idxSub (a b : Nat) : Nat := (a + 2 ^ 32 - b % 2 ^ 32) % 2 ^ 32

/-- The QCB passes its checks (R299, R320): its fields, its tenant, which is the FUNC of its PASID and of its context's, and the
room of its ring. -/
def State.qcbOk (s : State) (q : Queue) (b : List Byte) : Bool :=
  decide (q.ring.toNat % 64 = 0) && decide (4 ≤ q.log2sz) && decide (q.log2sz ≤ 16) && decide (q.cls ≤ 1) &&
  decide (q.prio ≤ 7) && decide (q.tenant < 64) && decide (natAt b 12 4 = q.pasid) && decide (1 ≤ q.cmode) &&
  decide (q.cmode ≤ 2) && decide (natAt b 18 1 ≤ 6) && decide (natAt b 19 1 ≤ 1) && zeroAt b 34 30 &&
  decide (idxSub q.wridx q.rdidx ≤ 2 ^ q.log2sz) &&
  match s.ctx? q.ctx, s.pasidEntry q.pasid with
  | some c, some (fn, _) =>
    decide (c.tenant = q.tenant) && decide (fn = q.tenant) && decide ((s.pasidEntry c.pasid).map (·.1) = some c.tenant)
  | _, _ => false

/-- The index of a cached queue in the front end's list. -/
def State.queueIdx (s : State) (pasid num : Nat) : Option Nat :=
  s.queues.findIdx? (fun q => decide (q.pasid = pasid) && decide (q.num = num) && decide (q.state ≠ .destroyed))

/-- Change a queue. -/
def State.onQcb (s : State) (i : Nat) (h : Queue → Queue) : State :=
  match s.queues[i]? with
  | some q => { s with queues := s.queues.set i (h q) }
  | none => s

/-- RDIDX, WRIDX and STATE are written back (R299). -/
def State.writeBack (s : State) (i : Nat) : State :=
  match s.queues[i]? with
  | none => s
  | some q =>
    ((s.writePhys (q.qcb + 18) [BitVec.ofNat 8 q.state.code]).writePhys (q.qcb + 20) (natBytes 4 q.rdidx)).writePhys
      (q.qcb + 24) (natBytes 4 q.wridx)

/-- A bundle of queue `i` that has been read and has not started. -/
def State.heldBundle (s : State) (i : Nat) : Option Bundle :=
  s.bundles.find? (fun b => decide (b.queue = i) && !b.started && b.early.isNone)

/-- Dispatch from a context's queues is paused: for a checkpoint, by pre-emption, or while it is saved (R284, R316). -/
def Context.paused (c : Context) : Bool := c.ckPaused || decide (2 ≤ c.tier) || c.isSaved

/-- The STATE that a queue's bundles call for (R300): WAITING lasts until the bundle starts, and a queue that an INVAL has made IDLE
stays so while no rung bundle is still to start. -/
def State.stateOf (s : State) (i : Nat) (q : Queue) : QState :=
  match q.state with
  | .error => .error
  | .destroying => .destroying
  | .destroyed => .destroyed
  | _ =>
    if ((s.ctx? q.ctx).map Context.paused).getD false then .paused
    else if q.rdidx = q.wridx then .idle
    else
      match s.heldBundle i with
      | some b =>
        if b.waits.any (fun w => !w.held) || (decide (q.state = .waiting) && !b.waits.isEmpty) then .waiting else .active
      | none => if q.state = .idle && q.nextRead = q.wridx then .idle else .active

/-- STATE follows, and is written at each move. -/
def State.moveQueue (s : State) (i : Nat) : State :=
  match s.queues[i]? with
  | none => s
  | some q => if s.stateOf i q = q.state then s else (s.onQcb i (fun q => { q with state := s.stateOf i q })).writeBack i

/-- Every queue's STATE follows. -/
def State.moveQueues (s : State) : State := (List.range s.queues.length).foldl State.moveQueue s

/-- The queue enters ERROR, and the fault interrupt of its context is raised (R300). -/
def State.queueError (s : State) (i : Nat) : State :=
  match s.queues[i]? with
  | none => s
  | some q =>
    if q.state = .error then s
    else
      let s1 := (s.onQcb i (fun q => { q with state := .error })).writeBack i
      match s1.ctx? q.ctx with
      | some c => s1.send (.msix c.tenant c.fvec)
      | none => s1

/-- The first index from `i` on, among `n`, whose bundle has neither started nor retired. -/
def firstOpen (busy : List Nat) : Nat → Nat → Nat
  | 0, i => i
  | n + 1, i => if busy.contains i then firstOpen busy n ((i + 1) % 2 ^ 32) else i

/-- A queue whose QCB the cache may replace: it is not stopped, and an idle one goes first. -/
def Queue.replaceable (q : Queue) (idle : Bool) : Bool :=
  q.cached && (decide (q.state = .idle) || (!idle && (decide (q.state = .active) || decide (q.state = .waiting) || decide (q.state = .paused))))

/-- The cache on HD holds 1,024 QCBs (R298), those of destroyed queues apart: queue `i`'s takes the place of another where it is full,
which is read again at its next use (log entry 69). -/
def State.replaceQcb (s : State) (i : Nat) : State :=
  let s1 := s.onQcb i (fun q => { q with cached := true })
  if (s1.queues.filter (fun q => q.cached && decide (q.state ≠ .destroyed))).length ≤ 1024 then s1
  else
    let js := (List.range s1.queues.length).filter (fun j => decide (j ≠ i))
    let pick (idle : Bool) : Option Nat := js.find? (fun j => ((s1.queues[j]?).map (fun q => q.replaceable idle)).getD false)
    match (pick true).or (pick false) with
    | some j => s1.onQcb j (fun q => { q with cached := false })
    | none => s1

/-- Where a bundle of a queue that was to end a checkpoint has not started, it is read again, and the checkpoint runs the bundle that
is read then (R300, R316). -/
def State.forgetCheckpoint (s : State) (pasid num : Nat) : State :=
  let us := (s.bundles.filter (fun b => !b.started && ((s.queues[b.queue]?).map (fun q =>
    decide (q.pasid = pasid) && decide (q.num = num) && decide (q.state ≠ .destroyed))).getD false)).map (·.uid)
  { s with ctxs := s.ctxs.map (fun c => if (c.ckBundle.map us.contains).getD false then { c with ckBundle := none } else c) }

/-- A QCB is read into the front end's list, or read again: a queue that fails its checks is in ERROR; bundles read and not
started are read again (R299, R300). -/
def State.readQcb (s : State) (pasid num : Nat) (w : QueueWalk) : State :=
  match s.physBytes w.qcb 64 with
  | none => s
  | some b =>
    let q := queueOf pasid num w b
    let s1 := (s.forgetCheckpoint pasid num).loadCtx q.ctx
    let s2 : State := match s1.queueIdx pasid num with
      | some i =>
        let busy := ((s1.bundles.filter (fun x => decide (x.queue = i) && x.started)).map (·.ridx)) ++
          ((s1.queues[i]?).map (·.doneAhead)).getD []
        ({ s1 with bundles := s1.bundles.filter (fun x => decide (x.queue ≠ i) || x.started) } : State).onQcb i (fun o =>
          { q with nextRead := firstOpen busy 65536 q.rdidx, doneAhead := o.doneAhead, state := o.state })
      | none => { s1 with queues := s1.queues ++ [q] }
    match s2.queueIdx pasid num with
    | some i =>
      let s3 := s2.replaceQcb i
      if s3.qcbOk q b then
        ((s3.onQcb i (fun q => { q with state := if q.state = .error then .idle else q.state })).moveQueue i).writeBack i
      else s3.queueError i
    | none => s2

/-- A queue's QCB is read by a walk of its entries, where the walk finds it. -/
def State.walkAndRead (s : State) (pasid num : Nat) : Option Nat × State :=
  match s.walkQueue pasid num with
  | (none, s1) => (none, s1)
  | (some w, s1) =>
    let s2 := s1.readQcb pasid num w
    (s2.queueIdx pasid num, s2)

/-- A queue by name: the cached one, or the one that a walk finds and reads; none where the walk ends with no queue. -/
def State.useQueue (s : State) (pasid num : Nat) : Option Nat × State :=
  match s.queueIdx pasid num with
  | some i => if ((s.queues[i]?).map (·.cached)).getD false then (some i, s) else s.walkAndRead pasid num
  | none => s.walkAndRead pasid num

/-! ### QCTL (R297, R317) -/

/-- The registers of a function. -/
def State.fnRegs (s : State) (fn : Nat) : FnRegs := s.fns[fn]?.getD FnRegs.reset

/-- Change the registers of a function. -/
def State.onFn (s : State) (fn : Nat) (h : FnRegs → FnRegs) : State :=
  { s with fns := s.fns.setIfInBounds fn (h (s.fnRegs fn)) }

/-- QCTL as an operation leaves it: its fields as written, GO and ST. -/
def qctlAfter (v : DWord) (go : Bool) (st : Nat) : DWord :=
  (v &&& 0x780FFFFF0FFFFFFF) ||| BitVec.ofNat 64 ((if go then 2 ^ 63 else 0) + st * 2 ^ 52)

/-- The operation of QCTL ends with a status. -/
def State.endQctl (s : State) (fn : Nat) (v : DWord) (st : Nat) : State :=
  s.onFn fn (fun r => { r with qctl := qctlAfter v false st })

/-- PASID of a QCTL value. -/
def qctlPasid (v : DWord) : Nat := fld v 32 20
/-- QUEUE of a QCTL value. -/
def qctlQueue (v : DWord) : Nat := fld v 0 12
/-- DBSLOT of a QCTL value. -/
def qctlSlot (v : DWord) : Nat := fld v 12 16

/-- A function may name the PASID: its own, or any for the PF. -/
def State.ownsPasid (s : State) (fn pasid : Nat) : Bool :=
  decide (fn = 0) || ((s.pasidEntry pasid).map (fun e => decide (e.1 = fn))).getD false

/-- The named queue's previous DESTROY has not completed. -/
def State.queueBusy (s : State) (pasid num : Nat) : Bool :=
  s.queues.any (fun q => decide (q.pasid = pasid) && decide (q.num = num) && decide (q.state = .destroying))

/-- A write to QCTL that starts operation `op`: ignored while GO reads 1, and ended at once where it may not go on. -/
def qctlWrite (row : String) (op : Nat) (s : State) (k : Nat → DWord → State → State) : Out :=
  match s.ev with
  | .fnReg fn v =>
    if s.isUp && v.getLsbD 63 && decide (fld v 60 3 = op) && decide (fn < 64) then
      if (s.fnRegs fn).qctl.getLsbD 63 then .next s
      else if !s.ownsPasid fn (qctlPasid v) then .next (s.endQctl fn v 2)
      else if s.queueBusy (qctlPasid v) (qctlQueue v) then .next (s.endQctl fn v 4)
      else .next (k fn v s)
    else .refused (.notEnabled row)
  | _ => .refused (.notEnabled row)

/-- QCTL_INVAL (R297, R300): the entries and the QCB are read again; ST is 0 whether or not they pass. -/
def execQctlInval (s : State) : Out :=
  qctlWrite "QCTL_INVAL" 0 s (fun fn v t =>
    let known := t.queueIdx (qctlPasid v) (qctlQueue v)
    match t.walkQueue (qctlPasid v) (qctlQueue v), known with
    | (some w, t1), _ => (t1.readQcb (qctlPasid v) (qctlQueue v) w).endQctl fn v 0
    | (none, t1), some i => (t1.queueError i).endQctl fn v 0
    | (none, t1), none => t1.endQctl fn v 3)

/-- QCTL_DBMAP (R297): the slot of the writing function is bound to the queue. -/
def execQctlDbmap (s : State) : Out :=
  qctlWrite "QCTL_DBMAP" 2 s (fun fn v t =>
    match t.useQueue (qctlPasid v) (qctlQueue v) with
    | (some _, t1) =>
      (t1.onFn fn (fun r => { r with
        bells := ⟨qctlSlot v, qctlPasid v, qctlQueue v⟩ :: r.bells.filter (fun b => b.slot ≠ qctlSlot v) })).endQctl fn v 0
    | (none, t1) => t1.endQctl fn v 3)

/-- QCTL_DBUNMAP (R297). -/
def execQctlDbunmap (s : State) : Out :=
  qctlWrite "QCTL_DBUNMAP" 3 s (fun fn v t =>
    (t.onFn fn (fun r => { r with bells := r.bells.filter (fun b => b.slot ≠ qctlSlot v) })).endQctl fn v 0)

/-- The fields of a queue's started bundles. -/
def State.fieldsOf (s : State) (i : Nat) : List Field :=
  s.fields.filter (fun f => s.bundles.any (fun b => decide (b.uid = f.bundle) && decide (b.queue = i)))

/-! ### Doorbells (R302) -/

/-- A write index rung on queue `i`. -/
def State.ring (s : State) (i w : Nat) : State :=
  match s.queues[i]? with
  | none => s
  | some q =>
    let d := idxSub w q.wridx
    if q.state = .destroying || q.state = .destroyed || d = 0 || 2 ^ 31 ≤ d then s
    else if 2 ^ q.log2sz < idxSub w q.rdidx then s.queueError i
    else ((s.onQcb i (fun q => { q with wridx := w % 2 ^ 32 })).writeBack i).moveQueue i

/-- DOORBELL_WRITE (R302): an unbound slot's write is dropped and counted, the count saturating (R347); in recovery none is accepted
(R363). -/
def State.doorbell (s : State) (fn slot : Nat) (value : DWord) : State :=
  if !s.isUp then s
  else match (s.fnRegs fn).bells.find? (fun b => b.slot = slot) with
  | none => s.onFn fn (fun r => { r with dberr := if r.dberr = 0xFFFFFFFF then r.dberr else r.dberr + 1 })
  | some b =>
    if s.queueBusy b.pasid b.queue then s
    else
      match s.useQueue b.pasid b.queue with
      | (some i, s1) => s1.ring i (fld value 0 32)
      | (none, s1) => s1

/-- DOORBELL_WRITE (R302). -/
def execDoorbellWrite (s : State) : Out :=
  match s.ev with
  | .doorbell fn slot value => .next (s.doorbell fn slot value)
  | _ => .refused (.notEnabled "DOORBELL_WRITE")

/-! ### Reading a bundle (R301, R303) -/

/-- A header's fields are well-formed (R303, first row). -/
def headerOk (b : List Byte) : Bool :=
  let opc := natAt b 0 1
  let nsub := natAt b 2 1
  let nwait := natAt b 3 1
  let waitOk (k : Nat) : Bool := decide (nwait ≤ k) ||
    (decide (natAt b (8 + 16 * k) 8 % 4 = 0) && decide (natAt b (20 + 16 * k) 1 ≤ 7) && zeroAt b (21 + 16 * k) 3)
  decide (opc ≤ 1) && decide (natAt b 1 1 ≤ 3) && (if opc = 1 then decide (1 ≤ nsub) && decide (nsub ≤ 4) else decide (nsub = 0)) &&
  decide (nwait ≤ 2) && decide (natAt b 4 1 ≤ 2) && zeroAt b 5 3 && decide (natAt b 40 8 % 32 = 0) && zeroAt b 56 8 &&
  waitOk 0 && waitOk 1

/-- A FIELD record is well-formed (R304); DIEMASK 0 is refused later. -/
def fieldRecordOk (b : List Byte) : Bool :=
  let flags := natAt b 1 1
  let cfg := natAt b 32 4
  decide (flags ≤ 3) && decide (natAt b 2 1 ≤ 3) && decide (1 ≤ natAt b 3 1) && decide (natAt b 3 1 ≤ 16) &&
  decide (1 ≤ natAt b 4 4) && decide (natAt b 4 4 ≤ 2 ^ 24) && decide (natAt b 8 8 % 64 = 0) && zeroAt b 36 28 &&
  (if 2 ≤ flags then decide (natAt b 24 8 % 8 = 0) && decide (cfg / 64 % 1024 = 0)
   else decide (natAt b 24 8 % 4 = 0) && decide (cfg = 0))

/-- A COPY record is well-formed (R305). -/
def copyRecordOk (b : List Byte) : Bool :=
  decide (natAt b 1 1 ≤ 1) && zeroAt b 2 2 && decide (1 ≤ natAt b 4 4) && decide (natAt b 4 4 ≤ 65536) && zeroAt b 16 48

/-- A SIGNAL record is well-formed (R306). -/
def signalRecordOk (b : List Byte) : Bool :=
  let op := natAt b 2 1
  let addr := natAt b 8 8
  decide (natAt b 1 1 ≤ 1) && decide (op ≤ 4) && zeroAt b 3 1 && zeroAt b 6 2 && zeroAt b 24 40 &&
  (decide (op = 4) || zeroAt b 4 2) &&
  (if op ≤ 2 then decide (addr % (if op = 1 then 8 else 4) = 0) else decide (addr = 0)) &&
  (if op = 3 then decide (natAt b 16 8 < 4096) else true)

/-- A sub-launch record is well-formed (R303, second row). -/
def recordOk (b : List Byte) : Bool :=
  match natAt b 0 1 with
  | 1 => fieldRecordOk b
  | 2 => copyRecordOk b
  | 3 => signalRecordOk b
  | _ => false

/-- The index of the first record that fails its checks. -/
def badRecord (rs : List (List Byte)) : Option Nat := rs.findIdx? (fun r => !recordOk r)

/-- A bundle of its bytes: MALFORMED where a check fails (R303). -/
def bundleOf (uid i ridx : Nat) (h : List Byte) (recs : List (List Byte)) : Bundle where
  uid := uid
  queue := i
  ridx := ridx
  step := decide (natAt h 1 1 % 2 = 1)
  serial := decide (natAt h 1 1 / 2 % 2 = 1)
  cmode := natAt h 4 1
  crec := BitVec.ofNat 64 (natAt h 40 8)
  tag := BitVec.ofNat 64 (natAt h 48 8)
  waits := (List.range (min 2 (natAt h 3 1))).map (fun k =>
    ⟨BitVec.ofNat 64 (natAt h (8 + 16 * k) 8), BitVec.ofNat 32 (natAt h (16 + 16 * k) 4), natAt h (20 + 16 * k) 1, false⟩)
  subs := recs.map (fun r => ⟨r, false, false, none, false⟩)
  started := false
  startTime := 0
  early :=
    if !headerOk h then some (3, 0, 0xFF)
    else (badRecord recs).map (fun k => (3, 0, k))
  abandoned := false

/-- Where slot `i` of a queue's ring stands. -/
def Queue.slotAddr (q : Queue) (i : Nat) : DWord := q.ring + BitVec.ofNat 64 (320 * (i % 2 ^ q.log2sz))

/-- The context's started bundles have retired, or its bands are saved (R316). -/
def State.drained (s : State) (c : Context) : Bool :=
  c.isSaved || !s.bundles.any (fun b => b.started && ((s.queues[b.queue]?).map (fun q => decide (q.ctx = c.num))).getD false)

/-- The queue may give work to the part now: the part up (R363), the queue present, not stopped, and its context neither killed nor
paused; a checkpoint queue only once its context, paused for a checkpoint, is drained, for one bundle (R298, R300, R316). -/
def State.mayDispatch (s : State) (q : Queue) : Bool :=
  s.isUp && q.present && decide (q.state ≠ .error) && decide (q.state ≠ .destroying) && decide (q.state ≠ .destroyed) &&
  match s.ctx? q.ctx with
  | some c => !c.killed && (if q.ckq then c.ckPaused && c.ckBundle.isNone && decide (q.num = c.ckq) && s.drained c
      else !c.paused && !(decide (c.ckmode = 2) && decide (0 < c.ckval) && decide (c.ckval ≤ c.ckCount)))
  | none => false

/-- The bundle is the one that a checkpoint of its context runs, where its queue is a checkpoint queue: dispatch resumes once it
retires, be it refused or at fault (R316). -/
def State.inCheckpoint (s : State) (q : Queue) (u : Nat) : State :=
  match s.ctx? q.ctx with
  | some c => if q.ckq then s.setCtx { c with ckBundle := some u } else s
  | none => s

/-- The next bundle of queue `i` may be read (R302, R303). -/
def State.mayRead (s : State) (i : Nat) (q : Queue) : Bool :=
  s.mayDispatch q && decide (q.nextRead ≠ q.wridx) && (s.heldBundle i).isNone

/-- The context of a queue, as an agent. -/
def State.queueWho (s : State) (q : Queue) : Who := ((s.ctx? q.ctx).map Context.who).getD ⟨q.tenant, q.pasid, q.ctx⟩

/-- The agent that reads a ring: the queue's PASID (R299). -/
def Queue.ringWho (q : Queue) : Who := ⟨q.tenant, q.pasid, q.ctx⟩

/-- Some of `n` bytes lie in a remote window, which holds no ring (R299). -/
def State.inRemote (s : State) (w : Who) (va : DWord) (n : Nat) : Bool :=
  (List.range n).any (fun i => match s.translate w (va + BitVec.ofNat 64 i) .read with
    | .at_ k => decide (keyKind k = 5)
    | _ => false)

/-- `n` bytes of a queue's ring, where they can be read. -/
def State.ringBytes (s : State) (q : Queue) (va : DWord) (n : Nat) : Option (List Byte) :=
  if s.inRemote q.ringWho va n then none
  else
    match s.readVirt q.ringWho va n with
    | .ok b => some b
    | .error _ => none

/-- The page that the read of a bundle waits for. -/
def State.bundleGap (s : State) (q : Queue) : Option Nat :=
  let w := q.ringWho
  match s.hostGap w .read (q.slotAddr q.nextRead) 64 with
  | some v => some v
  | none =>
    match s.readVirt w (q.slotAddr q.nextRead) 4 with
    | .ok h => s.hostGap w .read (q.slotAddr q.nextRead) (64 + 64 * min 4 (natAt h 2 1))
    | .error _ => none

/-- A front-end access that waits for pages of the host first: a request goes out, or the event is not enabled while one is
under way. -/
def frontAccess (row : String) (s : State) (w : Who) (gap : Option Nat) (k : Out) : Out :=
  match gap with
  | none =>
    match k with
    | .next t => .next (t.dropFailed w)
    | other => other
  | some v => if (s.atsFor w.fn w.pasid v).isSome then .refused (.notEnabled row) else .next (s.askFront w.fn w.pasid v)

/-- A front-end access that reads runs of bytes: those in HOST pages go out as reads of the host (R349). -/
def frontReads (row : String) (s : State) (w : Who) (gap : Option Nat) (runs : List (DWord × Nat)) (k : State → Out) : Out :=
  frontAccess row s w gap (k (s.asksFront w runs))

/-- What the read of a bundle reads: its header and records. -/
def State.bundleRuns (s : State) (q : Queue) : List (DWord × Nat) :=
  match s.ringBytes q (q.slotAddr q.nextRead) 64 with
  | none => []
  | some h => [(q.slotAddr q.nextRead, 64 + 64 * (if natAt h 0 1 = 1 then min 4 (natAt h 2 1) else 0))]

/-- BUNDLE_READ (R303); where the queue's QCB has been replaced, it is read again first (R298). A ring that cannot be read puts its
queue into ERROR (log entry 25). -/
def execBundleRead (s : State) : Out :=
  match s.ev with
  | .queue i =>
    match s.queues[i]? with
    | some q =>
      if !q.cached && s.mayRead i q then
        match s.walkAndRead q.pasid q.num with
        | (some _, t) => .next t
        | (none, t) => .next (t.queueError i)
      else if s.mayRead i q then
        frontReads "BUNDLE_READ" s q.ringWho (s.bundleGap q) (s.bundleRuns q) (fun s =>
          match s.ringBytes q (q.slotAddr q.nextRead) 64 with
           | none => .next (s.queueError i)
           | some h =>
             let n := if natAt h 0 1 = 1 then min 4 (natAt h 2 1) else 0
             match s.ringBytes q (q.slotAddr q.nextRead + 64) (64 * n) with
             | none => .next (s.queueError i)
             | some rs =>
               let recs := (List.range n).map (fun k => (rs.drop (64 * k)).take 64)
               let s1 : State := { s with bundles := s.bundles ++ [bundleOf s.nextId i q.nextRead h recs], nextId := s.nextId + 1 }
               let s2 := if (bundleOf s.nextId i q.nextRead h recs).early.isSome then s1.inCheckpoint q s.nextId else s1
               .next ((s2.onQcb i (fun q => { q with nextRead := (q.nextRead + 1) % 2 ^ 32 })).moveQueue i))
      else .refused (.notEnabled "BUNDLE_READ")
    | none => .refused (.notEnabled "BUNDLE_READ")
  | _ => .refused (.notEnabled "BUNDLE_READ")

/-! ### Wait conditions (R303) -/

/-- A bundle by uid. -/
def State.bundle? (s : State) (uid : Nat) : Option Bundle := s.bundles.find? (fun b => b.uid = uid)

/-- Change a bundle. -/
def State.onBundle (s : State) (uid : Nat) (h : Bundle → Bundle) : State :=
  { s with bundles := s.bundles.map (fun b => if b.uid = uid then h b else b) }

/-- The queue that a bundle came from. -/
def State.queueOfBundle (s : State) (b : Bundle) : Option Queue := s.queues[b.queue]?

/-- WAIT_CONDITION_POLL (R303): an acquire at system scope; an address that cannot be read ends the bundle. -/
def execWaitConditionPoll (s : State) : Out :=
  match s.ev with
  | .bundle u k =>
    match s.bundle? u with
    | some b =>
      match b.waits[k]?, s.queueOfBundle b with
      | some w, some q =>
        if !b.started && b.early.isNone && !w.held && s.mayDispatch q then
          let who := s.queueWho q
          frontReads "WAIT_CONDITION_POLL" s who (s.hostGap who .read w.addr 4) [(w.addr, 4)] (fun s =>
            match s.readVirt who w.addr 4 with
             | .error c => .next (((s.onBundle u (fun b => { b with early := some (1, c, 0xFF) })).inCheckpoint q u).moveQueues)
             | .ok bs =>
               if waitCond (BitVec.ofNat 3 w.cond) (BitVec.ofNat 32 (bytesNat bs)) w.value then
                 .next ((s.onBundle u (fun b => { b with waits := b.waits.set k { w with held := true } })).moveQueues)
               else .next s)
        else .refused (.notEnabled "WAIT_CONDITION_POLL")
      | _, _ => .refused (.notEnabled "WAIT_CONDITION_POLL")
    | none => .refused (.notEnabled "WAIT_CONDITION_POLL")
  | _ => .refused (.notEnabled "WAIT_CONDITION_POLL")

end Sys2Proof.Machine
end

