-- ==== Sys2Proof/Machine/Launch.lean ====
section
/-! DEFINITION. The start of a bundle: kernel descriptors, the checks of a field, what an empty part could hold, and the
sub-launches FIELD, COPY and SIGNAL (16_launch_and_scheduling.md R303 to R310, R403). -/

namespace Sys2Proof.Machine

open Sys2Proof

/-! ### The kernel descriptor (R308) -/

/-- Stage record `k` of a descriptor's bytes. -/
def stageOf (b : List Byte) (k : Nat) : StageDesc :=
  let o := 64 + 64 * k
  { entry := BitVec.ofNat 64 (natAt b o 8), ngrp := natAt b (o + 8) 1, banks := natAt b (o + 9) 1, tiles := natAt b (o + 10) 1,
    bandBar := decide (natAt b (o + 11) 1 % 2 = 1), scr := natAt b (o + 12) 4,
    qinit := (List.range 16).map (fun q => (natAt b (o + 16 + 2 * q) 1, natAt b (o + 17 + 2 * q) 1)) }

/-- The kind of a binding, as QBIND reads SUB and IMM16. -/
def bindKind (kind imm : Nat) : QKind :=
  match kind with
  | 1 => .copy (imm / 16 % 16) (imm % 4)
  | 2 => .done
  | 3 => .recv (imm % 16)
  | 4 => .send (imm % 16)
  | _ => .unbound

/-- Initial bindings that QBIND accepts in ascending register order (R197, R203): a copy register names a completion register
that is bound before it, and a mailbox has one receiver in the team. -/
def bindsOk (ngrp : Nat) : List QKind → List (Nat × Nat) → Bool
  | _, [] => true
  | done, (k, imm) :: rest =>
    let b := bindKind k imm
    let ok := match b with
      | .copy d _ => decide (done[d]? = some .done)
      | .recv m => decide (ngrp = 1) && !done.contains (.recv m)
      | _ => true
    decide (k ≤ 4) && qbindImmOk k imm && ok && bindsOk ngrp (done ++ [b]) rest

/-- The fields of a stage record are in range (R308). -/
def stageOk (frames : Nat) (b : List Byte) (k : Nat) : Bool :=
  let o := 64 + 64 * k
  let x := stageOf b k
  decide (1 ≤ x.ngrp) && decide (x.ngrp ≤ 16) && decide (1 ≤ x.banks) && decide (x.banks ≤ (if frames = 0 then 8 else 6)) &&
  decide (x.tiles ≤ 4) && decide (natAt b (o + 11) 1 ≤ 1) && decide (x.scr % 256 = 0) && decide (x.scr ≤ 786432) &&
  zeroAt b (o + 48) 16 && bindsOk x.ngrp [] x.qinit

/-- A kernel descriptor of its bytes. -/
def kernelOf (b : List Byte) : KernelDesc where
  lanes := natAt b 1 1
  frames := natAt b 2 1
  hquota := natAt b 3 1
  priv := natAt b 4 4
  handler := BitVec.ofNat 64 (natAt b 8 8)
  stages := (List.range (min 4 (natAt b 0 1))).map (stageOf b)

/-- A descriptor's values are in range and its reserved bytes zero. -/
def kernelOk (b : List Byte) : Bool :=
  let k := kernelOf b
  decide (1 ≤ natAt b 0 1) && decide (natAt b 0 1 ≤ 4) && decide (1 ≤ k.lanes) && decide (k.lanes ≤ 96) &&
  decide (k.frames ≤ 4) && decide (k.hquota ≤ 64) && decide (k.priv % 4 = 0) && decide (k.priv ≤ 65536) && zeroAt b 16 48 &&
  (List.range (natAt b 0 1)).all (stageOk k.frames b)

/-- The header at an address as an agent fetches it (R60), or none. -/
def State.headerAt (s : State) (w : Who) (t : DWord) : Option Header :=
  if t.toNat % 8 ≠ 0 then none
  else
    match s.translate w t .exec with
    | .at_ k =>
      let x := BitVec.ofNat 64 (bytesNat (s.readCoherent k 8))
      if isHeader x then some (Header.ofWord x) else none
    | _ => none

/-- Every ENTRY passes Check and carries E (R39, R308). -/
def State.entriesOk (s : State) (w : Who) (k : KernelDesc) : Bool :=
  k.stages.all (fun x => match s.headerAt w x.entry with
    | some h => h.flagE
    | none => false)

/-! ### What an empty core and an empty cluster hold (R308, R310) -/

/-- The banks of a group of a stage. -/
def StageDesc.need (k : KernelDesc) (x : StageDesc) : Nat := bankCount x.banks k.frames

/-- The most groups of `nb` banks that fit slices beside `a` groups of `na` banks, each slice taking at most `lim` groups. -/
def packB (lim na nb : Nat) : Nat → Nat → Option Nat
  | 0, a => if a = 0 then some 0 else none
  | slices + 1, a =>
    (List.range (min a lim + 1)).foldl (fun best x =>
      if x * na ≤ 96 then
        match packB lim na nb slices (a - x) with
        | some y => some (max (best.getD 0) (y + min (lim - x) ((96 - x * na) / nb)))
        | none => best
      else best) none

/-- The groups that a slice may hold of one class (R17). -/
def slotLimit (cls : Nat) : Nat := if cls = 0 then 8 else 16

/-- One team instance of stage `x`, and one of stage `y` where there is one, fit an empty core of some slices. -/
def coreFits (cls : Nat) (k : KernelDesc) (x : StageDesc) (y : Option StageDesc) (slices : Nat) : Bool :=
  let scr := x.scr + (y.map (·.scr)).getD 0
  let tiles := x.ngrp * x.tiles + (y.map (fun y => y.ngrp * y.tiles)).getD 0
  let b := y.getD x
  decide (scratchCarve [scr] ≤ 786432) && decide (tiles ≤ 16) &&
  match packB (slotLimit cls) (x.need k) (b.need k) slices x.ngrp with
  | some n => y.isNone || decide (b.ngrp ≤ n)
  | none => false

/-- The most pairs of instances that share cores, given how many instances of each stage there are and which stages may
share: over a list of pairs of stages. -/
def mostPairs (fits : Nat → Nat → Bool) : List (Nat × Nat) → List Nat → Nat
  | [], _ => 0
  | (a, b) :: rest, cs =>
    let ca := cs[a]?.getD 0
    let cb := cs[b]?.getD 0
    let most := if !fits a b then 0 else if a = b then ca / 2 else min ca cb
    (List.range (most + 1)).foldl (fun best n =>
      let cs1 := if a = b then cs.set a (ca - 2 * n) else (cs.set a (ca - n)).set b (cb - n)
      max best (n + mostPairs fits rest cs1)) 0

/-- What one core may take of the instances still to place: nothing, one, or two. -/
def coreTakes (fits : Nat → Option Nat → Bool) (n : Nat) (left : List Nat) : List (List Nat) :=
  let take (a : Nat) (cs : List Nat) : List Nat := cs.set a (cs[a]?.getD 0 - 1)
  let may (a : Nat) (cs : List Nat) : Bool := decide (0 < cs[a]?.getD 0)
  let one := (List.range n).filter (fun a => may a left && fits a none)
  left :: one.map (fun a => take a left) ++ one.flatMap (fun a =>
    ((List.range n).filter (fun b => may b (take a left) && fits a (some b))).map (fun b => take b (take a left)))

/-- Every instance finds a place, over the cores of a cluster, each with its slices. -/
def allPlaced (fits : Nat → Nat → Option Nat → Bool) (n : Nat) : List Nat → List (List Nat) → Bool
  | [], lefts => lefts.any (fun l => l.all (fun c => decide (c = 0)))
  | sl :: cores, lefts => allPlaced fits n cores ((lefts.flatMap (coreTakes (fits sl) n)).eraseDups)

/-- `m` bands fit one empty cluster, with at most two instances on a core; `cores` counts the slices of each. -/
def clusterFits (cls : Nat) (k : KernelDesc) (nteam : Nat) (cores : List Nat) (m : Nat) : Bool :=
  let n := k.stages.length
  let fits (sl a : Nat) (b : Option Nat) : Bool :=
    match k.stages[a]?, b with
    | some x, none => coreFits cls k x none sl
    | some x, some b =>
      match k.stages[b]? with
      | some y => coreFits cls k x (some y) sl
      | none => false
    | none, _ => false
  if 16 < m * nteam * n then false
  else if cores = List.replicate 8 4 then
    let pairs := (List.range n).flatMap (fun a => ((List.range n).filter (fun b => decide (a ≤ b))).map (fun b => (a, b)))
    k.stages.all (fun x => coreFits cls k x none 4) &&
    decide (m * nteam * n ≤ 8 + mostPairs (fun a b => fits 4 a (some b)) pairs (List.replicate n (m * nteam)))
  else allPlaced fits n cores [List.replicate n (m * nteam)]

/-- The most bands that one empty cluster holds. -/
def bandsPerCluster (cls : Nat) (k : KernelDesc) (nteam : Nat) (cores : List Nat) : Nat :=
  ((List.range 17).filter (fun m => clusterFits cls k nteam cores m)).foldl max 0

/-- The slices of each core of a cluster that are in service. -/
def State.clusterCores (s : State) (cluster : Nat) : List Nat :=
  (List.range 8).map (fun c => ((List.range 4).filter (fun l => s.built.slices.getLsbD (4 * coreIndex cluster c + l))).length)

/-- The clusters on which a context's bands may be placed: present, of the named dies, and of its world (R30, R337). -/
def State.usableClusters (s : State) (fn : Nat) (mask : BitVec 2) : List Nat :=
  (List.range 48).filter (fun c => s.built.clusters.getLsbD c && s.built.dies.getLsbD (dieOfCluster c) &&
    mask.getLsbD (dieOfCluster c) && decide (s.regs.clWorld.getLsbD c = s.regs.fnSecure fn))

/-- The clusters on which a context's bands may be placed now: none of a die that is being reset. -/
def State.openClusters (s : State) (fn : Nat) (mask : BitVec 2) : List Nat :=
  (s.usableClusters fn mask).filter (fun c => !s.resetting (dieOfCluster c))

/-! ### The checks of a FIELD (R303) -/

/-- A FIELD record's parts. -/
structure FieldRec where
  resident : Bool
  tree : Bool
  dieMask : BitVec 2
  nteam : Nat
  nband : Nat
  kobj : DWord
  karg : DWord
  rep : DWord
  cfg : Word
  deriving DecidableEq, Repr

/-- A FIELD record of its bytes (R304). -/
def fieldRecOf (b : List Byte) : FieldRec where
  resident := decide (natAt b 1 1 % 2 = 1)
  tree := decide (natAt b 1 1 / 2 % 2 = 1)
  dieMask := BitVec.ofNat 2 (natAt b 2 1)
  nteam := natAt b 3 1
  nband := natAt b 4 4
  kobj := BitVec.ofNat 64 (natAt b 8 8)
  karg := BitVec.ofNat 64 (natAt b 16 8)
  rep := BitVec.ofNat 64 (natAt b 24 8)
  cfg := BitVec.ofNat 32 (natAt b 32 4)

/-- The TYPE of a sub-launch. -/
def SubLaunch.type (x : SubLaunch) : Nat := natAt x.bytes 0 1

/-- The bytes of the kernel descriptor at an address, or the CAUSE. -/
def State.readKernel (s : State) (w : Who) (a : DWord) : Except Nat (List Byte) :=
  match s.readVirt w a 64 with
  | .error e => .error e
  | .ok h => s.readVirt w a (64 + (if natAt h 0 1 ≤ 4 then 64 * natAt h 0 1 else 0))

/-- A field's refusal, in the order of R303: 2 kernel descriptor, 1 shape, 4 die mask, 3 capacity; 0 for none. A RESIDENT field can
never be placed at once where it is harvest and lacks bittern slots for all its bands (R310), or is ORDERED and has more bands than
one window (R28, R313, log entry 76). -/
def State.refusal (s : State) (w : Who) (cls bslots : Nat) (f : FieldRec) (b : List Byte) : Nat :=
  let k := kernelOf b
  let n := k.stages.length
  let clusters := s.usableClusters w.fn f.dieMask
  let full := bandsPerCluster cls k f.nteam (List.replicate 8 4)
  let room := (clusters.map (fun c =>
    if s.clusterCores c = List.replicate 8 4 then full else bandsPerCluster cls k f.nteam (s.clusterCores c))).sum
  if !kernelOk b || !s.entriesOk w k then 2
  else if 16 < f.nteam * n then 1
  else if f.dieMask &&& s.built.dies = 0 then 4
  else if decide (room = 0) || (decide (cls = 1) && decide (bslots < (if f.resident then f.nband else 1) * (f.nteam * (k.stages.map (·.ngrp)).sum))) ||
      (f.resident && (decide (room < f.nband) || (!f.tree && decide (256 < f.nband)))) then 3
  else 0

/-- The FIELD records of a bundle, by index. -/
def Bundle.fieldRecs (b : Bundle) : List (Nat × FieldRec) :=
  (List.range b.subs.length).filterMap (fun i => (b.subs[i]?).bind (fun x =>
    if x.type = 1 then some (i, fieldRecOf x.bytes) else none))

/-- The first descriptor that cannot be read: its CAUSE and index; else every descriptor, by index. -/
def State.readKernels (s : State) (w : Who) : List (Nat × FieldRec) → Except (Nat × Nat) (List (Nat × List Byte))
  | [] => .ok []
  | (i, f) :: rest =>
    match s.readKernel w f.kobj with
    | .error c => .error (c, i)
    | .ok b =>
      match State.readKernels s w rest with
      | .ok bs => .ok ((i, b) :: bs)
      | .error e => .error e

/-- The verdict of the second pass (R303): a status with its DETAIL and SUB, or the descriptors. -/
def State.startChecks (s : State) (w : Who) (cls bslots : Nat) (b : Bundle) :
    Except (Nat × Nat × Nat) (List (Nat × List Byte)) :=
  match s.readKernels w b.fieldRecs with
  | .error (c, i) => .error (1, c, i)
  | .ok ks =>
    match (b.fieldRecs.zip ks).findSome? (fun q =>
        let r := s.refusal w cls bslots q.1.2 q.2.2
        if r = 0 then none else some (2, r, q.1.1)) with
    | some e => .error e
    | none => .ok ks

/-! ### Front-end writes that fail (R403) -/

/-- A front-end write record, in the context's fault area. -/
def State.frontRecord (s : State) (q : Queue) (b : Bundle) (which cause sub : Nat) (addr : DWord) : State :=
  s.faultRecord q.ctx
    (natBytes 2 6 ++ natBytes 1 which ++ natBytes 1 cause ++ natBytes 2 q.num ++ natBytes 1 sub ++ natBytes 1 0 ++
     natBytes 8 addr.toNat ++ natBytes 8 b.tag.toNat ++ natBytes 8 (s.tenantTime q.tenant).toNat)

/-- Change a sub-launch of a bundle. -/
def State.onSub (s : State) (uid i : Nat) (h : SubLaunch → SubLaunch) : State :=
  s.onBundle uid (fun b => match b.subs[i]? with
    | some x => { b with subs := b.subs.set i (h x) }
    | none => b)

/-- A sub-launch's first fault is kept. -/
def SubLaunch.withFault (x : SubLaunch) (cause : Nat) : SubLaunch := { x with fault := some (x.fault.getD (cause, 0)) }

/-- A write of the front end for sub-launch `i`: performed at system scope, or dropped, recorded, and the sub-launch's status
FAULT. -/
def State.frontWrite (s : State) (q : Queue) (b : Bundle) (i which : Nat) (a : DWord) (bytes : List Byte) : State :=
  match s.writeVirt (s.queueWho q) a bytes with
  | .ok t => t
  | .error c => ((s.walkFront (s.queueWho q) a bytes.length).onSub b.uid i (fun x => x.withFault c)).frontRecord q b which c i a

/-! ### SIGNAL (R306) -/

/-- The address and width of a SIGNAL's target, where it has one. -/
def signalTarget (r : List Byte) : Option (DWord × Nat) :=
  match natAt r 2 1 with
  | 0 => some (BitVec.ofNat 64 (natAt r 8 8), 4)
  | 1 => some (BitVec.ofNat 64 (natAt r 8 8), 8)
  | 2 => some (BitVec.ofNat 64 (natAt r 8 8), 4)
  | _ => none

/-- The groups of the fields that a queue of the same PASID launched are woken. -/
def State.wakeQueue (s : State) (pasid num : Nat) : State :=
  let is := (List.range s.queues.length).filter (fun i => match s.queues[i]? with
    | some q => decide (q.pasid = pasid) && decide (q.num = num)
    | none => false)
  let us := (is.flatMap s.fieldsOf).map (·.uid)
  s.mapGroups (fun g => g.lives && us.contains g.id.field) (fun g => { g with latch := g.latch ||| latchWake })

/-- The old value of ADD32's word, where it can be reached for a read-modify-write. -/
def State.oldWord (s : State) (w : Who) (a : DWord) : Nat :=
  match s.virtKeys w a 4 with
  | .ok ks => bytesNat (ks.map s.backing)
  | .error _ => 0

/-- ADD32's word is read, from the host where it lies in a HOST page (R349). -/
def State.readsOld (s : State) (w : Who) (a : DWord) : State :=
  match s.virtKeys w a 4 with
  | .ok ks => s.askKeys w ks
  | .error _ => s

/-- SIGNAL sub-launch `i` is performed: a release at system scope. ADD32 is performed on a HOST page or a remote window as on any
other page, where an atomic of a group would take PROT (R170; the model's choice, log entry 89). -/
def State.signal (s : State) (q : Queue) (b : Bundle) (i : Nat) (r : List Byte) : State :=
  let a := BitVec.ofNat 64 (natAt r 8 8)
  match natAt r 2 1 with
  | 0 => s.frontWrite q b i 4 a (natBytes 4 (natAt r 16 8))
  | 1 => s.frontWrite q b i 4 a (natBytes 8 (natAt r 16 8))
  | 2 => (s.readsOld (s.queueWho q) a).frontWrite q b i 4 a (natBytes 4 (s.oldWord (s.queueWho q) a + natAt r 16 8))
  | 3 => s.wakeQueue q.pasid (natAt r 16 8 % 4096)
  | _ => s.send (.msix q.tenant (natAt r 4 2))

/-- The SIGNAL waits for the other sub-launches. -/
def SubLaunch.after (x : SubLaunch) : Bool := decide (x.type = 3) && decide (natAt x.bytes 1 1 % 2 = 1)

/-! ### COPY (R305) -/

/-- A copy command of a sub-launch. -/
def subCmd (q : Queue) (w : Who) (uid bundle sub entry : Nat) (form : CopyForm) (flags : Bool) (failed : Option Nat) :
    CopyCmd where
  uid := uid
  form := form
  group := none
  ctx := w.ctx
  pasid := w.pasid
  fn := w.fn
  cls := q.cls
  band := 0
  inst := 0
  cluster := 0
  core := 0
  reg := 0
  doneReg := 0
  eng := 0
  tag := 0
  acq := flags
  acqDone := false
  rel := flags
  scope := 6
  cp := 1
  bar := 0xFFFFFFFF
  mark := ⟨0, 0, none⟩
  bundle := bundle
  sub := sub
  entry := entry
  engine := none
  plan := none
  landed := 0
  ended := failed.map (fun c => (4, c, 0))
  suspended := false
  again := false
  keepBar := false
  keepFlags := false
  taken := 0
  dropToken := false
  waitHost := none
  denied := false

/-- The command of a shard entry: its form, or the CAUSE with which it fails at once. -/
def State.shardEntry (s : State) (w : Who) (a : DWord) : CopyForm × Option Nat :=
  match s.readVirt w a 32 with
  | .error c => (.described a, some c)
  | .ok b =>
    if !zeroAt b 18 14 then (.described a, some 5)
    else
      match s.tensor? w.ctx (natAt b 16 2) [0, 2] with
      | some (t, orig, gext) => (.shardOut (dwordAt b 0) (dwordAt b 8) (natAt b 16 2) t orig gext, none)
      | none => (.described a, some 3)

/-- The commands of COPY sub-launch `i`: without SHARD, LIST is a locator, as the address of a descriptor is; with it, an address of
device virtual memory (the model's choice, log entry 103). -/
def State.startCopies (s : State) (q : Queue) (w : Who) (bundle i : Nat) (r : List Byte) : State :=
  let shard := decide (natAt r 1 1 % 2 = 1)
  let list := BitVec.ofNat 64 (natAt r 8 8)
  let n := natAt r 4 4
  let cmds := (List.range n).map (fun e =>
    if shard then
      let (form, failed) := s.shardEntry w (list + BitVec.ofNat 64 (32 * e))
      subCmd q w (s.nextId + e) bundle i e form true failed
    else subCmd q w (s.nextId + e) bundle i e (.described (list + BitVec.ofNat 64 (128 * e))) false none)
  { s with copies := s.copies ++ cmds, nextId := s.nextId + n }

/-! ### BUNDLE_START (R303, R309) -/

/-- A field as it starts (R304, R313, R314). -/
def fieldOf (uid bundle sub : Nat) (q : Queue) (f : FieldRec) (k : KernelDesc) : Field where
  uid := uid
  bundle := bundle
  sub := sub
  ctx := q.ctx
  cls := q.cls
  kernel := k
  nteam := f.nteam
  nband := f.nband
  dieMask := f.dieMask
  resident := f.resident
  tree := f.tree
  karg := f.karg
  repAddr := f.rep
  repCfg := f.cfg
  nextBand := 0
  retired := []
  base := 0
  clusterRetired := []
  fired := []
  killed := false
  fault := none

/-- The sub-launches start, in record order; a SIGNAL without AFTER is performed. -/
def State.startSubs (s : State) (q : Queue) (w : Who) (b : Bundle) (ks : List (Nat × List Byte)) : List Nat → State
  | [] => s
  | i :: is =>
    let t := match b.subs[i]? with
      | none => s
      | some x =>
        match x.type with
        | 1 =>
          let k := kernelOf (((ks.find? (fun p => p.1 = i)).map (·.2)).getD [])
          { s with fields := s.fields ++ [fieldOf s.nextId b.uid i q (fieldRecOf x.bytes) k], nextId := s.nextId + 1 }
        | 2 => s.startCopies q w b.uid i x.bytes
        | _ => if x.after then s else (s.signal q b i x.bytes).onSub b.uid i (fun y => { y with retired := true })
    State.startSubs t q w b ks is

/-- The bundle could start but for the order among queues: every wait has held, and SERIAL's earlier bundles have retired; those also
of a NOP without waits (the model's choice, log entry 96). -/
def State.startable (s : State) (b : Bundle) : Bool :=
  !b.started && b.early.isNone && b.waits.all (·.held) &&
  match s.queueOfBundle b with
  | some q => s.mayDispatch q && (!b.serial || decide (b.ridx = q.rdidx))
  | none => false

/-- The memory that the start of a bundle reaches: addresses, sizes and rights. -/
def State.startReach (s : State) (w : Who) (b : Bundle) : List (DWord × Nat × Need) :=
  b.subs.flatMap (fun x =>
    match x.type with
    | 1 =>
      let a := (fieldRecOf x.bytes).kobj
      let n := match s.readVirt w a 1 with
        | .ok h => 64 * min 4 (natAt h 0 1)
        | .error _ => 0
      [(a, 64, .read), (a, 64 + n, .read)]
    | 2 => if natAt x.bytes 1 1 % 2 = 1 then [(BitVec.ofNat 64 (natAt x.bytes 8 8), 32 * natAt x.bytes 4 4, .read)] else []
    | _ =>
      match signalTarget x.bytes with
      | some (a, n) => if x.after then [] else [(a, n, .write)]
      | none => [])

/-- The runs among them that are read. -/
def readRuns (xs : List (DWord × Nat × Need)) : List (DWord × Nat) :=
  (xs.filter (fun x => decide (x.2.2 = .read))).map (fun x => (x.1, x.2.1))

/-- The first page of what an event reaches that the host must still translate. -/
def State.firstGap (s : State) (w : Who) (xs : List (DWord × Nat × Need)) : Option Nat :=
  xs.findSome? (fun x => s.hostGap w x.2.2 x.1 x.2.1)

/-- A bundle with STEP starts, which counts toward its context's checkpoint (R316). -/
def State.countStep (s : State) (q : Queue) (b : Bundle) : State :=
  match s.ctx? q.ctx with
  | some c => if b.step then s.setCtx { c with ckCount := c.ckCount + 1 } else s
  | none => s

/-- The bundle starts, or ends with the verdict of its checks. -/
def State.startBundle (s : State) (q : Queue) (b : Bundle) : State :=
  let w := s.queueWho q
  match s.startChecks w q.cls (((s.ctx? q.ctx).map (·.bslots)).getD 0) b with
  | .error e => ((s.onBundle b.uid (fun b => { b with early := some e })).inCheckpoint q b.uid).moveQueues
  | .ok ks =>
    let s1 := s.onBundle b.uid (fun b => { b with started := true, startTime := s.time })
    let s2 := s1.startSubs q w b ks (List.range b.subs.length)
    ((s2.inCheckpoint q b.uid).countStep q b).moveQueues

/-! ### The order of service (R296, R309) -/

/-- The round-robin weight of a tenant (R296). -/
def State.weight (s : State) (t : Nat) : Nat := max 1 ((s.regs.tweight[t]?.getD 1).toNat)

/-- A tenant's place in the turn of a class: the tenant served last goes on up to its weight, then the next ones in ascending
order (log entry 70). -/
def State.tenantRank (s : State) (cls t : Nat) : Nat :=
  match s.served.find? (fun x => x.1 = cls) with
  | none => t + 1
  | some (_, t0, n) => if t = t0 && n < s.weight t then 0 else (t + 63 - t0 % 64) % 64 + 1

/-- The key of a round robin among queues of one class, tenant and priority. -/
def Queue.robin (q : Queue) : Nat := 512 * q.cls + 8 * q.tenant + q.prio

/-- Queue `i`'s place in its round robin: after the queue served last. -/
def State.queueRank (s : State) (i : Nat) (q : Queue) : Nat :=
  match s.lastQueue.find? (fun x => x.1 = q.robin) with
  | none => i
  | some (_, j) => if j < i then i - j - 1 else i + s.queues.length - j

/-- Queue `j` is served before queue `i` where both have work: class, tenant, priority, round robin. -/
def State.servesBefore (s : State) (j : Nat) (r : Queue) (i : Nat) (q : Queue) : Bool :=
  decide (r.cls < q.cls) || (decide (r.cls = q.cls) &&
    (if r.tenant ≠ q.tenant then decide (s.tenantRank q.cls r.tenant < s.tenantRank q.cls q.tenant)
     else decide (q.prio < r.prio) || (decide (q.prio = r.prio) && decide (s.queueRank j r < s.queueRank i q))))

/-- Queue `i` has been served. -/
def State.serve (s : State) (i : Nat) : State :=
  match s.queues[i]? with
  | none => s
  | some q =>
    let n := match s.served.find? (fun x => x.1 = q.cls) with
      | some (_, t0, n) => if t0 = q.tenant && n < s.weight q.tenant then n + 1 else 1
      | none => 1
    { s with
      served := (q.cls, q.tenant, n) :: s.served.filter (fun x => x.1 ≠ q.cls),
      lastQueue := (q.robin, i) :: s.lastQueue.filter (fun x => x.1 ≠ q.robin) }

end Sys2Proof.Machine
end

