-- ==== Sys2Proof/Machine/Bands.lean ====
section
/-! DEFINITION. The placement and retirement of bands, their reports, and the retirement of bundles (01_machine.md R20 to
R24, 16_launch_and_scheduling.md R306, R307, R310 to R314, 08_ordering.md R164). -/

namespace Sys2Proof.Machine

open Sys2Proof

/-! ### Reports (R313, R314) -/

/-- No band of the field will be placed any more: all are, or it was killed, or its queue is being destroyed (R279, R317). -/
def State.closed (s : State) (f : Field) : Bool :=
  f.killed || decide (f.nband ≤ f.nextBand) ||
  match (s.bundle? f.bundle).bind s.queueOfBundle with
  | some q => decide (q.state = .destroying) || decide (q.state = .destroyed)
  | none => true

/-- The bands of a field that have retired. -/
def Field.done (f : Field) : Nat := f.base + f.retired.length

/-- The placed bands of a field on clusters that a test picks. -/
def State.bandsOf (s : State) (f : Nat) (p : Nat → Bool) : List Band :=
  s.bands.filter (fun b => decide (b.field = f) && p b.cluster)

/-- The bands that a field has retired on clusters that a test picks. -/
def Field.retiredOn (f : Field) (p : Nat → Bool) : Nat := ((f.clusterRetired.filter (fun c => p c.1)).map (·.2)).sum

/-- A level of TREE reporting: its number, its clusters, its offset in the report area and its bits in REPCFG. -/
structure Level where
  no : Nat
  on : Nat → Bool
  off : Nat
  bit : Nat

/-- The levels in the order in which they are looked at: clusters, dies, the field. -/
def levels : List Level :=
  (List.range 48).map (fun c => ⟨3 + c, fun x => decide (x = c), 24 + 8 * c, 4⟩) ++
  (List.range 2).map (fun d => ⟨1 + d, fun x => decide (dieOfCluster x = d), 8 + 8 * d, 2⟩) ++ [⟨0, fun _ => true, 0, 0⟩]

/-- Change a field. -/
def State.onField (s : State) (uid : Nat) (h : Field → Field) : State :=
  { s with fields := s.fields.map (fun f => if f.uid = uid then h f else f) }

/-- The level fires now (R314): its counter is 0 after it has counted a band, and no band remains to be placed on it. -/
def State.levelFires (s : State) (f : Field) (l : Level) : Bool :=
  !f.fired.contains l.no && (s.bandsOf f.uid l.on).isEmpty && f.clusterRetired.any (fun c => l.on c.1) &&
  (if l.no = 0 then decide (f.done = f.nband) else s.closed f)

/-- A level fires: its word and its interrupt, as REPCFG enables them. -/
def State.fireLevel (s : State) (q : Queue) (b : Bundle) (f : Field) (l : Level) : State :=
  let s1 := s.onField f.uid (fun f => { f with fired := l.no :: f.fired })
  let s2 := if f.repCfg.getLsbD l.bit then
    s1.frontWrite q b f.sub 3 (f.repAddr + BitVec.ofNat 64 l.off) (natBytes 8 (f.retiredOn l.on)) else s1
  if f.repCfg.getLsbD (l.bit + 1) then s2.send (.msix q.tenant (fld (f.repCfg.setWidth 64) 16 16)) else s2

/-- The levels of a TREE field that fire. -/
def State.fireLevels (s : State) (uid : Nat) : List Level → State
  | [] => s
  | l :: ls =>
    let t :=
      match s.fields.find? (fun f => f.uid = uid) with
      | some f =>
        match s.bundle? f.bundle, (s.bundle? f.bundle).bind s.queueOfBundle with
        | some b, some q =>
          if f.tree && decide (f.repAddr ≠ 0) && s.levelFires f l then s.fireLevel q b f l else s
        | _, _ => s
      | none => s
    State.fireLevels t uid ls

/-- base over the retired bands, as far as they are contiguous. -/
def advanceBase (retired : List Nat) : Nat → Nat → Nat
  | 0, b => b
  | n + 1, b => if retired.contains b then advanceBase retired n (b + 1) else b

/-- A band of the field has come to a cluster, whose level counts it from then on (R314). -/
def Field.reachCluster (f : Field) (cluster : Nat) : Field :=
  if f.clusterRetired.any (fun r => r.1 = cluster) then f else { f with clusterRetired := f.clusterRetired ++ [(cluster, 0)] }

/-- A band of a field is counted as retired (R313, R314). -/
def Field.countRetired (f : Field) (bandx cluster : Nat) : Field :=
  let rs := bandx :: f.retired
  let b := advanceBase rs rs.length f.base
  { f with
    base := b, retired := rs.filter (fun x => decide (b ≤ x)),
    clusterRetired := f.clusterRetired.map (fun c => if c.1 = cluster then (c.1, c.2 + 1) else c) }

/-- The reports that a band's retirement makes. -/
def State.reportBand (s : State) (uid bandx cluster : Nat) : State :=
  match s.fields.find? (fun f => f.uid = uid) with
  | none => s
  | some f =>
    let f1 := f.countRetired bandx cluster
    let s1 := s.onField uid (fun _ => f1)
    let s2 :=
      match s1.bundle? f.bundle, (s1.bundle? f.bundle).bind s1.queueOfBundle with
      | some b, some q =>
        if !f.tree && decide (f.repAddr ≠ 0) && decide (f.base < f1.base) then
          s1.frontWrite q b f.sub 2 f.repAddr (natBytes 4 f1.base)
        else s1
      | _, _ => s1
    s2.fireLevels uid levels

/-- The agent that writes a field's reports. -/
def State.reportWho (s : State) (uid : Nat) : Who :=
  (((s.fields.find? (fun f => f.uid = uid)).bind (fun f => s.ctx? f.ctx)).map Context.who).getD ⟨0, 0, 0⟩

/-- The page that a field's reports wait for. -/
def State.reportGap (s : State) (uid : Nat) : Option Nat :=
  match s.fields.find? (fun f => f.uid = uid) with
  | none => none
  | some f => if f.repAddr = 0 then none else s.hostGap (s.reportWho uid) .write f.repAddr (if f.tree then 408 else 4)

/-! ### BAND_PLACE (R22, R310, R312) -/

/-- The initial bindings of a group (R197). -/
def StageDesc.bindings (x : StageDesc) : Vector QReg 16 :=
  Vector.ofFn (fun i => match x.qinit[i.val]? with
    | some (k, imm) => { QReg.initial with kind := bindKind k imm }
    | none => QReg.initial)

/-- The place of a team instance in its band: k, its stage and its team (R129). -/
structure InstAt where
  k : Nat
  stage : Nat
  team : Nat
  deriving DecidableEq, Repr

/-- The instances of a band, in index order. -/
def Field.insts (f : Field) : List InstAt :=
  (List.range f.kernel.stages.length).flatMap (fun st => (List.range f.nteam).map (fun t => ⟨st * f.nteam + t, st, t⟩))

/-- The groups of a band. -/
def Field.bandGroups (f : Field) : Nat := f.nteam * (f.kernel.stages.map (·.ngrp)).sum

/-- What a new group is (R23, R24). -/
def newGroupId (s : State) (f : Field) (c : Context) (band bandx : Nat) (i : InstAt) (x : StageDesc) (grpx core slice : Nat) :
    GroupId where
  uid := s.nextId
  ctx := f.ctx
  pasid := c.pasid
  fn := c.tenant
  cls := f.cls
  field := f.uid
  band := band
  inst := i.k
  bandx := bandx
  teamx := i.team
  grpx := grpx
  stage := i.stage
  nband := f.nband
  nteam := f.nteam
  ngrp := x.ngrp
  nstage := f.kernel.stages.length
  die := dieOfCluster (core / 8)
  cluster := core / 8
  core := core % 8
  slice := slice
  placedAt := s.clock
  karg := f.karg
  lanes := f.kernel.lanes
  banks := x.banks
  frames := f.kernel.frames
  priv := f.kernel.priv
  ntiles := x.tiles
  bandBar := x.bandBar

/-- One group takes a slot and its banks on a slice of its core, where they are free: the lowest-numbered free banks (log entry 87);
its core wakes for it (R97). -/
def State.placeGroup (s : State) (f : Field) (c : Context) (band bandx : Nat) (i : InstAt) (x : StageDesc)
    (grpx core slice : Nat) : Option State :=
  let id := newGroupId s f c band bandx i x grpx core slice
  let sl := sliceIndex core slice
  if decide (slice < 4) && s.slotFree sl f.cls id.bankNeed && s.canHost sl f.cls id.bankNeed then
    let banks := (s.freeBanks sl f.cls).take id.bankNeed
    let g := { Group.initial id x.entry f.kernel.handler banks with queues := x.bindings }
    let t := s.wake core (banks.map (fun b => (sl, b)))
    some { t with others := t.others ++ [g], nextId := t.nextId + 1 }
  else none

/-- The groups of an instance from index `grpx` on, each with its slice. -/
def State.placeGroups (s : State) (f : Field) (c : Context) (band bandx : Nat) (i : InstAt) (x : StageDesc) (core : Nat) :
    Nat → List Nat → Option State
  | _, [] => some s
  | grpx, sl :: sls =>
    match s.placeGroup f c band bandx i x grpx core sl with
    | some t => State.placeGroups t f c band bandx i x core (grpx + 1) sls
    | none => none

/-- A core holds what it has been given: two instances, the scratch of its pool and the tiles of its matrix unit (R18, R21). -/
def State.coreOk (s : State) (core : Nat) : Bool :=
  let is := s.instsOn core
  decide (is.length ≤ 2) && decide (scratchCarve (is.map (fun p => p.2.scr)) ≤ 786432) && decide (s.tilesUsed core ≤ 16)

/-- One instance is placed on a core where no other guaranteed band comes first (R266); the slices that it does not use are left. -/
def State.placeInst (s : State) (f : Field) (c : Context) (band bandx : Nat) (i : InstAt) (core : Nat) (slices : List Nat) :
    Option (State × List Nat) :=
  match f.kernel.stages[i.stage]? with
  | none => none
  | some x =>
    let inst : Inst :=
      { k := i.k, core := core % 8, scr := x.scr, ngrp := x.ngrp, bandBar := x.bandBar,
        bars := Vector.replicate 16 ⟨0, [], none⟩, chans := Vector.replicate 32 none, exited := false }
    if decide (slices.length < x.ngrp) || s.servedFirst f.uid f.ctx core then none
    else
      match (s.onBand band (fun b => { b with insts := b.insts ++ [inst] })).placeGroups f c band bandx i x core 0
          (slices.take x.ngrp) with
      | some t => if t.coreOk core then some (t, slices.drop x.ngrp) else none
      | none => none

/-- The instances of a band, each on its core of one cluster. -/
def State.placeInsts (s : State) (f : Field) (c : Context) (band bandx cluster : Nat) :
    List InstAt → List Nat → List Nat → Option (State × List Nat × List Nat)
  | [], cores, slices => some (s, cores, slices)
  | i :: is, core :: cores, slices =>
    if core / 8 ≠ cluster then none
    else
      match s.placeInst f c band bandx i core slices with
      | some (t, rest) => State.placeInsts t f c band bandx cluster is cores rest
      | none => none
  | _ :: _, [], _ => none

/-- The next band of a field is placed on a cluster, whole, and its groups start with an acquire at system scope (R164). -/
def State.placeBand (s : State) (f : Field) (c : Context) (bandx : Nat) (cores slices : List Nat) :
    Option (State × List Nat × List Nat) :=
  let cluster := (cores.headD 0) / 8
  let uid := s.nextId
  if !(s.openClusters c.tenant f.dieMask).contains cluster || (decide (f.cls = 1) && decide (s.freeSlots c < f.bandGroups)) then none
  else
    let b : Band := { uid := uid, field := f.uid, ctx := f.ctx, bandx := bandx, cluster := cluster, insts := [],
                      bar := ⟨0, [], none⟩, killed := false }
    let s1 : State := { s with bands := s.bands ++ [b], nextId := s.nextId + 1 }
    match s1.placeInsts f c uid bandx cluster f.insts cores slices with
    | none => none
    | some (t, cs, sls) =>
      let t1 := ((cores.take f.insts.length).eraseDups).foldl (fun u core => u.acquireAt core 6) t
      let t2 := t1.onField f.uid (fun f => { f.reachCluster cluster with nextBand := bandx + 1 })
      some (t2, cs, sls)

/-- `n` bands from `bandx` on, and nothing left of the given places. -/
def State.placeBands (s : State) (f : Field) (c : Context) : Nat → Nat → List Nat → List Nat → Option State
  | 0, _, cores, slices => if cores.isEmpty && slices.isEmpty then some s else none
  | n + 1, bandx, cores, slices =>
    match s.placeBand f c bandx cores slices with
    | some (t, cs, sls) => State.placeBands t f c n (bandx + 1) cs sls
    | none => none

/-- The bands that a field places at once. -/
def Field.atOnce (f : Field) : Nat := if f.resident then f.nband else 1

/-- A harvest group that the leaf has chosen for the field's bands is still there. -/
def State.victimsLeft (s : State) (f : Field) : Bool :=
  s.arrivals.any (fun a => decide (a.field = f.uid) && a.takes.any (fun u => s.groups.any (fun g => decide (g.id.uid = u) && g.resident)))

/-- What a field places in one step (R310) may be placed: all of it lies in the window of an ORDERED field (R284, R310, R313), the part being up
(R363). The window holds also where REPADDR is 0 and no report is made (the model's reading, log entry 76). -/
def State.mayPlace (s : State) (f : Field) (c : Context) : Bool :=
  s.isUp && !s.closed f && c.mayRun f.bundle && !s.victimsLeft f && (f.tree || decide (f.nextBand + f.atOnce ≤ f.base + 256))

/-- A slice of the core for each group of an instance from `grpx` on: the first that takes it. -/
def State.pickSlices (s : State) (f : Field) (c : Context) (band bandx : Nat) (i : InstAt) (x : StageDesc) (core : Nat) :
    Nat → Nat → Option (List Nat × State)
  | _, 0 => some ([], s)
  | grpx, n + 1 =>
    match (List.range 4).findSome? (fun sl => (s.placeGroup f c band bandx i x grpx core sl).map (fun t => (sl, t))) with
    | none => none
    | some (sl, t) => (State.pickSlices t f c band bandx i x core (grpx + 1) n).map (fun r => (sl :: r.1, r.2))

/-- A core and slices for one instance. -/
def State.pickCore (s : State) (f : Field) (c : Context) (band bandx cluster : Nat) (i : InstAt) : Option (Nat × List Nat × State) :=
  match f.kernel.stages[i.stage]? with
  | none => none
  | some x =>
    (List.range 8).findSome? (fun k =>
      let core := coreIndex cluster k
      match s.pickSlices f c band bandx i x core 0 x.ngrp with
      | none => none
      | some (sls, _) => (s.placeInst f c band bandx i core sls).map (fun t => (core, sls, t.1)))

/-- Cores and slices for the instances of a band. -/
def State.pickInsts (s : State) (f : Field) (c : Context) (band bandx cluster : Nat) : List InstAt → Option (List Nat × List Nat)
  | [] => some ([], [])
  | i :: is =>
    match s.pickCore f c band bandx cluster i with
    | none => none
    | some (core, sls, t) => (State.pickInsts t f c band bandx cluster is).map (fun r => (core :: r.1, sls ++ r.2))

/-- Cores and slices for a band on a cluster. -/
def State.pickOn (s : State) (f : Field) (c : Context) (bandx cluster : Nat) : Option (List Nat × List Nat) :=
  let b : Band := { uid := s.nextId, field := f.uid, ctx := f.ctx, bandx := bandx, cluster := cluster, insts := [],
                    bar := ⟨0, [], none⟩, killed := false }
  ({ s with bands := s.bands ++ [b], nextId := s.nextId + 1 } : State).pickInsts f c s.nextId bandx cluster f.insts

/-- Cores and slices for `n` bands from `bandx` on, the first clusters that take them. -/
def State.pickBands (s : State) (f : Field) (c : Context) : Nat → Nat → Option (List Nat × List Nat)
  | 0, _ => some ([], [])
  | n + 1, bandx =>
    match (s.openClusters c.tenant f.dieMask).findSome? (fun cl => s.pickOn f c bandx cl) with
    | none => none
    | some (cores, sls) =>
      match s.placeBand f c bandx cores sls with
      | none => none
      | some (t, _, _) => (State.pickBands t f c n (bandx + 1)).map (fun r => (cores ++ r.1, sls ++ r.2))

/-- The part with the harvest groups of every cluster gone that a field may use (R310). -/
def State.emptied (s : State) (f : Field) (c : Context) : State :=
  (s.openClusters c.tenant f.dieMask).foldl State.withoutHarvest s

/-- Room is found for what a field places at once: now, or, for a guaranteed one that no leaf has assigned yet, with what harvest
groups hold counted as free (R310). -/
def State.roomFor (s : State) (f : Field) (c : Context) : Bool :=
  (s.pickBands f c f.atOnce f.nextBand).isSome ||
  (decide (f.cls = 0) && !s.arrivals.any (fun a => a.field = f.uid) && ((s.emptied f c).pickBands f c f.atOnce f.nextBand).isSome)

/-- A queue has a bundle that can start, or a band that can be placed (R309). -/
def State.hasWork (s : State) (i : Nat) (q : Queue) : Bool :=
  (!q.ckq && s.bundles.any (fun b => decide (b.queue = i) && s.startable b)) ||
  (s.fieldsOf i).any (fun f => match s.ctx? f.ctx with
    | some c => s.mayPlace f c && s.roomFor f c
    | none => false)

/-- Another queue is served before queue `i` (R309). -/
def State.servedLater (s : State) (i : Nat) : Bool :=
  match s.queues[i]? with
  | none => false
  | some q =>
    (List.range s.queues.length).any (fun j => decide (j ≠ i) && match s.queues[j]? with
      | some r => s.servesBefore j r i q && s.hasWork j r
      | none => false)

/-- The queue of a field. -/
def State.fieldQueue (s : State) (f : Field) : Nat := ((s.bundle? f.bundle).map (·.queue)).getD s.queues.length

/-- What the groups placed since `from_` need, by slice (R260). -/
def State.needOf (s : State) (from_ : Nat) : List (Nat × Nat × Nat) :=
  (s.groups.filter (fun g => decide (from_ ≤ g.id.uid))).map (fun g => (g.sliceNo, g.id.bankNeed, g.id.ntiles))

/-- An assignment of bands to cores replaces the one that stood for the field, or for the context that comes back; none where it
stands already. -/
def State.assign (s : State) (a : Arrival) : Option State :=
  if s.arrivals.contains a then none
  else some { s with arrivals := a :: s.arrivals.filter (fun b => !(b.field = a.field && b.ctx = a.ctx)) }

/-- A harvest group holds a slot and banks, or tiles, of which some new groups need their own (R260). -/
def Group.holdsLike (g : Group) (need : List (Nat × Nat × Nat)) : Bool :=
  g.victim && need.any (fun n => decide (n.1 = g.sliceNo) || (decide (n.1 / 4 = g.coreNo) && decide (0 < n.2.2) && decide (0 < g.id.ntiles)))

/-- A guaranteed field's bands are assigned to cores on which harvest groups hold what they need, which evicts those (R260,
R310); of those that hold the like the leaf may choose `victims`, whether or not other room is free (R384). -/
def State.assignWith (s : State) (f : Field) (c : Context) (cores slices victims : List Nat) : Option State :=
  if f.cls ≠ 0 then none
  else
    let t := ((cores.map (· / 8)).eraseDups).foldl State.withoutHarvest s
    match t.placeBands f c f.atOnce f.nextBand cores slices with
    | some u =>
      let need := u.needOf s.nextId
      if victims.all (fun v => s.groups.any (fun g => decide (g.id.uid = v) && g.holdsLike need)) then
        s.assign ⟨f.uid, f.ctx, need, victims⟩
      else none
    | none => none

/-- A guaranteed field's bands are assigned to cores on which harvest groups hold what they lack. -/
def State.assignBands (s : State) (f : Field) (c : Context) (cores slices : List Nat) : Option State :=
  s.assignWith f c cores slices []

/-- A field's bands are assigned as the leaf chooses, or the event is not enabled. -/
def State.assignChosen (s : State) (u : Nat) (cores slices victims : List Nat) : Out :=
  match s.fields.find? (fun f => f.uid = u) with
  | some f =>
    match (s.ctx? f.ctx).bind (fun c =>
        if s.mayPlace f c && !s.servedLater (s.fieldQueue f) then s.assignWith f c cores slices victims else none) with
    | some t => .next t
    | none => .refused (.notEnabled "BAND_PLACE")
  | none => .refused (.notEnabled "BAND_PLACE")

/-- BAND_PLACE (R22): one band, or every band of a RESIDENT field in one step (R310). `cores` are cores of the part, one for
each instance, and `slices` the slice of each group on its core. -/
def execBandPlace (s : State) : Out :=
  match s.ev with
  | .assign u _ cores slices victims => s.assignChosen u cores slices victims
  | .place u _ cores slices =>
    match s.fields.find? (fun f => f.uid = u) with
    | some f =>
      match s.ctx? f.ctx with
      | some c =>
        if s.mayPlace f c && !s.servedLater (s.fieldQueue f) then
          frontAccess "BAND_PLACE" s (s.reportWho u) (s.reportGap u)
            (match s.placeBands f c f.atOnce f.nextBand cores slices with
             | some t =>
               let t1 : State := { t with arrivals := t.arrivals.filter (fun a => a.field ≠ u) }
               .next ((t1.serve (s.fieldQueue f)).fireLevels u levels)
             | none =>
               match s.assignBands f c cores slices with
               | some t => .next t
               | none => .refused (.notEnabled "BAND_PLACE"))
        else .refused (.notEnabled "BAND_PLACE")
      | none => .refused (.notEnabled "BAND_PLACE")
    | none => .refused (.notEnabled "BAND_PLACE")
  | _ => .refused (.notEnabled "BAND_PLACE")

/-! ### BUNDLE_START (R303, R309) -/

/-- BUNDLE_START (R303). The next bundle of a checkpoint queue is started by CHECKPOINT_BUNDLE_START. -/
def execBundleStart (s : State) : Out :=
  match s.ev with
  | .bundle u _ =>
    match s.bundle? u with
    | some b =>
      match s.queueOfBundle b with
      | some q =>
        if s.startable b && !q.ckq && !s.servedLater b.queue then
          let w := s.queueWho q
          frontReads "BUNDLE_START" s w (s.firstGap w (s.startReach w b)) (readRuns (s.startReach w b))
            (fun s => .next ((s.serve b.queue).startBundle q b))
        else .refused (.notEnabled "BUNDLE_START")
      | none => .refused (.notEnabled "BUNDLE_START")
    | none => .refused (.notEnabled "BUNDLE_START")
  | _ => .refused (.notEnabled "BUNDLE_START")

/-! ### BAND_RETIRE (R164) -/

/-- The group has ended, and its matrix commands but those behind a deferred fault, which never run again (R227). -/
def Group.over (g : Group) : Bool := !g.lives && g.mxq.all (fun c => decide ((g.tile c.tile).cause ≠ 0))

/-- Every group and helper of the band has ended, and every copy and matrix command of theirs (R164). -/
def State.bandOver (s : State) (b : Band) : Bool :=
  s.groups.all (fun g => decide (g.id.band ≠ b.uid) || g.over) &&
  s.copies.all (fun c => c.group.isNone || decide (c.band ≠ b.uid))

/-- The band's groups, its scratch and the band itself are gone. -/
def State.dropBand (s : State) (b : Band) : State :=
  { s with
    grp := if s.grp.id.band = b.uid then Group.placeholder else s.grp,
    others := s.others.filter (fun g => decide (g.id.band ≠ b.uid)),
    mem := s.mem.filter (fun c => !(decide (keyKind c.1 = 2) && decide (keyNum c.1 / 16 = b.uid))),
    bands := s.bands.filter (fun x => x.uid ≠ b.uid) }

/-- The cores on which the band's groups and helpers have run. -/
def State.bandCores (s : State) (b : Band) : List Nat :=
  (b.insts.map (fun i => coreIndex b.cluster i.core) ++ (s.groups.filter (fun g => g.id.band = b.uid)).map Group.coreNo).eraseDups

/-- The release at system scope of every access of the band. -/
def State.releaseBand (s : State) (b : Band) : State := (s.bandCores b).foldl (fun t core => t.releaseAt core 6) s

/-- Every remote byte that is still to be sent goes out, for the first group that a test picks. -/
def State.sendFor (s : State) (p : Group → Bool) : State :=
  match s.groups.find? p with
  | some g => s.asGroup g.id.uid (fun t => t.sendRemoteWrites t.remoteDirty)
  | none => s

/-- The band retires: released, reported, gone. -/
def State.retireBand (s : State) (b : Band) : State :=
  let bundle := (s.fields.find? (fun f => f.uid = b.field)).map (fun f => (f.bundle, f.sub))
  let s1 := s.dropBand b
  let s2 := match bundle with
    | some (u, i) => if b.killed then s1.onSub u i (fun x => { x with killed := true }) else s1
    | none => s1
  s2.reportBand b.field b.bandx b.cluster

/-- BAND_RETIRE (R164, R313, R314); bytes of remote devices are acknowledged first. -/
def execBandRetire (s : State) : Out :=
  match s.ev with
  | .band u =>
    match s.band? u with
    | some b =>
      if s.bandOver b then
        frontAccess "BAND_RETIRE" s (s.reportWho b.field) (s.reportGap b.field)
          (let s1 := s.releaseBand b
           if s1.remoteDirty.isEmpty then .next (s1.retireBand b)
           else
             let s2 := s1.sendFor (fun g => g.id.band = u)
             if s2.remote.length = s.remote.length then .refused (.notEnabled "BAND_RETIRE") else .next s2)
      else .refused (.notEnabled "BAND_RETIRE")
    | none => .refused (.notEnabled "BAND_RETIRE")
  | _ => .refused (.notEnabled "BAND_RETIRE")

/-! ### The end of sub-launches and bundles (R306, R307) -/

/-- Sub-launch `i` has retired. -/
def State.subDone (s : State) (b : Bundle) (i : Nat) : Bool :=
  match b.subs[i]? with
  | none => true
  | some x =>
    match x.type with
    | 1 =>
      match s.fields.find? (fun f => decide (f.bundle = b.uid) && decide (f.sub = i)) with
      | some f => decide (f.done = f.nband) || (s.closed f && (s.bandsOf f.uid (fun _ => true)).isEmpty)
      | none => true
    | 2 => !s.copies.any (fun c => c.group.isNone && decide (c.bundle = b.uid) && decide (c.sub = i))
    | _ => x.retired

/-- Sub-launch `i` has run to completion: every band of a FIELD has retired. -/
def State.subWhole (s : State) (b : Bundle) (i : Nat) : Bool :=
  match s.fields.find? (fun f => decide (f.bundle = b.uid) && decide (f.sub = i)) with
  | some f => decide (f.done = f.nband)
  | none => s.subDone b i

/-! ### DESTROY (R317) -/

/-- With FORCE, the placed bands of a queue's fields are killed and their copies stop (R317). -/
def State.killQueueBands (s : State) (i : Nat) : State :=
  let us := (s.fieldsOf i).map (·.uid)
  (s.bands.filter (fun b => us.contains b.field)).foldl (fun t b => t.killBand b.uid) s

/-- Every band and copy of a bundle has run to completion, so that its retirement wins over DESTROY (R318). -/
def State.ranWhole (s : State) (b : Bundle) : Bool :=
  (List.range b.subs.length).all (fun i => ((b.subs[i]?).map SubLaunch.after).getD true || s.subWhole b i)

/-- DESTROY begins (R317): P = 0 in the level-2 entry by which the queue was last read (the model's choice, log entry 69), no band is
placed any more, bundles that wait are abandoned, and started ones will report ABANDONED. -/
def State.destroyQueue (s : State) (fn i : Nat) (force : Bool) : State :=
  let entry2 := ((s.queues[i]?).map (·.entry2)).getD 0
  let e := (s.physDWord 0 .spread entry2).getD 0
  let s1 := s.writePhys entry2 (natBytes 8 (e &&& ~~~2).toNat)
  let s2 := (s1.onQcb i (fun q => { q with state := .destroying, force := force, byFn := fn })).writeBack i
  let s3 : State := { s2 with
    bundles := (s2.bundles.filter (fun b => decide (b.queue ≠ i) || b.started || b.early.isSome)).map (fun b =>
      if b.queue = i && b.started && !s2.ranWhole b then { b with abandoned := true } else b),
    arrivals := s2.arrivals.filter (fun a => !(s2.fieldsOf i).any (fun f => f.uid = a.field)) }
  if force then s3.killQueueBands i else s3

/-- The queue that DESTROY names: one that is known, in whatever STATE, ERROR included (R300); its QCB and entries are read again only
where the cache has lost them (R298). One that is not known is the one that a walk finds. -/
def State.knownQueue (s : State) (pasid num : Nat) : Option Nat × State :=
  match s.queueIdx pasid num with
  | some i => (some i, if ((s.queues[i]?).map (·.cached)).getD false then s else (s.walkAndRead pasid num).2)
  | none => s.walkAndRead pasid num

/-- QCTL_DESTROY (R317). -/
def execQctlDestroy (s : State) : Out :=
  qctlWrite "QCTL_DESTROY" 1 s (fun fn v t =>
    match t.knownQueue (qctlPasid v) (qctlQueue v) with
    | (some i, t1) => (t1.destroyQueue fn i (v.getLsbD 59)).onFn fn (fun r => { r with qctl := qctlAfter v true 0 })
    | (none, t1) => t1.endQctl fn v 3)

/-- DESTROY_COMPLETE (R317): every leaf has acknowledged, so the queue's bundles are all reported. -/
def execDestroyComplete (s : State) : Out :=
  match s.ev with
  | .queue i =>
    match s.queues[i]? with
    | some q =>
      if q.state = .destroying && !s.bundles.any (fun b => b.queue = i) then
        let s1 := (s.onQcb i (fun q => { q with state := .destroyed })).writeBack i
        .next (s1.onFn q.byFn (fun r => { r with qctl := qctlAfter r.qctl false 0 }))
      else .refused (.notEnabled "DESTROY_COMPLETE")
    | none => .refused (.notEnabled "DESTROY_COMPLETE")
  | _ => .refused (.notEnabled "DESTROY_COMPLETE")

/-! ### Signals and retirement (R306, R307) -/

/-- The context of a bundle has been killed. -/
def State.bundleKilled (s : State) (b : Bundle) : Bool :=
  ((s.queueOfBundle b).bind (fun q => s.ctx? q.ctx)).any (·.killed)

/-- AFTER signal `i` has its turn: every sub-launch that is no AFTER signal, and every earlier one that is, has retired. -/
def State.afterDue (s : State) (b : Bundle) (i : Nat) : Bool :=
  b.started && (List.range b.subs.length).all (fun j =>
    match b.subs[j]? with
    | some x => if x.after then decide (i ≤ j) || x.retired else s.subDone b j
    | none => true)

/-- The signal is to be performed: no band was killed, and no field was cut short (R306, R317). -/
def State.afterRuns (s : State) (b : Bundle) : Bool :=
  !b.subs.any (·.killed) && !s.bundleKilled b &&
  (List.range b.subs.length).all (fun j => ((b.subs[j]?).map SubLaunch.after).getD true || s.subWhole b j)

/-- SIGNAL_AFTER (R306). -/
def execSignalAfter (s : State) : Out :=
  match s.ev with
  | .bundle u i =>
    match s.bundle? u with
    | some b =>
      match b.subs[i]?, s.queueOfBundle b with
      | some x, some q =>
        if x.after && !x.retired && s.afterDue b i then
          let w := s.queueWho q
          let gap := match signalTarget x.bytes with
            | some (a, n) => if s.afterRuns b then s.hostGap w .write a n else none
            | none => none
          frontAccess "SIGNAL_AFTER" s w gap
            (.next ((if s.afterRuns b then s.signal q b i x.bytes else s).onSub u i (fun y => { y with retired := true })))
        else .refused (.notEnabled "SIGNAL_AFTER")
      | _, _ => .refused (.notEnabled "SIGNAL_AFTER")
    | none => .refused (.notEnabled "SIGNAL_AFTER")
  | _ => .refused (.notEnabled "SIGNAL_AFTER")

/-- The first sub-launch that a test picks, or 0xFF. -/
def Bundle.firstSub (b : Bundle) (p : Nat → SubLaunch → Bool) : Nat :=
  ((List.range b.subs.length).find? (fun i => ((b.subs[i]?).map (p i)).getD false)).getD 0xFF

/-- STATUS, DETAIL and SUB of a completion record (R307, R317): a context's kill wins over DESTROY (R318). SUB of a bundle of a killed
context no band of which was killed is the model's choice (log entry 103). -/
def State.verdict (s : State) (b : Bundle) : Nat × Nat × Nat :=
  match b.early with
  | some e => e
  | none =>
    if s.bundleKilled b then
      (5, 0, if b.subs.any (·.killed) then b.firstSub (fun _ x => x.killed) else b.firstSub (fun i x => x.after || !s.subWhole b i))
    else if b.abandoned then (4, 0, b.firstSub (fun i x => x.killed || !s.subWhole b i))
    else if b.subs.any (·.killed) then (5, 0, b.firstSub (fun _ x => x.killed))
    else if b.subs.any (fun x => x.fault.isSome) then
      (1, ((b.subs.find? (fun x => x.fault.isSome)).bind (fun x => x.fault.map (·.1))).getD 0, b.firstSub (fun _ x => x.fault.isSome))
    else (0, 0, 0xFF)

/-- The completion record; START of a bundle that never started is a free value. -/
def State.completion (s : State) (q : Queue) (b : Bundle) : List Byte :=
  let v := s.verdict b
  let off (t : Nat) : Nat := (BitVec.ofNat 64 t + s.regs.toffs[q.tenant]?.getD 0).toNat
  natBytes 1 v.1 ++ natBytes 1 v.2.2 ++ natBytes 2 v.2.1 ++ natBytes 4 0 ++ natBytes 8 b.tag.toNat ++
  natBytes 8 (if b.started then off b.startTime else (Config.freeValue s.freeIx).toNat) ++ natBytes 8 (off s.time)

/-- RDIDX over every bundle retired contiguously (R307). -/
def Queue.retireIdx (q : Queue) (i : Nat) : Queue :=
  let ds := i :: q.doneAhead
  let r := firstOpen ds ds.length q.rdidx
  { q with rdidx := r, doneAhead := ds.filter (fun d => decide (idxSub d r < 2 ^ 31)) }

/-- The bundle retires: its record, its interrupt, RDIDX, in this order (R307, R403). -/
def State.retireBundle (s : State) (q : Queue) (b : Bundle) : State :=
  let s1 :=
    if b.crec = 0 then s
    else
      match s.writeVirt (s.queueWho q) b.crec (s.completion q b) with
      | .ok t => t
      | .error c => (s.walkFront (s.queueWho q) b.crec 32).frontRecord q b 1 c 0xFF b.crec
  let cmode := if b.cmode = 0 then q.cmode else b.cmode
  let s2 := if cmode = 2 then s1.send (.msix q.tenant q.cvec) else s1
  let s3 : State := { s2 with
    bundles := s2.bundles.filter (fun x => x.uid ≠ b.uid), fields := s2.fields.filter (fun f => f.bundle ≠ b.uid),
    freeIx := s2.freeIx + 1 }
  let s4 := (s3.onQcb b.queue (fun q => q.retireIdx b.ridx)).writeBack b.queue
  let s5 := match s4.ctx? q.ctx with
    | some c => if c.ckBundle = some b.uid then s4.setCtx { c with ckBundle := none, ckPaused := false } else s4
    | none => s4
  s5.moveQueues

/-- The bundle has nothing more to do. -/
def State.bundleOver (s : State) (b : Bundle) : Bool :=
  b.early.isSome || (b.started && (List.range b.subs.length).all (s.subDone b))

/-- BUNDLE_RETIRE (R307); levels of its fields that DESTROY has left without a further band fire first (R314, R317). -/
def execBundleRetire (s : State) : Out :=
  match s.ev with
  | .bundle u _ =>
    match s.bundle? u with
    | some b =>
      match s.queueOfBundle b with
      | some q =>
        if s.bundleOver b then
          let w := s.queueWho q
          let us := (s.fields.filter (fun f => f.bundle = b.uid)).map (·.uid)
          let gap := (us.findSome? s.reportGap).or (if b.crec = 0 then none else s.hostGap w .write b.crec 32)
          let t := us.foldl (fun t v => t.fireLevels v levels) s
          frontAccess "BUNDLE_RETIRE" s w gap (.next (t.retireBundle q ((t.bundle? u).getD b)))
        else .refused (.notEnabled "BUNDLE_RETIRE")
      | none => .refused (.notEnabled "BUNDLE_RETIRE")
    | none => .refused (.notEnabled "BUNDLE_RETIRE")
  | _ => .refused (.notEnabled "BUNDLE_RETIRE")

end Sys2Proof.Machine
end

