-- ==== Sys2Proof/Machine/Contexts.lean ====
section
/-! DEFINITION. Pre-emption, the saving and resumption of contexts, checkpoints and PARKCTL (15_system_and_traps.md R279,
R280, R284 to R288, 16_launch_and_scheduling.md R315, R316). -/

namespace Sys2Proof.Machine

open Sys2Proof

/-! ### Tier 2 and tier 3 (R284, R285) -/

/-- The largest DRAIN of a context's queues, destroyed ones apart, in ns; 0 means 2,000 µs (R299, R316). -/
def State.drainOf (s : State) (ctx : Nat) : Nat :=
  (((s.queues.filter (fun q => decide (q.ctx = ctx) && decide (q.state ≠ .destroyed))).map
    (fun q => if q.drain = 0 then 2000 else q.drain)).foldl max 0) * 1000

/-- A group is saved as a region (R285): the eviction sequence, into the context save. -/
def State.saveRegion (s : State) : State :=
  s.leavesCore.releaseRecruit.releaseAll.spillDrowsy.onGrp (fun g =>
    { g.discardMx with
      region := g.region.map Region.leave, bankIds := [], remoteGot := [], preempt := .none,
      status := .saved true false })

/-- A group outside a region at a deadline overrun: a recruiter's release is forced, and PREEMPT is due; a parked group is saved
parked, and takes PREEMPT only where the host resumes it before. -/
def State.overrunOutside (s : State) (now : Nat) : State :=
  let s1 := s.onRecruit s.grp.id.uid (fun r => { r with release := true })
  if s1.grp.status = .parked then s1 else s1.preemptNow now

/-- What a deadline overrun does to one group (R285, R230). -/
def State.overrunGroup (s : State) (now : Nat) : State :=
  let s := (s.onGrp (fun g => { g with mxq := g.haltLoops.mxq, tiles := g.haltLoops.tiles })).reopened
  match s.grp.status with
  | .exited => s
  | .granted => s
  | .saved _ _ => s
  | .evicted _ _ _ => s
  | _ => if s.grp.helper.isSome then s else if s.grp.inRegion then s.saveRegion else s.overrunOutside now

/-- Every group of a list, in turn. -/
def State.overrunAll (s : State) (now : Nat) : List Nat → State
  | [] => s
  | u :: us => State.overrunAll (s.asGroup u (fun t => t.overrunGroup now)) now us

/-- Tier 3 (R285): groups by their states, copies suspended at their next granule, loops at their next K-step. -/
def State.overrun (s : State) (c : Context) : State :=
  let bands := (s.ctxBands c).map (·.uid)
  let us := (s.groups.filter (fun g => bands.contains g.id.band)).map (fun g => g.id.uid)
  let s1 : State := { s.setCtx { c with tier := 3, ckSince := s.time } with
    copies := s.copies.map (fun x => if x.ctx = c.num then x.suspend else x) }
  (s1.overrunAll s.time us).moveQueues

/-- Something of the context still runs (R284, R316): a band, a copy, or a started bundle other than its checkpoint's. -/
def State.ctxRuns (s : State) (c : Context) : Bool :=
  !(s.ctxBands c).isEmpty || s.copies.any (fun x => decide (x.ctx = c.num) && decide (c.ckBundle ≠ some x.bundle)) ||
  s.bundles.any (fun b => b.started && decide (c.ckBundle ≠ some b.uid) &&
    ((s.queueOfBundle b).map (fun q => decide (q.ctx = c.num))).getD false)

/-- DEADLINE_OVERRUN (R284, R316): the drain deadline of a slice end, or of a checkpoint, has passed. -/
def execDeadlineOverrun (s : State) : Out :=
  match s.ev with
  | .ctx n =>
    match s.ctx? n with
    | some c =>
      let slice := decide (c.tier = 2) && decide (c.deadline < s.time) &&
        (!(s.ctxBands c).isEmpty || s.copies.any (fun x => x.ctx = n))
      let check := c.ckPaused && c.ckBundle.isNone && decide (c.tier = 0) && decide (c.ckSince + s.drainOf n < s.time) && s.ctxRuns c
      if (slice || check) && !c.isSaved && !c.killed then .next (s.overrun c)
      else .refused (.notEnabled "DEADLINE_OVERRUN")
    | none => .refused (.notEnabled "DEADLINE_OVERRUN")
  | _ => .refused (.notEnabled "DEADLINE_OVERRUN")

/-- The moment from which a group's PREEMPT counts. -/
def Group.preemptSince (g : Group) : Option Nat :=
  match g.preempt with
  | .none => none
  | .due t => some t
  | .delivered t => some t

/-- PREEMPT_HANDLER_TIMEOUT (R281, R286): 100 µs of device time have passed since a group's PREEMPT was due, whether or not the group
has parked since; the context is killed. -/
def execPreemptHandlerTimeout (s : State) : Out :=
  match s.ev with
  | .ctx n =>
    if s.groups.any (fun g => decide (g.id.ctx = n) && g.lives && match g.preemptSince with
        | some t => decide (t + 100000 < s.time)
        | none => false) then .next (s.killContext n).moveQueues
    else .refused (.notEnabled "PREEMPT_HANDLER_TIMEOUT")
  | _ => .refused (.notEnabled "PREEMPT_HANDLER_TIMEOUT")

/-! ### The context save (R287) -/

/-- A group that a save may take: exited, saved, evicted, or parked when no PREEMPT was due (R285). -/
def Group.savable (g : Group) : Bool :=
  match g.status with
  | .exited => true
  | .saved _ _ => true
  | .evicted _ _ _ => true
  | .parked => decide (g.preempt = .none)
  | _ => false

/-- The save may take the group: the banks of a parked one are swept before they are read (R97). -/
def State.maySave (s : State) (g : Group) : Bool :=
  g.savable && (decide (g.status ≠ .parked) || !g.bankIds.any (s.unsweptBank g))

/-- The suspended copies of a context, in the order of their records. -/
def State.savedCopies (s : State) (n : Nat) : List CopyCmd := s.copies.filter (fun x => decide (x.ctx = n) && x.suspended)

/-- The groups of a context whose matrix commands are saved. -/
def State.mxGroups (s : State) (n : Nat) : List Group := s.groups.filter (fun g => decide (g.id.ctx = n) && !g.mxq.isEmpty)

/-- The resumable records of a context's save, the copies' before the matrix commands' (R217, R230). -/
def State.resumables (s : State) (n : Nat) : List Byte :=
  (s.savedCopies n).flatMap s.copyRecord ++ (s.mxGroups n).flatMap (fun g => g.mxq.flatMap (fun c => c.record g))

/-- The bytes of a context's save: the resumable records, and after them, as far as the area goes, what has no layout in the spec:
free bytes (R287, log entry 16). -/
def State.saveRecords (s : State) (n : Nat) : List Byte :=
  let b := s.resumables n
  b ++ (Config.saveBytes s.freeIx).take (((s.ctx? n).map (fun c => c.ssize.toNat)).getD 0 - b.length)

/-- The save is written to its area, where the records fit it and it can be written. -/
def State.writeSave (s : State) (c : Context) : State :=
  let put (t : State) (ok : Bool) : State := t.setCtx { c with
    isSaved := true, wrote := ok, savedCps := (s.savedCopies c.num).map (·.uid),
    savedMxs := (s.mxGroups c.num).flatMap (fun g => g.mxq.map (fun _ => g.id.uid)) }
  if c.ssize.toNat < (s.resumables c.num).length then put s false
  else
    match s.writeVirt c.who c.save (s.saveRecords c.num) with
    | .ok t => put t true
    | .error _ => put (s.walkFront c.who c.save (s.resumables c.num).length) false

/-- The groups of some bands as the save takes them: their stores performed (R164), and the parked ones saved parked (R285). -/
def State.saveParked (s : State) (bands : List Nat) : State :=
  let us := (s.groups.filter (fun g => bands.contains g.id.band)).map (fun g => g.id.uid)
  let s1 := us.foldl (fun t u => t.asGroup u (fun v => v.finishStores.leavesCore)) s
  s1.mapGroups (fun g => bands.contains g.id.band && decide (g.status = .parked))
    (fun g => { g with status := .saved false true, preempt := .none, bankIds := [] })

/-- CONTEXT_SAVE (R284, R287): no band is left at tier 2, or every remaining group has been saved at tier 3; a release at system
scope. Its resumable records go to the save area; what else it holds has no layout in the spec and stays in the state as well (log
entry 16). -/
def execContextSave (s : State) : Out :=
  match s.ev with
  | .ctx n =>
    match s.ctx? n with
    | some c =>
      let bands := s.ctxBands c
      let us := bands.map (·.uid)
      let idle := s.copies.all (fun x => decide (x.ctx ≠ n) || x.suspended)
      let ready := if c.tier = 3 then s.groups.all (fun g => !us.contains g.id.band || s.maySave g) && idle
        else decide (c.tier = 2) && bands.isEmpty && !s.copies.any (fun x => x.ctx = n)
      if ready && !c.isSaved && !c.killed then
        let s1 := bands.foldl State.releaseBand (s.saveParked us)
        if s1.remoteClear then
          frontAccess "CONTEXT_SAVE" s c.who (s.hostGap c.who .write c.save (s.saveRecords n).length) (.next (s1.writeSave c).moveQueues)
        else
          let s2 := s1.sendFor (fun g => us.contains g.id.band)
          if s2.remote.length = s.remote.length then .refused (.notEnabled "CONTEXT_SAVE") else .next s2
      else .refused (.notEnabled "CONTEXT_SAVE")
    | none => .refused (.notEnabled "CONTEXT_SAVE")
  | _ => .refused (.notEnabled "CONTEXT_SAVE")

/-- A command that a changed record gives to another group leaves the command register in which it stood. -/
def State.unqueue (s : State) (uid : Nat) : State :=
  let off (r : QReg) : QReg :=
    if r.copyLink.isSome && r.entries.contains (BitVec.ofNat 64 uid) then { r with entries := r.entries.filter (· ≠ BitVec.ofNat 64 uid), rel := r.rel.drop 1 } else r
  s.mapGroups (fun g => g.queues.toList.any (fun r => r.entries.contains (BitVec.ofNat 64 uid)))
    (fun g => { g with queues := g.queues.map off })

/-- Restored copy records, in their order; none where one fails its checks (R217). A command that has gone since has none. -/
def State.restoreCopies (s : State) : List (Option CopyCmd) → List Byte → Option State
  | [], _ => some s
  | none :: cs, b => State.restoreCopies s cs (b.drop 64)
  | some c :: cs, b =>
    if s.copyRecordOk c (b.take 64) then
      let d := s.copyRestored c (b.take 64)
      State.restoreCopies (if d.group = c.group then s.setCopy d else (s.unqueue c.uid).setCopy d) cs (b.drop 64)
    else none

/-- Restored matrix records, re-queued in their order; none where one fails its checks (R230). The commands of a group that has been
killed since are gone. -/
def State.restoreMx (s : State) : List (Option (Nat × MxCmd)) → List Byte → Option State
  | [], _ => some s
  | none :: cs, b => State.restoreMx s cs (b.drop 128)
  | some (band, c) :: cs, b =>
    match s.mxRecordOk band (b.take 128), s.recordGroup band (b.take 128) with
    | true, some g =>
      State.restoreMx (s.mapGroups (fun h => decide (h.id.uid = g.id.uid)) (fun h => { h with mxq := h.mxq ++ [c.restored (b.take 128)] }))
        cs (b.drop 128)
    | _, _ => none

/-- The number of bytes of a saved context's records. -/
def State.recordLength (s : State) (n : Nat) : Nat :=
  ((s.ctx? n).map (fun c => 64 * c.savedCps.length + 128 * c.savedMxs.length)).getD 0

/-- The matrix commands of a save's records, in their order, each with its band: the k-th record of a group is its k-th command. -/
def State.savedMx (s : State) (us : List Nat) : List (Option (Nat × MxCmd)) :=
  (List.range us.length).map (fun j =>
    (us[j]?.bind s.group?).bind (fun g => (g.mxq[((us.take j).filter (fun u => u = g.id.uid)).length]?).map (fun c => (g.id.band, c))))

/-- The restored records of a context, as its save area holds them (R217, R230); none where one cannot be read or fails its
checks. -/
def State.restoreRecords (s : State) (c : Context) : Option State :=
  if !c.wrote then some s
  else
    match s.readVirt c.who c.save (s.recordLength c.num) with
    | .error _ => none
    | .ok b =>
      match s.restoreCopies (c.savedCps.map s.copy?) b with
      | none => none
      | some t =>
        (t.mapGroups (fun g => decide (g.id.ctx = c.num)) (fun g => { g with mxq := [] })).restoreMx (s.savedMx c.savedMxs)
          (b.drop (64 * c.savedCps.length))

/-- A saved group comes back on a cluster (R287): its slot and banks, then its resume entry with HND = 0. -/
def State.resumeGroup (s : State) (cluster : Nat) : State :=
  let g := s.grp
  let id := { g.id with cluster := cluster, placedAt := s.clock }
  match g.status with
  | .saved restart parked =>
    let (banks, t) := s.wakeFor (coreIndex cluster id.core) id.slice id.bankNeed
    let s1 := t.onGrp (fun g => { g with
      id := id, bankIds := banks, drowsy := [], progress := 0, trapc := if parked then g.trapc else g.trapc &&& 0x7FFFFFFF,
      status := if parked then .parked else .ready })
    if parked then s1 else if restart then s1.restartRegion else s1.resumeAt g.pc
  | _ => s.onGrp (fun g => { g with id := { g.id with cluster := cluster } })

/-- The groups of a band come back one after another. -/
def State.resumeGroups (s : State) (cluster : Nat) : List Nat → State
  | [] => s
  | u :: us => State.resumeGroups (s.asGroup u (fun t => t.resumeGroup cluster)) cluster us

/-- The saved band fits a cluster: its slices, its cores, on which no other guaranteed band comes first (R266), with the tiles of its
exited groups whose commands are still to run (R229). Its harvest groups leave what guaranteed work is still to take (R251). -/
def State.bandFits (s : State) (b : Band) (cluster : Nat) : Bool :=
  let gs := s.groups.filter (fun g => decide (g.id.band = b.uid) && match g.status with
    | .saved _ _ => true
    | _ => false)
  let is := b.insts.filter (fun i => !i.exited)
  (List.range 32).all (fun k =>
    let sl := sliceIndex (coreIndex cluster (k / 4)) (k % 4)
    let mine := gs.filter (fun g => decide (g.id.core = k / 4) && decide (g.id.slice = k % 4))
    let harvest := mine.any (fun g => decide (g.id.cls = 1))
    let left := if harvest then s.leaves sl else (0, 0)
    (s.built.slices.getLsbD sl || mine.isEmpty) && decide ((s.onSlice sl).length + left.1 + mine.length ≤ 16) &&
    decide ((mine.map (fun g => g.id.bankNeed)).sum + left.2 ≤ (s.freeBanks sl ((mine.head?.map (·.id.cls)).getD 0)).length) &&
    !(harvest && s.needy.any (fun n => decide (n.1 = sl))) &&
    (decide ((mine.filter (fun g => decide (g.id.cls = 0))).length + (s.guaranteedOn sl).length ≤ 8) || mine.isEmpty)) &&
  (List.range 8).all (fun k =>
    let core := coreIndex cluster k
    let here := is.filter (fun i => i.core = k)
    let on := s.instsOn core
    here.isEmpty || (!s.servedFirst 0 b.ctx core && decide (here.length + on.length ≤ 2) &&
      decide (scratchCarve ((here.map (·.scr)) ++ on.map (fun p => p.2.scr)) ≤ 786432) &&
      decide (s.tilesUsed core +
        (((gs ++ s.groups.filter (fun g => decide (g.id.band = b.uid) && g.keepsTiles)).filter (fun g => decide (g.id.core = k))).map
          (fun g => g.id.ntiles)).sum ≤ 16)))

/-- A saved band is restored on a cluster of its die, or killed where its die is gone or being reset (R287); none where it does not
fit. A field's reports count it where it has come to (R314). -/
def State.resumeBand (s : State) (c : Context) (b : Band) (cluster : Nat) : Option State :=
  let die := dieOfCluster b.cluster
  let usable := s.usableClusters c.tenant (BitVec.ofNat 2 (2 ^ die))
  if usable.isEmpty || s.resetting die then some (s.killBand b.uid)
  else if !usable.contains cluster || !s.bandFits b cluster then none
  else
    let us := (s.groups.filter (fun g => g.id.band = b.uid)).map (fun g => g.id.uid)
    let s1 : State := { s.onBand b.uid (fun b => { b with cluster := cluster }) with
      copies := s.copies.map (fun x => if x.group.isSome && decide (x.band = b.uid) then { x with cluster := cluster } else x) }
    let s2 := ((b.insts.map (fun i => coreIndex cluster i.core)).eraseDups).foldl (fun t core => t.acquireAt core 6) s1
    some ((s2.onField b.field (fun f => f.reachCluster cluster)).resumeGroups cluster us)

/-- The saved bands of a context, each on its cluster. -/
def State.resumeBands (s : State) (c : Context) : List Band → List Nat → Option State
  | [], _ => some s
  | b :: bs, cl :: cls =>
    match s.resumeBand c b cl with
    | some t => State.resumeBands t c bs cls
    | none => none
  | _ :: _, [] => none

/-- What the saved guaranteed groups of some bands need on the clusters that are to take them (R26, R260). -/
def State.resumeNeed (s : State) (bands : List Band) (clusters : List Nat) : List (Nat × Nat × Nat) :=
  (bands.zip clusters).flatMap (fun p =>
    (s.groups.filter (fun g => decide (g.id.band = p.1.uid) && decide (g.id.cls = 0) && match g.status with
      | .saved _ _ => true
      | _ => false)).map (fun g => (sliceIndex (coreIndex p.2 g.id.core) g.id.slice, g.id.bankNeed, g.id.ntiles)))

/-- The context runs again: its records are re-queued, its copies go on, and stopped loops continue (R230). -/
def State.resumed (s : State) (c : Context) : State :=
  let n := c.num
  let s1 := (s.setCtx { (s.ctx? n).getD c with isSaved := false, wrote := false, savedCps := [], savedMxs := [], tier := 0, sliceStart := s.time }).moveQueues
  let s2 := s1.mapGroups (fun g => decide (g.id.ctx = n)) Group.startAll
  { s2 with
    copies := s2.copies.map (fun x => if x.ctx = n then { x with suspended := false } else x),
    arrivals := s2.arrivals.filter (fun a => !(a.field = 0 && a.ctx = n)) }

/-- CONTEXT_RESUME (R287): a record that fails its checks kills the context (R217, R230); guaranteed bands whose place harvest
groups hold are assigned to it, which evicts those (R26, R260). -/
def execContextResume (s : State) : Out :=
  match s.ev with
  | .resume n clusters =>
    match s.ctx? n with
    | some c =>
      if c.isSaved && !c.killed && !c.ckPaused then
        frontReads "CONTEXT_RESUME" s c.who (if c.wrote then s.hostGap c.who .read c.save (s.recordLength n) else none)
          (if c.wrote then [(c.save, s.recordLength n)] else []) (fun s =>
          match s.restoreRecords c with
           | none => .next ((s.setCtx { c with isSaved := false }).killContext n).moveQueues
           | some r =>
             match r.resumeBands c (r.ctxBands c) clusters with
             | some t => .next (t.resumed c)
             | none =>
               match (clusters.foldl State.withoutHarvest r).resumeBands c (r.ctxBands c) clusters,
                   s.assign ⟨0, n, s.resumeNeed (s.ctxBands c) clusters, []⟩ with
               | some _, some t => .next t
               | _, _ => .refused (.notEnabled "CONTEXT_RESUME"))
      else .refused (.notEnabled "CONTEXT_RESUME")
    | none => .refused (.notEnabled "CONTEXT_RESUME")
  | _ => .refused (.notEnabled "CONTEXT_RESUME")

/-- A cluster for each saved band of a context, the first that takes it. -/
def State.pickResume (s : State) (c : Context) : List Band → List Nat
  | [] => []
  | b :: bs =>
    match (List.range 48).findSome? (fun cl => (s.resumeBand c b cl).map (fun t => (cl, t))) with
    | some (cl, t) => cl :: State.pickResume t c bs
    | none => []

/-- The part with every harvest group gone. -/
def State.noHarvest (s : State) : State := (List.range 48).foldl State.withoutHarvest s

/-- The saved groups of some bands include guaranteed ones. -/
def State.hasGuaranteed (s : State) (bands : List Band) : Bool :=
  s.groups.any (fun g => decide (g.id.cls = 0) && bands.any (fun b => decide (b.uid = g.id.band)))

/-- A cluster for each saved band: with what is free now, or, where some are guaranteed, with what harvest groups hold counted as
free (R26, R260). -/
def State.pickReturn (s : State) (c : Context) : List Nat :=
  let bs := s.ctxBands c
  let now := s.pickResume c bs
  if decide (now.length = bs.length) || !s.hasGuaranteed bs then now else s.noHarvest.pickResume c bs

/-! ### The end of a slice (R315) -/

/-- The saved bands of a context find a place. -/
def State.canReturn (s : State) (c : Context) : Bool :=
  let bs := s.ctxBands c
  (s.resumeBands c bs (s.pickReturn c)).isSome ||
  (s.hasGuaranteed bs && (s.noHarvest.resumeBands c bs (s.pickReturn c)).isSome)

/-- The part with nothing of some contexts on it. -/
def State.withoutCtxs (s : State) (ns : List Nat) : State :=
  let t := s.mapGroups (fun g => ns.contains g.id.ctx) (fun g => { g with status := .exited, bankIds := [], mxq := [] })
  { t with
    bands := t.bands.filter (fun b => !ns.contains b.ctx), copies := t.copies.filter (fun x => !ns.contains x.ctx),
    arrivals := t.arrivals.filter (fun a => !ns.contains a.ctx) }

/-- The lists that leave out some entries of a list. -/
def choicesOf : List Nat → List (List Nat)
  | [] => [[]]
  | n :: ns => choicesOf ns ++ (choicesOf ns).map (n :: ·)

/-- A context holds some of what another waits for: with the contexts of some list gone the other has no room, and with this one gone
as well it has (R315, log entry 88). -/
def State.keepsRoom (s : State) (ctx waiter : Nat) (room : State → Bool) : Bool :=
  (choicesOf ((s.ctxs.map (·.num)).filter (fun n => n ≠ ctx && n ≠ waiter))).any (fun ns =>
    !room (s.withoutCtxs ns) && room (s.withoutCtxs (ctx :: ns)))

/-- A copy sub-launch's command waits for an engine. -/
def CopyCmd.wantsEngine (x : CopyCmd) : Bool :=
  x.group.isNone && x.engine.isNone && x.ended.isNone && !x.suspended && x.waitHost.isNone

/-- The command runs on engine `e` of the part. -/
def CopyCmd.runsOn (x : CopyCmd) (e : Nat) : Bool :=
  decide (x.cluster = e / 2) && decide (x.engine = some (e % 2)) && x.ended.isNone

/-- Each engine that could take a sub-launch's command has one to run, and a context's commands run on some of them (R315). -/
def State.keepsEngines (s : State) (ctx : Nat) (x : CopyCmd) : Bool :=
  let es := (List.range 96).filter (s.copyReady x)
  es.all (fun e => s.copies.any (fun d => d.runsOn e)) && es.any (fun e => s.copies.any (fun d => decide (d.ctx = ctx) && d.runsOn e))

/-- Another context has a bundle that waits for what this context holds (R315): bands that find no place, or a saved context's
that cannot come back, for want of what this context holds, alone or beside others; or a copy of a sub-launch while every engine that
could take it is at work, for this context on some (log entry 88). -/
def State.othersWait (s : State) (ctx : Nat) : Bool :=
  s.fields.any (fun f => decide (f.ctx ≠ ctx) && match s.ctx? f.ctx with
    | some o => s.mayPlace f o && !s.roomFor f o && s.keepsRoom ctx f.ctx (fun t => t.roomFor f o)
    | none => false) ||
  s.ctxs.any (fun o => decide (o.num ≠ ctx) && o.isSaved && !o.killed && !o.ckPaused && !s.canReturn o &&
    s.keepsRoom ctx o.num (fun t => t.canReturn o)) ||
  s.copies.any (fun x => decide (x.ctx ≠ ctx) && x.wantsEngine && s.keepsEngines ctx x)

/-- The slice of a context is over and another waits for what it holds (R315). -/
def State.sliceDue (s : State) (c : Context) : Bool :=
  decide (0 < c.slice) && decide (c.sliceStart + c.slice ≤ s.time) && decide (c.tier = 0) && !c.isSaved && !c.killed && s.othersWait c.num

/-- TENANT_SLICE_END (R284, R315): no band of the context launches any more. -/
def execTenantSliceEnd (s : State) : Out :=
  match s.ev with
  | .ctx n =>
    match s.ctx? n with
    | some c =>
      if s.sliceDue { c with num := n } then
        .next (s.setCtx { c with tier := 2, deadline := s.time + s.drainOf n }).moveQueues
      else .refused (.notEnabled "TENANT_SLICE_END")
    | none => .refused (.notEnabled "TENANT_SLICE_END")
  | _ => .refused (.notEnabled "TENANT_SLICE_END")

/-! ### HARVEST_RELOAD (R264, R265) -/

/-- The context of the issuing group is saved, or about to be (R285, R287); a helper that has not parked still runs its claim out
(R244, R285). -/
def State.ctxHeld (s : State) : Bool :=
  ((s.ctx? s.grp.id.ctx).map (fun c => c.isSaved || (decide (c.tier = 3) && (s.grp.helper.isNone || s.grp.hasParked)))).getD false

/-- The device physical address of the group's bittern slot (R264, R289), in the form in which its page names it; a free value for a
bittern in carve, which has none (log entry 93). -/
def State.slotPlace (s : State) : DWord :=
  match s.ctx? s.grp.id.ctx with
  | some c =>
    let va := fld c.bittern 0 57 + 352256 * s.grp.slot.getD 0
    match if fld c.bittern 60 4 = 0 then s.leafOf c.tenant c.pasid va else none with
    | some l => BitVec.ofNat 64 (l.addr va)
    | none => (Config.freeValue (s.freeIx + 1)).setWidth 64
  | none => 0

/-- HARVEST_RELOAD (R265): to the group's own core; a changed slot is a machine check on the context (R264, R289), whose
syndrome is a free value. -/
def execHarvestReload (s : State) : Out :=
  withGroup "HARVEST_RELOAD" s (fun t =>
    match t.grp.status, t.reloadSlice with
    | .evicted r true p, some sl =>
      if t.ctxHeld then .refused (.notEnabled "HARVEST_RELOAD")
      else if t.slotChanged then
        let cl := t.grp.id.cluster
        let rec_ := t.checkRecord 7 1 (BitVec.ofNat 8 (dieOfCluster cl)) (BitVec.ofNat 8 (cl % 24)) (BitVec.ofNat 8 t.grp.id.core)
          (BitVec.ofNat 8 sl) t.slotPlace ((Config.freeValue t.freeIx).setWidth 64)
        .next (({ t with freeIx := t.freeIx + 2 } : State).eccContext t.grp.id.ctx rec_)
      else .next (t.reload sl r p)
    | _, _ => .refused (.notEnabled "HARVEST_RELOAD"))

/-! ### Checkpoints (R316) -/

/-- The trigger of a context fires. -/
def Context.triggered (c : Context) (now : Nat) : Bool :=
  decide (0 < c.ckval) && ((decide (c.ckmode = 1) && decide (c.ckLast + c.ckval ≤ now)) ||
    (decide (c.ckmode = 2) && decide (c.ckval ≤ c.ckCount)))

/-- CHECKPOINT_TRIGGER (R316): held while the context is saved or paused, and where its slice ends at once, until it is resumed (R318);
triggers do not queue up. -/
def execCheckpointTrigger (s : State) : Out :=
  match s.ev with
  | .ctx n =>
    match s.ctx? n with
    | some c =>
      if c.triggered s.time && !c.paused && !c.killed && !s.sliceDue c then
        .next (s.setCtx { c with
          ckPaused := true, ckSince := s.time, ckCount := 0,
          ckLast := if c.ckmode = 1 then c.ckLast + (s.time - c.ckLast) / c.ckval * c.ckval else c.ckLast }).moveQueues
      else .refused (.notEnabled "CHECKPOINT_TRIGGER")
    | none => .refused (.notEnabled "CHECKPOINT_TRIGGER")
  | _ => .refused (.notEnabled "CHECKPOINT_TRIGGER")

/-- CHECKPOINT_BUNDLE_START (R316): the next bundle of the context's checkpoint queue starts. -/
def execCheckpointBundleStart (s : State) : Out :=
  match s.ev with
  | .bundle u _ =>
    match s.bundle? u with
    | some b =>
      match s.queueOfBundle b with
      | some q =>
        match s.ctx? q.ctx with
        | some c =>
          if q.ckq && s.startable b && s.drained c then
            let w := s.queueWho q
            frontReads "CHECKPOINT_BUNDLE_START" s w (s.firstGap w (s.startReach w b)) (readRuns (s.startReach w b))
              (fun s => .next (s.startBundle q b))
          else .refused (.notEnabled "CHECKPOINT_BUNDLE_START")
        | none => .refused (.notEnabled "CHECKPOINT_BUNDLE_START")
      | none => .refused (.notEnabled "CHECKPOINT_BUNDLE_START")
    | none => .refused (.notEnabled "CHECKPOINT_BUNDLE_START")
  | _ => .refused (.notEnabled "CHECKPOINT_BUNDLE_START")

/-! ### PARKCTL (R280) -/

/-- What PKTGT and PKCMD name. -/
structure ParkTarget where
  ctx : Nat
  bandx : Nat
  inst : Nat
  grpx : Nat
  fsel : Bool
  fqueue : Nat
  fsub : Nat
  fridx : Nat
  deriving DecidableEq, Repr

/-- The target of the two halves of PARKCTL. -/
def parkTarget (tgt cmd : DWord) : ParkTarget :=
  ⟨fld tgt 0 8, fld tgt 8 24, fld tgt 32 4, fld tgt 36 4, cmd.getLsbD 55, fld cmd 32 12, fld cmd 44 2, fld cmd 0 32⟩

/-- The field is the one that FQUEUE, FSUB and FRIDX name. -/
def State.fieldNamed (s : State) (t : ParkTarget) (f : Field) : Bool :=
  match s.bundle? f.bundle with
  | some b =>
    match s.queueOfBundle b, s.ctx? t.ctx with
    | some q, some c => decide (q.num = t.fqueue) && decide (q.pasid = c.pasid) && decide (f.sub = t.fsub) && decide (b.ridx = t.fridx)
    | _, _ => false
  | none => false

/-- The bands of the context that the target may name, before its own index is looked at. -/
def State.parkBands (s : State) (t : ParkTarget) : List Band :=
  s.bands.filter (fun b => decide (b.ctx = t.ctx) && decide (b.bandx = t.bandx) &&
    (!t.fsel || ((s.fields.find? (fun f => f.uid = b.field)).map (s.fieldNamed t)).getD false))

/-- The only member of a list. -/
def only {α : Type} : List α → Option α
  | [x] => some x
  | _ => none

/-- The one band, team or group that the target names: NOGROUP where there is none, or one in each of several fields. -/
def State.parkBand (s : State) (t : ParkTarget) : Option Band := only (s.parkBands t)

/-- The team. -/
def State.parkTeam (s : State) (t : ParkTarget) : Option Band :=
  only ((s.parkBands t).filter (fun b => ((b.inst? t.inst).map (fun i => !i.exited)).getD false))

/-- The group; helper groups are never named. -/
def State.parkGroup (s : State) (t : ParkTarget) : Option Group :=
  let bs := (s.parkBands t).map (·.uid)
  only (s.groups.filter (fun g => bs.contains g.id.band && decide (g.id.inst = t.inst) && decide (g.id.grpx = t.grpx) &&
    g.helper.isNone && g.lives))

/-- PKCMD as an operation leaves it: GO 0 and ST. -/
def pkcmdAfter (v : DWord) (st : Nat) : DWord := (v &&& 0x70803FFFFFFFFFFF) ||| BitVec.ofNat 64 (st * 2 ^ 56)

/-- The action of PARKCTL ends with a status. -/
def State.endPark (s : State) (fn : Nat) (v : DWord) (st : Nat) : State := s.onFn fn (fun r => { r with pkcmd := pkcmdAfter v st })

/-- A context by number: as it is loaded, or, where nothing has loaded it yet, as its descriptor stands. -/
def State.ctxNow (s : State) (num : Nat) : Option Context := (s.ctx? num).or ((s.loadCtx num).ctx? num)

/-- A write to PKCMD that starts action `op`: NOTOWNED for a context whose PASID is another function's (R280). -/
def parkWrite (row : String) (op : Nat) (s : State) (k : ParkTarget → State → Option State × Nat) : Out :=
  match s.ev with
  | .fnReg fn v =>
    if s.isUp && v.getLsbD 63 && decide (fld v 60 3 = op) && decide (fn < 64) then
      if (s.fnRegs fn).pkcmd.getLsbD 63 then .next s
      else
        let t := parkTarget (s.fnRegs fn).pktgt v
        if !(decide (fn = 0) || ((s.ctxNow t.ctx).map (fun c => s.ownsPasid fn c.pasid)).getD false) then
          .next (s.endPark fn v 2)
        else
          match k t s with
          | (some s1, st) => .next (s1.endPark fn v st)
          | (none, st) => .next (s.endPark fn v st)
    else .refused (.notEnabled row)
  | _ => .refused (.notEnabled row)

/-- A resume: of a parked group only. One that was parked as it was evicted or saved, and has not come back, is not (the model's
choice, log entry 102). -/
def State.parkResume (s : State) (t : ParkTarget) (nest : Bool) (h : State → State) : Option State × Nat :=
  match s.parkGroup t with
  | none => (none, 4)
  | some g =>
    if g.status ≠ .parked then (none, 3)
    else if nest && g.trapc.getLsbD 30 then (none, 5)
    else (some (s.asGroup g.id.uid h), 0)

/-- PARKCTL_RESUME_INSTRUCTION (R279, R280). -/
def execParkctlResumeInstruction (s : State) : Out :=
  parkWrite "PARKCTL_RESUME_INSTRUCTION" 0 s (fun t s1 => s1.parkResume t false State.resumeInstruction)

/-- PARKCTL_RESUME_HANDLER (R279, R280): REFUSED with NEST = 1. -/
def execParkctlResumeHandler (s : State) : Out :=
  parkWrite "PARKCTL_RESUME_HANDLER" 1 s (fun t s1 => s1.parkResume t true State.resumeHandler)

/-- PARKCTL_KILL_GROUP (R279). -/
def execParkctlKillGroup (s : State) : Out :=
  parkWrite "PARKCTL_KILL_GROUP" 2 s (fun t s1 =>
    match s1.parkGroup t with
    | some g => (some (s1.endGroup g.id.uid true), 0)
    | none => (none, 4))

/-- PARKCTL_KILL_TEAM (R279). -/
def execParkctlKillTeam (s : State) : Out :=
  parkWrite "PARKCTL_KILL_TEAM" 3 s (fun t s1 =>
    match s1.parkTeam t with
    | some b => (some (s1.killTeam b.uid t.inst), 0)
    | none => (none, 4))

/-- PARKCTL_KILL_BAND (R279). -/
def execParkctlKillBand (s : State) : Out :=
  parkWrite "PARKCTL_KILL_BAND" 4 s (fun t s1 =>
    match s1.parkBand t with
    | some b => (some (s1.killBand b.uid), 0)
    | none => (none, 4))

/-- PARKCTL_KILL_CONTEXT (R279): FSEL is ignored. -/
def execParkctlKillContext (s : State) : Out :=
  parkWrite "PARKCTL_KILL_CONTEXT" 5 s (fun t s1 =>
    match s1.ctx? t.ctx with
    | some _ => (some (s1.killContext t.ctx).moveQueues, 0)
    | none => (none, 4))

end Sys2Proof.Machine
end

