-- ==== Sys2Proof/Machine/Translation.lean ====
section
/-! DEFINITION. Ownership of registers (19_bring_up_and_health.md R366), and the events of translation and tenancy:
TLBINV, OBJCTL, ATS and PRI, tenant counters, worlds, and the VF enable (17_translation_and_tenancy.md R326 to R338,
14_harvest_regions.md R252, 18_package_host_fabric.md R346). -/

namespace Sys2Proof.Machine

open Sys2Proof

/-! ### The owner (R364, R366) -/

/-- The code of a master in OWNCTL; a VF is no master of the owner registers. -/
def ownerCode : Master → Nat
  | .fn 0 => 1
  | .fn _ => 0
  | .bmc => 2

/-- OWNER. -/
def State.owner (s : State) : Nat := (s.regs.ownctl.extractLsb' 0 2).toNat

/-- The master is the owner. -/
def State.owns (s : State) (m : Master) : Bool := decide (ownerCode m ≠ 0) && decide (s.owner = ownerCode m)

/-- Change the part's registers. -/
def State.onRegs (s : State) (h : PartRegs → PartRegs) : State := { s with regs := h s.regs }

/-- A write by a master that is not the owner is counted, saturating. -/
def State.countOwnErr (s : State) : State :=
  s.onRegs (fun r => { r with ownerr := if r.ownerr = 0xFFFFFFFF then r.ownerr else r.ownerr + 1 })

/-- A write to an owner register (R366); the PF's registers are not present in a VF (R347). -/
def State.ownWrite (s : State) (m : Master) (k : State → State) : State :=
  if s.owns m then k s else if ownerCode m = 0 then s else s.countOwnErr

/-! ### Invalidation (R327 to R329) -/

/-- Every access that has been issued is performed at system scope, as far as the part alone can bring it about: waiting release
stores, dirty bytes of L1, and stale copies in any cluster's L2 (R159). -/
def State.performAll (s : State) : State :=
  let s1 := (s.groups.filter (fun g => !g.relq.isEmpty)).foldl (fun t g => t.asGroup g.id.uid State.settleNow) s
  let s2 := ((s1.l1.map (·.core)).eraseDups).foldl (fun t core => t.releaseAt core 6) s1
  ({ s2 with l2 := s2.l2.filter (fun l => !s2.isStale l) } : State).flushHost

/-- Bytes of remote windows that groups of a PASID may have written go to their devices. -/
def State.performRemote (s : State) (pasid : Nat) : State :=
  match s.groups.find? (fun g => decide (g.id.pasid = pasid) && decide (g.id.uid ≠ 0)) with
  | some g => s.asGroup g.id.uid (fun t => t.sendRemoteWrites t.remoteDirty)
  | none => s

/-- The device pages that an entry of `log2` bytes shares with a range. -/
def touches (va log2 lo hi : Nat) : Bool := decide (va / 2 ^ log2 * 2 ^ log2 < hi) && decide (lo < (va / 2 ^ log2 + 1) * 2 ^ log2)

/-- The size of the page that an address lies in, as its leaf gives it: a block of a VF may be cached in pieces, each of
which a range that touches the block covers (R328). -/
def TlbEntry.reach (e : TlbEntry) : Nat := if e.fn = 0 then e.leaf.log2 else max 31 e.leaf.log2

/-- Translations of a range of addresses of a PASID are dropped. -/
def State.dropRange (s : State) (pasid lo hi : Nat) : State :=
  let hostReach (e : HostEntry) : Nat := ((s.leafOf e.fn e.pasid (e.vpage * 4096)).map (·.log2)).getD 18
  { s with
    tlb := s.tlb.filter (fun e => !(decide (e.pasid = pasid) && touches (e.vpage * 2 ^ e.leaf.log2) e.reach lo hi)),
    hostTlb := s.hostTlb.filter (fun e => !(decide (e.pasid = pasid) && touches (e.vpage * 4096) (hostReach e) lo hi)) }

/-- Every translation of a PASID is dropped. -/
def State.dropPasid (s : State) (pasid : Nat) : State :=
  { s with tlb := s.tlb.filter (fun e => e.pasid ≠ pasid), hostTlb := s.hostTlb.filter (fun e => e.pasid ≠ pasid) }

/-- Every translation of a function is dropped. -/
def State.dropFn (s : State) (fn : Nat) : State :=
  { s with tlb := s.tlb.filter (fun e => e.fn ≠ fn), hostTlb := s.hostTlb.filter (fun e => e.fn ≠ fn) }

/-- PASID of TLBINV, by its upper half. -/
def tlbPasid (hi : DWord) : Nat := fld hi 32 20
/-- FUNC of TLBINV. -/
def tlbFunc (hi : DWord) : Nat := fld hi 52 6
/-- NPAGE of TLBINV. -/
def tlbPages (hi : DWord) : Nat := fld hi 0 32

/-- The upper half of TLBINV as an operation leaves it. -/
def tlbAfter (hi : DWord) (go : Bool) (st : Nat) : DWord :=
  (hi &&& 0x63FFFFFFFFFFFFFF) ||| BitVec.ofNat 64 ((if go then 2 ^ 63 else 0) + st * 2 ^ 58)

/-- TLBINV ends with a status. -/
def State.endTlb (s : State) (fn : Nat) (hi : DWord) (st : Nat) : State :=
  s.onFn fn (fun r => { r with tlbinvHi := tlbAfter hi false st })

/-- TLBINV goes on: GO reads 1. -/
def State.goTlb (s : State) (fn : Nat) (hi : DWord) : State := s.onFn fn (fun r => { r with tlbinvHi := tlbAfter hi true 0 })

/-- The translations that an operation of TLBINV covers are dropped (R328, R329); the lower half holds the first page. -/
def State.dropCovered (s : State) (fn : Nat) (hi : DWord) : State :=
  match fld hi 61 2 with
  | 0 => s.dropPasid (tlbPasid hi)
  | 1 =>
    let lo := fld (s.fnRegs fn).tlbinvLo 18 39 * 2 ^ 18
    s.dropRange (tlbPasid hi) lo (lo + tlbPages hi * 2 ^ 18)
  | _ => s.dropFn (tlbFunc hi)

/-- A write to the upper half of TLBINV that starts operation `op`: ignored while GO reads 1. -/
def tlbWrite (row : String) (op : Nat) (s : State) (k : Nat → DWord → State → State) : Out :=
  match s.ev with
  | .fnReg fn hi =>
    if s.isUp && hi.getLsbD 63 && decide (fld hi 61 2 = op) && decide (fn < 64) then
      if (s.fnRegs fn).tlbinvHi.getLsbD 63 then .next s else .next (k fn hi s)
    else .refused (.notEnabled row)
  | _ => .refused (.notEnabled row)

/-- TLBINV_PASID (R328). -/
def execTlbinvPasid (s : State) : Out :=
  tlbWrite "TLBINV_PASID" 0 s (fun fn hi t =>
    if t.ownsPasid fn (tlbPasid hi) then (((t.dropCovered fn hi).performAll).performRemote (tlbPasid hi)).goTlb fn hi
    else t.endTlb fn hi 2)

/-- TLBINV_RANGE (R328). -/
def execTlbinvRange (s : State) : Out :=
  tlbWrite "TLBINV_RANGE" 1 s (fun fn hi t =>
    if tlbPages hi = 0 then t.endTlb fn hi 1
    else if t.ownsPasid fn (tlbPasid hi) then (((t.dropCovered fn hi).performAll).performRemote (tlbPasid hi)).goTlb fn hi
    else t.endTlb fn hi 2)

/-- TLBINV_STAGE2 (R328): the PF's alone; FUNC 0 names no VF. -/
def execTlbinvStage2 (s : State) : Out :=
  tlbWrite "TLBINV_STAGE2" 2 s (fun fn hi t =>
    if fn ≠ 0 then t.endTlb fn hi 2
    else if tlbFunc hi = 0 then t.endTlb fn hi 1
    else ((t.dropCovered fn hi).performAll).goTlb fn hi)

/-- A group that the operation covers holds stores that are not performed: in a region's write buffer, release stores that wait, or
stores of a remote window; or a write of the VF's memory aperture, which went through its stage 2, is still at the ordering point
(R348). -/
def State.tlbOpen (s : State) (hi : DWord) : Bool :=
  let covered (g : Group) : Bool :=
    if fld hi 61 2 = 2 then decide (g.id.fn = tlbFunc hi) else decide (g.id.pasid = tlbPasid hi)
  s.groups.any (fun g => covered g && g.lives && (!g.relq.isEmpty || (g.region.map (fun r => !r.buffer.isEmpty)).getD false)) ||
  (decide (fld hi 61 2 = 2) && s.posts.any (fun p => decide (p.fn = tlbFunc hi) && p.reqs.any (fun r => !r.cells.isEmpty))) ||
  (decide (fld hi 61 2 ≠ 2) && !s.remoteDirty.isEmpty && s.groups.any (fun g => covered g && decide (g.id.uid ≠ 0)))

/-- TLBINV_COMPLETE (R329): the translations are gone, those cached since the start too, and the accesses that used them
performed or dropped; while some are not, those that still have to leave for a remote device are sent, and there is nothing to do
while they are only waited for. -/
def execTlbinvComplete (s : State) : Out :=
  match s.ev with
  | .fn fn =>
    let hi := (s.fnRegs fn).tlbinvHi
    if decide (fn < 64) && hi.getLsbD 63 then
      let t := s.performAll
      if !t.tlbOpen hi then .next ((t.dropCovered fn hi).endTlb fn hi 0)
      else if t.sendRemoteWrites t.remoteDirty = s then .refused (.notEnabled "TLBINV_COMPLETE")
      else .next (t.sendRemoteWrites t.remoteDirty)
    else .refused (.notEnabled "TLBINV_COMPLETE")
  | _ => .refused (.notEnabled "TLBINV_COMPLETE")

/-- The host translations that an Invalidate Request covers are dropped; its size field is honoured (R326, R327). -/
def State.dropInvalid (s : State) (fn pasid : Nat) (va : DWord) (log2Size : Nat) : State :=
  let lo := va.toNat / 2 ^ log2Size * 2 ^ log2Size
  { s with
    hostTlb := s.hostTlb.filter (fun e => !(decide (e.fn = fn) && decide (e.pasid = pasid) &&
      touches (e.vpage * 4096) 12 lo (lo + 2 ^ log2Size))) }

/-- A group of the function and PASID has stores to HOST pages that are not performed: release stores that wait, or a region's
write buffer. -/
def State.hostOpen (s : State) (fn pasid : Nat) : Bool :=
  s.groups.any (fun g => decide (g.id.fn = fn) && decide (g.id.pasid = pasid) && g.lives &&
    (g.relq.any (fun r => r.cells.any (fun c => decide (keyKind c.1 = 4))) ||
     (g.region.map (fun r => r.buffer.any (fun e => match e with
       | .line l _ _ => decide (keyKind (128 * l) = 4)
       | .atom k _ _ _ => decide (keyKind k = 4)))).getD false))

/-- The oldest Invalidate Request whose accesses have all been performed at system scope or dropped is answered (R327); which
accesses are waited for is log entry 95. -/
def State.invDone (s : State) : Option State :=
  if s.invs.isEmpty then none
  else
    let t := s.performAll
    (t.invs.reverse.find? (fun i => !t.hostOpen i.1 i.2)).map (fun i =>
      ({ t with invs := t.invs.erase i } : State).send (.invalidateDone i.1))

/-- ATS_INVALIDATE_REQUEST (R327): the translations are dropped; the completion follows the accesses, at once or later. -/
def execAtsInvalidateRequest (s : State) : Out :=
  match s.ev with
  | .atsInv fn pasid va log2Size =>
    let t := (s.dropInvalid fn pasid va log2Size).performAll
    if t.hostOpen fn pasid then .next { t with invs := (fn, pasid) :: t.invs } else .next (t.send (.invalidateDone fn))
  | _ => .refused (.notEnabled "ATS_INVALIDATE_REQUEST")

/-! ### Waiting on the host (R326) -/

/-- The records that no longer wait are written, in order; the others still wait. -/
def State.flushList (s : State) : List (Nat × List Byte) → State
  | [] => s
  | (ctx, b) :: rest =>
    State.flushList (match s.ctx? ctx with
      | none => s
      | some c =>
        match s.recordGap c b.length with
        | none => (s.writeRecord ctx b).dropFailed c.who
        | some v => ({ s with records := s.records ++ [(ctx, b)] } : State).askFront c.tenant c.pasid v) rest

/-- The failed remote writes whose records are written are done with: their bytes no longer hold a release back (R357). -/
def State.dropLost (t s : State) : State :=
  let gone := s.lost.filter (fun l => !t.records.any (fun r => r.1 = l.1))
  { t with
    lost := s.lost.filter (fun l => t.records.any (fun r => r.1 = l.1)),
    remoteDirty := t.remoteDirty.filter (fun c => !gone.any (fun l => l.2.contains c)) }

/-- Records that waited for a page of the fault area are looked at again (R403); the kill that waited for them follows (R178). -/
def State.flushRecords (s : State) : State :=
  let t := ({ s with records := [] } : State).flushList s.records
  (t.ctxs.filter (fun c => c.killDue && !t.records.any (fun r => r.1 = c.num))).foldl (fun u c => u.killContext c.num)
    (t.dropLost s)

/-- The group waits for the page of a request. -/
def Group.waitsHost (g : Group) (q : AtsReq) : Bool :=
  decide (g.id.fn = q.fn) && decide (g.id.pasid = q.pasid) &&
  match g.waiting? with
  | some (.host v) => decide (v = q.vpage)
  | some (.hostWord v _ _ _) => decide (v = q.vpage)
  | _ => false

/-- How a group that waited for the host's translation goes on: a WAITV with its poll, whose t0 it keeps (R182), any other instruction
from its start. -/
def Group.afterHost (g : Group) : Status :=
  match g.waiting? with
  | some (.hostWord _ f p since) => .waiting (.word f p since)
  | _ => .ready

/-- What waited for the page goes on: groups, copies, stores of tiles and prefetches; `denied` where the host has refused it. -/
def State.wakeHost (s : State) (q : AtsReq) (denied : Bool) : State :=
  let s1 := s.mapGroups (fun g => g.waitsHost q) (fun g => { g with status := g.afterHost, denied := denied })
  let s2 := s1.mapGroups (fun g => decide (g.id.fn = q.fn) && decide (g.id.pasid = q.pasid)) (fun g =>
    { g with mxq := g.mxq.map (fun c =>
        if c.waitHost = some q.vpage then { c with waitHost := none, denied := denied } else c) })
  ({ s2 with
    copies := s2.copies.map (fun c =>
      if decide (c.fn = q.fn) && decide (c.pasid = q.pasid) && decide (c.waitHost = some q.vpage) then
        { c with waitHost := none, denied := denied }
      else c) } : State).servePrefsNow

/-- A request of the list changes. -/
def State.setAts (s : State) (q : AtsReq) : State := { s with ats := s.ats.map (fun r => if r.id = q.id then q else r) }

/-- The page requests that are outstanding (R345). -/
def State.pagesOut (s : State) : Nat := s.ats.countP (fun q => q.pri && !q.held && !q.failed)

/-- A page request goes out (R326), or waits while 512 are outstanding (R345). -/
def State.askPage (s : State) (q : AtsReq) : State :=
  if s.pagesOut < 512 then
    ((s.setAts { q with pri := true, held := false, since := s.time }).send
      (.priRequest q.id q.fn q.pasid (BitVec.ofNat 64 (q.vpage * 4096)))).countEvent q.fn 12 1
  else s.setAts { q with pri := true, held := true }

/-- The page requests that waited go out, in their order, as far as the limit lets them (R345). -/
def State.sendPages (s : State) : State := (s.ats.reverse.filter (fun q => q.held)).foldl State.askPage s

/-- ATS_COMPLETION (R326): rights are cached, or a page is asked for; a completion that no request awaits is discarded
(R338). -/
def execAtsCompletion (s : State) : Out :=
  match s.ev with
  | .ats id granted host =>
    match s.ats.find? (fun q => decide (q.id = id) && !q.pri && !q.failed) with
    | none => .next s
    | some q =>
      if granted.toNat % 4 = 0 then .next (s.askPage q)
      else
        let e : HostEntry := ⟨q.fn, q.pasid, q.vpage, host.toNat / 4096, granted.getLsbD 0, granted.getLsbD 1⟩
        let s1 : State := { s with hostTlb := e :: s.hostTlb, ats := s.ats.filter (fun r => r.id ≠ id) }
        .next (s1.wakeHost q false).flushRecords
  | _ => .refused (.notEnabled "ATS_COMPLETION")

/-- The host refuses the page: TRANSL, or CAUSE 1 for an engine; the front end takes note in its turn. -/
def State.refusePage (s : State) (q : AtsReq) : State :=
  let s1 : State := if q.front then s.setAts { q with failed := true } else { s with ats := s.ats.filter (fun r => r.id ≠ q.id) }
  (s1.wakeHost q true).flushRecords.sendPages

/-- PRI_RESPONSE (R326); one that comes later than 100 ms is as Invalid Request, whatever it says. -/
def execPriResponse (s : State) : Out :=
  match s.ev with
  | .pri id success =>
    match s.ats.find? (fun q => decide (q.id = id) && q.pri && !q.held && !q.failed) with
    | none => .next s
    | some q =>
      if success && decide (s.time ≤ q.since + 100000000) then
        .next (((s.setAts { q with pri := false, since := s.time }).send
          (.atsRequest q.id q.fn q.pasid (BitVec.ofNat 64 (q.vpage * 4096)))).countEvent q.fn 11 1).sendPages
      else .next (s.refusePage q)
  | _ => .refused (.notEnabled "PRI_RESPONSE")

/-- PRI_TIMEOUT (R326): as Invalid Request. -/
def execPriTimeout (s : State) : Out :=
  match s.ev with
  | .req id =>
    match s.ats.find? (fun q => decide (q.id = id) && q.pri && !q.held && !q.failed) with
    | some q =>
      if q.since + 100000000 < s.time then .next (s.refusePage q) else .refused (.notEnabled "PRI_TIMEOUT")
    | none => .refused (.notEnabled "PRI_TIMEOUT")
  | _ => .refused (.notEnabled "PRI_TIMEOUT")

/-! ### The object table (R330, R333) -/

/-- The rights of a record have no reserved bit. -/
def rightsOk (r : Nat) (allowed : List Nat) : Bool := (List.range 8).all (fun k => allowed.contains k || decide (r / 2 ^ k % 2 = 0))

/-- A TENSOR record; its FMT is not judged (R333). -/
def tensorOf (b : List Byte) : Option ObjRec :=
  let rank := natAt b 2 1
  let swz := natAt b 4 1
  let base := dwordAt b 8
  let ext := five b 16
  let xidx := natAt b 6 2
  if decide (1 ≤ rank) && decide (rank ≤ 5) && rightsOk (natAt b 3 1) [0, 1, 2, 3, 4] && decide (swz ≤ 7) && zeroAt b 5 1 &&
      (decide (fld base 57 7 = 0) || decide (fld base 60 4 = 1)) && decide (locBase base % (16 * 2 ^ swz) = 0) &&
      (List.finRange 5).all (fun k => decide (k.val < rank) || decide (ext[k] = 1)) && zeroAt b 52 12 then
    some (.tensor
      { fmt := BitVec.ofNat 8 (natAt b 1 1), rank := rank, rights := BitVec.ofNat 8 (natAt b 3 1), swz := swz, xidx := xidx,
        base := base, ext := ext,
        stride := Vector.ofFn (fun k => if k.val = 0 then 1 else natAt b (36 + 4 * (k.val - 1)) 4) })
  else none

/-- A record that INSTALL accepts, but for what other records say (R330); an empty record is none. -/
def recordOf (b : List Byte) : Option (Option ObjRec) :=
  match natAt b 0 1 with
  | 0 => some none
  | 1 => (tensorOf b).map some
  | 2 =>
    if zeroAt b 1 2 && rightsOk (natAt b 3 1) [0, 4] && zeroAt b 4 4 && decide (natAt b 8 2 < 4096) &&
        decide (1 ≤ natAt b 10 2) && decide (natAt b 10 2 ≤ 256) && zeroAt b 12 52 then
      some (some (.board (BitVec.ofNat 8 (natAt b 3 1)) (natAt b 8 2) (natAt b 10 2)))
    else none
  | 3 => if zeroAt b 1 3 && zeroAt b 44 20 then some (some (.extent (five b 4) (five b 24))) else none
  | _ => none

/-- INDEX of OBJCTL. -/
def objIndex (v : DWord) : Nat := fld v 0 16
/-- CTX of OBJCTL. -/
def objCtx (v : DWord) : Nat := fld v 16 8

/-- OBJCTL as an operation leaves it. -/
def objctlAfter (v : DWord) (go : Bool) (st : Nat) : DWord :=
  (v &&& 0x6000000000FFFFFF) ||| BitVec.ofNat 64 ((if go then 2 ^ 63 else 0) + st * 2 ^ 58)

/-- OBJCTL holds its value and a status. -/
def State.setObjctl (s : State) (fn : Nat) (v : DWord) (go : Bool) (st : Nat) : State :=
  s.onFn fn (fun r => { r with objctl := objctlAfter v go st })

/-- The board records of other indices that name a board: the context and NSLOT of each. -/
def State.boardRecords (s : State) (ctx idx num : Nat) : List (Nat × Nat) :=
  s.ctxs.flatMap (fun c => c.objs.filterMap (fun o =>
    match o.2 with
    | .board _ n slots => if n = num && !(c.num = ctx && o.1 = idx) then some (c.num, slots) else none
    | _ => none))

/-- An index of a context is uninstalled. -/
def Context.uninstall (c : Context) (idx : Nat) : Context := { c with objs := c.objs.filter (fun o => o.1 ≠ idx) }

/-- Put a record at an index of a context. -/
def Context.install (c : Context) (idx : Nat) (r : ObjRec) : Context := { c with objs := (idx, r) :: (c.uninstall idx).objs }

/-- The status of INSTALL of a record that has been read, and the state (R333): a board that no other record of the context
names is cleared. -/
def State.installRecord (s : State) (c : Context) (idx : Nat) (r : ObjRec) : Nat × State :=
  match r with
  | .board _ num nslot =>
    let others := s.boardRecords c.num idx num
    if others.any (fun o => o.1 ≠ c.num) then (4, s)
    else if others.any (fun o => o.2 ≠ nslot) then (3, s)
    else (0, (if others.isEmpty then { s with boards := s.boards.filter (fun b => b.num ≠ num) } else s).setCtx (c.install idx r))
  | _ => (0, s.setCtx (c.install idx r))

/-- INSTALL, once the pages of the record need no answer of the host; of a record in a REMOTE page it reads the bytes of the window
that it has, and asks for none (the model's choice, log entry 104). -/
def State.install (s : State) (fn : Nat) (v : DWord) (c : Context) : State :=
  match s.readVirt c.who (c.objtab + BitVec.ofNat 64 (64 * objIndex v)) 64 with
  | .error _ => s.setObjctl fn v false 3
  | .ok b =>
    match recordOf b with
    | none => s.setObjctl fn v false 3
    | some none => (s.setCtx (c.uninstall (objIndex v))).setObjctl fn v false 0
    | some (some r) =>
      let (st, t) := s.installRecord c (objIndex v) r
      t.setObjctl fn v false st

/-- The context that OBJCTL names, read where it is not known yet. -/
def State.objContext (s : State) (num : Nat) : Option Context × State :=
  match s.ctx? num with
  | some c => (some c, s)
  | none =>
    let t := s.loadCtx num
    (t.ctx? num, t)

/-- The function may name the context: it is one of its PASIDs'. -/
def State.ownsCtx (s : State) (fn : Nat) (c : Context) : Bool := ((s.pasidEntry c.pasid).map (fun e => decide (e.1 = fn))).getD false

/-- An operation of OBJCTL: NOTOWNED, BADOP for an index at or above OBJN, or on with the context. -/
def objRun (fn : Nat) (v : DWord) (s : State) (k : Context → State → Out) : Out :=
  match s.objContext (objCtx v) with
  | (none, t) => .next (t.setObjctl fn v false 2)
  | (some c, t) =>
    if !t.ownsCtx fn c then .next (t.setObjctl fn v false 2)
    else if c.objn ≤ objIndex v then .next (t.setObjctl fn v false 1)
    else k c t

/-- A write to OBJCTL that starts operation `op`, or, by the function alone, the operation that goes on (R333); a write while GO reads
1 is ignored, and no write ends BUSY (the model's choice, log entry 104). -/
def objWrite (row : String) (op : Nat) (s : State) (k : Context → Nat → DWord → State → Out) : Out :=
  match s.ev with
  | .fnReg fn v =>
    if s.isUp && v.getLsbD 63 && decide (fld v 61 2 = op) && decide (fn < 64) then
      if (s.fnRegs fn).objctl.getLsbD 63 then .next s else objRun fn v s (fun c t => k c fn v t)
    else .refused (.notEnabled row)
  | .fn fn =>
    let v := (s.fnRegs fn).objctl
    if v.getLsbD 63 && decide (fld v 61 2 = op) && decide (fn < 64) then objRun fn v s (fun c t => k c fn v t)
    else .refused (.notEnabled row)
  | _ => .refused (.notEnabled row)

/-- OBJCTL_INSTALL (R333): it waits, with GO reading 1, while the host is asked for the record's page. -/
def execObjctlInstall (s : State) : Out :=
  objWrite "OBJCTL_INSTALL" 0 s (fun c fn v t =>
    match t.hostGap c.who .read (c.objtab + BitVec.ofNat 64 (64 * objIndex v)) 64 with
    | some p =>
      if (t.fnRegs fn).objctl.getLsbD 63 && (t.atsFor c.tenant c.pasid p).isSome then .refused (.notEnabled "OBJCTL_INSTALL")
      else .next ((t.askFront c.tenant c.pasid p).setObjctl fn v true 0)
    | none =>
      .next (((t.asksFront c.who [(c.objtab + BitVec.ofNat 64 (64 * objIndex v), 64)]).install fn v c).dropFailed c.who))

/-- OBJCTL_REMOVE (R333). -/
def execObjctlRemove (s : State) : Out :=
  objWrite "OBJCTL_REMOVE" 1 s (fun c fn v t =>
    .next ((t.setCtx (c.uninstall (objIndex v))).setObjctl fn v false 0))

/-! ### Tenant counters, the class split and the aperture size (R252, R335, R346) -/

/-- TCSEL byte `k` takes a value, of which 13 to 255 read as 0, and counter k of every tenant is cleared. -/
def PartRegs.setTcsel (r : PartRegs) (k : Nat) (x : Byte) : PartRegs :=
  if k < 12 then
    { r with
      tcsel := r.tcsel.setIfInBounds k (if x.toNat < 13 then x else 0), tcount := r.tcount.map (fun v => v.setIfInBounds k 0) }
  else r

/-- TCSEL bytes from `k` on. -/
def PartRegs.setTcsels (r : PartRegs) (k : Nat) : List Byte → PartRegs
  | [] => r
  | x :: xs => PartRegs.setTcsels (r.setTcsel k x) (k + 1) xs

/-- TCSEL_WRITE (R335), of a part that is up (R363). -/
def execTcselWrite (s : State) : Out :=
  match s.ev with
  | .reg m off size v =>
    if s.isUp && (decide (size = 4) || decide (size = 8)) && decide (0x240 ≤ off) && decide (off < 0x250) && decide (off % size = 0) then
      .next (s.ownWrite m (fun t => t.onRegs (fun r => r.setTcsels (off - 0x240) (natBytes size v.toNat))))
    else .refused (.notEnabled "TCSEL_WRITE")
  | _ => .refused (.notEnabled "TCSEL_WRITE")

/-- A field of CLASSCFG, where the new value lies in its range. -/
def classField (old new : Word) (lo len a b : Nat) : Nat :=
  let x := (new.extractLsb' lo len).toNat
  (if a ≤ x ∧ x ≤ b then x else (old.extractLsb' lo len).toNat) * 2 ^ lo

/-- CLASSCFG after a write (R252). -/
def classcfgNext (old new : Word) : Word :=
  BitVec.ofNat 32 (classField old new 0 5 8 16 + classField old new 5 6 16 32 + classField old new 11 7 0 100)

/-- CLASSCFG_WRITE (R252), of a part that is up (R363). -/
def execClasscfgWrite (s : State) : Out :=
  match s.ev with
  | .master m v =>
    if s.isUp then .next (s.ownWrite m (fun t => t.onRegs (fun r => { r with classcfg := classcfgNext r.classcfg (loHalf v) })))
    else .refused (.notEnabled "CLASSCFG_WRITE")
  | _ => .refused (.notEnabled "CLASSCFG_WRITE")

/-- VFAPSZ_WRITE (R346), of a part that is up (R363). -/
def execVfapszWrite (s : State) : Out :=
  match s.ev with
  | .master m v =>
    if s.isUp then
      .next (s.ownWrite m (fun t => t.onRegs (fun r =>
        if r.vfEnable || !(decide (30 ≤ fld v 0 6) && decide (fld v 0 6 ≤ 46)) then r
        else { r with vfapsz := BitVec.ofNat 64 (fld v 0 6) })))
    else .refused (.notEnabled "VFAPSZ_WRITE")
  | _ => .refused (.notEnabled "VFAPSZ_WRITE")

/-- VF_ENABLE_SET (R346): VFAPSZ is in force from now on. -/
def execVfEnableSet (s : State) : Out :=
  if s.regs.vfEnable || !s.enumerated then .refused (.notEnabled "VF_ENABLE_SET")
  else .next (s.onRegs (fun r => { r with vfEnable := true, vfapInForce := r.vfapsz }))

/-! ### Worlds (R337) -/

/-- WORLD_REGISTER_WRITE (R337): by the security processor; bases and limits are 4 KiB aligned. -/
def execWorldRegisterWrite (s : State) : Out :=
  match s.ev with
  | .world .fnWorld v _ => .next (s.onRegs (fun r => { r with fnWorld := v }))
  | .world .clWorld v _ => .next (s.onRegs (fun r => { r with clWorld := v.setWidth 48 }))
  | .world (.secReg n valid) v lim =>
    .next (s.onRegs (fun r => { r with
      secReg := r.secReg.set n.val ⟨valid, v &&& 0xFFFFFFFFFFFFF000, lim &&& 0xFFFFFFFFFFFFF000⟩ }))
  | _ => .refused (.notEnabled "WORLD_REGISTER_WRITE")

/-! ### Clearing the VF enable (R338) -/

/-- Bands of a context leave the part without a report. -/
def State.tearDown (s : State) (ctx : Nat) : State :=
  let s1 := s.killContext ctx
  (s1.bands.filter (fun b => b.ctx = ctx)).foldl State.dropBand s1

/-- The work of one VF is torn down (R338); the function's own registers return to their reset values. -/
def State.clearVf (s : State) (fn : Nat) : State :=
  let ctxs := (s.ctxs.filter (fun c => c.tenant = fn)).map (·.num)
  let qs := (List.range s.queues.length).filter (fun i => ((s.queues[i]?).map (fun q => decide (q.tenant = fn))).getD false)
  let s1 := ctxs.foldl State.tearDown s
  let s2 := (s1.queues.filter (fun q => decide (q.tenant = fn) && decide (q.state = .destroying))).foldl
    (fun t q => t.onFn q.byFn (fun r => { r with qctl := qctlAfter r.qctl false 0 })) s1
  let s3 : State := { s2 with
    posts := s2.posts.filter (fun p => p.fn ≠ fn),
    fields := s2.fields.filter (fun f => !ctxs.contains f.ctx),
    bundles := s2.bundles.filter (fun b => !qs.contains b.queue),
    queues := s2.queues.map (fun q => if q.tenant = fn then { q with state := .destroyed } else q),
    copies := s2.copies.filter (fun c => c.fn ≠ fn),
    boards := s2.boards.filter (fun b => !s2.ctxs.any (fun c => decide (c.tenant = fn) && c.objs.any (fun o =>
      match o.2 with
      | .board _ n _ => decide (n = b.num)
      | _ => false))),
    ats := s2.ats.filter (fun q => q.fn ≠ fn), invs := s2.invs.filter (fun i => i.1 ≠ fn),
    records := s2.records.filter (fun r => !ctxs.contains r.1), lost := s2.lost.filter (fun l => !ctxs.contains l.1),
    prefs := s2.prefs.filter (fun p => p.fn ≠ fn),
    ctxs := s2.ctxs.filter (fun c => c.tenant ≠ fn) }
  (s3.dropFn fn).onFn fn (fun _ => FnRegs.reset)

/-- VF_ENABLE_CLEAR (R338): VF Enable is cleared, or a function-level reset reaches one VF. -/
def execVfEnableClear (s : State) : Out :=
  match s.ev with
  | .vf (some fn) => if 1 ≤ fn ∧ fn < 64 then .next (s.clearVf fn).sendPages else .refused (.notEnabled "VF_ENABLE_CLEAR")
  | .vf none =>
    .next (((List.range 63).foldl (fun t k => t.clearVf (k + 1)) s).onRegs (fun r => { r with vfEnable := false })).sendPages
  | _ => .refused (.notEnabled "VF_ENABLE_CLEAR")

end Sys2Proof.Machine
end

