-- ==== Sys2Proof/Machine/Fabric.lean ====
section
/-! DEFINITION. The Sahig link: route and window tables, send allowances, remote answers and failures, inbound requests,
links, and the performing of accesses (18_package_host_fabric.md R350 to R358, 08_ordering.md R159). -/

namespace Sys2Proof.Machine

open Sys2Proof

/-! ### Tables (R351, R356) -/

/-- The bits of a register in the layout of QTROOT that are not reserved (R296). -/
def rootMask : DWord := 0x00003FFFFFFFF001

/-- FRTROOT_WRITE (R351), of a part that is up (R363): the route cache is emptied. -/
def execFrtrootWrite (s : State) : Out :=
  match s.ev with
  | .master m v =>
    if s.isUp then .next (s.ownWrite m (fun t => { t.onRegs (fun r => { r with frtroot := v &&& rootMask }) with routes := [] }))
    else .refused (.notEnabled "FRTROOT_WRITE")
  | _ => .refused (.notEnabled "FRTROOT_WRITE")

/-- An entry of the inbound window table, where it is valid (R356). -/
def windowOf (b : List Byte) : Option InWindow :=
  let flags := natAt b 0 1
  if decide (flags % 2 = 1) && decide (flags < 64) && decide (flags / 16 ≠ 0) && decide (natAt b 1 1 < 64) && zeroAt b 2 2 &&
      decide (natAt b 4 4 < 2 ^ 20) && decide (natAt b 8 4 < 2 ^ 20) && zeroAt b 12 4 && decide (natAt b 16 8 % 2 ^ 18 = 0) &&
      decide (natAt b 24 8 % 2 ^ 18 = 0) && zeroAt b 40 24 then
    some
      { r := decide (flags / 2 % 2 = 1), w := decide (flags / 4 % 2 = 1), secure := decide (flags / 8 % 2 = 1),
        form := flags / 16, tenant := natAt b 1 1, srcId := BitVec.ofNat 20 (natAt b 4 4),
        srcMask := BitVec.ofNat 20 (natAt b 8 4), base := natAt b 16 8, limit := natAt b 24 8, target := natAt b 32 8 }
  else none

/-- The windows that FINROOT names, in index order. -/
def State.readWindows (s : State) (root : DWord) : List InWindow :=
  match rootBase root with
  | none => []
  | some base => (List.range 64).filterMap (fun i => (s.physBytes (base + 64 * i) 64).bind windowOf)

/-- FINROOT_WRITE (R356), of a part that is up (R363): the table as it stands takes effect. -/
def execFinrootWrite (s : State) : Out :=
  match s.ev with
  | .master m v =>
    if s.isUp then
      .next (s.ownWrite m (fun t =>
        { t.onRegs (fun r => { r with finroot := v &&& rootMask }) with windows := t.readWindows (v &&& rootMask) }))
    else .refused (.notEnabled "FINROOT_WRITE")
  | _ => .refused (.notEnabled "FINROOT_WRITE")

/-! ### Inbound requests (R350, R356) -/

/-- The form of an entry's target (R344). -/
def windowForm (form : Nat) : PageKind :=
  match form with
  | 1 => .loc 0
  | 2 => .loc 1
  | _ => .spread

/-- The keys of `n` bytes of device physical memory in a form, none where one lies outside it or in secure memory that the
agent may not reach (R337, R344). -/
def State.formKeys (s : State) (form : PageKind) (secure : Bool) (pa : Nat) : Nat → Option (List Nat)
  | 0 => some []
  | n + 1 =>
    match s.built.homeKey form pa, State.formKeys s form secure (pa + 1) n with
    | some k, some ks => if s.regs.secureAt pa && !secure then none else some (k :: ks)
    | _, _ => none

/-- A request is answered with a NAK, in its class, and counted. -/
def State.refuseFabric (s : State) (src : BitVec 20) (cls : Nat) : State :=
  (s.onRegs (fun r => { r with ferrcnt := r.ferrcnt + 1 })).send (.fabricNak src cls)

/-- The bytes of the flit that carries `n` bytes of data, or none (R353). -/
def flitBytes (n : Nat) : Nat := if n ≤ 32 then 64 else 256

/-- The bytes of an inbound request and the tag of its window, where one admits it. -/
def State.inboundKeys (s : State) (src : BitVec 20) (a n : Nat) (write : Bool) : Option (List Nat × Nat) :=
  if !s.regs.fdevid.getLsbD 31 then none
  else
    match s.windows.find? (fun w => decide ((src ^^^ w.srcId) &&& w.srcMask = 0) && decide (w.base ≤ a) && decide (a < w.limit)) with
    | none => none
    | some w =>
      if (if write then w.w else w.r) && decide (a + n ≤ w.limit) then
        (s.formKeys (windowForm w.form) w.secure (w.target + (a - w.base)) n).map (fun ks => (ks, w.tenant))
      else none

/-- INBOUND_FABRIC_REQUEST (R356): a write is acknowledged when it is performed at system scope; the answer travels in the class of the
request (R352), and the flits count for the window's tenant (R335). -/
def execInboundFabricRequest (s : State) : Out :=
  match s.ev with
  | .fabric src cls addr write count =>
    let n := (write.map List.length).getD count
    match s.inboundKeys src addr.toNat n write.isSome with
    | none => .next (s.refuseFabric src cls)
    | some (ks, tag) =>
      match write with
      | some bytes =>
        .next (((((s.countEvent tag 9 (flitBytes n)).countEvent tag 8 64).atMsc tag false ks).writeKeys ks bytes).send (.fabricAck src cls))
      | none => .next ((((s.countEvent tag 9 64).countEvent tag 8 (flitBytes n)).atMsc tag true ks).send (.fabricData src cls (ks.map s.backing)))
  | _ => .refused (.notEnabled "INBOUND_FABRIC_REQUEST")

/-! ### Sending (R353 to R355) -/

/-- The units of a request's flit: a write of more than 64 bytes takes a 256-byte flit. -/
def RemoteReq.units (r : RemoteReq) : Nat := if 64 < ((r.write.map List.length).getD 0) then 4 else 1

/-- The allowance of a port, a compute die and a class. -/
def allowKey (port die cls : Nat) : Nat := 4 * port + 2 * die + cls

/-- What is left of an allowance in this window. -/
def State.allowLeft (s : State) (k : Nat) : Nat := ((s.allowance.find? (fun a => a.1 = k)).map (·.2)).getD 0

/-- FPALLOW's field of an allowance (R354). -/
def State.allowOf (s : State) (port die cls : Nat) : Nat := fld (s.regs.fpallow[port]?.getD 0) (32 * die + 16 * cls) 16

/-- Every allowance, full. -/
def State.fullAllowance (s : State) : List (Nat × Nat) :=
  (List.range 24).flatMap (fun p => (List.range 4).map (fun k => (allowKey p (k / 2) (k % 2), s.allowOf p (k / 2) (k % 2))))

/-- The place of a request in the order of R355. -/
def State.flitRank (s : State) (r : RemoteReq) : Nat :=
  let within := decide (r.units ≤ s.allowLeft (allowKey r.port r.die r.cls))
  if r.cls = 0 then (if within then 1 else 3) else (if within then 2 else 4)

/-- The request's flit is the next of its class and die on its port: flits leave in the order in which they were queued (R355). -/
def State.flitHead (s : State) (r : RemoteReq) : Bool :=
  !r.sent && s.remote.all (fun q => q.sent || decide (q.port ≠ r.port) || decide (q.die ≠ r.die) || decide (q.cls ≠ r.cls) || decide (r.id ≤ q.id))

/-- The request's flit is the next of its die on its port, whose routes take requests, or, while the die is being reset, its
write-backs (R341, R343). -/
def State.mayFlit (s : State) (r : RemoteReq) : Bool :=
  s.flitHead r && decide (s.portLinks r.port ≠ 0) && (!s.resetting r.die || r.write.isSome) &&
  s.remote.all (fun q => !s.flitHead q || decide (q.port ≠ r.port) || decide (q.die ≠ r.die) || decide (q.cls = r.cls) ||
    decide (s.flitRank r < s.flitRank q))

/-- The tenant whose tag a remote request carries (R334). -/
def State.remoteTenant (s : State) (r : RemoteReq) : Nat := ((s.ctx? r.ctx).map (·.tenant)).getD 0

/-- An answer to a remote request has come, in a flit of `n` bytes (R335, R353). -/
def State.countAnswer (s : State) (r : RemoteReq) (n : Nat) : State := s.countEvent (s.remoteTenant r) 9 n

/-- The flit leaves, its allowance is used, and its bytes are counted (R335). -/
def State.sendFlit (s : State) (r : RemoteReq) : State :=
  let k := allowKey r.port r.die r.cls
  (({ s with
    remote := s.remote.map (fun q => if q.id = r.id then { q with sent := true } else q),
    allowance := s.allowance.map (fun a => if a.1 = k then (k, a.2 - r.units) else a) } : State).countEvent
      (s.remoteTenant r) 8 (64 * r.units)).send (.fabricRequest r.id r.dev r.raddr r.cls r.write)

/-- Past a microsecond boundary the allowances have refilled, and links that came back have rejoined. -/
def State.newWindow (s : State) : State :=
  { s with
    window := s.time / 1000, allowance := s.fullAllowance,
    built := { s.built with links := s.built.links ||| s.built.linkBack, linkBack := 0 } }

/-- FABRIC_WINDOW_START (R355, R358): on a microsecond boundary the allowances refill, and links that came back rejoin. -/
def execFabricWindowStart (s : State) : Out :=
  if s.window < s.time / 1000 then .next s.newWindow else .refused (.notEnabled "FABRIC_WINDOW_START")

/-- The window in force: no allowance outlives its microsecond (R355). -/
def State.inWindow (s : State) : State := if s.window < s.time / 1000 then s.newWindow else s

/-! ### Answers and failures (R352, R357, R358) -/

/-- A remote request by id. -/
def State.remote? (s : State) (id : Nat) : Option RemoteReq := s.remote.find? (fun r => r.id = id)

/-- A remote request is over. -/
def State.dropRemote (s : State) (id : Nat) : State := { s with remote := s.remote.filter (fun r => r.id ≠ id) }

/-- Bytes at rising keys in an overlay. -/
def overlaySets (o : Memory) (key : Nat) : List Byte → Memory
  | [] => o
  | x :: xs => overlaySets (overlaySet o key x) (key + 1) xs

/-- The bytes of a remote read reach the group that waits for them. -/
def State.giveRemote (s : State) (r : RemoteReq) (bytes : List Byte) : State :=
  s.mapGroups (fun g => decide (r.group = some g.id.uid))
    (fun g => { g with remoteGot := overlaySets g.remoteGot (keyRemote r.dev r.raddr) bytes })

/-- The cluster into whose L2 the line of a remote read comes. -/
def State.remoteCluster (s : State) (r : RemoteReq) : Option Nat :=
  match r.pref with
  | some p => some (clusterOfCore p.1)
  | none => (r.group.bind s.group?).map (fun g => g.id.cluster)

/-- A line that a remote read brings is cached in the L2 of the group's cluster as the request says (R137, R352), and where a prefetch
asked for it, in L1 (R154); dirty bytes of the line stay. -/
def State.cacheRemote (s : State) (r : RemoteReq) (bytes : List Byte) : State :=
  let line := lineOf (keyRemote r.dev r.raddr)
  match s.remoteCluster r with
  | some cl =>
    let t :=
      if (s.l2Line cl line).isSome then s
      else
        match r.prio with
        | none => s
        | some p =>
          s.allocL2 { cluster := cl, line := line, cls := r.cls, prio := p, tag := none,
                      data := Vector.ofFn (fun o => (overlayGet s.remoteDirty (128 * line + o.val)).getD (bytes[o.val]?.getD 0)) }
    match r.pref with
    | some (core, true) => t.fillL1 core line ⟨s.remoteTenant r, r.cls, (r.prio.map prioCp).getD 3⟩
    | _ => t
  | none => s

/-- The bytes of a remote write are acknowledged, or dropped: a byte stored again since then stays dirty. -/
def State.remoteWritten (s : State) (r : RemoteReq) : State :=
  { s with remoteDirty := s.remoteDirty.filter (fun c => !(r.write.getD []).contains c) }

/-- No older write to a byte of the request is under way. -/
def State.inOrder (s : State) (r : RemoteReq) : Bool :=
  s.remote.all (fun q => !(decide (q.id < r.id) && (q.write.getD []).any (fun c => (r.write.getD []).any (fun d => decide (c.1 = d.1)))))

/-- A fabric error record (R357). -/
def State.fabricRecord (s : State) (r : RemoteReq) (err : Nat) : State :=
  let t := ((s.ctx? r.ctx).map (fun c => s.tenantTime c.tenant)).getD (BitVec.ofNat 64 s.time)
  s.faultRecord r.ctx
    (natBytes 2 5 ++ natBytes 1 err ++ natBytes 1 (if r.write.isSome then 1 else 0) ++ natBytes 4 r.dev ++ natBytes 8 r.raddr ++
     natBytes 8 t.toNat ++ natBytes 40 0)

/-- A remote access fails (R357): a read returns 0xFF, a write is dropped, a record is written, and the group runs on. A release
that waits for the write goes on once the record is written. -/
def State.failRemote (s : State) (err : Nat) (r : RemoteReq) : State :=
  let t := ((s.giveRemote r (if r.write.isSome then [] else List.replicate 128 0xFF)).dropRemote r.id).fabricRecord r err
  match r.write with
  | none => t
  | some cells => if s.records.length < t.records.length then { t with lost := (r.ctx, cells) :: t.lost } else t.remoteWritten r

/-- An answer to the request is still accepted (R357). -/
def State.inTime (s : State) (r : RemoteReq) : Bool := r.sent && decide (s.time ≤ r.since + 1000000)

/-- REMOTE_NAK (R357). -/
def execRemoteNak (s : State) : Out :=
  match s.ev with
  | .req id =>
    match s.remote? id with
    | some r => if s.inTime r then .next ((s.countAnswer r 64).failRemote 1 r) else .refused (.notEnabled "REMOTE_NAK")
    | none => .refused (.notEnabled "REMOTE_NAK")
  | _ => .refused (.notEnabled "REMOTE_NAK")

/-- REMOTE_TIMEOUT (R357): 1 ms of device time. -/
def execRemoteTimeout (s : State) : Out :=
  match s.ev with
  | .req id =>
    match s.remote? id with
    | some r => if r.since + 1000000 < s.time then .next (s.failRemote 2 r) else .refused (.notEnabled "REMOTE_TIMEOUT")
    | none => .refused (.notEnabled "REMOTE_TIMEOUT")
  | _ => .refused (.notEnabled "REMOTE_TIMEOUT")

/-- Requests of ports that have no link left fail with LINKDOWN (R358). -/
def State.failPorts (s : State) : State :=
  (s.remote.filter (fun r => decide (s.portLinks r.port = 0))).foldl (fun t r => t.failRemote 3 r) s

/-- The flit of a request leaves; on a port without a link it fails (R358). -/
def State.flitTurn (s : State) (r : RemoteReq) : Option State :=
  if !r.sent && decide (s.portLinks r.port = 0) then some (s.failRemote 3 r) else if s.mayFlit r then some (s.sendFlit r) else none

/-- Links leave their ports (R358): what was sent on them and not acknowledged goes on the links that are left. -/
def State.loseLinks (s : State) (ks : BitVec 24) : State :=
  ({ s with built := { s.built with links := s.built.links &&& ~~~ks, linkBack := s.built.linkBack &&& ~~~ks } } : State).failPorts

/-- One link of 24. -/
def linkBit (k : Nat) : BitVec 24 := BitVec.ofNat 24 (2 ^ k)

/-- LINK_LOSS (R358). -/
def execLinkLoss (s : State) : Out :=
  match s.ev with
  | .link k =>
    if (s.built.links ||| s.built.linkBack).getLsbD k then .next (s.inWindow.loseLinks (linkBit k))
    else .refused (.notEnabled "LINK_LOSS")
  | _ => .refused (.notEnabled "LINK_LOSS")

/-- LINK_RETURN (R358): the link rejoins its port at the window after the one in force (R355). -/
def execLinkReturn (s : State) : Out :=
  match s.ev with
  | .link k =>
    if s.made.links.getLsbD k && s.built.ods.getLsbD (k / 6) && !s.linksNow.getLsbD k then
      let t := s.inWindow
      .next { t with built := { t.built with linkBack := t.built.linkBack ||| linkBit k } }
    else .refused (.notEnabled "LINK_RETURN")
  | _ => .refused (.notEnabled "LINK_RETURN")

/-! ### Accesses are performed (R159) -/

/-- The dirty bytes of a core's line are written back and performed at a scope. -/
def State.performLine (s : State) (core line scope : Nat) : State :=
  let s1 := s.cleanLine core line
  let s2 : State := { s1 with
    l2 := s1.l2.filter (fun l => !(decide (l.line = line) && decide (l.cluster ≠ clusterOfCore core) &&
      (decide (5 ≤ scope) || (decide (scope = 4) && decide (dieOfCluster l.cluster = dieOfCluster (clusterOfCore core)))))) }
  if scope = 6 then
    (s2.flushHostOf (fun k => decide (lineOf k = line))).sendRemoteWrites (s2.remoteDirty.filter (fun c => lineOf c.1 = line))
  else s2

/-- The oldest release store of the group in `grp` is performed; at system scope, once the remote devices have acknowledged the
earlier bytes, which are sent at first (R159, R161). -/
def State.performStore (s : State) : Option State :=
  match s.grp.relq with
  | [] => none
  | r :: _ =>
    let s1 := s.releaseAt s.grp.coreNo r.scope
    if decide (r.scope ≠ 6) || s1.remoteClear then some (s1.performRel r)
    else
      let s2 := s1.sendRemoteWrites s1.remoteDirty
      if s2.remote.length = s.remote.length then none else some s2

/-- ACCESS_PERFORMED (R159): a line is written back at band scope or wider, a remote read returns its line, a remote device
acknowledges a write, or a waiting release store of a group is performed. -/
def execAccessPerformed (s : State) : Out :=
  match s.ev with
  | .performed (.writeBack core line scope) =>
    if decide (3 ≤ scope) && decide (scope ≤ 6) && ((s.l1Line core line).map (fun l => decide (l.dirty ≠ 0))).getD false then
      .next (s.performLine core line scope)
    else .refused (.notEnabled "ACCESS_PERFORMED")
  | .performed (.remoteRead id bytes) =>
    match s.remote? id with
    | some r =>
      if s.inTime r && r.write.isNone && decide (bytes.length = 128) then
        .next ((((s.countAnswer r 256).cacheRemote r bytes).giveRemote r bytes).dropRemote id)
      else .refused (.notEnabled "ACCESS_PERFORMED")
    | none => .refused (.notEnabled "ACCESS_PERFORMED")
  | .performed (.store uid) =>
    match s.focus uid with
    | none => .fault (.noSuchGroup uid)
    | some t =>
      match t.performStore with
      | some u => .next u
      | none => .refused (.notEnabled "ACCESS_PERFORMED")
  | .performed (.remoteAck id) =>
    match s.remote? id with
    | some r =>
      if s.inTime r && r.write.isSome && s.inOrder r then .next (((s.countAnswer r 64).remoteWritten r).dropRemote id)
      else .refused (.notEnabled "ACCESS_PERFORMED")
    | none => .refused (.notEnabled "ACCESS_PERFORMED")
  | _ => .refused (.notEnabled "ACCESS_PERFORMED")

end Sys2Proof.Machine
end

