-- ==== Sys2Proof/Machine/BringUp.lean ====
section
/-! DEFINITION. The boot chain and device resets, ownership, health and temperature, corrected errors, and the debug window
(19_bring_up_and_health.md R361 to R370, 15_system_and_traps.md R289, R290, 18_package_host_fabric.md R359). -/

namespace Sys2Proof.Machine

open Sys2Proof

/-! ### The part as brought up (R359 to R363) -/

/-- The clusters of a die. -/
def dieClusters (d : Nat) : BitVec 48 := BitVec.ofNat 48 ((2 ^ 24 - 1) * 2 ^ (24 * d))
/-- The slices of a die. -/
def dieSlices (d : Nat) : BitVec 1536 := BitVec.ofNat 1536 ((2 ^ 768 - 1) * 2 ^ (768 * d))
/-- The links of an optical die: six on each (log entry 22). -/
def odLinks (k : Nat) : BitVec 24 := BitVec.ofNat 24 (63 * 2 ^ (6 * k))

/-- A compute die is fenced: its clusters, slices and channels are gone. -/
def Built.fenceX (b : Built) (d : Nat) : Built :=
  { b with
    dies := b.dies &&& ~~~BitVec.ofNat 2 (2 ^ d), clusters := b.clusters &&& ~~~dieClusters d,
    slices := b.slices &&& ~~~dieSlices d, chan0 := if d = 0 then 0 else b.chan0, chan1 := if d = 1 then 0 else b.chan1 }

/-- An optical die is fenced: its links are absent. -/
def Built.fenceO (b : Built) (k : Nat) : Built :=
  { b with ods := b.ods &&& ~~~BitVec.ofNat 4 (2 ^ k), links := b.links &&& ~~~odLinks k, linkBack := b.linkBack &&& ~~~odLinks k }

/-- The dies of a list that fail are fenced. -/
def Built.fence (b : Built) (fail : Byte) : Built :=
  let b1 := (List.range 2).foldl (fun x d => if fail.getLsbD d then x.fenceX d else x) b
  (List.range 4).foldl (fun x k => if fail.getLsbD (4 + k) then x.fenceO k else x) b1

/-- The number of set bits among those from `lo` on. -/
def countBits {w : Nat} (x : BitVec w) (lo n : Nat) : Nat := ((List.range n).filter (fun i => x.getLsbD (lo + i))).length

/-- CAPS (R359). -/
def Built.caps (b : Built) : DWord :=
  let links := countBits b.links 0 24
  let sl := countBits b.slices 0 1536
  let c0 := countBits b.clusters 0 24
  let c1 := countBits b.clusters 24 24
  let full := decide (links = 24) && decide (b.chan0 = 256) && decide (b.chan1 = 256) && decide (sl = 1536) && decide (c0 = 24) &&
    decide (c1 = 24) && decide (b.dies = 3)
  BitVec.ofNat 64 ((if full then 0 else 2 ^ 63) + links * 2 ^ 53 + b.chan1 * 2 ^ 44 + b.chan0 * 2 ^ 35 + sl * 2 ^ 24 + c1 * 2 ^ 18 +
    c0 * 2 ^ 12 + b.dies.toNat)

/-- STAGE of BOOTST (R362, R363): what fails to authenticate decides how far the boot goes. -/
def bootStage (made : Built) (allow : Bool) (fail : Byte) : Nat :=
  let lost (d : Nat) : Bool := fail.getLsbD d && made.dies.getLsbD d
  if fail.getLsbD 3 then 0
  else if fail.getLsbD 2 then 2
  else if (lost 0 || lost 1) && (!allow || (made.fence fail).dies = 0) then 5
  else 4

/-- AUTHFAIL (R361, R362): the dies that were tried and failed; HD and then CD come first, and where one fails no later die is
tried. -/
def authFail (made : Built) (fail : Byte) : Byte :=
  if fail.getLsbD 3 then 8
  else if fail.getLsbD 2 then 4
  else fail &&& BitVec.ofNat 8 (made.dies.toNat + 16 * made.ods.toNat)

/-- BOOTST with the dies that failed (R362). -/
def bootstOf (stage : Nat) (allow : Bool) (fail : Byte) : Word :=
  BitVec.ofNat 32 (stage * 2 ^ 28 + fail.toNat * 2 ^ 16 + (if allow then 2 else 0) + (if stage = 5 then 1 else 0))

/-- HEALTH right after a device reset (R369): the margin of a fenced compute die reads 0. -/
def healthReset (b : Built) : DWord :=
  PartRegs.reset.health &&& ~~~BitVec.ofNat 64 ((if b.dies.getLsbD 0 then 0 else 255 * 2 ^ 24) + (if b.dies.getLsbD 1 then 0 else 255 * 2 ^ 32))

/-- A device reset (R361): HBM, the host's memory and the policy store keep their contents; everything else is as State.reset
has it, over the dies that authenticate; a part whose HD or CD fails does not enumerate (R363). The model's own fields go on. -/
def State.deviceReset (s : State) (fail : Byte) : State :=
  let allow := s.regs.allowStore
  let stage := bootStage s.made allow fail
  let b := { s.made.fence fail with linkUp := s.made.linkUp && decide (4 ≤ stage) }
  { State.reset with
    mem := s.mem.filter (fun c => decide (keyKind c.1 = 0) || decide (keyKind c.1 = 4)),
    regs := { PartRegs.reset with
      bootst := bootstOf stage allow (authFail s.made fail), allowStore := allow, health := healthReset b,
      healthAt := s.time },
    built := b, made := s.made, window := s.window, outbox := s.outbox, time := s.time, nextId := s.nextId, freeIx := s.freeIx,
    clock := s.clock, choices := s.choices, ev := s.ev, agenda := s.agenda }

/-- DEVICE_RESET (R361): at power-on, for DRESET with DIE 8, or after a FATAL report. -/
def execDeviceReset (s : State) : Out :=
  match s.ev with
  | .reset .powerOn fail => .next (s.deviceReset fail)
  | .reset .dreset fail =>
    if s.regs.dreset.getLsbD 63 && decide (fld s.regs.dreset 0 4 = 8) then .next (s.deviceReset fail)
    else .refused (.notEnabled "DEVICE_RESET")
  | .reset .fatal fail =>
    if s.regs.fatalDue then .next (s.deviceReset fail) else .refused (.notEnabled "DEVICE_RESET")
  | _ => .refused (.notEnabled "DEVICE_RESET")

/-! ### Ownership (R364, R365) -/

/-- OWNCTL with an owner and HANDTO. -/
def ownctlOf (owner handto : Nat) : Word := BitVec.ofNat 32 (owner % 4 + handto % 4 * 4)

/-- HANDTO. -/
def State.handTo (s : State) : Nat := (s.regs.ownctl.extractLsb' 2 2).toNat

/-- OWNCTL as it is read: CLAIM and ACCEPT read 0 (R364). -/
def State.ownctlValue (s : State) : Word := s.regs.ownctl ||| (if s.regs.allowStore then 0x100 else 0)

/-- The first CLAIM while OWNER is 0 makes its writer the owner. -/
def State.claim (s : State) (m : Master) : State :=
  if decide (s.owner = 0) && decide (ownerCode m ≠ 0) then s.onRegs (fun r => { r with ownctl := ownctlOf (ownerCode m) s.handTo })
  else s

/-- ACCEPT by the master that HANDTO names; any other is ignored. -/
def State.accept (s : State) (m : Master) : State :=
  if decide (ownerCode m ≠ 0) && decide (s.handTo = ownerCode m) then s.onRegs (fun r => { r with ownctl := ownctlOf (ownerCode m) 0 })
  else s

/-- The owner writes HANDTO and ALLOW; HANDTO 3 names no master and leaves the field. -/
def State.handOver (s : State) (v : Word) : State :=
  let h := (v.extractLsb' 2 2).toNat
  s.onRegs (fun r => { r with ownctl := ownctlOf s.owner (if h = 3 then s.handTo else h), allowStore := v.getLsbD 8 })

/-- A write to OWNCTL (R364 to R366): the owner's write sets its fields; of another master's only CLAIM and ACCEPT count, and
one that has neither is a write to owner fields. -/
def State.writeOwnctl (s : State) (m : Master) (v : Word) : State :=
  let own := s.owns m
  let s1 := if v.getLsbD 4 then s.claim m else s
  let s2 := if own then s1.handOver v else s1
  let s3 := if v.getLsbD 5 then s2.accept m else s2
  if own || v.getLsbD 4 || v.getLsbD 5 || decide (ownerCode m = 0) then s3 else s3.countOwnErr

/-- Writes of the PF and the BMC to OWNCTL in the same cycle (R365): the owner's takes effect first, and while no master is the
owner the BMC's. -/
def State.writeBoth (s : State) (m : Master) (v : DWord) (m2 : Master) (v2 : DWord) : State :=
  if s.owns m2 || (decide (s.owner = 0) && decide (m2 = .bmc)) then (s.writeOwnctl m2 (loHalf v2)).writeOwnctl m (loHalf v)
  else (s.writeOwnctl m (loHalf v)).writeOwnctl m2 (loHalf v2)

/-- A write to OWNCTL is served, the BMC's over MCTP as the host's: while the part is up or in recovery (R363). -/
def State.hears (s : State) : Bool := s.isUp || decide (s.regs.bootst.extractLsb' 28 4 = 5)

/-- OWN_CLAIM (R365). -/
def execOwnClaim (s : State) : Out :=
  match s.ev with
  | .master m v => if s.hears && v.getLsbD 4 then .next (s.writeOwnctl m (loHalf v)) else .refused (.notEnabled "OWN_CLAIM")
  | .masters m v m2 v2 =>
    if s.hears && decide (m ≠ m2) && (v.getLsbD 4 || v2.getLsbD 4) then .next (s.writeBoth m v m2 v2) else .refused (.notEnabled "OWN_CLAIM")
  | _ => .refused (.notEnabled "OWN_CLAIM")

/-- OWN_HANDTO (R365). -/
def execOwnHandto (s : State) : Out :=
  match s.ev with
  | .master m v =>
    if s.hears && !v.getLsbD 4 && !v.getLsbD 5 then .next (s.writeOwnctl m (loHalf v)) else .refused (.notEnabled "OWN_HANDTO")
  | .masters m v m2 v2 =>
    if s.hears && decide (m ≠ m2) && !v.getLsbD 4 && !v2.getLsbD 4 && !v.getLsbD 5 && !v2.getLsbD 5 then
      .next (s.writeBoth m v m2 v2)
    else .refused (.notEnabled "OWN_HANDTO")
  | _ => .refused (.notEnabled "OWN_HANDTO")

/-- OWN_ACCEPT (R365). -/
def execOwnAccept (s : State) : Out :=
  match s.ev with
  | .master m v => if s.hears && v.getLsbD 5 then .next (s.writeOwnctl m (loHalf v)) else .refused (.notEnabled "OWN_ACCEPT")
  | .masters m v m2 v2 =>
    if s.hears && decide (m ≠ m2) && !v.getLsbD 4 && !v2.getLsbD 4 && (v.getLsbD 5 || v2.getLsbD 5) then .next (s.writeBoth m v m2 v2)
    else .refused (.notEnabled "OWN_ACCEPT")
  | _ => .refused (.notEnabled "OWN_ACCEPT")

/-- Ownership lapses where the PF is the owner (R365). -/
def State.lapse (s : State) : State := if s.owner = 1 then s.onRegs (fun r => { r with ownctl := ownctlOf 0 0 }) else s

/-- HOST_LINK_DOWN (R365). -/
def execHostLinkDown (s : State) : Out := .next { s.lapse with built := { s.built with linkUp := false } }

/-- The copy commands of a function are cancelled (R208, R365): they stop at their next granule and deliver no token. -/
def State.cancelCopies (s : State) (fn : Nat) : State :=
  let isCopy (k : QKind) : Bool := match k with
    | .copy _ _ => true
    | _ => false
  ({ s with copies := s.copies.filter (fun c => c.fn ≠ fn) } : State).mapGroups (fun g => decide (g.id.fn = fn)) (fun g =>
    { g with queues := g.queues.map (fun q => if isCopy q.kind then { q with entries := [], rel := [] } else q) })

/-- PF_FUNCTION_LEVEL_RESET (R365, R208). -/
def execPfFunctionLevelReset (s : State) : Out := .next (s.lapse.cancelCopies 0)

/-! ### Health and temperature (R369, R370) -/

/-- No core of the die stays above 2.0 GHz. -/
def State.slow (s : State) (d : Nat) : State :=
  { s with coreMHz := s.coreMHz.filter (fun c => dieOfCluster (clusterOfCore c.1) ≠ d) }

/-- One day of device time. -/
def dayNanos : Nat := 86400000000000

/-- HEALTH with the measured values of the update: HBMTR counts the corrected HBM errors of the last 24 h, a fenced die's
margin is 0, and reserved bits are 0. -/
def State.healthOf (s : State) (v : DWord) : DWord :=
  let n := min 255 (s.regs.hbmErrs.filter (fun t => decide (s.time < t + dayNanos))).length
  let keep := 0xFF00FFFFFFFF0000 &&& ~~~BitVec.ofNat 64 ((if s.built.dies.getLsbD 0 then 0 else 255 * 2 ^ 24) +
    (if s.built.dies.getLsbD 1 then 0 else 255 * 2 ^ 32))
  (v &&& keep) ||| BitVec.ofNat 64 (n * 2 ^ 48)

/-- HEALTH_UPDATE (R369): once an hour; a compute die with a margin below 8 ps is capped. -/
def execHealthUpdate (s : State) : Out :=
  match s.ev with
  | .health v =>
    if s.regs.healthAt + 3600000000000 ≤ s.time then
      let h := s.healthOf v
      let low (d : Nat) : Bool := decide (fld h (24 + 8 * d) 8 < 8)
      let s1 := (s.onRegs (fun r => { r with
        health := h, healthAt := s.time, hbmErrs := r.hbmErrs.filter (fun t => decide (s.time < t + dayNanos)) }))
      let s2 := (List.range 2).foldl (fun t d => if low d then t.slow d else t) s1
      .next { s2 with built := { s2.built with marginCap := BitVec.ofNat 2 ((if low 0 then 1 else 0) + (if low 1 then 2 else 0)) } }
    else .refused (.notEnabled "HEALTH_UPDATE")
  | _ => .refused (.notEnabled "HEALTH_UPDATE")

/-- THERMAL_LIMIT (R370). -/
def execThermalLimit (s : State) : Out :=
  match s.ev with
  | .die d =>
    if d < 2 then
      let s1 := s.slow d
      .next { s1 with built := { s1.built with heatCap := s1.built.heatCap ||| BitVec.ofNat 2 (2 ^ d) } }
    else .refused (.notEnabled "THERMAL_LIMIT")
  | _ => .refused (.notEnabled "THERMAL_LIMIT")

/-- THERMAL_TRIP (R370): FATAL is reported, and the device is reset. -/
def execThermalTrip (s : State) : Out :=
  match s.ev with
  | .reset _ fail => .next ((s.send .fatal).deviceReset fail)
  | _ => .refused (.notEnabled "THERMAL_TRIP")

/-- FEED_LOSS (R370). -/
def execFeedLoss (s : State) : Out :=
  match s.ev with
  | .reset _ fail => .next (s.deviceReset fail)
  | _ => .refused (.notEnabled "FEED_LOSS")

/-- CORRECTED_ERROR (R289, R369): counted, and reported with severity 0. -/
def execCorrectedError (s : State) : Out :=
  match s.ev with
  | .check unit _ die cluster core slice loc synd =>
    .next ((s.onRegs (fun r => { r with hbmErrs := if unit = 4 then s.time :: r.hbmErrs else r.hbmErrs })).corrected
      (s.checkRecord unit 0 die cluster core slice loc synd))
  | _ => .refused (.notEnabled "CORRECTED_ERROR")

/-! ### The debug window (R290, R367, R368) -/

/-- The group that DBGTGT and DBGCMD name: a group, or a helper of its recruitment. -/
def State.debugTarget (s : State) (cmd : DWord) : Option Group :=
  let t := s.regs.dbgtgt
  let p : ParkTarget := ⟨fld t 0 8, fld t 8 24, fld t 32 4, fld t 36 4, cmd.getLsbD 54, fld cmd 32 12, fld cmd 44 2, fld cmd 0 32⟩
  match s.parkGroup p with
  | none => none
  | some g =>
    if t.getLsbD 40 then s.groups.find? (fun h => h.helps g.id.uid && h.lives && ((h.helper.map (fun x => decide (x.hidx = fld t 41 4))).getD false))
    else some g

/-- The group is parked, on its core or as an evicted or a saved group. -/
def Group.isParked (g : Group) : Bool :=
  match g.status with
  | .parked => true
  | .evicted _ _ p => p
  | .saved _ p => p
  | _ => false

/-- CLASS of DBGREG. -/
def dbgClass (r : DWord) : Nat := fld r 0 8
/-- NUM of DBGREG. -/
def dbgNum (r : DWord) : Nat := fld r 8 8
/-- LANE of DBGREG. -/
def dbgLane (r : DWord) : Nat := fld r 16 8
/-- ITEM of DBGREG. -/
def dbgItem (r : DWord) : Nat := fld r 24 8

/-- What a debug access answers: a value, NOTALLOC or BADREG. -/
inductive Dbg (α : Type) where
  | ok (x : α)
  | notAlloc
  | badReg
  deriving DecidableEq, Repr

/-- A scalar class: no lane and no item. -/
def dbgPlain (r : DWord) : Bool := decide (dbgLane r = 0) && decide (dbgItem r = 0)

/-- A word as DBGDATA holds it. -/
def wordData (x : Word) : DWord := x.setWidth 64

/-- A debug read of a stream register. -/
def Stream.debugRead (z : Stream) (item : Nat) : Dbg DWord :=
  match item with
  | 0 => .ok z.base
  | 1 => .ok (BitVec.ofNat 64 (z.esz.toNat + z.space.toNat * 4 + z.cp.toNat * 32 + z.home.toNat * 256 + (if z.fin then 1024 else 0)))
  | 7 => .ok z.cursor
  | k =>
    if k ≤ 6 then .ok (pairOf (z.stride[k - 2]?.getD 0) (z.extent[k - 2]?.getD 0)) else .badReg

/-- The live-in vector register that NUM names in the open region. -/
def Group.liveVec (g : Group) (num : Nat) : Option (Region × Nat) :=
  match g.region, g.phys num with
  | some r, some p => if r.vvals.any (fun v => v.1 = p) then some (r, p) else none
  | _, _ => none

/-- The live-in scalar that NUM names in the open region, as an index of the record. -/
def Group.liveScal (g : Group) (num : Nat) : Option (Region × Nat) :=
  match g.region with
  | some r => if r.first ≤ num ∧ num < r.first + r.count then some (r, num - r.first) else none
  | none => none

/-- A debug read of the group that `grp` holds (R368): the classes of the table. -/
def State.debugRead (s : State) (r : DWord) : Dbg DWord :=
  let g := s.grp
  let n := dbgNum r
  let l := dbgLane r
  match dbgClass r with
  | 0 => if dbgPlain r && decide (n < 64) then .ok (wordData (g.rs (BitVec.ofNat 6 n))) else .badReg
  | 1 =>
    if decide (n < 128) && decide (l < 96) && decide (dbgItem r = 0) then
      if g.hasVec n then .ok (wordData (g.rvl n l)) else .notAlloc
    else .badReg
  | 2 =>
    if dbgPlain r && decide (n ≤ 0x17) then
      .ok (if isPairSpecial n then g.specialPair n else wordData (s.special n))
    else .badReg
  | 3 =>
    if decide (n < 4) && decide (l < 128) && decide (dbgItem r < 128) then
      if n < g.id.ntiles then .ok (wordData (((g.tiles[n]?.getD Tile.initial).data[l]?.getD (Vector.replicate 128 0))[dbgItem r]?.getD 0))
      else .notAlloc
    else .badReg
  | 4 => if decide (n = 0) && decide (l < 96) && decide (dbgItem r = 0) then .ok (wordData (g.gen[l]?.getD 0)) else .badReg
  | 5 => if decide (n < 8) && decide (l = 0) then (g.zreg[n]?.getD Stream.initial).debugRead (dbgItem r) else .badReg
  | 6 =>
    if decide (n < 16) && decide (l = 0) && decide (dbgItem r ≤ 8) then
      let q := g.queue n
      if dbgItem r = 0 then .ok (wordData q.status)
      else
        match q.kind, q.entries[dbgItem r - 1]? with
        | .copy _ _, some _ => .ok ((Config.freeValue s.freeIx).setWidth 64)
        | _, some x => .ok x
        | _, none => .ok 0
    else .badReg
  | 7 => if decide (n < 8) && decide (l = 0) && decide (dbgItem r < 4) then .ok ((g.viewAt n).extractLsb' (64 * dbgItem r) 64) else .badReg
  | 8 =>
    if dbgPlain r && decide (n ≤ 9) then
      .ok (if n < 3 then wordData (g.lc[n]?.getD 0) else if n = 3 then BitVec.ofNat 64 g.depth
        else if n < 7 then g.start[n - 4]?.getD 0 else g.exit[n - 7]?.getD 0)
    else .badReg
  | 9 =>
    match g.liveScal n with
    | some (x, i) => if dbgPlain r then .ok (wordData (x.svals[i]?.getD 0)) else .badReg
    | none => .badReg
  | 10 =>
    match g.liveVec n with
    | some (x, p) =>
      if decide (l < 96) && decide (dbgItem r = 0) then
        .ok (wordData ((((x.vvals.find? (fun v => v.1 = p)).map (·.2)).getD zeroLanes)[l]?.getD 0))
      else .badReg
    | none => .badReg
  | _ => .badReg

/-- A special register as the debugger writes it: the registers that software can write take the value, FPSR its five flags and
bit 5 (R101); the others, and values that WRS refuses, change nothing. -/
def Group.debugSpecial (g : Group) (n : Nat) (x : DWord) : Group :=
  if n = 0x0E then { g with fpsr := loHalf x &&& 0x3F }
  else if isWritableSpecial n && specialOk n (loHalf x) then g.setSpecial n (loHalf x) x
  else g

/-- A debug write of a stream register. -/
def Stream.debugWrite (z : Stream) (item : Nat) (x : DWord) : Dbg Stream :=
  match item with
  | 0 => .ok { z with base := x }
  | 1 => .ok { z with esz := x.extractLsb' 0 2, space := x.extractLsb' 2 3, cp := x.extractLsb' 5 3, home := x.extractLsb' 8 2, fin := x.getLsbD 10 }
  | 7 => .ok { z with cursor := x }
  | k =>
    if k ≤ 6 then
      .ok { z with stride := z.stride.setIfInBounds (k - 2) (loHalf x), extent := z.extent.setIfInBounds (k - 2) (hiHalf x) }
    else .badReg

/-- A lane of lanes is replaced. -/
def setLane (v : Lanes) (l : Nat) (x : Word) : Lanes := v.setIfInBounds l x

/-- A debug write of a group (R368): classes 6, 9 and 10 are not written so, nor a tile of a group that holds none; a generator's
state, which is never zero (R117), takes no zero (log entry 71). -/
def Group.debugWrite (g : Group) (r : DWord) (x : DWord) : Dbg Group :=
  let n := dbgNum r
  let l := dbgLane r
  match dbgClass r with
  | 0 => if dbgPlain r && decide (n < 64) then .ok (g.ws (BitVec.ofNat 6 n) (loHalf x)) else .badReg
  | 1 =>
    if decide (n < 128) && decide (l < 96) && decide (dbgItem r = 0) then
      if g.hasVec n then .ok (g.wv n (setLane (g.rv n) l (loHalf x))) else .notAlloc
    else .badReg
  | 2 => if dbgPlain r && decide (n ≤ 0x17) then .ok (g.debugSpecial n x) else .badReg
  | 3 =>
    if decide (n < 4) && decide (l < 128) && decide (dbgItem r < 128) then
      if n < g.id.ntiles then
        .ok (g.onTile n (fun t => { t with
          data := t.data.setIfInBounds l ((t.data[l]?.getD (Vector.replicate 128 0)).setIfInBounds (dbgItem r) (loHalf x)) }))
      else if g.id.ntiles = 0 then .badReg
      else .notAlloc
    else .badReg
  | 4 =>
    if decide (n = 0) && decide (l < 96) && decide (dbgItem r = 0) then
      .ok (if loHalf x = 0 then g else { g with gen := setLane g.gen l (loHalf x) })
    else .badReg
  | 5 =>
    if decide (n < 8) && decide (l = 0) then
      match (g.zreg[n]?.getD Stream.initial).debugWrite (dbgItem r) x with
      | .ok z => .ok { g with zreg := g.zreg.setIfInBounds n z }
      | .notAlloc => .notAlloc
      | .badReg => .badReg
    else .badReg
  | 7 =>
    if decide (n < 8) && decide (l = 0) && decide (dbgItem r < 4) then
      let k := 64 * dbgItem r
      let old := g.viewAt n
      .ok { g with view := g.view.setIfInBounds n ((old &&& ~~~BitVec.ofNat 256 ((2 ^ 64 - 1) * 2 ^ k)) ||| BitVec.ofNat 256 (x.toNat * 2 ^ k)) }
    else .badReg
  | 8 =>
    if dbgPlain r && decide (n ≤ 9) then
      if n < 3 then .ok { g with lc := g.lc.setIfInBounds n (loHalf x) }
      else if n = 3 then (if (loHalf x).toNat ≤ 3 then .ok { g with depth := (loHalf x).toNat } else .badReg)
      else if n < 7 then .ok { g with start := g.start.setIfInBounds (n - 4) x }
      else .ok { g with exit := g.exit.setIfInBounds (n - 7) x }
    else .badReg
  | _ => .badReg

/-- A write into the region record (R367, R368). -/
def Group.debugWrec (g : Group) (r : DWord) (x : DWord) : Dbg Group :=
  let n := dbgNum r
  let l := dbgLane r
  match dbgClass r with
  | 9 =>
    match g.liveScal n with
    | some (y, i) => if dbgPlain r then .ok { g with region := some { y with svals := y.svals.set i (loHalf x) } } else .badReg
    | none => .badReg
  | 10 =>
    match g.liveVec n with
    | some (y, p) =>
      if decide (l < 96) && decide (dbgItem r = 0) then
        .ok { g with region := some { y with vvals := y.vvals.map (fun v => if v.1 = p then (p, setLane v.2 l (loHalf x)) else v) } }
      else .badReg
    | none => .badReg
  | _ => .badReg

/-- A register bank that the access reaches has not been swept (R97, R290). -/
def State.debugStalls (s : State) (g : Group) (r : DWord) : Bool :=
  decide (dbgClass r = 1) && g.resident &&
  match (g.phys (dbgNum r)).bind (fun p => g.bankIds[g.bankOfPhys p]?) with
  | some b => s.unsweptBank g b
  | none => false

/-- DBGCMD as an operation leaves it. -/
def dbgcmdAfter (v : DWord) (go : Bool) (st : Nat) : DWord :=
  (v &&& 0x78403FFFFFFFFFFF) ||| BitVec.ofNat 64 ((if go then 2 ^ 63 else 0) + st * 2 ^ 55)

/-- A debug operation ends with a status. -/
def State.endDebug (s : State) (v : DWord) (st : Nat) : State := s.onRegs (fun r => { r with dbgcmd := dbgcmdAfter v false st })

/-- OP of DBGCMD. -/
def dbgOp (v : DWord) : Nat := fld v 59 4

/-- A debug operation of a part that is up (R363), started by a write to DBGCMD, or going on after a stall; only the owner's is
accepted. -/
def debugRun (row : String) (op : Nat) (s : State) (k : Group → DWord → State → State) : Out :=
  match s.ev with
  | .master m v =>
    if s.isUp && v.getLsbD 63 && decide (dbgOp v = op) && decide (ownerCode m ≠ 0) then
      if s.regs.dbgcmd.getLsbD 63 then .next s
      else if !s.owns m then .next (s.endDebug v 4)
      else
        match s.debugTarget v with
        | none => .next (s.endDebug v 6)
        | some g =>
          if s.debugStalls g s.regs.dbgreg && decide (op ≠ 0) && g.isParked then
            .next (s.onRegs (fun r => { r with dbgcmd := dbgcmdAfter v true 0 }))
          else .next (k g v s)
    else .refused (.notEnabled row)
  | .none =>
    let v := s.regs.dbgcmd
    if s.isUp && v.getLsbD 63 && decide (dbgOp v = op) then
      match s.debugTarget v with
      | none => .next (s.endDebug v 6)
      | some g => if s.debugStalls g s.regs.dbgreg then .refused (.notEnabled row) else .next (k g v s)
    else .refused (.notEnabled row)
  | _ => .refused (.notEnabled row)

/-- A running group parks as BRKPT with ARG 0xFF, at the next instruction that has not issued (R290). -/
def State.halt (s : State) : State :=
  let s1 := s.endWait
  if s1.grp.status = .parked then s1 else (s1.recordTrap { cause := .brkpt, arg := 0xFF }).park .brkpt 0xFF false

/-- HALT of a group that has left its core: it is marked as parked where it is; the next instruction of one that restarts its region
is at the marker (R290, log entry 56). -/
def State.haltAway (s : State) (restart : Bool) (st : Status) : State :=
  let t : Trap := { cause := .brkpt, arg := 0xFF, pc := if restart then s.grp.region.map (·.marker) else none }
  ((s.recordTrap t).park .brkpt 0xFF false).onGrp (fun g => { g with status := st })

/-- HALT of a group in its state. -/
def State.haltGroup (s : State) : State :=
  match s.grp.status with
  | .evicted r sp _ => s.haltAway r (.evicted r sp true)
  | .saved r _ => s.haltAway r (.saved r true)
  | _ => s.halt

/-- DEBUG_HALT (R368). -/
def execDebugHalt (s : State) : Out :=
  debugRun "DEBUG_HALT" 0 s (fun g v t => (if g.isParked then t else t.asGroup g.id.uid State.haltGroup).endDebug v 0)

/-- DEBUG_READ (R368). -/
def execDebugRead (s : State) : Out :=
  debugRun "DEBUG_READ" 1 s (fun g v t =>
    if !g.isParked then t.endDebug v 2
    else
      match ((t.focus g.id.uid).getD t).debugRead t.regs.dbgreg with
      | .ok x => (({ t with freeIx := t.freeIx + 1 } : State).onRegs (fun r => { r with dbgdata := x })).endDebug v 0
      | .notAlloc => (t.onRegs (fun r => { r with dbgdata := 0 })).endDebug v 1
      | .badReg => t.endDebug v 3)

/-- A group is changed by the debugger, or a status says why not. -/
def State.debugPut (s : State) (v : DWord) (uid : Nat) : Dbg Group → State
  | .ok g => (s.asGroup uid (fun t => { t with grp := g })).endDebug v 0
  | .notAlloc => s.endDebug v 1
  | .badReg => s.endDebug v 3

/-- DEBUG_WRITE (R368): no RGNW. -/
def execDebugWrite (s : State) : Out :=
  debugRun "DEBUG_WRITE" 2 s (fun g v t =>
    if !g.isParked then t.endDebug v 2 else t.debugPut v g.id.uid (g.debugWrite t.regs.dbgreg t.regs.dbgdata))

/-- DEBUG_WREC (R367, R368). -/
def execDebugWrec (s : State) : Out :=
  debugRun "DEBUG_WREC" 3 s (fun g v t =>
    if !g.isParked then t.endDebug v 2 else t.debugPut v g.id.uid (g.debugWrec t.regs.dbgreg t.regs.dbgdata))

end Sys2Proof.Machine
end

