-- ==== Sys2Proof/Machine/GroupWide.lean ====
section
/-! DEFINITION. The five group-wide instructions (10_group_operations.md R189 to R196). Members are the active lanes. -/

namespace Sys2Proof.Machine

open Sys2Proof

/-- The set of the lanes of a list. -/
def laneSetOf (ls : List Nat) : LaneSet := ls.foldl (fun m l => m ||| BitVec.ofNat 96 (2 ^ l)) 0

/-! ### VVOTE (R190) -/

/-- The members whose predicate holds. -/
def votesOf (m : LaneSet) (v : LaneVals) : List Nat := (lanesOf m).filter (fun l => decide (v.word l ≠ 0))

/-- VVOTE (R190): `X` picks any, all, count or ballot. -/
def execVvote (f : VR) (s : State) : Out :=
  let d : BitVec 6 := f.d.setWidth 6
  let ballot := decide (f.x = 3)
  finish 1 (s.runVR (f.okVote && s.grp.tripOk f.m && (if ballot then s.grp.tripOk d else s.grp.scalOk d)) true
    (if ballot then s.grp.liveInTriple d else s.grp.liveIn d) f.t [useA f false]
    (fun o g =>
      let m := g.mask f.m
      let yes := votesOf m o.a
      match f.x.toNat with
      | 0 => g.ws d (boolWord (!yes.isEmpty))
      | 1 => g.ws d (boolWord (decide (yes.length = popCount m)))
      | 2 => g.ws d (BitVec.ofNat 32 yes.length)
      | _ => g.setRaw d (laneSetOf yes)))

/-! ### VSHFL (R191) -/

/-- The source lane of member `l`, exact. -/
def shuffleFrom (x : BitVec 5) (l b : Nat) : Int :=
  match x.toNat with
  | 0 => b
  | 1 => (l ^^^ b : Nat)
  | 2 => (l : Int) - b
  | _ => (l : Int) + b

/-- VSHFL (R191): an immediate lane operand is sign-extended to 32 bits under every type. -/
def execVshfl (f : VR) (s : State) : Out :=
  vecMove f.okShfl f [useA f f.wide, useB f false] (fun g => g.mask f.m)
    (fun g o l =>
      let b := if f.kindB = 3 then (f.b.signExtend 32).toNat else (o.b.word l).toNat
      let j := shuffleFrom f.x l b
      if 0 ≤ j && decide (j ≤ 95) && (g.mask f.m).getLsbD j.toNat then o.a[j.toNat]?.getD 0 else o.a[l]?.getD 0) s

/-! ### VMATCH (R192) -/

/-- Two keys are equal (R192). -/
def keyEq (fp : Bool) (fpcr a b : Word) : Bool :=
  if fp then
    let x := flushIn fpcr .f32 a.toNat
    let y := flushIn fpcr .f32 b.toNat
    ((fval .f32 x).isNan && (fval .f32 y).isNan) || ((fval .f32 x).isZero && (fval .f32 y).isZero) || decide (x = y)
  else decide (a = b)

/-- VMATCH (R192). -/
def execVmatch (f : VR) (s : State) : Out :=
  finish 1 (s.runVR (f.okMatch && s.grp.tripOk f.m && s.grp.dstOk f true) true (s.grp.dstLive f true) f.t [useA f false]
    (fun o g =>
      let m := g.mask f.m
      let same (l : Nat) : List Nat := (lanesOf m).filter (fun j => keyEq (decide (f.t = 3)) g.fpcr (o.a.word j) (o.a.word l))
      g.writeLanes f.d.toNat true m (fun l => ⟨pairOf (BitVec.ofNat 32 ((same l).headD 0)) (BitVec.ofNat 32 (same l).length), 0⟩)))

/-! ### Reductions and scans (R193 to R195) -/

/-- The operation ∘ of R193 on flushed operands. -/
def reduceOp (fpcr : Word) (t : BitVec 3) (op : Nat) (p q : Nat) : FRes :=
  if t = 0 then
    let a : Word := BitVec.ofNat 32 p
    let b : Word := BitVec.ofNat 32 q
    match op with
    | 0 => ⟨(a + b).toNat, 0⟩
    | 1 => ⟨if b.slt a then q else p, 0⟩
    | 2 => ⟨if a.slt b then q else p, 0⟩
    | 3 => ⟨min p q, 0⟩
    | _ => ⟨max p q, 0⟩
  else
    let u := fmtOf t
    match op with
    | 0 => fAdd fpcr u .rne p q
    | 1 => fMinMax u false false p q
    | 2 => fMinMax u true false p q
    | 3 => fMinMax u false true p q
    | _ => fMinMax u true true p q

/-- The identity of R193, of integers. -/
def reduceIdInt (op : Nat) : Nat :=
  match op with
  | 1 => 0x7FFFFFFF
  | 2 => 0x80000000
  | 3 => 0xFFFFFFFF
  | _ => 0

/-- The identity of R193, of floating-point values: +0 for a sum, +infinity for a minimum, -infinity for a maximum. -/
def reduceIdFp (u : Fmt) (op : Nat) : Nat :=
  match op with
  | 0 => 0
  | 1 => (infOf u false).bits
  | 2 => (infOf u true).bits
  | 3 => (infOf u false).bits
  | _ => (infOf u true).bits

/-- The identity of R193. -/
def reduceId (t : BitVec 3) (op : Nat) : Nat := if t = 0 then reduceIdInt op else reduceIdFp (fmtOf t) op

/-- Comb(p, q) of R193, with the flags raised so far. -/
def comb (op : Nat → Nat → FRes) : Option FRes → Option FRes → Option FRes
  | none, q => q
  | p, none => p
  | some p, some q =>
    let r := op p.bits q.bits
    some ⟨r.bits, p.flags ||| q.flags ||| r.flags⟩

/-- Tree(S, lo, 2^k) of R193; `x` gives the members' values. -/
def tree (op : Nat → Nat → FRes) (x : Nat → Option Nat) : Nat → Nat → Option FRes
  | 0, lo => (x lo).map (fun v => ⟨v, 0⟩)
  | k + 1, lo => comb op (tree op x k lo) (tree op x k (lo + 2 ^ k))

/-- Reduce(S) of R193. -/
def reduce (op : Nat → Nat → FRes) (empty : Nat) (x : Nat → Option Nat) : FRes :=
  (comb op (comb op (tree op x 5 0) (tree op x 5 32)) (tree op x 5 64)).getD ⟨empty, 0⟩

/-- Reduce over the members of a set, from the values of an operand. -/
def reduceLanes (fpcr : Word) (f : VR) (v : LaneVals) (m : LaneSet) : FRes :=
  let op := (f.x.extractLsb' 0 3).toNat
  let value (l : Nat) : Nat :=
    let b := if f.wide then (v[l]?.getD 0).toNat else (v.word l).toNat
    if f.t = 0 then b else flushIn fpcr (fmtOf f.t) b
  reduce (reduceOp fpcr f.t op) (reduceId f.t op) (fun l => if m.getLsbD l then some (value l) else none)

/-- VRED (R194). -/
def execVred (f : VR) (s : State) : Out :=
  let d : BitVec 6 := f.d.setWidth 6
  finish 1 (s.runVR
    (f.okRed true && s.grp.tripOk f.m && (if f.wide then s.grp.scalOk d && s.grp.scalOk (d + 1) else s.grp.scalOk d)) true
    (if f.wide then s.grp.liveInPair d else s.grp.liveIn d) f.t [useA f f.wide]
    (fun o g =>
      let r := reduceLanes g.fpcr f o.a (g.mask f.m)
      (if f.wide then g.wp d (BitVec.ofNat 64 r.bits) else g.ws d (BitVec.ofNat 32 r.bits)).raiseFlags r.flags))

/-- VSCAN (R195): each member's own prefix set is reduced by the tree. -/
def execVscan (f : VR) (s : State) : Out :=
  finish 1 (s.runVR (f.okRed false && s.grp.tripOk f.m && s.grp.dstOk f f.wide) true (s.grp.dstLive f f.wide) f.t
    [useA f f.wide]
    (fun o g =>
      let m := g.mask f.m
      g.writeLanes f.d.toNat f.wide m (fun l =>
        (reduceLanes g.fpcr f o.a (m &&& laneRange 0 (if f.x.getLsbD 3 then l else l + 1))).lane)))

end Sys2Proof.Machine
end

