-- ==== Sys2Proof/Machine/HostLink.lean ====
section
/-! DEFINITION. The control block, the host's apertures, the ordering point, and die resets (18_package_host_fabric.md R341
to R349). -/

namespace Sys2Proof.Machine

open Sys2Proof

/-! ### Reading the control block (R347) -/

/-- The key of a byte of a function's MSI-X table, which holds what the host writes (log entry 11). -/
def keyMsix (fn off : Nat) : Nat := placeKey 6 fn off

/-- A byte of MSI-X table, by the function and the offset in its control block. -/
def isMsix (fn off : Nat) : Bool :=
  if fn = 0 then decide (0x10000 ≤ off) && decide (off < 0x18000) else decide (0x8000 ≤ off) && decide (off < 0x8400)

/-- A register of every function: its size in bytes and its value. -/
def State.commonReg (s : State) (fn off : Nat) : Option (Nat × DWord) :=
  let r := s.fnRegs fn
  match off with
  | 0x00 => some (8, s.built.caps)
  | 0x08 => some (8, s.regs.health)
  | 0x10 => some (8, r.qctl)
  | 0x18 => some (8, r.objctl)
  | 0x20 => some (8, r.tlbinvLo)
  | 0x28 => some (8, r.tlbinvHi)
  | 0x30 => some (8, r.pktgt)
  | 0x38 => some (8, r.pkcmd)
  | 0x40 => some (4, wordData r.dberr)
  | _ => none

/-- Bytes of a vector of bytes as a 64-bit value. -/
def bytesData (b : List Byte) : DWord := BitVec.ofNat 64 (bytesNat b)

/-- The registers of an indexed kind in the PF's block. -/
def State.arrayReg (s : State) (off : Nat) : Option (Nat × DWord) :=
  let r := s.regs
  if off % 8 ≠ 0 then none
  else if 0x240 ≤ off ∧ off < 0x250 then some (8, bytesData ((r.tcsel.toList.drop (off - 0x240)).take 8))
  else if 0x280 ≤ off ∧ off < 0x2C0 then some (8, bytesData ((r.tweight.toList.drop (off - 0x280)).take 8))
  else if 0x400 < off ∧ off < 0x600 then some (8, r.s2root[(off - 0x400) / 8]?.getD 0)
  else if 0x600 ≤ off ∧ off < 0x800 then some (8, r.toffs[(off - 0x600) / 8]?.getD 0)
  else if 0x800 ≤ off ∧ off < 0x8C0 then some (4, wordData (r.fplink[(off - 0x800) / 8]?.getD 0))
  else if 0x900 ≤ off ∧ off < 0x9C0 then some (8, r.fpallow[(off - 0x900) / 8]?.getD 0)
  else none

/-- A register of the PF's block. -/
def State.partReg (s : State) (off : Nat) : Option (Nat × DWord) :=
  let r := s.regs
  match off with
  | 0x100 => some (4, wordData r.bootst)
  | 0x104 => some (4, wordData s.ownctlValue)
  | 0x108 => some (4, wordData r.ownerr)
  | 0x200 => some (8, r.qtroot)
  | 0x208 => some (8, r.ctxroot)
  | 0x210 => some (8, r.pasidroot)
  | 0x218 => some (4, wordData r.classcfg)
  | 0x220 => some (8, r.vfapsz)
  | 0x228 => some (8, r.dreset)
  | 0x230 => some (8, r.tcen)
  | 0x238 => some (4, wordData r.fdevid)
  | 0x250 => some (8, r.frtroot)
  | 0x258 => some (8, r.finroot)
  | 0x260 => some (8, r.ferrcnt)
  | 0x8000 => some (8, r.dbgtgt)
  | 0x8008 => some (8, r.dbgreg)
  | 0x8010 => some (8, r.dbgdata)
  | 0x8018 => some (8, r.dbgcmd)
  | _ => s.arrayReg off

/-- The register at an offset of a function's control block, or none where the map names none. -/
def State.regAt (s : State) (fn off : Nat) : Option (Nat × DWord) :=
  match s.commonReg fn off with
  | some r => some r
  | none => if fn = 0 then s.partReg off else none

/-- A naturally aligned access of 4 or 8 bytes. -/
def accessOk (off size : Nat) : Bool := (decide (size = 4) || decide (size = 8)) && decide (off % size = 0)

/-- What a part in recovery serves (R363). -/
def servedInRecovery (off : Nat) : Bool := [0x0, 0x4, 0x8, 0xC, 0x100, 0x104].contains off

/-- The part serves an access to the control block (R363). -/
def State.serves (s : State) (off : Nat) : Bool := s.isUp || (decide (s.stage = 5) && servedInRecovery off)

/-- A read of `size` bytes of the control block: a 4-byte register reads zero above itself, and what the map does not name
reads zero. -/
def State.regRead (s : State) (fn off size : Nat) : DWord :=
  if isMsix fn off then bytesData (s.mem.getMany (keyMsix fn off) size)
  else
    match s.regAt fn off with
    | some (n, v) => if size = 4 || n = 4 then wordData (loHalf v) else v
    | none =>
      match (if off % 8 = 4 && decide (size = 4) then s.regAt fn (off - 4) else none) with
      | some (8, v) => wordData (hiHalf v)
      | _ => 0

/-! ### Writing the control block (R347, R366) -/

/-- The function in whose block a master writes. -/
def masterFn : Master → Nat
  | .fn n => n
  | .bmc => 0

/-- What an event row does, as part of a register write. -/
def State.viaRow (s : State) (a : EvArg) (row : State → Out) : State :=
  match row { s with ev := a } with
  | .next t => { t with ev := s.ev }
  | _ => s

/-- A write to QCTL. -/
def State.writeQctl (s : State) (fn : Nat) (v : DWord) : State :=
  let old := (s.fnRegs fn).qctl
  if old.getLsbD 63 then s
  else if v.getLsbD 63 then
    match fld v 60 3 with
    | 0 => s.viaRow (.fnReg fn v) execQctlInval
    | 1 => s.viaRow (.fnReg fn v) execQctlDestroy
    | 2 => s.viaRow (.fnReg fn v) execQctlDbmap
    | 3 => s.viaRow (.fnReg fn v) execQctlDbunmap
    | _ => s.endQctl fn v 1
  else s.onFn fn (fun r => { r with qctl := qctlAfter v false (fld old 52 7) })

/-- A write to OBJCTL (R333); one while GO reads 1 is ignored (the model's choice, log entry 104). -/
def State.writeObjctl (s : State) (fn : Nat) (v : DWord) : State :=
  let old := (s.fnRegs fn).objctl
  if old.getLsbD 63 then s
  else if v.getLsbD 63 then
    match fld v 61 2 with
    | 0 => s.viaRow (.fnReg fn v) execObjctlInstall
    | 1 => s.viaRow (.fnReg fn v) execObjctlRemove
    | _ => s.setObjctl fn v false 1
  else s.setObjctl fn v false (fld old 58 3)

/-- A write to the upper half of TLBINV. -/
def State.writeTlbinv (s : State) (fn : Nat) (v : DWord) : State :=
  let old := (s.fnRegs fn).tlbinvHi
  if old.getLsbD 63 then s
  else if v.getLsbD 63 then
    match fld v 61 2 with
    | 0 => s.viaRow (.fnReg fn v) execTlbinvPasid
    | 1 => s.viaRow (.fnReg fn v) execTlbinvRange
    | 2 => s.viaRow (.fnReg fn v) execTlbinvStage2
    | _ => s.endTlb fn v 1
  else s.onFn fn (fun r => { r with tlbinvHi := tlbAfter v false (fld old 58 3) })

/-- A write to PKCMD. -/
def State.writePkcmd (s : State) (fn : Nat) (v : DWord) : State :=
  let old := (s.fnRegs fn).pkcmd
  if old.getLsbD 63 then s
  else if v.getLsbD 63 then
    match fld v 60 3 with
    | 0 => s.viaRow (.fnReg fn v) execParkctlResumeInstruction
    | 1 => s.viaRow (.fnReg fn v) execParkctlResumeHandler
    | 2 => s.viaRow (.fnReg fn v) execParkctlKillGroup
    | 3 => s.viaRow (.fnReg fn v) execParkctlKillTeam
    | 4 => s.viaRow (.fnReg fn v) execParkctlKillBand
    | 5 => s.viaRow (.fnReg fn v) execParkctlKillContext
    | _ => s.endPark fn v 1
  else s.onFn fn (fun r => { r with pkcmd := pkcmdAfter v (fld old 56 4) })

/-- A write to DBGCMD. -/
def State.writeDbgcmd (s : State) (m : Master) (v : DWord) : State :=
  let old := s.regs.dbgcmd
  if old.getLsbD 63 then s
  else if v.getLsbD 63 then
    match dbgOp v with
    | 0 => s.viaRow (.master m v) execDebugHalt
    | 1 => s.viaRow (.master m v) execDebugRead
    | 2 => s.viaRow (.master m v) execDebugWrite
    | 3 => s.viaRow (.master m v) execDebugWrec
    | _ => s.endDebug v (if s.owns m then 5 else 4)
  else s.endDebug v (fld old 55 4)

/-- DRESET with a DIE, GO and ST (R342). -/
def dresetOf (die : Nat) (go : Bool) (st : Nat) : DWord := BitVec.ofNat 64 (die % 16 + st * 2 ^ 52 + (if go then 2 ^ 63 else 0))

/-- A die is neither fenced nor absent. -/
def State.diePresent (s : State) (die : Nat) : Bool :=
  if die < 2 then s.built.dies.getLsbD die else if die < 4 then true else if die < 8 then s.built.ods.getLsbD (die - 4) else true

/-- The owner's write to DRESET: the reset itself follows as an event of its own (R342, R343). -/
def State.writeDreset (s : State) (v : DWord) : State :=
  let die := fld v 0 4
  let put (go : Bool) (st : Nat) : State := s.onRegs (fun r => { r with dreset := dresetOf die go st })
  if s.regs.dreset.getLsbD 63 then s
  else if !v.getLsbD 63 then put false (fld s.regs.dreset 52 4)
  else if 9 ≤ die then put false 3
  else if die = 2 then put false 1
  else if s.diePresent die then put true 0
  else put false 2

/-- Bytes of TWEIGHT from `k` on: 0 is read as 1 (R296). -/
def setWeights (v : Vector Byte 64) (k : Nat) : List Byte → Vector Byte 64
  | [] => v
  | x :: xs => setWeights (v.setIfInBounds k (if x = 0 then 1 else x)) (k + 1) xs

/-- An owner register of an indexed kind takes a value. -/
def PartRegs.putArray (r : PartRegs) (off : Nat) (v : DWord) : PartRegs :=
  if off % 8 ≠ 0 then r
  else if 0x280 ≤ off ∧ off < 0x2C0 then { r with tweight := setWeights r.tweight (off - 0x280) (natBytes 8 v.toNat) }
  else if 0x400 < off ∧ off < 0x600 then { r with s2root := r.s2root.setIfInBounds ((off - 0x400) / 8) (v &&& rootMask) }
  else if 0x600 ≤ off ∧ off < 0x800 then { r with toffs := r.toffs.setIfInBounds ((off - 0x600) / 8) v }
  else if 0x800 ≤ off ∧ off < 0x8C0 then { r with fplink := r.fplink.setIfInBounds ((off - 0x800) / 8) (loHalf v &&& 0x00FFFFFF) }
  else if 0x900 ≤ off ∧ off < 0x9C0 then { r with fpallow := r.fpallow.setIfInBounds ((off - 0x900) / 8) v }
  else r

/-- An offset of an indexed owner register. -/
def isArray (off : Nat) : Bool :=
  (decide (0x280 ≤ off) && decide (off < 0x2C0)) || (decide (0x400 < off) && decide (off < 0x8C0)) ||
  (decide (0x900 ≤ off) && decide (off < 0x9C0))

/-- A register of the PF's block takes a value (R366); a port left with no link fails its requests (R358). -/
def State.putPart (s : State) (m : Master) (off : Nat) (v : DWord) : State :=
  let own (h : PartRegs → PartRegs) : State := s.ownWrite m (fun t => t.onRegs h)
  match off with
  | 0x104 => s.writeOwnctl m (loHalf v)
  | 0x200 => own (fun r => { r with qtroot := v &&& rootMask })
  | 0x208 => own (fun r => { r with ctxroot := v &&& rootMask })
  | 0x210 => own (fun r => { r with pasidroot := v &&& rootMask })
  | 0x218 => s.viaRow (.master m v) execClasscfgWrite
  | 0x220 => s.viaRow (.master m v) execVfapszWrite
  | 0x228 => s.ownWrite m (fun t => t.writeDreset v)
  | 0x230 => own (fun r => { r with tcen := v })
  | 0x238 => own (fun r => { r with fdevid := loHalf v &&& 0x800FFFFF })
  | 0x250 => s.viaRow (.master m v) execFrtrootWrite
  | 0x258 => s.viaRow (.master m v) execFinrootWrite
  | 0x8000 => s.onRegs (fun r => { r with dbgtgt := v &&& 0x1FFFFFFFFFFF })
  | 0x8008 => s.onRegs (fun r => { r with dbgreg := v &&& 0xFFFFFFFF })
  | 0x8010 => s.onRegs (fun r => { r with dbgdata := v })
  | 0x8018 => s.writeDbgcmd m v
  | _ => if isArray off then s.ownWrite m (fun t => (t.onRegs (fun r => r.putArray off v)).failPorts) else s

/-- The register at an offset takes a value; read-only registers and offsets that the map does not name are left alone. -/
def State.putReg (s : State) (m : Master) (off : Nat) (v : DWord) : State :=
  let fn := masterFn m
  match off with
  | 0x10 => s.writeQctl fn v
  | 0x18 => s.writeObjctl fn v
  | 0x20 =>
    if (s.fnRegs fn).tlbinvHi.getLsbD 63 then s else s.onFn fn (fun r => { r with tlbinvLo := v &&& 0x01FFFFFFFFFC0000 })
  | 0x28 => s.writeTlbinv fn v
  | 0x30 => s.onFn fn (fun r => { r with pktgt := v &&& 0xFFFFFFFFFF })
  | 0x38 => s.writePkcmd fn v
  | _ => if fn = 0 then s.putPart m off v else s

/-- A write of 4 or 8 bytes to a control block (R347): of another size or alignment it is dropped. A write of half a register
leaves the other half; TCSEL takes each byte on its own. -/
def State.regWrite (s : State) (m : Master) (off size : Nat) (v : DWord) : State :=
  let fn := masterFn m
  if !accessOk off size then s.send (.unsupported fn)
  else if !s.serves off then s
  else if isMsix fn off then { s with mem := s.mem.setMany (keyMsix fn off) (natBytes size v.toNat) }
  else if decide (fn = 0) && decide (0x240 ≤ off) && decide (off < 0x250) then s.viaRow (.reg m off size v) execTcselWrite
  else
    match s.regAt fn off with
    | some (n, old) =>
      if size = 4 && n = 8 then s.putReg m off (pairOf (loHalf v) (hiHalf old))
      else if n = 4 then s.putReg m off (wordData (loHalf v)) else s.putReg m off v
    | none =>
      match (if off % 8 = 4 && decide (size = 4) then s.regAt fn (off - 4) else none) with
      | some (8, old) => s.putReg m (off - 4) (pairOf (loHalf old) (loHalf v))
      | _ => s

/-- REGISTER_WRITE (R347, R366). -/
def execRegisterWrite (s : State) : Out :=
  match s.ev with
  | .reg m off size v => if masterFn m < 64 then .next (s.regWrite m off size v) else .refused (.notEnabled "REGISTER_WRITE")
  | _ => .refused (.notEnabled "REGISTER_WRITE")

/-! ### The apertures (R346) -/

/-- The keys of `n` bytes at an offset of a function's memory aperture, for a write or a read; none where decoding,
translation, HSIZE or the world check fails (R337, R344, R346). -/
def State.apertureKeys (s : State) (fn off n : Nat) (write : Bool) : Option (List Nat) :=
  if fn = 0 then
    if off + n ≤ 2 ^ 40 then s.formKeys .spread (s.regs.fnSecure 0) off n
    else if 2 ^ 44 ≤ off ∧ off + n ≤ 2 ^ 44 + 2 ^ 39 then s.formKeys (.loc 0) (s.regs.fnSecure 0) (off - 2 ^ 44) n
    else if 2 ^ 45 ≤ off ∧ off + n ≤ 2 ^ 45 + 2 ^ 39 then s.formKeys (.loc 1) (s.regs.fnSecure 0) (off - 2 ^ 45) n
    else none
  else if 2 ^ s.regs.vfapInForce.toNat < off + n then none
  else
    (List.range n).mapM (fun i =>
      match s.stage2 fn (off + i) with
      | some l =>
        if if write then l.w else l.r then ((s.formKeys l.kind (s.regs.fnSecure fn) (l.addr (off + i)) 1).bind List.head?) else none
      | none => none)

/-- `n` bytes at an offset of a VF's aperture are translated: the walks of stage 2 are counted, with their reads (R325, R335). -/
def State.walkAperture (s : State) (fn bar off n : Nat) : State :=
  if !s.isUp || decide (bar ≠ 4) || decide (fn = 0) || decide (2 ^ s.regs.vfapInForce.toNat < off + n) then s
  else
    (List.range ((off % 4096 + n + 4095) / 4096)).foldl (fun t i =>
      (s.stage2Reads fn (4096 * (off / 4096 + i))).foldl (fun u k => u.countMsc fn (lineOf k)) (t.countEvent fn 10 1)) s

/-- The function is there: the PF, or a VF while VF Enable is set. -/
def State.fnThere (s : State) (fn : Nat) : Bool := decide (fn = 0) || (s.regs.vfEnable && decide (fn < 64))

/-! ### The ordering point (R348) -/

/-- The stream of a function. -/
def State.postsOf (s : State) (fn : Nat) : PostStream := (s.posts.find? (fun p => p.fn = fn)).getD ⟨fn, 0, []⟩

/-- Put a function's stream back. -/
def State.setPosts (s : State) (p : PostStream) : State := { s with posts := p :: s.posts.filter (fun q => q.fn ≠ p.fn) }

/-- A posted write as the aligned 64-byte units that it touches, each with its offset. -/
def splitUnits (off : Nat) (bytes : List Byte) : List (Nat × List Byte) :=
  (List.range ((off % 64 + bytes.length + 63) / 64)).map (fun k =>
    let base := off / 64 * 64 + 64 * k
    let lo := max off base
    (lo, (bytes.drop (lo - off)).take (min (off + bytes.length) (base + 64) - lo)))

/-- The requests of a posted write, or none where it is dropped (R346, R347, R302). -/
def State.postReqs (s : State) (fn bar off : Nat) (bytes : List Byte) (write : Nat) : Option (List PostReq) :=
  match bar with
  | 0 =>
    if accessOk off bytes.length && decide (off + bytes.length ≤ (if fn = 0 then 2 ^ 20 else 2 ^ 16)) then
      some [⟨write, 2, [], some (0, BitVec.ofNat 64 off, bytes), none⟩]
    else none
  | 2 =>
    if s.isUp && accessOk off bytes.length && decide (off % 8 = 0) && decide (off < 524288) then
      some [⟨write, 2, [], some (2, BitVec.ofNat 64 off, bytes), none⟩]
    else none
  | 4 =>
    if s.isUp && (s.apertureKeys fn off bytes.length true).isSome then
      (splitUnits off bytes).mapM (fun u =>
        (s.apertureKeys fn u.1 u.2.length true).map (fun ks =>
          ⟨write, ((ks.head?.bind homeDie).getD 0), ks.zip u.2, none, none⟩))
    else none
  | _ => none

/-- INBOUND_POSTED_WRITE (R346, R348): split into requests, or dropped and reported as Unsupported Request. A request that
arrives shows that the link is up; a part that is not enumerated takes none (R363). -/
def execInboundPostedWrite (s : State) : Out :=
  match s.ev with
  | .post fn bar off bytes =>
    if !s.enumerated then .refused (.notEnabled "INBOUND_POSTED_WRITE") else
    let s1 : State := { s with built := { s.built with linkUp := true } }
    let p := s.postsOf fn
    if !s.fnThere fn || bytes.isEmpty then .next (s1.send (.unsupported fn))
    else
      let s2 := s1.walkAperture fn bar off.toNat bytes.length
      match s.postReqs fn bar off.toNat bytes p.count with
      | some rs => .next (s2.setPosts { p with count := p.count + 1, reqs := p.reqs ++ rs })
      | none => .next (s2.send (.unsupported fn))
  | _ => .refused (.notEnabled "INBOUND_POSTED_WRITE")

/-- The request may be sent: earlier writes' requests on its route have been, those on other routes are acknowledged. -/
def PostStream.maySend (p : PostStream) (r : PostReq) : Bool :=
  r.sentAt.isNone && p.reqs.all (fun q => decide (r.write ≤ q.write) || (decide (q.route = r.route) && q.sentAt.isSome))

/-- A request of a stream is sent; with the last of its write, that write's posted credits are returned. -/
def State.sendPost (s : State) (fn : Nat) (p : PostStream) (i : Nat) (r : PostReq) : State :=
  let p1 := { p with reqs := p.reqs.set i { r with sentAt := some s.nextId } }
  let s1 : State := { s.setPosts p1 with nextId := s.nextId + 1 }
  if p1.reqs.all (fun q => q.sentAt.isSome || decide (q.write ≠ r.write)) then s1.send (.credits fn r.write) else s1

/-- ORDERING_POINT_SEND (R348). -/
def execOrderingPointSend (s : State) : Out :=
  match s.ev with
  | .opoint fn i =>
    let p := s.postsOf fn
    match p.reqs[i]? with
    | some r =>
      if p.maySend r then .next (s.sendPost fn p i r)
      else .refused (.notEnabled "ORDERING_POINT_SEND")
    | none => .refused (.notEnabled "ORDERING_POINT_SEND")
  | _ => .refused (.notEnabled "ORDERING_POINT_SEND")

/-- A request is performed: its bytes at system scope, for the tenant (R335), where loads that an acquire at system scope does not order
after it may still find the old ones (R162, R390); or its register or doorbell by HD. -/
def State.performPost (s : State) (fn : Nat) (r : PostReq) : State :=
  match r.barWrite with
  | none =>
    { (s.atMsc fn false (r.cells.map (·.1))).writeKeys (r.cells.map (·.1)) (r.cells.map (·.2)) with hostOld := s.hostOld }
  | some (bar, off, bytes) =>
    let v := BitVec.ofNat 64 (bytesNat bytes)
    if bar = 0 then s.regWrite (.fn fn) off.toNat bytes.length v else s.doorbell fn (off.toNat / 8) v

/-- The request has been sent, and those sent before it on its route are acknowledged. -/
def PostStream.mayAck (p : PostStream) (r : PostReq) : Bool :=
  match r.sentAt with
  | none => false
  | some t => p.reqs.all (fun q => decide (q.route ≠ r.route) || (match q.sentAt with
    | some u => decide (t ≤ u)
    | none => true))

/-- A request is performed and acknowledged, and leaves the stream. -/
def State.ackPost (s : State) (fn : Nat) (p : PostStream) (i : Nat) (r : PostReq) : State :=
  (s.setPosts { p with reqs := p.reqs.eraseIdx i }).performPost fn r

/-- ORDERING_POINT_ACK (R348). -/
def execOrderingPointAck (s : State) : Out :=
  match s.ev with
  | .opoint fn i =>
    let p := s.postsOf fn
    match p.reqs[i]? with
    | some r => if p.mayAck r then .next (s.ackPost fn p i r) else .refused (.notEnabled "ORDERING_POINT_ACK")
    | none => .refused (.notEnabled "ORDERING_POINT_ACK")
  | _ => .refused (.notEnabled "ORDERING_POINT_ACK")

/-- The bytes that a host read returns, or none for Unsupported Request. -/
def State.hostBytes (s : State) (fn bar off n : Nat) : Option (List Byte) :=
  match bar with
  | 0 =>
    if accessOk off n && decide (off + n ≤ (if fn = 0 then 2 ^ 20 else 2 ^ 16)) && s.serves off then
      some (natBytes n (s.regRead fn off n).toNat)
    else none
  | 4 => if s.isUp then (s.apertureKeys fn off n false).map (fun ks => ks.map s.backing) else none
  | _ => none

/-- A read of an aperture is served at the memory-side cache (R335). -/
def State.readAperture (s : State) (fn bar off n : Nat) : State :=
  if bar = 4 then s.atMsc fn true ((s.apertureKeys fn off n false).getD []) else s

/-- What a read of the PF's control block by the BMC over MCTP answers (R347): the bytes, or nothing. BOOTST is read at every stage
(R362). -/
def State.bmcRead (s : State) (off n : Nat) : OutMsg :=
  if accessOk off n && decide (off + n ≤ 2 ^ 20) && (s.serves off || decide (off = 0x100)) then
    .regData (natBytes n (s.regRead 0 off n).toNat)
  else .noReg

/-- INBOUND_HOST_READ (R346, R348): once every earlier posted write of the function is acknowledged. A read by the BMC comes by no
host link, and waits for nothing (R347). -/
def execInboundHostRead (s : State) : Out :=
  match s.ev with
  | .bmcRead off count => .next (s.send (s.bmcRead off count))
  | .hostRead fn bar off count =>
    if !s.enumerated || !(s.postsOf fn).reqs.isEmpty then .refused (.notEnabled "INBOUND_HOST_READ")
    else
      let s1 : State := { s with built := { s.built with linkUp := true } }
      if !s.fnThere fn then .next (s1.send (.unsupported fn))
      else
        let s2 := s1.walkAperture fn bar off.toNat count
        match s.hostBytes fn bar off.toNat count with
        | some bs => .next ((s2.readAperture fn bar off.toNat count).send (.readDone fn bs))
        | none => .next (s2.send (.unsupported fn))
  | _ => .refused (.notEnabled "INBOUND_HOST_READ")

/-! ### Die resets (R341 to R343) -/

/-- The band stands in the save area of its saved context, and nothing of it on a die (R287). -/
def State.bandAway (s : State) (ctx band : Nat) : Bool :=
  match s.ctx? ctx with
  | some c => c.isSaved && (s.ctxBands c).any (fun b => b.uid = band)
  | none => false

/-- The command was saved with its context (R208, R287). -/
def State.copyAway (s : State) (x : CopyCmd) : Bool := x.suspended && ((s.ctx? x.ctx).map (·.isSaved)).getD false

/-- The contexts with a group, a helper, a copy or matrix command or a tile on a die; what lies in a save area is not on it. -/
def State.ctxsOn (s : State) (d : Nat) : List Nat :=
  let on (g : Group) : Bool := decide (g.id.uid ≠ 0) && decide (dieOfCluster g.id.cluster = d) && !s.bandAway g.id.ctx g.id.band &&
    ((g.lives && match g.status with
    | .saved _ _ => false
    | _ => true) || !g.mxq.isEmpty)
  (((s.groups.filter on).map (fun g => g.id.ctx)) ++
    ((s.copies.filter (fun c => decide (dieOfCluster c.cluster = d) && (c.engine.isSome || c.group.isSome) && !s.copyAway c)).map
      (·.ctx))).eraseDups

/-- A die fails authentication: it is fenced under the policy in force (R363). -/
def State.fenceDie (s : State) (die : Nat) : State :=
  let fail : Byte := BitVec.ofNat 8 (2 ^ die)
  let allow := s.regs.bootst.getLsbD 1
  let b := s.built.fence fail
  let all := (s.regs.bootst.extractLsb' 16 8) ||| fail
  let stage := if s.stage = 5 || (decide (die < 2) && (!allow || decide (b.dies = 0))) then 5 else s.stage
  { s.onRegs (fun r => { r with
      bootst := bootstOf stage allow all,
      health := r.health &&& ~~~BitVec.ofNat 64 (if die < 2 then 255 * 2 ^ (24 + 8 * die) else 0) }) with built := b }

/-- Before a compute die is reset (R341, R343): its contexts are killed, its dirty lines of HOST pages and remote windows are
written back, and its reads and prefetches that have not been sent are dropped; its write-backs leave in their turns (R355). -/
def State.drainX (s : State) (d : Nat) : State :=
  let s1 := (s.ctxsOn d).foldl State.killContext s
  let s2 := s1.flushHost.sendFor (fun g => decide (g.id.uid ≠ 0) && decide (dieOfCluster g.id.cluster = d))
  { s2 with
    remote := s2.remote.filter (fun r => r.sent || r.write.isSome || decide (r.die ≠ d)),
    prefs := s2.prefs.filter (fun p => dieOfCluster (clusterOfCore p.core) ≠ d) }

/-- The routes of a compute die are drained: its write-backs have left, and every request that it has sent is answered. -/
def State.drained1 (s : State) (d : Nat) : Bool := s.remote.all (fun r => decide (r.die ≠ d))

/-- A compute die is reset: its caches and power state are fresh. -/
def State.resetX (s : State) (d : Nat) : State :=
  let s2 := s.slow d
  { s2 with
    l1 := s2.l1.filter (fun l => dieOfCluster (clusterOfCore l.core) ≠ d),
    l2 := s2.l2.filter (fun l => dieOfCluster l.cluster ≠ d),
    unswept := s2.unswept.filter (fun b => dieOfCluster (clusterOfCore (b.1 / 4)) ≠ d),
    waking := s2.waking.filter (fun b => dieOfCluster (clusterOfCore (b.1 / 4)) ≠ d) }

/-- Every request of a stream is performed, in the stream's order. -/
def State.drainStream (s : State) (fn : Nat) : List PostReq → State
  | [] => s
  | r :: rs => State.drainStream (s.performPost fn r) fn rs

/-- The ordering point is drained: every write already accepted is performed and acknowledged. -/
def State.drainPosts (s : State) : State :=
  s.posts.foldl (fun t p => t.drainStream p.fn p.reqs) { s with posts := [] }

/-- HD is reset (R343). -/
def State.resetHd (s : State) : State :=
  let s1 := ((s.ctxs.map (·.num)).foldl State.killContext s).drainPosts
  { s1.lapse with built := { s1.built with linkUp := false } }

/-- An optical die is reset: its links leave their ports, and those that no failed fibre had lost rejoin at the window after the one
in force (R355, R358). -/
def State.resetO (s : State) (k : Nat) : State :=
  let s1 := s.inWindow.loseLinks (odLinks k)
  { s1 with built := { s1.built with linkBack := s1.built.linkBack ||| ((s.built.links ||| s.built.linkBack) &&& odLinks k) } }

/-- DRESET of a compute die goes on until its routes are drained; there is nothing to do while flits only wait for their turns and
for answers. -/
def State.dresetX (s : State) (d : Nat) (k : State → Out) : Out :=
  let t := s.drainX d
  if t.drained1 d then k (t.resetX d)
  else if t.remote.length = s.remote.length && s.remote.all (fun r => r.sent || r.write.isSome || decide (r.die ≠ d)) && (s.ctxsOn d).isEmpty then
    .refused (.notEnabled "DRESET")
  else .next t

/-- DRESET (R343): the die that the register names is reset, and authenticated again. -/
def execDreset (s : State) : Out :=
  match s.ev with
  | .reset _ fail =>
    let die := fld s.regs.dreset 0 4
    if s.regs.dreset.getLsbD 63 && decide (die < 8) then
      let done (s1 : State) : Out :=
        let s2 := if fail.getLsbD die && decide (die ≠ 2) && decide (die ≠ 3) then s1.fenceDie die else s1
        .next (s2.onRegs (fun r => { r with dreset := dresetOf die false 0 })).moveQueues
      if die < 2 then s.dresetX die done else done (if die < 4 then s.resetHd else s.resetO (die - 4))
    else .refused (.notEnabled "DRESET")
  | _ => .refused (.notEnabled "DRESET")

end Sys2Proof.Machine
end

