-- ==== Sys2Proof/Machine/Dispatch.lean ====
section
/-! DEFINITION. The one dispatch from an instruction or event row to its meaning. -/

namespace Sys2Proof.Machine

open Sys2Proof

/-- One step's row on the state: an instruction of the issuing group, or an event with its argument in `ev`. -/
def exec (i : Instr) (s : State) : Host.Outcome State Fault Refusal :=
  match i with
  | .br f => Sys2Proof.Machine.execBr f s
  | .beq f => Sys2Proof.Machine.execBeq f s
  | .bne f => Sys2Proof.Machine.execBne f s
  | .blt f => Sys2Proof.Machine.execBlt f s
  | .bge f => Sys2Proof.Machine.execBge f s
  | .bltu f => Sys2Proof.Machine.execBltu f s
  | .bgeu f => Sys2Proof.Machine.execBgeu f s
  | .bmz f => Sys2Proof.Machine.execBmz f s
  | .bmnz f => Sys2Proof.Machine.execBmnz f s
  | .bmall f => Sys2Proof.Machine.execBmall f s
  | .call f => Sys2Proof.Machine.execCall f s
  | .calli f => Sys2Proof.Machine.execCalli f s
  | .ret f => Sys2Proof.Machine.execRet f s
  | .jmpi f => Sys2Proof.Machine.execJmpi f s
  | .loop f => Sys2Proof.Machine.execLoop f s
  | .lbrk f => Sys2Proof.Machine.execLbrk f s
  | .lcget f => Sys2Proof.Machine.execLcget f s
  | .lcset f => Sys2Proof.Machine.execLcset f s
  | .exit f => Sys2Proof.Machine.execExit f s
  | .yield f => Sys2Proof.Machine.execYield f s
  | .nop f => Sys2Proof.Machine.execNop f s
  | .snooze f => Sys2Proof.Machine.execSnooze f s
  | .mand f => Sys2Proof.Machine.execMand f s
  | .mor f => Sys2Proof.Machine.execMor f s
  | .mxor f => Sys2Proof.Machine.execMxor f s
  | .mandn f => Sys2Proof.Machine.execMandn f s
  | .mnot f => Sys2Proof.Machine.execMnot f s
  | .mpopc f => Sys2Proof.Machine.execMpopc f s
  | .mffs f => Sys2Proof.Machine.execMffs f s
  | .mrange f => Sys2Proof.Machine.execMrange f s
  | .mtest f => Sys2Proof.Machine.execMtest f s
  | .mmov f => Sys2Proof.Machine.execMmov f s
  | .mlive f => Sys2Proof.Machine.execMlive f s
  | .add f => Sys2Proof.Machine.execAdd f s
  | .sub f => Sys2Proof.Machine.execSub f s
  | .mul f => Sys2Proof.Machine.execMul f s
  | .mulhs f => Sys2Proof.Machine.execMulhs f s
  | .mulhu f => Sys2Proof.Machine.execMulhu f s
  | .and f => Sys2Proof.Machine.execAnd f s
  | .or f => Sys2Proof.Machine.execOr f s
  | .xor f => Sys2Proof.Machine.execXor f s
  | .andn f => Sys2Proof.Machine.execAndn f s
  | .shl f => Sys2Proof.Machine.execShl f s
  | .shr f => Sys2Proof.Machine.execShr f s
  | .sar f => Sys2Proof.Machine.execSar f s
  | .rotl f => Sys2Proof.Machine.execRotl f s
  | .min f => Sys2Proof.Machine.execMin f s
  | .max f => Sys2Proof.Machine.execMax f s
  | .minu f => Sys2Proof.Machine.execMinu f s
  | .maxu f => Sys2Proof.Machine.execMaxu f s
  | .slt f => Sys2Proof.Machine.execSlt f s
  | .sltu f => Sys2Proof.Machine.execSltu f s
  | .seq f => Sys2Proof.Machine.execSeq f s
  | .sne f => Sys2Proof.Machine.execSne f s
  | .clz f => Sys2Proof.Machine.execClz f s
  | .ctz f => Sys2Proof.Machine.execCtz f s
  | .popc f => Sys2Proof.Machine.execPopc f s
  | .brev f => Sys2Proof.Machine.execBrev f s
  | .cmov f => Sys2Proof.Machine.execCmov f s
  | .addw f => Sys2Proof.Machine.execAddw f s
  | .subw f => Sys2Proof.Machine.execSubw f s
  | .mulw f => Sys2Proof.Machine.execMulw f s
  | .shlw f => Sys2Proof.Machine.execShlw f s
  | .shrw f => Sys2Proof.Machine.execShrw f s
  | .sarw f => Sys2Proof.Machine.execSarw f s
  | .sltw f => Sys2Proof.Machine.execSltw f s
  | .sltuw f => Sys2Proof.Machine.execSltuw f s
  | .li f => Sys2Proof.Machine.execLi f s
  | .liw f lit => Sys2Proof.Machine.execLiw f lit s
  | .lea f => Sys2Proof.Machine.execLea f s
  | .movwCopy f => Sys2Proof.Machine.execMovwCopy f s
  | .movwRelative f => Sys2Proof.Machine.execMovwRelative f s
  | .vadd f => Sys2Proof.Machine.execVadd f s
  | .vsub f => Sys2Proof.Machine.execVsub f s
  | .vmul f => Sys2Proof.Machine.execVmul f s
  | .vmulh f => Sys2Proof.Machine.execVmulh f s
  | .vmulhu f => Sys2Proof.Machine.execVmulhu f s
  | .vmad f => Sys2Proof.Machine.execVmad f s
  | .vand f => Sys2Proof.Machine.execVand f s
  | .vor f => Sys2Proof.Machine.execVor f s
  | .vxor f => Sys2Proof.Machine.execVxor f s
  | .vandn f => Sys2Proof.Machine.execVandn f s
  | .vshl f => Sys2Proof.Machine.execVshl f s
  | .vshr f => Sys2Proof.Machine.execVshr f s
  | .vsar f => Sys2Proof.Machine.execVsar f s
  | .vmin f => Sys2Proof.Machine.execVmin f s
  | .vmax f => Sys2Proof.Machine.execVmax f s
  | .vminu f => Sys2Proof.Machine.execVminu f s
  | .vmaxu f => Sys2Proof.Machine.execVmaxu f s
  | .vabs f => Sys2Proof.Machine.execVabs f s
  | .vneg f => Sys2Proof.Machine.execVneg f s
  | .vpopc f => Sys2Proof.Machine.execVpopc f s
  | .vclz f => Sys2Proof.Machine.execVclz f s
  | .vicmp f => Sys2Proof.Machine.execVicmp f s
  | .vfcmp f => Sys2Proof.Machine.execVfcmp f s
  | .vfadd f => Sys2Proof.Machine.execVfadd f s
  | .vfsub f => Sys2Proof.Machine.execVfsub f s
  | .vfmul f => Sys2Proof.Machine.execVfmul f s
  | .vfma f => Sys2Proof.Machine.execVfma f s
  | .vfnma f => Sys2Proof.Machine.execVfnma f s
  | .vfmin f => Sys2Proof.Machine.execVfmin f s
  | .vfmax f => Sys2Proof.Machine.execVfmax f s
  | .vfminn f => Sys2Proof.Machine.execVfminn f s
  | .vfmaxn f => Sys2Proof.Machine.execVfmaxn f s
  | .vfabs f => Sys2Proof.Machine.execVfabs f s
  | .vfneg f => Sys2Proof.Machine.execVfneg f s
  | .vfcps f => Sys2Proof.Machine.execVfcps f s
  | .vfrnd f => Sys2Proof.Machine.execVfrnd f s
  | .vfdiv f => Sys2Proof.Machine.execVfdiv f s
  | .vfsqrt f => Sys2Proof.Machine.execVfsqrt f s
  | .vfclass f => Sys2Proof.Machine.execVfclass f s
  | .vrcp f => Sys2Proof.Machine.execVrcp f s
  | .vrsq f => Sys2Proof.Machine.execVrsq f s
  | .vexp2 f => Sys2Proof.Machine.execVexp2 f s
  | .vlog2 f => Sys2Proof.Machine.execVlog2 f s
  | .vsinpi f => Sys2Proof.Machine.execVsinpi f s
  | .vcospi f => Sys2Proof.Machine.execVcospi f s
  | .vtanh f => Sys2Proof.Machine.execVtanh f s
  | .vmov f => Sys2Proof.Machine.execVmov f s
  | .vsel f => Sys2Proof.Machine.execVsel f s
  | .vbcst f => Sys2Proof.Machine.execVbcst f s
  | .vidx f => Sys2Proof.Machine.execVidx f s
  | .vget f => Sys2Proof.Machine.execVget f s
  | .vput f => Sys2Proof.Machine.execVput f s
  | .vcvtf f => Sys2Proof.Machine.execVcvtf f s
  | .vf2i f => Sys2Proof.Machine.execVf2i f s
  | .vi2f f => Sys2Proof.Machine.execVi2f f s
  | .vcvt8 f => Sys2Proof.Machine.execVcvt8 f s
  | .vext8 f => Sys2Proof.Machine.execVext8 f s
  | .vscale f => Sys2Proof.Machine.execVscale f s
  | .vbscl f => Sys2Proof.Machine.execVbscl f s
  | .vpk8 f => Sys2Proof.Machine.execVpk8 f s
  | .vupk8 f => Sys2Proof.Machine.execVupk8 f s
  | .vrngs f => Sys2Proof.Machine.execVrngs f s
  | .vrng f => Sys2Proof.Machine.execVrng f s
  | .sld p f => Sys2Proof.Machine.execSld p f s
  | .sst p f => Sys2Proof.Machine.execSst p f s
  | .vld p f => Sys2Proof.Machine.execVld p f s
  | .vst p f => Sys2Proof.Machine.execVst p f s
  | .vldb p f => Sys2Proof.Machine.execVldb p f s
  | .vstb p f => Sys2Proof.Machine.execVstb p f s
  | .zset f => Sys2Proof.Machine.execZset f s
  | .zsets f => Sys2Proof.Machine.execZsets f s
  | .zrew f => Sys2Proof.Machine.execZrew f s
  | .zposRead f => Sys2Proof.Machine.execZposRead f s
  | .zposSet f => Sys2Proof.Machine.execZposSet f s
  | .zposEnd f => Sys2Proof.Machine.execZposEnd f s
  | .fence p f => Sys2Proof.Machine.execFence p f s
  | .cwb p f => Sys2Proof.Machine.execCwb p f s
  | .cinv p f => Sys2Proof.Machine.execCinv p f s
  | .pref p f => Sys2Proof.Machine.execPref p f s
  | .chopen f => Sys2Proof.Machine.execChopen f s
  | .chwait f => Sys2Proof.Machine.execChwait f s
  | .chclose f => Sys2Proof.Machine.execChclose f s
  | .satom p f => Sys2Proof.Machine.execSatom p f s
  | .vatom p f => Sys2Proof.Machine.execVatom p f s
  | .fxadd p f => Sys2Proof.Machine.execFxadd p f s
  | .fxrd p f => Sys2Proof.Machine.execFxrd p f s
  | .bart f => Sys2Proof.Machine.execBart f s
  | .bara f => Sys2Proof.Machine.execBara f s
  | .barw f => Sys2Proof.Machine.execBarw f s
  | .barb f => Sys2Proof.Machine.execBarb f s
  | .sbinit f => Sys2Proof.Machine.execSbinit f s
  | .sbarv f => Sys2Proof.Machine.execSbarv f s
  | .sbwait f => Sys2Proof.Machine.execSbwait f s
  | .waitv p f => Sys2Proof.Machine.execWaitv p f s
  | .batt f => Sys2Proof.Machine.execBatt f s
  | .bpost f => Sys2Proof.Machine.execBpost f s
  | .bread f => Sys2Proof.Machine.execBread f s
  | .bdet f => Sys2Proof.Machine.execBdet f s
  | .bvseg f => Sys2Proof.Machine.execBvseg f s
  | .bvcmp f => Sys2Proof.Machine.execBvcmp f s
  | .vvote f => Sys2Proof.Machine.execVvote f s
  | .vshfl f => Sys2Proof.Machine.execVshfl f s
  | .vmatch f => Sys2Proof.Machine.execVmatch f s
  | .vred f => Sys2Proof.Machine.execVred f s
  | .vscan f => Sys2Proof.Machine.execVscan f s
  | .qbind f => Sys2Proof.Machine.execQbind f s
  | .qpush f => Sys2Proof.Machine.execQpush f s
  | .qpop f => Sys2Proof.Machine.execQpop f s
  | .qtry f => Sys2Proof.Machine.execQtry f s
  | .qstat f => Sys2Proof.Machine.execQstat f s
  | .copyLinear p f => Sys2Proof.Machine.execCopyLinear p f s
  | .copyDescribed p f => Sys2Proof.Machine.execCopyDescribed p f s
  | .copyg p f => Sys2Proof.Machine.execCopyg p f s
  | .copys p f => Sys2Proof.Machine.execCopys p f s
  | .copyr p f => Sys2Proof.Machine.execCopyr p f s
  | .mloop p f => Sys2Proof.Machine.execMloop p f s
  | .mzero f => Sys2Proof.Machine.execMzero f s
  | .mrd f => Sys2Proof.Machine.execMrd f s
  | .mwr f => Sys2Proof.Machine.execMwr f s
  | .mst p f => Sys2Proof.Machine.execMst p f s
  | .mwait f => Sys2Proof.Machine.execMwait f s
  | .mstat f => Sys2Proof.Machine.execMstat f s
  | .rcrt f => Sys2Proof.Machine.execRcrt f s
  | .hnext f => Sys2Proof.Machine.execHnext f s
  | .hrd f => Sys2Proof.Machine.execHrd f s
  | .hend f => Sys2Proof.Machine.execHend f s
  | .hjoin f => Sys2Proof.Machine.execHjoin f s
  | .hrel f => Sys2Proof.Machine.execHrel f s
  | .rgnOpen f => Sys2Proof.Machine.execRgnOpen f s
  | .rgnClose f => Sys2Proof.Machine.execRgnClose f s
  | .rgnAbort f => Sys2Proof.Machine.execRgnAbort f s
  | .rds f => Sys2Proof.Machine.execRds f s
  | .wrs f => Sys2Proof.Machine.execWrs f s
  | .trap f => Sys2Proof.Machine.execTrap f s
  | .brk f => Sys2Proof.Machine.execBrk f s
  | .eret f => Sys2Proof.Machine.execEret f s
  | .sigs f => Sys2Proof.Machine.execSigs f s
  | .pcnt f => Sys2Proof.Machine.execPcnt f s
  | .dtime f => Sys2Proof.Machine.execDtime f s
  | .unassignedWord w => Sys2Proof.Machine.execUnassignedWord w s
  | .yieldWake => Sys2Proof.Machine.execYieldWake s
  | .snoozeExpiry => Sys2Proof.Machine.execSnoozeExpiry s
  | .channelDrained => Sys2Proof.Machine.execChannelDrained s
  | .barrierWatchdogExpiry => Sys2Proof.Machine.execBarrierWatchdogExpiry s
  | .sbwaitRelease => Sys2Proof.Machine.execSbwaitRelease s
  | .waitvRecheck => Sys2Proof.Machine.execWaitvRecheck s
  | .waitvTimeout => Sys2Proof.Machine.execWaitvTimeout s
  | .bpostReturn => Sys2Proof.Machine.execBpostReturn s
  | .qpushRoom => Sys2Proof.Machine.execQpushRoom s
  | .qpopEntry => Sys2Proof.Machine.execQpopEntry s
  | .copyIssueUnblock => Sys2Proof.Machine.execCopyIssueUnblock s
  | .copyCommandStart => Sys2Proof.Machine.execCopyCommandStart s
  | .granuleLand => Sys2Proof.Machine.execGranuleLand s
  | .copyToken => Sys2Proof.Machine.execCopyToken s
  | .mwaitDone => Sys2Proof.Machine.execMwaitDone s
  | .kstepStart => Sys2Proof.Machine.execKstepStart s
  | .kstepComplete => Sys2Proof.Machine.execKstepComplete s
  | .tileFetch => Sys2Proof.Machine.execTileFetch s
  | .mstPerform => Sys2Proof.Machine.execMstPerform s
  | .mzeroPerform => Sys2Proof.Machine.execMzeroPerform s
  | .helperStart => Sys2Proof.Machine.execHelperStart s
  | .hjoinComplete => Sys2Proof.Machine.execHjoinComplete s
  | .chunkWatchdogExpiry => Sys2Proof.Machine.execChunkWatchdogExpiry s
  | .rgnOpenBufferGrant => Sys2Proof.Machine.execRgnOpenBufferGrant s
  | .rgnCommitPublish => Sys2Proof.Machine.execRgnCommitPublish s
  | .progressWatchdogExpiry => Sys2Proof.Machine.execProgressWatchdogExpiry s
  | .issueFairnessRaise => Sys2Proof.Machine.execIssueFairnessRaise s
  | .bankSweep => Sys2Proof.Machine.execBankSweep s
  | .machineCheck => Sys2Proof.Machine.execMachineCheck s
  | .harvestEviction => Sys2Proof.Machine.execHarvestEviction s
  | .spillComplete => Sys2Proof.Machine.execSpillComplete s
  | .harvestReload => Sys2Proof.Machine.execHarvestReload s
  | .bandPlace => Sys2Proof.Machine.execBandPlace s
  | .bandRetire => Sys2Proof.Machine.execBandRetire s
  | .tenantSliceEnd => Sys2Proof.Machine.execTenantSliceEnd s
  | .deadlineOverrun => Sys2Proof.Machine.execDeadlineOverrun s
  | .preemptHandlerTimeout => Sys2Proof.Machine.execPreemptHandlerTimeout s
  | .contextSave => Sys2Proof.Machine.execContextSave s
  | .contextResume => Sys2Proof.Machine.execContextResume s
  | .checkpointTrigger => Sys2Proof.Machine.execCheckpointTrigger s
  | .checkpointBundleStart => Sys2Proof.Machine.execCheckpointBundleStart s
  | .doorbellWrite => Sys2Proof.Machine.execDoorbellWrite s
  | .bundleRead => Sys2Proof.Machine.execBundleRead s
  | .waitConditionPoll => Sys2Proof.Machine.execWaitConditionPoll s
  | .bundleStart => Sys2Proof.Machine.execBundleStart s
  | .signalAfter => Sys2Proof.Machine.execSignalAfter s
  | .bundleRetire => Sys2Proof.Machine.execBundleRetire s
  | .qctlInval => Sys2Proof.Machine.execQctlInval s
  | .qctlDestroy => Sys2Proof.Machine.execQctlDestroy s
  | .destroyComplete => Sys2Proof.Machine.execDestroyComplete s
  | .qctlDbmap => Sys2Proof.Machine.execQctlDbmap s
  | .qctlDbunmap => Sys2Proof.Machine.execQctlDbunmap s
  | .parkctlResumeInstruction => Sys2Proof.Machine.execParkctlResumeInstruction s
  | .parkctlResumeHandler => Sys2Proof.Machine.execParkctlResumeHandler s
  | .parkctlKillGroup => Sys2Proof.Machine.execParkctlKillGroup s
  | .parkctlKillTeam => Sys2Proof.Machine.execParkctlKillTeam s
  | .parkctlKillBand => Sys2Proof.Machine.execParkctlKillBand s
  | .parkctlKillContext => Sys2Proof.Machine.execParkctlKillContext s
  | .tlbinvPasid => Sys2Proof.Machine.execTlbinvPasid s
  | .tlbinvRange => Sys2Proof.Machine.execTlbinvRange s
  | .tlbinvStage2 => Sys2Proof.Machine.execTlbinvStage2 s
  | .tlbinvComplete => Sys2Proof.Machine.execTlbinvComplete s
  | .objctlInstall => Sys2Proof.Machine.execObjctlInstall s
  | .objctlRemove => Sys2Proof.Machine.execObjctlRemove s
  | .atsCompletion => Sys2Proof.Machine.execAtsCompletion s
  | .priResponse => Sys2Proof.Machine.execPriResponse s
  | .priTimeout => Sys2Proof.Machine.execPriTimeout s
  | .atsInvalidateRequest => Sys2Proof.Machine.execAtsInvalidateRequest s
  | .vfEnableClear => Sys2Proof.Machine.execVfEnableClear s
  | .inboundPostedWrite => Sys2Proof.Machine.execInboundPostedWrite s
  | .orderingPointSend => Sys2Proof.Machine.execOrderingPointSend s
  | .orderingPointAck => Sys2Proof.Machine.execOrderingPointAck s
  | .inboundHostRead => Sys2Proof.Machine.execInboundHostRead s
  | .hostLinkDown => Sys2Proof.Machine.execHostLinkDown s
  | .inboundFabricRequest => Sys2Proof.Machine.execInboundFabricRequest s
  | .remoteNak => Sys2Proof.Machine.execRemoteNak s
  | .remoteTimeout => Sys2Proof.Machine.execRemoteTimeout s
  | .linkLoss => Sys2Proof.Machine.execLinkLoss s
  | .linkReturn => Sys2Proof.Machine.execLinkReturn s
  | .fabricWindowStart => Sys2Proof.Machine.execFabricWindowStart s
  | .dreset => Sys2Proof.Machine.execDreset s
  | .deviceReset => Sys2Proof.Machine.execDeviceReset s
  | .ownClaim => Sys2Proof.Machine.execOwnClaim s
  | .ownHandto => Sys2Proof.Machine.execOwnHandto s
  | .ownAccept => Sys2Proof.Machine.execOwnAccept s
  | .debugHalt => Sys2Proof.Machine.execDebugHalt s
  | .debugRead => Sys2Proof.Machine.execDebugRead s
  | .debugWrite => Sys2Proof.Machine.execDebugWrite s
  | .debugWrec => Sys2Proof.Machine.execDebugWrec s
  | .classcfgWrite => Sys2Proof.Machine.execClasscfgWrite s
  | .vfapszWrite => Sys2Proof.Machine.execVfapszWrite s
  | .tcselWrite => Sys2Proof.Machine.execTcselWrite s
  | .frtrootWrite => Sys2Proof.Machine.execFrtrootWrite s
  | .finrootWrite => Sys2Proof.Machine.execFinrootWrite s
  | .registerWrite => Sys2Proof.Machine.execRegisterWrite s
  | .healthUpdate => Sys2Proof.Machine.execHealthUpdate s
  | .thermalLimit => Sys2Proof.Machine.execThermalLimit s
  | .thermalTrip => Sys2Proof.Machine.execThermalTrip s
  | .feedLoss => Sys2Proof.Machine.execFeedLoss s
  | .accessPerformed => Sys2Proof.Machine.execAccessPerformed s
  | .pfFunctionLevelReset => Sys2Proof.Machine.execPfFunctionLevelReset s
  | .correctedError => Sys2Proof.Machine.execCorrectedError s
  | .vfEnableSet => Sys2Proof.Machine.execVfEnableSet s
  | .worldRegisterWrite => Sys2Proof.Machine.execWorldRegisterWrite s

end Sys2Proof.Machine
end

