-- ==== Sys2Proof/Machine/Turns.lean ====
section
/-! DEFINITION. What one turn does: the passing of time, the issue of one instruction by a group, an event, and the freedoms
of the hardware (02_instruction_words.md R32, R47, R52, 01_machine.md R27, R29, 15_system_and_traps.md R271, R283). -/

namespace Sys2Proof.Machine

open Sys2Proof

/-! ### Time (R6, R271, R29) -/

/-- The cc that pass on a core as `n` pass of the clock, which counts those of a core at 2.0 GHz (R6, R267). -/
def State.coreCc (s : State) (n core : Nat) : Nat :=
  (s.clock + n) * s.mhz core / 2000 - s.clock * s.mhz core / 2000

/-- A group is ready to issue (R27): no wait, no result that it still needs (R54), and its banks swept (R97). -/
def State.isReady (s : State) (g : Group) : Bool := decide (g.status = .ready) && !g.stalled && !s.asleep g

/-- What `cc` of its core do to a group: CCNT counts while it is resident (R271), its K-steps run on (R224), and while it is
ready the cc for which it is not chosen are counted (R27, R295). -/
def Group.pass (g : Group) (cc : Nat) (ready : Bool) : Group :=
  { g with
    ccnt := if g.resident && !g.granted then g.ccnt + cc else g.ccnt,
    mxq := g.mxq.map (fun c => { c with running := c.running.map (· + cc) }),
    readyCc := if ready then g.readyCc + cc else g.readyCc,
    unchosen := if ready then g.unchosen + cc else g.unchosen }

/-- The barriers of a band, as time passes. -/
def State.passBand (s : State) (cc : Nat → Nat) (b : Band) : Band :=
  { b with
    bar := s.clockBar cc b.uid 0 bandBar b.bar,
    insts := b.insts.map (fun i => { i with bars := i.bars.mapIdx (fun k x => s.clockBar cc b.uid i.k k x) }) }

/-- Time passes: `cc` of the clock, and the device time that goes with it, 1 ns for each 2 cc at 2.0 GHz, on every die (R6). -/
def State.pass (s : State) (cc : Nat) : State :=
  let on (g : Group) : Group := g.pass (s.coreCc cc g.coreNo) (s.isReady g)
  { s with
    grp := on s.grp, others := s.others.map on, bands := s.bands.map (s.passBand (s.coreCc cc)),
    time := s.time + ((s.clock + cc) / 2 - s.clock / 2), clock := s.clock + cc }

/-- The lines for which a core's pool has room beside the scratch that it carves (R16, R18). -/
def State.l1Room (s : State) (core : Nat) : Nat := (1048576 - scratchCarve ((s.instsOn core).map (fun p => p.2.scr))) / 128

/-- A line of L1 that was allocated for streaming; on private memory that is ignored (R133, R137). -/
def L1Line.isStream (l : L1Line) : Bool := decide (l.want.cp = 2) && isShared (128 * l.line)

/-- Lines leave a core's L1 until it fits its share of the pool: stream lines first (R137), else those allocated first. -/
def State.trimCore (s : State) (core : Nat) : State :=
  let mine := s.l1.filter (fun l => l.core = core)
  let inOrder := mine.filter (fun l => !l.isStream) ++ mine.filter (·.isStream)
  (inOrder.drop (s.l1Room core)).foldl (fun t l => t.evictL1 core l.line) s

/-- Every core's L1 fits its share of the pool; 2,048 lines are the least share (R18). -/
def State.trimL1 (s : State) : State :=
  if s.l1.length ≤ 2048 then s else (List.range 384).foldl State.trimCore s

/-- The time that one step takes: at least one cc, otherwise open (log entry 10). -/
def State.tick (s : State) : State :=
  { s.trimL1.pass (1 + Config.stepCycles s.freeIx) with freeIx := s.freeIx + 1 }

/-! ### Fetching an instruction (R32, R46 to R48, R52) -/

/-- The word is a prefix, or an LIW whose literal follows. -/
def wantsNext (w : DWord) : Bool :=
  decide (mopOf w = 0x3F) || isLiw w

/-- The words of the instruction at the group's pc, from its block; a word that cannot be fetched is trapped at the first, before
any other check of the instruction: the word after a prefix (R52), and the literal of an LIW too (log entry 23). -/
def State.insnWords (s : State) : Chk (List DWord) :=
  match s.fetch s.grp.pc with
  | .error c => .error (s.fetchTrap s.grp.pc c)
  | .ok w =>
    if wantsNext w && decide (s.grp.pc + 8 ≠ s.grp.blockEnd) then
      match s.fetch (s.grp.pc + 8) with
      | .error c => .error (s.fetchTrap (s.grp.pc + 8) c)
      | .ok w2 => .ok [w, w2]
    else .ok [w]

/-- The instruction at the group's pc, or the trap of R32, R47, R48 or R51. -/
def State.insn (s : State) : Chk Instr :=
  match s.insnWords with
  | .error e => .error e
  | .ok ws =>
    match decode ws with
    | .ok i => .ok i
    | .error _ => .error { cause := .illegal }

/-! ### Issue (R27, R283, R285) -/

/-- One list comes before another of the same length. -/
def lexBefore : List Nat → List Nat → Bool
  | x :: xs, y :: ys => decide (x < y) || (decide (x = y) && lexBefore xs ys)
  | _, _ => false

/-- A group that has not been chosen for 64 cc is raised (R27). -/
def Group.isRaised (g : Group) : Bool := g.raised || decide (64 ≤ g.unchosen)

/-- A group's place in the order of its slice: its class, raised first, then the oldest (R27, R312). -/
def Group.turnKey (g : Group) : List Nat :=
  [g.id.cls, if g.isRaised then 0 else 1, g.id.placedAt, g.id.inst, g.id.grpx, (g.helper.map (·.hidx)).getD 0, g.id.uid]

/-- The selector of the group's slice chooses it among the ready groups. -/
def State.isChosen (s : State) (g : Group) : Bool :=
  s.groups.all (fun h => !s.isReady h || decide (h.sliceNo ≠ g.sliceNo) || decide (h.id.uid = g.id.uid) ||
    lexBefore g.turnKey h.turnKey)

/-- The group is chosen, so its count starts again, and this cc is none in which it was not (R27, R295). -/
def Group.choose (g : Group) : Group := { g with unchosen := 0, raised := false, readyCc := g.readyCc - 1 }

/-- The lines of the block in which the group stands, by their addresses. -/
def Group.blockLines (g : Group) : List DWord :=
  let first := g.blockHdr.toNat / 128
  (List.range ((g.blockEnd - 1).toNat / 128 + 1 - first)).map (fun i => BitVec.ofNat 64 (128 * (first + i)))

/-- The fetch of a block as the group issues its first word: it goes through the core's L1 and the cluster's L2 (03_control.md),
so its walks and its reads at L2 count for the tenant (R335), its reads past L2 may go to the host and its lines stay in both; a
buffered body is not fetched (R66). It reads the words themselves as R53 has it, and it is no access of R295. -/
def State.fetched (s : State) : State :=
  let g := s.grp
  if g.pc = g.blockHdr + 8 && decide (g.status = .ready) && (g.buffered g.blockHdr).isNone then
    let t := s.walkVas g.id.fn g.id.pasid (g.blockLines.map (·.toNat))
    let ks := g.blockLines.filterMap (fun a => match t.translate g.who a .exec with | .at_ k => some k | _ => none)
    let miss := t.missedLines g.coreNo .l1 ks
    ((t.countL2 g.id.fn g.id.cluster false miss).readHost g.id.fn g.id.pasid g.id.cluster false miss).allocLoad g.coreNo .l1
      (g.want 1) miss
  else s

/-- The group in `grp` runs the instruction at its pc; one that a wait has brought to its block's end goes on from there. -/
def State.runWord (s : State) : Out :=
  if s.grp.pc = s.grp.blockEnd then .next (s.continueAt s.grp.pc)
  else
    match s.fetched.insn with
    | .error e => .next (s.fetched.takeTrap e)
    | .ok i => exec i s.fetched

/-- The group in `grp` issues. One that stands at a header (a stage's first, a helper's, a resumed one's) enters the block and
issues its first word in the same turn: the header has no issue slot of its own, its effects come before that word (R40). -/
def State.runInsn (s : State) : Out :=
  if s.grp.pc = s.grp.blockHdr then
    match s.enter s.grp.pc false with
    | .ok t => t.runWord
    | .error e => .next (s.takeTrap e)
  else s.runWord

/-- An instruction that waits without an issue slot is tried again: from its first word, or from the point that its wait
holds. -/
def State.retry (s : State) (w : Wait) : Out :=
  match w with
  | .again => s.runInsn
  | .regionTiles f => finish 1 (s.openRegion f)
  | .mxRoom len d c => finish len (s.tryMx len d c)
  | _ => .refused (.notEnabled "a group that waits for an event")

/-- The group in `grp` takes its turn: a watchdog whose count has run out stops it (R245, R283); a ready group issues if its
slice's selector chooses it. -/
def State.turn (s : State) : Out :=
  let go (k : Out) : Out :=
    if s.grp.overLimit then .next s.progressTrap
    else if s.grp.chunkOver then .next (s.takeTrap { cause := .wdprog })
    else k
  match s.grp.status with
  | .ready =>
    if s.isReady s.grp && s.isChosen s.grp then go (s.onGrp Group.choose).runInsn
    else .refused (.notEnabled "a group that its slice does not choose")
  | .waiting w =>
    if s.asleep s.grp then .refused (.notEnabled "a group whose banks are not swept") else go (s.retry w)
  | _ => .refused (.notEnabled "a group that is not ready")

/-- A group issues: a PREEMPT that is due is delivered instead. -/
def State.issue (s : State) (uid : Nat) : Out :=
  match s.focus uid with
  | none => .fault (.noSuchGroup uid)
  | some t =>
    match t.preemptable, t.grp.preempt with
    | true, .due since => .next (t.preemptNow since)
    | _, _ => t.turn

/-! ### The hardware's freedoms (R97, R134, R160, R324, R351, R355) -/

/-- A bank may go to retention: its group is not issuing and needs none of it as live-in (R263), or its core has no group. -/
def State.mayDrowse (s : State) (slice bank : Nat) : Bool :=
  let idle (g : Group) : Bool :=
    match g.status with
    | .waiting (.yielding _) => true
    | .waiting (.snooze _) => true
    | .waiting (.barrier _) => true
    | .waiting (.scratchBar _ _ _) => true
    | .waiting (.pop _ _) => true
    | .parked => true
    | _ => false
  match s.bankOwner slice bank with
  | some g => idle g && !g.liveInBank bank
  | none => !s.groups.any (fun g => g.resident && decide (g.coreNo = slice / 4))

/-- A translation is cached by a walk (R324). -/
def State.fillTlb (s : State) (fn pasid : Nat) (va : DWord) : Out :=
  match s.walkLeaf fn pasid va.toNat with
  | some l => .next { s with tlb := ⟨fn, pasid, va.toNat / 2 ^ l.log2, l⟩ :: s.tlb }
  | none => .refused (.notEnabled "a walk that finds no leaf")

/-- A write to a guaranteed group's register needs more storage than its compressed form has (R96): it takes what is free, or
waits until harvest groups have gone. -/
def State.expand (s : State) (slice bank : Nat) : Out :=
  if s.spare.contains (slice, bank) then
    match s.storageFor slice bank with
    | some b => .next (s.giveStorage slice bank b)
    | none => .next { s with needy := (slice, bank) :: s.needy.filter (fun b => b ≠ (slice, bank)) }
  else .refused (.notEnabled "a bank that compression has not freed")

/-- A line of home memory is kept for loads of a core as it stands now, so that they may find it so after later writes of the host
(R390, log entry 5). -/
def State.keepOld (s : State) (core line : Nat) : State :=
  { s with
    hostOld := (core, line, Vector.ofFn (fun o => s.backing (128 * line + o.val))) ::
      s.hostOld.filter (fun o => !(o.1 = core && o.2.1 = line)) }

/-- An event row, as one turn. -/
def State.event (s : State) (row : Instr) (arg : EvArg) : Out :=
  if (encode row).isEmpty then exec row { s with ev := arg } else .refused (.notATurn "an instruction row")

/-- One turn. -/
def State.run (s : State) (t : Turn) : Out :=
  match t with
  | .issue uid => s.issue uid
  | .event row arg => s.event row arg
  | .elapse cycles => .next (s.pass cycles)
  | .l1Fill core line =>
    if s.resetting (dieOfCluster (clusterOfCore core)) then .refused (.notEnabled "a die that is reset")
    else .next (s.fillL1 core line ⟨0, 0, 1⟩)
  | .l1Evict core line => .next (s.evictL1 core line)
  | .l2Fill cluster line cls prio =>
    if s.resetting (dieOfCluster cluster) || decide (keyKind (128 * line) = 4) then
      .refused (.notEnabled "a die that is reset, or a line that is read of the host")
    else .next (s.fillL2 cluster line (cls % 2) (prio % 3))
  | .mscFill line cls => .next (s.fillMsc line (cls % 2))
  | .mscEvict line => .next (s.leaveMsc (s.msc.filter (fun m => m.line ≠ line)))
  | .l2Evict cluster line => .next (s.evictL2 cluster line)
  | .tlbFill fn pasid va => s.fillTlb fn pasid va
  | .tlbDrop fn pasid vpage => .next { s with tlb := s.tlb.filter (fun e => !(e.fn = fn && e.pasid = pasid && e.vpage = vpage)) }
  | .drowse slice bank =>
    if decide (slice < 1536) && decide (bank < 96) && s.mayDrowse slice bank then
      .next { s with unswept := (slice, bank) :: s.unswept.filter (fun b => b ≠ (slice, bank)) }
    else .refused (.notEnabled "a bank in use")
  | .compress slice bank =>
    if (s.onSlice slice).any (fun g => decide (g.id.cls = 0) && g.bankIds.contains bank) then
      .next { s with spare := (slice, bank) :: s.spare.filter (fun b => b ≠ (slice, bank)) }
    else .refused (.notEnabled "a bank of no guaranteed group")
  | .expand slice bank => s.expand slice bank
  | .scoreboard uid waits => .next (s.mapGroups (fun g => decide (g.id.uid = uid)) (fun g => { g with stalled := waits }))
  | .mxAhead uid line =>
    match s.group? uid with
    | some g =>
      if decide (keyKind (128 * line) < 2) && !s.resetting (dieOfCluster g.id.cluster) then
        .next (s.mxAhead g line)
      else .refused (.notEnabled "a line that no matrix command reads, or a die that is reset")
    | none => .refused (.notEnabled "no such group")
  | .hostOld core line =>
    if decide (keyKind (128 * line) = 0) && !s.resetting (dieOfCluster (clusterOfCore core)) then .next (s.keepOld core line)
    else .refused (.notEnabled "no line of home memory, or a die that is reset")
  | .routeFill dev => .next { s with routes := (dev, s.routeByte dev) :: s.routes.filter (fun r => r.1 ≠ dev) }
  | .flit req =>
    match (s.remote? req).bind s.inWindow.flitTurn with
    | some t => .next t
    | none => .refused (.notEnabled "a flit out of its order, or of no request")
  | .invalidated =>
    match s.invDone with
    | some t => .next t
    | none => .refused (.notEnabled "no Invalidate Request that can be answered")

/-! ### Placing one instruction where the next step fetches it -/

/-- The words of a block for one instruction, as numbers: a header with LEN 15 and LIVE 0xFFFF, and the bits of `w` as
two words (R32, R36). -/
def fetchBlock (nbits w : Nat) : List Byte :=
  natBytes 8 (15 * 2 ^ 48 + 0xFFFF * 2 ^ 32 + 2 ^ 2) ++ natBytes 16 (w % 2 ^ nbits)

/-- The group of `grp` stands, ready, at the first word of a block that holds the instruction of bits `w`: the block is in
home memory at offset 0, a cached translation gives the group's address 0 to it, the scoreboard holds the other groups of
its slice, no chunk of it can run out, and the next turn is the group's. -/
def State.placeWord (s : State) (nbits w : Nat) : State :=
  let die := if s.built.dies.getLsbD 0 then 0 else 1
  { s with
    grp := { s.grp with
      status := .ready, stalled := false, helper := s.grp.helper.map (fun h => { h with chunk := none }), preempt := .none,
      progress := 0, loopBuf := [], pc := 8, blockHdr := 0,
      blockEnd := 8 + 8 * 15 },
    others := s.others.map (fun g => if g.sliceNo = s.grp.sliceNo then { g with stalled := true } else g),
    tlb := ⟨s.grp.id.fn, s.grp.id.pasid, 0, ⟨0, 18, .loc die, true, false, true⟩⟩ :: s.tlb,
    mem := s.mem.setMany (keyHome die 0) (fetchBlock nbits w),
    unswept := [], needy := [], waking := [], agenda := [.issue s.grp.id.uid] }

end Sys2Proof.Machine
end

