-- ==== Sys2Proof/Machine/Schedule.lean ====
section
/-! DEFINITION. The machine's own turns, where the agenda names none: the events whose occasion has come, placement and
eviction, the group that issues next, and polls (01_machine.md R22, R27, 16_launch_and_scheduling.md R309 to R312,
14_harvest_regions.md R260). One order among those that the spec allows (log entry 14). -/

namespace Sys2Proof.Machine

open Sys2Proof

/-! ### Trying events -/

/-- The state after an event, where it has its occasion. -/
def State.tryEvent (s : State) (c : Instr × EvArg) : Option State :=
  match s.event c.1 c.2 with
  | .next t => some t
  | _ => none

/-- The first event of a list that has its occasion. -/
def State.tryEvents (s : State) (cs : List (Instr × EvArg)) : Option State := cs.findSome? s.tryEvent

/-- The events that end a wait; a wait that the group's own turn tries again has none. -/
def waitEvents (uid : Nat) : Wait → List (Instr × EvArg)
  | .yielding _ => [(.yieldWake, .group uid)]
  | .snooze _ => [(.snoozeExpiry, .group uid)]
  | .channel _ _ => [(.channelDrained, .group uid)]
  | .scratchBar _ _ _ => [(.sbwaitRelease, .group uid)]
  | .word _ _ _ => [(.waitvTimeout, .group uid)]
  | .bpost _ _ _ _ => [(.bpostReturn, .group uid)]
  | .push _ _ => [(.qpushRoom, .group uid)]
  | .pop _ _ => [(.qpopEntry, .group uid)]
  | .copyRoom _ _ _ => [(.copyIssueUnblock, .group uid)]
  | .matrix _ => [(.mwaitDone, .group uid)]
  | .join _ => [(.hjoinComplete, .group uid)]
  | .regionBuffer _ => [(.rgnOpenBufferGrant, .group uid)]
  | .commit _ _ => [(.rgnCommitPublish, .group uid)]
  | .barrier _ => []
  | .again => []
  | .host _ => []
  | .hostWord _ _ _ _ => []
  | .mxRoom _ _ _ => []
  | .regionTiles _ => []

/-- The events of a group's tiles. -/
def tileEvents (g : Group) : List (Instr × EvArg) :=
  if g.mxq.isEmpty then []
  else
    (List.range 4).flatMap (fun t => [(.kstepComplete, .tile g.id.uid t), (.kstepStart, .tile g.id.uid t),
      (.tileFetch, .tile g.id.uid t), (.mstPerform, .tile g.id.uid t), (.mzeroPerform, .tile g.id.uid t)])

/-- Sweeps of the banks of a group that would issue, or that helpers read. -/
def sweepEvents (s : State) (g : Group) : List (Instr × EvArg) :=
  if decide (g.status = .ready) || g.recruit.isSome then
    (g.bankIds.filter (s.unsweptBank g)).map (fun b => (.bankSweep, .bank g.sliceNo b true))
  else []

/-- The sweeps that are next on the cores that have woken (R97). -/
def wakeEvents (s : State) : List (Instr × EvArg) :=
  (s.waking.filter (fun b => s.sweepDue b.1 b.2)).map (fun b => (.bankSweep, .bank b.1 b.2 true))

/-- The stores that a group has issued and that are still to be performed. -/
def storeEvents (g : Group) : List (Instr × EvArg) :=
  if g.relq.isEmpty then [] else [(.accessPerformed, .performed (.store g.id.uid))]

/-- The events that concern a group. -/
def groupEvents (s : State) (g : Group) : List (Instr × EvArg) :=
  let u := g.id.uid
  (match g.status with
   | .waiting w => waitEvents u w
   | .granted => [(.helperStart, .group u)]
   | .evicted _ false _ => [(.spillComplete, .group u)]
   | _ => []) ++ tileEvents g ++ storeEvents g ++ sweepEvents s g ++
  (if g.helper.isSome then [(.chunkWatchdogExpiry, .group u)] else [])

/-- The watchdogs of the barriers that some group waits at. -/
def barrierEvents (s : State) : List (Instr × EvArg) :=
  s.bands.flatMap (fun b =>
    (if b.bar.first.isSome then [(.barrierWatchdogExpiry, .barrier b.uid 0 bandBar)] else []) ++
    b.insts.flatMap (fun i => ((List.range 16).filter (fun k => ((i.bars[k]?).map (fun x => x.first.isSome)).getD false)).map
      (fun k => (.barrierWatchdogExpiry, .barrier b.uid i.k k))))

/-- The engines that may take a command. -/
def enginesFor (c : CopyCmd) : List Nat := if c.group.isSome then [0, 1] else List.range 96

/-- The events of copy commands. -/
def copyEvents (s : State) : List (Instr × EvArg) :=
  s.copies.flatMap (fun c =>
    if c.ended.isSome then [(.copyToken, .cmd c.uid 0)]
    else if c.engine.isSome then [(.granuleLand, .cmd c.uid 0)]
    else (enginesFor c).map (fun e => (.copyCommandStart, .cmd c.uid e)))

/-- The events of bands, bundles, queues and contexts. -/
def frontEvents (s : State) : List (Instr × EvArg) :=
  s.bands.map (fun b => (.bandRetire, .band b.uid)) ++
  s.bundles.flatMap (fun b => (List.range b.subs.length).map (fun i => (.signalAfter, .bundle b.uid i))) ++
  s.bundles.flatMap (fun b => [(.bundleRetire, .bundle b.uid 0), (.bundleStart, .bundle b.uid 0), (.checkpointBundleStart, .bundle b.uid 0)]) ++
  (List.range s.queues.length).flatMap (fun i => [(.bundleRead, .queue i), (.destroyComplete, .queue i)]) ++
  s.ctxs.flatMap (fun c => [(.preemptHandlerTimeout, .ctx c.num), (.deadlineOverrun, .ctx c.num), (.contextSave, .ctx c.num),
    (.checkpointTrigger, .ctx c.num), (.tenantSliceEnd, .ctx c.num)])

/-- The events of the host link and the fabric, and operations of registers that go on. -/
def linkEvents (s : State) : List (Instr × EvArg) :=
  s.posts.flatMap (fun p => (List.range p.reqs.length).flatMap (fun i =>
    [(.orderingPointAck, .opoint p.fn i), (.orderingPointSend, .opoint p.fn i)])) ++
  ((List.range 64).filter (fun f => (s.fnRegs f).tlbinvHi.getLsbD 63)).map (fun f => (.tlbinvComplete, .fn f)) ++
  ((List.range 64).filter (fun f => (s.fnRegs f).objctl.getLsbD 63)).map (fun f => (.objctlInstall, .fn f)) ++
  (if s.regs.dbgcmd.getLsbD 63 then [(.debugRead, .none), (.debugWrite, .none), (.debugWrec, .none)] else []) ++
  (if s.regs.dreset.getLsbD 63 then [(.dreset, .reset .dreset 0), (.deviceReset, .reset .dreset 0)] else []) ++
  (if s.regs.fatalDue then [(.deviceReset, .reset .fatal 0)] else []) ++
  (if s.remote.isEmpty && s.built.linkBack = 0 then [] else [(.fabricWindowStart, .none)]) ++
  s.remote.map (fun r => (.remoteTimeout, .req r.id)) ++ (s.ats.filter (fun q => q.pri && !q.held && !q.failed)).map (fun q => (.priTimeout, .req q.id))

/-- Every event that the machine brings about itself, but placement, polls and reloads. -/
def State.ownEvents (s : State) : List (Instr × EvArg) :=
  linkEvents s ++ wakeEvents s ++ s.groups.flatMap (groupEvents s) ++ barrierEvents s ++ copyEvents s ++ frontEvents s

/-! ### Placement (R22, R309, R310) -/

/-- The placement of what a field places next, where there is one: a guaranteed field's also where harvest groups must go first. -/
def State.placeOf (s : State) (f : Field) : Option (Instr × EvArg) :=
  match s.ctx? f.ctx with
  | none => none
  | some c =>
    if s.mayPlace f c then
      ((s.pickBands f c f.atOnce f.nextBand).or
        (if f.cls = 0 then (s.emptied f c).pickBands f c f.atOnce f.nextBand else none)).map
        (fun r => (.bandPlace, .place f.uid ((r.1.headD 0) / 8) r.1 r.2))
    else none

/-- The next placement. -/
def State.autoPlace (s : State) : Option State := (s.fields.filterMap s.placeOf).findSome? s.tryEvent

/-! ### Eviction and reload (R257, R260, R265) -/

/-- The first harvest group whose eviction is due. -/
def State.autoVictim (s : State) : Option Group := s.groups.find? (fun v => v.victim && s.evictionDue v)

/-- The next write of a guaranteed group that waits for storage and can have it (R96). -/
def State.autoExpand (s : State) : Option State :=
  s.needy.findSome? (fun n => (s.storageFor n.1 n.2).map (s.giveStorage n.1 n.2))

/-- The next eviction. -/
def State.autoEvict (s : State) : Option State :=
  match s.autoVictim with
  | some v => s.tryEvent (.harvestEviction, .evict v.id.uid 0)
  | none => none

/-- The next reload. -/
def State.autoReload (s : State) : Option State :=
  s.tryEvents (s.groups.filterMap (fun g => match g.status with
    | .evicted _ true _ => some (.harvestReload, .group g.id.uid)
    | _ => none))

/-- The next context that comes back. -/
def State.autoResume (s : State) : Option State :=
  (s.ctxs.filter (fun c => c.isSaved && !c.killed)).findSome? (fun c =>
    s.tryEvent (.contextResume, .resume c.num (s.pickReturn c)))

/-! ### Issue (R27, R312) -/

/-- The groups that their slices choose. -/
def State.chosen (s : State) : List Group := s.groups.filter (fun g => s.isReady g && s.isChosen g)

/-- A list from its `n`-th member on, round to the one before. -/
def rotate {α : Type} (n : Nat) (l : List α) : List α := l.drop (n % l.length) ++ l.take (n % l.length)

/-- The first of some groups whose issue is possible. -/
def State.firstIssue (s : State) (gs : List Group) : Option State :=
  gs.findSome? (fun g => match s.issue g.id.uid with
    | .next t => some t
    | _ => none)

/-- The slices take turns. -/
def State.autoIssue (s : State) : Option State := s.firstIssue (rotate s.freeIx s.chosen)

/-- A PREEMPT that can be delivered is. -/
def State.autoPreempt (s : State) : Option State :=
  s.firstIssue (s.groups.filter (fun g => match g.preempt with
    | .due _ => decide (g.status ≠ .ready)
    | _ => false))

/-- Instructions that wait and are tried again. -/
def State.autoAgain (s : State) : Option State :=
  s.firstIssue (rotate s.freeIx (s.groups.filter (fun g => g.waiting?.isSome)))

/-- Polls of wait conditions and of WAITV. -/
def State.autoPoll (s : State) : Option State :=
  s.tryEvents (rotate s.freeIx
    (s.bundles.flatMap (fun b => (List.range b.waits.length).map (fun k => ((.waitConditionPoll, .bundle b.uid k) : Instr × EvArg))) ++
     s.groups.filterMap (fun g => match g.waiting? with
       | some (.word _ _ _) => some (.waitvRecheck, .group g.id.uid)
       | _ => none)))

/-- The first flit that may leave (R355). -/
def State.autoFlit (s : State) : Option State := s.remote.findSome? s.inWindow.flitTurn

/-- What the machine does next of itself: every eighth step is kept for what only waits and for polls, so that neither
starves the other. Where nothing has its occasion, time passes. -/
def State.auto (s : State) : State :=
  let busy : Option State :=
    s.autoFlit <|> s.invDone <|> s.tryEvents s.ownEvents <|> s.autoPlace <|> s.autoExpand <|> s.autoEvict <|> s.autoReload <|> s.autoResume <|> s.autoPreempt <|>
    s.autoIssue
  let quiet : Option State := if s.freeIx / 8 % 2 = 0 then s.autoAgain <|> s.autoPoll else s.autoPoll <|> s.autoAgain
  ((if s.freeIx % 8 = 7 then quiet <|> busy else busy <|> quiet).getD s)

end Sys2Proof.Machine
end

