-- ==== Sys2Proof/Machine/Step.lean ====
section
/-! DEFINITION. One step of the machine: time passes, then the next turn of the agenda is taken, or, where the agenda is
empty, the turn that the machine's own schedule gives (log entry 14). -/

namespace Sys2Proof.Machine

open Sys2Proof

/-- One step. -/
def step (s : State) : Host.Outcome State Fault Refusal :=
  match s.tick.agenda with
  | [] => .next s.tick.auto
  | t :: rest => ({ s.tick with agenda := rest } : State).run t

/-- `s` with the instruction of bits `w` placed where the next step fetches it. -/
def State.withFetchWord (s : State) (nbits w : Nat) : State := s.placeWord nbits w

end Sys2Proof.Machine
end

