-- ==== Sys2Proof/Safety.lean ====
section
/-! DEFINITION. What claims speak of: the canonical form of memory as an invariant, the stops of a step, when a group of
`grp` is at an instruction that a step fetches, the next state of an instruction that completes, and the results that the
tables of the spec give the instructions of one shape. -/

namespace Sys2Proof.Machine

open Sys2Proof

/-- The invariant that every step keeps: memory is in its canonical form. -/
def State.memOk (s : State) : Prop := s.mem.wf = true

/-- A step of the machine goes on: it ends in a next state. -/
def State.goesOn (s : State) : Prop := ∃ t, step s = .next t

/-- The next turn of the agenda is the issue of the group in `grp`. -/
def State.issuesNext (s : State) : Prop := s.agenda.head? = some (.issue s.grp.id.uid)

/-- The group of `grp` stands at an instruction of its block and nothing else is due to it first: it is ready, its slice's
selector chooses it (R27, R312), no PREEMPT is due, no watchdog's count has run out (R245, R283), and it stands neither at a
header nor at its block's end. -/
def State.atInsn (s : State) : Prop :=
  s.isReady s.grp = true ∧ s.isChosen s.grp = true ∧ s.grp.preempt = .none ∧ s.grp.overLimit = false ∧ s.grp.chunkOver = false ∧
  s.grp.pc ≠ s.grp.blockHdr ∧ s.grp.pc ≠ s.grp.blockEnd

/-- The state after an instruction of `len` words that completes with the change `f` of its group (R33, R61). -/
def State.after (s : State) (len : Nat) (f : Group → Group) : State := (s.onGrp f).retire len

/-- The group may name the scalars of an SR word, and its destination is not live-in (R241, R253). -/
def Group.srOk (g : Group) (f : SR) : Prop :=
  g.scalOk f.d = true ∧ g.scalOk f.a = true ∧ g.scalOk f.b = true ∧ g.liveIn f.d = false

/-- The same where the destination is a pair. -/
def Group.srPairOk (g : Group) (f : SR) : Prop :=
  g.pairOk f.d = true ∧ g.pairOk f.a = true ∧ g.pairOk f.b = true ∧ g.liveInPair f.d = false

/-- The same where the destination is a triple. -/
def Group.srTripleOk (g : Group) (f : SR) : Prop := g.tripOk f.d = true ∧ g.liveInTriple f.d = false

/-- A store of some bytes is performed as it is issued: it is no release store at band scope or wider (R161), and no waiting release
store of the group goes before it (R135, R157). -/
def State.storesNow (s : State) (ord scope : Nat) (ks : List Nat) : Prop :=
  (releases ord = false ∧ ∀ k ∈ ks, relGet s.grp.relq k = none) ∨ (scope < 3 ∧ s.grp.relq = [])

/-- The release of an order ends at once: it releases nothing, or no release store of the group waits and, at system scope, every
remote device has acknowledged what it was sent (R159, R161). -/
def State.releasesNow (s : State) (ord scope : Nat) : Prop :=
  releases ord = false ∨ (s.grp.relq = [] ∧ (scope ≠ 6 ∨ (s.releaseAt s.grp.coreNo scope).remoteDirty = []))

/-- A byte that a store leaves alone, as a core may read it afterwards: what the core read before, or, where a copy of it has made
room in L2 or an older one of the host's (R390) has gone, what its cluster's L2 gave or the coherent value (R134, R137). -/
def State.byteKept (s t : State) (core : Nat) (how : ReadAt) (k : Nat) : Prop :=
  t.readByte core how k = s.readByte core how k ∨ t.readByte core how k = s.readL2 (clusterOfCore core) k ∨
    t.readByte core how k = s.backing k

/-- Arrive(b) of a group with no waiting release store: the release at the barrier's scope, then the arrival (R166, R177). -/
def State.arrives (s : State) (bar : Nat) : State := (s.releaseAt s.grp.coreNo (barScope bar)).enterPhase bar

/-! ### What the tables of R69, R78, R82 and R83 give -/

/-- The register comparisons of R69, and when each branches. -/
def condBranches : List ((CB → Instr) × (Word → Word → Prop)) :=
  [(.beq, fun a b => a = b), (.bne, fun a b => a ≠ b), (.blt, fun a b => a.toInt < b.toInt),
   (.bge, fun a b => b.toInt ≤ a.toInt), (.bltu, fun a b => a.toNat < b.toNat), (.bgeu, fun a b => b.toNat ≤ a.toNat)]

/-- The mask tests of R69, and when each branches: on the mask and on LiveMask. -/
def maskBranches : List ((CB → Instr) × (LaneSet → LaneSet → Prop)) :=
  [(.bmz, fun m _ => m = 0), (.bmnz, fun m _ => m ≠ 0), (.bmall, fun m live => m = live)]

/-- The binary operations of R82, on s[A] and on B or IMM, as numbers. -/
def scalarOps : List ((SR → Instr) × (Word → Word → Word)) :=
  [(.add, fun a b => BitVec.ofNat 32 (a.toNat + b.toNat)), (.sub, fun a b => BitVec.ofInt 32 (a.toInt - b.toInt)),
   (.mul, fun a b => BitVec.ofNat 32 (a.toNat * b.toNat)),
   (.mulhs, fun a b => BitVec.ofInt 32 (a.toInt * b.toInt / 2 ^ 32)),
   (.mulhu, fun a b => BitVec.ofNat 32 (a.toNat * b.toNat / 2 ^ 32)),
   (.and, fun a b => BitVec.ofNat 32 (a.toNat &&& b.toNat)), (.or, fun a b => BitVec.ofNat 32 (a.toNat ||| b.toNat)),
   (.xor, fun a b => BitVec.ofNat 32 (a.toNat ^^^ b.toNat)),
   (.andn, fun a b => BitVec.ofNat 32 (a.toNat &&& (2 ^ 32 - 1 - b.toNat))),
   (.shl, fun a b => BitVec.ofNat 32 (a.toNat * 2 ^ (b.toNat % 32))),
   (.shr, fun a b => BitVec.ofNat 32 (a.toNat / 2 ^ (b.toNat % 32))),
   (.sar, fun a b => BitVec.ofInt 32 (a.toInt / 2 ^ (b.toNat % 32))),
   (.rotl, fun a b => BitVec.ofNat 32 (a.toNat * 2 ^ (b.toNat % 32) % 2 ^ 32 + a.toNat * 2 ^ (b.toNat % 32) / 2 ^ 32)),
   (.min, fun a b => BitVec.ofInt 32 (min a.toInt b.toInt)), (.max, fun a b => BitVec.ofInt 32 (max a.toInt b.toInt)),
   (.minu, fun a b => BitVec.ofNat 32 (min a.toNat b.toNat)), (.maxu, fun a b => BitVec.ofNat 32 (max a.toNat b.toNat)),
   (.slt, fun a b => if a.toInt < b.toInt then 1 else 0), (.sltu, fun a b => if a.toNat < b.toNat then 1 else 0),
   (.seq, fun a b => if a = b then 1 else 0), (.sne, fun a b => if a = b then 0 else 1)]

/-- The pair operations of R83 whose B is a pair, on numbers. -/
def pairOps : List ((SR → Instr) × (DWord → DWord → DWord)) :=
  [(.addw, fun a b => BitVec.ofNat 64 (a.toNat + b.toNat)), (.subw, fun a b => BitVec.ofInt 64 (a.toInt - b.toInt)),
   (.mulw, fun a b => BitVec.ofNat 64 (a.toNat * b.toNat))]

/-- The pair shifts of R83, whose count is bits [5:0] of a scalar or IMM. -/
def pairShifts : List ((SR → Instr) × (DWord → Nat → DWord)) :=
  [(.shlw, fun a n => BitVec.ofNat 64 (a.toNat * 2 ^ n)), (.shrw, fun a n => BitVec.ofNat 64 (a.toNat / 2 ^ n)),
   (.sarw, fun a n => BitVec.ofInt 64 (a.toInt / 2 ^ n))]

/-- The pair comparisons of R83. -/
def pairTests : List ((SR → Instr) × (DWord → DWord → Prop)) :=
  [(.sltw, fun a b => a.toInt < b.toInt), (.sltuw, fun a b => a.toNat < b.toNat)]

/-- The logic forms of R78 over two triples, lane by lane. -/
def tripleOps : List ((SR → Instr) × (Bool → Bool → Bool)) :=
  [(.mand, fun a b => a && b), (.mor, fun a b => a || b), (.mxor, fun a b => a ^^ b), (.mandn, fun a b => a && !b)]

/-- An SR instruction that writes one scalar, its registers in order: R82, the tests of R83, LI (R84) and the counts of R78. -/
def Group.writesScalar (g : Group) (f : SR) (i : Instr) : Prop :=
  (((∃ p ∈ scalarOps, i = p.1 f) ∨ i ∈ [Instr.cmov f, .clz f, .ctz f, .popc f, .brev f]) ∧ g.srOk f) ∨
  (g.scalOk f.d = true ∧ g.liveIn f.d = false ∧
    (((∃ p ∈ pairTests, i = p.1 f) ∧ g.pairOk f.a = true ∧ g.pairOk f.b = true) ∨ i = .li f ∨
     (i ∈ [Instr.mpopc f, .mffs f] ∧ g.tripOk f.a = true) ∨
     (i = .mtest f ∧ g.tripOk f.a = true ∧ g.scalOk f.b = true)))

/-- An SR instruction that writes a pair, its registers in order: R83 and R85 to R87. -/
def Group.writesPair (g : Group) (f : SR) (i : Instr) : Prop :=
  ((∃ p ∈ pairOps, i = p.1 f) ∧ g.srPairOk f) ∨
  (g.pairOk f.d = true ∧ g.liveInPair f.d = false ∧
    ((((∃ p ∈ pairShifts, i = p.1 f) ∨ i = .lea f) ∧ g.pairOk f.a = true ∧ g.scalOk f.b = true) ∨
     (i = .movwCopy f ∧ g.pairOk f.a = true) ∨ i = .movwRelative f ∨ ∃ lit, i = .liw f lit))

/-- An SR instruction that writes a triple, its registers in order (R78). -/
def Group.writesTriple (g : Group) (f : SR) (i : Instr) : Prop :=
  g.srTripleOk f ∧
    (((∃ p ∈ tripleOps, i = p.1 f) ∧ g.tripOk f.a = true ∧ g.tripOk f.b = true) ∨
     (i ∈ [Instr.mnot f, .mmov f] ∧ g.tripOk f.a = true) ∨
     (i = .mrange f ∧ g.scalOk f.a = true ∧ g.scalOk f.b = true) ∨ i = .mlive f)

/-- The words of an SR instruction: two for LIW with its literal (R85), else one. -/
def srWords : Instr → Nat
  | .liw _ _ => 2
  | _ => 1

/-! ### What the tables of R103 to R107 give -/

/-- The operands of a VR word are in order: its mask and its operands may be named, its destination is a register of the
group's allocation and not live-in, and its streams give `vs` (R90 to R94). -/
def State.vrReady (s : State) (f : VR) (us : List Use) (wide : Bool) (vs : List (Nat × LaneVals)) : Prop :=
  s.grp.tripOk f.m = true ∧ s.grp.dstOk f wide = true ∧ s.grp.dstLive f wide = false ∧ us.all s.grp.useOk = true ∧
  s.readStreams (streamsOf us) = .ok vs

/-- The values of operand `k` in every lane, the streams having given `vs`. -/
def State.opnd (s : State) (t : BitVec 3) (us : List Use) (vs : List (Nat × LaneVals)) (k : Nat) : LaneVals :=
  match us[k]? with
  | some u => s.grp.useVals t (fun z => ((vs.find? (fun p => p.1 = z)).map (·.2)).getD (Vector.replicate 96 0)) u
  | none => Vector.replicate 96 0

/-- The three operands. -/
def State.opnds (s : State) (t : BitVec 3) (us : List Use) (vs : List (Nat × LaneVals)) : Opnds :=
  ⟨s.opnd t us vs 0, s.opnd t us vs 1, s.opnd t us vs 2⟩

/-- The operands A, B and C of a word, as many as it uses. -/
def usesOf (n : Nat) (f : VR) (wide : Bool) : List Use := [useA f wide, useB f wide, useC f wide].take n

/-- The integer instructions of R103: their operand count and their exact result, on the element width and patterns. -/
def vecIntOps : List ((VR → Instr) × Nat × (Nat → Nat → Nat → Nat → Int)) :=
  [(.vmul, 2, fun _ a b _ => (a : Int) * b), (.vmulh, 2, fun e a b _ => signedOf e a * signedOf e b / 2 ^ e),
   (.vmulhu, 2, fun e a b _ => (a : Int) * b / 2 ^ e), (.vmad, 3, fun _ a b c => (a : Int) * b + c),
   (.vand, 2, fun _ a b _ => (a &&& b : Nat)), (.vor, 2, fun _ a b _ => (a ||| b : Nat)),
   (.vxor, 2, fun _ a b _ => (a ^^^ b : Nat)), (.vandn, 2, fun e a b _ => (a &&& (2 ^ e - 1 - b) : Nat)),
   (.vshl, 2, fun e a b _ => (a * 2 ^ (b % e) : Nat)), (.vshr, 2, fun e a b _ => (a / 2 ^ (b % e) : Nat)),
   (.vsar, 2, fun e a b _ => signedOf e a / 2 ^ (b % e)), (.vmin, 2, fun e a b _ => min (signedOf e a) (signedOf e b)),
   (.vmax, 2, fun e a b _ => max (signedOf e a) (signedOf e b)), (.vminu, 2, fun _ a b _ => (min a b : Nat)),
   (.vmaxu, 2, fun _ a b _ => (max a b : Nat)),
   (.vpopc, 1, fun e a _ _ => ((List.range e).countP (fun k => a.testBit k) : Nat)),
   (.vclz, 1, fun e a _ _ => if a = 0 then (e : Int) else e - 1 - Nat.log2 a)]

/-- The integer instructions of R103 that may saturate: their operand count, their exact result on signed patterns, and, for
the two that may saturate unsigned, on unsigned ones. -/
def vecSatOps : List ((VR → Instr) × Nat × (Nat → Nat → Nat → Int) × (Nat → Nat → Nat → Int)) :=
  [(.vadd, 2, fun e a b => signedOf e a + signedOf e b, fun _ a b => (a : Int) + b),
   (.vsub, 2, fun e a b => signedOf e a - signedOf e b, fun _ a b => (a : Int) - b),
   (.vabs, 1, fun e a _ => ((signedOf e a).natAbs : Int), fun e a _ => ((signedOf e a).natAbs : Int)),
   (.vneg, 1, fun e a _ => -signedOf e a, fun e a _ => -signedOf e a)]

/-- The floating-point instructions of R105 on two elements, the operands flushed (R102) and Round as RM says. -/
def vecFpOps2 : List ((VR → Instr) × (Word → Fmt → Rnd → Nat → Nat → FRes)) :=
  [(.vfadd, fAdd), (.vfsub, fSub), (.vfmul, fMul), (.vfdiv, fDiv),
   (.vfmin, fun _ t _ a b => fMinMax t false false a b), (.vfmax, fun _ t _ a b => fMinMax t true false a b),
   (.vfminn, fun _ t _ a b => fMinMax t false true a b), (.vfmaxn, fun _ t _ a b => fMinMax t true true a b)]

/-- The floating-point instructions on elements as stored: their operand count and their result (R105). -/
def vecFpBits : List ((VR → Instr) × Nat × (Fmt → Nat → Nat → Nat)) :=
  [(.vfabs, 1, fun t a _ => fAbs t a), (.vfneg, 1, fun t a _ => negate t a), (.vfcps, 2, fCps),
   (.vfclass, 1, fun t a _ => fClass t a)]

/-- The special functions (R106). -/
def vecSpecials : List ((VR → Instr) × Special) :=
  [(.vrcp, .rcp), (.vrsq, .rsq), (.vexp2, .exp2), (.vlog2, .log2), (.vsinpi, .sinpi), (.vcospi, .cospi), (.vtanh, .tanh)]

/-- The state after a VR word with the change `h` of its group, its streams having been read and having advanced (R93, R94). -/
def State.afterVR (s : State) (us : List Use) (h : Group → Group) : State :=
  (s.passL1 (streamsOf us)).after 1 (fun g => h (g.advanceStreams (streamsOf us)))

/-- The state after a VR word has written the lanes of its mask. -/
def State.afterLanes (s : State) (f : VR) (us : List Use) (wide : Bool) (r : Nat → LaneRes) : State :=
  s.afterVR us (fun g => g.writeLanes f.d.toNat wide (g.mask f.m) r)

/-- Nothing of the boards changes but slot `j` of board `num` and that board's level (R186). -/
def State.boardKept (s t : State) (num j : Nat) : Prop :=
  (∀ i, i ≠ j → (t.boardAt num).slot i = (s.boardAt num).slot i) ∧ ∀ n, n ≠ num → t.boardAt n = s.boardAt n

/-! ### Copies and matrix commands -/

/-- The copy instructions with what each captures (R210). -/
def copyRows : List ((Option Pfx → EX → Instr) × CopyOp) :=
  [(.copyLinear, .linear), (.copyDescribed, .described), (.copyg, .gather), (.copys, .shardOut), (.copyr, .shardIn)]

/-- The command register and its completion register have room (R198). -/
def State.copyRoom (s : State) (f : EX) (link : Nat × Nat) : Bool :=
  decide ((s.grp.queue link.1).outstanding < 8) && decide ((s.grp.queue f.q.toNat).entries.length < 8)

/-- What a copy instruction that pushes its command does (R198, R199, R210). -/
def State.pushed (s t : State) (f : EX) (form : CopyForm) (bar : Word) (link : Nat × Nat) : Prop :=
  ∃ c : CopyCmd, t.copies = s.copies ++ [c] ∧ c.form = form ∧ c.bar = bar ∧ c.group = some s.grp.id.uid ∧
    c.tag = s.grp.copyTag ∧ c.reg = f.q.toNat ∧ c.doneReg = link.1 ∧ c.eng = link.2 ∧ c.landed = 0 ∧ c.ended = none ∧
    t.grp.copyTag = s.grp.copyTag + 1 ∧ (f.d ≠ 0 → t.grp.rs f.d = s.grp.copyTag.setWidth 32) ∧
    (t.grp.queue f.q.toNat).entries = (s.grp.queue f.q.toNat).entries ++ [BitVec.ofNat 64 c.uid] ∧
    (t.grp.queue link.1).outstanding = (s.grp.queue link.1).outstanding + 1

/-- The group may name the tile of W, and the tile has no deferred fault (R227, R232). -/
def State.mxFree (s : State) (f : EX) : Prop := s.grp.mxOk f = true ∧ (s.grp.tile (tileOf f)).cause = 0

/-- The command that an MLOOP captures, its format block being there (R222, R233). -/
def State.mloopReads (s : State) (p : Option Pfx) (f : EX) (c : MxCmd) : Prop :=
  ∃ ps : List (Nat × List Nat),
    s.accessAll 1 32 (fun x => s.place none 1 .read x.addr 32)
      [⟨0, (s.grp.mkMx .loop p f (s.grp.capture f.a 12) [] (decide (f.imm = 1))).pair 8⟩] = .ok ps ∧
    (∀ k ∈ ps.flatMap (·.2), s.missing .l1 k = false) ∧
    c = { s.grp.mkMx .loop p f (s.grp.capture f.a 12) [] (decide (f.imm = 1)) with
      fblk := (ps.flatMap (·.2)).map (s.loadByte .l1) }

/-- A locator and its step are aligned to the layout's unit (R223). -/
def panelAligned (l : DWord) (inc lay : Word) : Prop :=
  locBase l % max 128 (16 * 2 ^ lay.toNat) = 0 ∧ inc.toInt % ((max 128 (16 * 2 ^ lay.toNat) : Nat) : Int) = 0

/-- The checks of MLOOP on its captured operands pass (R222, R233). -/
def mloopOk (c : MxCmd) : Prop :=
  fmtBlockOk c.fblk = true ∧ (c.op 6).toNat < 8 ∧ (c.op 7).toNat < 8 ∧ mxLoc (c.pair 0) = true ∧ mxLoc (c.pair 2) = true ∧
  panelAligned (c.pair 0) (c.op 4) (c.op 6) ∧ panelAligned (c.pair 2) (c.op 5) (c.op 7)

/-- The checks of MST on its captured operands pass (R236). -/
def mstReady (c : MxCmd) : Prop :=
  mstOk (c.op 3) (c.pair 4) = true ∧ mxLoc (c.pair 0) = true ∧
  ((MstOut.ofWord (c.op 3)).scl = true → mxLoc (c.pair 4) = true) ∧
  locBase (c.pair 0) % max 16 (16 * 2 ^ (MstOut.ofWord (c.op 3)).span) = 0 ∧ (c.op 2).toNat % 16 = 0 ∧
  128 * fmtSize (MstOut.ofWord (c.op 3)).code ≤ (c.op 2).toNat

/-! ### Regions -/

/-- The region that RGN.OPEN opens (R253, R268): its marker is the header of its block, and its live-in scalars, its recorded
state and its empty write buffer are as they stand. -/
def Group.opens (g : Group) (f : EX) (r : Region) : Prop :=
  r.marker = g.pc - 8 ∧ r.first = f.d.toNat ∧ r.count = f.c.toNat ∧ r.octets = f.imm ∧ r.tiles = f.w ∧ r.buffer = [] ∧
  r.recd = g.recordState ∧ ∀ i, i < f.c.toNat → r.svals[i]? = some (g.rs (BitVec.ofNat 6 (f.d.toNat + i)))

end Sys2Proof.Machine
end

