-- ==== Sys2Proof/Certificates/Slice0/Obligations.lean ====
section
/-! DEFINITION. The statements for the provers, each with the rules of spec/ that it formalises. -/

open Sys2Proof Sys2Proof.Machine

/-! ### Decoding, fetching and the machine's step -/

/-- R41 to R50: every well-formed instruction, with every operand at every value its encoding admits, is the one that
decodes from its own words. -/
def Obligations.EncodeDecodeRoundTrip : Prop :=
  ∀ i : Instr, encode i ≠ [] → i.wf = true → decode (encode i) = .ok i

/-- R41 to R50, words that the spec writes out: NOP, and the five words of the division of 100 by 3 in 04_scalar.md. -/
def Obligations.WordsOfTheSpecDecode : Prop :=
  decode [0x1010000000000000] = .ok (.nop ⟨false, 0, 0, 0, 0⟩) ∧
  decode [0x28047000AAAAAAAB] = .ok (.li ⟨true, 7, 0, 0, 0xAAAAAAAB⟩) ∧
  decode [0x2020818700000000] = .ok (.mulhu ⟨false, 8, 6, 7, 0⟩) ∧
  decode [0x2054820000000001] = .ok (.shr ⟨true, 8, 8, 0, 1⟩) ∧
  decode [0x2014920000000003] = .ok (.mul ⟨true, 9, 8, 0, 3⟩) ∧
  decode [0x2008918900000000] = .ok (.sub ⟨false, 9, 6, 9, 0⟩)

/-- R32, R47, R52: where the next turn is the issue of the group in `grp`, which stands at an instruction of its block, the step
passes the step's time and then runs exactly the instruction that the words at the group's pc decode to, in the state in
which the group is the chosen one of its slice and the fetch of its block is counted; where they decode to none, it takes ILLEGAL, and where they cannot be
fetched, the trap of the fetch. An event of the agenda is one step: the step's time passes, and the event's row runs on its
argument. -/
def Obligations.StepRunsDecodedInstruction : Prop :=
  (∀ (s c : State) (rest : List Turn), s.agenda = .issue s.grp.id.uid :: rest → s.tick.atInsn →
    c = (({ s.tick with agenda := rest } : State).onGrp Group.choose).fetched →
    (∀ ws i, c.insnWords = .ok ws → decode ws = .ok i → step s = exec i c) ∧
    (∀ ws e, c.insnWords = .ok ws → decode ws = .error e → step s = .next (c.takeTrap { cause := .illegal })) ∧
    (∀ e, c.insnWords = .error e → step s = .next (c.takeTrap e))) ∧
  (∀ (s : State) (rest : List Turn) (row : Instr) (arg : EvArg),
    s.agenda = .event row arg :: rest → encode row = [] →
    step s = exec row { s.tick with agenda := rest, ev := arg })

/-- R52, R51, R41 to R49: an instruction whose own fields break a rule of its encoding takes ILLEGAL, whatever the state,
with none of its effect; so does a word of an unassigned MOP or FN. -/
def Obligations.IllegalFormsTrap : Prop :=
  (∀ (i : Instr) (s : State), encode i ≠ [] → i.wf = false → exec i s = .next (s.takeTrap { cause := .illegal })) ∧
  ∀ (w : DWord) (s : State), exec (.unassignedWord w) s = .next (s.takeTrap { cause := .illegal })

/-- R33: an instruction of `len` words that does not end its block is followed by the next word of the block; nothing of
the machine changes but the group's pc, its counts and its status. -/
def Obligations.NextWordFollows : Prop :=
  ∀ (s : State) (len : Nat), s.grp.pc + BitVec.ofNat 64 (8 * len) ≠ s.grp.blockEnd →
    s.retire len = { s with grp := { s.grp with
      pc := s.grp.pc + BitVec.ofNat 64 (8 * len), retired := s.grp.retired + 1, progress := s.grp.progress + 1,
      status := .ready, remoteGot := [], denied := false } }

/-! ### Memory and reset -/

/-- Every step keeps memory in its canonical form: keys rising, no zero byte listed. -/
def Obligations.StepKeepsMemoryCanonical : Prop := ∀ s t : State, s.memOk → step s = .next t → t.memOk

/-- Memory right after reset is in its canonical form. -/
def Obligations.ResetMemoryCanonical : Prop := State.reset.memOk

/-! ### Control (03_control.md) -/

/-- R69: a branch whose condition holds transfers control to its target where the target passes Check; where the condition does
not hold, the next word follows; where the target fails Check, the branch takes the trap of Check. R70: CALL and CALLI write
the address of the next word to their link pair and transfer control to the target; RET and JMPI transfer control to the
address in their pair. -/
def Obligations.BranchesCallsAndJumpsTransfer : Prop :=
  ((∀ (s : State) (f : CB) (h : Header), f.okBr = true → s.check (s.grp.target f.off) = .ok h →
    exec (.br f) s = .next (s.transfer (s.grp.target f.off))) ∧
  (∀ p ∈ condBranches, ∀ (s : State) (f : CB), f.okCond = true → s.grp.scalOk f.a = true → s.grp.scalOk f.b = true →
    (¬ p.2 (s.grp.rs f.a) (s.grp.rs f.b) → exec (p.1 f) s = .next (s.after 1 id)) ∧
    (p.2 (s.grp.rs f.a) (s.grp.rs f.b) →
      (∀ h, s.check (s.grp.target f.off) = .ok h → exec (p.1 f) s = .next (s.transfer (s.grp.target f.off))) ∧
      (∀ e, s.check (s.grp.target f.off) = .error e → exec (p.1 f) s = .next (s.takeTrap e)))) ∧
  (∀ p ∈ maskBranches, ∀ (s : State) (f : CB), f.okMask = true → s.grp.tripOk f.a = true →
    (¬ p.2 (s.grp.mask f.a) s.grp.live → exec (p.1 f) s = .next (s.after 1 id)) ∧
    (p.2 (s.grp.mask f.a) s.grp.live →
      (∀ h, s.check (s.grp.target f.off) = .ok h → exec (p.1 f) s = .next (s.transfer (s.grp.target f.off))) ∧
      (∀ e, s.check (s.grp.target f.off) = .error e → exec (p.1 f) s = .next (s.takeTrap e))))) ∧
  (∀ (s : State) (f : CB) (h : Header),
    (f.okCall = true → s.grp.pairOk f.d = true → s.grp.liveInPair f.d = false → s.check (s.grp.target f.off) = .ok h →
      exec (.call f) s = .next ((s.onGrp (fun g => g.wp f.d (g.pc + 8))).transfer (s.grp.target f.off))) ∧
    (f.okCalli = true → s.grp.pairOk f.d = true → s.grp.pairOk f.a = true → s.grp.liveInPair f.d = false →
      s.check (s.grp.rp f.a) = .ok h →
      exec (.calli f) s = .next ((s.onGrp (fun g => g.wp f.d (g.pc + 8))).transfer (s.grp.rp f.a))) ∧
    (f.okJump = true → s.grp.pairOk f.a = true → s.check (s.grp.rp f.a) = .ok h →
      exec (.ret f) s = .next (s.transfer (s.grp.rp f.a)) ∧ exec (.jmpi f) s = .next (s.transfer (s.grp.rp f.a))))

/-- R71 to R73: LOOP with a nonzero count opens a level below the third, its body going into the loop buffer where R66 lets it;
with the count 0 it transfers control to its end; LBRK
leaves the innermost level; LCGET and LCSET read and write the loop state. R60: Arrive at an address that ends no active
level enters the block there; at the exit of the innermost level, with a count above 1, it counts one iteration down and
goes back to the start of the body; with the count 1 or 0, the level ends with the count 0 and the arrival goes on at the
same address. -/
def Obligations.LoopsFollowTheirCounts : Prop :=
  ((∀ (s : State) (f : CB) (h : Header), f.okLoop = true → s.grp.scalOk f.a = true →
    s.check (s.grp.target f.off) = .ok h →
    (s.grp.rs f.a = 0 → exec (.loop f) s = .next (s.transfer (s.grp.target f.off))) ∧
    (s.grp.rs f.a ≠ 0 → s.grp.depth < 3 →
      exec (.loop f) s = .next (s.after 1 (fun g => { g with
        start := g.start.setIfInBounds g.depth (g.pc + 8), exit := g.exit.setIfInBounds g.depth (g.target f.off),
        lc := g.lc.setIfInBounds g.depth (g.rs f.a), depth := g.depth + 1, loopBuf := s.takeBody (s.grp.target f.off) })))) ∧
  (∀ (s : State) (f : CB) (h : Header), f.okLbrk = true → s.grp.depth ≠ 0 → s.check (s.grp.target f.off) = .ok h →
    exec (.lbrk f) s = .next ((s.onGrp (fun g => { g with
      lc := g.lc.setIfInBounds (g.depth - 1) 0, depth := g.depth - 1 })).transfer (s.grp.target f.off))) ∧
  (∀ (s : State) (f : CB), f.okLcget = true → s.grp.scalOk f.d = true → s.grp.liveIn f.d = false →
    exec (.lcget f) s = .next (s.after 1 (fun g => g.ws f.d
      (if f.b = 3 then BitVec.ofNat 32 g.depth else g.lc[f.b.toNat]?.getD 0)))) ∧
  (∀ (s : State) (f : CB), f.okLcset = true → s.grp.scalOk f.a = true →
    exec (.lcset f) s = .next (s.after 1 (fun g => { g with lc := g.lc.setIfInBounds f.b.toNat (g.rs f.a) })))) ∧
  (∀ (g : Group) (a : DWord), g.depth ≤ 3 →
    (g.depth = 0 ∨ a ≠ g.exit[g.depth - 1]?.getD 0 → g.arrive a = (g, a)) ∧
    (g.depth ≠ 0 → a = g.exit[g.depth - 1]?.getD 0 → 1 < (g.lc[g.depth - 1]?.getD 0).toNat →
      g.arrive a = ({ g with lc := g.lc.setIfInBounds (g.depth - 1) (g.lc[g.depth - 1]?.getD 0 - 1) },
        g.start[g.depth - 1]?.getD 0)) ∧
    (g.depth ≠ 0 → a = g.exit[g.depth - 1]?.getD 0 → (g.lc[g.depth - 1]?.getD 0).toNat ≤ 1 →
      g.arrive a = ({ g with lc := g.lc.setIfInBounds (g.depth - 1) 0, depth := g.depth - 1 } : Group).arrive a))

/-- R78: the logic forms on triples work lane by lane on the raw 96 bits, MNOT complements them, MMOV copies them, MRANGE sets
the lanes from the first bound up to but not including the second, and MLIVE writes LiveMask. R78: MPOPC counts the lanes of
a mask within LiveMask, MFFS gives the lowest of them or 0xFFFFFFFF, and MTEST gives the bit that its index names, 0 above
lane 95. -/
def Obligations.MaskTriplesComputed : Prop :=
  ((∀ p ∈ tripleOps, ∀ (s : State) (f : SR), f.okTriples = true → s.grp.srTripleOk f → s.grp.tripOk f.a = true →
    s.grp.tripOk f.b = true →
    ∃ m : LaneSet, exec (p.1 f) s = .next (s.after 1 (fun g => g.setRaw f.d m)) ∧
      ∀ l, l < 96 → m.getLsbD l = p.2 ((s.grp.raw f.a).getLsbD l) ((s.grp.raw f.b).getLsbD l)) ∧
  (∀ (s : State) (f : SR), f.okTriple2 = true → s.grp.srTripleOk f → s.grp.tripOk f.a = true →
    exec (.mmov f) s = .next (s.after 1 (fun g => g.setRaw f.d (s.grp.raw f.a))) ∧
    ∃ m : LaneSet, exec (.mnot f) s = .next (s.after 1 (fun g => g.setRaw f.d m)) ∧
      ∀ l, l < 96 → m.getLsbD l = !(s.grp.raw f.a).getLsbD l) ∧
  (∀ (s : State) (f : SR), f.okRange = true → s.grp.srTripleOk f → s.grp.scalOk f.a = true → s.grp.scalOk f.b = true →
    ∃ m : LaneSet, exec (.mrange f) s = .next (s.after 1 (fun g => g.setRaw f.d m)) ∧
      ∀ l, l < 96 → (m.getLsbD l = true ↔ (s.grp.rs f.a).toNat ≤ l ∧ l < (s.grp.srcB f).toNat)) ∧
  (∀ (s : State) (f : SR), f.okLive = true → s.grp.srTripleOk f →
    ∃ m : LaneSet, exec (.mlive f) s = .next (s.after 1 (fun g => g.setRaw f.d m)) ∧
      (s.grp.id.lanes ≤ 96 → ∀ l, l < 96 → (m.getLsbD l = true ↔ l < s.grp.id.lanes)))) ∧
  ((∀ (s : State) (f : SR), f.okCount = true → s.grp.tripOk f.a = true → s.grp.scalOk f.d = true → s.grp.liveIn f.d = false →
    exec (.mpopc f) s = .next (s.after 1 (fun g => g.ws f.d
      (BitVec.ofNat 32 ((List.range 96).countP (fun l => (g.mask f.a).getLsbD l))))) ∧
    ∃ r : Word, exec (.mffs f) s = .next (s.after 1 (fun g => g.ws f.d r)) ∧
      (s.grp.mask f.a = 0 → r = 0xFFFFFFFF) ∧
      (s.grp.mask f.a ≠ 0 → (s.grp.mask f.a).getLsbD r.toNat = true ∧
        ∀ l, l < r.toNat → (s.grp.mask f.a).getLsbD l = false)) ∧
  (∀ (s : State) (f : SR), f.okTest = true → s.grp.tripOk f.a = true → s.grp.scalOk f.b = true → s.grp.scalOk f.d = true →
    s.grp.liveIn f.d = false →
    exec (.mtest f) s = .next (s.after 1 (fun g => g.ws f.d
      (if (g.mask f.a).getLsbD (g.srcB f).toNat then 1 else 0)))))

/-! ### Scalars (04_scalar.md) -/

/-- R82: each binary scalar operation writes its result, computed on numbers as the table says, to s[D]; CMOV writes b where a
is not 0 and the old s[D] where it is. A write to s0 is discarded (R49). R82: CLZ, CTZ and POPC count bits, and BREV
reverses them. -/
def Obligations.ScalarResults : Prop :=
  ((∀ p ∈ scalarOps, ∀ (s : State) (f : SR), (p.1 f).wf = true → s.grp.srOk f →
    exec (p.1 f) s = .next (s.after 1 (fun g => g.ws f.d (p.2 (g.rs f.a) (g.srcB f))))) ∧
  (∀ (s : State) (f : SR), f.okBin = true → s.grp.srOk f →
    exec (.cmov f) s = .next (s.after 1 (fun g => g.ws f.d (if g.rs f.a = 0 then g.rs f.d else g.srcB f))))) ∧
  (∀ (s : State) (f : SR), f.okUnary = true → s.grp.srOk f →
    (∃ r : Word, exec (.clz f) s = .next (s.after 1 (fun g => g.ws f.d r)) ∧ r.toNat ≤ 32 ∧
      (∀ k, k < r.toNat → (s.grp.rs f.a).getLsbD (31 - k) = false) ∧
      (r.toNat < 32 → (s.grp.rs f.a).getLsbD (31 - r.toNat) = true)) ∧
    (∃ r : Word, exec (.ctz f) s = .next (s.after 1 (fun g => g.ws f.d r)) ∧ r.toNat ≤ 32 ∧
      (∀ k, k < r.toNat → (s.grp.rs f.a).getLsbD k = false) ∧
      (r.toNat < 32 → (s.grp.rs f.a).getLsbD r.toNat = true)) ∧
    exec (.popc f) s = .next (s.after 1 (fun g => g.ws f.d
      (BitVec.ofNat 32 ((List.range 32).countP (fun k => (g.rs f.a).getLsbD k))))) ∧
    ∃ r : Word, exec (.brev f) s = .next (s.after 1 (fun g => g.ws f.d r)) ∧
      ∀ k, k < 32 → r.getLsbD (31 - k) = (s.grp.rs f.a).getLsbD k)

/-- R83: the pair operations, shifts and comparisons, on numbers. -/
def Obligations.PairResults : Prop :=
  (∀ p ∈ pairOps, ∀ (s : State) (f : SR), f.okPair true true = true → s.grp.srPairOk f →
    exec (p.1 f) s = .next (s.after 1 (fun g => g.wp f.d (p.2 (g.rp f.a) (g.srcPair f))))) ∧
  (∀ p ∈ pairShifts, ∀ (s : State) (f : SR), f.okPairShift = true → s.grp.pairOk f.d = true → s.grp.pairOk f.a = true →
    s.grp.scalOk f.b = true → s.grp.liveInPair f.d = false →
    exec (p.1 f) s = .next (s.after 1 (fun g => g.wp f.d (p.2 (g.rp f.a) ((g.srcB f).toNat % 64))))) ∧
  (∀ p ∈ pairTests, ∀ (s : State) (f : SR), f.okPair false true = true → s.grp.scalOk f.d = true → s.grp.pairOk f.a = true →
    s.grp.pairOk f.b = true → s.grp.liveIn f.d = false →
    (p.2 (s.grp.rp f.a) (s.grp.srcPair f) → exec (p.1 f) s = .next (s.after 1 (fun g => g.ws f.d 1))) ∧
    (¬ p.2 (s.grp.rp f.a) (s.grp.srcPair f) → exec (p.1 f) s = .next (s.after 1 (fun g => g.ws f.d 0))))

/-- R84 to R87: LI writes its immediate, LIW the literal word after it and continues past the literal, LEA the sum of a pair
and a signed offset, and MOVW a pair or an address relative to itself. -/
def Obligations.ImmediatesAndAddresses : Prop :=
  ∀ (s : State) (f : SR),
    (f.okLi = true → s.grp.scalOk f.d = true → s.grp.liveIn f.d = false →
      exec (.li f) s = .next (s.after 1 (fun g => g.ws f.d f.imm))) ∧
    (∀ lit, f.okLiw = true → s.grp.pairOk f.d = true → s.grp.liveInPair f.d = false →
      exec (.liw f lit) s = .next (s.after 2 (fun g => g.wp f.d lit))) ∧
    (f.okLea = true → s.grp.pairOk f.d = true → s.grp.pairOk f.a = true → s.grp.scalOk f.b = true →
      s.grp.liveInPair f.d = false →
      exec (.lea f) s = .next (s.after 1 (fun g => g.wp f.d
        (BitVec.ofInt 64 ((g.rp f.a).toNat + (g.srcB f).toInt))))) ∧
    (f.okMovCopy = true → s.grp.pairOk f.d = true → s.grp.pairOk f.a = true → s.grp.liveInPair f.d = false →
      exec (.movwCopy f) s = .next (s.after 1 (fun g => g.wp f.d (g.rp f.a)))) ∧
    (f.okMovRel = true → s.grp.pairOk f.d = true → s.grp.liveInPair f.d = false →
      exec (.movwRelative f) s = .next (s.after 1 (fun g => g.wp f.d
        (BitVec.ofInt 64 (g.pc.toNat + 8 * f.imm.toInt)))))

/-! ### Vectors (05_vector.md, 06_narrow_formats.md) -/

/-- R103: the integer instructions without saturation write, in every element of every active lane, the exact result modulo 2^e;
the streams advance. R103: VADD, VSUB, VABS and VNEG write the exact result modulo 2^e, or, with SAT, the nearest value of
the signed range, or of the unsigned range where X says so. -/
def Obligations.VectorIntegerResults : Prop :=
  (∀ p ∈ vecIntOps, ∀ (s : State) (f : VR) (vs : List (Nat × LaneVals)), (p.1 f).wf = true →
    s.vrReady f (usesOf p.2.1 f false) false vs →
    ∃ r : Nat → LaneRes, exec (p.1 f) s = .next (s.afterLanes f (usesOf p.2.1 f false) false r) ∧
      ∀ l, l < 96 → (r l).flags = 0 ∧ ∀ k, k < 32 / elemBits f.t →
        elem (elemBits f.t) (loHalf (r l).val) k =
          (p.2.2 (elemBits f.t)
            (elem (elemBits f.t) ((s.opnds f.t (usesOf p.2.1 f false) vs).a.word l) k)
            (elem (elemBits f.t) ((s.opnds f.t (usesOf p.2.1 f false) vs).b.word l) k)
            (elem (elemBits f.t) ((s.opnds f.t (usesOf p.2.1 f false) vs).c.word l) k) % 2 ^ elemBits f.t).toNat) ∧
  (∀ p ∈ vecSatOps, ∀ (s : State) (f : VR) (vs : List (Nat × LaneVals)), (p.1 f).wf = true →
    s.vrReady f (usesOf p.2.1 f false) false vs →
    ∃ r : Nat → LaneRes, exec (p.1 f) s = .next (s.afterLanes f (usesOf p.2.1 f false) false r) ∧
      ∀ l, l < 96 → (r l).flags = 0 ∧ ∀ k, k < 32 / elemBits f.t → ∀ a b : Nat,
        a = elem (elemBits f.t) ((s.opnds f.t (usesOf p.2.1 f false) vs).a.word l) k →
        b = elem (elemBits f.t) ((s.opnds f.t (usesOf p.2.1 f false) vs).b.word l) k →
        (f.sat = false → elem (elemBits f.t) (loHalf (r l).val) k = (p.2.2.1 (elemBits f.t) a b % 2 ^ elemBits f.t).toNat) ∧
        (f.sat = true → f.x.getLsbD 0 = false →
          signedOf (elemBits f.t) (elem (elemBits f.t) (loHalf (r l).val) k) =
            max (-(2 ^ (elemBits f.t - 1))) (min (2 ^ (elemBits f.t - 1) - 1) (p.2.2.1 (elemBits f.t) a b))) ∧
        (f.sat = true → f.x.getLsbD 0 = true →
          (elem (elemBits f.t) (loHalf (r l).val) k : Int) =
            max 0 (min (2 ^ elemBits f.t - 1) (p.2.2.2 (elemBits f.t) a b))))

/-- R104: VICMP and VFCMP write the bit of every active lane to the triple D, 1 where the condition holds, and leave the bits
of the other lanes. -/
def Obligations.VectorCompares : Prop :=
  ∀ (s : State) (f : VR) (vs : List (Nat × LaneVals)), s.grp.tripOk f.m = true → s.grp.tripOk (f.d.setWidth 6) = true →
    s.grp.liveInTriple (f.d.setWidth 6) = false →
    (usesOf 2 f f.wide).all s.grp.useOk = true → s.readStreams (streamsOf (usesOf 2 f f.wide)) = .ok vs →
    (f.okCmp [0] 9 = true → ∃ m : LaneSet,
      exec (.vicmp f) s = .next (s.afterVR (usesOf 2 f f.wide) (fun g => g.setRaw (f.d.setWidth 6) m)) ∧
      ∀ l, l < 96 → m.getLsbD l =
        if (s.grp.mask f.m).getLsbD l then
          intCond f.x.toNat (loHalf ((s.opnds f.t (usesOf 2 f f.wide) vs).a[l]?.getD 0))
            (loHalf ((s.opnds f.t (usesOf 2 f f.wide) vs).b[l]?.getD 0))
        else (s.grp.raw (f.d.setWidth 6)).getLsbD l) ∧
    (f.okCmp [3, 6] 7 = true → ∃ (m : LaneSet) (x : BitVec 6),
      exec (.vfcmp f) s = .next (s.afterVR (usesOf 2 f f.wide) (fun g =>
        (g.setRaw (f.d.setWidth 6) m).raiseFlags x)) ∧
      ∀ l, l < 96 → m.getLsbD l =
        if (s.grp.mask f.m).getLsbD l then
          (fCond (fmtOf f.t) f.x.toNat
            (flushIn s.grp.fpcr (fmtOf f.t) (if f.wide then ((s.opnds f.t (usesOf 2 f f.wide) vs).a[l]?.getD 0).toNat
              else (loHalf ((s.opnds f.t (usesOf 2 f f.wide) vs).a[l]?.getD 0)).toNat))
            (flushIn s.grp.fpcr (fmtOf f.t) (if f.wide then ((s.opnds f.t (usesOf 2 f f.wide) vs).b[l]?.getD 0).toNat
              else (loHalf ((s.opnds f.t (usesOf 2 f f.wide) vs).b[l]?.getD 0)).toNat))).1
        else (s.grp.raw (f.d.setWidth 6)).getLsbD l)

/-- R105: the floating-point instructions write, in the active lanes, the results of their elements. -/
def Obligations.VectorFloatComplete : Prop :=
  (∀ p ∈ vecFpOps2, ∀ (s : State) (f : VR) (vs : List (Nat × LaneVals)), (p.1 f).wf = true →
    s.vrReady f (usesOf 2 f f.wide) f.wide vs →
    exec (p.1 f) s = .next (s.afterLanes f (usesOf 2 f f.wide) f.wide (fun l =>
      fpLane f.t (fun a b _ => p.2 s.grp.fpcr (fmtOf f.t) (rmMode f s.grp.fpcr)
          (flushIn s.grp.fpcr (fmtOf f.t) a) (flushIn s.grp.fpcr (fmtOf f.t) b))
        ((s.opnds f.t (usesOf 2 f f.wide) vs).a[l]?.getD 0) ((s.opnds f.t (usesOf 2 f f.wide) vs).b[l]?.getD 0) 0))) ∧
  (∀ p ∈ vecFpBits, ∀ (s : State) (f : VR) (vs : List (Nat × LaneVals)), (p.1 f).wf = true →
    s.vrReady f (usesOf p.2.1 f f.wide) f.wide vs →
    exec (p.1 f) s = .next (s.afterLanes f (usesOf p.2.1 f f.wide) f.wide (fun l =>
      fpLane f.t (fun a b _ => ⟨p.2.2 (fmtOf f.t) a b, 0⟩)
        ((s.opnds f.t (usesOf p.2.1 f f.wide) vs).a[l]?.getD 0) ((s.opnds f.t (usesOf p.2.1 f f.wide) vs).b[l]?.getD 0) 0))) ∧
  (∀ (s : State) (f : VR) (vs : List (Nat × LaneVals)) (minus : Bool),
    f.okFp true true true = true → s.vrReady f (usesOf 3 f f.wide) f.wide vs →
    exec (if minus then .vfnma f else .vfma f) s = .next (s.afterLanes f (usesOf 3 f f.wide) f.wide (fun l =>
      fpLane f.t (fun a b c => fMa s.grp.fpcr (fmtOf f.t) (rmMode f s.grp.fpcr) minus (flushIn s.grp.fpcr (fmtOf f.t) a)
          (flushIn s.grp.fpcr (fmtOf f.t) b) (flushIn s.grp.fpcr (fmtOf f.t) c))
        ((s.opnds f.t (usesOf 3 f f.wide) vs).a[l]?.getD 0) ((s.opnds f.t (usesOf 3 f f.wide) vs).b[l]?.getD 0)
        ((s.opnds f.t (usesOf 3 f f.wide) vs).c[l]?.getD 0)))) ∧
  (∀ (s : State) (f : VR) (vs : List (Nat × LaneVals)), s.vrReady f (usesOf 1 f f.wide) f.wide vs →
    (f.okRnd = true → exec (.vfrnd f) s = .next (s.afterLanes f (usesOf 1 f f.wide) f.wide (fun l =>
      fpLane f.t (fun a _ _ => fIntegral (fmtOf f.t) (rndOf s.grp.fpcr f.rm (.ofBits (f.x.extractLsb' 0 2)))
          (flushIn s.grp.fpcr (fmtOf f.t) a))
        ((s.opnds f.t (usesOf 1 f f.wide) vs).a[l]?.getD 0) 0 0))) ∧
    (f.okFp true false false = true → exec (.vfsqrt f) s = .next (s.afterLanes f (usesOf 1 f f.wide) f.wide (fun l =>
      fpLane f.t (fun a _ _ => fSqrt s.grp.fpcr (fmtOf f.t) (rmMode f s.grp.fpcr) (flushIn s.grp.fpcr (fmtOf f.t) a))
        ((s.opnds f.t (usesOf 1 f f.wide) vs).a[l]?.getD 0) 0 0)))) ∧
  (∀ p ∈ vecSpecials, ∀ (s : State) (f : VR) (vs : List (Nat × LaneVals)), f.okSpecial = true →
    s.vrReady f (usesOf 1 f false) f.wide vs →
    exec (p.1 f) s = .next (s.afterLanes f (usesOf 1 f false) f.wide (fun l =>
      fpLane f.t (fun a _ _ => fSpecial s.grp.fpcr p.2 a) ((s.opnds f.t (usesOf 1 f false) vs).a[l]?.getD 0) 0 0)))

/-- R105: VFNEG and VFABS change the sign bit alone, and VFCPS takes it from b, in every format and for every pattern of the
format, NaN too. R99: where an operand of an addition, a subtraction, a multiplication, a division or a fused multiply-add
is a NaN, the bits of the result are those of the first NaN operand with its quiet bit set, the third of a fused multiply-add too;
IV is set where an operand signals. -/
def Obligations.SignsAndNansOfFloats : Prop :=
  (∀ (t : Fmt) (a b : Nat), a < 2 ^ t.width → b < 2 ^ t.width →
    (∀ k, k < t.width - 1 → (negate t a).testBit k = a.testBit k ∧ (fAbs t a).testBit k = a.testBit k ∧
      (fCps t a b).testBit k = a.testBit k) ∧
    (negate t a).testBit (t.width - 1) = !a.testBit (t.width - 1) ∧ (fAbs t a).testBit (t.width - 1) = false ∧
    (fCps t a b).testBit (t.width - 1) = b.testBit (t.width - 1)) ∧
  (∀ (fpcr : Word) (t : Fmt) (m : Rnd) (a b c : Nat),
    ((fval t a).isNan = true → (fAdd fpcr t m a b).bits = quiet t a ∧ (fSub fpcr t m a b).bits = quiet t a ∧
      (fMul fpcr t m a b).bits = quiet t a ∧ (fDiv fpcr t m a b).bits = quiet t a ∧
      ∀ minus, (fMa fpcr t m minus a b c).bits = quiet t a) ∧
    ((fval t a).isNan = false → (fval t b).isNan = true → (fAdd fpcr t m a b).bits = quiet t b ∧
      (fSub fpcr t m a b).bits = quiet t b ∧ (fMul fpcr t m a b).bits = quiet t b ∧ (fDiv fpcr t m a b).bits = quiet t b ∧
      ∀ minus, (fMa fpcr t m minus a b c).bits = quiet t b) ∧
    ((fval t a).isNan = false → (fval t b).isNan = false → (fval t c).isNan = true →
      ∀ minus, (fMa fpcr t m minus a b c).bits = quiet t c) ∧
    ((fval t a).isSig = true ∨ (fval t b).isSig = true ∨ (fval t c).isSig = true →
      ∀ minus, (fMa fpcr t m minus a b c).flags &&& flagIV = flagIV) ∧
    ((fval t a).isSig = true ∨ (fval t b).isSig = true → (fAdd fpcr t m a b).flags &&& flagIV = flagIV ∧
      (fSub fpcr t m a b).flags &&& flagIV = flagIV ∧ (fMul fpcr t m a b).flags &&& flagIV = flagIV ∧ (fDiv fpcr t m a b).flags &&& flagIV = flagIV))

/-- R107: VMOV, VSEL, VBCST and VIDX write lanes, VSEL every live lane; VGET writes a scalar; VPUT writes one live lane. That VBCST
with .d takes its B from the one scalar s[B], and no even pair (R91), is the model's reading (log entry 17). -/
def Obligations.LaneInstructionsComplete : Prop :=
  ∀ (s : State) (f : VR) (vs : List (Nat × LaneVals)),
    (f.okMov false = true → s.vrReady f (usesOf 1 f f.wide) f.wide vs →
      exec (.vmov f) s = .next (s.afterLanes f (usesOf 1 f f.wide) f.wide (fun l =>
        ⟨(s.opnds f.t (usesOf 1 f f.wide) vs).a[l]?.getD 0, 0⟩))) ∧
    (f.okMov true = true → s.vrReady f (usesOf 2 f f.wide) f.wide vs →
      exec (.vsel f) s = .next (s.afterVR (usesOf 2 f f.wide) (fun g =>
        g.writeLanes f.d.toNat f.wide g.live (fun l =>
          ⟨if (s.grp.mask f.m).getLsbD l then (s.opnds f.t (usesOf 2 f f.wide) vs).a[l]?.getD 0
           else (s.opnds f.t (usesOf 2 f f.wide) vs).b[l]?.getD 0, 0⟩)))) ∧
    (f.okBcst = true → s.vrReady f [useA f f.wide, useB f false] f.wide vs →
      exec (.vbcst f) s = .next (s.afterLanes f [useA f f.wide, useB f false] f.wide (fun _ =>
        ⟨s.grp.pickLane (s.opnds f.t [useA f f.wide, useB f false] vs).a
          ((s.opnds f.t [useA f f.wide, useB f false] vs).b.word 0).toNat, 0⟩))) ∧
    (f.okIdx = true → s.vrReady f (usesOf 1 f false) f.wide vs →
      exec (.vidx f) s = .next (s.afterLanes f (usesOf 1 f false) f.wide (fun l =>
        ⟨(BitVec.ofNat 32 l + (s.opnds f.t (usesOf 1 f false) vs).a.word l).setWidth 64, 0⟩))) ∧
    (f.okGet = true → s.grp.scalOk (f.d.setWidth 6) = true → s.grp.liveIn (f.d.setWidth 6) = false →
      (usesOf 2 f false).all s.grp.useOk = true → s.readStreams (streamsOf (usesOf 2 f false)) = .ok vs →
      exec (.vget f) s = .next (s.afterVR (usesOf 2 f false) (fun g => g.ws (f.d.setWidth 6)
        (loHalf (s.grp.pickLane (s.opnds f.t (usesOf 2 f false) vs).a
          ((s.opnds f.t (usesOf 2 f false) vs).b.word 0).toNat))))) ∧
    (f.okPut = true → s.grp.dstOk f false = true → s.grp.dstLive f false = false →
      (usesOf 2 f false).all s.grp.useOk = true → s.readStreams (streamsOf (usesOf 2 f false)) = .ok vs →
      ∃ m : LaneSet, exec (.vput f) s = .next (s.afterVR (usesOf 2 f false) (fun g => g.wvm
          f.d.toNat m (Vector.replicate 96 ((s.opnds f.t (usesOf 2 f false) vs).a.word 0)))) ∧
        ∀ l, l < 96 → (m.getLsbD l = true ↔
          s.grp.live.getLsbD l = true ∧ l = ((s.opnds f.t (usesOf 2 f false) vs).b.word 0).toNat))

/-- R120 to R125: the conversions, the scalings and the byte packings write the active lanes. -/
def Obligations.ConversionsComplete : Prop :=
  ∀ (s : State) (f : VR) (vs : List (Nat × LaneVals)),
    (f.okCvtf = true → ∀ us,
      us = (if f.t = 4 ∨ f.t = 5 then usesOf 2 f false else usesOf 1 f (decide (f.x.extractLsb' 0 3 = 6))) →
      s.vrReady f us f.wide vs → ∃ r, exec (.vcvtf f) s = .next (s.afterLanes f us f.wide r) ∧
        ∀ l, l < 96 →
          (f.t = 3 → f.x.extractLsb' 0 3 = 6 → (r l).val = BitVec.ofNat 64
            (fConvert s.grp.fpcr .f64 .f32 (rmMode f s.grp.fpcr)
              (flushIn s.grp.fpcr .f64 ((s.opnds f.t us vs).a[l]?.getD 0).toNat)).bits) ∧
          (f.t = 6 → f.x.extractLsb' 0 3 = 3 → (r l).val = BitVec.ofNat 64
            (fConvert s.grp.fpcr .f32 .f64 (rmMode f s.grp.fpcr)
              (flushIn s.grp.fpcr .f32 ((s.opnds f.t us vs).a.word l).toNat)).bits) ∧
          (f.t = 4 ∨ f.t = 5 → (r l).val = BitVec.ofNat 64
            ((fConvert s.grp.fpcr .f32 (fmtOf f.t) (rmMode f s.grp.fpcr)
                (flushIn s.grp.fpcr .f32 ((s.opnds f.t us vs).a.word l).toNat)).bits +
              65536 * (fConvert s.grp.fpcr .f32 (fmtOf f.t) (rmMode f s.grp.fpcr)
                (flushIn s.grp.fpcr .f32 ((s.opnds f.t us vs).b.word l).toNat)).bits)) ∧
          (∀ u : Fmt, f.t = 3 → f.x.extractLsb' 0 3 = 4 ∧ u = .f16 ∨ f.t = 3 ∧ f.x.extractLsb' 0 3 = 5 ∧ u = .bf16 →
            (r l).val = BitVec.ofNat 64 (fConvert s.grp.fpcr u .f32 (rmMode f s.grp.fpcr)
              (flushIn s.grp.fpcr u (elem 16 ((s.opnds f.t us vs).a.word l) (if f.x.getLsbD 3 then 1 else 0)))).bits)) ∧
    (f.okF2i true = true → s.vrReady f (usesOf 1 f f.wide) false vs →
      ∃ r, exec (.vf2i f) s = .next (s.afterLanes f (usesOf 1 f f.wide) false r) ∧
        ∀ l, l < 96 → loHalf (r l).val = BitVec.ofInt 32 (fToInt (fmtOf f.t) (rmMode f s.grp.fpcr)
          (if f.x.getLsbD 0 then 0 else -(2 ^ 31)) (if f.x.getLsbD 0 then 2 ^ 32 - 1 else 2 ^ 31 - 1)
          (flushIn s.grp.fpcr (fmtOf f.t) (if f.wide then ((s.opnds f.t (usesOf 1 f f.wide) vs).a[l]?.getD 0).toNat
            else ((s.opnds f.t (usesOf 1 f f.wide) vs).a.word l).toNat))).1) ∧
    (f.okF2i false = true → s.vrReady f (usesOf 1 f false) f.wide vs →
      exec (.vi2f f) s = .next (s.afterLanes f (usesOf 1 f false) f.wide (fun l =>
        (roundFlush s.grp.fpcr (fmtOf f.t) (rmMode f s.grp.fpcr) (Exact.ofInt
          (if f.x.getLsbD 0 then (((s.opnds f.t (usesOf 1 f false) vs).a.word l).toNat : Int)
           else ((s.opnds f.t (usesOf 1 f false) vs).a.word l).toInt) 0)).lane))) ∧
    (f.okExt8 = true → recOk f.x = true → s.vrReady f (usesOf 1 f false) false vs →
      exec (.vext8 f) s = .next (s.afterLanes f (usesOf 1 f false) false (fun l =>
        (ext8 s.grp.fpcr (Rec8.ofBits f.x) (elem 8 ((s.opnds f.t (usesOf 1 f false) vs).a.word l) 0)).lane))) ∧
    (f.okScale 0 = true → s.vrReady f (usesOf 2 f false) false vs →
      exec (.vscale f) s = .next (s.afterLanes f (usesOf 2 f false) false (fun l =>
        (fScale s.grp.fpcr .f32 (rmMode f s.grp.fpcr)
          (flushIn s.grp.fpcr .f32 ((s.opnds f.t (usesOf 2 f false) vs).a.word l).toNat)
          ((s.opnds f.t (usesOf 2 f false) vs).b.word l).toInt).lane))) ∧
    (f.okScale 2 = true → s.vrReady f (usesOf 2 f false) false vs →
      ∃ r, exec (.vbscl f) s = .next (s.afterLanes f (usesOf 2 f false) false r) ∧
        (f.x ≠ 2 → ∀ l, l < 96 → elem 8 ((s.opnds f.t (usesOf 2 f false) vs).b.word l) 0 = 0xFF →
          loHalf (r l).val = 0x7FC00000) ∧
        (f.x ≠ 2 → ∀ l, l < 96 → ∀ e : Nat, e = elem 8 ((s.opnds f.t (usesOf 2 f false) vs).b.word l) 0 → e ≠ 0xFF →
          r l = (fScale s.grp.fpcr .f32 (rmMode f s.grp.fpcr)
            (flushIn s.grp.fpcr .f32 ((s.opnds f.t (usesOf 2 f false) vs).a.word l).toNat)
            (if f.x = 0 then (e : Int) - 127 else 127 - e)).lane) ∧
        (f.x = 2 → ∀ l, l < 96 → r l = (deriveScale s.grp.fpcr ((s.opnds f.t (usesOf 2 f false) vs).a.word l)
          ((s.opnds f.t (usesOf 2 f false) vs).b.word l)).lane)) ∧
    (f.okPack 0 = true → s.vrReady f (usesOf 1 f false) f.wide vs →
      ∃ r, exec (.vpk8 f) s = .next (s.afterLanes f (usesOf 1 f false) f.wide r) ∧
        ∀ l, l < 96 → elem 8 (loHalf (r l).val) 3 = elem 8 ((s.opnds f.t (usesOf 1 f false) vs).a.word l) 0 ∧
          ∀ k, k < 3 → elem 8 (loHalf (r l).val) k = elem 8 (s.grp.rvl f.d.toNat l) (k + 1)) ∧
    (f.okPack 7 = true → s.vrReady f (usesOf 1 f false) f.wide vs →
      ∃ r, exec (.vupk8 f) s = .next (s.afterLanes f (usesOf 1 f false) f.wide r) ∧
        ∀ l, l < 96 → ∀ y : Nat, y = elem 8 ((s.opnds f.t (usesOf 1 f false) vs).a.word l) (f.x.extractLsb' 0 2).toNat →
          loHalf (r l).val = if f.x.getLsbD 2 = true ∧ 128 ≤ y then BitVec.ofInt 32 ((y : Int) - 256) else BitVec.ofNat 32 y)

/-- R117, R122, R126: VRNGS seeds the generators of the active lanes, VRNG draws once in each and writes the draw, and VCVT8
draws once in each active lane where its rounding is stochastic, and otherwise in none, and writes the 8-bit code of its value,
rounded with the draw or in its mode. -/
def Obligations.GeneratorInstructions : Prop :=
  ∀ (s : State) (f : VR) (vs : List (Nat × LaneVals)),
    (f.okRngs = true → s.grp.tripOk f.m = true → (usesOf 1 f false).all s.grp.useOk = true →
      s.readStreams (streamsOf (usesOf 1 f false)) = .ok vs →
      ∃ x : Lanes, exec (.vrngs f) s = .next (s.afterVR (usesOf 1 f false) (fun g =>
          { g with gen := x })) ∧
        ∀ l (h : l < 96),
          ((s.grp.mask f.m).getLsbD l = false → x[l] = s.grp.gen[l]) ∧
          ((s.grp.mask f.m).getLsbD l = true → x[l] ≠ 0 ∧
            ((s.opnds f.t (usesOf 1 f false) vs).a.word l ≠ BitVec.ofNat 32 (l * 0x10001) →
              x[l] = (s.opnds f.t (usesOf 1 f false) vs).a.word l ^^^ BitVec.ofNat 32 (l * 0x10001)))) ∧
    (f.okRng = true → s.vrReady f [] false vs →
      exec (.vrng f) s = .next (s.after 1 (fun g =>
        (g.draw (g.mask f.m)).wvm f.d.toNat (g.mask f.m) (g.gen.map drawNext)))) ∧
    (f.okCvt8 = true → recOk f.x = true → s.vrReady f (usesOf 1 f false) false vs →
      ∃ r, exec (.vcvt8 f) s = .next (s.afterVR (usesOf 1 f false) (fun g =>
        ((if f.rm = 3 then g.draw (g.mask f.m)
          else g).writeLanes f.d.toNat false (g.mask f.m) r))) ∧
        ∀ l, l < 96 → (s.grp.mask f.m).getLsbD l = true →
          r l = (cvt8 (Rec8.ofBits f.x)
            (if f.rm = 3 then .stoch (drawNext (s.grp.gen[l]?.getD 0)) else .mode (rmMode f s.grp.fpcr)) f.sat
            (flushIn s.grp.fpcr .f32 ((s.opnds f.t (usesOf 1 f false) vs).a.word l).toNat)).lane)

/-- R189 to R195: the group-wide instructions: the votes, the shuffle in its four modes, the match, whose `.f` keys are equal where
both are NaN, both zero, or the same number, the reduction and the scan. R193: a 32-bit
integer sum, whatever the shape of the tree, is the sum of the members modulo 2^32. -/
def Obligations.GroupWideResults : Prop :=
  (∀ (s : State) (f : VR) (vs : List (Nat × LaneVals)),
    (f.okVote = true → s.grp.tripOk f.m = true → (usesOf 1 f false).all s.grp.useOk = true →
      s.readStreams (streamsOf (usesOf 1 f false)) = .ok vs →
      (f.x ≠ 3 → s.grp.scalOk (f.d.setWidth 6) = true → s.grp.liveIn (f.d.setWidth 6) = false →
        exec (.vvote f) s = .next (s.afterVR (usesOf 1 f false) (fun g => g.ws (f.d.setWidth 6)
          (match f.x.toNat with
           | 0 => if (List.range 96).any (fun l =>
               (g.mask f.m).getLsbD l && decide ((s.opnds f.t (usesOf 1 f false) vs).a.word l ≠ 0)) then 1 else 0
           | 1 => if (List.range 96).all (fun l =>
               !(g.mask f.m).getLsbD l || decide ((s.opnds f.t (usesOf 1 f false) vs).a.word l ≠ 0)) then 1 else 0
           | _ => BitVec.ofNat 32 ((List.range 96).countP (fun l =>
               (g.mask f.m).getLsbD l && decide ((s.opnds f.t (usesOf 1 f false) vs).a.word l ≠ 0))))))) ∧
      (f.x = 3 → s.grp.tripOk (f.d.setWidth 6) = true → s.grp.liveInTriple (f.d.setWidth 6) = false →
        ∃ m : LaneSet, exec (.vvote f) s = .next (s.afterVR (usesOf 1 f false) (fun g =>
            g.setRaw (f.d.setWidth 6) m)) ∧
          ∀ l, l < 96 → (m.getLsbD l = true ↔
            (s.grp.mask f.m).getLsbD l = true ∧ (s.opnds f.t (usesOf 1 f false) vs).a.word l ≠ 0))) ∧
    (f.okShfl = true → s.vrReady f [useA f f.wide, useB f false] f.wide vs →
      ∃ r, exec (.vshfl f) s = .next (s.afterLanes f [useA f f.wide, useB f false] f.wide r) ∧
        ∀ l, l < 96 → ∃ j, j < 96 ∧ (r l).val = (s.opnds f.t [useA f f.wide, useB f false] vs).a[j]?.getD 0 ∧
          (j = l ∨ (s.grp.mask f.m).getLsbD j = true) ∧
          (f.x = 0 → f.kindB ≠ 3 →
            j = if (s.grp.mask f.m).getLsbD ((s.opnds f.t [useA f f.wide, useB f false] vs).b.word l).toNat
              then ((s.opnds f.t [useA f f.wide, useB f false] vs).b.word l).toNat else l) ∧
          ∀ (b : Nat) (i : Int), b = (if f.kindB = 3 then (f.b.signExtend 32).toNat
              else ((s.opnds f.t [useA f f.wide, useB f false] vs).b.word l).toNat) →
            i = (if f.x = 0 then (b : Int) else if f.x = 1 then ((l ^^^ b : Nat) : Int) else if f.x = 2 then (l : Int) - b
              else (l : Int) + b) →
            j = if 0 ≤ i ∧ i ≤ 95 ∧ (s.grp.mask f.m).getLsbD i.toNat = true then i.toNat else l) ∧
    (f.okMatch = true → s.vrReady f (usesOf 1 f false) true vs →
      ∃ r, exec (.vmatch f) s = .next (s.afterLanes f (usesOf 1 f false) true r) ∧
        (f.t ≠ 3 → ∀ l, l < 96 → (s.grp.mask f.m).getLsbD l = true →
          (s.grp.mask f.m).getLsbD (loHalf (r l).val).toNat = true ∧
          (s.opnds f.t (usesOf 1 f false) vs).a.word (loHalf (r l).val).toNat =
            (s.opnds f.t (usesOf 1 f false) vs).a.word l ∧
          (hiHalf (r l).val).toNat = (List.range 96).countP (fun j => (s.grp.mask f.m).getLsbD j &&
            decide ((s.opnds f.t (usesOf 1 f false) vs).a.word j = (s.opnds f.t (usesOf 1 f false) vs).a.word l))) ∧
        ∀ same : Nat → Nat → Bool, (∀ i j, same i j = keyEq (decide (f.t = 3)) s.grp.fpcr
            ((s.opnds f.t (usesOf 1 f false) vs).a.word i) ((s.opnds f.t (usesOf 1 f false) vs).a.word j)) →
          ∀ l, l < 96 → (s.grp.mask f.m).getLsbD l = true →
            (s.grp.mask f.m).getLsbD (loHalf (r l).val).toNat = true ∧ same (loHalf (r l).val).toNat l = true ∧
            (∀ j, j < (loHalf (r l).val).toNat → (s.grp.mask f.m).getLsbD j = true → same j l = false) ∧
            (hiHalf (r l).val).toNat = (List.range 96).countP (fun j => (s.grp.mask f.m).getLsbD j && same j l)) ∧
    (f.okRed true = true → s.grp.tripOk f.m = true →
      (if f.wide then s.grp.scalOk (f.d.setWidth 6) && s.grp.scalOk (f.d.setWidth 6 + 1)
       else s.grp.scalOk (f.d.setWidth 6)) = true →
      (if f.wide then s.grp.liveInPair (f.d.setWidth 6) else s.grp.liveIn (f.d.setWidth 6)) = false →
      (usesOf 1 f f.wide).all s.grp.useOk = true → s.readStreams (streamsOf (usesOf 1 f f.wide)) = .ok vs →
      exec (.vred f) s = .next (s.afterVR (usesOf 1 f f.wide) (fun g =>
        let r := reduceLanes g.fpcr f (s.opnds f.t (usesOf 1 f f.wide) vs).a (g.mask f.m)
        (if f.wide then g.wp (f.d.setWidth 6) (BitVec.ofNat 64 r.bits)
         else g.ws (f.d.setWidth 6) (BitVec.ofNat 32 r.bits)).raiseFlags
          r.flags))) ∧
    (f.okRed false = true → s.vrReady f (usesOf 1 f f.wide) f.wide vs →
      ∃ r, exec (.vscan f) s = .next (s.afterLanes f (usesOf 1 f f.wide) f.wide r) ∧
        ∀ l, l < 96 → r l = (reduceLanes s.grp.fpcr f (s.opnds f.t (usesOf 1 f f.wide) vs).a
          (s.grp.mask f.m &&& laneRange 0 (if f.x.getLsbD 3 then l else l + 1))).lane)) ∧
  (∀ (fpcr : Word) (f : VR) (v : LaneVals) (m : LaneSet), f.t = 0 → f.x.extractLsb' 0 3 = 0 → f.wide = false →
    (reduceLanes fpcr f v m).bits = (((List.range 96).filter (fun l => m.getLsbD l)).map (fun l => (v.word l).toNat)).sum % 2 ^ 32) ∧
  (∀ (fpcr a b : Word) (x y : Nat), x = flushIn fpcr .f32 a.toNat → y = flushIn fpcr .f32 b.toNat →
    (keyEq true fpcr a b = true ↔ ((fval .f32 x).isNan = true ∧ (fval .f32 y).isNan = true) ∨
      ((fval .f32 x).isZero = true ∧ (fval .f32 y).isZero = true) ∨ x = y))

/-- R93: the write of a vector instruction leaves the inactive lanes of its destination and every other vector register,
every scalar and the loop state as they were; of the special registers it may write FPSR, and its streams advance. -/
def Obligations.VectorWriteFrame : Prop :=
  ∀ (g x : Group) (zs : List Nat) (d : Nat) (wide : Bool) (m : LaneSet) (r : Nat → LaneRes) (p l : Nat), l < 96 →
    x = (g.advanceStreams zs).writeLanes d wide m r →
    ((g.phys d ≠ some p ∧ (wide = true → g.phys (d + 1) ≠ some p)) ∨ m.getLsbD l = false →
      (x.physLanes p)[l]? = (g.physLanes p)[l]?) ∧
    x = { g with vreg := x.vreg, fpsr := x.fpsr, zreg := x.zreg }

/-! ### Memory (07_memory_access.md) -/

/-- R144: SLD of an aligned address whose bytes are there writes them, extended as SZ says, to s[D] or pair D; an address that
is no multiple of the size raises MISALIGN with TRAPA at it (R141). R44, R144: a load of one or two bytes extends them with
zeros or with their sign as SZ says; of four it writes them; of eight it writes the pair. -/
def Obligations.ScalarLoadResult : Prop :=
  (∀ (s : State) (p : Option Pfx) (f : SM) (e : Eff) (how : ReadAt), e = s.grp.eff p →
    how = readHow (fitLoad e.ord) e.scope e.cp → (Instr.sld p f).wf = true → s.grp.smOk f = true →
    (if f.sz = 5 then s.grp.liveInPair f.d else s.grp.liveIn f.d) = false → (e.spaceSet = true ∨ e.space ≠ 4) →
    (∀ ks, (s.grp.smAddr f).toNat % Machine.sizeOf f.sz = 0 →
      s.place none e.space .read (s.grp.smAddr f) (Machine.sizeOf f.sz) = .keys ks → (∀ k ∈ ks, s.missing how k = false) →
      exec (.sld p f) s = .next (((((s.walked e.space [⟨0, s.grp.smAddr f⟩]).sawBeyond s.grp.coreNo how e.cp ks).acquireIf
        (fitLoad e.ord) e.scope).onGrp (fun g => g.putLoad f (bytesNat (ks.map (s.loadByte how))))).retire (pfxLen p))) ∧
    ((s.grp.smAddr f).toNat % Machine.sizeOf f.sz ≠ 0 →
      exec (.sld p f) s = .next (s.takeTrap { cause := .misalign, arg := 0, trapa := some (s.grp.smAddr f) }))) ∧
  (∀ (g : Group) (f : SM) (y : Nat),
    (f.sz = 0 → y < 2 ^ 8 → g.putLoad f y = g.ws f.d (BitVec.ofNat 32 y)) ∧
    (f.sz = 1 → y < 2 ^ 8 → g.putLoad f y = g.ws f.d (BitVec.ofInt 32 (if y < 2 ^ 7 then (y : Int) else y - 2 ^ 8))) ∧
    (f.sz = 2 → y < 2 ^ 16 → g.putLoad f y = g.ws f.d (BitVec.ofNat 32 y)) ∧
    (f.sz = 3 → y < 2 ^ 16 → g.putLoad f y = g.ws f.d (BitVec.ofInt 32 (if y < 2 ^ 15 then (y : Int) else y - 2 ^ 16))) ∧
    (f.sz = 4 → g.putLoad f y = g.ws f.d (BitVec.ofNat 32 y)) ∧
    (f.sz = 5 → g.putLoad f y = g.wp f.d (BitVec.ofNat 64 y)))

/-- R145: VLD and VLDB of aligned addresses whose bytes are there write the lanes of the mask; in private space their order and
scope have no effect (R130). -/
def Obligations.VectorLoadResult : Prop :=
  ∀ (s : State) (p : Option Pfx) (f : VM) (e : Eff) (ord : Nat) (how : ReadAt) (block : Bool) (xs : List Access)
    (ks : Nat → List Nat), e = s.grp.eff p → ord = (if e.space = 4 then 1 else fitLoad e.ord) → how = readHow ord e.scope e.cp →
    (if block then Instr.vldb p f else .vld p f).wf = true → s.grp.vmOk f = true →
    s.grp.vmDataOk f (decide (f.sz = 5)) = true → s.grp.liveInVec f.v.toNat = false →
    (f.sz = 5 → s.grp.liveInVec (f.v.toNat + 1) = false) →
    xs = s.grp.vmAccesses f block e.space (Machine.sizeOf f.sz) → (∀ x ∈ xs, x.addr.toNat % Machine.sizeOf f.sz = 0) →
    (∀ x ∈ xs, s.place (some x.lane) e.space .read x.addr (Machine.sizeOf f.sz) = .keys (ks x.lane)) →
    (∀ x ∈ xs, ∀ k ∈ ks x.lane, s.missing how k = false) →
    exec (if block then Instr.vldb p f else .vld p f) s =
      .next (((((s.walked e.space xs).sawBeyond s.grp.coreNo how e.cp (xs.flatMap (fun x => ks x.lane))).acquireIf ord
        e.scope).onGrp (fun g => g.writeLanes f.v.toNat (decide (f.sz = 5)) (g.mask f.m)
          (fun l => ⟨extendLoad f.sz (bytesNat ((ks l).map (s.loadByte how))), 0⟩))).retire (pfxLen p))

/-- R142, R144: SST outside a region and with no channel, where it is performed at once, writes the bytes of s[D] or of pair
D, and of no other key: no other byte's coherent value changes, every core reads it as before, and under L1-bypass, whose line may
take the place of another in L2, at least as its cluster's L2 gave it or as it coherently is; its own core reads what it stored; of the group only the watchdog's count and
the counter of L1 misses change before the pc moves on. R161: a release store at band scope or wider joins the group's waiting stores and the group goes on; its
own loads take the bytes. R255: inside a region a store that releases nothing changes no memory and no cache: its bytes go to the
region's write buffer, from which the group's own loads take them. -/
def Obligations.ScalarStoreResult : Prop :=
  (∀ (s : State) (p : Option Pfx) (f : SM) (e : Eff) (ks : List Nat), e = s.grp.eff p → (Instr.sst p f).wf = true →
    s.grp.smOk f = true → s.grp.inRegion = false → e.chan = 0 → s.storesNow (fitStore e.ord) e.scope ks →
    (e.spaceSet = true ∨ e.space ≠ 4) → (s.grp.smAddr f).toNat % Machine.sizeOf f.sz = 0 →
    s.place none e.space .write (s.grp.smAddr f) (Machine.sizeOf f.sz) = .keys ks →
    ∃ t : State, exec (.sst p f) s = .next (t.retire (pfxLen p)) ∧
      t.grp = { s.grp with progress := 0, l1Misses := t.grp.l1Misses } ∧ t.others = s.others ∧
      (∀ k, k ∉ ks → t.backing k = s.backing k ∧ (∀ core how, s.byteKept t core how k) ∧
        (e.cp ≠ 4 → ∀ core how, t.readByte core how k = s.readByte core how k)) ∧
      (s.memOk → ks.Nodup → ks.map (t.readByte s.grp.coreNo .l1) =
        natBytes ks.length (if f.sz = 5 then (s.grp.rp f.d).toNat else (s.grp.rs f.d).toNat))) ∧
  (∀ (s : State) (p : Option Pfx) (f : SM) (e : Eff) (ks : List Nat) (cells : List Host.Cell), e = s.grp.eff p →
    (Instr.sst p f).wf = true → s.grp.smOk f = true → s.grp.inRegion = false → e.chan = 0 →
    releases (fitStore e.ord) = true → 3 ≤ e.scope → (e.spaceSet = true ∨ e.space ≠ 4) →
    (s.grp.smAddr f).toNat % Machine.sizeOf f.sz = 0 →
    s.place none e.space .write (s.grp.smAddr f) (Machine.sizeOf f.sz) = .keys ks →
    cells = cellsOf ks (if f.sz = 5 then (s.grp.rp f.d).toNat else (s.grp.rs f.d).toNat) →
    ∃ t : State, exec (.sst p f) s = .next (t.retire (pfxLen p)) ∧
      t = (s.walked e.space [⟨0, s.grp.smAddr f⟩]).onGrp (fun g =>
        { g with relq := g.relq ++ [⟨e.scope, 0, cells, e.cp⟩], progress := 0 }) ∧
      (ks.Nodup → ∀ how, ∀ c ∈ cells, t.loadByte how c.1 = c.2)) ∧
  (∀ (s : State) (r : Region) (ord scope cp chan : Nat) (cells : List Host.Cell), s.grp.region = some r → releases ord = false →
    (∀ c ∈ cells, bufferAtom r.buffer c.1 = false) → (∀ b, bufferStore r.buffer cells = some b → bufferFits b = true) →
    (cells.map (·.1)).Nodup →
    ∃ b, s.storeAll ord scope cp chan cells = .ok (s.onGrp (fun g => { g with region := some { r with buffer := b } })) ∧
      ∀ how, ∀ c ∈ cells, (s.onGrp (fun g => { g with region := some { r with buffer := b } })).loadByte how c.1 = c.2)

/-- R142, R145: VST and VSTB under the same conditions write to each lane's access the bytes of that lane of V, or of its pair, and
change no other byte's coherent value; every core reads another byte as before, or, under L1-bypass, at least as its cluster's L2
gave it or as it coherently is. Beside the group, memory and the caches they change nothing but what the tenant's counters count
(R335). -/
def Obligations.VectorStoreFrame : Prop :=
  ∀ (s : State) (p : Option Pfx) (f : VM) (e : Eff) (block : Bool) (xs : List Access) (ks : Nat → List Nat),
    e = s.grp.eff p → (if block then Instr.vstb p f else .vst p f).wf = true → s.grp.vmOk f = true →
    s.grp.vmDataOk f (decide (f.sz = 5)) = true → s.grp.inRegion = false → e.chan = 0 →
    s.storesNow (if e.space = 4 then 1 else fitStore e.ord) e.scope (xs.flatMap (fun x => ks x.lane)) →
    xs = s.grp.vmAccesses f block e.space (Machine.sizeOf f.sz) → (∀ x ∈ xs, x.addr.toNat % Machine.sizeOf f.sz = 0) →
    (∀ x ∈ xs, s.place (some x.lane) e.space .write x.addr (Machine.sizeOf f.sz) = .keys (ks x.lane)) →
    ∃ t : State, exec (if block then Instr.vstb p f else .vst p f) s = .next (t.retire (pfxLen p)) ∧
      t = { s with
        grp := t.grp, mem := t.mem, hostDirty := t.hostDirty, remoteDirty := t.remoteDirty, origins := t.origins, l1 := t.l1,
        l2 := t.l2, hostOld := t.hostOld, msc := t.msc, regs := { s.regs with tcount := t.regs.tcount } } ∧
      t.grp = { s.grp with progress := t.grp.progress, l1Misses := t.grp.l1Misses } ∧
      (∀ k, (∀ x ∈ xs, k ∉ ks x.lane) → t.backing k = s.backing k ∧ (∀ core how, s.byteKept t core how k) ∧
        (e.cp ≠ 4 → ∀ core how, t.readByte core how k = s.readByte core how k)) ∧
      (s.memOk → (xs.flatMap (fun x => ks x.lane)).Nodup → ∀ x ∈ xs,
        (ks x.lane).map (t.readByte s.grp.coreNo .l1) = natBytes (ks x.lane).length
          ((s.grp.rvl f.v.toNat x.lane).toNat +
            (if f.sz = 5 then (s.grp.rvl (f.v.toNat + 1) x.lane).toNat * 2 ^ 32 else 0)))

/-- R147 to R150: ZSET takes a stream's descriptor from memory, ZSETS makes a stream of s[B] consecutive elements from the
address in a pair, ZREW rewinds a stream, and ZPOS reads its cursor or its end flag, or sets the cursor. -/
def Obligations.StreamInstructionsComplete : Prop :=
  ∀ (s : State) (f : EX),
    (∀ ks : List Nat, f.okZset = true → s.grp.pairOk f.a = true → (s.grp.rp f.a).toNat % 64 = 0 →
      s.place none 1 .read (s.grp.rp f.a) 64 = .keys ks → (∀ k ∈ ks, s.missing .l1 k = false) →
      streamBad (ks.map (s.loadByte .l1)) = false →
      (Stream.ofBytes (ks.map (s.loadByte .l1))).base.toNat % 2 ^ (Stream.ofBytes (ks.map (s.loadByte .l1))).esz.toNat = 0 →
      exec (.zset f) s = .next (((s.walked 1 [⟨0, s.grp.rp f.a⟩]).sawBeyond s.grp.coreNo .l1 1 ks).after 1 (fun g =>
        g.setStream (f.imm.toNat % 8) (Stream.ofBytes (ks.map (s.loadByte .l1)))))) ∧
    (f.okZsets = true → s.grp.pairOk f.a = true → s.grp.scalOk f.b = true →
      ∃ z : Stream, exec (.zsets f) s = .next (s.after 1 (fun g => g.setStream (f.imm.toNat % 8) z)) ∧
        z.base = s.grp.rp f.a ∧ z.esz = f.sub.extractLsb' 0 2 ∧ z.total = (s.grp.rs f.b).toNat ∧ z.cursor = 0 ∧ z.fin = false ∧
        ∀ i, i < z.total → z.offset i = i) ∧
    (f.okZrew = true → exec (.zrew f) s = .next (s.after 1 (fun g =>
      g.setStream (f.imm.toNat % 8) { g.streamAt (f.imm.toNat % 8) with cursor := 0, fin := false }))) ∧
    (f.okZposRead = true → s.grp.pairOk f.d = true → s.grp.liveInPair f.d = false →
      exec (.zposRead f) s = .next (s.after 1 (fun g => g.wp f.d (g.streamAt (f.imm.toNat % 8)).cursor))) ∧
    (f.okZposSet = true → s.grp.pairOk f.a = true → exec (.zposSet f) s = .next (s.after 1 (fun g =>
      g.setStream (f.imm.toNat % 8) { g.streamAt (f.imm.toNat % 8) with
        cursor := BitVec.ofNat 64 (min (g.rp f.a).toNat (2 ^ 63)), fin := false }))) ∧
    (f.okZposEnd = true → s.grp.scalOk f.d = true → s.grp.liveIn f.d = false →
      exec (.zposEnd f) s = .next (s.after 1 (fun g =>
        g.ws f.d (if (g.streamAt (f.imm.toNat % 8)).fin then 1 else 0))))

/-- R153, R154: FENCE, CWB, CINV and PREF complete. After CWB no byte of its lines is dirty in the core's L1; after CINV the
L1 holds none of them; PREF changes no memory. -/
def Obligations.CacheInstructionsComplete : Prop :=
  ∀ (s : State) (p : Option Pfx) (f : VM) (e : Eff), e = s.grp.eff p →
    ((Instr.fence p f).wf = true → s.releasesNow (if e.ord = 1 then 4 else e.ord) e.scope →
      ∃ t : State, exec (.fence p f) s = .next (t.retire (pfxLen p)) ∧ t.grp = s.grp ∧
        (3 ≤ e.scope → releases (if e.ord = 1 then 4 else e.ord) = true →
          ∀ l ∈ t.l1, l.core = s.grp.coreNo → isShared (128 * l.line) = true → l.dirty = 0)) ∧
    (s.grp.vmOk f = true → e.space ≠ 2 → e.space ≠ 3 → ∀ ps,
      s.placeAll e.space (fun x => s.place (if f.noIndex then none else some x.lane) e.space .read x.addr 1) (s.grp.lineAccesses f) =
        .ok ps →
      (∀ r ∈ s.grp.relq, ∀ c ∈ r.cells, ∀ k ∈ ps.flatMap (·.2), lineOf c.1 ≠ lineOf k) →
      ((Instr.cwb p f).wf = true → ∃ t : State, exec (.cwb p f) s = .next (t.retire (pfxLen p)) ∧ t.grp = s.grp ∧
        ∀ k ∈ ps.flatMap (·.2), ∀ l ∈ t.l1, l.core = s.grp.coreNo → l.line = lineOf k → l.dirty = 0) ∧
      ((Instr.cinv p f).wf = true → ∃ t : State, exec (.cinv p f) s = .next (t.retire (pfxLen p)) ∧ t.grp = s.grp ∧
        ∀ k ∈ ps.flatMap (·.2), ∀ l ∈ t.l1, l.core = s.grp.coreNo → l.line ≠ lineOf k)) ∧
    (s.grp.vmOk f = true → (Instr.pref p f).wf = true →
      ∃ t : State, exec (.pref p f) s = .next (t.retire (pfxLen p)) ∧ t.grp = s.grp ∧ t.mem = s.mem)

/-- R155, R156: CHOPEN opens a closed channel to a present die, CHWAIT and CHCLOSE complete where no store of the group on
the channel is outstanding, and CHANNEL_DRAINED completes the one that waits once its waiting release stores are performed. R155:
SST on a channel is performed after the channel's earlier stores where every byte is homed on the channel's die, and raises CHFAULT
where the channel is closed or a byte is not; that a byte of a HOST page or a remote window, which is homed on no die, raises it too
is the model's reading (log entry 24), no rule's words. -/
def Obligations.ChannelsComplete : Prop :=
  (∀ (s : State) (f : EX),
    (f.okChan true = true → s.grp.inRegion = false →
      (s.channelDie (f.imm.toNat % 32) = none → s.built.dies.getLsbD (f.imm.toNat / 256 % 2) = true →
        exec (.chopen f) s = .next ((s.onInst (fun i => { i with
          chans := i.chans.setIfInBounds (f.imm.toNat % 32) (some (f.imm.toNat / 256 % 2)) })).retire 1)) ∧
      (s.channelDie (f.imm.toNat % 32) = some (f.imm.toNat / 256 % 2) → exec (.chopen f) s = .next (s.retire 1)) ∧
      (∀ d, s.channelDie (f.imm.toNat % 32) = some d → d ≠ f.imm.toNat / 256 % 2 →
        exec (.chopen f) s = .next (s.takeTrap { cause := .chfault }))) ∧
    (f.okChan false = true → s.grp.channelClear (f.imm.toNat % 32) = true →
      exec (.chwait f) s = .next (s.retire 1) ∧
      (s.grp.inRegion = false → ∀ d, s.channelDie (f.imm.toNat % 32) = some d →
        exec (.chclose f) s = .next ((s.onInst (fun i => { i with
          chans := i.chans.setIfInBounds (f.imm.toNat % 32) none })).retire 1)))) ∧
  (∀ (s t : State) (uid n : Nat) (close : Bool), s.ev = .group uid → s.focus uid = some t →
    t.grp.status = .waiting (.channel n close) →
    (t.grp.relq.all (fun r => decide (r.chan ≠ n)) = true ∨ t.settleNow.grp.relq = []) →
    ∃ u : State, exec .channelDrained s = .next (u.retire 1) ∧ u.grp.channelClear n = true ∧
      (t.grp.relq.all (fun r => decide (r.chan ≠ n)) = true → u.mem = s.mem)) ∧
  (∀ (s : State) (p : Option Pfx) (f : SM) (e : Eff) (ks : List Nat) (x : Nat), e = s.grp.eff p → (Instr.sst p f).wf = true →
    s.grp.smOk f = true → s.grp.inRegion = false → e.chan ≠ 0 → e.space = 1 ∨ e.space = 5 →
    (s.grp.smAddr f).toNat % Machine.sizeOf f.sz = 0 →
    s.place none e.space .write (s.grp.smAddr f) (Machine.sizeOf f.sz) = .keys ks →
    x = (if f.sz = 5 then (s.grp.rp f.d).toNat else (s.grp.rs f.d).toNat) →
    (∀ d, s.channelDie e.chan = some d → (∀ k ∈ ks, homeDie k = some d) → s.grp.relq.all (fun r => decide (r.chan ≠ e.chan)) = true →
      s.storesNow (fitStore e.ord) e.scope ks →
      exec (.sst p f) s = .next ((((s.walked e.space [⟨0, s.grp.smAddr f⟩]).performStores e.cp e.chan (cellsOf ks x)).onGrp
        Group.progressed).retire (pfxLen p))) ∧
    (s.channelDie e.chan = none ∨ (∃ k ∈ ks, homeDie k ≠ s.channelDie e.chan) →
      exec (.sst p f) s = .next ((s.walked e.space [⟨0, s.grp.smAddr f⟩]).takeTrap
        { cause := .chfault, arg := 0, trapa := some (s.grp.smAddr f) })))

/-- R170: an atomic at its point reads the bytes as the core's own dirty bytes leave them, writes the new value there, and
changes no other coherent byte. R172, R174, R175: SATOM outside a region performs its operation on the bytes of its address
once, and writes the old value to s[V] or pair V unless it is `nret`; VATOM performs its lanes' operations one after another
in some order and writes each lane the old value that its own operation read; FXADD adds its lanes' increments; FXRD writes the
value of the accumulator, and with `clr` is an atomic that writes 0 there. -/
def Obligations.AtomicsActAtOnce : Prop :=
  (∀ (s : State) (key n : Nat) (f : Nat → Nat), s.memOk → (∀ k, key ≤ k → k < key + n → keyKind k < 4) →
    (∀ x, f x < 2 ^ (8 * n)) →
    (s.atomically key n f).2 = bytesNat ((s.takeExclusive s.grp.coreNo key).readCoherent key n) ∧
    bytesNat ((s.atomically key n f).1.readCoherent key n) = f (s.atomically key n f).2 ∧
    (∀ k, (k < key ∨ key + n ≤ k) →
      (s.atomically key n f).1.backing k = (s.takeExclusive s.grp.coreNo key).backing k) ∧
    (s.atomically key n f).1.grp = s.grp.progressed) ∧
  ((∀ (s u s1 : State) (p : Option Pfx) (f : VM) (e : Eff) (wide : Bool) (v : BitVec 6) (n : Nat) (ks : List Nat), e = s.grp.eff p →
    wide = decide (f.sz = 5) → v = f.v.setWidth 6 → n = Machine.sizeOf f.sz → (Instr.satom p f).wf = true →
    s.grp.pairOk f.sb = true → (if wide then s.grp.pairOk v else s.grp.scalOk v) = true → s.grp.inRegion = false →
    (f.atomOp = 9 → (if wide then s.grp.pairOk (v + 2) else s.grp.scalOk (v + 1)) = true) →
    (noReturn f = true ∨ (if wide then s.grp.liveInPair v else s.grp.liveIn v) = false) →
    (s.grp.rp f.sb + atomOfs f).toNat % n = 0 → s.atomPlace none e.space (s.grp.rp f.sb + atomOfs f) n = .keys ks →
    u = s.walked e.space [⟨0, s.grp.rp f.sb + atomOfs f⟩] → u.grp.relq = [] → u.releasesNow e.ord e.scope →
    s1 = (if releases e.ord then u.releaseAt u.grp.coreNo e.scope else u).atL2 ks (!noReturn f) →
    ∀ r, r = s1.atomically (ks.headD 0) n (fun o =>
        atomNew (8 * n) f.atomOp o
          (if f.atomOp = 9 ∧ v ≠ 0 then (if wide then (s.grp.rp (v + 2)).toNat else (s.grp.rs (v + 1)).toNat)
           else if wide then (s.grp.rp v).toNat else (s.grp.rs v).toNat)
          (if wide then (s.grp.rp v).toNat else (s.grp.rs v).toNat)) →
      exec (.satom p f) s = .next (((r.1.acquireIf e.ord e.scope).onGrp (fun g =>
        if noReturn f then g else if wide then g.wp v (BitVec.ofNat 64 r.2) else g.ws v (BitVec.ofNat 32 r.2))).retire
          (pfxLen p))) ∧
  (∀ (s u s1 : State) (p : Option Pfx) (f : VM) (e : Eff) (wide : Bool) (n k : Nat) (xs : List Access) (ps : List (Nat × List Nat)),
    e = s.grp.eff p → wide = decide (f.sz = 5) → k = (if f.atomOp = 9 then (if wide then 2 else 1) else 0) → n = Machine.sizeOf f.sz → (Instr.vatom p f).wf = true →
    (f.atomOp = 9 → s.grp.hasVec (f.v.toNat + k) = true ∧ (wide = true → s.grp.hasVec (f.v.toNat + 3) = true)) →
    s.grp.vmOk f = true → s.grp.vmDataOk f wide = true → s.grp.inRegion = false → s.grp.liveInVec f.v.toNat = false →
    (wide = true → s.grp.liveInVec (f.v.toNat + 1) = false) →
    xs = (lanesOf (s.grp.mask f.m)).map (fun l => ⟨l, s.grp.vmAddr f (atomOfs f) l⟩) →
    s.accessAll e.space n (fun x => s.atomPlace (some x.lane) e.space x.addr n) xs = .ok ps →
    u = s.walked e.space xs → u.grp.relq = [] → u.releasesNow e.ord e.scope →
    s1 = (if releases e.ord then u.releaseAt u.grp.coreNo e.scope else u).atL2 (ps.flatMap (·.2)) true →
    ∃ (order : List (Nat × List Nat)) (s2 : State) (r : State × List (Nat × Nat)), order.Perm ps ∧
      s2 = { s1 with choices := s1.choices.drop ps.length } ∧
      r = s2.atomLanes n (fun l old => atomNew (8 * n) f.atomOp old
          ((s.grp.rvl (f.v.toNat + k) l).toNat +
            (if wide then (s.grp.rvl (f.v.toNat + k + 1) l).toNat * 2 ^ 32 else 0))
          ((s.grp.rvl f.v.toNat l).toNat + (if wide then (s.grp.rvl (f.v.toNat + 1) l).toNat * 2 ^ 32 else 0))) order ∧
      exec (.vatom p f) s = .next (((r.1.acquireIf e.ord e.scope).onGrp (fun g => g.writeLanes f.v.toNat wide (g.mask f.m)
        (fun l => ⟨BitVec.ofNat 64 (((r.2.find? (fun q => q.1 = l)).map (·.2)).getD 0), 0⟩))).retire (pfxLen p))) ∧
  (∀ (s : State) (n : Nat) (f : Nat → Nat → Nat) (q : Nat × List Nat) (qs : List (Nat × List Nat)),
    (s.atomLanes n f []).1 = s ∧ (s.atomLanes n f []).2 = [] ∧
    (s.atomLanes n f (q :: qs)).1 = ((s.atomically (q.2.headD 0) n (f q.1)).1.atomLanes n f qs).1 ∧
    (s.atomLanes n f (q :: qs)).2 = (q.1, (s.atomically (q.2.headD 0) n (f q.1)).2) ::
      ((s.atomically (q.2.headD 0) n (f q.1)).1.atomLanes n f qs).2) ∧
  (∀ (s u s1 : State) (p : Option Pfx) (f : VM) (e : Eff) (xs : List Access) (ps : List (Nat × List Nat)), e = s.grp.eff p →
    (Instr.fxadd p f).wf = true → s.grp.vmOk f = true → s.grp.vmDataOk f false = true → s.grp.region = none →
    xs = (lanesOf (s.grp.mask f.m)).map (fun l => ⟨l, s.grp.vmAddr f (atomOfs f) l⟩) →
    s.accessAll e.space 16 (fun x => s.atomPlace (some x.lane) e.space x.addr 16) xs = .ok ps →
    u = s.walked e.space xs → u.grp.relq = [] → u.releasesNow e.ord e.scope →
    s1 = (if releases e.ord then u.releaseAt u.grp.coreNo e.scope else u).atL2 (ps.flatMap (·.2)) false →
    ∀ inc : Nat → Int × Flags, (∀ l, inc l = fxIncrement (flushIn s.grp.fpcr .f32 (s.grp.rvl f.v.toNat l).toNat)) →
      exec (.fxadd p f) s = .next ((((s1.atomLanes 16 (fun l old => (BitVec.ofNat 128 old +
        BitVec.ofInt 128 (inc l).1).toNat) ps).1.acquireIf e.ord e.scope).onGrp (fun g => g.raiseFlags
          ((lanesOf (s.grp.mask f.m)).foldl (fun x l => x ||| (inc l).2) 0))).retire (pfxLen p))) ∧
  (∀ (s u s1 : State) (p : Option Pfx) (f : VM) (e : Eff) (wide clr : Bool) (v : BitVec 6) (ks : List Nat), e = s.grp.eff p →
    wide = decide (f.sz = 5) → clr = decide (f.atomOp = 1) → v = f.v.setWidth 6 → (Instr.fxrd p f).wf = true →
    s.grp.pairOk f.sb = true → (if wide then s.grp.pairOk v else s.grp.scalOk v) = true → s.grp.region = none →
    (if wide then s.grp.liveInPair v else s.grp.liveIn v) = false →
    (s.grp.rp f.sb + atomOfs f).toNat % 16 = 0 →
    (if clr then s.atomPlace none e.space (s.grp.rp f.sb + atomOfs f) 16
      else (s.place none e.space .read (s.grp.rp f.sb + atomOfs f) 16).local?) = .keys ks →
    u = s.walked e.space [⟨0, s.grp.rp f.sb + atomOfs f⟩] → u.grp.relq = [] → (clr = false ∨ u.releasesNow e.ord e.scope) →
    s1 = (if clr && releases e.ord then u.releaseAt u.grp.coreNo e.scope else u).atL2 ks true →
    ∀ y, y = fxValue s.grp.fpcr (if wide then .f64 else .f32)
        (BitVec.ofNat 128 (bytesNat ((s1.takeExclusive s1.grp.coreNo (ks.headD 0)).readCoherent (ks.headD 0) 16))) →
      exec (.fxrd p f) s = .next ((((if clr then (s1.atomically (ks.headD 0) 16 (fun _ => 0)).1
        else s1.takeExclusive s1.grp.coreNo (ks.headD 0)).acquireIf (if clr then e.ord else fitLoad e.ord) e.scope).onGrp
          (fun g => (if wide then g.wp v (BitVec.ofNat 64 y.bits) else g.ws v (BitVec.ofNat 32 y.bits)).raiseFlags
            y.flags)).retire (pfxLen p))))

/-! ### Synchronisation (09_synchronisation.md) and queue registers (11_engines_and_copies.md) -/

/-- R177: for a group with no waiting release store (R161), BART and BARB arrive where it holds no arrival, and pass at once where that arrival ends the phase, else the
group waits with its arrival kept; BARA arrives and goes on; BARW goes on where there is no arrival or its phase has ended.
R176: where every other member of a team barrier has arrived, the last arrival ends the phase: P increases by 1, the arrived
set is empty, and every member that waits on it is ready. -/
def Obligations.BarriersComplete : Prop :=
  (∀ (s : State) (f : EX), s.grp.helper = none → s.grp.relq = [] →
    (f.okBar 15 = true → s.grp.inRegion = false → s.grp.mark (f.imm.toNat % 16) = none →
      ((s.arrives (f.imm.toNat % 16)).barPassed (f.imm.toNat % 16) = true →
        ∃ t : State, exec (.bart f) s = .next (t.retire 1) ∧ t.grp.mark (f.imm.toNat % 16) = none) ∧
      (∀ ph, (s.arrives (f.imm.toNat % 16)).grp.mark (f.imm.toNat % 16) = some ph →
        (s.arrives (f.imm.toNat % 16)).phaseOf (f.imm.toNat % 16) = ph →
        exec (.bart f) s = .next ((s.arrives (f.imm.toNat % 16)).waitFor (.barrier (f.imm.toNat % 16)))) ∧
      exec (.bara f) s = .next ((s.arrives (f.imm.toNat % 16)).retire 1)) ∧
    (f.okBar 15 = true → s.grp.mark (f.imm.toNat % 16) = none → exec (.barw f) s = .next (s.retire 1)) ∧
    (f.okBar 15 = true → ∀ ph, s.grp.mark (f.imm.toNat % 16) = some ph → s.phaseOf (f.imm.toNat % 16) ≠ ph →
      ∃ t : State, exec (.barw f) s = .next (t.retire 1) ∧ t.grp.mark (f.imm.toNat % 16) = none ∧ t.mem = s.mem) ∧
    (f.okBar 0 = true → s.grp.inRegion = false → s.grp.id.bandBar = true → s.grp.mark 16 = none →
      (s.arrives 16).barPassed 16 = true →
      ∃ t : State, exec (.barb f) s = .next (t.retire 1) ∧ t.grp.mark 16 = none) ∧
    (f.okBar 0 = true → s.grp.inRegion = false → s.grp.id.bandBar = true → s.grp.mark 16 = none →
      ∀ ph, (s.arrives 16).grp.mark 16 = some ph → (s.arrives 16).phaseOf 16 = ph →
        exec (.barb f) s = .next ((s.arrives 16).waitFor (.barrier 16)))) ∧
  (∀ (s : State) (bar : Nat) (b : Barrier), bar < 16 → s.barAt s.grp.id.band s.grp.id.inst bar = some b →
    s.grp.memberOf s.grp.id.band s.grp.id.inst bar = true →
    (∀ g ∈ s.others, g.memberOf s.grp.id.band s.grp.id.inst bar = true → b.arrived.contains g.id.uid = true) →
    (∃ c, (s.arrives bar).barAt s.grp.id.band s.grp.id.inst bar = some c ∧ c.phase = b.phase + 1 ∧ c.arrived = [] ∧
      c.first = none) ∧
    ∀ g ∈ (s.arrives bar).others, g.waitsOn s.grp.id.band s.grp.id.inst bar = false)

/-- R180, R181: SBINIT sets the barrier object, SBARV adds bytes to it, and SBWAIT returns its phase where it has passed the
phase named; SBWAIT_RELEASE does so for a group that waits. R182: WAITV returns the word where its condition holds, on the
first read, a recheck, or the timeout. R180: AddBytes counts whole phases of a valid object: with the count c and the
expected total E nonzero, k more bytes give the phase (c + k) / E more and leave (c + k) mod E. -/
def Obligations.ScratchBarriersAndWaitv : Prop :=
  ((∀ (s : State) (f : EX) (ks : List Nat), s.grp.pairOk f.a = true → s.grp.scalOk f.b = true →
    (s.grp.rp f.a).toNat % 16 = 0 →
    s.place none (if f.sub = 1 then 3 else 2) .write (s.grp.rp f.a) 16 = .keys ks → s.grp.inRegion = false → s.grp.relq = [] →
    (f.okSb false true = true → s.grp.scalOk f.c = true →
      exec (.sbinit f) s = .next (((s.onScratchBar (ks.headD 0) (fun b =>
        { b with valid := decide (s.grp.rs f.b ≠ 0), phase := s.grp.rs f.c, count := 0, expect := s.grp.rs f.b })).onGrp
          (fun g => { g with progress := 0 })).retire 1)) ∧
    (f.okSb false false = true →
      exec (.sbarv f) s = .next ((((s.releaseAt s.grp.coreNo 3).onScratchBar (ks.headD 0)
        (fun b => b.add (s.grp.rs f.b).toNat)).onGrp (fun g => { g with progress := 0 })).retire 1))) ∧
  (∀ (s : State) (f : EX) (ks : List Nat), f.okSb true false = true → s.grp.scalOk f.d = true → s.grp.pairOk f.a = true →
    s.grp.scalOk f.b = true → s.grp.liveIn f.d = false → (s.grp.rp f.a).toNat % 16 = 0 →
    s.place none (if f.sub = 1 then 3 else 2) .read (s.grp.rp f.a) 16 = .keys ks →
    (∀ i, i < 16 → relGet s.grp.relq (ks.headD 0 + i) = none) →
    0 < ((s.scratchBar (ks.headD 0)).phase - s.grp.rs f.b).toInt →
    ∃ t : State, exec (.sbwait f) s = .next (t.retire 1) ∧ t.mem = s.mem ∧
      t.grp = s.grp.ws f.d (s.scratchBar (ks.headD 0)).phase) ∧
  (∀ (s t : State) (uid : Nat) (d : BitVec 6) (key : Nat) (ph : Word), s.ev = .group uid → s.focus uid = some t →
    t.grp.status = .waiting (.scratchBar d key ph) → 0 < ((t.scratchBar key).phase - ph).toInt →
    ∃ u : State, exec .sbwaitRelease s = .next (u.retire 1) ∧ u.grp = t.grp.ws d (t.scratchBar key).phase) ∧
  (∀ (s u : State) (p : Option Pfx) (f : EX) (w : Word), (Instr.waitv p f).wf = true → s.grp.scalOk f.d = true →
    s.grp.pairOk f.a = true → s.grp.scalOk f.b = true → s.grp.scalOk f.c = true → s.grp.liveIn f.d = false →
    s.pollRead p f = .ok (w, u) → u.grp = { s.grp with l1Misses := u.grp.l1Misses, movedBytes := u.grp.movedBytes } ∧
      (waitCond f.sub w (s.grp.rs f.b) = true →
        ∃ t : State, exec (.waitv p f) s = .next (t.retire (pfxLen p)) ∧ t.mem = s.mem ∧
          t.grp = { u.grp.ws f.d w with acqLoad := t.grp.acqLoad })) ∧
  (∀ (s t v : State) (uid : Nat) (p : Option Pfx) (f : EX) (since : Nat) (w : Word), s.ev = .group uid →
    s.focus uid = some t → t.grp.status = .waiting (.word f p since) → t.pollRead p f = .ok (w, v) →
    (waitCond f.sub w (t.grp.rs f.b) = true → ∃ u : State, exec .waitvRecheck s = .next (u.retire (pfxLen p)) ∧
      u.grp = { v.grp.ws f.d w with acqLoad := u.grp.acqLoad }) ∧
    (t.grp.rs f.c ≠ 0xFFFFFFFF → since + (t.grp.rs f.c).toNat ≤ t.time →
      ∃ u : State, exec .waitvTimeout s = .next (u.retire (pfxLen p)) ∧
        u.grp = { v.grp.ws f.d w with acqLoad := u.grp.acqLoad }))) ∧
  (∀ (b : ScratchBar) (k : Nat), b.valid = true → b.expect ≠ 0 →
    (b.add k).phase = b.phase + BitVec.ofNat 32 ((b.count.toNat + k) / b.expect.toNat) ∧
    (b.add k).count.toNat = (b.count.toNat + k) % b.expect.toNat ∧
    (b.add k).expect = b.expect ∧ (b.add k).valid = true ∧ ScratchBar.ofNat (b.add k).toNat = b.add k)

/-- R186, R187: the board instructions, for a group that may post and an object index that names a BOARD record with the right.
BATT makes the caller the owner of a slot that has none or is its own; BPOST by the owner, while the board level is below its
end, raises the slot's and the board's level, writes the value, keeps every other slot and board, and waits for the return with
the view, the view number and the slot level of this post; BDET by the owner gives the slot up, and with `clear`, where no slot
then has an owner, clears the board and writes 1, else 0. Each raises BOARD where the slot is not below NSLOT or is not the
caller's, BPOST at the end of the board level too, and OBJ where the index names no such record. BPOST_RETURN writes the view
and the levels; BREAD writes the slot's value and level and the board level; BVSEG writes 96 bits of a view, 0 above bit 255; and
BVCMP answers `incl`, `count`, `new` and `first`. -/
def Obligations.BoardInstructions : Prop :=
  (∀ (s : State) (f : EX) (num nslot j : Nat), s.useBoard f.imm.toNat 4 = .ok (num, nslot) → s.grp.scalOk f.a = true →
    s.grp.mayPost = true → j = (s.grp.rs f.a).toNat →
    (f.okBatt = true →
      (j < nslot → (((s.boardAt num).slot j).owner = none ∨ ((s.boardAt num).slot j).owner = some s.grp.id.uid) →
        ∃ t : State, exec (.batt f) s = .next (t.retire 1) ∧ t.grp = { s.grp with progress := 0 } ∧ t.mem = s.mem ∧
          (t.boardAt num).slot j = { (s.boardAt num).slot j with owner := some s.grp.id.uid } ∧ s.boardKept t num j ∧
          (t.boardAt num).level = (s.boardAt num).level) ∧
      (nslot ≤ j ∨ (∃ u, ((s.boardAt num).slot j).owner = some u ∧ u ≠ s.grp.id.uid) →
        exec (.batt f) s = .next (s.takeTrap { cause := .board }))) ∧
    (f.okBpost = true → s.grp.pairOk f.d = true → s.grp.pairOk f.b = true →
      (j < nslot → ((s.boardAt num).slot j).owner = some s.grp.id.uid → (s.boardAt num).level < 0xFFFFFFFF → s.grp.relq = [] →
        ∃ (t : State) (v : BitVec 256) (n l : Word), exec (.bpost f) s = .next (t.waitFor (.bpost f v n l)) ∧
          t.grp = { s.grp with progress := 0 } ∧ n.toNat = (s.boardAt num).level + 1 ∧
          l.toNat = min (((s.boardAt num).slot j).level + 1) 0xFFFF ∧
          ((t.boardAt num).slot j).value = s.grp.rp f.b ∧ ((t.boardAt num).slot j).level = l.toNat ∧
          ((t.boardAt num).slot j).owner = some s.grp.id.uid ∧ (t.boardAt num).level = n.toNat ∧ s.boardKept t num j ∧
          ∀ i, i < 256 → (v.getLsbD i = true ↔ i < nslot ∧ ((t.boardAt num).slot i).level ≠ 0)) ∧
      (nslot ≤ j ∨ ((s.boardAt num).slot j).owner ≠ some s.grp.id.uid ∨ (s.boardAt num).level = 0xFFFFFFFF →
        exec (.bpost f) s = .next (s.takeTrap { cause := .board }))) ∧
    (f.okBdet = true → s.grp.scalOk f.d = true →
      (j < nslot → ((s.boardAt num).slot j).owner = some s.grp.id.uid →
        (f.sub = 1 → (∀ x ∈ (s.boardAt num).slots, x.idx ≠ j → x.owner = none) →
          ∃ t : State, exec (.bdet f) s = .next (t.retire 1) ∧ t.grp = ({ s.grp with progress := 0 } : Group).ws f.d 1 ∧
            t.boardAt num = ⟨(s.boardAt num).num, [], 0⟩ ∧ t.mem = s.mem) ∧
        (f.sub = 0 ∨ (∃ x ∈ (s.boardAt num).slots, x.idx ≠ j ∧ x.owner ≠ none) →
          ∃ t : State, exec (.bdet f) s = .next (t.retire 1) ∧ t.grp = ({ s.grp with progress := 0 } : Group).ws f.d 0 ∧
            (t.boardAt num).slot j = { (s.boardAt num).slot j with owner := none } ∧ s.boardKept t num j ∧
            (t.boardAt num).level = (s.boardAt num).level ∧ t.mem = s.mem)) ∧
      (nslot ≤ j ∨ ((s.boardAt num).slot j).owner ≠ some s.grp.id.uid →
        exec (.bdet f) s = .next (s.takeTrap { cause := .board })))) ∧
  (∀ (s : State) (f : EX) (c : Ctl), s.useBoard f.imm.toNat 4 = .error c → s.grp.scalOk f.a = true → s.grp.mayPost = true →
    (f.okBatt = true → exec (.batt f) s = .next (s.takeTrap { cause := .obj })) ∧
    (f.okBpost = true → s.grp.pairOk f.d = true → s.grp.pairOk f.b = true →
      exec (.bpost f) s = .next (s.takeTrap { cause := .obj })) ∧
    (f.okBdet = true → s.grp.scalOk f.d = true → exec (.bdet f) s = .next (s.takeTrap { cause := .obj }))) ∧
  (∀ (s t : State) (uid : Nat) (f : EX) (v : BitVec 256) (n l : Word), s.ev = .group uid → s.focus uid = some t →
    t.grp.status = .waiting (.bpost f v n l) →
    ∃ u : State, exec .bpostReturn s = .next (u.retire 1) ∧ u.mem = t.mem ∧
      u.grp = { t.grp.wp f.d (l ++ n) with view := t.grp.view.setIfInBounds f.w.toNat v }) ∧
  (∀ (s : State) (f : EX), f.okBread = true → s.grp.scalOk f.a = true → s.grp.pairOk f.d = true →
    s.grp.pairOk (f.d + 2) = true → s.grp.liveInPair f.d = false → s.grp.liveInPair (f.d + 2) = false →
    (∀ num nslot, s.useBoard f.imm.toNat 0 = .ok (num, nslot) →
      ((s.grp.rs f.a).toNat < nslot → ∃ t : State, exec (.bread f) s = .next (t.retire 1) ∧ t.mem = s.mem ∧ t.boards = s.boards ∧
        t.grp = (s.grp.wp f.d ((s.boardAt num).slot (s.grp.rs f.a).toNat).value).wp (f.d + 2)
          (BitVec.ofNat 32 (s.boardAt num).level ++ BitVec.ofNat 32 ((s.boardAt num).slot (s.grp.rs f.a).toNat).level)) ∧
      (nslot ≤ (s.grp.rs f.a).toNat → exec (.bread f) s = .next (s.takeTrap { cause := .board }))) ∧
    (∀ c, s.useBoard f.imm.toNat 0 = .error c → exec (.bread f) s = .next (s.takeTrap { cause := .obj }))) ∧
  (∀ (s : State) (f : EX), f.okBvseg = true → s.grp.tripOk f.d = true → s.grp.liveInTriple f.d = false →
    ∃ m : LaneSet, exec (.bvseg f) s = .next (s.after 1 (fun g => g.setRaw f.d m)) ∧
      ∀ l, l < 96 → m.getLsbD l =
        (decide (96 * f.imm.toNat + l < 256) && (s.grp.viewAt f.w.toNat).getLsbD (96 * f.imm.toNat + l))) ∧
  (∀ (s : State) (f : EX) (w j : BitVec 256), f.okBvcmp = true → s.grp.scalOk f.d = true → s.grp.liveIn f.d = false →
    w = s.grp.viewAt f.w.toNat → j = s.grp.viewAt (f.imm.toNat % 8) →
    ∃ x : Word, exec (.bvcmp f) s = .next (s.after 1 (fun g => g.ws f.d x)) ∧
      (f.sub = 0 → (x = 0 ∨ x = 1) ∧ (x = 1 ↔ ∀ i < 256, j.getLsbD i = true → w.getLsbD i = true)) ∧
      (f.sub = 1 → x = BitVec.ofNat 32 ((List.range 256).countP (fun i => w.getLsbD i))) ∧
      (f.sub = 2 → x = BitVec.ofNat 32 ((List.range 256).countP (fun i => w.getLsbD i && !j.getLsbD i))) ∧
      (f.sub = 3 → (∀ i < 256, (w.getLsbD i && !j.getLsbD i) = false) → x = 0xFFFFFFFF) ∧
      (f.sub = 3 → ∀ i < 256, (w.getLsbD i && !j.getLsbD i) = true → (∀ k < i, (w.getLsbD k && !j.getLsbD k) = false) →
        x = BitVec.ofNat 32 i))

/-- R198 to R203: QBIND rebinds a register that is empty and has nothing outstanding; QPUSH adds its value at the tail of the
receiver's register while that holds fewer than 8 (for a group with no waiting release store, R161), and otherwise the group waits, until QPUSH_ROOM; QPOP and QTRY take the
head, QPOP waiting for one, until QPOP_ENTRY, and QTRY saying whether there was one; QSTAT reads the register's status; that it leaves the progress count as it is, although R283
names queue operations, is the model's reading (log entry 27). -/
def Obligations.QueueInstructions : Prop :=
  (∀ (s : State) (f : EX), s.grp.mayQueue = true →
    (f.okQbind = true → s.bindOk f.q.toNat (kindOf f) = true →
      exec (.qbind f) s = .next (s.after 1 (fun g =>
        { g.onQueue f.q.toNat (fun _ => ⟨kindOf f, [], [], 0⟩) with progress := 0 }))) ∧
    (∀ u r, f.okQpush = true → s.grp.pairOk f.a = true → s.sendTo f.q = some (u, r) →
      (s.held u r < 8 → s.grp.relq = [] → exec (.qpush f) s = .next (((s.onQueueOf u r (fun x =>
          { x with entries := x.entries ++ [s.grp.rp f.a], rel := x.rel ++ [0] })).onGrp
            (fun g => { g with progress := 0 })).retire 1)) ∧
      (8 ≤ s.held u r → exec (.qpush f) s = .next (s.waitFor (.push f.q (s.grp.rp f.a))))) ∧
    (s.grp.popsFrom f.q.toNat = true → s.grp.pairOk f.d = true → ∀ x rest, (s.grp.queue f.q.toNat).entries = x :: rest →
      (f.okQpop = true → ∃ t : State, exec (.qpop f) s = .next (t.retire 1) ∧ t.mem = s.mem ∧
        (t.grp.queue f.q.toNat).entries = rest ∧ (f.d ≠ 0 → t.grp.rp f.d = x)) ∧
      (f.okQtry = true → ∃ t : State, exec (.qtry f) s = .next (t.retire 1) ∧ t.mem = s.mem ∧
        (t.grp.queue f.q.toNat).entries = rest ∧ t.grp.rp f.d = x ∧ t.grp.rs (f.d + 2) = 1)) ∧
    (s.grp.popsFrom f.q.toNat = true → s.grp.pairOk f.d = true → (s.grp.queue f.q.toNat).entries = [] →
      (f.okQpop = true → exec (.qpop f) s = .next (s.waitFor (.pop f.d f.q))) ∧
      (f.okQtry = true → exec (.qtry f) s = .next (s.after 1 (fun g => { (g.wp f.d 0).ws (f.d + 2) 0 with progress := 0 }))))) ∧
  (∀ (s : State) (f : EX), f.okQstat = true → s.grp.helper = none → s.grp.scalOk f.d = true → s.grp.liveIn f.d = false →
    exec (.qstat f) s = .next (s.after 1 (fun g => g.ws f.d (g.queue f.q.toNat).status))) ∧
  (∀ (s t : State) (uid u r : Nat) (q : BitVec 4) (x : DWord), s.ev = .group uid → s.focus uid = some t →
    t.grp.status = .waiting (.push q x) → t.sendTo q = some (u, r) → t.held u r < 8 → t.grp.relq = [] →
    exec .qpushRoom s = .next (((t.onQueueOf u r (fun y =>
      { y with entries := y.entries ++ [x], rel := y.rel ++ [0] })).onGrp (fun g => { g with progress := 0 })).retire 1)) ∧
  (∀ (s t : State) (uid : Nat) (d : BitVec 6) (q : BitVec 4) (x : DWord) (rest : List DWord), s.ev = .group uid →
    s.focus uid = some t → t.grp.status = .waiting (.pop d q) → (t.grp.queue q.toNat).entries = x :: rest →
    ∃ u : State, exec .qpopEntry s = .next (u.retire 1) ∧ (u.grp.queue q.toNat).entries = rest ∧
      u.grp = ({ t.grp.onQueue q.toNat QReg.pop with progress := 0, acqLoad := u.grp.acqLoad } : Group).wp d x)

/-! ### Ends and pauses of a group (03_control.md), copies (11_engines_and_copies.md), the matrix unit (12_matrix.md) -/

/-- R74 to R77: EXIT ends the group once its joins, its deferred faults, its waiting release stores and, for the last of its team, the team's copies and
matrix commands are over; YIELD continues at the next block, at once or on YIELD_WAKE, where an event that it names is
present; NOP changes nothing; SNOOZE waits for its count, until SNOOZE_EXPIRY. -/
def Obligations.FlowInstructionsComplete : Prop :=
  (∀ (s s1 : State) (f : SR), f.allZero = true → s.grp.helper = none → s.exitJoin = .ok s1 →
    (∀ q ∈ s1.exitTiles, ∀ g, s1.group? q.1 = some g → (g.tile q.2).cause = 0) → s1.grp.relq = [] → s1.remoteOpen = false →
    (s1.notLast = true ∨ s1.teamIdle = true) →
    ∃ t : State, exec (.exit f) s = .next t ∧ t.grp.status = .exited ∧ t.grp.retired = s.grp.retired + 1) ∧
  (∀ (s : State) (f : SR) (h : Header), f.okYield = true →
    (s.grp.yieldEvents &&& yieldSet f ≠ 0 → s.check (s.grp.pc + 8) = .ok h →
      exec (.yield f) s = .next ((s.onGrp (fun g => { g with
        latch := g.latch &&& ~~~(yieldSet f &&& 6), progress := 0 })).transfer (s.grp.pc + 8))) ∧
    (s.grp.yieldEvents &&& yieldSet f = 0 →
      exec (.yield f) s = .next ((s.onGrp (fun g => { g with progress := 0 })).waitFor (.yielding (yieldSet f))))) ∧
  (∀ (s t : State) (uid : Nat) (e : BitVec 3) (h : Header), s.ev = .group uid → s.focus uid = some t →
    t.grp.status = .waiting (.yielding e) → t.grp.yieldEvents &&& e ≠ 0 → t.check (t.grp.pc + 8) = .ok h →
    exec .yieldWake s = .next ((t.onGrp (fun g => { g with
      latch := g.latch &&& ~~~(e &&& 6), progress := 0 })).transfer (t.grp.pc + 8))) ∧
  (∀ (s : State) (f : SR), f.allZero = true → exec (.nop f) s = .next (s.retire 1)) ∧
  (∀ (s : State) (f : SR), f.okSnooze = true → s.grp.scalOk f.b = true →
    (s.grp.srcB f = 0 → exec (.snooze f) s = .next (s.retire 1)) ∧
    (s.grp.srcB f ≠ 0 → exec (.snooze f) s = .next (s.waitFor (.snooze (s.grp.ccnt + (s.grp.srcB f).toNat))))) ∧
  (∀ (s t : State) (uid u : Nat), s.ev = .group uid → s.focus uid = some t → t.grp.status = .waiting (.snooze u) →
    u ≤ t.grp.ccnt → exec .snoozeExpiry s = .next (t.retire 1))

/-- R198, R210: each copy instruction, where its registers have room, adds its command to the machine and to its command
register, counts one more outstanding, and writes its tag to s[D]; where they have none, it waits, and COPY_ISSUE_UNBLOCK
does the same once there is room. -/
def Obligations.CopyInstructionsPush : Prop :=
  (∀ row ∈ copyRows, ∀ (s : State) (p : Option Pfx) (f : EX) (form : CopyForm) (bar : Word) (link : Nat × Nat),
    (row.1 p f).wf = true → s.grp.mayQueue = true → s.copyForm row.2 f = some (form, bar) →
    (s.grp.queue f.q.toNat).copyLink = some link → link.1 < 16 →
    (s.copyRoom f link = true → ∃ t : State, exec (row.1 p f) s = .next (t.retire (pfxLen p)) ∧ s.pushed t f form bar link) ∧
    (s.copyRoom f link = false → exec (row.1 p f) s = .next (s.waitFor (.copyRoom row.2 p f)))) ∧
  (∀ (s t : State) (uid : Nat) (op : CopyOp) (p : Option Pfx) (f : EX) (form : CopyForm) (bar : Word) (link : Nat × Nat),
    s.ev = .group uid → s.focus uid = some t → t.grp.status = .waiting (.copyRoom op p f) →
    t.copyForm op f = some (form, bar) → (t.grp.queue f.q.toNat).copyLink = some link → link.1 < 16 →
    t.copyRoom f link = true →
    ∃ u : State, exec .copyIssueUnblock s = .next (u.retire (pfxLen p)) ∧ t.pushed u f form bar link)

/-- R199, R206, R209, R216: COPY_COMMAND_START gives the command to an engine; GRANULE_LAND lands the bytes of the next granule, and
the last one settles the command; a byte that cannot be reached ends the command with its cause and the granule's offset, and
nothing of the granule lands; a COPYR whose next granule is not full yet takes its next shard. COPY_TOKEN, once no earlier command
of its register and engine is left, takes an ended command away and gives its token, laid out as R209 says, to the completion
register of a group that is there, with YIELD event 1 latched. That a granule lands the bytes as they stand in the step in which it
lands, though R206 lets reads run ahead and R207 leaves overlapping bytes open, is the model's choice (log entry 8). -/
def Obligations.CopyCommandsRun : Prop :=
  (∀ (s : State) (u engine : Nat) (c : CopyCmd), s.ev = .cmd u engine → s.copy? u = some c → s.copyMayStart c engine = true →
    ∃ (t : State) (d : CopyCmd), exec .copyCommandStart s = .next t ∧ t.copy? u = some d ∧ d.engine.isSome = true ∧
      d.landed = c.landed ∧ t.mem = s.mem) ∧
  (∀ (s : State) (u e : Nat) (c : CopyCmd) (p : CopyPlan), s.ev = .cmd u e → s.copy? u = some c →
    c.plan = some p → c.ended = none → c.suspended = false → c.engine.isSome = true → c.waitHost = none →
    s.guaranteedFirst c = false →
    (p.more = false ∨ 4096 * (c.landed + 1) ≤ p.total →
      (∀ cells : List Host.Cell,
        s.granuleCells c p ((List.range (p.granule c.landed).2).map ((p.granule c.landed).1 + ·)) = .ok cells →
        ∃ (t : State) (d : CopyCmd), exec .granuleLand s = .next t ∧ t.copy? u = some d ∧ d.landed = c.landed + 1 ∧
          (p.more = true ∨ c.landed + 1 < p.granules → d.ended = none) ∧
          (p.more = false → p.granules ≤ c.landed + 1 → d.ended = some p.verdict) ∧
          (s.memOk → (cells.map (·.1)).Nodup → (∀ x ∈ cells, keyKind x.1 < 2) → ∀ x ∈ cells, t.backing x.1 = x.2)) ∧
      (∀ k, s.granuleCells c p ((List.range (p.granule c.landed).2).map ((p.granule c.landed).1 + ·)) = .error (.cause k) →
        ∃ (t : State) (d : CopyCmd), exec .granuleLand s = .next t ∧ t.copy? u = some d ∧ d.landed = c.landed ∧
          d.ended = some (4, k, (p.granule c.landed).1) ∧ t.mem = s.mem)) ∧
    (∀ q, p.more = true → p.total < 4096 * (c.landed + 1) → s.takeShard c p = .ok q →
      ∃ (t : State) (d : CopyCmd), exec .granuleLand s = .next t ∧ t.copy? u = some d ∧ d.landed = c.landed ∧
        d.plan = some q ∧ t.mem = s.mem)) ∧
  (∀ (s : State) (u e status cause detail : Nat) (c : CopyCmd), s.ev = .cmd u e → s.copy? u = some c →
    c.ended = some (status, cause, detail) → s.tokenBefore c = false →
    ∃ t : State, exec .copyToken s = .next t ∧ t.copy? u = none ∧
      ∀ uid g, c.group = some uid → c.dropToken = false → s.group? uid = some g → s.isEvicted uid = false → c.doneReg < 16 →
        ∃ h, t.group? uid = some h ∧ h.latch.getLsbD 1 = true ∧
          (h.queue c.doneReg).entries = (g.queue c.doneReg).entries ++ [copyToken c.tag status cause detail]) ∧
  (∀ (tag : BitVec 16) (status cause detail : Nat), status < 8 → cause < 32 → detail < 2 ^ 40 →
    (copyToken tag status cause detail).extractLsb' 0 16 = tag ∧
    ((copyToken tag status cause detail).extractLsb' 16 3).toNat = status ∧
    ((copyToken tag status cause detail).extractLsb' 19 5).toNat = cause ∧
    ((copyToken tag status cause detail).extractLsb' 24 40).toNat = detail)

/-- R219, R232 to R238: the matrix instructions on a tile of the group that has no deferred fault. MLOOP, MZERO and MST queue
their commands, or wait while the queue holds eight, MLOOP and MST with a tag in s[D]; MRD and MWR move a line of the tile, once its commands are complete; MWAIT
returns the flags of the tiles it waited for; MSTAT writes the tile's status. -/
def Obligations.MatrixInstructionsComplete : Prop :=
  (∀ (s : State) (p : Option Pfx) (f : EX), (Instr.mloop p f).wf = true → s.mxFree f → s.grp.liveInTile (tileOf f) = false →
    s.grp.liveIn f.d = false → ∀ (c : MxCmd), s.mloopReads p f c → mloopOk c →
    (8 ≤ s.grp.mxq.length → ∃ ks : List Nat,
      exec (.mloop p f) s = .next ((s.readBlock c (c.pair 8) ks).waitFor (.mxRoom (pfxLen p) (some f.d) c))) ∧
    (s.grp.mxq.length < 8 → ∃ t : State, exec (.mloop p f) s = .next (t.retire (pfxLen p)) ∧ t.grp.mxTag = s.grp.mxTag + 1 ∧
      (f.d ≠ 0 → t.grp.rs f.d = s.grp.mxTag.setWidth 32) ∧
      (s.grp.mxCount (tileOf f) = 0 → c.nstep ≠ 0 →
        t.grp.mxHead (tileOf f) = some { c with begun := true } ∧ (t.grp.tile (tileOf f)).steps = 0))) ∧
  (∀ (s : State) (f : EX), f.okMzero = true → s.mxFree f → s.grp.liveInTile (tileOf f) = false →
    (8 ≤ s.grp.mxq.length →
      exec (.mzero f) s = .next (s.waitFor (.mxRoom 1 none (s.grp.mkMx .zero none f [] [] false)))) ∧
    (s.grp.mxq.length < 8 → ∃ t : State, exec (.mzero f) s = .next (t.retire 1) ∧
      (s.grp.mxCount (tileOf f) = 0 → ∃ c, t.grp.mxHead (tileOf f) = some c ∧ c.kind = .zero))) ∧
  (∀ (s : State) (f : EX), f.okMrd = true → s.mxFree f → s.grp.hasVec (mxVec f) = true → s.grp.mxCount (tileOf f) = 0 →
    (s.grp.liveInVec (mxVec f) = false →
      ∃ x : Lanes, exec (.mrd f) s = .next (s.after 1 (fun g => g.wvm (mxVec f) g.live x)) ∧
        ∀ l (h : l < 96), x[l] = (cellOf f (s.grp.tile (tileOf f)) (s.grp.rs f.a).toNat ((s.grp.rs f.b).toNat + l)).getD 0) ∧
    (s.grp.liveInTile (tileOf f) = false →
      ∃ t : State, exec (.mwr f) s = .next (t.retire 1) ∧ ∀ r c, r < 128 → c < 128 →
        (cellOf f (t.grp.tile (tileOf f)) r c).getD 0 =
          if r = (s.grp.rs f.a).toNat ∧ (s.grp.rs f.b).toNat ≤ c ∧ c - (s.grp.rs f.b).toNat < 96 ∧
              s.grp.live.getLsbD (c - (s.grp.rs f.b).toNat) = true
          then s.grp.rvl (mxVec f) (c - (s.grp.rs f.b).toNat) else (cellOf f (s.grp.tile (tileOf f)) r c).getD 0)) ∧
  (∀ (s : State) (p : Option Pfx) (f : EX), (Instr.mst p f).wf = true → s.mxFree f → s.grp.inRegion = false →
    s.grp.liveIn f.d = false → mstReady (s.grp.mkMx .store p f (s.grp.capture f.a 6) [] false) →
    (8 ≤ s.grp.mxq.length → exec (.mst p f) s =
      .next (s.waitFor (.mxRoom (pfxLen p) (some f.d) (s.grp.mkMx .store p f (s.grp.capture f.a 6) [] false)))) ∧
    (s.grp.mxq.length < 8 → ∃ t : State, exec (.mst p f) s = .next (t.retire (pfxLen p)) ∧ t.grp.mxTag = s.grp.mxTag + 1 ∧
      (f.d ≠ 0 → t.grp.rs f.d = s.grp.mxTag.setWidth 32) ∧
      (s.grp.mxCount (tileOf f) = 0 →
        t.grp.mxHead (tileOf f) = some (s.grp.mkMx .store p f (s.grp.capture f.a 6) [] false)))) ∧
  (∀ (s : State) (f : EX), f.okMwait = true → s.grp.helper = none → (f.sub = 0 ∨ tileOf f < s.grp.id.ntiles) →
    (∀ t ∈ s.grp.waitedTiles f, (s.grp.tile t).cause = 0) →
    ((∀ t ∈ s.grp.waitedTiles f, s.grp.mxCount t = 0) →
      ∃ t : State, exec (.mwait f) s = .next (t.retire 1) ∧ t.mem = s.mem ∧ t.grp.sreg = s.grp.sreg ∧
        ∀ k, k < 6 → (t.grp.fpsr.getLsbD k = true ↔ s.grp.fpsr.getLsbD k = true ∨
          ∃ i ∈ s.grp.waitedTiles f, (s.grp.tile i).flags.getLsbD k = true)) ∧
    ((∃ t ∈ s.grp.waitedTiles f, s.grp.mxCount t ≠ 0) → exec (.mwait f) s = .next (s.waitFor (.matrix f)))) ∧
  (∀ (s : State) (f : EX), f.okMstat = true → s.grp.mxOk f = true → s.grp.pairOk f.d = true → s.grp.liveInPair f.d = false →
    ∃ w : Word, exec (.mstat f) s = .next (s.after 1 (fun g => g.wp f.d ((s.grp.tile (tileOf f)).steps ++ w))) ∧
      w.extractLsb' 0 6 = (s.grp.tile (tileOf f)).flags &&& 0x3D ∧
      (w.extractLsb' 8 4).toNat = min 8 (s.grp.mxCount (tileOf f)) ∧
      (w.extractLsb' 13 3).toNat = (s.grp.tile (tileOf f)).cause % 8 ∧ w.extractLsb' 16 16 = (s.grp.tile (tileOf f)).tag)

/-- R219, R220, R226, R227, R234, R236, R237: the events of the matrix unit. A K-step starts where its command is ready, the array
is free and it is its turn, and ends 32 cc later with its result in the tile; a fetch pins the unit that the machine picks or,
of the next step, defers a fault; a zero at the head of its tile's queue is performed; a store whose rows are written is over
(at system scope once the remote devices have acknowledged every byte), one whose row cannot be reached defers its fault, or
waits for the host's page; MWAIT_DONE completes the MWAIT. -/
def Obligations.MatrixEventsHappen : Prop :=
  (∀ (s t : State) (uid tile : Nat) (c : MxCmd), s.ev = .tile uid tile → s.focus uid = some t → t.grp.mxHead tile = some c →
    (t.grp.tile tile).cause = 0 → t.mxHeld = false → tile < 4 →
    (c.ready = true → t.mxBusy t.grp.coreNo = false → t.mxTurn t.grp.coreNo = some (t.grp.id.uid, tile) →
      ∃ u : State, exec .kstepStart s = .next u ∧ u.grp.mxHead tile = some { c with running := some 0 } ∧
        u.grp.tiles = t.grp.tiles ∧ u.mem = t.mem) ∧
    (∀ n, c.running = some n → 32 ≤ n → c.kind = .loop → c.begun = true →
      ∃ u : State, exec .kstepComplete s = .next u ∧ u.mem = t.mem ∧
        (c.done + 1 < c.nstep →
          u.grp.mxHead tile = some { c with
            done := c.done + 1, pinned := c.pinned.filter (fun p => decide (p.1.1 ≠ c.done)),
            lines := c.lines.filter (fun l => decide (l.1 ≠ c.done)), running := none } ∧
          u.grp.tile tile = stepTile (t.grp.tile tile) c) ∧
        (c.nstep ≤ c.done + 1 → u.grp.mxq.length < t.grp.mxq.length)) ∧
    (c.kind = .loop → c.begun = true → t.grp.mxRuns = true → t.mxAcquireWaits c = false → ∀ q x,
      (t.pick c.lacking).1 = some q → (c.units q.1)[q.2]? = some x →
      (∀ d, t.mxFetch c q.1 x = .ok d → ∃ u : State, exec .tileFetch s = .next u ∧ u.mem = t.mem ∧
        u.grp.mxHead tile = some { t.withLines c q.1 x with pinned := (q, d) :: c.pinned, acqDone := c.acq }) ∧
      (∀ cause a, t.mxFetch c q.1 x = .error (cause, a) → q.1 = c.done → c.running = none →
        ∃ u : State, exec .tileFetch s = .next u ∧ (u.grp.tile tile).cause = cause ∧ (u.grp.tile tile).faultAddr = a)) ∧
    (c.kind = .store → t.grp.mxRuns = true → c.waitHost = none → t.mxAcquireWaits c = false → ∀ v x,
      (t.acquiredHead tile).mstRows tile c (.ofWord (c.op 3)) ((List.range 128).drop c.done) = (v, x) →
      (x = none → (c.rel = false ∨ c.scope ≠ 6 ∨ v.remoteDirty = []) →
        ∃ u : State, exec .mstPerform s = .next u ∧ u.grp.mxq.length < t.grp.mxq.length) ∧
      (∀ a cause, x = some (a, .fault cause) →
        ∃ u : State, exec .mstPerform s = .next u ∧ (u.grp.tile tile).cause = cause ∧ (u.grp.tile tile).faultAddr = a) ∧
      (∀ a page, x = some (a, .host page) → c.denied = false →
        ∃ (u : State) (d : MxCmd), exec .mstPerform s = .next u ∧ u.grp.mxHead tile = some d ∧ d.waitHost = some page)) ∧
    (c.kind = .zero → t.grp.mxRuns = true →
      ∃ u : State, exec .mzeroPerform s = .next u ∧ u.grp.mxq.length < t.grp.mxq.length ∧
        (t.grp.mxCount tile = 1 → (u.grp.tile tile).data = Vector.replicate 128 (Vector.replicate 128 0)))) ∧
  (∀ (s t : State) (uid : Nat) (f : EX), s.ev = .group uid → s.focus uid = some t → t.grp.status = .waiting (.matrix f) →
    (∀ i ∈ t.grp.waitedTiles f, (t.grp.tile i).cause = 0 ∧ t.grp.mxCount i = 0) →
    ∃ u : State, exec .mwaitDone s = .next (u.retire 1) ∧ u.mem = t.mem)

/-! ### Helpers (13_helpers.md), regions (14_harvest_regions.md), system (15_system_and_traps.md) -/

/-- R241, R243, R245, R247, R249, R250: the helper instructions and events, those that release for a group with no waiting release
store (R161): RCRT grants helpers or gives its code; HNEXT claims the next chunk or none; HRD reads a lent register; HEND ends the
helper with its chunk complete; HREL sets the release flag; HJOIN waits for the helpers and joins; a granted helper starts; and a
helper that has held its chunk too long takes WDPROG. -/
def Obligations.HelpersComplete : Prop :=
  (∀ (s : State) (f : EX) (h : Header) (n : Nat), f.okRcrt = true → s.grp.scalOk f.d = true → s.grp.scalOk f.a = true →
    s.grp.lentOk f = true → s.grp.recruit = none → s.grp.liveIn f.d = false →
    s.check (s.grp.pc + 8 * f.imm.signExtend 64) = .ok h → h.flagH = true → n = (s.grp.rs f.a).toNat → n ≤ 24576 →
    (n = 0 → exec (.rcrt f) s = .next (s.after 1 (fun g => g.ws f.d 0))) ∧
    (n ≠ 0 → s.recruitCode ≠ 0 → exec (.rcrt f) s = .next (s.after 1 (fun g => g.ws f.d (BitVec.ofNat 32 s.recruitCode)))) ∧
    (n ≠ 0 → s.recruitCode = 0 → s.grp.relq = [] →
      ∃ (t : State) (k : Nat) (r : Recruit), exec (.rcrt f) s = .next (t.retire 1) ∧ 1 ≤ k ∧
        k ≤ min 16 (min ((n + 95) / 96) (s.quotaLeft s.grp.id.band)) ∧
        t.grp = { s.grp.ws f.d (BitVec.ofNat 32 (k * 2 ^ 8 + (n + 95) / 96 * 2 ^ 16)) with recruit := some r } ∧
        r.iters = n ∧ r.granted = k ∧ r.next = 0 ∧ r.done = 0 ∧ r.release = false ∧
        ∃ hs : List Group, t.others = s.others ++ hs ∧ hs.length = k ∧ ∀ g ∈ hs, g.helps s.grp.id.uid = true ∧
          g.status = .granted)) ∧
  (∀ (s : State) (f : EX) (u : Nat) (r : Recruit), s.grp.scalOk f.d = true → s.grp.mayClaim = true →
    s.grp.liveIn f.d = false → s.recruitOf = some (u, r) →
    (f.okHelper true 0 0 = true → f.d.toNat < 61 →
      (r.release = false → r.next < (r.iters + 95) / 96 →
        ∃ t : State, exec (.hnext f) s = .next (t.retire 1) ∧ (f.d ≠ 0 → t.grp.rs f.d = BitVec.ofNat 32 (96 * r.next)) ∧
          (∀ l, l < 96 → (t.grp.raw 0).getLsbD l =
            (decide (l < min 96 (r.iters - 96 * r.next)) && s.grp.live.getLsbD l)) ∧
          t.recruitOf.map (fun x => x.2.next) = some (r.next + 1)) ∧
      (r.release = true ∨ (r.iters + 95) / 96 ≤ r.next →
        ∃ t : State, exec (.hnext f) s = .next (t.retire 1) ∧ (f.d ≠ 0 → t.grp.rs f.d = 0xFFFFFFFF) ∧ t.grp.raw 0 = 0)) ∧
    (f.okHelper true 22 0 = true → (∀ g, s.group? u = some g → s.asleep g = false) →
      exec (.hrd f) s = .next (s.after 1 (fun g => g.ws f.d
        (if f.imm.toNat < 8 then r.lentVec[f.imm.toNat]?.getD 0 else r.lentScal[f.imm.toNat - 7]?.getD 0))))) ∧
  (∀ (s : State) (f : EX) (h : Helper), f.okHelper false 0 0 = true → s.grp.helper = some h → h.recruiter ≠ s.grp.id.uid → s.grp.relq = [] →
    ∃ t : State, exec (.hend f) s = .next t ∧ t.grp.status = .exited ∧
      ∀ g r, s.group? h.recruiter = some g → g.recruit = some r →
        ∃ g' r', t.group? h.recruiter = some g' ∧ g'.recruit = some r' ∧ r'.fpsr = r.fpsr ||| s.grp.fpsr ∧
          ∀ c, h.chunk = some c → c < 256 → r'.done.getLsbD c = true) ∧
  (∀ (s : State) (f : EX), s.grp.helper = none →
    (f.okHelper false 0 0 = true → ∃ t : State, exec (.hrel f) s = .next (t.retire 1) ∧
      t.grp = { s.grp with recruit := s.grp.recruit.map (fun r => { r with release := true }) }) ∧
    (f.okHelper false 0 7 = true →
      (s.grp.recruit = none → exec (.hjoin f) s = .next (s.after 1 (fun g =>
        { g with view := g.view.setIfInBounds f.w.toNat 0 }))) ∧
      (∀ r, s.grp.recruit = some r → s.joinReady = false → exec (.hjoin f) s = .next (s.waitFor (.join f.w))) ∧
      (∀ r, s.grp.recruit = some r → s.joinReady = true → r.faults = [] →
        ∃ t : State, exec (.hjoin f) s = .next (t.retire 1) ∧ t.grp = { s.grp with
          fpsr := s.grp.fpsr ||| r.fpsr, recruit := none,
          view := s.grp.view.setIfInBounds f.w.toNat (r.complete r.selfClaim).done }))) ∧
  (∀ (s t : State) (uid : Nat), s.ev = .group uid → s.focus uid = some t →
    (t.grp.status = .granted → t.helperFits t.grp = true →
      ∃ u : State, exec .helperStart s = .next u ∧ u.grp.status = .ready ∧ u.grp.pc = t.grp.pc ∧ u.mem = t.mem) ∧
    (∀ w r, t.grp.status = .waiting (.join w) → t.joinReady = true → t.grp.recruit = some r → r.faults = [] →
      ∃ u : State, exec .hjoinComplete s = .next (u.retire 1) ∧ u.grp.recruit = none ∧ u.mem = t.mem) ∧
    (∀ h, t.grp.helper = some h → h.chunk.isSome = true → t.grp.resident = true → t.grp.status ≠ .parked →
      16384 < t.grp.ccnt - h.claimedAt → exec .chunkWatchdogExpiry s = .next (t.takeTrap { cause := .wdprog })))

/-- R253 to R261, R263, R265, R268 to R270: RGN.OPEN records the live-in set and the marker; RGN.CLOSE and its publication end
the region, with the sources written and, where it repeats, control at the marker; RGN.ABORT restarts the region from its
marker; a harvest group is evicted, spilled and reloaded. -/
def Obligations.RegionsComplete : Prop :=
  (∀ (s : State) (f : EX), f.okRgnOpen = true → s.firstInG = true → s.grp.mayOpen f = true →
    (s.bufferFree = false → exec (.rgnOpen f) s = .next (s.waitFor (.regionBuffer f))) ∧
    (s.bufferFree = true → s.grp.tilesBusy f.w = false →
      ∃ r : Region, exec (.rgnOpen f) s = .next (s.after 1 (fun g => { g with region := some r, reopens := false })) ∧
        s.grp.opens f r) ∧
    (s.bufferFree = true → s.grp.tilesBusy f.w = true → exec (.rgnOpen f) s = .next (s.waitFor (.regionTiles f)))) ∧
  (∀ (s t : State) (uid : Nat) (f : EX), s.ev = .group uid → s.focus uid = some t → t.grp.status = .waiting (.regionBuffer f) →
    t.bufferFree = true → t.grp.tilesBusy f.w = false →
    ∃ r : Region, exec .rgnOpenBufferGrant s = .next (t.after 1 (fun g => { g with region := some r, reopens := false })) ∧
      t.grp.opens f r) ∧
  (∀ (s : State) (f : EX) (r : Region), f.okRgnClose = true → s.grp.region = some r → s.grp.mxq = [] →
    s.grp.relq = [] → ∃ (t : State) (sent : List Host.Cell), exec (.rgnClose f) s = .next t ∧
      t.grp.status = .waiting (.commit f sent) ∧ sent = (if f.sub = 6 then (s.releaseAt s.grp.coreNo 6).remoteDirty else []) ∧
      (t.unacked sent = false → (f.imm = 0 ∨ s.grp.rs f.b = 0) → ∃ u : State,
        exec .rgnCommitPublish { t with ev := .group s.grp.id.uid } = .next (u.retire 1) ∧ u.grp.region = none ∧
        ∀ i, i < f.c.toNat → f.d.toNat + i ≠ 0 →
          u.grp.rs (BitVec.ofNat 6 (f.d.toNat + i)) = s.grp.rs (BitVec.ofNat 6 (f.a.toNat + i))) ∧
      (t.unacked sent = false → f.imm = 1 → s.grp.rs f.b ≠ 0 → ∃ u : State,
        exec .rgnCommitPublish { t with ev := .group s.grp.id.uid } = .next (u.transfer r.marker) ∧ u.grp.region = none)) ∧
  (∀ (s s1 t : State) (f : EX) (r : Region), f.okHelper false 0 0 = true → s.grp.region = some r →
    s1 = ((s.onGrp Group.countRetired).acquireAt s.grp.coreNo 6).onGrp (fun g => g.discardMx.restart r) →
    s1.enter r.marker false = .ok t →
    exec (.rgnAbort f) s = .next t ∧ t.grp.pc = r.marker + 8 ∧ t.grp.region = none ∧ t.grp.rgnRst = some r.marker ∧ t.mem = s.mem ∧
      t.grp.mxq = [] ∧ ∀ i, r.first ≤ i → i < r.first + r.count → i < 61 → i ≠ 0 →
        t.grp.rs (BitVec.ofNat 6 i) = r.svals[i - r.first]?.getD 0) ∧
  (∀ (s t : State) (uid : Nat) (w : BitVec 4), s.ev = .evict uid w → s.focus uid = some t → t.grp.victim = true →
    t.evictionDue t.grp = true →
    ∃ (u : State) (r p : Bool), exec .harvestEviction s = .next u ∧ u.grp.status = .evicted r false p ∧ u.grp.bankIds = []) ∧
  (∀ (s t : State) (uid : Nat) (r p : Bool), s.ev = .group uid → s.focus uid = some t →
    (t.grp.status = .evicted r false p → t.grp.relq = [] → t.remoteDirty = [] →
      exec .spillComplete s = .next (t.spilled r p) ∧ (t.spilled r p).grp.status = .evicted r true p ∧
        (t.spilled r p).mem = t.mem) ∧
    (∀ l, t.grp.status = .evicted r true p → t.reloadSlice = some l → t.ctxHeld = false →
      (t.slotChanged = false → ∃ u : State, exec .harvestReload s = .next u ∧
        (r = false → u.grp.status = (if p then .parked else .ready) ∧ u.grp.pc = t.grp.pc ∧ u.grp.sreg = t.grp.sreg)) ∧
      (t.slotChanged = true → ∃ u : State, exec .harvestReload s = .next (u.killContext t.grp.id.ctx))))

/-- R271, R291, R294, R295, R335: RDS reads a special register, WRS writes one that can be written (FPSR: the bits written are
cleared), PCNT gives a counter, counter 0 the instructions retired and counters 4 to 15 those of the tenant, which are 0 where
they are not enabled, DTIME device time in the tenant's offset, and SIGS saves the group with its resume entry. -/
def Obligations.SystemInstructionsComplete : Prop :=
  ∀ (s : State) (f : SR),
    (f.okRds = true → isPairSpecial f.imm.toNat = false → s.grp.scalOk f.d = true → s.grp.liveIn f.d = false →
      exec (.rds f) s = .next (s.after 1 (fun g => g.ws f.d (s.special f.imm.toNat)))) ∧
    (f.okRds = true → isPairSpecial f.imm.toNat = true → s.grp.pairOk f.d = true → s.grp.liveInPair f.d = false →
      exec (.rds f) s = .next (s.after 1 (fun g => g.wp f.d (g.specialPair f.imm.toNat)))) ∧
    (f.okWrs = true → (if isPairSpecial f.imm.toNat then s.grp.pairOk f.a else s.grp.scalOk f.a) = true →
      specialOk f.imm.toNat (s.grp.rs f.a) = true →
      ∃ t : State, exec (.wrs f) s = .next (t.retire 1) ∧ t.mem = s.mem ∧ t.grp.sreg = s.grp.sreg ∧
        (f.imm = 0x0D → t.grp.fpcr = s.grp.rs f.a &&& 0x00000FF3) ∧ (f.imm = 0x13 → t.grp.trapa = s.grp.rp f.a) ∧
        (f.imm = 0x0E → t.grp.fpsr = s.grp.fpsr &&& ~~~(s.grp.rs f.a)) ∧
        (f.imm = 0x0F → t.grp.mdef = s.grp.rs f.a) ∧ (f.imm = 0x10 → t.grp.trapv = s.grp.rp f.a) ∧
        (f.imm = 0x12 → t.grp.trappc = s.grp.rp f.a) ∧ (f.imm = 0x14 → t.grp.wdcfg = s.grp.rs f.a)) ∧
    (f.okPcnt = true → s.grp.pairOk f.d = true → s.grp.liveInPair f.d = false →
      ∃ (t : State) (x : DWord), exec (.pcnt f) s = .next (t.retire 1) ∧ t.grp = s.grp.wp f.d x ∧ t.mem = s.mem ∧
        (f.imm = 0 → x = BitVec.ofNat 64 s.grp.retired) ∧ (f.imm = 1 → x = BitVec.ofNat 64 s.grp.readyCc) ∧
        (f.imm = 2 → x = BitVec.ofNat 64 s.grp.l1Misses) ∧ (f.imm = 3 → x = BitVec.ofNat 64 s.grp.movedBytes) ∧
        (4 ≤ f.imm.toNat → (s.regs.tcen.getLsbD s.grp.id.fn = false → x = 0) ∧
          (s.regs.tcen.getLsbD s.grp.id.fn = true → ∀ (sel : Byte) (w : Vector DWord 12),
            s.regs.tcsel[f.imm.toNat - 4]? = some sel → 1 ≤ sel.toNat → sel.toNat ≤ 12 →
            s.regs.tcount[s.grp.id.fn]? = some w → w[f.imm.toNat - 4]? = some x))) ∧
    (f.okDtime = true → s.grp.pairOk f.d = true → s.grp.liveInPair f.d = false →
      exec (.dtime f) s = .next (s.after 1 (fun g => g.wp f.d
        (BitVec.ofNat 64 (s.time + (s.regs.toffs[s.grp.id.fn]?.getD 0).toNat))))) ∧
    (∀ e, f.okSigs = true → s.grp.helper = none → s.grp.inRegion = false → s.grp.mayAnswer = true →
      e = (if f.a = 0 then s.grp.trappc else s.grp.rp f.a) →
      (f.a = 0 ∧ e = s.grp.trappcRec ∨ ∃ h, s.check e = .ok h) → s.grp.relq = [] →
      (s.releaseAt s.grp.coreNo 6).remoteDirty = [] → s.remoteOpen = false →
      ∃ t : State, exec (.sigs f) s = .next t ∧ t.grp.status = .saved false false ∧ t.grp.pc = e ∧ t.grp.hnd = false ∧
        t.grp.sreg = s.grp.sreg)

/-- R274 to R277: a trap that the group's handler takes while HND is 0, where the handler's header carries T, saves the faulting
PC, the cause, ARG and HND, and the address where the trap has one, and goes on at the first word of the handler's block,
every scalar and every byte of memory as it was; a trap that is not delivered parks the group. R292, R293: TRAP and BRK take
their traps at the word that follows; ERET, with TRAPPC as the delivery left it inside its block, clears HND and goes on at
TRAPPC. -/
def Obligations.TrapsAreTakenAndReturnedFrom : Prop :=
  ((∀ (s : State) (t : Trap) (h : Header), s.grp.hnd = false → s.routed t.cause = true → s.check s.grp.trapv = .ok h →
    h.flagT = true → h.ok = true → h.flagG = false →
    (s.takeTrap t).grp.trappc = t.pc.getD s.grp.pc ∧
    (s.takeTrap t).grp.trapc = BitVec.ofNat 32 (2 ^ 31 + t.arg % 256 * 2 ^ 16 + t.cause.code) ∧
    (s.takeTrap t).grp.trapa = t.trapa.getD s.grp.trapa ∧ (s.takeTrap t).grp.pc = s.grp.trapv + 8 ∧
    (s.takeTrap t).grp.blockHdr = s.grp.trapv ∧ (s.takeTrap t).grp.blockEnd = blockEndOf s.grp.trapv h ∧
    (s.takeTrap t).grp.status = .ready ∧ (s.takeTrap t).grp.sreg = s.grp.sreg ∧ (s.takeTrap t).mem = s.mem) ∧
  (∀ (s : State) (t : Trap), s.grp.hnd = true ∨ s.routed t.cause = false ∨ s.handlerOk = false →
    (s.takeTrap t).grp.status = .parked ∧ (s.takeTrap t).grp.trappc = t.pc.getD s.grp.pc ∧
    (s.takeTrap t).grp.trapc.toNat % 256 = t.cause.code ∧ (s.takeTrap t).grp.trapc.getLsbD 30 = s.grp.hnd ∧
    (s.takeTrap t).grp.sreg = s.grp.sreg)) ∧
  ((∀ (s : State) (f : SR), f.okTrap = true → s.grp.pc + 8 ≠ s.grp.blockEnd →
    exec (.trap f) s = .next ((s.onGrp (fun g => { g with
      pc := g.pc + 8, retired := g.retired + 1, progress := g.progress + 1, status := .ready })).takeTrap
        { cause := .swtrap, arg := f.imm.toNat }) ∧
    exec (.brk f) s = .next ((s.onGrp (fun g => { g with
      pc := g.pc + 8, retired := g.retired + 1, progress := g.progress + 1, status := .ready })).takeTrap
        { cause := .brkpt, arg := f.imm.toNat })) ∧
  (∀ (s : State) (f : SR), f.allZero = true → s.grp.helper = none → s.grp.hnd = true → s.grp.trappc = s.grp.trappcRec →
    s.grp.trappc ≠ s.grp.trapHdr → s.grp.preempt = .none →
    exec (.eret f) s = .next (s.onGrp (fun g => { g with
      pc := g.trappc, blockHdr := g.trapHdr, blockEnd := g.trapBlockEnd, trapc := g.trapc &&& 0x7FFFFFFF,
      retired := g.retired + 1, progress := g.progress + 1, status := .ready }))))

/-- R27, R97, R178, R179, R281, R283, R289: the watchdogs, the issue fairness, the sweep of a bank and machine checks. A barrier
breaks once (R178). That the kill which follows waits until the barrier's records are written (log entry 30), and that a FATAL
leaves memory as it is, its reset coming in a later turn after the records (log entry 39), are the model's readings. -/
def Obligations.WatchdogsAndChecks : Prop :=
  (∀ (s : State) (u inst bar waited limit : Nat) (band : Band) (b : Barrier), s.ev = .barrier u inst bar →
    s.band? u = some band → s.barAt u inst bar = some b → s.barClock b = some (waited, limit) → limit ≤ waited →
    s.memberAway u inst bar = false → s.killIsDue band.ctx = false →
    ∃ t v : State, t = s.faultRecord band.ctx (s.barrierRecord band inst bar b waited) ∧
      v = (t.trapAll { cause := .bartmo } ((t.groups.filter (fun g => g.waitsOn u inst bar)).map (fun g => g.id.uid))).onBarrier u
        inst bar (fun x => { x with first := none }) ∧
      ((∀ r ∈ v.records, r.1 ≠ band.ctx) → exec .barrierWatchdogExpiry s = .next (v.killContext band.ctx)) ∧
      ((∃ r ∈ v.records, r.1 = band.ctx) → exec .barrierWatchdogExpiry s = .next { v with
        ctxs := v.ctxs.map (fun c => if c.num = band.ctx then { c with killDue := true } else c) })) ∧
  (∀ (s t : State) (uid : Nat), s.ev = .group uid → s.focus uid = some t → t.grp.status = .ready →
    (2 ^ (t.grp.wdcfg.extractLsb' 8 8).toNat < t.grp.progress →
      exec .progressWatchdogExpiry s = .next ((t.takeTrap { cause := .wdprog }).killIfDue .wdprog)) ∧
    (t.grp.raised = false → 64 ≤ t.grp.unchosen →
      exec .issueFairnessRaise s = .next (t.onGrp (fun g => { g with raised := true })))) ∧
  (∀ (s : State) (slice bank : Nat), s.unswept.contains (slice, bank) = true → s.sweepDue slice bank = true →
    (s.ev = .bank slice bank true →
      exec .bankSweep s = .next { s with
        unswept := s.unswept.filter (fun b => b ≠ (slice, bank)), waking := s.waking.filter (fun b => b ≠ (slice, bank)) }) ∧
    (s.ev = .bank slice bank false →
      (∀ g, s.bankOwner slice bank = some g →
        ∃ t : State, exec .bankSweep s = .next (t.killContext g.id.ctx)) ∧
      (s.bankOwner slice bank = none →
        ∃ (t : State) (r : List Byte), exec .bankSweep s = .next t ∧ t.outbox = .errorLog 0 r :: s.outbox ∧ t.grp = s.grp ∧
          t.regs.corrected = s.regs.corrected + 1))) ∧
  (∀ (s : State) (unit : Nat) (die cluster core slice : Byte) (loc synd : DWord),
    (∀ ctx, s.ev = .check unit (some ctx) die cluster core slice loc synd →
      ∃ t : State, exec .machineCheck s = .next (t.killContext ctx)) ∧
    (s.ev = .check unit none die cluster core slice loc synd →
      ∃ t : State, exec .machineCheck s = .next t ∧ t.outbox.head? = some .fatal ∧ t.regs.fatalDue = true ∧ t.mem = s.mem))

/-! ### Bands, contexts and PARKCTL (15_system_and_traps.md, 16_launch_and_scheduling.md) -/

/-- R22, R164, R217, R279, R284 to R287, R313, R316: a band is placed whole and retires when its groups, their matrix commands and
its copies have ended; a context's slice ends, its deadline runs out, it is saved and resumed; a checkpoint is triggered and its bundle starts. What a resume and a
start read of HOST pages goes out as reads of the host first (R349). Three clauses rest on
choices of the model and on no rule: the deadline by the largest DRAIN of the context's queues (log entry 43), the assignment of
cores that harvest groups still hold (log entry 76), and the kill of a context whose save area cannot be read back (log entry
16). -/
def Obligations.BandsAndContexts : Prop :=
  (∀ (s t : State) (u cl : Nat) (cores slices : List Nat) (f : Field) (c : Context), s.ev = .place u cl cores slices →
    s.fields.find? (fun f => f.uid = u) = some f → s.ctx? f.ctx = some c → s.mayPlace f c = true →
    s.servedLater (s.fieldQueue f) = false → s.reportGap u = none →
    (s.placeBands f c (if f.resident then f.nband else 1) f.nextBand cores slices = some t →
      ∃ v : State, exec .bandPlace s = .next v ∧
        v.bands.length = s.bands.length + (if f.resident then f.nband else 1)) ∧
    (s.placeBands f c (if f.resident then f.nband else 1) f.nextBand cores slices = none →
      s.assignBands f c cores slices = some t → exec .bandPlace s = .next (t.dropFailed (s.reportWho u)))) ∧
  (∀ (s : State) (u : Nat) (b : Band), s.ev = .band u → s.band? u = some b →
    (∀ g ∈ s.groups, g.id.band = u → g.status = .exited ∧ g.mxq = []) →
    (∀ c ∈ s.copies, c.group.isSome = true → c.band ≠ u) → s.reportGap b.field = none →
    (s.releaseBand b).remoteDirty = [] →
    ∃ t : State, exec .bandRetire s = .next t ∧ t.band? u = none ∧ ∀ g ∈ t.others, g.id.band ≠ u) ∧
  (∀ (s : State) (n : Nat) (c : Context), s.ev = .ctx n → s.ctx? n = some c → c.isSaved = false → c.killed = false →
    (0 < c.slice → c.sliceStart + c.slice ≤ s.time → c.tier = 0 → s.othersWait n = true →
      ∃ (t : State) (d : Context), exec .tenantSliceEnd s = .next t ∧ t.ctx? n = some d ∧ d.tier = 2 ∧
        d.deadline = s.time + s.drainOf n) ∧
    (c.tier = 2 → c.deadline < s.time → (s.ctxBands c ≠ [] ∨ ∃ x ∈ s.copies, x.ctx = n) →
      exec .deadlineOverrun s = .next (s.overrun c)) ∧
    (c.tier = 0 → c.ckPaused = true → c.ckBundle = none → c.ckSince + s.drainOf n < s.time → s.ctxRuns c = true →
      exec .deadlineOverrun s = .next (s.overrun c)) ∧
    (s.hostGap c.who .write c.save (s.saveRecords n).length = none →
      (c.tier = 2 → s.ctxBands c = [] → (∀ x ∈ s.copies, x.ctx ≠ n) → s.remoteDirty = [] →
        ∃ (t : State) (d : Context), exec .contextSave s = .next t ∧ t.ctx? n = some d ∧ d.isSaved = true) ∧
      (c.tier = 3 → (∀ g ∈ s.groups, (∃ b ∈ s.ctxBands c, b.uid = g.id.band) → s.maySave g = true) →
        (∀ x ∈ s.copies, x.ctx = n → x.suspended = true) →
        ((s.ctxBands c).foldl State.releaseBand (s.saveParked ((s.ctxBands c).map (·.uid)))).remoteDirty = [] →
        ∃ (t : State) (d : Context), exec .contextSave s = .next t ∧ t.ctx? n = some d ∧ d.isSaved = true)) ∧
    (0 < c.ckval → (c.ckmode = 1 ∧ c.ckLast + c.ckval ≤ s.time ∨ c.ckmode = 2 ∧ c.ckval ≤ c.ckCount) → c.paused = false →
      s.sliceDue c = false →
      ∃ (t : State) (d : Context), exec .checkpointTrigger s = .next t ∧ t.ctx? n = some d ∧ d.ckPaused = true ∧
        d.ckSince = s.time ∧ d.ckCount = 0)) ∧
  (∀ (s : State) (n : Nat) (g : Group) (since : Nat), s.ev = .ctx n → g ∈ s.groups → g.id.ctx = n → g.status ≠ .exited →
    (g.preempt = .due since ∨ g.preempt = .delivered since) → since + 100000 < s.time →
    exec .preemptHandlerTimeout s = .next (s.killContext n).moveQueues) ∧
  (∀ (s : State) (n : Nat) (c : Context) (cls : List Nat), s.ev = .resume n cls → s.ctx? n = some c → c.isSaved = true →
    c.killed = false → c.ckPaused = false → (c.wrote = true → s.hostGap c.who .read c.save (s.recordLength n) = none) →
    ∀ u : State, u = s.asksFront c.who (if c.wrote then [(c.save, s.recordLength n)] else []) →
    (u.restoreRecords c = none → exec .contextResume s =
      .next (((u.setCtx { c with isSaved := false }).killContext n).moveQueues.dropFailed c.who)) ∧
    (∀ r t, u.restoreRecords c = some r → r.resumeBands c (r.ctxBands c) cls = some t →
      ∃ v : State, exec .contextResume s = .next v ∧ ∀ x ∈ v.copies, x.ctx = n → x.suspended = false)) ∧
  (∀ (s : State) (u i : Nat) (b : Bundle) (q : Queue) (c : Context), s.ev = .bundle u i → s.bundle? u = some b →
    s.queueOfBundle b = some q → s.ctx? q.ctx = some c → q.ckq = true → s.startable b = true → s.drained c = true →
    s.firstGap (s.queueWho q) (s.startReach (s.queueWho q) b) = none →
    exec .checkpointBundleStart s = .next
      (((s.asksFront (s.queueWho q) (readRuns (s.startReach (s.queueWho q) b))).startBundle q b).dropFailed (s.queueWho q)))

/-- R279, R280: PARKCTL of a part that is up (R363), while GO reads 0 and the function owns the context, carries out its action on what PKTGT and PKCMD
name and ends with OK; where they name nothing it ends with NOGROUP, and a resume of a group that is not parked with
NOTPARKED. -/
def Obligations.ParkctlActs : Prop :=
  ∀ (s : State) (fn : Nat) (v : DWord) (t : ParkTarget), s.ev = .fnReg fn v → s.isUp = true → v.getLsbD 63 = true → fn < 64 →
    (s.fnRegs fn).pkcmd.getLsbD 63 = false → t = parkTarget (s.fnRegs fn).pktgt v →
    (fn = 0 ∨ ∃ c, s.ctxNow t.ctx = some c ∧ s.ownsPasid fn c.pasid = true) →
    (fld v 60 3 = 0 → ∀ g, s.parkGroup t = some g →
      (g.status = .parked → exec .parkctlResumeInstruction s =
        .next ((s.asGroup g.id.uid State.resumeInstruction).endPark fn v 0)) ∧
      (g.status ≠ .parked → exec .parkctlResumeInstruction s = .next (s.endPark fn v 3))) ∧
    (fld v 60 3 = 1 → ∀ g, s.parkGroup t = some g → g.status = .parked →
      (g.trapc.getLsbD 30 = false → exec .parkctlResumeHandler s =
        .next ((s.asGroup g.id.uid State.resumeHandler).endPark fn v 0)) ∧
      (g.trapc.getLsbD 30 = true → exec .parkctlResumeHandler s = .next (s.endPark fn v 5))) ∧
    (fld v 60 3 = 2 →
      (∀ g, s.parkGroup t = some g →
        exec .parkctlKillGroup s = .next ((s.endGroup g.id.uid true).endPark fn v 0)) ∧
      (s.parkGroup t = none → exec .parkctlKillGroup s = .next (s.endPark fn v 4))) ∧
    (fld v 60 3 = 3 → ∀ b, s.parkTeam t = some b →
      exec .parkctlKillTeam s = .next ((s.killTeam b.uid t.inst).endPark fn v 0)) ∧
    (fld v 60 3 = 4 → ∀ b, s.parkBand t = some b →
      exec .parkctlKillBand s = .next ((s.killBand b.uid).endPark fn v 0)) ∧
    (fld v 60 3 = 5 → ∀ c, s.ctx? t.ctx = some c →
      exec .parkctlKillContext s = .next ((s.killContext t.ctx).moveQueues.endPark fn v 0))

/-! ### The front end (16_launch_and_scheduling.md) -/

/-- R298, R302, R303, R306, R307, R309: a doorbell moves its queue's write index, puts a queue that it overruns into ERROR, or is
dropped and counted where its slot is unbound; a bundle is read into the front end, or a queue whose QCB has been replaced is read
again first; a wait is polled; a bundle that comes next in the order of service starts, or ends with the verdict of its checks; an
AFTER signal is performed, unless a sub-launch was cut short; and a bundle that is over retires. What the front end reads of HOST
pages goes out as reads of the host first (R349). That a ring slot which cannot be read puts the queue into ERROR (log entry 25),
the re-read of a replaced QCB (log entry 69), and that an AFTER signal is skipped also where a sub-launch was cut short, not only
where a band was killed (log entry 42), are the model's choices and readings, which R300, R303 and R306 do not state. -/
def Obligations.BundlesRun : Prop :=
  (∀ (s : State) (fn slot : Nat) (value : DWord), s.ev = .doorbell fn slot value → s.isUp = true →
    ((s.fnRegs fn).bells.find? (fun b => b.slot = slot) = none → exec .doorbellWrite s = .next (s.onFn fn (fun r =>
      { r with dberr := if r.dberr = 0xFFFFFFFF then r.dberr else r.dberr + 1 }))) ∧
    (∀ b : Bell, (s.fnRegs fn).bells.find? (fun b => b.slot = slot) = some b →
      (s.queueBusy b.pasid b.queue = true → exec .doorbellWrite s = .next s) ∧
      (∀ t, s.queueBusy b.pasid b.queue = false → s.useQueue b.pasid b.queue = (none, t) → exec .doorbellWrite s = .next t) ∧
      (∀ (i : Nat) (t : State) (q : Queue) (w : Nat), s.queueBusy b.pasid b.queue = false →
        s.useQueue b.pasid b.queue = (some i, t) → t.queues[i]? = some q → q.state ≠ .destroying → q.state ≠ .destroyed →
        w = fld value 0 32 →
        ∃ (u : State) (r : Queue), exec .doorbellWrite s = .next u ∧ u.queues[i]? = some r ∧ r.rdidx = q.rdidx ∧
          (idxSub w q.wridx = 0 ∨ 2 ^ 31 ≤ idxSub w q.wridx → r = q) ∧
          (idxSub w q.wridx ≠ 0 → idxSub w q.wridx < 2 ^ 31 → idxSub w q.rdidx ≤ 2 ^ q.log2sz → r.wridx = w) ∧
          (idxSub w q.wridx ≠ 0 → idxSub w q.wridx < 2 ^ 31 → 2 ^ q.log2sz < idxSub w q.rdidx →
            r.wridx = q.wridx ∧ r.state = .error)))) ∧
  (∀ (s : State) (i : Nat) (q : Queue), s.ev = .queue i → s.queues[i]? = some q →
    (q.cached = false → s.mayRead i q = true →
      (∀ j t, s.walkAndRead q.pasid q.num = (some j, t) → exec .bundleRead s = .next t) ∧
      (∀ t, s.walkAndRead q.pasid q.num = (none, t) → exec .bundleRead s = .next (t.queueError i))) ∧
    (q.cached = true → s.mayRead i q = true → s.bundleGap q = none →
      (s.ringBytes q (q.slotAddr q.nextRead) 64 = none →
        exec .bundleRead s = .next ((s.queueError i).dropFailed q.ringWho)) ∧
      (∀ (v : State) (h rs : List Byte) (n : Nat), v = s.asksFront q.ringWho (s.bundleRuns q) →
        v.ringBytes q (q.slotAddr q.nextRead) 64 = some h → n = (if natAt h 0 1 = 1 then min 4 (natAt h 2 1) else 0) →
        v.ringBytes q (q.slotAddr q.nextRead + 64) (64 * n) = some rs →
        ∃ (t : State) (b : Bundle) (r : Queue), exec .bundleRead s = .next t ∧ t.bundles = s.bundles ++ [b] ∧ b.queue = i ∧
          b.ridx = q.nextRead ∧ b.started = false ∧ b.subs.length = n ∧ t.queues[i]? = some r ∧
          r.nextRead = (q.nextRead + 1) % 2 ^ 32 ∧
          b.early = (if headerOk h then (badRecord (b.subs.map (·.bytes))).map (fun k => (3, 0, k)) else some (3, 0, 0xFF))))) ∧
  (∀ (s : State) (u k : Nat) (b : Bundle) (w : WaitCond) (q : Queue), s.ev = .bundle u k →
    s.bundle? u = some b → b.waits[k]? = some w → s.queueOfBundle b = some q → b.started = false → b.early = none →
    w.held = false → s.mayDispatch q = true → s.hostGap (s.queueWho q) .read w.addr 4 = none →
    ∀ v : State, v = s.asksFront (s.queueWho q) [(w.addr, 4)] →
    ∃ (t : State) (c : Bundle), exec .waitConditionPoll s = .next t ∧ t.bundle? u = some c ∧ c.started = false ∧
      (∀ bs, v.readVirt (s.queueWho q) w.addr 4 = .ok bs → c.early = none ∧
        c.waits = (if waitCond (BitVec.ofNat 3 w.cond) (BitVec.ofNat 32 (bytesNat bs)) w.value = true
          then b.waits.set k { w with held := true } else b.waits)) ∧
      (∀ e, v.readVirt (s.queueWho q) w.addr 4 = .error e → c.early = some (1, e, 0xFF) ∧ c.waits = b.waits)) ∧
  (∀ (s : State) (u i : Nat) (b : Bundle) (q : Queue), s.ev = .bundle u i → s.bundle? u = some b →
    s.queueOfBundle b = some q →
    (∀ v : State, v = (s.asksFront (s.queueWho q) (readRuns (s.startReach (s.queueWho q) b))).serve b.queue → s.startable b = true → q.ckq = false → s.servedLater b.queue = false →
      s.firstGap (s.queueWho q) (s.startReach (s.queueWho q) b) = none →
      ∃ (t : State) (c : Bundle), exec .bundleStart s = .next t ∧ t.bundle? u = some c ∧
        (∀ e, v.startChecks (v.queueWho q) q.cls (((v.ctx? q.ctx).map (·.bslots)).getD 0) b = .error e →
          c.early = some e ∧ c.started = false) ∧
        (∀ ks, v.startChecks (v.queueWho q) q.cls (((v.ctx? q.ctx).map (·.bslots)).getD 0) b = .ok ks → c.started = true)) ∧
    (∀ x, b.subs[i]? = some x → x.after = true → x.retired = false → s.afterDue b i = true →
      (∀ a n, signalTarget x.bytes = some (a, n) → s.hostGap (s.queueWho q) .write a n = none) →
      ∃ (t : State) (c : Bundle) (y : SubLaunch), exec .signalAfter s = .next (t.dropFailed (s.queueWho q)) ∧
        t = (if s.afterRuns b then s.signal q b i x.bytes else s).onSub u i (fun y => { y with retired := true }) ∧
        t.bundle? u = some c ∧ c.subs[i]? = some y ∧ y.retired = true) ∧
    (s.bundleOver b = true → (∀ f ∈ s.fields, f.bundle = u → s.reportGap f.uid = none) →
      (b.crec ≠ 0 → s.hostGap (s.queueWho q) .write b.crec 32 = none) →
      ∃ t : State, exec .bundleRetire s = .next t ∧ t.bundle? u = none))

/-- R297, R317: an operation of QCTL of a part that is up (R363), while GO reads 0, the function owns the PASID and no DESTROY of the queue is under way:
INVAL reads the queue again, DBMAP binds the slot, DBUNMAP frees it, and DESTROY stops the queue and keeps GO at 1 until
DESTROY_COMPLETE, or ends with NOQUEUE. That the level-2 entry that DESTROY writes is the one by which the queue was last read is the
model's choice (log entry 69). -/
def Obligations.QctlActs : Prop :=
  (∀ (s : State) (fn : Nat) (v : DWord), s.ev = .fnReg fn v → s.isUp = true → v.getLsbD 63 = true → fn < 64 →
    (s.fnRegs fn).qctl.getLsbD 63 = false → s.ownsPasid fn (qctlPasid v) = true →
    s.queueBusy (qctlPasid v) (qctlQueue v) = false →
    (fld v 60 3 = 0 → ∀ w t1, s.walkQueue (qctlPasid v) (qctlQueue v) = (some w, t1) →
      exec .qctlInval s = .next ((t1.readQcb (qctlPasid v) (qctlQueue v) w).endQctl fn v 0)) ∧
    (fld v 60 3 = 0 → ∀ i t1, s.walkQueue (qctlPasid v) (qctlQueue v) = (none, t1) →
      s.queueIdx (qctlPasid v) (qctlQueue v) = some i → exec .qctlInval s = .next ((t1.queueError i).endQctl fn v 0)) ∧
    (fld v 60 3 = 1 →
      (∀ i t1, s.knownQueue (qctlPasid v) (qctlQueue v) = (some i, t1) →
        exec .qctlDestroy s = .next ((t1.destroyQueue fn i (v.getLsbD 59)).onFn fn (fun r => { r with qctl := qctlAfter v true 0 }))) ∧
      (∀ t1, s.knownQueue (qctlPasid v) (qctlQueue v) = (none, t1) → exec .qctlDestroy s = .next (t1.endQctl fn v 3))) ∧
    (fld v 60 3 = 2 → ∀ i t1, s.useQueue (qctlPasid v) (qctlQueue v) = (some i, t1) →
      ∃ t : State, exec .qctlDbmap s = .next t ∧ (t.fnRegs fn).qctl.getLsbD 63 = false ∧
        (t.fnRegs fn).bells.find? (fun b => b.slot = qctlSlot v) = some ⟨qctlSlot v, qctlPasid v, qctlQueue v⟩) ∧
    (fld v 60 3 = 3 →
      ∃ t : State, exec .qctlDbunmap s = .next t ∧ (t.fnRegs fn).qctl.getLsbD 63 = false ∧
        (t.fnRegs fn).bells.find? (fun b => b.slot = qctlSlot v) = none)) ∧
  (∀ (s : State) (i : Nat) (q : Queue), s.ev = .queue i → s.queues[i]? = some q → q.state = .destroying →
    (∀ b ∈ s.bundles, b.queue ≠ i) →
    ∃ (t : State) (r : Queue), exec .destroyComplete s = .next t ∧ t.queues[i]? = some r ∧ r.state = .destroyed ∧
      (q.byFn < 64 → (t.fnRegs q.byFn).qctl.getLsbD 63 = false))

/-! ### Translation and tenancy (17_translation_and_tenancy.md), package, host and fabric (18_package_host_fabric.md) -/

/-- R326 to R333, R338, on a part that is up (R363): an invalidation drops the translations that it names and keeps GO at 1 until TLBINV_COMPLETE; OBJCTL
installs and removes records; the host's answers end the waits for a page; clearing the VF enable returns a VF's registers to
reset and drops its contexts, which is the model's presumption (log entry 49), and an answer with no access ends a wait as log
entry 48 chooses: R338 and R326 state neither. An Invalidate Request is answered at once where no store to a HOST page of its
function and PASID is still to be performed, and kept until then where one is; which stores are waited for is the model's choice
(log entry 95). A PRI response later than 100 ms is an Invalid Request (R326). -/
def Obligations.TranslationEventsComplete : Prop :=
  (∀ (s : State) (fn : Nat) (hi : DWord), s.ev = .fnReg fn hi → s.isUp = true → hi.getLsbD 63 = true → fn < 64 →
    (s.fnRegs fn).tlbinvHi.getLsbD 63 = false →
    (fld hi 61 2 = 0 → s.ownsPasid fn (tlbPasid hi) = true →
      ∃ t : State, exec .tlbinvPasid s = .next t ∧ (t.fnRegs fn).tlbinvHi.getLsbD 63 = true ∧
        (∀ e ∈ t.tlb, e.pasid ≠ tlbPasid hi) ∧ ∀ e ∈ t.hostTlb, e.pasid ≠ tlbPasid hi) ∧
    (fld hi 61 2 = 1 → tlbPages hi ≠ 0 → s.ownsPasid fn (tlbPasid hi) = true →
      ∃ t : State, exec .tlbinvRange s = .next t ∧ (t.fnRegs fn).tlbinvHi.getLsbD 63 = true ∧
        ∀ e ∈ t.tlb, e.pasid = tlbPasid hi → ∀ a, a / 2 ^ e.leaf.log2 = e.vpage →
          ¬ (fld (s.fnRegs fn).tlbinvLo 18 39 * 2 ^ 18 ≤ a ∧
            a < fld (s.fnRegs fn).tlbinvLo 18 39 * 2 ^ 18 + tlbPages hi * 2 ^ 18)) ∧
    (fld hi 61 2 = 2 → fn = 0 → tlbFunc hi ≠ 0 →
      ∃ t : State, exec .tlbinvStage2 s = .next t ∧ (t.fnRegs fn).tlbinvHi.getLsbD 63 = true ∧
        (∀ e ∈ t.tlb, e.fn ≠ tlbFunc hi) ∧ ∀ e ∈ t.hostTlb, e.fn ≠ tlbFunc hi)) ∧
  (∀ (s : State) (fn : Nat), s.ev = .fn fn → fn < 64 → (s.fnRegs fn).tlbinvHi.getLsbD 63 = true →
    s.performAll.tlbOpen (s.fnRegs fn).tlbinvHi = false →
    exec .tlbinvComplete s = .next ((s.performAll.dropCovered fn (s.fnRegs fn).tlbinvHi).endTlb fn (s.fnRegs fn).tlbinvHi 0)) ∧
  (∀ (s u : State) (fn pasid n : Nat) (va : DWord), s.ev = .atsInv fn pasid va n → u = (s.dropInvalid fn pasid va n).performAll →
    (u.hostOpen fn pasid = false → exec .atsInvalidateRequest s = .next (u.send (.invalidateDone fn))) ∧
    (u.hostOpen fn pasid = true → exec .atsInvalidateRequest s = .next { u with invs := (fn, pasid) :: u.invs })) ∧
  (∀ (s t : State) (fn : Nat) (v : DWord) (c : Context), s.ev = .fnReg fn v → s.isUp = true → v.getLsbD 63 = true → fn < 64 →
    (s.fnRegs fn).objctl.getLsbD 63 = false → s.objContext (objCtx v) = (some c, t) → t.ownsCtx fn c = true →
    objIndex v < c.objn →
    (∀ x b, fld v 61 2 = 0 → t.hostGap c.who .read (c.objtab + BitVec.ofNat 64 (64 * objIndex v)) 64 = none →
      t.readVirt c.who (c.objtab + BitVec.ofNat 64 (64 * objIndex v)) 64 = .ok b → recordOf b = some (some (.tensor x)) →
      ∃ (u : State) (d : Context), exec .objctlInstall s = .next u ∧ u.ctx? c.num = some d ∧
        d.objs.find? (fun o => o.1 = objIndex v) = some (objIndex v, .tensor x) ∧ (u.fnRegs fn).objctl.getLsbD 63 = false) ∧
    (fld v 61 2 = 1 →
      ∃ (u : State) (d : Context), exec .objctlRemove s = .next u ∧ u.ctx? c.num = some d ∧
        d.objs.find? (fun o => o.1 = objIndex v) = none ∧ (u.fnRegs fn).objctl.getLsbD 63 = false)) ∧
  (∀ (s : State) (id : Nat) (q : AtsReq),
    (s.ats.find? (fun q => decide (q.id = id) && !q.pri && !q.failed) = some q →
      (∀ granted host, s.ev = .ats id granted host → granted.toNat % 4 ≠ 0 →
        exec .atsCompletion s = .next (({ s with
          hostTlb := ⟨q.fn, q.pasid, q.vpage, host.toNat / 4096, granted.getLsbD 0, granted.getLsbD 1⟩ :: s.hostTlb,
          ats := s.ats.filter (fun r => r.id ≠ id) } : State).wakeHost q false).flushRecords) ∧
      (∀ granted host, s.ev = .ats id granted host → granted.toNat % 4 = 0 →
        ∃ t : State, exec .atsCompletion s = .next t ∧
          t.outbox = (if s.pagesOut < 512 then [.priRequest q.id q.fn q.pasid (BitVec.ofNat 64 (q.vpage * 4096))] else []) ++
            s.outbox)) ∧
    (s.ats.find? (fun q => decide (q.id = id) && q.pri && !q.held && !q.failed) = some q →
      (s.ev = .pri id true → s.time ≤ q.since + 100000000 → ∃ t : State, exec .priResponse s = .next t.sendPages ∧
        t.outbox = .atsRequest q.id q.fn q.pasid (BitVec.ofNat 64 (q.vpage * 4096)) :: s.outbox) ∧
      (s.ev = .pri id true → q.since + 100000000 < s.time → exec .priResponse s = .next (s.refusePage q)) ∧
      (s.ev = .pri id false → exec .priResponse s = .next (s.refusePage q)) ∧
      (s.ev = .req id → q.since + 100000000 < s.time → exec .priTimeout s = .next (s.refusePage q)))) ∧
  (∀ (s : State) (fn : Nat), 1 ≤ fn → fn < 64 → s.ev = .vf (some fn) →
    ∃ t : State, exec .vfEnableClear s = .next t ∧ t.fnRegs fn = FnRegs.reset ∧ (∀ c ∈ t.ctxs, c.tenant ≠ fn) ∧
      ∀ e ∈ t.tlb, e.fn ≠ fn) ∧
  (∀ s : State, s.ev = .vf none → ∃ t : State, exec .vfEnableClear s = .next t ∧ t.regs.vfEnable = false) ∧
  (∀ s : State, s.enumerated = true → s.regs.vfEnable = false →
    exec .vfEnableSet s = .next (s.onRegs (fun r => { r with vfEnable := true, vfapInForce := r.vfapsz })))

/-- R252, R335, R337, R346, R347, R351, R356, R363, R366: writes, on a part that is up, of the registers that have an event of
their own. The owner's write takes effect; a write of the PF or the management controller that is not the owner is counted and changes nothing else. -/
def Obligations.RegisterWritesComplete : Prop :=
  (∀ (s : State) (m : Master) (v : DWord), s.ev = .master m v → s.isUp = true →
    (s.owns m = true →
      exec .classcfgWrite s = .next (s.onRegs (fun r => { r with classcfg := classcfgNext r.classcfg (loHalf v) })) ∧
      (s.regs.vfEnable = false → 30 ≤ fld v 0 6 → fld v 0 6 ≤ 46 →
        exec .vfapszWrite s = .next (s.onRegs (fun r => { r with vfapsz := BitVec.ofNat 64 (fld v 0 6) }))) ∧
      (s.regs.vfEnable = true → exec .vfapszWrite s = .next s) ∧
      exec .frtrootWrite s = .next { s with regs := { s.regs with frtroot := v &&& rootMask }, routes := [] } ∧
      exec .finrootWrite s = .next { s with
        regs := { s.regs with finroot := v &&& rootMask }, windows := s.readWindows (v &&& rootMask) }) ∧
    (s.owns m = false → ownerCode m ≠ 0 → ∀ row ∈ [Instr.classcfgWrite, .vfapszWrite, .frtrootWrite, .finrootWrite],
      exec row s = .next (s.onRegs (fun r =>
        { r with ownerr := if r.ownerr = 0xFFFFFFFF then r.ownerr else r.ownerr + 1 })))) ∧
  (∀ old new : Word,
    let a (x : Word) := (x.extractLsb' 0 5).toNat
    let b (x : Word) := (x.extractLsb' 5 6).toNat
    let c (x : Word) := (x.extractLsb' 11 7).toNat
    a (classcfgNext old new) = (if 8 ≤ a new ∧ a new ≤ 16 then a new else a old) ∧
    b (classcfgNext old new) = (if 16 ≤ b new ∧ b new ≤ 32 then b new else b old) ∧
    c (classcfgNext old new) = (if c new ≤ 100 then c new else c old) ∧
    (classcfgNext old new).extractLsb' 18 14 = 0) ∧
  (∀ (s : State) (m : Master) (off size : Nat) (v : DWord), s.ev = .reg m off size v →
    (s.isUp = true → s.owns m = true → size = 4 ∨ size = 8 → 0x240 ≤ off → off < 0x250 → off % size = 0 →
      ∃ t : State, exec .tcselWrite s = .next t ∧ t.mem = s.mem ∧
        ∀ k, k < size → off - 0x240 + k < 12 →
          t.regs.tcsel[off - 0x240 + k]? = some (BitVec.ofNat 8 (if v.toNat / 256 ^ k % 256 < 13 then v.toNat / 256 ^ k else 0)) ∧
          ∀ (n : Nat) (w : Vector DWord 12), t.regs.tcount[n]? = some w → w[off - 0x240 + k]? = some 0) ∧
    (masterFn m < 64 →
      (accessOk off size = false → exec .registerWrite s = .next (s.send (.unsupported (masterFn m)))) ∧
      (s.isUp = true → s.owns m = true → masterFn m = 0 → size = 8 →
        (off = 0x200 → exec .registerWrite s = .next (s.onRegs (fun r => { r with qtroot := v &&& rootMask }))) ∧
        (off = 0x208 → exec .registerWrite s = .next (s.onRegs (fun r => { r with ctxroot := v &&& rootMask }))) ∧
        (off = 0x210 → exec .registerWrite s = .next (s.onRegs (fun r => { r with pasidroot := v &&& rootMask })))))) ∧
  (∀ (s : State) (v lim : DWord),
    (s.ev = .world .fnWorld v lim → exec .worldRegisterWrite s = .next (s.onRegs (fun r => { r with fnWorld := v }))) ∧
    (s.ev = .world .clWorld v lim →
      exec .worldRegisterWrite s = .next (s.onRegs (fun r => { r with clWorld := v.setWidth 48 }))) ∧
    (∀ n valid, s.ev = .world (.secReg n valid) v lim → ∃ t : State, exec .worldRegisterWrite s = .next t ∧
      t.regs.secReg[n.val] = ⟨valid, v &&& 0xFFFFFFFFFFFFF000, lim &&& 0xFFFFFFFFFFFFF000⟩))

/-- R208, R345, R346, R348, R365, on an enumerated part (R363): a posted write is split into requests of its function's stream, each of which is sent and then
performed and acknowledged; a host read is answered once the stream is empty; the host link goes down, and the PF's
function-level reset cancels its copies (R208); in both the PF's ownership lapses. That the PF's copies are the ones cancelled, and
that the registers else stay as they are in both, is the model's reading (log entry 54). -/
def Obligations.HostLinkEventsComplete : Prop :=
  (∀ (s : State) (fn bar : Nat) (off : DWord) (bytes : List Byte), s.ev = .post fn bar off bytes → s.enumerated = true →
    (∀ rs, s.fnThere fn = true → bytes ≠ [] → s.postReqs fn bar off.toNat bytes (s.postsOf fn).count = some rs →
      ∃ t : State, exec .inboundPostedWrite s = .next t ∧ (t.postsOf fn).reqs = (s.postsOf fn).reqs ++ rs ∧
        (t.postsOf fn).count = (s.postsOf fn).count + 1 ∧ t.mem = s.mem) ∧
    (s.fnThere fn = false → ∃ t : State, exec .inboundPostedWrite s = .next t ∧
      t.outbox = .unsupported fn :: s.outbox ∧ t.posts = s.posts)) ∧
  (∀ (s : State) (fn i : Nat) (r : PostReq), s.ev = .opoint fn i → (s.postsOf fn).reqs[i]? = some r →
    (r.sentAt = none → (∀ q ∈ (s.postsOf fn).reqs, q.write < r.write → q.route = r.route ∧ q.sentAt.isSome = true) →
      ∃ (t : State) (q : PostReq), exec .orderingPointSend s = .next t ∧ (t.postsOf fn).reqs[i]? = some q ∧
        q = { r with sentAt := some s.nextId } ∧ t.mem = s.mem) ∧
    (∀ n, r.sentAt = some n → (∀ q ∈ (s.postsOf fn).reqs, q.route = r.route → ∀ k, q.sentAt = some k → n ≤ k) →
      ∃ t : State, exec .orderingPointAck s = .next t ∧
        (r.barWrite = none → (t.postsOf fn).reqs = (s.postsOf fn).reqs.eraseIdx i ∧
          (s.memOk → (r.cells.map (·.1)).Nodup → (∀ x ∈ r.cells, keyKind x.1 = 0) →
            (∀ x ∈ r.cells, t.backing x.1 = x.2) ∧
            ∀ k, k ∉ r.cells.map (·.1) → t.mem.get k = s.mem.get k)))) ∧
  (∀ (s : State) (fn bar n : Nat) (off : DWord), s.ev = .hostRead fn bar off n → s.enumerated = true → (s.postsOf fn).reqs = [] →
    (∀ bs, s.fnThere fn = true → s.hostBytes fn bar off.toNat n = some bs →
      ∃ t : State, exec .inboundHostRead s = .next t ∧ t.outbox = .readDone fn bs :: s.outbox ∧ t.mem = s.mem) ∧
    (s.fnThere fn = false ∨ s.hostBytes fn bar off.toNat n = none →
      ∃ t : State, exec .inboundHostRead s = .next t ∧ t.outbox = .unsupported fn :: s.outbox)) ∧
  (∀ s : State, ∃ t u : State, exec .hostLinkDown s = .next t ∧ t.built.linkUp = false ∧ t.mem = s.mem ∧
    exec .pfFunctionLevelReset s = .next u ∧ (∀ c ∈ u.copies, c.fn ≠ 0) ∧ u.mem = s.mem ∧
    (s.owner = 1 → t.owner = 0 ∧ u.owner = 0) ∧ (s.owner ≠ 1 → t.regs = s.regs ∧ u.regs = s.regs))

/-- R159, R352, R355 to R358: an inbound request is answered from its window, in its class; a remote access is answered within 1 ms, fails, or runs out of
time; links are lost and rejoin at the next window, which refills the allowances. That a request is refused and counted also while
FDEVID.V is 0, and where it crosses LIMIT, is the model's reading (log entry 58), and that link k lies on optical die k / 6 its
presumption (log entry 22). -/
def Obligations.FabricEventsComplete : Prop :=
  (∀ (s : State) (src : BitVec 20) (cls : Nat) (a : DWord) (n : Nat) (bytes : List Byte) (ks : List Nat) (tag : Nat),
    (s.ev = .fabric src cls a none n → s.inboundKeys src a.toNat n false = some (ks, tag) →
      ∃ t : State, exec .inboundFabricRequest s = .next t ∧ t.outbox = .fabricData src cls (ks.map s.backing) :: s.outbox ∧
        t.mem = s.mem) ∧
    (s.ev = .fabric src cls a (some bytes) n → s.inboundKeys src a.toNat bytes.length true = some (ks, tag) →
      exec .inboundFabricRequest s = .next (((((s.countEvent tag 9 (flitBytes bytes.length)).countEvent tag 8 64).atMsc tag false
        ks).writeKeys ks bytes).send (.fabricAck src cls))) ∧
    (s.ev = .fabric src cls a none n → s.inboundKeys src a.toNat n false = none →
      ∃ t : State, exec .inboundFabricRequest s = .next t ∧ t.outbox = .fabricNak src cls :: s.outbox ∧
        t.regs.ferrcnt = s.regs.ferrcnt + 1 ∧ t.mem = s.mem)) ∧
  (∀ (s : State) (id : Nat) (r : RemoteReq), s.remote? id = some r →
    (s.ev = .req id → r.sent = true → s.time ≤ r.since + 1000000 → exec .remoteNak s = .next ((s.countAnswer r 64).failRemote 1 r)) ∧
    (s.ev = .req id → r.since + 1000000 < s.time → exec .remoteTimeout s = .next (s.failRemote 2 r)) ∧
    (∀ bytes, s.ev = .performed (.remoteRead id bytes) → r.sent = true → s.time ≤ r.since + 1000000 → r.write = none → bytes.length = 128 →
      ∃ t : State, exec .accessPerformed s = .next t ∧ t.remote? id = none ∧ t.mem = s.mem ∧
        ∀ g uid, r.group = some uid → s.group? uid = some g → ∃ h, t.group? uid = some h ∧
          ∀ i, i < 128 → overlayGet h.remoteGot (keyRemote r.dev r.raddr + i) = bytes[i]?) ∧
    (∀ cells, s.ev = .performed (.remoteAck id) → r.sent = true → s.time ≤ r.since + 1000000 → r.write = some cells → s.inOrder r = true →
      ∃ t : State, exec .accessPerformed s = .next t ∧ t.remote? id = none ∧ (∀ c ∈ t.remoteDirty, c ∉ cells) ∧
        t.mem = s.mem)) ∧
  (∀ (s : State) (core line scope : Nat) (l : L1Line), s.ev = .performed (.writeBack core line scope) → 3 ≤ scope → scope ≤ 6 →
    s.l1Line core line = some l → l.dirty ≠ 0 →
    ∃ t : State, exec .accessPerformed s = .next t ∧ ∀ m ∈ t.l1, m.core = core → m.line = line → m.dirty = 0) ∧
  (∀ (s t : State) (uid : Nat) (r : RelStore) (rs : List RelStore), s.ev = .performed (.store uid) → s.focus uid = some t →
    t.grp.relq = r :: rs → (r.scope = 6 → (t.releaseAt t.grp.coreNo 6).remoteDirty = []) →
    exec .accessPerformed s = .next ((t.releaseAt t.grp.coreNo r.scope).performRel r)) ∧
  (∀ (s : State) (k : Nat), s.ev = .link k →
    ((s.built.links ||| s.built.linkBack).getLsbD k = true → exec .linkLoss s = .next (s.inWindow.loseLinks (linkBit k))) ∧
    (s.made.links.getLsbD k = true → s.built.ods.getLsbD (k / 6) = true → s.linksNow.getLsbD k = false →
      ∃ t : State, exec .linkReturn s = .next t ∧ t.built.linkBack.getLsbD k = true ∧
        t.built.links = s.inWindow.built.links)) ∧
  (∀ s : State, s.window < s.time / 1000 → ∃ t : State, exec .fabricWindowStart s = .next t ∧
    t.window = s.time / 1000 ∧ t.built.links = s.built.links ||| s.built.linkBack ∧ t.built.linkBack = 0 ∧
    ∀ p d c, p < 24 → d < 2 → c < 2 → t.allowLeft (allowKey p d c) = s.allowOf p d c)

/-! ### Bring-up and health (19_bring_up_and_health.md) -/

/-- R289, R343, R361, R364, R365, R369, R370: die and device resets, the claims of ownership, and what is measured. A device reset
clears the carves' entries, scratch and private memory (R361); that home memory keeps the whole of its coherent value is the model's
reading (log entry 51), and that a write to OWNCTL by the PF or the management controller that is not the owner and asks for nothing
is counted is one too (log entry 53). -/
def Obligations.BringUpEventsComplete : Prop :=
  (∀ (s : State) (fail : Byte), s.ev = .reset .powerOn fail →
    exec .deviceReset s = .next (s.deviceReset fail) ∧ exec .feedLoss s = .next (s.deviceReset fail) ∧
    exec .thermalTrip s = .next ((s.send .fatal).deviceReset fail)) ∧
  (∀ (s : State) (fail : Byte), s.memOk →
    (s.deviceReset fail).memOk ∧ (s.deviceReset fail).others = [] ∧ (s.deviceReset fail).queues = [] ∧
    (s.deviceReset fail).ctxs = [] ∧ (s.deviceReset fail).copies = [] ∧ (s.deviceReset fail).owner = 0 ∧
    (s.deviceReset fail).regs.allowStore = s.regs.allowStore ∧
    (∀ k, keyKind k = 0 → (s.deviceReset fail).mem.get k = s.mem.get k) ∧
    ∀ k, keyKind k = 1 ∨ keyKind k = 2 ∨ keyKind k = 3 → (s.deviceReset fail).mem.get k = 0) ∧
  (∀ (s : State) (cause : ResetCause) (fail : Byte), s.ev = .reset cause fail → s.regs.dreset.getLsbD 63 = true →
    fld s.regs.dreset 0 4 < 8 →
    (fld s.regs.dreset 0 4 < 2 → (s.drainX (fld s.regs.dreset 0 4)).drained1 (fld s.regs.dreset 0 4) = true) →
    ∃ t : State, exec .dreset s = .next t ∧ t.regs.dreset.getLsbD 63 = false) ∧
  (∀ (s : State) (m : Master) (v : DWord), s.ev = .master m v → ownerCode m ≠ 0 → s.hears = true →
    (v.getLsbD 4 = true → v.getLsbD 5 = false →
      (s.owner = 0 → ∃ t : State, exec .ownClaim s = .next t ∧ t.owner = ownerCode m) ∧
      (s.owner ≠ 0 → s.owner ≠ ownerCode m → exec .ownClaim s = .next s)) ∧
    (v.getLsbD 4 = false → v.getLsbD 5 = false →
      (s.owner = ownerCode m → ∃ t : State, exec .ownHandto s = .next t ∧ t.owner = ownerCode m ∧
        t.regs.allowStore = v.getLsbD 8 ∧ (fld v 2 2 ≠ 3 → t.handTo = fld v 2 2)) ∧
      (s.owner ≠ ownerCode m → exec .ownHandto s = .next s.countOwnErr)) ∧
    (v.getLsbD 4 = false → v.getLsbD 5 = true → s.owner ≠ ownerCode m →
      (s.handTo = ownerCode m → ∃ t : State, exec .ownAccept s = .next t ∧ t.owner = ownerCode m ∧ t.handTo = 0) ∧
      (s.handTo ≠ ownerCode m → exec .ownAccept s = .next s))) ∧
  (∀ (s : State) (v : DWord), s.ev = .health v → s.regs.healthAt + 3600000000000 ≤ s.time →
    ∃ t : State, exec .healthUpdate s = .next t ∧ t.regs.health = s.healthOf v ∧ t.regs.healthAt = s.time ∧ t.mem = s.mem) ∧
  (∀ (s : State) (d : Nat), s.ev = .die d → d < 2 →
    ∃ t : State, exec .thermalLimit s = .next t ∧ t.built.heatCap.getLsbD d = true ∧
      ∀ core, dieOfCluster (clusterOfCore core) = d → t.mhz core = 2000) ∧
  (∀ (s : State) (unit : Nat) (owner : Option Nat) (die cluster core slice : Byte) (loc synd : DWord),
    s.ev = .check unit owner die cluster core slice loc synd →
    ∃ (t : State) (r : List Byte), exec .correctedError s = .next t ∧ t.outbox = .errorLog 0 r :: s.outbox ∧
      (unit = 4 → t.regs.hbmErrs = s.time :: s.regs.hbmErrs) ∧ t.regs.corrected = s.regs.corrected + 1 ∧ t.grp = s.grp)

/-- R290, R367, R368: the debug window of a part that is up (R363), for the owner, while GO reads 0: HALT parks the group that the target names; READ and
WRITE reach a register of a parked group, WREC the record of its open region; of a group that is not parked they do
nothing and end with NOTPARKED. That HALT ends OK for an evicted and a saved group too is the model's reading (log entry 56), and
that a write of 0 to the lane generator is ignored its choice (log entry 71). -/
def Obligations.DebugWindowActs : Prop :=
  ∀ (s : State) (m : Master) (v : DWord) (g : Group), s.ev = .master m v → v.getLsbD 63 = true → s.isUp = true → s.owns m = true →
    s.regs.dbgcmd.getLsbD 63 = false → s.debugTarget v = some g →
    (dbgOp v = 0 →
      (g.isParked = true → exec .debugHalt s = .next (s.endDebug v 0)) ∧
      (g.isParked = false → exec .debugHalt s = .next ((s.asGroup g.id.uid State.haltGroup).endDebug v 0))) ∧
    (g.isParked = true → s.debugStalls g s.regs.dbgreg = false →
      (∀ x t, dbgOp v = 1 → s.focus g.id.uid = some t → t.debugRead s.regs.dbgreg = .ok x →
        ∃ u : State, exec .debugRead s = .next u ∧ u.regs.dbgdata = x ∧ u.regs.dbgcmd.getLsbD 63 = false ∧ u.mem = s.mem) ∧
      (∀ h, dbgOp v = 2 → g.debugWrite s.regs.dbgreg s.regs.dbgdata = .ok h →
        exec .debugWrite s = .next ((s.asGroup g.id.uid (fun t => { t with grp := h })).endDebug v 0)) ∧
      (∀ h, dbgOp v = 3 → g.debugWrec s.regs.dbgreg s.regs.dbgdata = .ok h →
        exec .debugWrec s = .next ((s.asGroup g.id.uid (fun t => { t with grp := h })).endDebug v 0))) ∧
    (g.isParked = false →
      (dbgOp v = 1 → exec .debugRead s = .next (s.endDebug v 2)) ∧
      (dbgOp v = 2 → exec .debugWrite s = .next (s.endDebug v 2)) ∧
      (dbgOp v = 3 → exec .debugWrec s = .next (s.endDebug v 2)))

/-! ### Whole rules -/

/-- R76: NOP is the one word that R76 writes out; it occupies one issue slot and changes nothing else; a nonzero field of it
raises ILLEGAL. -/
def Obligations.NopChangesNothing : Prop :=
  encode (.nop ⟨false, 0, 0, 0, 0⟩) = [0x1010000000000000] ∧ decode [0x1010000000000000] = .ok (.nop ⟨false, 0, 0, 0, 0⟩) ∧
  (∀ s : State, exec (.nop ⟨false, 0, 0, 0, 0⟩) s = .next (s.retire 1)) ∧
  ∀ (s : State) (f : SR), f ≠ ⟨false, 0, 0, 0, 0⟩ → exec (.nop f) s = .next (s.takeTrap { cause := .illegal })

/-- R84: LI is SR format with MOP 0x0A, FN 0, I 1, A and B 0 and IMM the immediate; it writes the immediate to s[D], where
D is not 0; it raises ILLEGAL for I 0 or a nonzero A or B, or for a register that the group may not name (R241), then RGNW
for a live-in register. -/
def Obligations.LoadImmediateWhole : Prop :=
  (∀ (d : BitVec 6) (n : Word), encode (.li ⟨true, d, 0, 0, n⟩) =
    [BitVec.ofNat 64 (0x0A * 2 ^ 58 + 2 ^ 50 + d.toNat * 2 ^ 44 + n.toNat)]) ∧
  ∀ (s : State) (f : SR),
    (f.i = true → f.a = 0 → f.b = 0 → s.grp.scalOk f.d = true → s.grp.liveIn f.d = false →
      (f.d = 0 → exec (.li f) s = .next (s.retire 1)) ∧
      ∃ t : State, exec (.li f) s = .next (t.retire 1) ∧ t = { s with grp := t.grp } ∧
        t.grp = { s.grp with sreg := t.grp.sreg } ∧ (f.d ≠ 0 → t.grp.sreg[f.d.toNat]? = some f.imm) ∧
        ∀ k, k ≠ f.d.toNat → t.grp.sreg[k]? = s.grp.sreg[k]?) ∧
    (f.i = false ∨ f.a ≠ 0 ∨ f.b ≠ 0 ∨ s.grp.scalOk f.d = false →
      exec (.li f) s = .next (s.takeTrap { cause := .illegal })) ∧
    (f.i = true → f.a = 0 → f.b = 0 → s.grp.scalOk f.d = true → s.grp.liveIn f.d = true →
      exec (.li f) s = .next (s.takeTrap { cause := .rgnw }))

/-- R72: LBRK is CB format with MOP 0x03 and FN 0x01; it sets the count of the innermost level to 0, closes the level and
transfers control; it raises ILLEGAL for a nonzero unused field, then at depth 0, then the trap of Check on its target; a
trap leaves the loop state unchanged. -/
def Obligations.LeaveLoopWhole : Prop :=
  (∀ off : Word, encode (.lbrk ⟨false, 0, 0, 0, off⟩) = [BitVec.ofNat 64 (0x03 * 2 ^ 58 + 2 ^ 51 + off.toNat)]) ∧
  (∀ (s : State) (f : CB),
    (f.r = true ∨ f.d ≠ 0 ∨ f.a ≠ 0 ∨ f.b ≠ 0 ∨ s.grp.depth = 0 → exec (.lbrk f) s = .next (s.takeTrap { cause := .illegal })) ∧
    (f.r = false → f.d = 0 → f.a = 0 → f.b = 0 → s.grp.depth ≠ 0 →
      (∀ e, s.check (s.grp.pc + 8 * f.off.signExtend 64) = .error e → exec (.lbrk f) s = .next (s.takeTrap e)) ∧
      (∀ h, s.check (s.grp.pc + 8 * f.off.signExtend 64) = .ok h →
        exec (.lbrk f) s = .next (({ s with grp := { s.grp with
          lc := s.grp.lc.setIfInBounds (s.grp.depth - 1) 0, depth := s.grp.depth - 1 } } : State).transfer
            (s.grp.pc + 8 * f.off.signExtend 64))))) ∧
  ∀ (s : State) (t : Trap), (s.takeTrap t).grp.depth = s.grp.depth ∧ (s.takeTrap t).grp.lc = s.grp.lc ∧
    (s.takeTrap t).grp.start = s.grp.start ∧ (s.takeTrap t).grp.exit = s.grp.exit

/-- R347, R366: a write to an owner register by the PF or the management controller that is not the owner changes nothing but
OWNERR, which counts it and saturates; a VF's write to a PF-only register changes nothing. That a write to OWNCTL which asks for
neither CLAIM nor ACCEPT is counted, also where it changes neither ALLOW nor HANDTO, is the model's reading (log entry 53). -/
def Obligations.OwnerRegistersKept : Prop :=
  (∀ (s : State) (fn off size : Nat) (v : DWord), s.ev = .reg (.fn fn) off size v → s.isUp = true → 1 ≤ fn → fn < 64 →
    accessOk off size = true → 0x100 ≤ off → off < 0x8000 → exec .registerWrite s = .next s) ∧
  ∀ (s : State) (m : Master) (off size : Nat) (v : DWord), s.ev = .reg m off size v → s.isUp = true → s.owns m = false →
    ownerCode m ≠ 0 → size = 4 ∨ size = 8 → off % size = 0 →
    ((off ∈ [0x200, 0x208, 0x210, 0x220, 0x228, 0x230, 0x250, 0x258, 0x204, 0x20C, 0x214, 0x224, 0x22C, 0x234, 0x254, 0x25C,
        0x218, 0x238]) ∨ (0x240 ≤ off ∧ off < 0x250) ∨ (0x280 ≤ off ∧ off < 0x2C0) ∨ (0x408 ≤ off ∧ off < 0x800) ∨
      (0x800 ≤ off ∧ off < 0x8C0 ∧ off % 8 = 0) ∨ (0x900 ≤ off ∧ off < 0x9C0) ∨
      (off = 0x104 ∧ v.getLsbD 4 = false ∧ v.getLsbD 5 = false) →
      exec .registerWrite s = .next { s with regs := { s.regs with
        ownerr := if s.regs.ownerr = 0xFFFFFFFF then 0xFFFFFFFF else s.regs.ownerr + 1 } })

/-! ### Reset, group start and the frame of register instructions -/

/-- What reset leaves in the registers for which the spec gives a reset value: R252, R296, R320, R321, R335, R336, R342, R346,
R350 to R354, R356, R362, R364, R366, R369. OWNERR 0 (log entry 2), the ALLOW part of OWNCTL (log entry 12), and that no group,
queue, context or board is there (log entries 1 and 7), are the model's choices. R73, R80, R95, R100, R101, R117,
R132, R197, R218, R282: what a group holds as it starts. -/
def Obligations.ResetAndGroupStartValues : Prop :=
  (State.reset.regs.bootst = 0 ∧ State.reset.regs.ownctl = 0 ∧ State.reset.regs.ownerr = 0 ∧ State.reset.regs.qtroot = 0 ∧
  State.reset.regs.ctxroot = 0 ∧ State.reset.regs.pasidroot = 0 ∧ State.reset.regs.classcfg = 30 * 2048 + 24 * 32 + 12 ∧
  State.reset.regs.vfapsz = 36 ∧ State.reset.regs.dreset = 0 ∧ State.reset.regs.fdevid = 0 ∧ State.reset.regs.frtroot = 0 ∧
  State.reset.regs.finroot = 0 ∧ State.reset.regs.tweight.all (fun w => decide (w = 1)) = true ∧
  State.reset.regs.toffs.all (fun w => decide (w = 0)) = true ∧ State.reset.regs.s2root.all (fun w => decide (w = 0)) = true ∧
  State.reset.regs.health.extractLsb' 56 8 = 255 ∧ State.reset.regs.health.extractLsb' 40 16 = 0 ∧
  State.reset.regs.health.extractLsb' 16 24 = 0xFFFFFF ∧ State.reset.regs.health.extractLsb' 0 16 = 0 ∧
  State.reset.others = [] ∧ State.reset.queues = [] ∧ State.reset.ctxs = [] ∧ State.reset.boards = []) ∧
  (∀ (id : GroupId) (entry trapv : DWord) (bs : List Nat), id.lanes ≤ 96 →
    (∀ n : BitVec 6, n.toNat < 61 → (Group.initial id entry trapv bs).rs n = 0) ∧
    (∀ l, l < 96 → ((Group.initial id entry trapv bs).raw 0).getLsbD l = decide (l < id.lanes)) ∧
    (∀ p, p < 232 → (Group.initial id entry trapv bs).physLanes p = zeroLanes) ∧
    (∀ l, 0 < l → l < 96 → (Group.initial id entry trapv bs).gen[l]? = some (BitVec.ofNat 32 (l * 0x10001))) ∧
    (Group.initial id entry trapv bs).gen[0]? = some 1 ∧ (Group.initial id entry trapv bs).fpcr = 0 ∧
    (Group.initial id entry trapv bs).fpsr = 0 ∧ (Group.initial id entry trapv bs).mdef = 0x269 ∧
    (Group.initial id entry trapv bs).depth = 0 ∧
    (∀ q, q < 16 → ((Group.initial id entry trapv bs).queue q).kind = .unbound ∧
      ((Group.initial id entry trapv bs).queue q).entries = []) ∧
    (Group.initial id entry trapv bs).wdcfg = 24 * 2 ^ 16 + 30 * 2 ^ 8 + 1)

/-- R78, R79, R82 to R87: what the SR instructions that only write scalars change: those of R82 with CMOV and the bit counts, the
pair operations, shifts and tests, LI, LIW, LEA and MOVW, and the mask forms of R78. Where the instruction is in order and does not
end its block, nothing of the machine changes but the group's scalars, its pc and its counts, and no scalar but the destination's
one, two or three registers. -/
def Obligations.RegisterInstructionsFrame : Prop :=
  ∀ (s t : State) (f : SR) (i : Instr), s.grp.pc + BitVec.ofNat 64 (8 * srWords i) ≠ s.grp.blockEnd → exec i s = .next t →
    i.wf = true →
    (s.grp.writesScalar f i → ∀ k, k ≠ f.d.toNat → t.grp.sreg[k]? = s.grp.sreg[k]?) ∧
    (s.grp.writesPair f i → ∀ k, k ≠ f.d.toNat → k ≠ f.d.toNat + 1 → t.grp.sreg[k]? = s.grp.sreg[k]?) ∧
    (s.grp.writesTriple f i →
      ∀ k, k < (tripleBase f.d).toNat ∨ (tripleBase f.d).toNat + 2 < k → t.grp.sreg[k]? = s.grp.sreg[k]?) ∧
    (s.grp.writesScalar f i ∨ s.grp.writesPair f i ∨ s.grp.writesTriple f i →
      t = { s with grp := t.grp } ∧ (∀ k, t.mem.get k = s.mem.get k) ∧
      t.grp = { s.grp with
        sreg := t.grp.sreg, pc := s.grp.pc + BitVec.ofNat 64 (8 * srWords i), retired := s.grp.retired + 1,
        progress := s.grp.progress + 1, status := .ready, remoteGot := [], denied := false })
end

