-- ==== Sys2Proof/Laws/State.lean ====
section
/-! SUPPORT. One lemma for each field and each update of the state and of a group, so that no proof unfolds a record
update. -/

namespace Sys2Proof.Machine

open Sys2Proof

/-! ### A change of the issuing group -/

@[simp] theorem State.onGrp_grp (s : State) (f : Group → Group) : (s.onGrp f).grp = f s.grp := rfl
@[simp] theorem State.onGrp_others (s : State) (f : Group → Group) : (s.onGrp f).others = s.others := rfl
@[simp] theorem State.onGrp_mem (s : State) (f : Group → Group) : (s.onGrp f).mem = s.mem := rfl
@[simp] theorem State.onGrp_hostDirty (s : State) (f : Group → Group) : (s.onGrp f).hostDirty = s.hostDirty := rfl
@[simp] theorem State.onGrp_remoteDirty (s : State) (f : Group → Group) : (s.onGrp f).remoteDirty = s.remoteDirty := rfl
@[simp] theorem State.onGrp_origins (s : State) (f : Group → Group) : (s.onGrp f).origins = s.origins := rfl
@[simp] theorem State.onGrp_ahead (s : State) (f : Group → Group) : (s.onGrp f).ahead = s.ahead := rfl
@[simp] theorem State.onGrp_hostOld (s : State) (f : Group → Group) : (s.onGrp f).hostOld = s.hostOld := rfl
@[simp] theorem State.onGrp_l1 (s : State) (f : Group → Group) : (s.onGrp f).l1 = s.l1 := rfl
@[simp] theorem State.onGrp_l2 (s : State) (f : Group → Group) : (s.onGrp f).l2 = s.l2 := rfl
@[simp] theorem State.onGrp_msc (s : State) (f : Group → Group) : (s.onGrp f).msc = s.msc := rfl
@[simp] theorem State.onGrp_tlb (s : State) (f : Group → Group) : (s.onGrp f).tlb = s.tlb := rfl
@[simp] theorem State.onGrp_hostTlb (s : State) (f : Group → Group) : (s.onGrp f).hostTlb = s.hostTlb := rfl
@[simp] theorem State.onGrp_ats (s : State) (f : Group → Group) : (s.onGrp f).ats = s.ats := rfl
@[simp] theorem State.onGrp_invs (s : State) (f : Group → Group) : (s.onGrp f).invs = s.invs := rfl
@[simp] theorem State.onGrp_prefs (s : State) (f : Group → Group) : (s.onGrp f).prefs = s.prefs := rfl
@[simp] theorem State.onGrp_remote (s : State) (f : Group → Group) : (s.onGrp f).remote = s.remote := rfl
@[simp] theorem State.onGrp_bands (s : State) (f : Group → Group) : (s.onGrp f).bands = s.bands := rfl
@[simp] theorem State.onGrp_arrivals (s : State) (f : Group → Group) : (s.onGrp f).arrivals = s.arrivals := rfl
@[simp] theorem State.onGrp_fields (s : State) (f : Group → Group) : (s.onGrp f).fields = s.fields := rfl
@[simp] theorem State.onGrp_bundles (s : State) (f : Group → Group) : (s.onGrp f).bundles = s.bundles := rfl
@[simp] theorem State.onGrp_queues (s : State) (f : Group → Group) : (s.onGrp f).queues = s.queues := rfl
@[simp] theorem State.onGrp_ctxs (s : State) (f : Group → Group) : (s.onGrp f).ctxs = s.ctxs := rfl
@[simp] theorem State.onGrp_boards (s : State) (f : Group → Group) : (s.onGrp f).boards = s.boards := rfl
@[simp] theorem State.onGrp_copies (s : State) (f : Group → Group) : (s.onGrp f).copies = s.copies := rfl
@[simp] theorem State.onGrp_tokens (s : State) (f : Group → Group) : (s.onGrp f).tokens = s.tokens := rfl
@[simp] theorem State.onGrp_regs (s : State) (f : Group → Group) : (s.onGrp f).regs = s.regs := rfl
@[simp] theorem State.onGrp_fns (s : State) (f : Group → Group) : (s.onGrp f).fns = s.fns := rfl
@[simp] theorem State.onGrp_built (s : State) (f : Group → Group) : (s.onGrp f).built = s.built := rfl
@[simp] theorem State.onGrp_made (s : State) (f : Group → Group) : (s.onGrp f).made = s.made := rfl
@[simp] theorem State.onGrp_posts (s : State) (f : Group → Group) : (s.onGrp f).posts = s.posts := rfl
@[simp] theorem State.onGrp_windows (s : State) (f : Group → Group) : (s.onGrp f).windows = s.windows := rfl
@[simp] theorem State.onGrp_routes (s : State) (f : Group → Group) : (s.onGrp f).routes = s.routes := rfl
@[simp] theorem State.onGrp_allowance (s : State) (f : Group → Group) : (s.onGrp f).allowance = s.allowance := rfl
@[simp] theorem State.onGrp_window (s : State) (f : Group → Group) : (s.onGrp f).window = s.window := rfl
@[simp] theorem State.onGrp_unswept (s : State) (f : Group → Group) : (s.onGrp f).unswept = s.unswept := rfl
@[simp] theorem State.onGrp_spare (s : State) (f : Group → Group) : (s.onGrp f).spare = s.spare := rfl
@[simp] theorem State.onGrp_needy (s : State) (f : Group → Group) : (s.onGrp f).needy = s.needy := rfl
@[simp] theorem State.onGrp_waking (s : State) (f : Group → Group) : (s.onGrp f).waking = s.waking := rfl
@[simp] theorem State.onGrp_coreMHz (s : State) (f : Group → Group) : (s.onGrp f).coreMHz = s.coreMHz := rfl
@[simp] theorem State.onGrp_mxLast (s : State) (f : Group → Group) : (s.onGrp f).mxLast = s.mxLast := rfl
@[simp] theorem State.onGrp_served (s : State) (f : Group → Group) : (s.onGrp f).served = s.served := rfl
@[simp] theorem State.onGrp_lastQueue (s : State) (f : Group → Group) : (s.onGrp f).lastQueue = s.lastQueue := rfl
@[simp] theorem State.onGrp_outbox (s : State) (f : Group → Group) : (s.onGrp f).outbox = s.outbox := rfl
@[simp] theorem State.onGrp_records (s : State) (f : Group → Group) : (s.onGrp f).records = s.records := rfl
@[simp] theorem State.onGrp_lost (s : State) (f : Group → Group) : (s.onGrp f).lost = s.lost := rfl
@[simp] theorem State.onGrp_time (s : State) (f : Group → Group) : (s.onGrp f).time = s.time := rfl
@[simp] theorem State.onGrp_clock (s : State) (f : Group → Group) : (s.onGrp f).clock = s.clock := rfl
@[simp] theorem State.onGrp_nextId (s : State) (f : Group → Group) : (s.onGrp f).nextId = s.nextId := rfl
@[simp] theorem State.onGrp_freeIx (s : State) (f : Group → Group) : (s.onGrp f).freeIx = s.freeIx := rfl
@[simp] theorem State.onGrp_choices (s : State) (f : Group → Group) : (s.onGrp f).choices = s.choices := rfl
@[simp] theorem State.onGrp_ev (s : State) (f : Group → Group) : (s.onGrp f).ev = s.ev := rfl
@[simp] theorem State.onGrp_agenda (s : State) (f : Group → Group) : (s.onGrp f).agenda = s.agenda := rfl

/-! ### A wait -/

@[simp] theorem State.waitFor_status (s : State) (w : Wait) : (s.waitFor w).grp.status = .waiting w := rfl
@[simp] theorem State.waitFor_others (s : State) (w : Wait) : (s.waitFor w).others = s.others := rfl
@[simp] theorem State.waitFor_mem (s : State) (w : Wait) : (s.waitFor w).mem = s.mem := rfl
@[simp] theorem State.waitFor_hostDirty (s : State) (w : Wait) : (s.waitFor w).hostDirty = s.hostDirty := rfl
@[simp] theorem State.waitFor_remoteDirty (s : State) (w : Wait) : (s.waitFor w).remoteDirty = s.remoteDirty := rfl
@[simp] theorem State.waitFor_origins (s : State) (w : Wait) : (s.waitFor w).origins = s.origins := rfl
@[simp] theorem State.waitFor_ahead (s : State) (w : Wait) : (s.waitFor w).ahead = s.ahead := rfl
@[simp] theorem State.waitFor_hostOld (s : State) (w : Wait) : (s.waitFor w).hostOld = s.hostOld := rfl
@[simp] theorem State.waitFor_l1 (s : State) (w : Wait) : (s.waitFor w).l1 = s.l1 := rfl
@[simp] theorem State.waitFor_l2 (s : State) (w : Wait) : (s.waitFor w).l2 = s.l2 := rfl
@[simp] theorem State.waitFor_msc (s : State) (w : Wait) : (s.waitFor w).msc = s.msc := rfl
@[simp] theorem State.waitFor_tlb (s : State) (w : Wait) : (s.waitFor w).tlb = s.tlb := rfl
@[simp] theorem State.waitFor_hostTlb (s : State) (w : Wait) : (s.waitFor w).hostTlb = s.hostTlb := rfl
@[simp] theorem State.waitFor_ats (s : State) (w : Wait) : (s.waitFor w).ats = s.ats := rfl
@[simp] theorem State.waitFor_invs (s : State) (w : Wait) : (s.waitFor w).invs = s.invs := rfl
@[simp] theorem State.waitFor_prefs (s : State) (w : Wait) : (s.waitFor w).prefs = s.prefs := rfl
@[simp] theorem State.waitFor_remote (s : State) (w : Wait) : (s.waitFor w).remote = s.remote := rfl
@[simp] theorem State.waitFor_bands (s : State) (w : Wait) : (s.waitFor w).bands = s.bands := rfl
@[simp] theorem State.waitFor_arrivals (s : State) (w : Wait) : (s.waitFor w).arrivals = s.arrivals := rfl
@[simp] theorem State.waitFor_fields (s : State) (w : Wait) : (s.waitFor w).fields = s.fields := rfl
@[simp] theorem State.waitFor_bundles (s : State) (w : Wait) : (s.waitFor w).bundles = s.bundles := rfl
@[simp] theorem State.waitFor_queues (s : State) (w : Wait) : (s.waitFor w).queues = s.queues := rfl
@[simp] theorem State.waitFor_ctxs (s : State) (w : Wait) : (s.waitFor w).ctxs = s.ctxs := rfl
@[simp] theorem State.waitFor_boards (s : State) (w : Wait) : (s.waitFor w).boards = s.boards := rfl
@[simp] theorem State.waitFor_copies (s : State) (w : Wait) : (s.waitFor w).copies = s.copies := rfl
@[simp] theorem State.waitFor_tokens (s : State) (w : Wait) : (s.waitFor w).tokens = s.tokens := rfl
@[simp] theorem State.waitFor_regs (s : State) (w : Wait) : (s.waitFor w).regs = s.regs := rfl
@[simp] theorem State.waitFor_fns (s : State) (w : Wait) : (s.waitFor w).fns = s.fns := rfl
@[simp] theorem State.waitFor_built (s : State) (w : Wait) : (s.waitFor w).built = s.built := rfl
@[simp] theorem State.waitFor_made (s : State) (w : Wait) : (s.waitFor w).made = s.made := rfl
@[simp] theorem State.waitFor_posts (s : State) (w : Wait) : (s.waitFor w).posts = s.posts := rfl
@[simp] theorem State.waitFor_windows (s : State) (w : Wait) : (s.waitFor w).windows = s.windows := rfl
@[simp] theorem State.waitFor_routes (s : State) (w : Wait) : (s.waitFor w).routes = s.routes := rfl
@[simp] theorem State.waitFor_allowance (s : State) (w : Wait) : (s.waitFor w).allowance = s.allowance := rfl
@[simp] theorem State.waitFor_window (s : State) (w : Wait) : (s.waitFor w).window = s.window := rfl
@[simp] theorem State.waitFor_unswept (s : State) (w : Wait) : (s.waitFor w).unswept = s.unswept := rfl
@[simp] theorem State.waitFor_spare (s : State) (w : Wait) : (s.waitFor w).spare = s.spare := rfl
@[simp] theorem State.waitFor_needy (s : State) (w : Wait) : (s.waitFor w).needy = s.needy := rfl
@[simp] theorem State.waitFor_waking (s : State) (w : Wait) : (s.waitFor w).waking = s.waking := rfl
@[simp] theorem State.waitFor_coreMHz (s : State) (w : Wait) : (s.waitFor w).coreMHz = s.coreMHz := rfl
@[simp] theorem State.waitFor_mxLast (s : State) (w : Wait) : (s.waitFor w).mxLast = s.mxLast := rfl
@[simp] theorem State.waitFor_served (s : State) (w : Wait) : (s.waitFor w).served = s.served := rfl
@[simp] theorem State.waitFor_lastQueue (s : State) (w : Wait) : (s.waitFor w).lastQueue = s.lastQueue := rfl
@[simp] theorem State.waitFor_outbox (s : State) (w : Wait) : (s.waitFor w).outbox = s.outbox := rfl
@[simp] theorem State.waitFor_records (s : State) (w : Wait) : (s.waitFor w).records = s.records := rfl
@[simp] theorem State.waitFor_lost (s : State) (w : Wait) : (s.waitFor w).lost = s.lost := rfl
@[simp] theorem State.waitFor_time (s : State) (w : Wait) : (s.waitFor w).time = s.time := rfl
@[simp] theorem State.waitFor_clock (s : State) (w : Wait) : (s.waitFor w).clock = s.clock := rfl
@[simp] theorem State.waitFor_nextId (s : State) (w : Wait) : (s.waitFor w).nextId = s.nextId := rfl
@[simp] theorem State.waitFor_freeIx (s : State) (w : Wait) : (s.waitFor w).freeIx = s.freeIx := rfl
@[simp] theorem State.waitFor_choices (s : State) (w : Wait) : (s.waitFor w).choices = s.choices := rfl
@[simp] theorem State.waitFor_ev (s : State) (w : Wait) : (s.waitFor w).ev = s.ev := rfl
@[simp] theorem State.waitFor_agenda (s : State) (w : Wait) : (s.waitFor w).agenda = s.agenda := rfl
@[simp] theorem State.waitFor_grp_id (s : State) (w : Wait) : (s.waitFor w).grp.id = s.grp.id := rfl
@[simp] theorem State.waitFor_grp_sreg (s : State) (w : Wait) : (s.waitFor w).grp.sreg = s.grp.sreg := rfl
@[simp] theorem State.waitFor_grp_vreg (s : State) (w : Wait) : (s.waitFor w).grp.vreg = s.grp.vreg := rfl
@[simp] theorem State.waitFor_grp_gen (s : State) (w : Wait) : (s.waitFor w).grp.gen = s.grp.gen := rfl
@[simp] theorem State.waitFor_grp_fpcr (s : State) (w : Wait) : (s.waitFor w).grp.fpcr = s.grp.fpcr := rfl
@[simp] theorem State.waitFor_grp_fpsr (s : State) (w : Wait) : (s.waitFor w).grp.fpsr = s.grp.fpsr := rfl
@[simp] theorem State.waitFor_grp_mdef (s : State) (w : Wait) : (s.waitFor w).grp.mdef = s.grp.mdef := rfl
@[simp] theorem State.waitFor_grp_pc (s : State) (w : Wait) : (s.waitFor w).grp.pc = s.grp.pc := rfl
@[simp] theorem State.waitFor_grp_blockHdr (s : State) (w : Wait) : (s.waitFor w).grp.blockHdr = s.grp.blockHdr := rfl
@[simp] theorem State.waitFor_grp_blockEnd (s : State) (w : Wait) : (s.waitFor w).grp.blockEnd = s.grp.blockEnd := rfl
@[simp] theorem State.waitFor_grp_depth (s : State) (w : Wait) : (s.waitFor w).grp.depth = s.grp.depth := rfl
@[simp] theorem State.waitFor_grp_start (s : State) (w : Wait) : (s.waitFor w).grp.start = s.grp.start := rfl
@[simp] theorem State.waitFor_grp_exit (s : State) (w : Wait) : (s.waitFor w).grp.exit = s.grp.exit := rfl
@[simp] theorem State.waitFor_grp_lc (s : State) (w : Wait) : (s.waitFor w).grp.lc = s.grp.lc := rfl
@[simp] theorem State.waitFor_grp_latch (s : State) (w : Wait) : (s.waitFor w).grp.latch = s.grp.latch := rfl
@[simp] theorem State.waitFor_grp_trapBlockEnd (s : State) (w : Wait) : (s.waitFor w).grp.trapBlockEnd = s.grp.trapBlockEnd := rfl
@[simp] theorem State.waitFor_grp_trapHdr (s : State) (w : Wait) : (s.waitFor w).grp.trapHdr = s.grp.trapHdr := rfl
@[simp] theorem State.waitFor_grp_trapv (s : State) (w : Wait) : (s.waitFor w).grp.trapv = s.grp.trapv := rfl
@[simp] theorem State.waitFor_grp_trapc (s : State) (w : Wait) : (s.waitFor w).grp.trapc = s.grp.trapc := rfl
@[simp] theorem State.waitFor_grp_trappc (s : State) (w : Wait) : (s.waitFor w).grp.trappc = s.grp.trappc := rfl
@[simp] theorem State.waitFor_grp_trappcRec (s : State) (w : Wait) : (s.waitFor w).grp.trappcRec = s.grp.trappcRec := rfl
@[simp] theorem State.waitFor_grp_trapa (s : State) (w : Wait) : (s.waitFor w).grp.trapa = s.grp.trapa := rfl
@[simp] theorem State.waitFor_grp_wdcfg (s : State) (w : Wait) : (s.waitFor w).grp.wdcfg = s.grp.wdcfg := rfl
@[simp] theorem State.waitFor_grp_zreg (s : State) (w : Wait) : (s.waitFor w).grp.zreg = s.grp.zreg := rfl
@[simp] theorem State.waitFor_grp_view (s : State) (w : Wait) : (s.waitFor w).grp.view = s.grp.view := rfl
@[simp] theorem State.waitFor_grp_queues (s : State) (w : Wait) : (s.waitFor w).grp.queues = s.grp.queues := rfl
@[simp] theorem State.waitFor_grp_copyTag (s : State) (w : Wait) : (s.waitFor w).grp.copyTag = s.grp.copyTag := rfl
@[simp] theorem State.waitFor_grp_mxTag (s : State) (w : Wait) : (s.waitFor w).grp.mxTag = s.grp.mxTag := rfl
@[simp] theorem State.waitFor_grp_arrived (s : State) (w : Wait) : (s.waitFor w).grp.arrived = s.grp.arrived := rfl
@[simp] theorem State.waitFor_grp_tiles (s : State) (w : Wait) : (s.waitFor w).grp.tiles = s.grp.tiles := rfl
@[simp] theorem State.waitFor_grp_mxq (s : State) (w : Wait) : (s.waitFor w).grp.mxq = s.grp.mxq := rfl
@[simp] theorem State.waitFor_grp_chanOpen (s : State) (w : Wait) : (s.waitFor w).grp.chanOpen = s.grp.chanOpen := rfl
@[simp] theorem State.waitFor_grp_relq (s : State) (w : Wait) : (s.waitFor w).grp.relq = s.grp.relq := rfl
@[simp] theorem State.waitFor_grp_loopBuf (s : State) (w : Wait) : (s.waitFor w).grp.loopBuf = s.grp.loopBuf := rfl
@[simp] theorem State.waitFor_grp_recruit (s : State) (w : Wait) : (s.waitFor w).grp.recruit = s.grp.recruit := rfl
@[simp] theorem State.waitFor_grp_helper (s : State) (w : Wait) : (s.waitFor w).grp.helper = s.grp.helper := rfl
@[simp] theorem State.waitFor_grp_region (s : State) (w : Wait) : (s.waitFor w).grp.region = s.grp.region := rfl
@[simp] theorem State.waitFor_grp_rgnRst (s : State) (w : Wait) : (s.waitFor w).grp.rgnRst = s.grp.rgnRst := rfl
@[simp] theorem State.waitFor_grp_reopens (s : State) (w : Wait) : (s.waitFor w).grp.reopens = s.grp.reopens := rfl
@[simp] theorem State.waitFor_grp_ccnt (s : State) (w : Wait) : (s.waitFor w).grp.ccnt = s.grp.ccnt := rfl
@[simp] theorem State.waitFor_grp_retired (s : State) (w : Wait) : (s.waitFor w).grp.retired = s.grp.retired := rfl
@[simp] theorem State.waitFor_grp_readyCc (s : State) (w : Wait) : (s.waitFor w).grp.readyCc = s.grp.readyCc := rfl
@[simp] theorem State.waitFor_grp_acqLoad (s : State) (w : Wait) : (s.waitFor w).grp.acqLoad = s.grp.acqLoad := rfl
@[simp] theorem State.waitFor_grp_l1Misses (s : State) (w : Wait) : (s.waitFor w).grp.l1Misses = s.grp.l1Misses := rfl
@[simp] theorem State.waitFor_grp_movedBytes (s : State) (w : Wait) : (s.waitFor w).grp.movedBytes = s.grp.movedBytes := rfl
@[simp] theorem State.waitFor_grp_progress (s : State) (w : Wait) : (s.waitFor w).grp.progress = s.grp.progress := rfl
@[simp] theorem State.waitFor_grp_unchosen (s : State) (w : Wait) : (s.waitFor w).grp.unchosen = s.grp.unchosen := rfl
@[simp] theorem State.waitFor_grp_raised (s : State) (w : Wait) : (s.waitFor w).grp.raised = s.grp.raised := rfl
@[simp] theorem State.waitFor_grp_stalled (s : State) (w : Wait) : (s.waitFor w).grp.stalled = s.grp.stalled := rfl
@[simp] theorem State.waitFor_grp_drowsy (s : State) (w : Wait) : (s.waitFor w).grp.drowsy = s.grp.drowsy := rfl
@[simp] theorem State.waitFor_grp_slot (s : State) (w : Wait) : (s.waitFor w).grp.slot = s.grp.slot := rfl
@[simp] theorem State.waitFor_grp_slotBytes (s : State) (w : Wait) : (s.waitFor w).grp.slotBytes = s.grp.slotBytes := rfl
@[simp] theorem State.waitFor_grp_preempt (s : State) (w : Wait) : (s.waitFor w).grp.preempt = s.grp.preempt := rfl
@[simp] theorem State.waitFor_grp_remoteGot (s : State) (w : Wait) : (s.waitFor w).grp.remoteGot = s.grp.remoteGot := rfl
@[simp] theorem State.waitFor_grp_denied (s : State) (w : Wait) : (s.waitFor w).grp.denied = s.grp.denied := rfl
@[simp] theorem State.waitFor_grp_bankIds (s : State) (w : Wait) : (s.waitFor w).grp.bankIds = s.grp.bankIds := rfl

/-! ### A message -/

@[simp] theorem State.send_outbox (s : State) (m : OutMsg) : (s.send m).outbox = m :: s.outbox := rfl
@[simp] theorem State.send_grp (s : State) (m : OutMsg) : (s.send m).grp = s.grp := rfl
@[simp] theorem State.send_others (s : State) (m : OutMsg) : (s.send m).others = s.others := rfl
@[simp] theorem State.send_mem (s : State) (m : OutMsg) : (s.send m).mem = s.mem := rfl
@[simp] theorem State.send_hostDirty (s : State) (m : OutMsg) : (s.send m).hostDirty = s.hostDirty := rfl
@[simp] theorem State.send_remoteDirty (s : State) (m : OutMsg) : (s.send m).remoteDirty = s.remoteDirty := rfl
@[simp] theorem State.send_origins (s : State) (m : OutMsg) : (s.send m).origins = s.origins := rfl
@[simp] theorem State.send_ahead (s : State) (m : OutMsg) : (s.send m).ahead = s.ahead := rfl
@[simp] theorem State.send_hostOld (s : State) (m : OutMsg) : (s.send m).hostOld = s.hostOld := rfl
@[simp] theorem State.send_l1 (s : State) (m : OutMsg) : (s.send m).l1 = s.l1 := rfl
@[simp] theorem State.send_l2 (s : State) (m : OutMsg) : (s.send m).l2 = s.l2 := rfl
@[simp] theorem State.send_msc (s : State) (m : OutMsg) : (s.send m).msc = s.msc := rfl
@[simp] theorem State.send_tlb (s : State) (m : OutMsg) : (s.send m).tlb = s.tlb := rfl
@[simp] theorem State.send_hostTlb (s : State) (m : OutMsg) : (s.send m).hostTlb = s.hostTlb := rfl
@[simp] theorem State.send_ats (s : State) (m : OutMsg) : (s.send m).ats = s.ats := rfl
@[simp] theorem State.send_invs (s : State) (m : OutMsg) : (s.send m).invs = s.invs := rfl
@[simp] theorem State.send_prefs (s : State) (m : OutMsg) : (s.send m).prefs = s.prefs := rfl
@[simp] theorem State.send_remote (s : State) (m : OutMsg) : (s.send m).remote = s.remote := rfl
@[simp] theorem State.send_bands (s : State) (m : OutMsg) : (s.send m).bands = s.bands := rfl
@[simp] theorem State.send_arrivals (s : State) (m : OutMsg) : (s.send m).arrivals = s.arrivals := rfl
@[simp] theorem State.send_fields (s : State) (m : OutMsg) : (s.send m).fields = s.fields := rfl
@[simp] theorem State.send_bundles (s : State) (m : OutMsg) : (s.send m).bundles = s.bundles := rfl
@[simp] theorem State.send_queues (s : State) (m : OutMsg) : (s.send m).queues = s.queues := rfl
@[simp] theorem State.send_ctxs (s : State) (m : OutMsg) : (s.send m).ctxs = s.ctxs := rfl
@[simp] theorem State.send_boards (s : State) (m : OutMsg) : (s.send m).boards = s.boards := rfl
@[simp] theorem State.send_copies (s : State) (m : OutMsg) : (s.send m).copies = s.copies := rfl
@[simp] theorem State.send_tokens (s : State) (m : OutMsg) : (s.send m).tokens = s.tokens := rfl
@[simp] theorem State.send_regs (s : State) (m : OutMsg) : (s.send m).regs = s.regs := rfl
@[simp] theorem State.send_fns (s : State) (m : OutMsg) : (s.send m).fns = s.fns := rfl
@[simp] theorem State.send_built (s : State) (m : OutMsg) : (s.send m).built = s.built := rfl
@[simp] theorem State.send_made (s : State) (m : OutMsg) : (s.send m).made = s.made := rfl
@[simp] theorem State.send_posts (s : State) (m : OutMsg) : (s.send m).posts = s.posts := rfl
@[simp] theorem State.send_windows (s : State) (m : OutMsg) : (s.send m).windows = s.windows := rfl
@[simp] theorem State.send_routes (s : State) (m : OutMsg) : (s.send m).routes = s.routes := rfl
@[simp] theorem State.send_allowance (s : State) (m : OutMsg) : (s.send m).allowance = s.allowance := rfl
@[simp] theorem State.send_window (s : State) (m : OutMsg) : (s.send m).window = s.window := rfl
@[simp] theorem State.send_unswept (s : State) (m : OutMsg) : (s.send m).unswept = s.unswept := rfl
@[simp] theorem State.send_spare (s : State) (m : OutMsg) : (s.send m).spare = s.spare := rfl
@[simp] theorem State.send_needy (s : State) (m : OutMsg) : (s.send m).needy = s.needy := rfl
@[simp] theorem State.send_waking (s : State) (m : OutMsg) : (s.send m).waking = s.waking := rfl
@[simp] theorem State.send_coreMHz (s : State) (m : OutMsg) : (s.send m).coreMHz = s.coreMHz := rfl
@[simp] theorem State.send_mxLast (s : State) (m : OutMsg) : (s.send m).mxLast = s.mxLast := rfl
@[simp] theorem State.send_served (s : State) (m : OutMsg) : (s.send m).served = s.served := rfl
@[simp] theorem State.send_lastQueue (s : State) (m : OutMsg) : (s.send m).lastQueue = s.lastQueue := rfl
@[simp] theorem State.send_records (s : State) (m : OutMsg) : (s.send m).records = s.records := rfl
@[simp] theorem State.send_lost (s : State) (m : OutMsg) : (s.send m).lost = s.lost := rfl
@[simp] theorem State.send_time (s : State) (m : OutMsg) : (s.send m).time = s.time := rfl
@[simp] theorem State.send_clock (s : State) (m : OutMsg) : (s.send m).clock = s.clock := rfl
@[simp] theorem State.send_nextId (s : State) (m : OutMsg) : (s.send m).nextId = s.nextId := rfl
@[simp] theorem State.send_freeIx (s : State) (m : OutMsg) : (s.send m).freeIx = s.freeIx := rfl
@[simp] theorem State.send_choices (s : State) (m : OutMsg) : (s.send m).choices = s.choices := rfl
@[simp] theorem State.send_ev (s : State) (m : OutMsg) : (s.send m).ev = s.ev := rfl
@[simp] theorem State.send_agenda (s : State) (m : OutMsg) : (s.send m).agenda = s.agenda := rfl

/-! ### A context -/

@[simp] theorem State.setCtx_ctxs (s : State) (c : Context) :
    (s.setCtx c).ctxs = s.ctxs.map (fun x => if x.num = c.num then c else x) := rfl
@[simp] theorem State.setCtx_grp (s : State) (c : Context) : (s.setCtx c).grp = s.grp := rfl
@[simp] theorem State.setCtx_others (s : State) (c : Context) : (s.setCtx c).others = s.others := rfl
@[simp] theorem State.setCtx_mem (s : State) (c : Context) : (s.setCtx c).mem = s.mem := rfl
@[simp] theorem State.setCtx_hostDirty (s : State) (c : Context) : (s.setCtx c).hostDirty = s.hostDirty := rfl
@[simp] theorem State.setCtx_remoteDirty (s : State) (c : Context) : (s.setCtx c).remoteDirty = s.remoteDirty := rfl
@[simp] theorem State.setCtx_origins (s : State) (c : Context) : (s.setCtx c).origins = s.origins := rfl
@[simp] theorem State.setCtx_ahead (s : State) (c : Context) : (s.setCtx c).ahead = s.ahead := rfl
@[simp] theorem State.setCtx_hostOld (s : State) (c : Context) : (s.setCtx c).hostOld = s.hostOld := rfl
@[simp] theorem State.setCtx_l1 (s : State) (c : Context) : (s.setCtx c).l1 = s.l1 := rfl
@[simp] theorem State.setCtx_l2 (s : State) (c : Context) : (s.setCtx c).l2 = s.l2 := rfl
@[simp] theorem State.setCtx_msc (s : State) (c : Context) : (s.setCtx c).msc = s.msc := rfl
@[simp] theorem State.setCtx_tlb (s : State) (c : Context) : (s.setCtx c).tlb = s.tlb := rfl
@[simp] theorem State.setCtx_hostTlb (s : State) (c : Context) : (s.setCtx c).hostTlb = s.hostTlb := rfl
@[simp] theorem State.setCtx_ats (s : State) (c : Context) : (s.setCtx c).ats = s.ats := rfl
@[simp] theorem State.setCtx_invs (s : State) (c : Context) : (s.setCtx c).invs = s.invs := rfl
@[simp] theorem State.setCtx_prefs (s : State) (c : Context) : (s.setCtx c).prefs = s.prefs := rfl
@[simp] theorem State.setCtx_remote (s : State) (c : Context) : (s.setCtx c).remote = s.remote := rfl
@[simp] theorem State.setCtx_bands (s : State) (c : Context) : (s.setCtx c).bands = s.bands := rfl
@[simp] theorem State.setCtx_arrivals (s : State) (c : Context) : (s.setCtx c).arrivals = s.arrivals := rfl
@[simp] theorem State.setCtx_fields (s : State) (c : Context) : (s.setCtx c).fields = s.fields := rfl
@[simp] theorem State.setCtx_bundles (s : State) (c : Context) : (s.setCtx c).bundles = s.bundles := rfl
@[simp] theorem State.setCtx_queues (s : State) (c : Context) : (s.setCtx c).queues = s.queues := rfl
@[simp] theorem State.setCtx_boards (s : State) (c : Context) : (s.setCtx c).boards = s.boards := rfl
@[simp] theorem State.setCtx_copies (s : State) (c : Context) : (s.setCtx c).copies = s.copies := rfl
@[simp] theorem State.setCtx_tokens (s : State) (c : Context) : (s.setCtx c).tokens = s.tokens := rfl
@[simp] theorem State.setCtx_regs (s : State) (c : Context) : (s.setCtx c).regs = s.regs := rfl
@[simp] theorem State.setCtx_fns (s : State) (c : Context) : (s.setCtx c).fns = s.fns := rfl
@[simp] theorem State.setCtx_built (s : State) (c : Context) : (s.setCtx c).built = s.built := rfl
@[simp] theorem State.setCtx_made (s : State) (c : Context) : (s.setCtx c).made = s.made := rfl
@[simp] theorem State.setCtx_posts (s : State) (c : Context) : (s.setCtx c).posts = s.posts := rfl
@[simp] theorem State.setCtx_windows (s : State) (c : Context) : (s.setCtx c).windows = s.windows := rfl
@[simp] theorem State.setCtx_routes (s : State) (c : Context) : (s.setCtx c).routes = s.routes := rfl
@[simp] theorem State.setCtx_allowance (s : State) (c : Context) : (s.setCtx c).allowance = s.allowance := rfl
@[simp] theorem State.setCtx_window (s : State) (c : Context) : (s.setCtx c).window = s.window := rfl
@[simp] theorem State.setCtx_unswept (s : State) (c : Context) : (s.setCtx c).unswept = s.unswept := rfl
@[simp] theorem State.setCtx_spare (s : State) (c : Context) : (s.setCtx c).spare = s.spare := rfl
@[simp] theorem State.setCtx_needy (s : State) (c : Context) : (s.setCtx c).needy = s.needy := rfl
@[simp] theorem State.setCtx_waking (s : State) (c : Context) : (s.setCtx c).waking = s.waking := rfl
@[simp] theorem State.setCtx_coreMHz (s : State) (c : Context) : (s.setCtx c).coreMHz = s.coreMHz := rfl
@[simp] theorem State.setCtx_mxLast (s : State) (c : Context) : (s.setCtx c).mxLast = s.mxLast := rfl
@[simp] theorem State.setCtx_served (s : State) (c : Context) : (s.setCtx c).served = s.served := rfl
@[simp] theorem State.setCtx_lastQueue (s : State) (c : Context) : (s.setCtx c).lastQueue = s.lastQueue := rfl
@[simp] theorem State.setCtx_outbox (s : State) (c : Context) : (s.setCtx c).outbox = s.outbox := rfl
@[simp] theorem State.setCtx_records (s : State) (c : Context) : (s.setCtx c).records = s.records := rfl
@[simp] theorem State.setCtx_lost (s : State) (c : Context) : (s.setCtx c).lost = s.lost := rfl
@[simp] theorem State.setCtx_time (s : State) (c : Context) : (s.setCtx c).time = s.time := rfl
@[simp] theorem State.setCtx_clock (s : State) (c : Context) : (s.setCtx c).clock = s.clock := rfl
@[simp] theorem State.setCtx_nextId (s : State) (c : Context) : (s.setCtx c).nextId = s.nextId := rfl
@[simp] theorem State.setCtx_freeIx (s : State) (c : Context) : (s.setCtx c).freeIx = s.freeIx := rfl
@[simp] theorem State.setCtx_choices (s : State) (c : Context) : (s.setCtx c).choices = s.choices := rfl
@[simp] theorem State.setCtx_ev (s : State) (c : Context) : (s.setCtx c).ev = s.ev := rfl
@[simp] theorem State.setCtx_agenda (s : State) (c : Context) : (s.setCtx c).agenda = s.agenda := rfl

/-! ### The coherent value of a byte -/

@[simp] theorem State.setBacking_grp (s : State) (k : Nat) (x : Byte) : (s.setBacking k x).grp = s.grp := by
  unfold State.setBacking; split <;> rfl
@[simp] theorem State.setBacking_others (s : State) (k : Nat) (x : Byte) : (s.setBacking k x).others = s.others := by
  unfold State.setBacking; split <;> rfl
@[simp] theorem State.setBacking_origins (s : State) (k : Nat) (x : Byte) : (s.setBacking k x).origins = s.origins := by
  unfold State.setBacking; split <;> rfl
@[simp] theorem State.setBacking_ahead (s : State) (k : Nat) (x : Byte) : (s.setBacking k x).ahead = s.ahead := by
  unfold State.setBacking; split <;> rfl
@[simp] theorem State.setBacking_l1 (s : State) (k : Nat) (x : Byte) : (s.setBacking k x).l1 = s.l1 := by
  unfold State.setBacking; split <;> rfl
@[simp] theorem State.setBacking_l2 (s : State) (k : Nat) (x : Byte) : (s.setBacking k x).l2 = s.l2 := by
  unfold State.setBacking; split <;> rfl
@[simp] theorem State.setBacking_msc (s : State) (k : Nat) (x : Byte) : (s.setBacking k x).msc = s.msc := by
  unfold State.setBacking; split <;> rfl
@[simp] theorem State.setBacking_tlb (s : State) (k : Nat) (x : Byte) : (s.setBacking k x).tlb = s.tlb := by
  unfold State.setBacking; split <;> rfl
@[simp] theorem State.setBacking_hostTlb (s : State) (k : Nat) (x : Byte) : (s.setBacking k x).hostTlb = s.hostTlb := by
  unfold State.setBacking; split <;> rfl
@[simp] theorem State.setBacking_ats (s : State) (k : Nat) (x : Byte) : (s.setBacking k x).ats = s.ats := by
  unfold State.setBacking; split <;> rfl
@[simp] theorem State.setBacking_invs (s : State) (k : Nat) (x : Byte) : (s.setBacking k x).invs = s.invs := by
  unfold State.setBacking; split <;> rfl
@[simp] theorem State.setBacking_prefs (s : State) (k : Nat) (x : Byte) : (s.setBacking k x).prefs = s.prefs := by
  unfold State.setBacking; split <;> rfl
@[simp] theorem State.setBacking_remote (s : State) (k : Nat) (x : Byte) : (s.setBacking k x).remote = s.remote := by
  unfold State.setBacking; split <;> rfl
@[simp] theorem State.setBacking_bands (s : State) (k : Nat) (x : Byte) : (s.setBacking k x).bands = s.bands := by
  unfold State.setBacking; split <;> rfl
@[simp] theorem State.setBacking_arrivals (s : State) (k : Nat) (x : Byte) : (s.setBacking k x).arrivals = s.arrivals := by
  unfold State.setBacking; split <;> rfl
@[simp] theorem State.setBacking_fields (s : State) (k : Nat) (x : Byte) : (s.setBacking k x).fields = s.fields := by
  unfold State.setBacking; split <;> rfl
@[simp] theorem State.setBacking_bundles (s : State) (k : Nat) (x : Byte) : (s.setBacking k x).bundles = s.bundles := by
  unfold State.setBacking; split <;> rfl
@[simp] theorem State.setBacking_queues (s : State) (k : Nat) (x : Byte) : (s.setBacking k x).queues = s.queues := by
  unfold State.setBacking; split <;> rfl
@[simp] theorem State.setBacking_ctxs (s : State) (k : Nat) (x : Byte) : (s.setBacking k x).ctxs = s.ctxs := by
  unfold State.setBacking; split <;> rfl
@[simp] theorem State.setBacking_boards (s : State) (k : Nat) (x : Byte) : (s.setBacking k x).boards = s.boards := by
  unfold State.setBacking; split <;> rfl
@[simp] theorem State.setBacking_copies (s : State) (k : Nat) (x : Byte) : (s.setBacking k x).copies = s.copies := by
  unfold State.setBacking; split <;> rfl
@[simp] theorem State.setBacking_tokens (s : State) (k : Nat) (x : Byte) : (s.setBacking k x).tokens = s.tokens := by
  unfold State.setBacking; split <;> rfl
@[simp] theorem State.setBacking_regs (s : State) (k : Nat) (x : Byte) : (s.setBacking k x).regs = s.regs := by
  unfold State.setBacking; split <;> rfl
@[simp] theorem State.setBacking_fns (s : State) (k : Nat) (x : Byte) : (s.setBacking k x).fns = s.fns := by
  unfold State.setBacking; split <;> rfl
@[simp] theorem State.setBacking_built (s : State) (k : Nat) (x : Byte) : (s.setBacking k x).built = s.built := by
  unfold State.setBacking; split <;> rfl
@[simp] theorem State.setBacking_made (s : State) (k : Nat) (x : Byte) : (s.setBacking k x).made = s.made := by
  unfold State.setBacking; split <;> rfl
@[simp] theorem State.setBacking_posts (s : State) (k : Nat) (x : Byte) : (s.setBacking k x).posts = s.posts := by
  unfold State.setBacking; split <;> rfl
@[simp] theorem State.setBacking_windows (s : State) (k : Nat) (x : Byte) : (s.setBacking k x).windows = s.windows := by
  unfold State.setBacking; split <;> rfl
@[simp] theorem State.setBacking_routes (s : State) (k : Nat) (x : Byte) : (s.setBacking k x).routes = s.routes := by
  unfold State.setBacking; split <;> rfl
@[simp] theorem State.setBacking_allowance (s : State) (k : Nat) (x : Byte) : (s.setBacking k x).allowance = s.allowance := by
  unfold State.setBacking; split <;> rfl
@[simp] theorem State.setBacking_window (s : State) (k : Nat) (x : Byte) : (s.setBacking k x).window = s.window := by
  unfold State.setBacking; split <;> rfl
@[simp] theorem State.setBacking_unswept (s : State) (k : Nat) (x : Byte) : (s.setBacking k x).unswept = s.unswept := by
  unfold State.setBacking; split <;> rfl
@[simp] theorem State.setBacking_spare (s : State) (k : Nat) (x : Byte) : (s.setBacking k x).spare = s.spare := by
  unfold State.setBacking; split <;> rfl
@[simp] theorem State.setBacking_needy (s : State) (k : Nat) (x : Byte) : (s.setBacking k x).needy = s.needy := by
  unfold State.setBacking; split <;> rfl
@[simp] theorem State.setBacking_waking (s : State) (k : Nat) (x : Byte) : (s.setBacking k x).waking = s.waking := by
  unfold State.setBacking; split <;> rfl
@[simp] theorem State.setBacking_coreMHz (s : State) (k : Nat) (x : Byte) : (s.setBacking k x).coreMHz = s.coreMHz := by
  unfold State.setBacking; split <;> rfl
@[simp] theorem State.setBacking_mxLast (s : State) (k : Nat) (x : Byte) : (s.setBacking k x).mxLast = s.mxLast := by
  unfold State.setBacking; split <;> rfl
@[simp] theorem State.setBacking_served (s : State) (k : Nat) (x : Byte) : (s.setBacking k x).served = s.served := by
  unfold State.setBacking; split <;> rfl
@[simp] theorem State.setBacking_lastQueue (s : State) (k : Nat) (x : Byte) : (s.setBacking k x).lastQueue = s.lastQueue := by
  unfold State.setBacking; split <;> rfl
@[simp] theorem State.setBacking_outbox (s : State) (k : Nat) (x : Byte) : (s.setBacking k x).outbox = s.outbox := by
  unfold State.setBacking; split <;> rfl
@[simp] theorem State.setBacking_records (s : State) (k : Nat) (x : Byte) : (s.setBacking k x).records = s.records := by
  unfold State.setBacking; split <;> rfl
@[simp] theorem State.setBacking_lost (s : State) (k : Nat) (x : Byte) : (s.setBacking k x).lost = s.lost := by
  unfold State.setBacking; split <;> rfl
@[simp] theorem State.setBacking_time (s : State) (k : Nat) (x : Byte) : (s.setBacking k x).time = s.time := by
  unfold State.setBacking; split <;> rfl
@[simp] theorem State.setBacking_clock (s : State) (k : Nat) (x : Byte) : (s.setBacking k x).clock = s.clock := by
  unfold State.setBacking; split <;> rfl
@[simp] theorem State.setBacking_nextId (s : State) (k : Nat) (x : Byte) : (s.setBacking k x).nextId = s.nextId := by
  unfold State.setBacking; split <;> rfl
@[simp] theorem State.setBacking_freeIx (s : State) (k : Nat) (x : Byte) : (s.setBacking k x).freeIx = s.freeIx := by
  unfold State.setBacking; split <;> rfl
@[simp] theorem State.setBacking_choices (s : State) (k : Nat) (x : Byte) : (s.setBacking k x).choices = s.choices := by
  unfold State.setBacking; split <;> rfl
@[simp] theorem State.setBacking_ev (s : State) (k : Nat) (x : Byte) : (s.setBacking k x).ev = s.ev := by
  unfold State.setBacking; split <;> rfl
@[simp] theorem State.setBacking_agenda (s : State) (k : Nat) (x : Byte) : (s.setBacking k x).agenda = s.agenda := by
  unfold State.setBacking; split <;> rfl

/-! ### Writes of the registers of a group -/

@[simp] theorem Group.ws_id (g : Group) (n : BitVec 6) (x : Word) : (g.ws n x).id = g.id := by
  unfold Group.ws; split <;> rfl
@[simp] theorem Group.ws_vreg (g : Group) (n : BitVec 6) (x : Word) : (g.ws n x).vreg = g.vreg := by
  unfold Group.ws; split <;> rfl
@[simp] theorem Group.ws_gen (g : Group) (n : BitVec 6) (x : Word) : (g.ws n x).gen = g.gen := by
  unfold Group.ws; split <;> rfl
@[simp] theorem Group.ws_fpcr (g : Group) (n : BitVec 6) (x : Word) : (g.ws n x).fpcr = g.fpcr := by
  unfold Group.ws; split <;> rfl
@[simp] theorem Group.ws_fpsr (g : Group) (n : BitVec 6) (x : Word) : (g.ws n x).fpsr = g.fpsr := by
  unfold Group.ws; split <;> rfl
@[simp] theorem Group.ws_mdef (g : Group) (n : BitVec 6) (x : Word) : (g.ws n x).mdef = g.mdef := by
  unfold Group.ws; split <;> rfl
@[simp] theorem Group.ws_pc (g : Group) (n : BitVec 6) (x : Word) : (g.ws n x).pc = g.pc := by
  unfold Group.ws; split <;> rfl
@[simp] theorem Group.ws_blockHdr (g : Group) (n : BitVec 6) (x : Word) : (g.ws n x).blockHdr = g.blockHdr := by
  unfold Group.ws; split <;> rfl
@[simp] theorem Group.ws_blockEnd (g : Group) (n : BitVec 6) (x : Word) : (g.ws n x).blockEnd = g.blockEnd := by
  unfold Group.ws; split <;> rfl
@[simp] theorem Group.ws_depth (g : Group) (n : BitVec 6) (x : Word) : (g.ws n x).depth = g.depth := by
  unfold Group.ws; split <;> rfl
@[simp] theorem Group.ws_start (g : Group) (n : BitVec 6) (x : Word) : (g.ws n x).start = g.start := by
  unfold Group.ws; split <;> rfl
@[simp] theorem Group.ws_exit (g : Group) (n : BitVec 6) (x : Word) : (g.ws n x).exit = g.exit := by
  unfold Group.ws; split <;> rfl
@[simp] theorem Group.ws_lc (g : Group) (n : BitVec 6) (x : Word) : (g.ws n x).lc = g.lc := by
  unfold Group.ws; split <;> rfl
@[simp] theorem Group.ws_latch (g : Group) (n : BitVec 6) (x : Word) : (g.ws n x).latch = g.latch := by
  unfold Group.ws; split <;> rfl
@[simp] theorem Group.ws_trapBlockEnd (g : Group) (n : BitVec 6) (x : Word) : (g.ws n x).trapBlockEnd = g.trapBlockEnd := by
  unfold Group.ws; split <;> rfl
@[simp] theorem Group.ws_trapHdr (g : Group) (n : BitVec 6) (x : Word) : (g.ws n x).trapHdr = g.trapHdr := by
  unfold Group.ws; split <;> rfl
@[simp] theorem Group.ws_trapv (g : Group) (n : BitVec 6) (x : Word) : (g.ws n x).trapv = g.trapv := by
  unfold Group.ws; split <;> rfl
@[simp] theorem Group.ws_trapc (g : Group) (n : BitVec 6) (x : Word) : (g.ws n x).trapc = g.trapc := by
  unfold Group.ws; split <;> rfl
@[simp] theorem Group.ws_trappc (g : Group) (n : BitVec 6) (x : Word) : (g.ws n x).trappc = g.trappc := by
  unfold Group.ws; split <;> rfl
@[simp] theorem Group.ws_trappcRec (g : Group) (n : BitVec 6) (x : Word) : (g.ws n x).trappcRec = g.trappcRec := by
  unfold Group.ws; split <;> rfl
@[simp] theorem Group.ws_trapa (g : Group) (n : BitVec 6) (x : Word) : (g.ws n x).trapa = g.trapa := by
  unfold Group.ws; split <;> rfl
@[simp] theorem Group.ws_wdcfg (g : Group) (n : BitVec 6) (x : Word) : (g.ws n x).wdcfg = g.wdcfg := by
  unfold Group.ws; split <;> rfl
@[simp] theorem Group.ws_zreg (g : Group) (n : BitVec 6) (x : Word) : (g.ws n x).zreg = g.zreg := by
  unfold Group.ws; split <;> rfl
@[simp] theorem Group.ws_view (g : Group) (n : BitVec 6) (x : Word) : (g.ws n x).view = g.view := by
  unfold Group.ws; split <;> rfl
@[simp] theorem Group.ws_queues (g : Group) (n : BitVec 6) (x : Word) : (g.ws n x).queues = g.queues := by
  unfold Group.ws; split <;> rfl
@[simp] theorem Group.ws_copyTag (g : Group) (n : BitVec 6) (x : Word) : (g.ws n x).copyTag = g.copyTag := by
  unfold Group.ws; split <;> rfl
@[simp] theorem Group.ws_mxTag (g : Group) (n : BitVec 6) (x : Word) : (g.ws n x).mxTag = g.mxTag := by
  unfold Group.ws; split <;> rfl
@[simp] theorem Group.ws_arrived (g : Group) (n : BitVec 6) (x : Word) : (g.ws n x).arrived = g.arrived := by
  unfold Group.ws; split <;> rfl
@[simp] theorem Group.ws_tiles (g : Group) (n : BitVec 6) (x : Word) : (g.ws n x).tiles = g.tiles := by
  unfold Group.ws; split <;> rfl
@[simp] theorem Group.ws_mxq (g : Group) (n : BitVec 6) (x : Word) : (g.ws n x).mxq = g.mxq := by
  unfold Group.ws; split <;> rfl
@[simp] theorem Group.ws_chanOpen (g : Group) (n : BitVec 6) (x : Word) : (g.ws n x).chanOpen = g.chanOpen := by
  unfold Group.ws; split <;> rfl
@[simp] theorem Group.ws_relq (g : Group) (n : BitVec 6) (x : Word) : (g.ws n x).relq = g.relq := by
  unfold Group.ws; split <;> rfl
@[simp] theorem Group.ws_loopBuf (g : Group) (n : BitVec 6) (x : Word) : (g.ws n x).loopBuf = g.loopBuf := by
  unfold Group.ws; split <;> rfl
@[simp] theorem Group.ws_recruit (g : Group) (n : BitVec 6) (x : Word) : (g.ws n x).recruit = g.recruit := by
  unfold Group.ws; split <;> rfl
@[simp] theorem Group.ws_helper (g : Group) (n : BitVec 6) (x : Word) : (g.ws n x).helper = g.helper := by
  unfold Group.ws; split <;> rfl
@[simp] theorem Group.ws_region (g : Group) (n : BitVec 6) (x : Word) : (g.ws n x).region = g.region := by
  unfold Group.ws; split <;> rfl
@[simp] theorem Group.ws_rgnRst (g : Group) (n : BitVec 6) (x : Word) : (g.ws n x).rgnRst = g.rgnRst := by
  unfold Group.ws; split <;> rfl
@[simp] theorem Group.ws_reopens (g : Group) (n : BitVec 6) (x : Word) : (g.ws n x).reopens = g.reopens := by
  unfold Group.ws; split <;> rfl
@[simp] theorem Group.ws_ccnt (g : Group) (n : BitVec 6) (x : Word) : (g.ws n x).ccnt = g.ccnt := by
  unfold Group.ws; split <;> rfl
@[simp] theorem Group.ws_retired (g : Group) (n : BitVec 6) (x : Word) : (g.ws n x).retired = g.retired := by
  unfold Group.ws; split <;> rfl
@[simp] theorem Group.ws_readyCc (g : Group) (n : BitVec 6) (x : Word) : (g.ws n x).readyCc = g.readyCc := by
  unfold Group.ws; split <;> rfl
@[simp] theorem Group.ws_acqLoad (g : Group) (n : BitVec 6) (x : Word) : (g.ws n x).acqLoad = g.acqLoad := by
  unfold Group.ws; split <;> rfl
@[simp] theorem Group.ws_l1Misses (g : Group) (n : BitVec 6) (x : Word) : (g.ws n x).l1Misses = g.l1Misses := by
  unfold Group.ws; split <;> rfl
@[simp] theorem Group.ws_movedBytes (g : Group) (n : BitVec 6) (x : Word) : (g.ws n x).movedBytes = g.movedBytes := by
  unfold Group.ws; split <;> rfl
@[simp] theorem Group.ws_progress (g : Group) (n : BitVec 6) (x : Word) : (g.ws n x).progress = g.progress := by
  unfold Group.ws; split <;> rfl
@[simp] theorem Group.ws_unchosen (g : Group) (n : BitVec 6) (x : Word) : (g.ws n x).unchosen = g.unchosen := by
  unfold Group.ws; split <;> rfl
@[simp] theorem Group.ws_raised (g : Group) (n : BitVec 6) (x : Word) : (g.ws n x).raised = g.raised := by
  unfold Group.ws; split <;> rfl
@[simp] theorem Group.ws_stalled (g : Group) (n : BitVec 6) (x : Word) : (g.ws n x).stalled = g.stalled := by
  unfold Group.ws; split <;> rfl
@[simp] theorem Group.ws_drowsy (g : Group) (n : BitVec 6) (x : Word) : (g.ws n x).drowsy = g.drowsy := by
  unfold Group.ws; split <;> rfl
@[simp] theorem Group.ws_slot (g : Group) (n : BitVec 6) (x : Word) : (g.ws n x).slot = g.slot := by
  unfold Group.ws; split <;> rfl
@[simp] theorem Group.ws_slotBytes (g : Group) (n : BitVec 6) (x : Word) : (g.ws n x).slotBytes = g.slotBytes := by
  unfold Group.ws; split <;> rfl
@[simp] theorem Group.ws_preempt (g : Group) (n : BitVec 6) (x : Word) : (g.ws n x).preempt = g.preempt := by
  unfold Group.ws; split <;> rfl
@[simp] theorem Group.ws_status (g : Group) (n : BitVec 6) (x : Word) : (g.ws n x).status = g.status := by
  unfold Group.ws; split <;> rfl
@[simp] theorem Group.ws_remoteGot (g : Group) (n : BitVec 6) (x : Word) : (g.ws n x).remoteGot = g.remoteGot := by
  unfold Group.ws; split <;> rfl
@[simp] theorem Group.ws_denied (g : Group) (n : BitVec 6) (x : Word) : (g.ws n x).denied = g.denied := by
  unfold Group.ws; split <;> rfl
@[simp] theorem Group.ws_bankIds (g : Group) (n : BitVec 6) (x : Word) : (g.ws n x).bankIds = g.bankIds := by
  unfold Group.ws; split <;> rfl
@[simp] theorem Group.wp_id (g : Group) (n : BitVec 6) (x : DWord) : (g.wp n x).id = g.id := by
  unfold Group.wp; split <;> simp
@[simp] theorem Group.wp_vreg (g : Group) (n : BitVec 6) (x : DWord) : (g.wp n x).vreg = g.vreg := by
  unfold Group.wp; split <;> simp
@[simp] theorem Group.wp_gen (g : Group) (n : BitVec 6) (x : DWord) : (g.wp n x).gen = g.gen := by
  unfold Group.wp; split <;> simp
@[simp] theorem Group.wp_fpcr (g : Group) (n : BitVec 6) (x : DWord) : (g.wp n x).fpcr = g.fpcr := by
  unfold Group.wp; split <;> simp
@[simp] theorem Group.wp_fpsr (g : Group) (n : BitVec 6) (x : DWord) : (g.wp n x).fpsr = g.fpsr := by
  unfold Group.wp; split <;> simp
@[simp] theorem Group.wp_mdef (g : Group) (n : BitVec 6) (x : DWord) : (g.wp n x).mdef = g.mdef := by
  unfold Group.wp; split <;> simp
@[simp] theorem Group.wp_pc (g : Group) (n : BitVec 6) (x : DWord) : (g.wp n x).pc = g.pc := by
  unfold Group.wp; split <;> simp
@[simp] theorem Group.wp_blockHdr (g : Group) (n : BitVec 6) (x : DWord) : (g.wp n x).blockHdr = g.blockHdr := by
  unfold Group.wp; split <;> simp
@[simp] theorem Group.wp_blockEnd (g : Group) (n : BitVec 6) (x : DWord) : (g.wp n x).blockEnd = g.blockEnd := by
  unfold Group.wp; split <;> simp
@[simp] theorem Group.wp_depth (g : Group) (n : BitVec 6) (x : DWord) : (g.wp n x).depth = g.depth := by
  unfold Group.wp; split <;> simp
@[simp] theorem Group.wp_start (g : Group) (n : BitVec 6) (x : DWord) : (g.wp n x).start = g.start := by
  unfold Group.wp; split <;> simp
@[simp] theorem Group.wp_exit (g : Group) (n : BitVec 6) (x : DWord) : (g.wp n x).exit = g.exit := by
  unfold Group.wp; split <;> simp
@[simp] theorem Group.wp_lc (g : Group) (n : BitVec 6) (x : DWord) : (g.wp n x).lc = g.lc := by
  unfold Group.wp; split <;> simp
@[simp] theorem Group.wp_latch (g : Group) (n : BitVec 6) (x : DWord) : (g.wp n x).latch = g.latch := by
  unfold Group.wp; split <;> simp
@[simp] theorem Group.wp_trapBlockEnd (g : Group) (n : BitVec 6) (x : DWord) : (g.wp n x).trapBlockEnd = g.trapBlockEnd := by
  unfold Group.wp; split <;> simp
@[simp] theorem Group.wp_trapHdr (g : Group) (n : BitVec 6) (x : DWord) : (g.wp n x).trapHdr = g.trapHdr := by
  unfold Group.wp; split <;> simp
@[simp] theorem Group.wp_trapv (g : Group) (n : BitVec 6) (x : DWord) : (g.wp n x).trapv = g.trapv := by
  unfold Group.wp; split <;> simp
@[simp] theorem Group.wp_trapc (g : Group) (n : BitVec 6) (x : DWord) : (g.wp n x).trapc = g.trapc := by
  unfold Group.wp; split <;> simp
@[simp] theorem Group.wp_trappc (g : Group) (n : BitVec 6) (x : DWord) : (g.wp n x).trappc = g.trappc := by
  unfold Group.wp; split <;> simp
@[simp] theorem Group.wp_trappcRec (g : Group) (n : BitVec 6) (x : DWord) : (g.wp n x).trappcRec = g.trappcRec := by
  unfold Group.wp; split <;> simp
@[simp] theorem Group.wp_trapa (g : Group) (n : BitVec 6) (x : DWord) : (g.wp n x).trapa = g.trapa := by
  unfold Group.wp; split <;> simp
@[simp] theorem Group.wp_wdcfg (g : Group) (n : BitVec 6) (x : DWord) : (g.wp n x).wdcfg = g.wdcfg := by
  unfold Group.wp; split <;> simp
@[simp] theorem Group.wp_zreg (g : Group) (n : BitVec 6) (x : DWord) : (g.wp n x).zreg = g.zreg := by
  unfold Group.wp; split <;> simp
@[simp] theorem Group.wp_view (g : Group) (n : BitVec 6) (x : DWord) : (g.wp n x).view = g.view := by
  unfold Group.wp; split <;> simp
@[simp] theorem Group.wp_queues (g : Group) (n : BitVec 6) (x : DWord) : (g.wp n x).queues = g.queues := by
  unfold Group.wp; split <;> simp
@[simp] theorem Group.wp_copyTag (g : Group) (n : BitVec 6) (x : DWord) : (g.wp n x).copyTag = g.copyTag := by
  unfold Group.wp; split <;> simp
@[simp] theorem Group.wp_mxTag (g : Group) (n : BitVec 6) (x : DWord) : (g.wp n x).mxTag = g.mxTag := by
  unfold Group.wp; split <;> simp
@[simp] theorem Group.wp_arrived (g : Group) (n : BitVec 6) (x : DWord) : (g.wp n x).arrived = g.arrived := by
  unfold Group.wp; split <;> simp
@[simp] theorem Group.wp_tiles (g : Group) (n : BitVec 6) (x : DWord) : (g.wp n x).tiles = g.tiles := by
  unfold Group.wp; split <;> simp
@[simp] theorem Group.wp_mxq (g : Group) (n : BitVec 6) (x : DWord) : (g.wp n x).mxq = g.mxq := by
  unfold Group.wp; split <;> simp
@[simp] theorem Group.wp_chanOpen (g : Group) (n : BitVec 6) (x : DWord) : (g.wp n x).chanOpen = g.chanOpen := by
  unfold Group.wp; split <;> simp
@[simp] theorem Group.wp_relq (g : Group) (n : BitVec 6) (x : DWord) : (g.wp n x).relq = g.relq := by
  unfold Group.wp; split <;> simp
@[simp] theorem Group.wp_loopBuf (g : Group) (n : BitVec 6) (x : DWord) : (g.wp n x).loopBuf = g.loopBuf := by
  unfold Group.wp; split <;> simp
@[simp] theorem Group.wp_recruit (g : Group) (n : BitVec 6) (x : DWord) : (g.wp n x).recruit = g.recruit := by
  unfold Group.wp; split <;> simp
@[simp] theorem Group.wp_helper (g : Group) (n : BitVec 6) (x : DWord) : (g.wp n x).helper = g.helper := by
  unfold Group.wp; split <;> simp
@[simp] theorem Group.wp_region (g : Group) (n : BitVec 6) (x : DWord) : (g.wp n x).region = g.region := by
  unfold Group.wp; split <;> simp
@[simp] theorem Group.wp_rgnRst (g : Group) (n : BitVec 6) (x : DWord) : (g.wp n x).rgnRst = g.rgnRst := by
  unfold Group.wp; split <;> simp
@[simp] theorem Group.wp_reopens (g : Group) (n : BitVec 6) (x : DWord) : (g.wp n x).reopens = g.reopens := by
  unfold Group.wp; split <;> simp
@[simp] theorem Group.wp_ccnt (g : Group) (n : BitVec 6) (x : DWord) : (g.wp n x).ccnt = g.ccnt := by
  unfold Group.wp; split <;> simp
@[simp] theorem Group.wp_retired (g : Group) (n : BitVec 6) (x : DWord) : (g.wp n x).retired = g.retired := by
  unfold Group.wp; split <;> simp
@[simp] theorem Group.wp_readyCc (g : Group) (n : BitVec 6) (x : DWord) : (g.wp n x).readyCc = g.readyCc := by
  unfold Group.wp; split <;> simp
@[simp] theorem Group.wp_acqLoad (g : Group) (n : BitVec 6) (x : DWord) : (g.wp n x).acqLoad = g.acqLoad := by
  unfold Group.wp; split <;> simp
@[simp] theorem Group.wp_l1Misses (g : Group) (n : BitVec 6) (x : DWord) : (g.wp n x).l1Misses = g.l1Misses := by
  unfold Group.wp; split <;> simp
@[simp] theorem Group.wp_movedBytes (g : Group) (n : BitVec 6) (x : DWord) : (g.wp n x).movedBytes = g.movedBytes := by
  unfold Group.wp; split <;> simp
@[simp] theorem Group.wp_progress (g : Group) (n : BitVec 6) (x : DWord) : (g.wp n x).progress = g.progress := by
  unfold Group.wp; split <;> simp
@[simp] theorem Group.wp_unchosen (g : Group) (n : BitVec 6) (x : DWord) : (g.wp n x).unchosen = g.unchosen := by
  unfold Group.wp; split <;> simp
@[simp] theorem Group.wp_raised (g : Group) (n : BitVec 6) (x : DWord) : (g.wp n x).raised = g.raised := by
  unfold Group.wp; split <;> simp
@[simp] theorem Group.wp_stalled (g : Group) (n : BitVec 6) (x : DWord) : (g.wp n x).stalled = g.stalled := by
  unfold Group.wp; split <;> simp
@[simp] theorem Group.wp_drowsy (g : Group) (n : BitVec 6) (x : DWord) : (g.wp n x).drowsy = g.drowsy := by
  unfold Group.wp; split <;> simp
@[simp] theorem Group.wp_slot (g : Group) (n : BitVec 6) (x : DWord) : (g.wp n x).slot = g.slot := by
  unfold Group.wp; split <;> simp
@[simp] theorem Group.wp_slotBytes (g : Group) (n : BitVec 6) (x : DWord) : (g.wp n x).slotBytes = g.slotBytes := by
  unfold Group.wp; split <;> simp
@[simp] theorem Group.wp_preempt (g : Group) (n : BitVec 6) (x : DWord) : (g.wp n x).preempt = g.preempt := by
  unfold Group.wp; split <;> simp
@[simp] theorem Group.wp_status (g : Group) (n : BitVec 6) (x : DWord) : (g.wp n x).status = g.status := by
  unfold Group.wp; split <;> simp
@[simp] theorem Group.wp_remoteGot (g : Group) (n : BitVec 6) (x : DWord) : (g.wp n x).remoteGot = g.remoteGot := by
  unfold Group.wp; split <;> simp
@[simp] theorem Group.wp_denied (g : Group) (n : BitVec 6) (x : DWord) : (g.wp n x).denied = g.denied := by
  unfold Group.wp; split <;> simp
@[simp] theorem Group.wp_bankIds (g : Group) (n : BitVec 6) (x : DWord) : (g.wp n x).bankIds = g.bankIds := by
  unfold Group.wp; split <;> simp
@[simp] theorem Group.setRaw_id (g : Group) (b : BitVec 6) (m : LaneSet) : (g.setRaw b m).id = g.id := by
  simp [Group.setRaw]
@[simp] theorem Group.setRaw_vreg (g : Group) (b : BitVec 6) (m : LaneSet) : (g.setRaw b m).vreg = g.vreg := by
  simp [Group.setRaw]
@[simp] theorem Group.setRaw_gen (g : Group) (b : BitVec 6) (m : LaneSet) : (g.setRaw b m).gen = g.gen := by
  simp [Group.setRaw]
@[simp] theorem Group.setRaw_fpcr (g : Group) (b : BitVec 6) (m : LaneSet) : (g.setRaw b m).fpcr = g.fpcr := by
  simp [Group.setRaw]
@[simp] theorem Group.setRaw_fpsr (g : Group) (b : BitVec 6) (m : LaneSet) : (g.setRaw b m).fpsr = g.fpsr := by
  simp [Group.setRaw]
@[simp] theorem Group.setRaw_mdef (g : Group) (b : BitVec 6) (m : LaneSet) : (g.setRaw b m).mdef = g.mdef := by
  simp [Group.setRaw]
@[simp] theorem Group.setRaw_pc (g : Group) (b : BitVec 6) (m : LaneSet) : (g.setRaw b m).pc = g.pc := by
  simp [Group.setRaw]
@[simp] theorem Group.setRaw_blockHdr (g : Group) (b : BitVec 6) (m : LaneSet) : (g.setRaw b m).blockHdr = g.blockHdr := by
  simp [Group.setRaw]
@[simp] theorem Group.setRaw_blockEnd (g : Group) (b : BitVec 6) (m : LaneSet) : (g.setRaw b m).blockEnd = g.blockEnd := by
  simp [Group.setRaw]
@[simp] theorem Group.setRaw_depth (g : Group) (b : BitVec 6) (m : LaneSet) : (g.setRaw b m).depth = g.depth := by
  simp [Group.setRaw]
@[simp] theorem Group.setRaw_start (g : Group) (b : BitVec 6) (m : LaneSet) : (g.setRaw b m).start = g.start := by
  simp [Group.setRaw]
@[simp] theorem Group.setRaw_exit (g : Group) (b : BitVec 6) (m : LaneSet) : (g.setRaw b m).exit = g.exit := by
  simp [Group.setRaw]
@[simp] theorem Group.setRaw_lc (g : Group) (b : BitVec 6) (m : LaneSet) : (g.setRaw b m).lc = g.lc := by
  simp [Group.setRaw]
@[simp] theorem Group.setRaw_latch (g : Group) (b : BitVec 6) (m : LaneSet) : (g.setRaw b m).latch = g.latch := by
  simp [Group.setRaw]
@[simp] theorem Group.setRaw_trapBlockEnd (g : Group) (b : BitVec 6) (m : LaneSet) : (g.setRaw b m).trapBlockEnd = g.trapBlockEnd := by
  simp [Group.setRaw]
@[simp] theorem Group.setRaw_trapHdr (g : Group) (b : BitVec 6) (m : LaneSet) : (g.setRaw b m).trapHdr = g.trapHdr := by
  simp [Group.setRaw]
@[simp] theorem Group.setRaw_trapv (g : Group) (b : BitVec 6) (m : LaneSet) : (g.setRaw b m).trapv = g.trapv := by
  simp [Group.setRaw]
@[simp] theorem Group.setRaw_trapc (g : Group) (b : BitVec 6) (m : LaneSet) : (g.setRaw b m).trapc = g.trapc := by
  simp [Group.setRaw]
@[simp] theorem Group.setRaw_trappc (g : Group) (b : BitVec 6) (m : LaneSet) : (g.setRaw b m).trappc = g.trappc := by
  simp [Group.setRaw]
@[simp] theorem Group.setRaw_trappcRec (g : Group) (b : BitVec 6) (m : LaneSet) : (g.setRaw b m).trappcRec = g.trappcRec := by
  simp [Group.setRaw]
@[simp] theorem Group.setRaw_trapa (g : Group) (b : BitVec 6) (m : LaneSet) : (g.setRaw b m).trapa = g.trapa := by
  simp [Group.setRaw]
@[simp] theorem Group.setRaw_wdcfg (g : Group) (b : BitVec 6) (m : LaneSet) : (g.setRaw b m).wdcfg = g.wdcfg := by
  simp [Group.setRaw]
@[simp] theorem Group.setRaw_zreg (g : Group) (b : BitVec 6) (m : LaneSet) : (g.setRaw b m).zreg = g.zreg := by
  simp [Group.setRaw]
@[simp] theorem Group.setRaw_view (g : Group) (b : BitVec 6) (m : LaneSet) : (g.setRaw b m).view = g.view := by
  simp [Group.setRaw]
@[simp] theorem Group.setRaw_queues (g : Group) (b : BitVec 6) (m : LaneSet) : (g.setRaw b m).queues = g.queues := by
  simp [Group.setRaw]
@[simp] theorem Group.setRaw_copyTag (g : Group) (b : BitVec 6) (m : LaneSet) : (g.setRaw b m).copyTag = g.copyTag := by
  simp [Group.setRaw]
@[simp] theorem Group.setRaw_mxTag (g : Group) (b : BitVec 6) (m : LaneSet) : (g.setRaw b m).mxTag = g.mxTag := by
  simp [Group.setRaw]
@[simp] theorem Group.setRaw_arrived (g : Group) (b : BitVec 6) (m : LaneSet) : (g.setRaw b m).arrived = g.arrived := by
  simp [Group.setRaw]
@[simp] theorem Group.setRaw_tiles (g : Group) (b : BitVec 6) (m : LaneSet) : (g.setRaw b m).tiles = g.tiles := by
  simp [Group.setRaw]
@[simp] theorem Group.setRaw_mxq (g : Group) (b : BitVec 6) (m : LaneSet) : (g.setRaw b m).mxq = g.mxq := by
  simp [Group.setRaw]
@[simp] theorem Group.setRaw_chanOpen (g : Group) (b : BitVec 6) (m : LaneSet) : (g.setRaw b m).chanOpen = g.chanOpen := by
  simp [Group.setRaw]
@[simp] theorem Group.setRaw_relq (g : Group) (b : BitVec 6) (m : LaneSet) : (g.setRaw b m).relq = g.relq := by
  simp [Group.setRaw]
@[simp] theorem Group.setRaw_loopBuf (g : Group) (b : BitVec 6) (m : LaneSet) : (g.setRaw b m).loopBuf = g.loopBuf := by
  simp [Group.setRaw]
@[simp] theorem Group.setRaw_recruit (g : Group) (b : BitVec 6) (m : LaneSet) : (g.setRaw b m).recruit = g.recruit := by
  simp [Group.setRaw]
@[simp] theorem Group.setRaw_helper (g : Group) (b : BitVec 6) (m : LaneSet) : (g.setRaw b m).helper = g.helper := by
  simp [Group.setRaw]
@[simp] theorem Group.setRaw_region (g : Group) (b : BitVec 6) (m : LaneSet) : (g.setRaw b m).region = g.region := by
  simp [Group.setRaw]
@[simp] theorem Group.setRaw_rgnRst (g : Group) (b : BitVec 6) (m : LaneSet) : (g.setRaw b m).rgnRst = g.rgnRst := by
  simp [Group.setRaw]
@[simp] theorem Group.setRaw_reopens (g : Group) (b : BitVec 6) (m : LaneSet) : (g.setRaw b m).reopens = g.reopens := by
  simp [Group.setRaw]
@[simp] theorem Group.setRaw_ccnt (g : Group) (b : BitVec 6) (m : LaneSet) : (g.setRaw b m).ccnt = g.ccnt := by
  simp [Group.setRaw]
@[simp] theorem Group.setRaw_retired (g : Group) (b : BitVec 6) (m : LaneSet) : (g.setRaw b m).retired = g.retired := by
  simp [Group.setRaw]
@[simp] theorem Group.setRaw_readyCc (g : Group) (b : BitVec 6) (m : LaneSet) : (g.setRaw b m).readyCc = g.readyCc := by
  simp [Group.setRaw]
@[simp] theorem Group.setRaw_acqLoad (g : Group) (b : BitVec 6) (m : LaneSet) : (g.setRaw b m).acqLoad = g.acqLoad := by
  simp [Group.setRaw]
@[simp] theorem Group.setRaw_l1Misses (g : Group) (b : BitVec 6) (m : LaneSet) : (g.setRaw b m).l1Misses = g.l1Misses := by
  simp [Group.setRaw]
@[simp] theorem Group.setRaw_movedBytes (g : Group) (b : BitVec 6) (m : LaneSet) : (g.setRaw b m).movedBytes = g.movedBytes := by
  simp [Group.setRaw]
@[simp] theorem Group.setRaw_progress (g : Group) (b : BitVec 6) (m : LaneSet) : (g.setRaw b m).progress = g.progress := by
  simp [Group.setRaw]
@[simp] theorem Group.setRaw_unchosen (g : Group) (b : BitVec 6) (m : LaneSet) : (g.setRaw b m).unchosen = g.unchosen := by
  simp [Group.setRaw]
@[simp] theorem Group.setRaw_raised (g : Group) (b : BitVec 6) (m : LaneSet) : (g.setRaw b m).raised = g.raised := by
  simp [Group.setRaw]
@[simp] theorem Group.setRaw_stalled (g : Group) (b : BitVec 6) (m : LaneSet) : (g.setRaw b m).stalled = g.stalled := by
  simp [Group.setRaw]
@[simp] theorem Group.setRaw_drowsy (g : Group) (b : BitVec 6) (m : LaneSet) : (g.setRaw b m).drowsy = g.drowsy := by
  simp [Group.setRaw]
@[simp] theorem Group.setRaw_slot (g : Group) (b : BitVec 6) (m : LaneSet) : (g.setRaw b m).slot = g.slot := by
  simp [Group.setRaw]
@[simp] theorem Group.setRaw_slotBytes (g : Group) (b : BitVec 6) (m : LaneSet) : (g.setRaw b m).slotBytes = g.slotBytes := by
  simp [Group.setRaw]
@[simp] theorem Group.setRaw_preempt (g : Group) (b : BitVec 6) (m : LaneSet) : (g.setRaw b m).preempt = g.preempt := by
  simp [Group.setRaw]
@[simp] theorem Group.setRaw_status (g : Group) (b : BitVec 6) (m : LaneSet) : (g.setRaw b m).status = g.status := by
  simp [Group.setRaw]
@[simp] theorem Group.setRaw_remoteGot (g : Group) (b : BitVec 6) (m : LaneSet) : (g.setRaw b m).remoteGot = g.remoteGot := by
  simp [Group.setRaw]
@[simp] theorem Group.setRaw_denied (g : Group) (b : BitVec 6) (m : LaneSet) : (g.setRaw b m).denied = g.denied := by
  simp [Group.setRaw]
@[simp] theorem Group.setRaw_bankIds (g : Group) (b : BitVec 6) (m : LaneSet) : (g.setRaw b m).bankIds = g.bankIds := by
  simp [Group.setRaw]
@[simp] theorem Group.wv_id (g : Group) (n : Nat) (x : Lanes) : (g.wv n x).id = g.id := by
  unfold Group.wv; split <;> rfl
@[simp] theorem Group.wv_sreg (g : Group) (n : Nat) (x : Lanes) : (g.wv n x).sreg = g.sreg := by
  unfold Group.wv; split <;> rfl
@[simp] theorem Group.wv_gen (g : Group) (n : Nat) (x : Lanes) : (g.wv n x).gen = g.gen := by
  unfold Group.wv; split <;> rfl
@[simp] theorem Group.wv_fpcr (g : Group) (n : Nat) (x : Lanes) : (g.wv n x).fpcr = g.fpcr := by
  unfold Group.wv; split <;> rfl
@[simp] theorem Group.wv_fpsr (g : Group) (n : Nat) (x : Lanes) : (g.wv n x).fpsr = g.fpsr := by
  unfold Group.wv; split <;> rfl
@[simp] theorem Group.wv_mdef (g : Group) (n : Nat) (x : Lanes) : (g.wv n x).mdef = g.mdef := by
  unfold Group.wv; split <;> rfl
@[simp] theorem Group.wv_pc (g : Group) (n : Nat) (x : Lanes) : (g.wv n x).pc = g.pc := by
  unfold Group.wv; split <;> rfl
@[simp] theorem Group.wv_blockHdr (g : Group) (n : Nat) (x : Lanes) : (g.wv n x).blockHdr = g.blockHdr := by
  unfold Group.wv; split <;> rfl
@[simp] theorem Group.wv_blockEnd (g : Group) (n : Nat) (x : Lanes) : (g.wv n x).blockEnd = g.blockEnd := by
  unfold Group.wv; split <;> rfl
@[simp] theorem Group.wv_depth (g : Group) (n : Nat) (x : Lanes) : (g.wv n x).depth = g.depth := by
  unfold Group.wv; split <;> rfl
@[simp] theorem Group.wv_start (g : Group) (n : Nat) (x : Lanes) : (g.wv n x).start = g.start := by
  unfold Group.wv; split <;> rfl
@[simp] theorem Group.wv_exit (g : Group) (n : Nat) (x : Lanes) : (g.wv n x).exit = g.exit := by
  unfold Group.wv; split <;> rfl
@[simp] theorem Group.wv_lc (g : Group) (n : Nat) (x : Lanes) : (g.wv n x).lc = g.lc := by
  unfold Group.wv; split <;> rfl
@[simp] theorem Group.wv_latch (g : Group) (n : Nat) (x : Lanes) : (g.wv n x).latch = g.latch := by
  unfold Group.wv; split <;> rfl
@[simp] theorem Group.wv_trapBlockEnd (g : Group) (n : Nat) (x : Lanes) : (g.wv n x).trapBlockEnd = g.trapBlockEnd := by
  unfold Group.wv; split <;> rfl
@[simp] theorem Group.wv_trapHdr (g : Group) (n : Nat) (x : Lanes) : (g.wv n x).trapHdr = g.trapHdr := by
  unfold Group.wv; split <;> rfl
@[simp] theorem Group.wv_trapv (g : Group) (n : Nat) (x : Lanes) : (g.wv n x).trapv = g.trapv := by
  unfold Group.wv; split <;> rfl
@[simp] theorem Group.wv_trapc (g : Group) (n : Nat) (x : Lanes) : (g.wv n x).trapc = g.trapc := by
  unfold Group.wv; split <;> rfl
@[simp] theorem Group.wv_trappc (g : Group) (n : Nat) (x : Lanes) : (g.wv n x).trappc = g.trappc := by
  unfold Group.wv; split <;> rfl
@[simp] theorem Group.wv_trappcRec (g : Group) (n : Nat) (x : Lanes) : (g.wv n x).trappcRec = g.trappcRec := by
  unfold Group.wv; split <;> rfl
@[simp] theorem Group.wv_trapa (g : Group) (n : Nat) (x : Lanes) : (g.wv n x).trapa = g.trapa := by
  unfold Group.wv; split <;> rfl
@[simp] theorem Group.wv_wdcfg (g : Group) (n : Nat) (x : Lanes) : (g.wv n x).wdcfg = g.wdcfg := by
  unfold Group.wv; split <;> rfl
@[simp] theorem Group.wv_zreg (g : Group) (n : Nat) (x : Lanes) : (g.wv n x).zreg = g.zreg := by
  unfold Group.wv; split <;> rfl
@[simp] theorem Group.wv_view (g : Group) (n : Nat) (x : Lanes) : (g.wv n x).view = g.view := by
  unfold Group.wv; split <;> rfl
@[simp] theorem Group.wv_queues (g : Group) (n : Nat) (x : Lanes) : (g.wv n x).queues = g.queues := by
  unfold Group.wv; split <;> rfl
@[simp] theorem Group.wv_copyTag (g : Group) (n : Nat) (x : Lanes) : (g.wv n x).copyTag = g.copyTag := by
  unfold Group.wv; split <;> rfl
@[simp] theorem Group.wv_mxTag (g : Group) (n : Nat) (x : Lanes) : (g.wv n x).mxTag = g.mxTag := by
  unfold Group.wv; split <;> rfl
@[simp] theorem Group.wv_arrived (g : Group) (n : Nat) (x : Lanes) : (g.wv n x).arrived = g.arrived := by
  unfold Group.wv; split <;> rfl
@[simp] theorem Group.wv_tiles (g : Group) (n : Nat) (x : Lanes) : (g.wv n x).tiles = g.tiles := by
  unfold Group.wv; split <;> rfl
@[simp] theorem Group.wv_mxq (g : Group) (n : Nat) (x : Lanes) : (g.wv n x).mxq = g.mxq := by
  unfold Group.wv; split <;> rfl
@[simp] theorem Group.wv_chanOpen (g : Group) (n : Nat) (x : Lanes) : (g.wv n x).chanOpen = g.chanOpen := by
  unfold Group.wv; split <;> rfl
@[simp] theorem Group.wv_relq (g : Group) (n : Nat) (x : Lanes) : (g.wv n x).relq = g.relq := by
  unfold Group.wv; split <;> rfl
@[simp] theorem Group.wv_loopBuf (g : Group) (n : Nat) (x : Lanes) : (g.wv n x).loopBuf = g.loopBuf := by
  unfold Group.wv; split <;> rfl
@[simp] theorem Group.wv_recruit (g : Group) (n : Nat) (x : Lanes) : (g.wv n x).recruit = g.recruit := by
  unfold Group.wv; split <;> rfl
@[simp] theorem Group.wv_helper (g : Group) (n : Nat) (x : Lanes) : (g.wv n x).helper = g.helper := by
  unfold Group.wv; split <;> rfl
@[simp] theorem Group.wv_region (g : Group) (n : Nat) (x : Lanes) : (g.wv n x).region = g.region := by
  unfold Group.wv; split <;> rfl
@[simp] theorem Group.wv_rgnRst (g : Group) (n : Nat) (x : Lanes) : (g.wv n x).rgnRst = g.rgnRst := by
  unfold Group.wv; split <;> rfl
@[simp] theorem Group.wv_reopens (g : Group) (n : Nat) (x : Lanes) : (g.wv n x).reopens = g.reopens := by
  unfold Group.wv; split <;> rfl
@[simp] theorem Group.wv_ccnt (g : Group) (n : Nat) (x : Lanes) : (g.wv n x).ccnt = g.ccnt := by
  unfold Group.wv; split <;> rfl
@[simp] theorem Group.wv_retired (g : Group) (n : Nat) (x : Lanes) : (g.wv n x).retired = g.retired := by
  unfold Group.wv; split <;> rfl
@[simp] theorem Group.wv_readyCc (g : Group) (n : Nat) (x : Lanes) : (g.wv n x).readyCc = g.readyCc := by
  unfold Group.wv; split <;> rfl
@[simp] theorem Group.wv_acqLoad (g : Group) (n : Nat) (x : Lanes) : (g.wv n x).acqLoad = g.acqLoad := by
  unfold Group.wv; split <;> rfl
@[simp] theorem Group.wv_l1Misses (g : Group) (n : Nat) (x : Lanes) : (g.wv n x).l1Misses = g.l1Misses := by
  unfold Group.wv; split <;> rfl
@[simp] theorem Group.wv_movedBytes (g : Group) (n : Nat) (x : Lanes) : (g.wv n x).movedBytes = g.movedBytes := by
  unfold Group.wv; split <;> rfl
@[simp] theorem Group.wv_progress (g : Group) (n : Nat) (x : Lanes) : (g.wv n x).progress = g.progress := by
  unfold Group.wv; split <;> rfl
@[simp] theorem Group.wv_unchosen (g : Group) (n : Nat) (x : Lanes) : (g.wv n x).unchosen = g.unchosen := by
  unfold Group.wv; split <;> rfl
@[simp] theorem Group.wv_raised (g : Group) (n : Nat) (x : Lanes) : (g.wv n x).raised = g.raised := by
  unfold Group.wv; split <;> rfl
@[simp] theorem Group.wv_stalled (g : Group) (n : Nat) (x : Lanes) : (g.wv n x).stalled = g.stalled := by
  unfold Group.wv; split <;> rfl
@[simp] theorem Group.wv_drowsy (g : Group) (n : Nat) (x : Lanes) : (g.wv n x).drowsy = g.drowsy := by
  unfold Group.wv; split <;> rfl
@[simp] theorem Group.wv_slot (g : Group) (n : Nat) (x : Lanes) : (g.wv n x).slot = g.slot := by
  unfold Group.wv; split <;> rfl
@[simp] theorem Group.wv_slotBytes (g : Group) (n : Nat) (x : Lanes) : (g.wv n x).slotBytes = g.slotBytes := by
  unfold Group.wv; split <;> rfl
@[simp] theorem Group.wv_preempt (g : Group) (n : Nat) (x : Lanes) : (g.wv n x).preempt = g.preempt := by
  unfold Group.wv; split <;> rfl
@[simp] theorem Group.wv_status (g : Group) (n : Nat) (x : Lanes) : (g.wv n x).status = g.status := by
  unfold Group.wv; split <;> rfl
@[simp] theorem Group.wv_remoteGot (g : Group) (n : Nat) (x : Lanes) : (g.wv n x).remoteGot = g.remoteGot := by
  unfold Group.wv; split <;> rfl
@[simp] theorem Group.wv_denied (g : Group) (n : Nat) (x : Lanes) : (g.wv n x).denied = g.denied := by
  unfold Group.wv; split <;> rfl
@[simp] theorem Group.wv_bankIds (g : Group) (n : Nat) (x : Lanes) : (g.wv n x).bankIds = g.bankIds := by
  unfold Group.wv; split <;> rfl
@[simp] theorem Group.wvm_id (g : Group) (n : Nat) (m : LaneSet) (x : Lanes) : (g.wvm n m x).id = g.id := by
  simp [Group.wvm]
@[simp] theorem Group.wvm_sreg (g : Group) (n : Nat) (m : LaneSet) (x : Lanes) : (g.wvm n m x).sreg = g.sreg := by
  simp [Group.wvm]
@[simp] theorem Group.wvm_gen (g : Group) (n : Nat) (m : LaneSet) (x : Lanes) : (g.wvm n m x).gen = g.gen := by
  simp [Group.wvm]
@[simp] theorem Group.wvm_fpcr (g : Group) (n : Nat) (m : LaneSet) (x : Lanes) : (g.wvm n m x).fpcr = g.fpcr := by
  simp [Group.wvm]
@[simp] theorem Group.wvm_fpsr (g : Group) (n : Nat) (m : LaneSet) (x : Lanes) : (g.wvm n m x).fpsr = g.fpsr := by
  simp [Group.wvm]
@[simp] theorem Group.wvm_mdef (g : Group) (n : Nat) (m : LaneSet) (x : Lanes) : (g.wvm n m x).mdef = g.mdef := by
  simp [Group.wvm]
@[simp] theorem Group.wvm_pc (g : Group) (n : Nat) (m : LaneSet) (x : Lanes) : (g.wvm n m x).pc = g.pc := by
  simp [Group.wvm]
@[simp] theorem Group.wvm_blockHdr (g : Group) (n : Nat) (m : LaneSet) (x : Lanes) : (g.wvm n m x).blockHdr = g.blockHdr := by
  simp [Group.wvm]
@[simp] theorem Group.wvm_blockEnd (g : Group) (n : Nat) (m : LaneSet) (x : Lanes) : (g.wvm n m x).blockEnd = g.blockEnd := by
  simp [Group.wvm]
@[simp] theorem Group.wvm_depth (g : Group) (n : Nat) (m : LaneSet) (x : Lanes) : (g.wvm n m x).depth = g.depth := by
  simp [Group.wvm]
@[simp] theorem Group.wvm_start (g : Group) (n : Nat) (m : LaneSet) (x : Lanes) : (g.wvm n m x).start = g.start := by
  simp [Group.wvm]
@[simp] theorem Group.wvm_exit (g : Group) (n : Nat) (m : LaneSet) (x : Lanes) : (g.wvm n m x).exit = g.exit := by
  simp [Group.wvm]
@[simp] theorem Group.wvm_lc (g : Group) (n : Nat) (m : LaneSet) (x : Lanes) : (g.wvm n m x).lc = g.lc := by
  simp [Group.wvm]
@[simp] theorem Group.wvm_latch (g : Group) (n : Nat) (m : LaneSet) (x : Lanes) : (g.wvm n m x).latch = g.latch := by
  simp [Group.wvm]
@[simp] theorem Group.wvm_trapBlockEnd (g : Group) (n : Nat) (m : LaneSet) (x : Lanes) : (g.wvm n m x).trapBlockEnd = g.trapBlockEnd := by
  simp [Group.wvm]
@[simp] theorem Group.wvm_trapHdr (g : Group) (n : Nat) (m : LaneSet) (x : Lanes) : (g.wvm n m x).trapHdr = g.trapHdr := by
  simp [Group.wvm]
@[simp] theorem Group.wvm_trapv (g : Group) (n : Nat) (m : LaneSet) (x : Lanes) : (g.wvm n m x).trapv = g.trapv := by
  simp [Group.wvm]
@[simp] theorem Group.wvm_trapc (g : Group) (n : Nat) (m : LaneSet) (x : Lanes) : (g.wvm n m x).trapc = g.trapc := by
  simp [Group.wvm]
@[simp] theorem Group.wvm_trappc (g : Group) (n : Nat) (m : LaneSet) (x : Lanes) : (g.wvm n m x).trappc = g.trappc := by
  simp [Group.wvm]
@[simp] theorem Group.wvm_trappcRec (g : Group) (n : Nat) (m : LaneSet) (x : Lanes) : (g.wvm n m x).trappcRec = g.trappcRec := by
  simp [Group.wvm]
@[simp] theorem Group.wvm_trapa (g : Group) (n : Nat) (m : LaneSet) (x : Lanes) : (g.wvm n m x).trapa = g.trapa := by
  simp [Group.wvm]
@[simp] theorem Group.wvm_wdcfg (g : Group) (n : Nat) (m : LaneSet) (x : Lanes) : (g.wvm n m x).wdcfg = g.wdcfg := by
  simp [Group.wvm]
@[simp] theorem Group.wvm_zreg (g : Group) (n : Nat) (m : LaneSet) (x : Lanes) : (g.wvm n m x).zreg = g.zreg := by
  simp [Group.wvm]
@[simp] theorem Group.wvm_view (g : Group) (n : Nat) (m : LaneSet) (x : Lanes) : (g.wvm n m x).view = g.view := by
  simp [Group.wvm]
@[simp] theorem Group.wvm_queues (g : Group) (n : Nat) (m : LaneSet) (x : Lanes) : (g.wvm n m x).queues = g.queues := by
  simp [Group.wvm]
@[simp] theorem Group.wvm_copyTag (g : Group) (n : Nat) (m : LaneSet) (x : Lanes) : (g.wvm n m x).copyTag = g.copyTag := by
  simp [Group.wvm]
@[simp] theorem Group.wvm_mxTag (g : Group) (n : Nat) (m : LaneSet) (x : Lanes) : (g.wvm n m x).mxTag = g.mxTag := by
  simp [Group.wvm]
@[simp] theorem Group.wvm_arrived (g : Group) (n : Nat) (m : LaneSet) (x : Lanes) : (g.wvm n m x).arrived = g.arrived := by
  simp [Group.wvm]
@[simp] theorem Group.wvm_tiles (g : Group) (n : Nat) (m : LaneSet) (x : Lanes) : (g.wvm n m x).tiles = g.tiles := by
  simp [Group.wvm]
@[simp] theorem Group.wvm_mxq (g : Group) (n : Nat) (m : LaneSet) (x : Lanes) : (g.wvm n m x).mxq = g.mxq := by
  simp [Group.wvm]
@[simp] theorem Group.wvm_chanOpen (g : Group) (n : Nat) (m : LaneSet) (x : Lanes) : (g.wvm n m x).chanOpen = g.chanOpen := by
  simp [Group.wvm]
@[simp] theorem Group.wvm_relq (g : Group) (n : Nat) (m : LaneSet) (x : Lanes) : (g.wvm n m x).relq = g.relq := by
  simp [Group.wvm]
@[simp] theorem Group.wvm_loopBuf (g : Group) (n : Nat) (m : LaneSet) (x : Lanes) : (g.wvm n m x).loopBuf = g.loopBuf := by
  simp [Group.wvm]
@[simp] theorem Group.wvm_recruit (g : Group) (n : Nat) (m : LaneSet) (x : Lanes) : (g.wvm n m x).recruit = g.recruit := by
  simp [Group.wvm]
@[simp] theorem Group.wvm_helper (g : Group) (n : Nat) (m : LaneSet) (x : Lanes) : (g.wvm n m x).helper = g.helper := by
  simp [Group.wvm]
@[simp] theorem Group.wvm_region (g : Group) (n : Nat) (m : LaneSet) (x : Lanes) : (g.wvm n m x).region = g.region := by
  simp [Group.wvm]
@[simp] theorem Group.wvm_rgnRst (g : Group) (n : Nat) (m : LaneSet) (x : Lanes) : (g.wvm n m x).rgnRst = g.rgnRst := by
  simp [Group.wvm]
@[simp] theorem Group.wvm_reopens (g : Group) (n : Nat) (m : LaneSet) (x : Lanes) : (g.wvm n m x).reopens = g.reopens := by
  simp [Group.wvm]
@[simp] theorem Group.wvm_ccnt (g : Group) (n : Nat) (m : LaneSet) (x : Lanes) : (g.wvm n m x).ccnt = g.ccnt := by
  simp [Group.wvm]
@[simp] theorem Group.wvm_retired (g : Group) (n : Nat) (m : LaneSet) (x : Lanes) : (g.wvm n m x).retired = g.retired := by
  simp [Group.wvm]
@[simp] theorem Group.wvm_readyCc (g : Group) (n : Nat) (m : LaneSet) (x : Lanes) : (g.wvm n m x).readyCc = g.readyCc := by
  simp [Group.wvm]
@[simp] theorem Group.wvm_acqLoad (g : Group) (n : Nat) (m : LaneSet) (x : Lanes) : (g.wvm n m x).acqLoad = g.acqLoad := by
  simp [Group.wvm]
@[simp] theorem Group.wvm_l1Misses (g : Group) (n : Nat) (m : LaneSet) (x : Lanes) : (g.wvm n m x).l1Misses = g.l1Misses := by
  simp [Group.wvm]
@[simp] theorem Group.wvm_movedBytes (g : Group) (n : Nat) (m : LaneSet) (x : Lanes) : (g.wvm n m x).movedBytes = g.movedBytes := by
  simp [Group.wvm]
@[simp] theorem Group.wvm_progress (g : Group) (n : Nat) (m : LaneSet) (x : Lanes) : (g.wvm n m x).progress = g.progress := by
  simp [Group.wvm]
@[simp] theorem Group.wvm_unchosen (g : Group) (n : Nat) (m : LaneSet) (x : Lanes) : (g.wvm n m x).unchosen = g.unchosen := by
  simp [Group.wvm]
@[simp] theorem Group.wvm_raised (g : Group) (n : Nat) (m : LaneSet) (x : Lanes) : (g.wvm n m x).raised = g.raised := by
  simp [Group.wvm]
@[simp] theorem Group.wvm_stalled (g : Group) (n : Nat) (m : LaneSet) (x : Lanes) : (g.wvm n m x).stalled = g.stalled := by
  simp [Group.wvm]
@[simp] theorem Group.wvm_drowsy (g : Group) (n : Nat) (m : LaneSet) (x : Lanes) : (g.wvm n m x).drowsy = g.drowsy := by
  simp [Group.wvm]
@[simp] theorem Group.wvm_slot (g : Group) (n : Nat) (m : LaneSet) (x : Lanes) : (g.wvm n m x).slot = g.slot := by
  simp [Group.wvm]
@[simp] theorem Group.wvm_slotBytes (g : Group) (n : Nat) (m : LaneSet) (x : Lanes) : (g.wvm n m x).slotBytes = g.slotBytes := by
  simp [Group.wvm]
@[simp] theorem Group.wvm_preempt (g : Group) (n : Nat) (m : LaneSet) (x : Lanes) : (g.wvm n m x).preempt = g.preempt := by
  simp [Group.wvm]
@[simp] theorem Group.wvm_status (g : Group) (n : Nat) (m : LaneSet) (x : Lanes) : (g.wvm n m x).status = g.status := by
  simp [Group.wvm]
@[simp] theorem Group.wvm_remoteGot (g : Group) (n : Nat) (m : LaneSet) (x : Lanes) : (g.wvm n m x).remoteGot = g.remoteGot := by
  simp [Group.wvm]
@[simp] theorem Group.wvm_denied (g : Group) (n : Nat) (m : LaneSet) (x : Lanes) : (g.wvm n m x).denied = g.denied := by
  simp [Group.wvm]
@[simp] theorem Group.wvm_bankIds (g : Group) (n : Nat) (m : LaneSet) (x : Lanes) : (g.wvm n m x).bankIds = g.bankIds := by
  simp [Group.wvm]
@[simp] theorem Group.raiseFlags_id (g : Group) (x : BitVec 6) : (g.raiseFlags x).id = g.id := rfl
@[simp] theorem Group.raiseFlags_sreg (g : Group) (x : BitVec 6) : (g.raiseFlags x).sreg = g.sreg := rfl
@[simp] theorem Group.raiseFlags_vreg (g : Group) (x : BitVec 6) : (g.raiseFlags x).vreg = g.vreg := rfl
@[simp] theorem Group.raiseFlags_gen (g : Group) (x : BitVec 6) : (g.raiseFlags x).gen = g.gen := rfl
@[simp] theorem Group.raiseFlags_fpcr (g : Group) (x : BitVec 6) : (g.raiseFlags x).fpcr = g.fpcr := rfl
@[simp] theorem Group.raiseFlags_mdef (g : Group) (x : BitVec 6) : (g.raiseFlags x).mdef = g.mdef := rfl
@[simp] theorem Group.raiseFlags_pc (g : Group) (x : BitVec 6) : (g.raiseFlags x).pc = g.pc := rfl
@[simp] theorem Group.raiseFlags_blockHdr (g : Group) (x : BitVec 6) : (g.raiseFlags x).blockHdr = g.blockHdr := rfl
@[simp] theorem Group.raiseFlags_blockEnd (g : Group) (x : BitVec 6) : (g.raiseFlags x).blockEnd = g.blockEnd := rfl
@[simp] theorem Group.raiseFlags_depth (g : Group) (x : BitVec 6) : (g.raiseFlags x).depth = g.depth := rfl
@[simp] theorem Group.raiseFlags_start (g : Group) (x : BitVec 6) : (g.raiseFlags x).start = g.start := rfl
@[simp] theorem Group.raiseFlags_exit (g : Group) (x : BitVec 6) : (g.raiseFlags x).exit = g.exit := rfl
@[simp] theorem Group.raiseFlags_lc (g : Group) (x : BitVec 6) : (g.raiseFlags x).lc = g.lc := rfl
@[simp] theorem Group.raiseFlags_latch (g : Group) (x : BitVec 6) : (g.raiseFlags x).latch = g.latch := rfl
@[simp] theorem Group.raiseFlags_trapBlockEnd (g : Group) (x : BitVec 6) : (g.raiseFlags x).trapBlockEnd = g.trapBlockEnd := rfl
@[simp] theorem Group.raiseFlags_trapHdr (g : Group) (x : BitVec 6) : (g.raiseFlags x).trapHdr = g.trapHdr := rfl
@[simp] theorem Group.raiseFlags_trapv (g : Group) (x : BitVec 6) : (g.raiseFlags x).trapv = g.trapv := rfl
@[simp] theorem Group.raiseFlags_trapc (g : Group) (x : BitVec 6) : (g.raiseFlags x).trapc = g.trapc := rfl
@[simp] theorem Group.raiseFlags_trappc (g : Group) (x : BitVec 6) : (g.raiseFlags x).trappc = g.trappc := rfl
@[simp] theorem Group.raiseFlags_trappcRec (g : Group) (x : BitVec 6) : (g.raiseFlags x).trappcRec = g.trappcRec := rfl
@[simp] theorem Group.raiseFlags_trapa (g : Group) (x : BitVec 6) : (g.raiseFlags x).trapa = g.trapa := rfl
@[simp] theorem Group.raiseFlags_wdcfg (g : Group) (x : BitVec 6) : (g.raiseFlags x).wdcfg = g.wdcfg := rfl
@[simp] theorem Group.raiseFlags_zreg (g : Group) (x : BitVec 6) : (g.raiseFlags x).zreg = g.zreg := rfl
@[simp] theorem Group.raiseFlags_view (g : Group) (x : BitVec 6) : (g.raiseFlags x).view = g.view := rfl
@[simp] theorem Group.raiseFlags_queues (g : Group) (x : BitVec 6) : (g.raiseFlags x).queues = g.queues := rfl
@[simp] theorem Group.raiseFlags_copyTag (g : Group) (x : BitVec 6) : (g.raiseFlags x).copyTag = g.copyTag := rfl
@[simp] theorem Group.raiseFlags_mxTag (g : Group) (x : BitVec 6) : (g.raiseFlags x).mxTag = g.mxTag := rfl
@[simp] theorem Group.raiseFlags_arrived (g : Group) (x : BitVec 6) : (g.raiseFlags x).arrived = g.arrived := rfl
@[simp] theorem Group.raiseFlags_tiles (g : Group) (x : BitVec 6) : (g.raiseFlags x).tiles = g.tiles := rfl
@[simp] theorem Group.raiseFlags_mxq (g : Group) (x : BitVec 6) : (g.raiseFlags x).mxq = g.mxq := rfl
@[simp] theorem Group.raiseFlags_chanOpen (g : Group) (x : BitVec 6) : (g.raiseFlags x).chanOpen = g.chanOpen := rfl
@[simp] theorem Group.raiseFlags_relq (g : Group) (x : BitVec 6) : (g.raiseFlags x).relq = g.relq := rfl
@[simp] theorem Group.raiseFlags_loopBuf (g : Group) (x : BitVec 6) : (g.raiseFlags x).loopBuf = g.loopBuf := rfl
@[simp] theorem Group.raiseFlags_recruit (g : Group) (x : BitVec 6) : (g.raiseFlags x).recruit = g.recruit := rfl
@[simp] theorem Group.raiseFlags_helper (g : Group) (x : BitVec 6) : (g.raiseFlags x).helper = g.helper := rfl
@[simp] theorem Group.raiseFlags_region (g : Group) (x : BitVec 6) : (g.raiseFlags x).region = g.region := rfl
@[simp] theorem Group.raiseFlags_rgnRst (g : Group) (x : BitVec 6) : (g.raiseFlags x).rgnRst = g.rgnRst := rfl
@[simp] theorem Group.raiseFlags_reopens (g : Group) (x : BitVec 6) : (g.raiseFlags x).reopens = g.reopens := rfl
@[simp] theorem Group.raiseFlags_ccnt (g : Group) (x : BitVec 6) : (g.raiseFlags x).ccnt = g.ccnt := rfl
@[simp] theorem Group.raiseFlags_retired (g : Group) (x : BitVec 6) : (g.raiseFlags x).retired = g.retired := rfl
@[simp] theorem Group.raiseFlags_readyCc (g : Group) (x : BitVec 6) : (g.raiseFlags x).readyCc = g.readyCc := rfl
@[simp] theorem Group.raiseFlags_acqLoad (g : Group) (x : BitVec 6) : (g.raiseFlags x).acqLoad = g.acqLoad := rfl
@[simp] theorem Group.raiseFlags_l1Misses (g : Group) (x : BitVec 6) : (g.raiseFlags x).l1Misses = g.l1Misses := rfl
@[simp] theorem Group.raiseFlags_movedBytes (g : Group) (x : BitVec 6) : (g.raiseFlags x).movedBytes = g.movedBytes := rfl
@[simp] theorem Group.raiseFlags_progress (g : Group) (x : BitVec 6) : (g.raiseFlags x).progress = g.progress := rfl
@[simp] theorem Group.raiseFlags_unchosen (g : Group) (x : BitVec 6) : (g.raiseFlags x).unchosen = g.unchosen := rfl
@[simp] theorem Group.raiseFlags_raised (g : Group) (x : BitVec 6) : (g.raiseFlags x).raised = g.raised := rfl
@[simp] theorem Group.raiseFlags_stalled (g : Group) (x : BitVec 6) : (g.raiseFlags x).stalled = g.stalled := rfl
@[simp] theorem Group.raiseFlags_drowsy (g : Group) (x : BitVec 6) : (g.raiseFlags x).drowsy = g.drowsy := rfl
@[simp] theorem Group.raiseFlags_slot (g : Group) (x : BitVec 6) : (g.raiseFlags x).slot = g.slot := rfl
@[simp] theorem Group.raiseFlags_slotBytes (g : Group) (x : BitVec 6) : (g.raiseFlags x).slotBytes = g.slotBytes := rfl
@[simp] theorem Group.raiseFlags_preempt (g : Group) (x : BitVec 6) : (g.raiseFlags x).preempt = g.preempt := rfl
@[simp] theorem Group.raiseFlags_status (g : Group) (x : BitVec 6) : (g.raiseFlags x).status = g.status := rfl
@[simp] theorem Group.raiseFlags_remoteGot (g : Group) (x : BitVec 6) : (g.raiseFlags x).remoteGot = g.remoteGot := rfl
@[simp] theorem Group.raiseFlags_denied (g : Group) (x : BitVec 6) : (g.raiseFlags x).denied = g.denied := rfl
@[simp] theorem Group.raiseFlags_bankIds (g : Group) (x : BitVec 6) : (g.raiseFlags x).bankIds = g.bankIds := rfl
@[simp] theorem Group.writeLanes_id (g : Group) (d : Nat) (w : Bool) (m : LaneSet) (r : Nat → LaneRes) :
    (g.writeLanes d w m r).id = g.id := by
  cases w <;> simp [Group.writeLanes]
@[simp] theorem Group.writeLanes_sreg (g : Group) (d : Nat) (w : Bool) (m : LaneSet) (r : Nat → LaneRes) :
    (g.writeLanes d w m r).sreg = g.sreg := by
  cases w <;> simp [Group.writeLanes]
@[simp] theorem Group.writeLanes_gen (g : Group) (d : Nat) (w : Bool) (m : LaneSet) (r : Nat → LaneRes) :
    (g.writeLanes d w m r).gen = g.gen := by
  cases w <;> simp [Group.writeLanes]
@[simp] theorem Group.writeLanes_fpcr (g : Group) (d : Nat) (w : Bool) (m : LaneSet) (r : Nat → LaneRes) :
    (g.writeLanes d w m r).fpcr = g.fpcr := by
  cases w <;> simp [Group.writeLanes]
@[simp] theorem Group.writeLanes_mdef (g : Group) (d : Nat) (w : Bool) (m : LaneSet) (r : Nat → LaneRes) :
    (g.writeLanes d w m r).mdef = g.mdef := by
  cases w <;> simp [Group.writeLanes]
@[simp] theorem Group.writeLanes_pc (g : Group) (d : Nat) (w : Bool) (m : LaneSet) (r : Nat → LaneRes) :
    (g.writeLanes d w m r).pc = g.pc := by
  cases w <;> simp [Group.writeLanes]
@[simp] theorem Group.writeLanes_blockHdr (g : Group) (d : Nat) (w : Bool) (m : LaneSet) (r : Nat → LaneRes) :
    (g.writeLanes d w m r).blockHdr = g.blockHdr := by
  cases w <;> simp [Group.writeLanes]
@[simp] theorem Group.writeLanes_blockEnd (g : Group) (d : Nat) (w : Bool) (m : LaneSet) (r : Nat → LaneRes) :
    (g.writeLanes d w m r).blockEnd = g.blockEnd := by
  cases w <;> simp [Group.writeLanes]
@[simp] theorem Group.writeLanes_depth (g : Group) (d : Nat) (w : Bool) (m : LaneSet) (r : Nat → LaneRes) :
    (g.writeLanes d w m r).depth = g.depth := by
  cases w <;> simp [Group.writeLanes]
@[simp] theorem Group.writeLanes_start (g : Group) (d : Nat) (w : Bool) (m : LaneSet) (r : Nat → LaneRes) :
    (g.writeLanes d w m r).start = g.start := by
  cases w <;> simp [Group.writeLanes]
@[simp] theorem Group.writeLanes_exit (g : Group) (d : Nat) (w : Bool) (m : LaneSet) (r : Nat → LaneRes) :
    (g.writeLanes d w m r).exit = g.exit := by
  cases w <;> simp [Group.writeLanes]
@[simp] theorem Group.writeLanes_lc (g : Group) (d : Nat) (w : Bool) (m : LaneSet) (r : Nat → LaneRes) :
    (g.writeLanes d w m r).lc = g.lc := by
  cases w <;> simp [Group.writeLanes]
@[simp] theorem Group.writeLanes_latch (g : Group) (d : Nat) (w : Bool) (m : LaneSet) (r : Nat → LaneRes) :
    (g.writeLanes d w m r).latch = g.latch := by
  cases w <;> simp [Group.writeLanes]
@[simp] theorem Group.writeLanes_trapBlockEnd (g : Group) (d : Nat) (w : Bool) (m : LaneSet) (r : Nat → LaneRes) :
    (g.writeLanes d w m r).trapBlockEnd = g.trapBlockEnd := by
  cases w <;> simp [Group.writeLanes]
@[simp] theorem Group.writeLanes_trapHdr (g : Group) (d : Nat) (w : Bool) (m : LaneSet) (r : Nat → LaneRes) :
    (g.writeLanes d w m r).trapHdr = g.trapHdr := by
  cases w <;> simp [Group.writeLanes]
@[simp] theorem Group.writeLanes_trapv (g : Group) (d : Nat) (w : Bool) (m : LaneSet) (r : Nat → LaneRes) :
    (g.writeLanes d w m r).trapv = g.trapv := by
  cases w <;> simp [Group.writeLanes]
@[simp] theorem Group.writeLanes_trapc (g : Group) (d : Nat) (w : Bool) (m : LaneSet) (r : Nat → LaneRes) :
    (g.writeLanes d w m r).trapc = g.trapc := by
  cases w <;> simp [Group.writeLanes]
@[simp] theorem Group.writeLanes_trappc (g : Group) (d : Nat) (w : Bool) (m : LaneSet) (r : Nat → LaneRes) :
    (g.writeLanes d w m r).trappc = g.trappc := by
  cases w <;> simp [Group.writeLanes]
@[simp] theorem Group.writeLanes_trappcRec (g : Group) (d : Nat) (w : Bool) (m : LaneSet) (r : Nat → LaneRes) :
    (g.writeLanes d w m r).trappcRec = g.trappcRec := by
  cases w <;> simp [Group.writeLanes]
@[simp] theorem Group.writeLanes_trapa (g : Group) (d : Nat) (w : Bool) (m : LaneSet) (r : Nat → LaneRes) :
    (g.writeLanes d w m r).trapa = g.trapa := by
  cases w <;> simp [Group.writeLanes]
@[simp] theorem Group.writeLanes_wdcfg (g : Group) (d : Nat) (w : Bool) (m : LaneSet) (r : Nat → LaneRes) :
    (g.writeLanes d w m r).wdcfg = g.wdcfg := by
  cases w <;> simp [Group.writeLanes]
@[simp] theorem Group.writeLanes_zreg (g : Group) (d : Nat) (w : Bool) (m : LaneSet) (r : Nat → LaneRes) :
    (g.writeLanes d w m r).zreg = g.zreg := by
  cases w <;> simp [Group.writeLanes]
@[simp] theorem Group.writeLanes_view (g : Group) (d : Nat) (w : Bool) (m : LaneSet) (r : Nat → LaneRes) :
    (g.writeLanes d w m r).view = g.view := by
  cases w <;> simp [Group.writeLanes]
@[simp] theorem Group.writeLanes_queues (g : Group) (d : Nat) (w : Bool) (m : LaneSet) (r : Nat → LaneRes) :
    (g.writeLanes d w m r).queues = g.queues := by
  cases w <;> simp [Group.writeLanes]
@[simp] theorem Group.writeLanes_copyTag (g : Group) (d : Nat) (w : Bool) (m : LaneSet) (r : Nat → LaneRes) :
    (g.writeLanes d w m r).copyTag = g.copyTag := by
  cases w <;> simp [Group.writeLanes]
@[simp] theorem Group.writeLanes_mxTag (g : Group) (d : Nat) (w : Bool) (m : LaneSet) (r : Nat → LaneRes) :
    (g.writeLanes d w m r).mxTag = g.mxTag := by
  cases w <;> simp [Group.writeLanes]
@[simp] theorem Group.writeLanes_arrived (g : Group) (d : Nat) (w : Bool) (m : LaneSet) (r : Nat → LaneRes) :
    (g.writeLanes d w m r).arrived = g.arrived := by
  cases w <;> simp [Group.writeLanes]
@[simp] theorem Group.writeLanes_tiles (g : Group) (d : Nat) (w : Bool) (m : LaneSet) (r : Nat → LaneRes) :
    (g.writeLanes d w m r).tiles = g.tiles := by
  cases w <;> simp [Group.writeLanes]
@[simp] theorem Group.writeLanes_mxq (g : Group) (d : Nat) (w : Bool) (m : LaneSet) (r : Nat → LaneRes) :
    (g.writeLanes d w m r).mxq = g.mxq := by
  cases w <;> simp [Group.writeLanes]
@[simp] theorem Group.writeLanes_chanOpen (g : Group) (d : Nat) (w : Bool) (m : LaneSet) (r : Nat → LaneRes) :
    (g.writeLanes d w m r).chanOpen = g.chanOpen := by
  cases w <;> simp [Group.writeLanes]
@[simp] theorem Group.writeLanes_relq (g : Group) (d : Nat) (w : Bool) (m : LaneSet) (r : Nat → LaneRes) :
    (g.writeLanes d w m r).relq = g.relq := by
  cases w <;> simp [Group.writeLanes]
@[simp] theorem Group.writeLanes_loopBuf (g : Group) (d : Nat) (w : Bool) (m : LaneSet) (r : Nat → LaneRes) :
    (g.writeLanes d w m r).loopBuf = g.loopBuf := by
  cases w <;> simp [Group.writeLanes]
@[simp] theorem Group.writeLanes_recruit (g : Group) (d : Nat) (w : Bool) (m : LaneSet) (r : Nat → LaneRes) :
    (g.writeLanes d w m r).recruit = g.recruit := by
  cases w <;> simp [Group.writeLanes]
@[simp] theorem Group.writeLanes_helper (g : Group) (d : Nat) (w : Bool) (m : LaneSet) (r : Nat → LaneRes) :
    (g.writeLanes d w m r).helper = g.helper := by
  cases w <;> simp [Group.writeLanes]
@[simp] theorem Group.writeLanes_region (g : Group) (d : Nat) (w : Bool) (m : LaneSet) (r : Nat → LaneRes) :
    (g.writeLanes d w m r).region = g.region := by
  cases w <;> simp [Group.writeLanes]
@[simp] theorem Group.writeLanes_rgnRst (g : Group) (d : Nat) (w : Bool) (m : LaneSet) (r : Nat → LaneRes) :
    (g.writeLanes d w m r).rgnRst = g.rgnRst := by
  cases w <;> simp [Group.writeLanes]
@[simp] theorem Group.writeLanes_reopens (g : Group) (d : Nat) (w : Bool) (m : LaneSet) (r : Nat → LaneRes) :
    (g.writeLanes d w m r).reopens = g.reopens := by
  cases w <;> simp [Group.writeLanes]
@[simp] theorem Group.writeLanes_ccnt (g : Group) (d : Nat) (w : Bool) (m : LaneSet) (r : Nat → LaneRes) :
    (g.writeLanes d w m r).ccnt = g.ccnt := by
  cases w <;> simp [Group.writeLanes]
@[simp] theorem Group.writeLanes_retired (g : Group) (d : Nat) (w : Bool) (m : LaneSet) (r : Nat → LaneRes) :
    (g.writeLanes d w m r).retired = g.retired := by
  cases w <;> simp [Group.writeLanes]
@[simp] theorem Group.writeLanes_readyCc (g : Group) (d : Nat) (w : Bool) (m : LaneSet) (r : Nat → LaneRes) :
    (g.writeLanes d w m r).readyCc = g.readyCc := by
  cases w <;> simp [Group.writeLanes]
@[simp] theorem Group.writeLanes_acqLoad (g : Group) (d : Nat) (w : Bool) (m : LaneSet) (r : Nat → LaneRes) :
    (g.writeLanes d w m r).acqLoad = g.acqLoad := by
  cases w <;> simp [Group.writeLanes]
@[simp] theorem Group.writeLanes_l1Misses (g : Group) (d : Nat) (w : Bool) (m : LaneSet) (r : Nat → LaneRes) :
    (g.writeLanes d w m r).l1Misses = g.l1Misses := by
  cases w <;> simp [Group.writeLanes]
@[simp] theorem Group.writeLanes_movedBytes (g : Group) (d : Nat) (w : Bool) (m : LaneSet) (r : Nat → LaneRes) :
    (g.writeLanes d w m r).movedBytes = g.movedBytes := by
  cases w <;> simp [Group.writeLanes]
@[simp] theorem Group.writeLanes_progress (g : Group) (d : Nat) (w : Bool) (m : LaneSet) (r : Nat → LaneRes) :
    (g.writeLanes d w m r).progress = g.progress := by
  cases w <;> simp [Group.writeLanes]
@[simp] theorem Group.writeLanes_unchosen (g : Group) (d : Nat) (w : Bool) (m : LaneSet) (r : Nat → LaneRes) :
    (g.writeLanes d w m r).unchosen = g.unchosen := by
  cases w <;> simp [Group.writeLanes]
@[simp] theorem Group.writeLanes_raised (g : Group) (d : Nat) (w : Bool) (m : LaneSet) (r : Nat → LaneRes) :
    (g.writeLanes d w m r).raised = g.raised := by
  cases w <;> simp [Group.writeLanes]
@[simp] theorem Group.writeLanes_stalled (g : Group) (d : Nat) (w : Bool) (m : LaneSet) (r : Nat → LaneRes) :
    (g.writeLanes d w m r).stalled = g.stalled := by
  cases w <;> simp [Group.writeLanes]
@[simp] theorem Group.writeLanes_drowsy (g : Group) (d : Nat) (w : Bool) (m : LaneSet) (r : Nat → LaneRes) :
    (g.writeLanes d w m r).drowsy = g.drowsy := by
  cases w <;> simp [Group.writeLanes]
@[simp] theorem Group.writeLanes_slot (g : Group) (d : Nat) (w : Bool) (m : LaneSet) (r : Nat → LaneRes) :
    (g.writeLanes d w m r).slot = g.slot := by
  cases w <;> simp [Group.writeLanes]
@[simp] theorem Group.writeLanes_slotBytes (g : Group) (d : Nat) (w : Bool) (m : LaneSet) (r : Nat → LaneRes) :
    (g.writeLanes d w m r).slotBytes = g.slotBytes := by
  cases w <;> simp [Group.writeLanes]
@[simp] theorem Group.writeLanes_preempt (g : Group) (d : Nat) (w : Bool) (m : LaneSet) (r : Nat → LaneRes) :
    (g.writeLanes d w m r).preempt = g.preempt := by
  cases w <;> simp [Group.writeLanes]
@[simp] theorem Group.writeLanes_status (g : Group) (d : Nat) (w : Bool) (m : LaneSet) (r : Nat → LaneRes) :
    (g.writeLanes d w m r).status = g.status := by
  cases w <;> simp [Group.writeLanes]
@[simp] theorem Group.writeLanes_remoteGot (g : Group) (d : Nat) (w : Bool) (m : LaneSet) (r : Nat → LaneRes) :
    (g.writeLanes d w m r).remoteGot = g.remoteGot := by
  cases w <;> simp [Group.writeLanes]
@[simp] theorem Group.writeLanes_denied (g : Group) (d : Nat) (w : Bool) (m : LaneSet) (r : Nat → LaneRes) :
    (g.writeLanes d w m r).denied = g.denied := by
  cases w <;> simp [Group.writeLanes]
@[simp] theorem Group.writeLanes_bankIds (g : Group) (d : Nat) (w : Bool) (m : LaneSet) (r : Nat → LaneRes) :
    (g.writeLanes d w m r).bankIds = g.bankIds := by
  cases w <;> simp [Group.writeLanes]
@[simp] theorem Group.advanceStreams_id (g : Group) (zs : List Nat) : (g.advanceStreams zs).id = g.id := rfl
@[simp] theorem Group.advanceStreams_sreg (g : Group) (zs : List Nat) : (g.advanceStreams zs).sreg = g.sreg := rfl
@[simp] theorem Group.advanceStreams_vreg (g : Group) (zs : List Nat) : (g.advanceStreams zs).vreg = g.vreg := rfl
@[simp] theorem Group.advanceStreams_gen (g : Group) (zs : List Nat) : (g.advanceStreams zs).gen = g.gen := rfl
@[simp] theorem Group.advanceStreams_fpcr (g : Group) (zs : List Nat) : (g.advanceStreams zs).fpcr = g.fpcr := rfl
@[simp] theorem Group.advanceStreams_fpsr (g : Group) (zs : List Nat) : (g.advanceStreams zs).fpsr = g.fpsr := rfl
@[simp] theorem Group.advanceStreams_mdef (g : Group) (zs : List Nat) : (g.advanceStreams zs).mdef = g.mdef := rfl
@[simp] theorem Group.advanceStreams_pc (g : Group) (zs : List Nat) : (g.advanceStreams zs).pc = g.pc := rfl
@[simp] theorem Group.advanceStreams_blockHdr (g : Group) (zs : List Nat) : (g.advanceStreams zs).blockHdr = g.blockHdr := rfl
@[simp] theorem Group.advanceStreams_blockEnd (g : Group) (zs : List Nat) : (g.advanceStreams zs).blockEnd = g.blockEnd := rfl
@[simp] theorem Group.advanceStreams_depth (g : Group) (zs : List Nat) : (g.advanceStreams zs).depth = g.depth := rfl
@[simp] theorem Group.advanceStreams_start (g : Group) (zs : List Nat) : (g.advanceStreams zs).start = g.start := rfl
@[simp] theorem Group.advanceStreams_exit (g : Group) (zs : List Nat) : (g.advanceStreams zs).exit = g.exit := rfl
@[simp] theorem Group.advanceStreams_lc (g : Group) (zs : List Nat) : (g.advanceStreams zs).lc = g.lc := rfl
@[simp] theorem Group.advanceStreams_latch (g : Group) (zs : List Nat) : (g.advanceStreams zs).latch = g.latch := rfl
@[simp] theorem Group.advanceStreams_trapBlockEnd (g : Group) (zs : List Nat) : (g.advanceStreams zs).trapBlockEnd = g.trapBlockEnd := rfl
@[simp] theorem Group.advanceStreams_trapHdr (g : Group) (zs : List Nat) : (g.advanceStreams zs).trapHdr = g.trapHdr := rfl
@[simp] theorem Group.advanceStreams_trapv (g : Group) (zs : List Nat) : (g.advanceStreams zs).trapv = g.trapv := rfl
@[simp] theorem Group.advanceStreams_trapc (g : Group) (zs : List Nat) : (g.advanceStreams zs).trapc = g.trapc := rfl
@[simp] theorem Group.advanceStreams_trappc (g : Group) (zs : List Nat) : (g.advanceStreams zs).trappc = g.trappc := rfl
@[simp] theorem Group.advanceStreams_trappcRec (g : Group) (zs : List Nat) : (g.advanceStreams zs).trappcRec = g.trappcRec := rfl
@[simp] theorem Group.advanceStreams_trapa (g : Group) (zs : List Nat) : (g.advanceStreams zs).trapa = g.trapa := rfl
@[simp] theorem Group.advanceStreams_wdcfg (g : Group) (zs : List Nat) : (g.advanceStreams zs).wdcfg = g.wdcfg := rfl
@[simp] theorem Group.advanceStreams_view (g : Group) (zs : List Nat) : (g.advanceStreams zs).view = g.view := rfl
@[simp] theorem Group.advanceStreams_queues (g : Group) (zs : List Nat) : (g.advanceStreams zs).queues = g.queues := rfl
@[simp] theorem Group.advanceStreams_copyTag (g : Group) (zs : List Nat) : (g.advanceStreams zs).copyTag = g.copyTag := rfl
@[simp] theorem Group.advanceStreams_mxTag (g : Group) (zs : List Nat) : (g.advanceStreams zs).mxTag = g.mxTag := rfl
@[simp] theorem Group.advanceStreams_arrived (g : Group) (zs : List Nat) : (g.advanceStreams zs).arrived = g.arrived := rfl
@[simp] theorem Group.advanceStreams_tiles (g : Group) (zs : List Nat) : (g.advanceStreams zs).tiles = g.tiles := rfl
@[simp] theorem Group.advanceStreams_mxq (g : Group) (zs : List Nat) : (g.advanceStreams zs).mxq = g.mxq := rfl
@[simp] theorem Group.advanceStreams_chanOpen (g : Group) (zs : List Nat) : (g.advanceStreams zs).chanOpen = g.chanOpen := rfl
@[simp] theorem Group.advanceStreams_relq (g : Group) (zs : List Nat) : (g.advanceStreams zs).relq = g.relq := rfl
@[simp] theorem Group.advanceStreams_loopBuf (g : Group) (zs : List Nat) : (g.advanceStreams zs).loopBuf = g.loopBuf := rfl
@[simp] theorem Group.advanceStreams_recruit (g : Group) (zs : List Nat) : (g.advanceStreams zs).recruit = g.recruit := rfl
@[simp] theorem Group.advanceStreams_helper (g : Group) (zs : List Nat) : (g.advanceStreams zs).helper = g.helper := rfl
@[simp] theorem Group.advanceStreams_region (g : Group) (zs : List Nat) : (g.advanceStreams zs).region = g.region := rfl
@[simp] theorem Group.advanceStreams_rgnRst (g : Group) (zs : List Nat) : (g.advanceStreams zs).rgnRst = g.rgnRst := rfl
@[simp] theorem Group.advanceStreams_reopens (g : Group) (zs : List Nat) : (g.advanceStreams zs).reopens = g.reopens := rfl
@[simp] theorem Group.advanceStreams_ccnt (g : Group) (zs : List Nat) : (g.advanceStreams zs).ccnt = g.ccnt := rfl
@[simp] theorem Group.advanceStreams_retired (g : Group) (zs : List Nat) : (g.advanceStreams zs).retired = g.retired := rfl
@[simp] theorem Group.advanceStreams_readyCc (g : Group) (zs : List Nat) : (g.advanceStreams zs).readyCc = g.readyCc := rfl
@[simp] theorem Group.advanceStreams_acqLoad (g : Group) (zs : List Nat) : (g.advanceStreams zs).acqLoad = g.acqLoad := rfl
@[simp] theorem Group.advanceStreams_l1Misses (g : Group) (zs : List Nat) : (g.advanceStreams zs).l1Misses = g.l1Misses := rfl
@[simp] theorem Group.advanceStreams_movedBytes (g : Group) (zs : List Nat) : (g.advanceStreams zs).movedBytes = g.movedBytes := rfl
@[simp] theorem Group.advanceStreams_progress (g : Group) (zs : List Nat) : (g.advanceStreams zs).progress = g.progress := rfl
@[simp] theorem Group.advanceStreams_unchosen (g : Group) (zs : List Nat) : (g.advanceStreams zs).unchosen = g.unchosen := rfl
@[simp] theorem Group.advanceStreams_raised (g : Group) (zs : List Nat) : (g.advanceStreams zs).raised = g.raised := rfl
@[simp] theorem Group.advanceStreams_stalled (g : Group) (zs : List Nat) : (g.advanceStreams zs).stalled = g.stalled := rfl
@[simp] theorem Group.advanceStreams_drowsy (g : Group) (zs : List Nat) : (g.advanceStreams zs).drowsy = g.drowsy := rfl
@[simp] theorem Group.advanceStreams_slot (g : Group) (zs : List Nat) : (g.advanceStreams zs).slot = g.slot := rfl
@[simp] theorem Group.advanceStreams_slotBytes (g : Group) (zs : List Nat) : (g.advanceStreams zs).slotBytes = g.slotBytes := rfl
@[simp] theorem Group.advanceStreams_preempt (g : Group) (zs : List Nat) : (g.advanceStreams zs).preempt = g.preempt := rfl
@[simp] theorem Group.advanceStreams_status (g : Group) (zs : List Nat) : (g.advanceStreams zs).status = g.status := rfl
@[simp] theorem Group.advanceStreams_remoteGot (g : Group) (zs : List Nat) : (g.advanceStreams zs).remoteGot = g.remoteGot := rfl
@[simp] theorem Group.advanceStreams_denied (g : Group) (zs : List Nat) : (g.advanceStreams zs).denied = g.denied := rfl
@[simp] theorem Group.advanceStreams_bankIds (g : Group) (zs : List Nat) : (g.advanceStreams zs).bankIds = g.bankIds := rfl
@[simp] theorem Group.countRetired_id (g : Group) : g.countRetired.id = g.id := rfl
@[simp] theorem Group.countRetired_sreg (g : Group) : g.countRetired.sreg = g.sreg := rfl
@[simp] theorem Group.countRetired_vreg (g : Group) : g.countRetired.vreg = g.vreg := rfl
@[simp] theorem Group.countRetired_gen (g : Group) : g.countRetired.gen = g.gen := rfl
@[simp] theorem Group.countRetired_fpcr (g : Group) : g.countRetired.fpcr = g.fpcr := rfl
@[simp] theorem Group.countRetired_fpsr (g : Group) : g.countRetired.fpsr = g.fpsr := rfl
@[simp] theorem Group.countRetired_mdef (g : Group) : g.countRetired.mdef = g.mdef := rfl
@[simp] theorem Group.countRetired_pc (g : Group) : g.countRetired.pc = g.pc := rfl
@[simp] theorem Group.countRetired_blockHdr (g : Group) : g.countRetired.blockHdr = g.blockHdr := rfl
@[simp] theorem Group.countRetired_blockEnd (g : Group) : g.countRetired.blockEnd = g.blockEnd := rfl
@[simp] theorem Group.countRetired_depth (g : Group) : g.countRetired.depth = g.depth := rfl
@[simp] theorem Group.countRetired_start (g : Group) : g.countRetired.start = g.start := rfl
@[simp] theorem Group.countRetired_exit (g : Group) : g.countRetired.exit = g.exit := rfl
@[simp] theorem Group.countRetired_lc (g : Group) : g.countRetired.lc = g.lc := rfl
@[simp] theorem Group.countRetired_latch (g : Group) : g.countRetired.latch = g.latch := rfl
@[simp] theorem Group.countRetired_trapBlockEnd (g : Group) : g.countRetired.trapBlockEnd = g.trapBlockEnd := rfl
@[simp] theorem Group.countRetired_trapHdr (g : Group) : g.countRetired.trapHdr = g.trapHdr := rfl
@[simp] theorem Group.countRetired_trapv (g : Group) : g.countRetired.trapv = g.trapv := rfl
@[simp] theorem Group.countRetired_trapc (g : Group) : g.countRetired.trapc = g.trapc := rfl
@[simp] theorem Group.countRetired_trappc (g : Group) : g.countRetired.trappc = g.trappc := rfl
@[simp] theorem Group.countRetired_trappcRec (g : Group) : g.countRetired.trappcRec = g.trappcRec := rfl
@[simp] theorem Group.countRetired_trapa (g : Group) : g.countRetired.trapa = g.trapa := rfl
@[simp] theorem Group.countRetired_wdcfg (g : Group) : g.countRetired.wdcfg = g.wdcfg := rfl
@[simp] theorem Group.countRetired_zreg (g : Group) : g.countRetired.zreg = g.zreg := rfl
@[simp] theorem Group.countRetired_view (g : Group) : g.countRetired.view = g.view := rfl
@[simp] theorem Group.countRetired_queues (g : Group) : g.countRetired.queues = g.queues := rfl
@[simp] theorem Group.countRetired_copyTag (g : Group) : g.countRetired.copyTag = g.copyTag := rfl
@[simp] theorem Group.countRetired_mxTag (g : Group) : g.countRetired.mxTag = g.mxTag := rfl
@[simp] theorem Group.countRetired_arrived (g : Group) : g.countRetired.arrived = g.arrived := rfl
@[simp] theorem Group.countRetired_tiles (g : Group) : g.countRetired.tiles = g.tiles := rfl
@[simp] theorem Group.countRetired_mxq (g : Group) : g.countRetired.mxq = g.mxq := rfl
@[simp] theorem Group.countRetired_chanOpen (g : Group) : g.countRetired.chanOpen = g.chanOpen := rfl
@[simp] theorem Group.countRetired_relq (g : Group) : g.countRetired.relq = g.relq := rfl
@[simp] theorem Group.countRetired_loopBuf (g : Group) : g.countRetired.loopBuf = g.loopBuf := rfl
@[simp] theorem Group.countRetired_recruit (g : Group) : g.countRetired.recruit = g.recruit := rfl
@[simp] theorem Group.countRetired_helper (g : Group) : g.countRetired.helper = g.helper := rfl
@[simp] theorem Group.countRetired_region (g : Group) : g.countRetired.region = g.region := rfl
@[simp] theorem Group.countRetired_rgnRst (g : Group) : g.countRetired.rgnRst = g.rgnRst := rfl
@[simp] theorem Group.countRetired_reopens (g : Group) : g.countRetired.reopens = g.reopens := rfl
@[simp] theorem Group.countRetired_ccnt (g : Group) : g.countRetired.ccnt = g.ccnt := rfl
@[simp] theorem Group.countRetired_readyCc (g : Group) : g.countRetired.readyCc = g.readyCc := rfl
@[simp] theorem Group.countRetired_acqLoad (g : Group) : g.countRetired.acqLoad = g.acqLoad := rfl
@[simp] theorem Group.countRetired_l1Misses (g : Group) : g.countRetired.l1Misses = g.l1Misses := rfl
@[simp] theorem Group.countRetired_movedBytes (g : Group) : g.countRetired.movedBytes = g.movedBytes := rfl
@[simp] theorem Group.countRetired_unchosen (g : Group) : g.countRetired.unchosen = g.unchosen := rfl
@[simp] theorem Group.countRetired_raised (g : Group) : g.countRetired.raised = g.raised := rfl
@[simp] theorem Group.countRetired_stalled (g : Group) : g.countRetired.stalled = g.stalled := rfl
@[simp] theorem Group.countRetired_drowsy (g : Group) : g.countRetired.drowsy = g.drowsy := rfl
@[simp] theorem Group.countRetired_slot (g : Group) : g.countRetired.slot = g.slot := rfl
@[simp] theorem Group.countRetired_slotBytes (g : Group) : g.countRetired.slotBytes = g.slotBytes := rfl
@[simp] theorem Group.countRetired_preempt (g : Group) : g.countRetired.preempt = g.preempt := rfl
@[simp] theorem Group.countRetired_status (g : Group) : g.countRetired.status = g.status := rfl
@[simp] theorem Group.countRetired_remoteGot (g : Group) : g.countRetired.remoteGot = g.remoteGot := rfl
@[simp] theorem Group.countRetired_denied (g : Group) : g.countRetired.denied = g.denied := rfl
@[simp] theorem Group.countRetired_bankIds (g : Group) : g.countRetired.bankIds = g.bankIds := rfl
@[simp] theorem Group.countRetired_retired (g : Group) : g.countRetired.retired = g.retired + 1 := rfl
@[simp] theorem Group.countRetired_progress (g : Group) : g.countRetired.progress = g.progress + 1 := rfl
@[simp] theorem Group.progressed_id (g : Group) : g.progressed.id = g.id := rfl
@[simp] theorem Group.progressed_sreg (g : Group) : g.progressed.sreg = g.sreg := rfl
@[simp] theorem Group.progressed_vreg (g : Group) : g.progressed.vreg = g.vreg := rfl
@[simp] theorem Group.progressed_gen (g : Group) : g.progressed.gen = g.gen := rfl
@[simp] theorem Group.progressed_fpcr (g : Group) : g.progressed.fpcr = g.fpcr := rfl
@[simp] theorem Group.progressed_fpsr (g : Group) : g.progressed.fpsr = g.fpsr := rfl
@[simp] theorem Group.progressed_mdef (g : Group) : g.progressed.mdef = g.mdef := rfl
@[simp] theorem Group.progressed_pc (g : Group) : g.progressed.pc = g.pc := rfl
@[simp] theorem Group.progressed_blockHdr (g : Group) : g.progressed.blockHdr = g.blockHdr := rfl
@[simp] theorem Group.progressed_blockEnd (g : Group) : g.progressed.blockEnd = g.blockEnd := rfl
@[simp] theorem Group.progressed_depth (g : Group) : g.progressed.depth = g.depth := rfl
@[simp] theorem Group.progressed_start (g : Group) : g.progressed.start = g.start := rfl
@[simp] theorem Group.progressed_exit (g : Group) : g.progressed.exit = g.exit := rfl
@[simp] theorem Group.progressed_lc (g : Group) : g.progressed.lc = g.lc := rfl
@[simp] theorem Group.progressed_latch (g : Group) : g.progressed.latch = g.latch := rfl
@[simp] theorem Group.progressed_trapBlockEnd (g : Group) : g.progressed.trapBlockEnd = g.trapBlockEnd := rfl
@[simp] theorem Group.progressed_trapHdr (g : Group) : g.progressed.trapHdr = g.trapHdr := rfl
@[simp] theorem Group.progressed_trapv (g : Group) : g.progressed.trapv = g.trapv := rfl
@[simp] theorem Group.progressed_trapc (g : Group) : g.progressed.trapc = g.trapc := rfl
@[simp] theorem Group.progressed_trappc (g : Group) : g.progressed.trappc = g.trappc := rfl
@[simp] theorem Group.progressed_trappcRec (g : Group) : g.progressed.trappcRec = g.trappcRec := rfl
@[simp] theorem Group.progressed_trapa (g : Group) : g.progressed.trapa = g.trapa := rfl
@[simp] theorem Group.progressed_wdcfg (g : Group) : g.progressed.wdcfg = g.wdcfg := rfl
@[simp] theorem Group.progressed_zreg (g : Group) : g.progressed.zreg = g.zreg := rfl
@[simp] theorem Group.progressed_view (g : Group) : g.progressed.view = g.view := rfl
@[simp] theorem Group.progressed_queues (g : Group) : g.progressed.queues = g.queues := rfl
@[simp] theorem Group.progressed_copyTag (g : Group) : g.progressed.copyTag = g.copyTag := rfl
@[simp] theorem Group.progressed_mxTag (g : Group) : g.progressed.mxTag = g.mxTag := rfl
@[simp] theorem Group.progressed_arrived (g : Group) : g.progressed.arrived = g.arrived := rfl
@[simp] theorem Group.progressed_tiles (g : Group) : g.progressed.tiles = g.tiles := rfl
@[simp] theorem Group.progressed_mxq (g : Group) : g.progressed.mxq = g.mxq := rfl
@[simp] theorem Group.progressed_chanOpen (g : Group) : g.progressed.chanOpen = g.chanOpen := rfl
@[simp] theorem Group.progressed_relq (g : Group) : g.progressed.relq = g.relq := rfl
@[simp] theorem Group.progressed_loopBuf (g : Group) : g.progressed.loopBuf = g.loopBuf := rfl
@[simp] theorem Group.progressed_recruit (g : Group) : g.progressed.recruit = g.recruit := rfl
@[simp] theorem Group.progressed_helper (g : Group) : g.progressed.helper = g.helper := rfl
@[simp] theorem Group.progressed_region (g : Group) : g.progressed.region = g.region := rfl
@[simp] theorem Group.progressed_rgnRst (g : Group) : g.progressed.rgnRst = g.rgnRst := rfl
@[simp] theorem Group.progressed_reopens (g : Group) : g.progressed.reopens = g.reopens := rfl
@[simp] theorem Group.progressed_ccnt (g : Group) : g.progressed.ccnt = g.ccnt := rfl
@[simp] theorem Group.progressed_retired (g : Group) : g.progressed.retired = g.retired := rfl
@[simp] theorem Group.progressed_readyCc (g : Group) : g.progressed.readyCc = g.readyCc := rfl
@[simp] theorem Group.progressed_acqLoad (g : Group) : g.progressed.acqLoad = g.acqLoad := rfl
@[simp] theorem Group.progressed_l1Misses (g : Group) : g.progressed.l1Misses = g.l1Misses := rfl
@[simp] theorem Group.progressed_movedBytes (g : Group) : g.progressed.movedBytes = g.movedBytes := rfl
@[simp] theorem Group.progressed_unchosen (g : Group) : g.progressed.unchosen = g.unchosen := rfl
@[simp] theorem Group.progressed_raised (g : Group) : g.progressed.raised = g.raised := rfl
@[simp] theorem Group.progressed_stalled (g : Group) : g.progressed.stalled = g.stalled := rfl
@[simp] theorem Group.progressed_drowsy (g : Group) : g.progressed.drowsy = g.drowsy := rfl
@[simp] theorem Group.progressed_slot (g : Group) : g.progressed.slot = g.slot := rfl
@[simp] theorem Group.progressed_slotBytes (g : Group) : g.progressed.slotBytes = g.slotBytes := rfl
@[simp] theorem Group.progressed_preempt (g : Group) : g.progressed.preempt = g.preempt := rfl
@[simp] theorem Group.progressed_status (g : Group) : g.progressed.status = g.status := rfl
@[simp] theorem Group.progressed_remoteGot (g : Group) : g.progressed.remoteGot = g.remoteGot := rfl
@[simp] theorem Group.progressed_denied (g : Group) : g.progressed.denied = g.denied := rfl
@[simp] theorem Group.progressed_bankIds (g : Group) : g.progressed.bankIds = g.bankIds := rfl
@[simp] theorem Group.progressed_progress (g : Group) : g.progressed.progress = 0 := rfl
/-! ### Loops -/

@[simp] theorem Group.openLoop_id (g : Group) (e : DWord) (n : Word) : (g.openLoop e n).id = g.id := rfl
@[simp] theorem Group.leaveLoop_id (g : Group) : g.leaveLoop.id = g.id := rfl
@[simp] theorem Group.openLoop_sreg (g : Group) (e : DWord) (n : Word) : (g.openLoop e n).sreg = g.sreg := rfl
@[simp] theorem Group.leaveLoop_sreg (g : Group) : g.leaveLoop.sreg = g.sreg := rfl
@[simp] theorem Group.openLoop_vreg (g : Group) (e : DWord) (n : Word) : (g.openLoop e n).vreg = g.vreg := rfl
@[simp] theorem Group.leaveLoop_vreg (g : Group) : g.leaveLoop.vreg = g.vreg := rfl
@[simp] theorem Group.openLoop_gen (g : Group) (e : DWord) (n : Word) : (g.openLoop e n).gen = g.gen := rfl
@[simp] theorem Group.leaveLoop_gen (g : Group) : g.leaveLoop.gen = g.gen := rfl
@[simp] theorem Group.openLoop_fpcr (g : Group) (e : DWord) (n : Word) : (g.openLoop e n).fpcr = g.fpcr := rfl
@[simp] theorem Group.leaveLoop_fpcr (g : Group) : g.leaveLoop.fpcr = g.fpcr := rfl
@[simp] theorem Group.openLoop_fpsr (g : Group) (e : DWord) (n : Word) : (g.openLoop e n).fpsr = g.fpsr := rfl
@[simp] theorem Group.leaveLoop_fpsr (g : Group) : g.leaveLoop.fpsr = g.fpsr := rfl
@[simp] theorem Group.openLoop_mdef (g : Group) (e : DWord) (n : Word) : (g.openLoop e n).mdef = g.mdef := rfl
@[simp] theorem Group.leaveLoop_mdef (g : Group) : g.leaveLoop.mdef = g.mdef := rfl
@[simp] theorem Group.openLoop_pc (g : Group) (e : DWord) (n : Word) : (g.openLoop e n).pc = g.pc := rfl
@[simp] theorem Group.leaveLoop_pc (g : Group) : g.leaveLoop.pc = g.pc := rfl
@[simp] theorem Group.openLoop_blockHdr (g : Group) (e : DWord) (n : Word) : (g.openLoop e n).blockHdr = g.blockHdr := rfl
@[simp] theorem Group.leaveLoop_blockHdr (g : Group) : g.leaveLoop.blockHdr = g.blockHdr := rfl
@[simp] theorem Group.openLoop_blockEnd (g : Group) (e : DWord) (n : Word) : (g.openLoop e n).blockEnd = g.blockEnd := rfl
@[simp] theorem Group.leaveLoop_blockEnd (g : Group) : g.leaveLoop.blockEnd = g.blockEnd := rfl
@[simp] theorem Group.openLoop_latch (g : Group) (e : DWord) (n : Word) : (g.openLoop e n).latch = g.latch := rfl
@[simp] theorem Group.leaveLoop_latch (g : Group) : g.leaveLoop.latch = g.latch := rfl
@[simp] theorem Group.openLoop_trapBlockEnd (g : Group) (e : DWord) (n : Word) : (g.openLoop e n).trapBlockEnd = g.trapBlockEnd := rfl
@[simp] theorem Group.leaveLoop_trapBlockEnd (g : Group) : g.leaveLoop.trapBlockEnd = g.trapBlockEnd := rfl
@[simp] theorem Group.openLoop_trapHdr (g : Group) (e : DWord) (n : Word) : (g.openLoop e n).trapHdr = g.trapHdr := rfl
@[simp] theorem Group.leaveLoop_trapHdr (g : Group) : g.leaveLoop.trapHdr = g.trapHdr := rfl
@[simp] theorem Group.openLoop_trapv (g : Group) (e : DWord) (n : Word) : (g.openLoop e n).trapv = g.trapv := rfl
@[simp] theorem Group.leaveLoop_trapv (g : Group) : g.leaveLoop.trapv = g.trapv := rfl
@[simp] theorem Group.openLoop_trapc (g : Group) (e : DWord) (n : Word) : (g.openLoop e n).trapc = g.trapc := rfl
@[simp] theorem Group.leaveLoop_trapc (g : Group) : g.leaveLoop.trapc = g.trapc := rfl
@[simp] theorem Group.openLoop_trappc (g : Group) (e : DWord) (n : Word) : (g.openLoop e n).trappc = g.trappc := rfl
@[simp] theorem Group.leaveLoop_trappc (g : Group) : g.leaveLoop.trappc = g.trappc := rfl
@[simp] theorem Group.openLoop_trappcRec (g : Group) (e : DWord) (n : Word) : (g.openLoop e n).trappcRec = g.trappcRec := rfl
@[simp] theorem Group.leaveLoop_trappcRec (g : Group) : g.leaveLoop.trappcRec = g.trappcRec := rfl
@[simp] theorem Group.openLoop_trapa (g : Group) (e : DWord) (n : Word) : (g.openLoop e n).trapa = g.trapa := rfl
@[simp] theorem Group.leaveLoop_trapa (g : Group) : g.leaveLoop.trapa = g.trapa := rfl
@[simp] theorem Group.openLoop_wdcfg (g : Group) (e : DWord) (n : Word) : (g.openLoop e n).wdcfg = g.wdcfg := rfl
@[simp] theorem Group.leaveLoop_wdcfg (g : Group) : g.leaveLoop.wdcfg = g.wdcfg := rfl
@[simp] theorem Group.openLoop_zreg (g : Group) (e : DWord) (n : Word) : (g.openLoop e n).zreg = g.zreg := rfl
@[simp] theorem Group.leaveLoop_zreg (g : Group) : g.leaveLoop.zreg = g.zreg := rfl
@[simp] theorem Group.openLoop_view (g : Group) (e : DWord) (n : Word) : (g.openLoop e n).view = g.view := rfl
@[simp] theorem Group.leaveLoop_view (g : Group) : g.leaveLoop.view = g.view := rfl
@[simp] theorem Group.openLoop_queues (g : Group) (e : DWord) (n : Word) : (g.openLoop e n).queues = g.queues := rfl
@[simp] theorem Group.leaveLoop_queues (g : Group) : g.leaveLoop.queues = g.queues := rfl
@[simp] theorem Group.openLoop_copyTag (g : Group) (e : DWord) (n : Word) : (g.openLoop e n).copyTag = g.copyTag := rfl
@[simp] theorem Group.leaveLoop_copyTag (g : Group) : g.leaveLoop.copyTag = g.copyTag := rfl
@[simp] theorem Group.openLoop_mxTag (g : Group) (e : DWord) (n : Word) : (g.openLoop e n).mxTag = g.mxTag := rfl
@[simp] theorem Group.leaveLoop_mxTag (g : Group) : g.leaveLoop.mxTag = g.mxTag := rfl
@[simp] theorem Group.openLoop_arrived (g : Group) (e : DWord) (n : Word) : (g.openLoop e n).arrived = g.arrived := rfl
@[simp] theorem Group.leaveLoop_arrived (g : Group) : g.leaveLoop.arrived = g.arrived := rfl
@[simp] theorem Group.openLoop_tiles (g : Group) (e : DWord) (n : Word) : (g.openLoop e n).tiles = g.tiles := rfl
@[simp] theorem Group.leaveLoop_tiles (g : Group) : g.leaveLoop.tiles = g.tiles := rfl
@[simp] theorem Group.openLoop_mxq (g : Group) (e : DWord) (n : Word) : (g.openLoop e n).mxq = g.mxq := rfl
@[simp] theorem Group.leaveLoop_mxq (g : Group) : g.leaveLoop.mxq = g.mxq := rfl
@[simp] theorem Group.openLoop_chanOpen (g : Group) (e : DWord) (n : Word) : (g.openLoop e n).chanOpen = g.chanOpen := rfl
@[simp] theorem Group.leaveLoop_chanOpen (g : Group) : g.leaveLoop.chanOpen = g.chanOpen := rfl
@[simp] theorem Group.openLoop_relq (g : Group) (e : DWord) (n : Word) : (g.openLoop e n).relq = g.relq := rfl
@[simp] theorem Group.leaveLoop_relq (g : Group) : g.leaveLoop.relq = g.relq := rfl
@[simp] theorem Group.openLoop_loopBuf (g : Group) (e : DWord) (n : Word) : (g.openLoop e n).loopBuf = g.loopBuf := rfl
@[simp] theorem Group.leaveLoop_loopBuf (g : Group) : g.leaveLoop.loopBuf = g.loopBuf := rfl
@[simp] theorem Group.openLoop_recruit (g : Group) (e : DWord) (n : Word) : (g.openLoop e n).recruit = g.recruit := rfl
@[simp] theorem Group.leaveLoop_recruit (g : Group) : g.leaveLoop.recruit = g.recruit := rfl
@[simp] theorem Group.openLoop_helper (g : Group) (e : DWord) (n : Word) : (g.openLoop e n).helper = g.helper := rfl
@[simp] theorem Group.leaveLoop_helper (g : Group) : g.leaveLoop.helper = g.helper := rfl
@[simp] theorem Group.openLoop_region (g : Group) (e : DWord) (n : Word) : (g.openLoop e n).region = g.region := rfl
@[simp] theorem Group.leaveLoop_region (g : Group) : g.leaveLoop.region = g.region := rfl
@[simp] theorem Group.openLoop_rgnRst (g : Group) (e : DWord) (n : Word) : (g.openLoop e n).rgnRst = g.rgnRst := rfl
@[simp] theorem Group.leaveLoop_rgnRst (g : Group) : g.leaveLoop.rgnRst = g.rgnRst := rfl
@[simp] theorem Group.openLoop_reopens (g : Group) (e : DWord) (n : Word) : (g.openLoop e n).reopens = g.reopens := rfl
@[simp] theorem Group.leaveLoop_reopens (g : Group) : g.leaveLoop.reopens = g.reopens := rfl
@[simp] theorem Group.openLoop_ccnt (g : Group) (e : DWord) (n : Word) : (g.openLoop e n).ccnt = g.ccnt := rfl
@[simp] theorem Group.leaveLoop_ccnt (g : Group) : g.leaveLoop.ccnt = g.ccnt := rfl
@[simp] theorem Group.openLoop_retired (g : Group) (e : DWord) (n : Word) : (g.openLoop e n).retired = g.retired := rfl
@[simp] theorem Group.leaveLoop_retired (g : Group) : g.leaveLoop.retired = g.retired := rfl
@[simp] theorem Group.openLoop_readyCc (g : Group) (e : DWord) (n : Word) : (g.openLoop e n).readyCc = g.readyCc := rfl
@[simp] theorem Group.leaveLoop_readyCc (g : Group) : g.leaveLoop.readyCc = g.readyCc := rfl
@[simp] theorem Group.openLoop_acqLoad (g : Group) (e : DWord) (n : Word) : (g.openLoop e n).acqLoad = g.acqLoad := rfl
@[simp] theorem Group.leaveLoop_acqLoad (g : Group) : g.leaveLoop.acqLoad = g.acqLoad := rfl
@[simp] theorem Group.openLoop_l1Misses (g : Group) (e : DWord) (n : Word) : (g.openLoop e n).l1Misses = g.l1Misses := rfl
@[simp] theorem Group.leaveLoop_l1Misses (g : Group) : g.leaveLoop.l1Misses = g.l1Misses := rfl
@[simp] theorem Group.openLoop_movedBytes (g : Group) (e : DWord) (n : Word) : (g.openLoop e n).movedBytes = g.movedBytes := rfl
@[simp] theorem Group.leaveLoop_movedBytes (g : Group) : g.leaveLoop.movedBytes = g.movedBytes := rfl
@[simp] theorem Group.openLoop_progress (g : Group) (e : DWord) (n : Word) : (g.openLoop e n).progress = g.progress := rfl
@[simp] theorem Group.leaveLoop_progress (g : Group) : g.leaveLoop.progress = g.progress := rfl
@[simp] theorem Group.openLoop_unchosen (g : Group) (e : DWord) (n : Word) : (g.openLoop e n).unchosen = g.unchosen := rfl
@[simp] theorem Group.leaveLoop_unchosen (g : Group) : g.leaveLoop.unchosen = g.unchosen := rfl
@[simp] theorem Group.openLoop_raised (g : Group) (e : DWord) (n : Word) : (g.openLoop e n).raised = g.raised := rfl
@[simp] theorem Group.leaveLoop_raised (g : Group) : g.leaveLoop.raised = g.raised := rfl
@[simp] theorem Group.openLoop_stalled (g : Group) (e : DWord) (n : Word) : (g.openLoop e n).stalled = g.stalled := rfl
@[simp] theorem Group.leaveLoop_stalled (g : Group) : g.leaveLoop.stalled = g.stalled := rfl
@[simp] theorem Group.openLoop_drowsy (g : Group) (e : DWord) (n : Word) : (g.openLoop e n).drowsy = g.drowsy := rfl
@[simp] theorem Group.leaveLoop_drowsy (g : Group) : g.leaveLoop.drowsy = g.drowsy := rfl
@[simp] theorem Group.openLoop_slot (g : Group) (e : DWord) (n : Word) : (g.openLoop e n).slot = g.slot := rfl
@[simp] theorem Group.leaveLoop_slot (g : Group) : g.leaveLoop.slot = g.slot := rfl
@[simp] theorem Group.openLoop_slotBytes (g : Group) (e : DWord) (n : Word) : (g.openLoop e n).slotBytes = g.slotBytes := rfl
@[simp] theorem Group.leaveLoop_slotBytes (g : Group) : g.leaveLoop.slotBytes = g.slotBytes := rfl
@[simp] theorem Group.openLoop_preempt (g : Group) (e : DWord) (n : Word) : (g.openLoop e n).preempt = g.preempt := rfl
@[simp] theorem Group.leaveLoop_preempt (g : Group) : g.leaveLoop.preempt = g.preempt := rfl
@[simp] theorem Group.openLoop_status (g : Group) (e : DWord) (n : Word) : (g.openLoop e n).status = g.status := rfl
@[simp] theorem Group.leaveLoop_status (g : Group) : g.leaveLoop.status = g.status := rfl
@[simp] theorem Group.openLoop_remoteGot (g : Group) (e : DWord) (n : Word) : (g.openLoop e n).remoteGot = g.remoteGot := rfl
@[simp] theorem Group.leaveLoop_remoteGot (g : Group) : g.leaveLoop.remoteGot = g.remoteGot := rfl
@[simp] theorem Group.openLoop_denied (g : Group) (e : DWord) (n : Word) : (g.openLoop e n).denied = g.denied := rfl
@[simp] theorem Group.leaveLoop_denied (g : Group) : g.leaveLoop.denied = g.denied := rfl
@[simp] theorem Group.openLoop_bankIds (g : Group) (e : DWord) (n : Word) : (g.openLoop e n).bankIds = g.bankIds := rfl
@[simp] theorem Group.leaveLoop_bankIds (g : Group) : g.leaveLoop.bankIds = g.bankIds := rfl
@[simp] theorem Group.openLoop_depth (g : Group) (e : DWord) (n : Word) : (g.openLoop e n).depth = g.depth + 1 := rfl
@[simp] theorem Group.leaveLoop_depth (g : Group) : g.leaveLoop.depth = g.depth - 1 := rfl

/-! ### Reading a scalar back -/

/-- s0 reads 0 (R49). -/
@[simp] theorem Group.rs_zero (g : Group) : g.rs 0 = 0 := rfl

/-- A write to s0 is discarded (R49). -/
@[simp] theorem Group.ws_zero (g : Group) (x : Word) : g.ws 0 x = g := rfl

/-- Pair base 0 reads 0 (R49). -/
@[simp] theorem Group.rp_zero (g : Group) : g.rp 0 = 0 := rfl

/-- A write to pair base 0 is discarded (R49). -/
@[simp] theorem Group.wp_zero (g : Group) (x : DWord) : g.wp 0 x = g := rfl

/-- A scalar other than s0 reads what was written to it. -/
theorem Group.rs_ws_self (g : Group) (n : BitVec 6) (x : Word) (h : n ≠ 0) : (g.ws n x).rs n = x := by
  unfold Group.rs Group.ws
  rw [if_neg h]
  split
  · contradiction
  · exact Vector.getElem_set_self _

/-- A write leaves the other scalars. -/
theorem Group.rs_ws_other (g : Group) (n m : BitVec 6) (x : Word) (h : m ≠ n) : (g.ws n x).rs m = g.rs m := by
  have hv : n.toNat ≠ m.toNat := fun e => h (BitVec.eq_of_toNat_eq e.symm)
  unfold Group.rs Group.ws
  split
  · rfl
  · split
    · rfl
    · exact Vector.getElem_set_ne (by have := n.isLt; omega) _ hv

/-- The successor of an even base differs from it and is not 0. -/
theorem succ_of_even (n : BitVec 6) (h : n.toNat % 2 = 0) : n + 1 ≠ n ∧ n + 1 ≠ 0 ∧ (n + 1).toNat = n.toNat + 1 := by
  have := n.isLt
  have e : (n + 1).toNat = n.toNat + 1 := by rw [BitVec.toNat_add]; simp; omega
  refine ⟨fun q => ?_, fun q => ?_, e⟩
  · have := congrArg BitVec.toNat q; omega
  · have := congrArg BitVec.toNat q; simp at this; omega

/-- The halves of a pair put together. -/
@[simp] theorem pairOf_halves (x : DWord) : pairOf (loHalf x) (hiHalf x) = x := by
  unfold pairOf loHalf hiHalf
  apply BitVec.eq_of_getLsbD_eq
  intro i hi
  rw [BitVec.getLsbD_append]
  by_cases h : i < 32
  · simp [h]
  · have : 32 + (i - 32) = i := by omega
    simp [h, BitVec.getLsbD_extractLsb', this]; omega

/-- A pair of an even base other than 0 reads what was written to it. -/
theorem Group.rp_wp_self (g : Group) (n : BitVec 6) (x : DWord) (h : n ≠ 0) (e : n.toNat % 2 = 0) :
    (g.wp n x).rp n = x := by
  obtain ⟨h1, h2, -⟩ := succ_of_even n e
  simp only [Group.rp, Group.wp, h, if_false]
  rw [Group.rs_ws_self _ _ _ h2, Group.rs_ws_other _ _ _ _ h1.symm, Group.rs_ws_self _ _ _ h, pairOf_halves]

/-- A write of a pair leaves the scalars outside it. -/
theorem Group.rs_wp_other (g : Group) (n m : BitVec 6) (x : DWord) (h : m ≠ n) (h1 : m ≠ n + 1) :
    (g.wp n x).rs m = g.rs m := by
  unfold Group.wp
  split
  · rfl
  · rw [Group.rs_ws_other _ _ _ _ h1, Group.rs_ws_other _ _ _ _ h]

/-! ### Reading a vector register back -/

/-- A register of the allocation reads what was written to it. -/
theorem Group.rv_wv_self (g : Group) (n p : Nat) (x : Lanes) (h : g.phys n = some p) (hp : p < 232) :
    (g.wv n x).rv n = x := by
  have hq : (g.wv n x).phys n = some p := by simpa [Group.phys] using h
  have hw : (g.wv n x).vreg = g.vreg.setIfInBounds p x := by unfold Group.wv; rw [h]
  unfold Group.rv
  rw [hq]
  simp [Group.physLanes, hw, hp]

/-- A merge takes the new lanes of the set and the old ones outside it (R93). -/
theorem mergeLanes_get (m : LaneSet) (old new : Lanes) (l : Nat) (h : l < 96) :
    (mergeLanes m old new)[l] = if m.getLsbD l then new[l] else old[l] := by
  simp [mergeLanes, BitVec.getLsbD_eq_getElem h]

end Sys2Proof.Machine
end

