-- ==== Sys2Proof/Laws/Memory.lean ====
section
/-! SUPPORT. The laws of memory: a read after a write, and that every operation over memory keeps the canonical form. -/

namespace Sys2Proof.Machine

open Sys2Proof

/-! ### The list of bytes -/

/-- The canonical form of a list with a first byte. -/
theorem Memory.wfFrom_cons {lo b : Nat} {v : Byte} {rest : Memory} :
    Memory.wfFrom lo ((b, v) :: rest) = true ↔ lo ≤ b ∧ v ≠ 0 ∧ Memory.wfFrom (b + 1) rest = true := by
  simp only [Memory.wfFrom, Bool.and_eq_true, decide_eq_true_eq, and_assoc]

/-- A later bound is a weaker demand. -/
theorem Memory.wfFrom_mono {lo lo' : Nat} {m : Memory} (h : Memory.wfFrom lo m = true) (hl : lo' ≤ lo) :
    Memory.wfFrom lo' m = true := by
  cases m with
  | nil => rfl
  | cons c rest =>
    obtain ⟨b, v⟩ := c
    simp only [Memory.wfFrom, Bool.and_eq_true, decide_eq_true_eq] at h ⊢
    exact ⟨⟨by omega, h.1.2⟩, h.2⟩

/-- A key below the bound of a canonical list is not listed. -/
theorem Memory.get_below {lo a : Nat} {m : Memory} (h : Memory.wfFrom lo m = true) (ha : a < lo) : m.get a = 0 := by
  cases m with
  | nil => rfl
  | cons c rest =>
    obtain ⟨b, v⟩ := c
    simp only [Memory.wfFrom, Bool.and_eq_true, decide_eq_true_eq] at h
    have h1 : ¬ a = b := by omega
    have h2 : a < b := by omega
    simp [Memory.get, h1, h2]

/-- A write keeps the canonical form above a bound. -/
theorem Memory.wfFrom_set {lo a : Nat} {m : Memory} {x : Byte} (h : Memory.wfFrom lo m = true) (ha : lo ≤ a) :
    Memory.wfFrom lo (m.set a x) = true := by
  induction m generalizing lo with
  | nil =>
    unfold Memory.set
    split
    · rfl
    · rename_i hx; exact Memory.wfFrom_cons.2 ⟨ha, hx, rfl⟩
  | cons c rest ih =>
    obtain ⟨b, v⟩ := c
    obtain ⟨h1, h2, h3⟩ := Memory.wfFrom_cons.1 h
    unfold Memory.set
    split
    · split
      · exact h
      · rename_i hx; exact Memory.wfFrom_cons.2 ⟨ha, hx, Memory.wfFrom_cons.2 ⟨by omega, h2, h3⟩⟩
    · split
      · rename_i he
        split
        · exact Memory.wfFrom_mono h3 (by omega)
        · rename_i hx; exact Memory.wfFrom_cons.2 ⟨ha, hx, he ▸ h3⟩
      · exact Memory.wfFrom_cons.2 ⟨h1, h2, ih h3 (by omega)⟩

/-- A write keeps the canonical form. -/
theorem Memory.wf_set {m : Memory} (h : m.wf = true) (a : Nat) (x : Byte) : (m.set a x).wf = true :=
  Memory.wfFrom_set h (Nat.zero_le a)

/-- Writes keep the canonical form. -/
theorem Memory.wf_setMany {m : Memory} (h : m.wf = true) (a : Nat) (xs : List Byte) : (m.setMany a xs).wf = true := by
  induction xs generalizing m a with
  | nil => exact h
  | cons x xs ih => exact ih (Memory.wf_set h a x) (a + 1)

/-- Leaving bytes out keeps the canonical form above a bound. -/
theorem Memory.wfFrom_filter {lo : Nat} {m : Memory} (p : Host.Cell → Bool) (h : Memory.wfFrom lo m = true) :
    Memory.wfFrom lo (m.filter p) = true := by
  induction m generalizing lo with
  | nil => rfl
  | cons c rest ih =>
    obtain ⟨b, v⟩ := c
    obtain ⟨h1, h2, h3⟩ := Memory.wfFrom_cons.1 h
    rw [List.filter_cons]
    split
    · exact Memory.wfFrom_cons.2 ⟨h1, h2, ih h3⟩
    · exact Memory.wfFrom_mono (ih h3) (by omega)

/-- Leaving bytes out keeps the canonical form. -/
theorem Memory.wf_filter {m : Memory} (p : Host.Cell → Bool) (h : m.wf = true) :
    Memory.wf (m.filter p) = true := Memory.wfFrom_filter p h

/-- Writes of a list of cells keep the canonical form. -/
theorem Memory.wf_foldr_set {m : Memory} (o : List Host.Cell) (h : m.wf = true) :
    Memory.wf (o.foldr (fun c m => Memory.set m c.1 c.2) m) = true := by
  induction o with
  | nil => exact h
  | cons c cs ih => exact Memory.wf_set ih c.1 c.2

/-- A read after a write to the same key gives the byte written. -/
theorem Memory.get_set_self {lo a : Nat} {m : Memory} {x : Byte} (h : Memory.wfFrom lo m = true) :
    (m.set a x).get a = x := by
  induction m generalizing lo with
  | nil =>
    unfold Memory.set
    split <;> simp [Memory.get, *]
  | cons c rest ih =>
    obtain ⟨b, v⟩ := c
    simp only [Memory.wfFrom, Bool.and_eq_true, decide_eq_true_eq] at h
    unfold Memory.set
    split
    · rename_i hab
      split
      · simp [Memory.get, Nat.ne_of_lt hab, *]
      · simp [Memory.get]
    · rename_i hab
      split
      · rename_i he
        split
        · rename_i hx
          rw [Memory.get_below h.2 (by omega), hx]
        · simp [Memory.get]
      · rename_i he
        simp only [Memory.get, he, hab, if_false]
        exact ih h.2

/-- A write leaves every other byte. -/
theorem Memory.get_set_other {lo a b : Nat} {m : Memory} {x : Byte} (h : Memory.wfFrom lo m = true) (hb : b ≠ a) :
    (m.set a x).get b = m.get b := by
  induction m generalizing lo with
  | nil =>
    unfold Memory.set
    split
    · rfl
    · simp [Memory.get, hb]
  | cons c rest ih =>
    obtain ⟨k, v⟩ := c
    simp only [Memory.wfFrom, Bool.and_eq_true, decide_eq_true_eq] at h
    unfold Memory.set
    split
    · rename_i hak
      split
      · rfl
      · have hg : b < a → (if b = k then v else if b < k then 0 else Memory.get rest b) = 0 := fun q => by
          have h1 : ¬ b = k := by omega
          have h2 : b < k := by omega
          simp [h1, h2]
        simp only [Memory.get, hb, if_false]
        split
        · rename_i q; exact (hg q).symm
        · rfl
    · rename_i hak
      split
      · rename_i he
        subst he
        split
        · simp only [Memory.get, hb, if_false]
          split
          · rename_i q; exact Memory.get_below h.2 (by omega)
          · rfl
        · simp [Memory.get, hb]
      · simp only [Memory.get]
        rw [ih h.2]

/-- Equal lists read alike, and canonical lists that read alike are equal. -/
theorem Memory.ext {lo : Nat} {m n : Memory} (hm : Memory.wfFrom lo m = true) (hn : Memory.wfFrom lo n = true)
    (h : ∀ a, m.get a = n.get a) : m = n := by
  induction m generalizing lo n with
  | nil =>
    cases n with
    | nil => rfl
    | cons c rest =>
      obtain ⟨b, v⟩ := c
      simp only [Memory.wfFrom, Bool.and_eq_true, decide_eq_true_eq] at hn
      have := h b
      simp only [Memory.get, if_true] at this
      exact absurd this.symm hn.1.2
  | cons c rest ih =>
    obtain ⟨a, v⟩ := c
    have hm' := hm
    simp only [Memory.wfFrom, Bool.and_eq_true, decide_eq_true_eq] at hm
    cases n with
    | nil =>
      have := h a
      simp only [Memory.get, if_true] at this
      exact absurd this hm.1.2
    | cons d more =>
      obtain ⟨b, w⟩ := d
      have hn' := hn
      simp only [Memory.wfFrom, Bool.and_eq_true, decide_eq_true_eq] at hn
      have hab : a = b := by
        rcases Nat.lt_trichotomy a b with q | q | q
        · have := h a
          simp only [Memory.get, if_true, Nat.ne_of_lt q, if_false, q] at this
          exact absurd this hm.1.2
        · exact q
        · have := h b
          simp only [Memory.get, if_true, Nat.ne_of_lt q, if_false, q] at this
          exact absurd this.symm hn.1.2
      subst hab
      have hv : v = w := by simpa [Memory.get] using h a
      subst hv
      congr 1
      refine ih (lo := a + 1) hm.2 hn.2 (fun k => ?_)
      by_cases hk : k ≤ a
      · rw [Memory.get_below hm.2 (by omega), Memory.get_below hn.2 (by omega)]
      · have := h k
        have h1 : ¬ k = a := by omega
        have h2 : ¬ k < a := by omega
        simpa [Memory.get, h1, h2] using this

end Sys2Proof.Machine
end

