-- ==== Sys2Proof/Laws/Canonical.lean ====
section
/-! SUPPORT. The named operations over memory keep the canonical form of memory. -/

namespace Sys2Proof.Machine

open Sys2Proof

/-! ### The coherent value and the copies of lines -/

/-- A write of a coherent byte keeps the canonical form. -/
theorem State.setBacking_wf {s : State} (h : s.mem.wf = true) (k : Nat) (x : Byte) : (s.setBacking k x).mem.wf = true := by
  unfold State.setBacking
  split
  · exact h
  · exact h
  · exact Memory.wf_set h k x

/-- A write at L2 keeps it. -/
theorem State.writeL2Byte_wf {s : State} (h : s.mem.wf = true) (c k : Nat) (x : Byte) :
    (s.writeL2Byte c k x).mem.wf = true := State.setBacking_wf h k x

/-- Writes at L2 keep it. -/
theorem State.writeL2_wf {s : State} (h : s.mem.wf = true) (c k : Nat) (xs : List Byte) :
    (s.writeL2 c k xs).mem.wf = true := by
  induction xs generalizing s k with
  | nil => exact h
  | cons x xs ih => exact ih (State.writeL2Byte_wf h c k x) (k + 1)

/-- A line that takes a way changes no memory. -/
@[simp] theorem State.allocL2_mem (s : State) (x : L2Line) : (s.allocL2 x).mem = s.mem := by
  unfold State.allocL2; split <;> rfl

/-- Fetching a line into L2 changes no memory. -/
@[simp] theorem State.fillL2_mem (s : State) (c l k p : Nat) : (s.fillL2 c l k p).mem = s.mem := by
  unfold State.fillL2; dsimp only; split
  · rfl
  · rw [State.allocL2_mem]

/-- Counting an event changes no memory. -/
@[simp] theorem State.countEvent_mem (s : State) (t sel n : Nat) : (s.countEvent t sel n).mem = s.mem := by
  unfold State.countEvent; rfl

/-- Counting an access past L2 changes no memory. -/
@[simp] theorem State.countMsc_mem (s : State) (t l : Nat) : (s.countMsc t l).mem = s.mem := by
  unfold State.countMsc
  repeat' split
  all_goals simp

/-- A write that the memory-side cache keeps or passes on changes no memory by itself. -/
@[simp] theorem State.mscKeep_mem (s : State) (t l : Nat) : (s.mscKeep t l).mem = s.mem := by
  unfold State.mscKeep
  repeat' split
  all_goals simp

/-- Counting a write at the memory-side cache changes no memory. -/
@[simp] theorem State.mscWrite_mem (s : State) (t l : Nat) : (s.mscWrite t l).mem = s.mem := by
  unfold State.mscWrite
  rw [State.mscKeep_mem]
  split <;> simp

/-- Counting a write at L2 changes no memory. -/
@[simp] theorem State.countWrite_mem (s : State) (t c l : Nat) : (s.countWrite t c l).mem = s.mem := by
  unfold State.countWrite; split <;> simp

/-- Counting accesses at the memory-side cache changes no memory. -/
@[simp] theorem State.atMsc_mem (s : State) (t : Nat) (r : Bool) (ks : List Nat) : (s.atMsc t r ks).mem = s.mem := by
  unfold State.atMsc
  induction ((ks.map lineOf).eraseDups) generalizing s with
  | nil => rfl
  | cons l ls ih => rw [List.foldl_cons, ih]; split <;> simp

/-- Lines that leave the memory-side cache change no memory. -/
@[simp] theorem State.leaveMsc_mem (s : State) (kept : List MscLine) : (s.leaveMsc kept).mem = s.mem := by
  unfold State.leaveMsc
  dsimp only
  generalize s.msc.filter (fun m => !kept.contains m) = gone
  induction gone generalizing s with
  | nil => rfl
  | cons m ms ih => rw [List.foldl_cons, ih]; split <;> simp

/-- Fetching a line into the memory-side cache changes no memory. -/
@[simp] theorem State.fillMsc_mem (s : State) (l k : Nat) : (s.fillMsc l k).mem = s.mem := by
  unfold State.fillMsc; split
  · rfl
  · exact State.leaveMsc_mem s _

/-- Counting accesses at L2 changes no memory. -/
@[simp] theorem State.countL2_mem (t c : Nat) (b : Bool) (ls : List Nat) (s : State) : (s.countL2 t c b ls).mem = s.mem := by
  induction ls generalizing s with
  | nil => rfl
  | cons l ls ih => rw [State.countL2, ih]; split <;> simp

/-- Writing lines at L2 changes no memory beside their bytes. -/
@[simp] theorem State.wroteL2_mem (s : State) (c : Nat) (w : Want) (l : Nat) : (s.wroteL2 c w l).mem = s.mem := by
  unfold State.wroteL2
  dsimp only
  split
  · split <;> simp
  · simp

/-- Counting the lines of a write at L2 changes no memory. -/
@[simp] theorem State.wroteLines_mem (s : State) (c : Nat) (w : Want) (ks : List Nat) : (s.wroteLines c w ks).mem = s.mem := by
  unfold State.wroteLines
  induction (((ks.filter isShared).map lineOf).eraseDups) generalizing s with
  | nil => rfl
  | cons l ls ih => rw [List.foldl_cons, ih, State.wroteL2_mem]

/-- A store into L1 changes no memory. -/
@[simp] theorem State.writeL1Byte_mem (s : State) (c : Nat) (w : Want) (k : Nat) (x : Byte) :
    (s.writeL1Byte c w k x).mem = s.mem := by
  unfold State.writeL1Byte; split <;> rfl

/-- A store of one byte keeps it. -/
theorem State.storeByte_wf {s : State} (h : s.mem.wf = true) (c : Nat) (t : Bool) (w : Want) (k : Nat) (x : Byte) :
    (s.storeByte c t w k x).mem.wf = true := by
  unfold State.storeByte
  split
  · split
    · exact State.writeL2Byte_wf h (clusterOfCore c) k x
    · rw [State.writeL1Byte_mem]; exact h
  · exact Memory.wf_set h k x

/-- A write-back of the bytes of a line keeps it. -/
theorem State.writeBackBytes_wf {s : State} (h : s.mem.wf = true) (c : Nat) (l : L1Line) (os : List Nat) :
    (s.writeBackBytes c l os).mem.wf = true := by
  induction os generalizing s with
  | nil => exact h
  | cons o os ih =>
    unfold State.writeBackBytes
    apply ih
    split
    · exact State.writeL2Byte_wf h _ _ _
    · exact h

/-- A write-back of a line keeps it. -/
theorem State.writeBackLine_wf {s : State} (h : s.mem.wf = true) (c : Nat) (l : L1Line) :
    (s.writeBackLine c l).mem.wf = true := by
  unfold State.writeBackLine
  split
  · exact h
  · apply State.writeBackBytes_wf
    split
    · rw [State.wroteL2_mem]; exact h
    · exact h

/-- A write-back of lines keeps it. -/
theorem State.writeBackAll_wf {s : State} (h : s.mem.wf = true) (c : Nat) (ls : List L1Line) :
    (s.writeBackAll c ls).mem.wf = true := by
  induction ls generalizing s with
  | nil => exact h
  | cons l ls ih =>
    unfold State.writeBackAll
    apply ih
    split
    · exact State.writeBackLine_wf h _ _
    · exact h

/-- The write-back of a core keeps it. -/
theorem State.cleanCore_wf {s : State} (h : s.mem.wf = true) (c : Nat) : (s.cleanCore c).mem.wf = true :=
  State.writeBackAll_wf h c s.l1

/-- The write-back of one line keeps it. -/
theorem State.cleanLine_wf {s : State} (h : s.mem.wf = true) (c l : Nat) : (s.cleanLine c l).mem.wf = true := by
  unfold State.cleanLine
  split
  · exact State.writeBackLine_wf h _ _
  · exact h

/-- Dropping clean bytes changes no memory. -/
@[simp] theorem State.dropClean_mem (s : State) (c : Nat) : (s.dropClean c).mem = s.mem := rfl

/-- Invalidating stale copies changes no memory. -/
@[simp] theorem State.invalidateStale_mem (s : State) (c n : Nat) : (s.invalidateStale c n).mem = s.mem := by
  unfold State.invalidateStale; split <;> rfl

/-- Dropping clean copies of foreign lines changes no memory. -/
@[simp] theorem State.dropForeignL2_mem (s : State) (c : Nat) : (s.dropForeignL2 c).mem = s.mem := rfl

/-- Writing some bytes through to the host keeps it. -/
theorem State.flushHostOf_wf {s : State} (h : s.mem.wf = true) (p : Nat → Bool) : (s.flushHostOf p).mem.wf = true :=
  Memory.wf_foldr_set (s.hostDirty.filter (fun c => p c.1)) h

/-- Writing through to the host keeps it. -/
theorem State.flushHost_wf {s : State} (h : s.mem.wf = true) : s.flushHost.mem.wf = true :=
  State.flushHostOf_wf h _

/-- Noting who stored bytes changes no memory. -/
@[simp] theorem State.noteOrigin_mem (s : State) (o : Origin) (ks : List Nat) : (s.noteOrigin o ks).mem = s.mem := rfl

/-- The L1 action of an acquire changes no memory. -/
@[simp] theorem State.acquireAt_mem (s : State) (c n : Nat) : (s.acquireAt c n).mem = s.mem := by
  unfold State.acquireAt
  dsimp only
  split
  · rfl
  · split <;> rfl

/-- The action of a release keeps it. -/
theorem State.releaseAt_wf {s : State} (h : s.mem.wf = true) (c n : Nat) : (s.releaseAt c n).mem.wf = true := by
  unfold State.releaseAt
  dsimp only
  have h1 : ((s.cleanCore c).invalidateStale (clusterOfCore c) n).mem.wf = true := by
    rw [State.invalidateStale_mem]; exact State.cleanCore_wf h c
  split
  · exact h
  · split
    · exact State.flushHost_wf h1
    · exact h1

/-- What a group's misses leave changes no memory. -/
@[simp] theorem State.readMissed_mem (s : State) (b : Bool) (n : Nat) (ls : List Nat) : (s.readMissed b n ls).mem = s.mem :=
  State.countL2_mem _ _ _ _ _

/-- Fetching a line into L1 changes no memory. -/
@[simp] theorem State.fillL1_mem (s : State) (c l : Nat) (w : Want) : (s.fillL1 c l w).mem = s.mem := by
  unfold State.fillL1; dsimp only; split <;> (try split) <;> rfl

/-- Allocating the lines that a load misses changes no memory. -/
@[simp] theorem State.allocLoad_mem (s : State) (c : Nat) (h : ReadAt) (w : Want) (ls : List Nat) :
    (s.allocLoad c h w ls).mem = s.mem := by
  induction ls generalizing s with
  | nil => rfl
  | cons l ls ih =>
    rw [State.allocLoad, ih]
    cases l2Prio w.cp with
    | none => dsimp only; split <;> rfl
    | some p =>
      dsimp only
      split
      · exact State.fillL2_mem s _ _ _ _
      · exact State.fillL2_mem s _ _ _ _

/-- What a read leaves of the caches changes no memory. -/
@[simp] theorem State.sawBeyond_mem (s : State) (c : Nat) (h : ReadAt) (cp : Nat) (ks : List Nat) :
    (s.sawBeyond c h cp ks).mem = s.mem := by
  unfold State.sawBeyond
  dsimp only
  rw [State.allocLoad_mem]
  cases h <;> exact State.readMissed_mem _ _ _ _

/-- An L1 line that leaves keeps it. -/
theorem State.evictL1_wf {s : State} (h : s.mem.wf = true) (c l : Nat) : (s.evictL1 c l).mem.wf = true :=
  State.cleanLine_wf h c l

/-- An L2 copy that leaves changes no memory. -/
@[simp] theorem State.evictL2_mem (s : State) (c l : Nat) : (s.evictL2 c l).mem = s.mem := rfl

/-- Holding a line exclusively keeps it. -/
theorem State.takeExclusive_wf {s : State} (h : s.mem.wf = true) (c k : Nat) : (s.takeExclusive c k).mem.wf = true := by
  unfold State.takeExclusive
  split
  · exact State.cleanLine_wf h _ _
  · exact h

/-- A write performed at device scope keeps it. -/
theorem State.writeCoherent_wf {s : State} (h : s.mem.wf = true) (k : Nat) (xs : List Byte) :
    (s.writeCoherent k xs).mem.wf = true := by
  induction xs generalizing s k with
  | nil => exact h
  | cons x xs ih =>
    unfold State.writeCoherent
    refine ih ?_ (k + 1)
    exact State.setBacking_wf h k x

/-- A write through to the host keeps it. -/
theorem State.throughHost_wf {s : State} (h : s.mem.wf = true) (k : Nat) (x : Byte) : (s.throughHost k x).mem.wf = true := by
  unfold State.throughHost
  split
  · exact Memory.wf_set h k x
  · exact h

/-- Writes performed at system scope keep it. -/
theorem State.writeKeys_wf {s : State} (h : s.mem.wf = true) (ks : List Nat) (xs : List Byte) :
    (s.writeKeys ks xs).mem.wf = true := by
  induction ks generalizing s xs with
  | nil => cases xs <;> exact h
  | cons k ks ih =>
    cases xs with
    | nil => exact h
    | cons x xs => rw [State.writeKeys]; exact ih (State.throughHost_wf (State.writeCoherent_wf h k [x]) k x) xs

/-- Counting an event changes nothing but the registers of the part. -/
theorem State.countEvent_frame (s : State) (f sel n : Nat) :
    s.countEvent f sel n = { s with regs := (s.countEvent f sel n).regs } := rfl

/-- The state has the fields of another but the registers of the part, where the counters are. -/
def State.OnlyCounts (s t : State) : Prop := ∃ r, t = { s with regs := r }

/-- What only counts after what only counts only counts. -/
theorem State.OnlyCounts.trans {s t u : State} (h : s.OnlyCounts t) (k : t.OnlyCounts u) : s.OnlyCounts u := by
  obtain ⟨r, rfl⟩ := h
  obtain ⟨q, rfl⟩ := k
  exact ⟨q, rfl⟩

/-- Counting an event only counts. -/
theorem State.countEvent_only (s : State) (f sel n : Nat) : s.OnlyCounts (s.countEvent f sel n) :=
  ⟨(s.countEvent f sel n).regs, s.countEvent_frame f sel n⟩

/-- Counting an access past L2 only counts. -/
theorem State.countMsc_only (s : State) (f l : Nat) : s.OnlyCounts (s.countMsc f l) := by
  unfold State.countMsc
  split
  · split
    · exact s.countEvent_only _ _ _
    · exact (s.countEvent_only _ _ _).trans (State.countEvent_only _ _ _ _)
  · exact s.countEvent_only _ _ _
  · exact ⟨s.regs, rfl⟩

/-- A walk of a list by what only counts only counts. -/
theorem State.foldl_only {α : Type} (h : State → α → State) (hc : ∀ (s : State) (x : α), s.OnlyCounts (h s x)) (xs : List α) (s : State) :
    s.OnlyCounts (xs.foldl h s) := by
  induction xs generalizing s with
  | nil => exact ⟨s.regs, rfl⟩
  | cons x xs ih => exact (hc s x).trans (ih (h s x))

/-- A counted walk only counts. -/
theorem State.walkVa_only (s : State) (f p a : Nat) : s.OnlyCounts (s.walkVa f p a) := by
  unfold State.walkVa
  split
  · exact ⟨s.regs, rfl⟩
  · exact (s.countEvent_only _ _ _).trans (State.foldl_only _ (fun t _ => t.countMsc_only _ _) _ _)

/-- Counted walks only count. -/
theorem State.walkVas_only (s : State) (f p : Nat) (as : List Nat) : s.OnlyCounts (s.walkVas f p as) :=
  State.foldl_only _ (fun t _ => t.walkVa_only _ _ _) _ _

/-- Counted walks change no memory. -/
@[simp] theorem State.walkVas_mem (s : State) (f p : Nat) (as : List Nat) : (s.walkVas f p as).mem = s.mem := by
  obtain ⟨r, h⟩ := State.walkVas_only s f p as; rw [h]

/-- Counted walks leave the group in focus. -/
@[simp] theorem State.walkVas_grp (s : State) (f p : Nat) (as : List Nat) : (s.walkVas f p as).grp = s.grp := by
  obtain ⟨r, h⟩ := State.walkVas_only s f p as; rw [h]

/-- The walk of a target's word leaves the group in focus. -/
@[simp] theorem State.walkFetch_grp (s : State) (a : Option DWord) : (s.walkFetch a).grp = s.grp :=
  State.walkVas_grp _ _ _ _

/-- The walks of a group's accesses leave it. -/
@[simp] theorem State.walked_grp (s : State) (space : Nat) (xs : List Access) : (s.walked space xs).grp = s.grp := by
  unfold State.walked; split
  · exact State.walkVas_grp _ _ _ _
  · rfl

/-- The walks of a group's accesses change no memory. -/
@[simp] theorem State.walked_mem (s : State) (space : Nat) (xs : List Access) : (s.walked space xs).mem = s.mem := by
  unfold State.walked; split
  · exact State.walkVas_mem _ _ _ _
  · rfl

/-- The walks of the front end change no memory. -/
@[simp] theorem State.walkFront_mem (s : State) (w : Who) (a : DWord) (n : Nat) : (s.walkFront w a n).mem = s.mem :=
  State.walkVas_mem _ _ _ _

/-- A request of lines of the host changes no memory. -/
@[simp] theorem State.askLines_mem (s : State) (f p : Nat) (ls : List Nat) : (s.askLines f p ls).mem = s.mem := rfl

/-- The reads of the front end change no memory. -/
@[simp] theorem State.askKeys_mem (s : State) (w : Who) (ks : List Nat) : (s.askKeys w ks).mem = s.mem := by
  unfold State.askKeys; rw [State.askLines_mem, State.atMsc_mem]

/-- Bytes that leave for the host change no memory. -/
@[simp] theorem State.sendHost_mem (s : State) (f p : Nat) (cs : List Host.Cell) : (s.sendHost f p cs).mem = s.mem := rfl

/-- The walk of a target's word changes no memory. -/
@[simp] theorem State.walkFetch_mem (s : State) (a : Option DWord) : (s.walkFetch a).mem = s.mem :=
  State.walkVas_mem _ _ _ _

/-- A write of the front end keeps it. -/
theorem State.writeVirt_wf {s t : State} (h : s.mem.wf = true) {w : Who} {a : DWord} {xs : List Byte}
    (e : s.writeVirt w a xs = .ok t) : t.mem.wf = true := by
  unfold State.writeVirt at e
  split at e
  · cases e
    rw [State.sendHost_mem]
    exact State.writeKeys_wf (by rw [State.atMsc_mem, State.walkFront_mem]; exact h) _ _
  · cases e

/-! ### Requests and counters -/

/-- A request to the host IOMMU changes no memory. -/
@[simp] theorem State.sendAts_mem (s : State) (f p v : Nat) (b : Bool) : (s.sendAts f p v b).mem = s.mem := rfl

/-- Waiting for the host changes no memory. -/
@[simp] theorem State.askHost_mem (s : State) (f p v : Nat) : (s.askHost f p v).mem = s.mem := by
  unfold State.askHost; split
  · split <;> rfl
  · rfl

/-- Waiting of the front end for the host changes no memory. -/
@[simp] theorem State.askFront_mem (s : State) (f p v : Nat) : (s.askFront f p v).mem = s.mem := by
  unfold State.askFront; split <;> rfl

/-! ### Fault records, traps and sequencing -/

/-- A record of the fault area keeps it. -/
theorem State.writeRecord_wf {s : State} (h : s.mem.wf = true) (c : Nat) (xs : List Byte) :
    (s.writeRecord c xs).mem.wf = true := by
  unfold State.writeRecord
  split
  · exact h
  · rename_i x _
    dsimp only
    rw [State.send_mem]
    have h1 : ∀ ks (bs : List Byte),
        (match (s.askKeys x.who ks).writeVirt x.who x.fault bs with
          | .ok t => t
          | .error _ => (s.askKeys x.who ks).walkFront x.who x.fault 8).mem.wf = true := fun ks bs => by
      split
      · rename_i t e; exact State.writeVirt_wf (by rw [State.askKeys_mem]; exact h) e
      · rw [State.walkFront_mem, State.askKeys_mem]; exact h
    split
    · split
      · rename_i t e
        rw [State.setCtx_mem]
        exact State.writeVirt_wf (h1 _ _) e
      · rw [State.send_mem, State.walkFront_mem]; exact h1 _ _
    · exact h1 _ _

/-- A record, written or kept for later, keeps it. -/
theorem State.faultRecord_wf {s : State} (h : s.mem.wf = true) (c : Nat) (xs : List Byte) :
    (s.faultRecord c xs).mem.wf = true := by
  unfold State.faultRecord
  split
  · exact h
  · split
    · rw [State.askFront_mem]; exact h
    · exact State.writeRecord_wf h c xs

/-- Charging a helper's fault changes no memory. -/
@[simp] theorem State.chargeHelper_mem (s : State) (c : Cause) : (s.chargeHelper c).mem = s.mem := by
  unfold State.chargeHelper; split <;> rfl

/-- A park keeps it. -/
theorem State.park_wf {s : State} (h : s.mem.wf = true) (c : Cause) (a : Nat) (b : Bool) : (s.park c a b).mem.wf = true := by
  unfold State.park
  exact State.faultRecord_wf (by rw [State.chargeHelper_mem]; exact h) _ _

/-- A block entry changes only the group. -/
theorem State.enter_others {s t : State} {a : DWord} {l : Bool} (e : s.enter a l = .ok t) : t = { s with grp := t.grp } := by
  unfold State.enter at e
  split at e
  · cases e
  · split at e
    · cases e
    · dsimp only at e
      cases hf : s.fetch (a + 8) <;> simp only [hf] at e <;>
        (refine (ite_eq_iff.1 e).elim (fun q => by cases q.2) (fun q => ?_); injection q.2 with q; subst q; rfl)

/-- A block entry changes no memory. -/
theorem State.enter_mem {s t : State} {a : DWord} {l : Bool} (e : s.enter a l = .ok t) : t.mem = s.mem := by
  have := congrArg State.mem (State.enter_others e); exact this

/-- The handler's entry keeps it. -/
theorem State.enterHandler_wf {s : State} (h : s.mem.wf = true) (c : Cause) (a : Nat) :
    (s.enterHandler c a).mem.wf = true := by
  unfold State.enterHandler
  dsimp only
  split
  · rename_i t e; rw [State.enter_mem e]; exact h
  · rw [State.walkFetch_mem]; refine State.park_wf ?_ _ _ _; exact h

/-- What a trap records changes no memory. -/
@[simp] theorem State.recordTrap_mem (s : State) (t : Trap) : (s.recordTrap t).mem = s.mem := rfl

/-- Taking a trap keeps it. -/
theorem State.takeTrap_wf {s : State} (h : s.mem.wf = true) (t : Trap) : (s.takeTrap t).mem.wf = true := by
  have h1 : (s.recordTrap t).mem.wf = true := h
  unfold State.takeTrap
  dsimp only
  rw [State.walkFetch_mem]
  split
  · exact State.park_wf h1 _ _ _
  · split
    · exact State.enterHandler_wf h1 _ _
    · rw [State.walkFetch_mem]; exact State.park_wf h1 _ _ _

/-- Resuming keeps it. -/
theorem State.resumeAt_wf {s : State} (h : s.mem.wf = true) (a : DWord) : (s.resumeAt a).mem.wf = true := by
  unfold State.resumeAt
  dsimp only
  split
  · exact h
  · split
    · rename_i t e; rw [State.enter_mem e]; exact h
    · refine State.takeTrap_wf ?_ _; exact h

/-- A delivery of PREEMPT keeps it. -/
theorem State.deliverPreempt_wf {s : State} (h : s.mem.wf = true) (n : Nat) : (s.deliverPreempt n).mem.wf = true := by
  unfold State.deliverPreempt; refine State.takeTrap_wf ?_ _; exact h

/-- Entering a block, or trapping at it, keeps it. -/
theorem State.enterOrTrap_wf {s : State} (h : s.mem.wf = true) (a : DWord) : (s.enterOrTrap a).mem.wf = true := by
  unfold State.enterOrTrap
  split
  · rename_i t e; rw [State.enter_mem e]; exact h
  · exact State.takeTrap_wf h _

/-- Arriving at a header keeps it. -/
theorem State.arriveAt_wf {s : State} (h : s.mem.wf = true) (a : DWord) : (s.arriveAt a).mem.wf = true := by
  unfold State.arriveAt; refine State.enterOrTrap_wf ?_ _; exact h

/-- Continuing at a word keeps it. -/
theorem State.continueAt_wf {s : State} (h : s.mem.wf = true) (a : DWord) : (s.continueAt a).mem.wf = true := by
  unfold State.continueAt
  split
  · split
    · exact State.arriveAt_wf h a
    · exact State.takeTrap_wf h _
  · exact h

/-- Completing an instruction keeps it. -/
theorem State.retire_wf {s : State} (h : s.mem.wf = true) (n : Nat) : (s.retire n).mem.wf = true := by
  unfold State.retire; refine State.continueAt_wf ?_ _; exact h

/-- A transfer of control keeps it. -/
theorem State.transfer_wf {s : State} (h : s.mem.wf = true) (a : DWord) : (s.transfer a).mem.wf = true := by
  unfold State.transfer; refine State.arriveAt_wf ?_ _; exact h

/-- The state of an ending. -/
def Ctl.state : Ctl → State
  | .done s => s
  | .goto _ s => s
  | .at_ s => s
  | .trap _ s => s
  | .wait _ s => s

/-- Settling an ending keeps it. -/
theorem settle_wf {n : Nat} {c : Ctl} {t : State} (h : c.state.mem.wf = true) (e : settle n c = .next t) :
    t.mem.wf = true := by
  cases c <;> simp only [settle, Host.Outcome.next.injEq] at e <;> subst e
  · exact State.retire_wf h n
  · exact State.transfer_wf h _
  · exact h
  · exact State.takeTrap_wf h _
  · exact h

/-- What a body leaves, done or cut short. -/
def bodyState : Run Ctl → State
  | .ok c => c.state
  | .error c => c.state

/-- An instruction whose body keeps the canonical form keeps it. -/
theorem finish_wf {n : Nat} {b : Run Ctl} {t : State} (h : (bodyState b).mem.wf = true) (e : finish n b = .next t) :
    t.mem.wf = true := by
  cases b with
  | ok c => exact settle_wf h e
  | error c => exact settle_wf h e

/-! ### Stores of a group -/

/-- The bytes of a store keep it. -/
theorem State.storeCells_wf {s : State} (h : s.mem.wf = true) (b : Bool) (w : Want) (cs : List Host.Cell) :
    (s.storeCells b w cs).mem.wf = true := by
  induction cs generalizing s with
  | nil => exact h
  | cons c cs ih =>
    unfold State.storeCells
    exact ih (State.storeByte_wf h _ _ _ _ _)

/-- The bytes of a store, with their lines at L2 counted, keep it. -/
theorem State.storeLines_wf {s : State} (h : s.mem.wf = true) (b : Bool) (cp : Nat) (cs : List Host.Cell) :
    (s.storeLines b cp cs).mem.wf = true := by
  unfold State.storeLines
  apply State.storeCells_wf
  split
  · rw [State.wroteLines_mem]; exact h
  · exact h

/-- Performing a channel's stores changes no memory. -/
@[simp] theorem State.drainChannel_mem (s : State) (n : Nat) : (s.drainChannel n).mem = s.mem := by
  unfold State.drainChannel
  rw [State.onGrp_mem]
  have : ∀ (l : List (Nat × Nat)) (t : State),
      (l.foldl (fun (t : State) c => t.dropOtherL2 t.grp.id.cluster c.2) t).mem = t.mem := by
    intro l
    induction l with
    | nil => intro t; rfl
    | cons c l ih => intro t; rw [List.foldl_cons, ih]; rfl
  exact this _ s

/-- Sending requests for remote bytes changes no memory. -/
@[simp] theorem State.requestWrites_mem (s : State) (xs : List (Nat × List Host.Cell)) : (s.requestWrites xs).mem = s.mem := by
  induction xs generalizing s with
  | nil => rfl
  | cons x xs ih => unfold State.requestWrites; rw [ih]; rfl

/-- Sending remote bytes changes no memory. -/
@[simp] theorem State.sendRemoteWrites_mem (s : State) (cs : List Host.Cell) : (s.sendRemoteWrites cs).mem = s.mem :=
  State.requestWrites_mem s _

/-- A group's stores keep it. -/
theorem State.performStores_wf {s : State} (h : s.mem.wf = true) (cp chan : Nat) (cs : List Host.Cell) :
    (s.performStores cp chan cs).mem.wf = true := by
  refine State.storeLines_wf (s := (if chan = 0 then s else s.drainChannel chan).noteOrigin s.grp.origin (cs.map (·.1))) ?_ _ _ cs
  rw [State.noteOrigin_mem]
  split
  · exact h
  · rw [State.drainChannel_mem]; exact h

/-- A release store that is performed keeps it. -/
theorem State.performRel_wf {s : State} (h : s.mem.wf = true) (r : RelStore) : (s.performRel r).mem.wf = true := by
  have h3 : (((if r.chan = 0 then s else s.drainChannel r.chan).noteOrigin s.grp.origin (r.cells.map (·.1))).storeLines true r.cp
      r.cells).mem.wf = true := by
    refine State.storeLines_wf ?_ _ _ _
    rw [State.noteOrigin_mem]
    split
    · exact h
    · rw [State.drainChannel_mem]; exact h
  unfold State.performRel
  dsimp only
  split
  · rw [State.sendRemoteWrites_mem]
    refine State.flushHost_wf ?_
    rw [State.invalidateStale_mem]; exact h3
  · rw [State.invalidateStale_mem]; exact h3

/-- Waiting release stores that are performed keep it. -/
theorem State.settleList_wf (rs : List RelStore) {s t : State} (h : s.mem.wf = true) (e : State.settleList rs s = .ok t) :
    t.mem.wf = true := by
  induction rs generalizing s with
  | nil => cases e; exact h
  | cons r rs ih =>
    unfold State.settleList at e
    dsimp only at e
    split at e
    · cases e
    · exact ih (State.performRel_wf (State.releaseAt_wf h _ _) r) e

/-- The release of an instruction keeps it. -/
theorem State.releaseRun_wf {s t : State} (h : s.mem.wf = true) {n : Nat} (e : s.releaseRun n = .ok t) : t.mem.wf = true := by
  simp only [State.releaseRun, bind, Except.bind] at e
  split at e
  · cases e
  · rename_i u hu
    split at e
    · cases e
    · cases e; exact State.releaseAt_wf (State.settleList_wf _ h hu) _ _

/-- A store with a lane active changes no memory beside its bytes. -/
@[simp] theorem State.storedCells_mem (s : State) (cs : List Host.Cell) : (s.storedCells cs).mem = s.mem := by
  unfold State.storedCells; split <;> rfl

/-- A body that goes on after another has its result. -/
theorem Run.bind_ok {α β : Type} {x : Run α} {f : α → Run β} {b : β} (h : (x >>= f) = .ok b) :
    ∃ a, x = .ok a ∧ f a = .ok b := by
  cases x with
  | error c => cases h
  | ok a => exact ⟨a, rfl, h⟩

/-- What a store waits for keeps it. -/
theorem State.beforeStore_wf {s t : State} (h : s.mem.wf = true) {ord chan : Nat} {cs : List Host.Cell}
    (e : s.beforeStore ord chan cs = .ok t) : t.mem.wf = true := by
  unfold State.beforeStore State.beforeKeys at e
  split at e
  · exact State.settleList_wf _ h e
  · split at e
    · exact State.settleList_wf _ h e
    · cases e; exact h

/-- The release of a store keeps it. -/
theorem State.releaseIf_wf {s t : State} (h : s.mem.wf = true) {ord n : Nat} (e : s.releaseIf ord n = .ok t) :
    t.mem.wf = true := by
  unfold State.releaseIf at e
  split at e
  · exact State.releaseRun_wf h e
  · cases e; exact h

/-- What a group's stores leave keeps it. -/
theorem State.storeAll_wf {s t : State} (h : s.mem.wf = true) {ord scope cp chan : Nat} {cs : List Host.Cell}
    (e : s.storeAll ord scope cp chan cs = .ok t) : t.mem.wf = true := by
  unfold State.storeAll at e
  split at e
  · obtain ⟨u, hu, e⟩ := Run.bind_ok e
    have hw := State.releaseIf_wf h hu
    split at e
    · split at e
      · cases e; exact hw
      · cases e
    · cases e
  · split at e
    · cases e; rw [State.storedCells_mem]; exact h
    · obtain ⟨u, hu, e⟩ := Run.bind_ok e
      cases e
      rw [State.storedCells_mem]; exact State.performStores_wf (State.beforeStore_wf h hu) _ _ _

end Sys2Proof.Machine
end

