-- ==== Sys2Proof/Laws/PerInstr.lean ====
section
/-! SUPPORT. Laws per instruction: the words that an instruction is encoded in are as many as it occupies (R33, R46, R48). -/

namespace Sys2Proof.Laws

open Sys2Proof

/-- An instruction has as many words as `Instr.words` says; an event row has none. -/
def WordCount.Statement (i : Instr) : Prop := encode i = [] ∨ (encode i).length = i.words

theorem WordCount.br (f : CB) : WordCount.Statement (.br f) := .inr rfl
theorem WordCount.beq (f : CB) : WordCount.Statement (.beq f) := .inr rfl
theorem WordCount.bne (f : CB) : WordCount.Statement (.bne f) := .inr rfl
theorem WordCount.blt (f : CB) : WordCount.Statement (.blt f) := .inr rfl
theorem WordCount.bge (f : CB) : WordCount.Statement (.bge f) := .inr rfl
theorem WordCount.bltu (f : CB) : WordCount.Statement (.bltu f) := .inr rfl
theorem WordCount.bgeu (f : CB) : WordCount.Statement (.bgeu f) := .inr rfl
theorem WordCount.bmz (f : CB) : WordCount.Statement (.bmz f) := .inr rfl
theorem WordCount.bmnz (f : CB) : WordCount.Statement (.bmnz f) := .inr rfl
theorem WordCount.bmall (f : CB) : WordCount.Statement (.bmall f) := .inr rfl
theorem WordCount.call (f : CB) : WordCount.Statement (.call f) := .inr rfl
theorem WordCount.calli (f : CB) : WordCount.Statement (.calli f) := .inr rfl
theorem WordCount.ret (f : CB) : WordCount.Statement (.ret f) := .inr rfl
theorem WordCount.jmpi (f : CB) : WordCount.Statement (.jmpi f) := .inr rfl
theorem WordCount.loop (f : CB) : WordCount.Statement (.loop f) := .inr rfl
theorem WordCount.lbrk (f : CB) : WordCount.Statement (.lbrk f) := .inr rfl
theorem WordCount.lcget (f : CB) : WordCount.Statement (.lcget f) := .inr rfl
theorem WordCount.lcset (f : CB) : WordCount.Statement (.lcset f) := .inr rfl
theorem WordCount.exit (f : SR) : WordCount.Statement (.exit f) := .inr rfl
theorem WordCount.yield (f : SR) : WordCount.Statement (.yield f) := .inr rfl
theorem WordCount.nop (f : SR) : WordCount.Statement (.nop f) := .inr rfl
theorem WordCount.snooze (f : SR) : WordCount.Statement (.snooze f) := .inr rfl
theorem WordCount.mand (f : SR) : WordCount.Statement (.mand f) := .inr rfl
theorem WordCount.mor (f : SR) : WordCount.Statement (.mor f) := .inr rfl
theorem WordCount.mxor (f : SR) : WordCount.Statement (.mxor f) := .inr rfl
theorem WordCount.mandn (f : SR) : WordCount.Statement (.mandn f) := .inr rfl
theorem WordCount.mnot (f : SR) : WordCount.Statement (.mnot f) := .inr rfl
theorem WordCount.mpopc (f : SR) : WordCount.Statement (.mpopc f) := .inr rfl
theorem WordCount.mffs (f : SR) : WordCount.Statement (.mffs f) := .inr rfl
theorem WordCount.mrange (f : SR) : WordCount.Statement (.mrange f) := .inr rfl
theorem WordCount.mtest (f : SR) : WordCount.Statement (.mtest f) := .inr rfl
theorem WordCount.mmov (f : SR) : WordCount.Statement (.mmov f) := .inr rfl
theorem WordCount.mlive (f : SR) : WordCount.Statement (.mlive f) := .inr rfl
theorem WordCount.add (f : SR) : WordCount.Statement (.add f) := .inr rfl
theorem WordCount.sub (f : SR) : WordCount.Statement (.sub f) := .inr rfl
theorem WordCount.mul (f : SR) : WordCount.Statement (.mul f) := .inr rfl
theorem WordCount.mulhs (f : SR) : WordCount.Statement (.mulhs f) := .inr rfl
theorem WordCount.mulhu (f : SR) : WordCount.Statement (.mulhu f) := .inr rfl
theorem WordCount.and (f : SR) : WordCount.Statement (.and f) := .inr rfl
theorem WordCount.or (f : SR) : WordCount.Statement (.or f) := .inr rfl
theorem WordCount.xor (f : SR) : WordCount.Statement (.xor f) := .inr rfl
theorem WordCount.andn (f : SR) : WordCount.Statement (.andn f) := .inr rfl
theorem WordCount.shl (f : SR) : WordCount.Statement (.shl f) := .inr rfl
theorem WordCount.shr (f : SR) : WordCount.Statement (.shr f) := .inr rfl
theorem WordCount.sar (f : SR) : WordCount.Statement (.sar f) := .inr rfl
theorem WordCount.rotl (f : SR) : WordCount.Statement (.rotl f) := .inr rfl
theorem WordCount.min (f : SR) : WordCount.Statement (.min f) := .inr rfl
theorem WordCount.max (f : SR) : WordCount.Statement (.max f) := .inr rfl
theorem WordCount.minu (f : SR) : WordCount.Statement (.minu f) := .inr rfl
theorem WordCount.maxu (f : SR) : WordCount.Statement (.maxu f) := .inr rfl
theorem WordCount.slt (f : SR) : WordCount.Statement (.slt f) := .inr rfl
theorem WordCount.sltu (f : SR) : WordCount.Statement (.sltu f) := .inr rfl
theorem WordCount.seq (f : SR) : WordCount.Statement (.seq f) := .inr rfl
theorem WordCount.sne (f : SR) : WordCount.Statement (.sne f) := .inr rfl
theorem WordCount.clz (f : SR) : WordCount.Statement (.clz f) := .inr rfl
theorem WordCount.ctz (f : SR) : WordCount.Statement (.ctz f) := .inr rfl
theorem WordCount.popc (f : SR) : WordCount.Statement (.popc f) := .inr rfl
theorem WordCount.brev (f : SR) : WordCount.Statement (.brev f) := .inr rfl
theorem WordCount.cmov (f : SR) : WordCount.Statement (.cmov f) := .inr rfl
theorem WordCount.addw (f : SR) : WordCount.Statement (.addw f) := .inr rfl
theorem WordCount.subw (f : SR) : WordCount.Statement (.subw f) := .inr rfl
theorem WordCount.mulw (f : SR) : WordCount.Statement (.mulw f) := .inr rfl
theorem WordCount.shlw (f : SR) : WordCount.Statement (.shlw f) := .inr rfl
theorem WordCount.shrw (f : SR) : WordCount.Statement (.shrw f) := .inr rfl
theorem WordCount.sarw (f : SR) : WordCount.Statement (.sarw f) := .inr rfl
theorem WordCount.sltw (f : SR) : WordCount.Statement (.sltw f) := .inr rfl
theorem WordCount.sltuw (f : SR) : WordCount.Statement (.sltuw f) := .inr rfl
theorem WordCount.li (f : SR) : WordCount.Statement (.li f) := .inr rfl
theorem WordCount.liw (f : SR) (lit : DWord) : WordCount.Statement (.liw f lit) := .inr rfl
theorem WordCount.lea (f : SR) : WordCount.Statement (.lea f) := .inr rfl
theorem WordCount.movwCopy (f : SR) : WordCount.Statement (.movwCopy f) := .inr rfl
theorem WordCount.movwRelative (f : SR) : WordCount.Statement (.movwRelative f) := .inr rfl
theorem WordCount.vadd (f : VR) : WordCount.Statement (.vadd f) := .inr rfl
theorem WordCount.vsub (f : VR) : WordCount.Statement (.vsub f) := .inr rfl
theorem WordCount.vmul (f : VR) : WordCount.Statement (.vmul f) := .inr rfl
theorem WordCount.vmulh (f : VR) : WordCount.Statement (.vmulh f) := .inr rfl
theorem WordCount.vmulhu (f : VR) : WordCount.Statement (.vmulhu f) := .inr rfl
theorem WordCount.vmad (f : VR) : WordCount.Statement (.vmad f) := .inr rfl
theorem WordCount.vand (f : VR) : WordCount.Statement (.vand f) := .inr rfl
theorem WordCount.vor (f : VR) : WordCount.Statement (.vor f) := .inr rfl
theorem WordCount.vxor (f : VR) : WordCount.Statement (.vxor f) := .inr rfl
theorem WordCount.vandn (f : VR) : WordCount.Statement (.vandn f) := .inr rfl
theorem WordCount.vshl (f : VR) : WordCount.Statement (.vshl f) := .inr rfl
theorem WordCount.vshr (f : VR) : WordCount.Statement (.vshr f) := .inr rfl
theorem WordCount.vsar (f : VR) : WordCount.Statement (.vsar f) := .inr rfl
theorem WordCount.vmin (f : VR) : WordCount.Statement (.vmin f) := .inr rfl
theorem WordCount.vmax (f : VR) : WordCount.Statement (.vmax f) := .inr rfl
theorem WordCount.vminu (f : VR) : WordCount.Statement (.vminu f) := .inr rfl
theorem WordCount.vmaxu (f : VR) : WordCount.Statement (.vmaxu f) := .inr rfl
theorem WordCount.vabs (f : VR) : WordCount.Statement (.vabs f) := .inr rfl
theorem WordCount.vneg (f : VR) : WordCount.Statement (.vneg f) := .inr rfl
theorem WordCount.vpopc (f : VR) : WordCount.Statement (.vpopc f) := .inr rfl
theorem WordCount.vclz (f : VR) : WordCount.Statement (.vclz f) := .inr rfl
theorem WordCount.vicmp (f : VR) : WordCount.Statement (.vicmp f) := .inr rfl
theorem WordCount.vfcmp (f : VR) : WordCount.Statement (.vfcmp f) := .inr rfl
theorem WordCount.vfadd (f : VR) : WordCount.Statement (.vfadd f) := .inr rfl
theorem WordCount.vfsub (f : VR) : WordCount.Statement (.vfsub f) := .inr rfl
theorem WordCount.vfmul (f : VR) : WordCount.Statement (.vfmul f) := .inr rfl
theorem WordCount.vfma (f : VR) : WordCount.Statement (.vfma f) := .inr rfl
theorem WordCount.vfnma (f : VR) : WordCount.Statement (.vfnma f) := .inr rfl
theorem WordCount.vfmin (f : VR) : WordCount.Statement (.vfmin f) := .inr rfl
theorem WordCount.vfmax (f : VR) : WordCount.Statement (.vfmax f) := .inr rfl
theorem WordCount.vfminn (f : VR) : WordCount.Statement (.vfminn f) := .inr rfl
theorem WordCount.vfmaxn (f : VR) : WordCount.Statement (.vfmaxn f) := .inr rfl
theorem WordCount.vfabs (f : VR) : WordCount.Statement (.vfabs f) := .inr rfl
theorem WordCount.vfneg (f : VR) : WordCount.Statement (.vfneg f) := .inr rfl
theorem WordCount.vfcps (f : VR) : WordCount.Statement (.vfcps f) := .inr rfl
theorem WordCount.vfrnd (f : VR) : WordCount.Statement (.vfrnd f) := .inr rfl
theorem WordCount.vfdiv (f : VR) : WordCount.Statement (.vfdiv f) := .inr rfl
theorem WordCount.vfsqrt (f : VR) : WordCount.Statement (.vfsqrt f) := .inr rfl
theorem WordCount.vfclass (f : VR) : WordCount.Statement (.vfclass f) := .inr rfl
theorem WordCount.vrcp (f : VR) : WordCount.Statement (.vrcp f) := .inr rfl
theorem WordCount.vrsq (f : VR) : WordCount.Statement (.vrsq f) := .inr rfl
theorem WordCount.vexp2 (f : VR) : WordCount.Statement (.vexp2 f) := .inr rfl
theorem WordCount.vlog2 (f : VR) : WordCount.Statement (.vlog2 f) := .inr rfl
theorem WordCount.vsinpi (f : VR) : WordCount.Statement (.vsinpi f) := .inr rfl
theorem WordCount.vcospi (f : VR) : WordCount.Statement (.vcospi f) := .inr rfl
theorem WordCount.vtanh (f : VR) : WordCount.Statement (.vtanh f) := .inr rfl
theorem WordCount.vmov (f : VR) : WordCount.Statement (.vmov f) := .inr rfl
theorem WordCount.vsel (f : VR) : WordCount.Statement (.vsel f) := .inr rfl
theorem WordCount.vbcst (f : VR) : WordCount.Statement (.vbcst f) := .inr rfl
theorem WordCount.vidx (f : VR) : WordCount.Statement (.vidx f) := .inr rfl
theorem WordCount.vget (f : VR) : WordCount.Statement (.vget f) := .inr rfl
theorem WordCount.vput (f : VR) : WordCount.Statement (.vput f) := .inr rfl
theorem WordCount.vcvtf (f : VR) : WordCount.Statement (.vcvtf f) := .inr rfl
theorem WordCount.vf2i (f : VR) : WordCount.Statement (.vf2i f) := .inr rfl
theorem WordCount.vi2f (f : VR) : WordCount.Statement (.vi2f f) := .inr rfl
theorem WordCount.vcvt8 (f : VR) : WordCount.Statement (.vcvt8 f) := .inr rfl
theorem WordCount.vext8 (f : VR) : WordCount.Statement (.vext8 f) := .inr rfl
theorem WordCount.vscale (f : VR) : WordCount.Statement (.vscale f) := .inr rfl
theorem WordCount.vbscl (f : VR) : WordCount.Statement (.vbscl f) := .inr rfl
theorem WordCount.vpk8 (f : VR) : WordCount.Statement (.vpk8 f) := .inr rfl
theorem WordCount.vupk8 (f : VR) : WordCount.Statement (.vupk8 f) := .inr rfl
theorem WordCount.vrngs (f : VR) : WordCount.Statement (.vrngs f) := .inr rfl
theorem WordCount.vrng (f : VR) : WordCount.Statement (.vrng f) := .inr rfl
theorem WordCount.sld (p : Option Pfx) (f : SM) : WordCount.Statement (.sld p f) := by cases p <;> exact .inr rfl
theorem WordCount.sst (p : Option Pfx) (f : SM) : WordCount.Statement (.sst p f) := by cases p <;> exact .inr rfl
theorem WordCount.vld (p : Option Pfx) (f : VM) : WordCount.Statement (.vld p f) := by cases p <;> exact .inr rfl
theorem WordCount.vst (p : Option Pfx) (f : VM) : WordCount.Statement (.vst p f) := by cases p <;> exact .inr rfl
theorem WordCount.vldb (p : Option Pfx) (f : VM) : WordCount.Statement (.vldb p f) := by cases p <;> exact .inr rfl
theorem WordCount.vstb (p : Option Pfx) (f : VM) : WordCount.Statement (.vstb p f) := by cases p <;> exact .inr rfl
theorem WordCount.zset (f : EX) : WordCount.Statement (.zset f) := .inr rfl
theorem WordCount.zsets (f : EX) : WordCount.Statement (.zsets f) := .inr rfl
theorem WordCount.zrew (f : EX) : WordCount.Statement (.zrew f) := .inr rfl
theorem WordCount.zposRead (f : EX) : WordCount.Statement (.zposRead f) := .inr rfl
theorem WordCount.zposSet (f : EX) : WordCount.Statement (.zposSet f) := .inr rfl
theorem WordCount.zposEnd (f : EX) : WordCount.Statement (.zposEnd f) := .inr rfl
theorem WordCount.fence (p : Option Pfx) (f : VM) : WordCount.Statement (.fence p f) := by cases p <;> exact .inr rfl
theorem WordCount.cwb (p : Option Pfx) (f : VM) : WordCount.Statement (.cwb p f) := by cases p <;> exact .inr rfl
theorem WordCount.cinv (p : Option Pfx) (f : VM) : WordCount.Statement (.cinv p f) := by cases p <;> exact .inr rfl
theorem WordCount.pref (p : Option Pfx) (f : VM) : WordCount.Statement (.pref p f) := by cases p <;> exact .inr rfl
theorem WordCount.chopen (f : EX) : WordCount.Statement (.chopen f) := .inr rfl
theorem WordCount.chwait (f : EX) : WordCount.Statement (.chwait f) := .inr rfl
theorem WordCount.chclose (f : EX) : WordCount.Statement (.chclose f) := .inr rfl
theorem WordCount.satom (p : Option Pfx) (f : VM) : WordCount.Statement (.satom p f) := by cases p <;> exact .inr rfl
theorem WordCount.vatom (p : Option Pfx) (f : VM) : WordCount.Statement (.vatom p f) := by cases p <;> exact .inr rfl
theorem WordCount.fxadd (p : Option Pfx) (f : VM) : WordCount.Statement (.fxadd p f) := by cases p <;> exact .inr rfl
theorem WordCount.fxrd (p : Option Pfx) (f : VM) : WordCount.Statement (.fxrd p f) := by cases p <;> exact .inr rfl
theorem WordCount.bart (f : EX) : WordCount.Statement (.bart f) := .inr rfl
theorem WordCount.bara (f : EX) : WordCount.Statement (.bara f) := .inr rfl
theorem WordCount.barw (f : EX) : WordCount.Statement (.barw f) := .inr rfl
theorem WordCount.barb (f : EX) : WordCount.Statement (.barb f) := .inr rfl
theorem WordCount.sbinit (f : EX) : WordCount.Statement (.sbinit f) := .inr rfl
theorem WordCount.sbarv (f : EX) : WordCount.Statement (.sbarv f) := .inr rfl
theorem WordCount.sbwait (f : EX) : WordCount.Statement (.sbwait f) := .inr rfl
theorem WordCount.waitv (p : Option Pfx) (f : EX) : WordCount.Statement (.waitv p f) := by cases p <;> exact .inr rfl
theorem WordCount.batt (f : EX) : WordCount.Statement (.batt f) := .inr rfl
theorem WordCount.bpost (f : EX) : WordCount.Statement (.bpost f) := .inr rfl
theorem WordCount.bread (f : EX) : WordCount.Statement (.bread f) := .inr rfl
theorem WordCount.bdet (f : EX) : WordCount.Statement (.bdet f) := .inr rfl
theorem WordCount.bvseg (f : EX) : WordCount.Statement (.bvseg f) := .inr rfl
theorem WordCount.bvcmp (f : EX) : WordCount.Statement (.bvcmp f) := .inr rfl
theorem WordCount.vvote (f : VR) : WordCount.Statement (.vvote f) := .inr rfl
theorem WordCount.vshfl (f : VR) : WordCount.Statement (.vshfl f) := .inr rfl
theorem WordCount.vmatch (f : VR) : WordCount.Statement (.vmatch f) := .inr rfl
theorem WordCount.vred (f : VR) : WordCount.Statement (.vred f) := .inr rfl
theorem WordCount.vscan (f : VR) : WordCount.Statement (.vscan f) := .inr rfl
theorem WordCount.qbind (f : EX) : WordCount.Statement (.qbind f) := .inr rfl
theorem WordCount.qpush (f : EX) : WordCount.Statement (.qpush f) := .inr rfl
theorem WordCount.qpop (f : EX) : WordCount.Statement (.qpop f) := .inr rfl
theorem WordCount.qtry (f : EX) : WordCount.Statement (.qtry f) := .inr rfl
theorem WordCount.qstat (f : EX) : WordCount.Statement (.qstat f) := .inr rfl
theorem WordCount.copyLinear (p : Option Pfx) (f : EX) : WordCount.Statement (.copyLinear p f) := by cases p <;> exact .inr rfl
theorem WordCount.copyDescribed (p : Option Pfx) (f : EX) : WordCount.Statement (.copyDescribed p f) := by cases p <;> exact .inr rfl
theorem WordCount.copyg (p : Option Pfx) (f : EX) : WordCount.Statement (.copyg p f) := by cases p <;> exact .inr rfl
theorem WordCount.copys (p : Option Pfx) (f : EX) : WordCount.Statement (.copys p f) := by cases p <;> exact .inr rfl
theorem WordCount.copyr (p : Option Pfx) (f : EX) : WordCount.Statement (.copyr p f) := by cases p <;> exact .inr rfl
theorem WordCount.mloop (p : Option Pfx) (f : EX) : WordCount.Statement (.mloop p f) := by cases p <;> exact .inr rfl
theorem WordCount.mzero (f : EX) : WordCount.Statement (.mzero f) := .inr rfl
theorem WordCount.mrd (f : EX) : WordCount.Statement (.mrd f) := .inr rfl
theorem WordCount.mwr (f : EX) : WordCount.Statement (.mwr f) := .inr rfl
theorem WordCount.mst (p : Option Pfx) (f : EX) : WordCount.Statement (.mst p f) := by cases p <;> exact .inr rfl
theorem WordCount.mwait (f : EX) : WordCount.Statement (.mwait f) := .inr rfl
theorem WordCount.mstat (f : EX) : WordCount.Statement (.mstat f) := .inr rfl
theorem WordCount.rcrt (f : EX) : WordCount.Statement (.rcrt f) := .inr rfl
theorem WordCount.hnext (f : EX) : WordCount.Statement (.hnext f) := .inr rfl
theorem WordCount.hrd (f : EX) : WordCount.Statement (.hrd f) := .inr rfl
theorem WordCount.hend (f : EX) : WordCount.Statement (.hend f) := .inr rfl
theorem WordCount.hjoin (f : EX) : WordCount.Statement (.hjoin f) := .inr rfl
theorem WordCount.hrel (f : EX) : WordCount.Statement (.hrel f) := .inr rfl
theorem WordCount.rgnOpen (f : EX) : WordCount.Statement (.rgnOpen f) := .inr rfl
theorem WordCount.rgnClose (f : EX) : WordCount.Statement (.rgnClose f) := .inr rfl
theorem WordCount.rgnAbort (f : EX) : WordCount.Statement (.rgnAbort f) := .inr rfl
theorem WordCount.rds (f : SR) : WordCount.Statement (.rds f) := .inr rfl
theorem WordCount.wrs (f : SR) : WordCount.Statement (.wrs f) := .inr rfl
theorem WordCount.trap (f : SR) : WordCount.Statement (.trap f) := .inr rfl
theorem WordCount.brk (f : SR) : WordCount.Statement (.brk f) := .inr rfl
theorem WordCount.eret (f : SR) : WordCount.Statement (.eret f) := .inr rfl
theorem WordCount.sigs (f : SR) : WordCount.Statement (.sigs f) := .inr rfl
theorem WordCount.pcnt (f : SR) : WordCount.Statement (.pcnt f) := .inr rfl
theorem WordCount.dtime (f : SR) : WordCount.Statement (.dtime f) := .inr rfl
theorem WordCount.unassignedWord (w : DWord) : WordCount.Statement (.unassignedWord w) := .inr rfl
theorem WordCount.yieldWake : WordCount.Statement (.yieldWake) := .inl rfl
theorem WordCount.snoozeExpiry : WordCount.Statement (.snoozeExpiry) := .inl rfl
theorem WordCount.channelDrained : WordCount.Statement (.channelDrained) := .inl rfl
theorem WordCount.barrierWatchdogExpiry : WordCount.Statement (.barrierWatchdogExpiry) := .inl rfl
theorem WordCount.sbwaitRelease : WordCount.Statement (.sbwaitRelease) := .inl rfl
theorem WordCount.waitvRecheck : WordCount.Statement (.waitvRecheck) := .inl rfl
theorem WordCount.waitvTimeout : WordCount.Statement (.waitvTimeout) := .inl rfl
theorem WordCount.bpostReturn : WordCount.Statement (.bpostReturn) := .inl rfl
theorem WordCount.qpushRoom : WordCount.Statement (.qpushRoom) := .inl rfl
theorem WordCount.qpopEntry : WordCount.Statement (.qpopEntry) := .inl rfl
theorem WordCount.copyIssueUnblock : WordCount.Statement (.copyIssueUnblock) := .inl rfl
theorem WordCount.copyCommandStart : WordCount.Statement (.copyCommandStart) := .inl rfl
theorem WordCount.granuleLand : WordCount.Statement (.granuleLand) := .inl rfl
theorem WordCount.copyToken : WordCount.Statement (.copyToken) := .inl rfl
theorem WordCount.mwaitDone : WordCount.Statement (.mwaitDone) := .inl rfl
theorem WordCount.kstepStart : WordCount.Statement (.kstepStart) := .inl rfl
theorem WordCount.kstepComplete : WordCount.Statement (.kstepComplete) := .inl rfl
theorem WordCount.tileFetch : WordCount.Statement (.tileFetch) := .inl rfl
theorem WordCount.mstPerform : WordCount.Statement (.mstPerform) := .inl rfl
theorem WordCount.mzeroPerform : WordCount.Statement (.mzeroPerform) := .inl rfl
theorem WordCount.helperStart : WordCount.Statement (.helperStart) := .inl rfl
theorem WordCount.hjoinComplete : WordCount.Statement (.hjoinComplete) := .inl rfl
theorem WordCount.chunkWatchdogExpiry : WordCount.Statement (.chunkWatchdogExpiry) := .inl rfl
theorem WordCount.rgnOpenBufferGrant : WordCount.Statement (.rgnOpenBufferGrant) := .inl rfl
theorem WordCount.rgnCommitPublish : WordCount.Statement (.rgnCommitPublish) := .inl rfl
theorem WordCount.progressWatchdogExpiry : WordCount.Statement (.progressWatchdogExpiry) := .inl rfl
theorem WordCount.issueFairnessRaise : WordCount.Statement (.issueFairnessRaise) := .inl rfl
theorem WordCount.bankSweep : WordCount.Statement (.bankSweep) := .inl rfl
theorem WordCount.machineCheck : WordCount.Statement (.machineCheck) := .inl rfl
theorem WordCount.harvestEviction : WordCount.Statement (.harvestEviction) := .inl rfl
theorem WordCount.spillComplete : WordCount.Statement (.spillComplete) := .inl rfl
theorem WordCount.harvestReload : WordCount.Statement (.harvestReload) := .inl rfl
theorem WordCount.bandPlace : WordCount.Statement (.bandPlace) := .inl rfl
theorem WordCount.bandRetire : WordCount.Statement (.bandRetire) := .inl rfl
theorem WordCount.tenantSliceEnd : WordCount.Statement (.tenantSliceEnd) := .inl rfl
theorem WordCount.deadlineOverrun : WordCount.Statement (.deadlineOverrun) := .inl rfl
theorem WordCount.preemptHandlerTimeout : WordCount.Statement (.preemptHandlerTimeout) := .inl rfl
theorem WordCount.contextSave : WordCount.Statement (.contextSave) := .inl rfl
theorem WordCount.contextResume : WordCount.Statement (.contextResume) := .inl rfl
theorem WordCount.checkpointTrigger : WordCount.Statement (.checkpointTrigger) := .inl rfl
theorem WordCount.checkpointBundleStart : WordCount.Statement (.checkpointBundleStart) := .inl rfl
theorem WordCount.doorbellWrite : WordCount.Statement (.doorbellWrite) := .inl rfl
theorem WordCount.bundleRead : WordCount.Statement (.bundleRead) := .inl rfl
theorem WordCount.waitConditionPoll : WordCount.Statement (.waitConditionPoll) := .inl rfl
theorem WordCount.bundleStart : WordCount.Statement (.bundleStart) := .inl rfl
theorem WordCount.signalAfter : WordCount.Statement (.signalAfter) := .inl rfl
theorem WordCount.bundleRetire : WordCount.Statement (.bundleRetire) := .inl rfl
theorem WordCount.qctlInval : WordCount.Statement (.qctlInval) := .inl rfl
theorem WordCount.qctlDestroy : WordCount.Statement (.qctlDestroy) := .inl rfl
theorem WordCount.destroyComplete : WordCount.Statement (.destroyComplete) := .inl rfl
theorem WordCount.qctlDbmap : WordCount.Statement (.qctlDbmap) := .inl rfl
theorem WordCount.qctlDbunmap : WordCount.Statement (.qctlDbunmap) := .inl rfl
theorem WordCount.parkctlResumeInstruction : WordCount.Statement (.parkctlResumeInstruction) := .inl rfl
theorem WordCount.parkctlResumeHandler : WordCount.Statement (.parkctlResumeHandler) := .inl rfl
theorem WordCount.parkctlKillGroup : WordCount.Statement (.parkctlKillGroup) := .inl rfl
theorem WordCount.parkctlKillTeam : WordCount.Statement (.parkctlKillTeam) := .inl rfl
theorem WordCount.parkctlKillBand : WordCount.Statement (.parkctlKillBand) := .inl rfl
theorem WordCount.parkctlKillContext : WordCount.Statement (.parkctlKillContext) := .inl rfl
theorem WordCount.tlbinvPasid : WordCount.Statement (.tlbinvPasid) := .inl rfl
theorem WordCount.tlbinvRange : WordCount.Statement (.tlbinvRange) := .inl rfl
theorem WordCount.tlbinvStage2 : WordCount.Statement (.tlbinvStage2) := .inl rfl
theorem WordCount.tlbinvComplete : WordCount.Statement (.tlbinvComplete) := .inl rfl
theorem WordCount.objctlInstall : WordCount.Statement (.objctlInstall) := .inl rfl
theorem WordCount.objctlRemove : WordCount.Statement (.objctlRemove) := .inl rfl
theorem WordCount.atsCompletion : WordCount.Statement (.atsCompletion) := .inl rfl
theorem WordCount.priResponse : WordCount.Statement (.priResponse) := .inl rfl
theorem WordCount.priTimeout : WordCount.Statement (.priTimeout) := .inl rfl
theorem WordCount.atsInvalidateRequest : WordCount.Statement (.atsInvalidateRequest) := .inl rfl
theorem WordCount.vfEnableClear : WordCount.Statement (.vfEnableClear) := .inl rfl
theorem WordCount.inboundPostedWrite : WordCount.Statement (.inboundPostedWrite) := .inl rfl
theorem WordCount.orderingPointSend : WordCount.Statement (.orderingPointSend) := .inl rfl
theorem WordCount.orderingPointAck : WordCount.Statement (.orderingPointAck) := .inl rfl
theorem WordCount.inboundHostRead : WordCount.Statement (.inboundHostRead) := .inl rfl
theorem WordCount.hostLinkDown : WordCount.Statement (.hostLinkDown) := .inl rfl
theorem WordCount.inboundFabricRequest : WordCount.Statement (.inboundFabricRequest) := .inl rfl
theorem WordCount.remoteNak : WordCount.Statement (.remoteNak) := .inl rfl
theorem WordCount.remoteTimeout : WordCount.Statement (.remoteTimeout) := .inl rfl
theorem WordCount.linkLoss : WordCount.Statement (.linkLoss) := .inl rfl
theorem WordCount.linkReturn : WordCount.Statement (.linkReturn) := .inl rfl
theorem WordCount.fabricWindowStart : WordCount.Statement (.fabricWindowStart) := .inl rfl
theorem WordCount.dreset : WordCount.Statement (.dreset) := .inl rfl
theorem WordCount.deviceReset : WordCount.Statement (.deviceReset) := .inl rfl
theorem WordCount.ownClaim : WordCount.Statement (.ownClaim) := .inl rfl
theorem WordCount.ownHandto : WordCount.Statement (.ownHandto) := .inl rfl
theorem WordCount.ownAccept : WordCount.Statement (.ownAccept) := .inl rfl
theorem WordCount.debugHalt : WordCount.Statement (.debugHalt) := .inl rfl
theorem WordCount.debugRead : WordCount.Statement (.debugRead) := .inl rfl
theorem WordCount.debugWrite : WordCount.Statement (.debugWrite) := .inl rfl
theorem WordCount.debugWrec : WordCount.Statement (.debugWrec) := .inl rfl
theorem WordCount.classcfgWrite : WordCount.Statement (.classcfgWrite) := .inl rfl
theorem WordCount.vfapszWrite : WordCount.Statement (.vfapszWrite) := .inl rfl
theorem WordCount.tcselWrite : WordCount.Statement (.tcselWrite) := .inl rfl
theorem WordCount.frtrootWrite : WordCount.Statement (.frtrootWrite) := .inl rfl
theorem WordCount.finrootWrite : WordCount.Statement (.finrootWrite) := .inl rfl
theorem WordCount.registerWrite : WordCount.Statement (.registerWrite) := .inl rfl
theorem WordCount.healthUpdate : WordCount.Statement (.healthUpdate) := .inl rfl
theorem WordCount.thermalLimit : WordCount.Statement (.thermalLimit) := .inl rfl
theorem WordCount.thermalTrip : WordCount.Statement (.thermalTrip) := .inl rfl
theorem WordCount.feedLoss : WordCount.Statement (.feedLoss) := .inl rfl
theorem WordCount.accessPerformed : WordCount.Statement (.accessPerformed) := .inl rfl
theorem WordCount.pfFunctionLevelReset : WordCount.Statement (.pfFunctionLevelReset) := .inl rfl
theorem WordCount.correctedError : WordCount.Statement (.correctedError) := .inl rfl
theorem WordCount.vfEnableSet : WordCount.Statement (.vfEnableSet) := .inl rfl
theorem WordCount.worldRegisterWrite : WordCount.Statement (.worldRegisterWrite) := .inl rfl

end Sys2Proof.Laws
end

