-- ==== Sys2Proof/Tests/Slice0.lean ====
section
/-! SUPPORT. The author's own tests: the decoding of every constructor by words from the spec's encodings, an ill-formed term
for each check of `Instr.wf`, single steps against the spec's worked examples, and for every obligation that has hypotheses a
state and operands that meet them. -/

namespace Sys2Proof.Tests

open Sys2Proof Sys2Proof.Machine

/-! ### Decoding (02_instruction_words.md) -/

/-- Each list of words decodes to the instruction beside it. -/
def reads (xs : List (List DWord × Instr)) : Bool := xs.all (fun p => decide (decode p.1 = .ok p.2))

/-- R41 to R46 and R50, MOP 0x01: each function of the class, every field of its format with a value of its own. -/
theorem decode_mop_01 : reads
    [([0x0400526189ABCDEF], .br ⟨false, 5, 9, 0x21, 0x89abcdef⟩),
     ([0x0408526189ABCDEF], .beq ⟨false, 5, 9, 0x21, 0x89abcdef⟩),
     ([0x0410526189ABCDEF], .bne ⟨false, 5, 9, 0x21, 0x89abcdef⟩),
     ([0x0418526189ABCDEF], .blt ⟨false, 5, 9, 0x21, 0x89abcdef⟩),
     ([0x0420526189ABCDEF], .bge ⟨false, 5, 9, 0x21, 0x89abcdef⟩),
     ([0x0428526189ABCDEF], .bltu ⟨false, 5, 9, 0x21, 0x89abcdef⟩),
     ([0x0430526189ABCDEF], .bgeu ⟨false, 5, 9, 0x21, 0x89abcdef⟩),
     ([0x0438526189ABCDEF], .bmz ⟨false, 5, 9, 0x21, 0x89abcdef⟩),
     ([0x0440526189ABCDEF], .bmnz ⟨false, 5, 9, 0x21, 0x89abcdef⟩),
     ([0x0448526189ABCDEF], .bmall ⟨false, 5, 9, 0x21, 0x89abcdef⟩)] = true := by decide

/-- R41 to R46 and R50, MOP 0x02: each function of the class, every field of its format with a value of its own. -/
theorem decode_mop_02 : reads
    [([0x0800526189ABCDEF], .call ⟨false, 5, 9, 0x21, 0x89abcdef⟩),
     ([0x0808526189ABCDEF], .calli ⟨false, 5, 9, 0x21, 0x89abcdef⟩),
     ([0x0810526189ABCDEF], .ret ⟨false, 5, 9, 0x21, 0x89abcdef⟩),
     ([0x0818526189ABCDEF], .jmpi ⟨false, 5, 9, 0x21, 0x89abcdef⟩)] = true := by decide

/-- R41 to R46 and R50, MOP 0x03: each function of the class, every field of its format with a value of its own. -/
theorem decode_mop_03 : reads
    [([0x0C00526189ABCDEF], .loop ⟨false, 5, 9, 0x21, 0x89abcdef⟩),
     ([0x0C08526189ABCDEF], .lbrk ⟨false, 5, 9, 0x21, 0x89abcdef⟩),
     ([0x0C10526189ABCDEF], .lcget ⟨false, 5, 9, 0x21, 0x89abcdef⟩),
     ([0x0C18526189ABCDEF], .lcset ⟨false, 5, 9, 0x21, 0x89abcdef⟩)] = true := by decide

/-- R41 to R46 and R50, MOP 0x04: each function of the class, every field of its format with a value of its own. -/
theorem decode_mop_04 : reads
    [([0x1004526189ABCDEF], .exit ⟨true, 5, 9, 0x21, 0x89abcdef⟩),
     ([0x100C526189ABCDEF], .yield ⟨true, 5, 9, 0x21, 0x89abcdef⟩),
     ([0x1014526189ABCDEF], .nop ⟨true, 5, 9, 0x21, 0x89abcdef⟩),
     ([0x101C526189ABCDEF], .snooze ⟨true, 5, 9, 0x21, 0x89abcdef⟩)] = true := by decide

/-- R41 to R46 and R50, MOP 0x05: each function of the class, every field of its format with a value of its own. -/
theorem decode_mop_05 : reads
    [([0x1404526189ABCDEF], .mand ⟨true, 5, 9, 0x21, 0x89abcdef⟩),
     ([0x140C526189ABCDEF], .mor ⟨true, 5, 9, 0x21, 0x89abcdef⟩),
     ([0x1414526189ABCDEF], .mxor ⟨true, 5, 9, 0x21, 0x89abcdef⟩),
     ([0x141C526189ABCDEF], .mandn ⟨true, 5, 9, 0x21, 0x89abcdef⟩),
     ([0x1424526189ABCDEF], .mnot ⟨true, 5, 9, 0x21, 0x89abcdef⟩),
     ([0x142C526189ABCDEF], .mpopc ⟨true, 5, 9, 0x21, 0x89abcdef⟩),
     ([0x1434526189ABCDEF], .mffs ⟨true, 5, 9, 0x21, 0x89abcdef⟩),
     ([0x143C526189ABCDEF], .mrange ⟨true, 5, 9, 0x21, 0x89abcdef⟩),
     ([0x1444526189ABCDEF], .mtest ⟨true, 5, 9, 0x21, 0x89abcdef⟩),
     ([0x144C526189ABCDEF], .mmov ⟨true, 5, 9, 0x21, 0x89abcdef⟩),
     ([0x1454526189ABCDEF], .mlive ⟨true, 5, 9, 0x21, 0x89abcdef⟩)] = true := by decide

/-- R41 to R46 and R50, MOP 0x08: each function of the class, every field of its format with a value of its own. -/
theorem decode_mop_08 : reads
    [([0x2004526189ABCDEF], .add ⟨true, 5, 9, 0x21, 0x89abcdef⟩),
     ([0x200C526189ABCDEF], .sub ⟨true, 5, 9, 0x21, 0x89abcdef⟩),
     ([0x2014526189ABCDEF], .mul ⟨true, 5, 9, 0x21, 0x89abcdef⟩),
     ([0x201C526189ABCDEF], .mulhs ⟨true, 5, 9, 0x21, 0x89abcdef⟩),
     ([0x2024526189ABCDEF], .mulhu ⟨true, 5, 9, 0x21, 0x89abcdef⟩),
     ([0x202C526189ABCDEF], .and ⟨true, 5, 9, 0x21, 0x89abcdef⟩),
     ([0x2034526189ABCDEF], .or ⟨true, 5, 9, 0x21, 0x89abcdef⟩),
     ([0x203C526189ABCDEF], .xor ⟨true, 5, 9, 0x21, 0x89abcdef⟩),
     ([0x2044526189ABCDEF], .andn ⟨true, 5, 9, 0x21, 0x89abcdef⟩),
     ([0x204C526189ABCDEF], .shl ⟨true, 5, 9, 0x21, 0x89abcdef⟩),
     ([0x2054526189ABCDEF], .shr ⟨true, 5, 9, 0x21, 0x89abcdef⟩),
     ([0x205C526189ABCDEF], .sar ⟨true, 5, 9, 0x21, 0x89abcdef⟩),
     ([0x2064526189ABCDEF], .rotl ⟨true, 5, 9, 0x21, 0x89abcdef⟩),
     ([0x206C526189ABCDEF], .min ⟨true, 5, 9, 0x21, 0x89abcdef⟩),
     ([0x2074526189ABCDEF], .max ⟨true, 5, 9, 0x21, 0x89abcdef⟩),
     ([0x207C526189ABCDEF], .minu ⟨true, 5, 9, 0x21, 0x89abcdef⟩),
     ([0x2084526189ABCDEF], .maxu ⟨true, 5, 9, 0x21, 0x89abcdef⟩),
     ([0x208C526189ABCDEF], .slt ⟨true, 5, 9, 0x21, 0x89abcdef⟩),
     ([0x2094526189ABCDEF], .sltu ⟨true, 5, 9, 0x21, 0x89abcdef⟩),
     ([0x209C526189ABCDEF], .seq ⟨true, 5, 9, 0x21, 0x89abcdef⟩),
     ([0x20A4526189ABCDEF], .sne ⟨true, 5, 9, 0x21, 0x89abcdef⟩),
     ([0x20AC526189ABCDEF], .clz ⟨true, 5, 9, 0x21, 0x89abcdef⟩),
     ([0x20B4526189ABCDEF], .ctz ⟨true, 5, 9, 0x21, 0x89abcdef⟩),
     ([0x20BC526189ABCDEF], .popc ⟨true, 5, 9, 0x21, 0x89abcdef⟩),
     ([0x20C4526189ABCDEF], .brev ⟨true, 5, 9, 0x21, 0x89abcdef⟩),
     ([0x20CC526189ABCDEF], .cmov ⟨true, 5, 9, 0x21, 0x89abcdef⟩)] = true := by decide

/-- R41 to R46 and R50, MOP 0x09: each function of the class, every field of its format with a value of its own. -/
theorem decode_mop_09 : reads
    [([0x2404526189ABCDEF], .addw ⟨true, 5, 9, 0x21, 0x89abcdef⟩),
     ([0x240C526189ABCDEF], .subw ⟨true, 5, 9, 0x21, 0x89abcdef⟩),
     ([0x2414526189ABCDEF], .mulw ⟨true, 5, 9, 0x21, 0x89abcdef⟩),
     ([0x241C526189ABCDEF], .shlw ⟨true, 5, 9, 0x21, 0x89abcdef⟩),
     ([0x2424526189ABCDEF], .shrw ⟨true, 5, 9, 0x21, 0x89abcdef⟩),
     ([0x242C526189ABCDEF], .sarw ⟨true, 5, 9, 0x21, 0x89abcdef⟩),
     ([0x2434526189ABCDEF], .sltw ⟨true, 5, 9, 0x21, 0x89abcdef⟩),
     ([0x243C526189ABCDEF], .sltuw ⟨true, 5, 9, 0x21, 0x89abcdef⟩)] = true := by decide

/-- R41 to R46 and R50, MOP 0x0A: each function of the class, every field of its format with a value of its own. -/
theorem decode_mop_0A : reads
    [([0x2804526189ABCDEF], .li ⟨true, 5, 9, 0x21, 0x89abcdef⟩),
     ([0x280C526189ABCDEF, 0x0123456789ABCDEF], .liw ⟨true, 5, 9, 0x21, 0x89abcdef⟩ 0x0123456789ABCDEF),
     ([0x2814526189ABCDEF], .lea ⟨true, 5, 9, 0x21, 0x89abcdef⟩),
     ([0x2818526189ABCDEF], .movwCopy ⟨false, 5, 9, 0x21, 0x89abcdef⟩),
     ([0x281C526189ABCDEF], .movwRelative ⟨true, 5, 9, 0x21, 0x89abcdef⟩)] = true := by decide

/-- R41 to R46 and R50, MOP 0x10: each function of the class, every field of its format with a value of its own. -/
theorem decode_mop_10 : reads
    [([0x40038AAA8B366973], .vadd ⟨3, 0x45, 0x2a, 0x51, 0x33, 0x19, 2, 0x25, true, 0x13⟩),
     ([0x400B8AAA8B366973], .vsub ⟨3, 0x45, 0x2a, 0x51, 0x33, 0x19, 2, 0x25, true, 0x13⟩),
     ([0x40138AAA8B366973], .vmul ⟨3, 0x45, 0x2a, 0x51, 0x33, 0x19, 2, 0x25, true, 0x13⟩),
     ([0x401B8AAA8B366973], .vmulh ⟨3, 0x45, 0x2a, 0x51, 0x33, 0x19, 2, 0x25, true, 0x13⟩),
     ([0x40238AAA8B366973], .vmulhu ⟨3, 0x45, 0x2a, 0x51, 0x33, 0x19, 2, 0x25, true, 0x13⟩),
     ([0x402B8AAA8B366973], .vmad ⟨3, 0x45, 0x2a, 0x51, 0x33, 0x19, 2, 0x25, true, 0x13⟩),
     ([0x40338AAA8B366973], .vand ⟨3, 0x45, 0x2a, 0x51, 0x33, 0x19, 2, 0x25, true, 0x13⟩),
     ([0x403B8AAA8B366973], .vor ⟨3, 0x45, 0x2a, 0x51, 0x33, 0x19, 2, 0x25, true, 0x13⟩),
     ([0x40438AAA8B366973], .vxor ⟨3, 0x45, 0x2a, 0x51, 0x33, 0x19, 2, 0x25, true, 0x13⟩),
     ([0x404B8AAA8B366973], .vandn ⟨3, 0x45, 0x2a, 0x51, 0x33, 0x19, 2, 0x25, true, 0x13⟩),
     ([0x40538AAA8B366973], .vshl ⟨3, 0x45, 0x2a, 0x51, 0x33, 0x19, 2, 0x25, true, 0x13⟩),
     ([0x405B8AAA8B366973], .vshr ⟨3, 0x45, 0x2a, 0x51, 0x33, 0x19, 2, 0x25, true, 0x13⟩),
     ([0x40638AAA8B366973], .vsar ⟨3, 0x45, 0x2a, 0x51, 0x33, 0x19, 2, 0x25, true, 0x13⟩),
     ([0x406B8AAA8B366973], .vmin ⟨3, 0x45, 0x2a, 0x51, 0x33, 0x19, 2, 0x25, true, 0x13⟩),
     ([0x40738AAA8B366973], .vmax ⟨3, 0x45, 0x2a, 0x51, 0x33, 0x19, 2, 0x25, true, 0x13⟩),
     ([0x407B8AAA8B366973], .vminu ⟨3, 0x45, 0x2a, 0x51, 0x33, 0x19, 2, 0x25, true, 0x13⟩),
     ([0x40838AAA8B366973], .vmaxu ⟨3, 0x45, 0x2a, 0x51, 0x33, 0x19, 2, 0x25, true, 0x13⟩),
     ([0x408B8AAA8B366973], .vabs ⟨3, 0x45, 0x2a, 0x51, 0x33, 0x19, 2, 0x25, true, 0x13⟩),
     ([0x40938AAA8B366973], .vneg ⟨3, 0x45, 0x2a, 0x51, 0x33, 0x19, 2, 0x25, true, 0x13⟩),
     ([0x409B8AAA8B366973], .vpopc ⟨3, 0x45, 0x2a, 0x51, 0x33, 0x19, 2, 0x25, true, 0x13⟩),
     ([0x40A38AAA8B366973], .vclz ⟨3, 0x45, 0x2a, 0x51, 0x33, 0x19, 2, 0x25, true, 0x13⟩)] = true := by decide

/-- R41 to R46 and R50, MOP 0x11: each function of the class, every field of its format with a value of its own. -/
theorem decode_mop_11 : reads
    [([0x44038AAA8B366973], .vicmp ⟨3, 0x45, 0x2a, 0x51, 0x33, 0x19, 2, 0x25, true, 0x13⟩),
     ([0x440B8AAA8B366973], .vfcmp ⟨3, 0x45, 0x2a, 0x51, 0x33, 0x19, 2, 0x25, true, 0x13⟩)] = true := by decide

/-- R41 to R46 and R50, MOP 0x12: each function of the class, every field of its format with a value of its own. -/
theorem decode_mop_12 : reads
    [([0x48038AAA8B366973], .vfadd ⟨3, 0x45, 0x2a, 0x51, 0x33, 0x19, 2, 0x25, true, 0x13⟩),
     ([0x480B8AAA8B366973], .vfsub ⟨3, 0x45, 0x2a, 0x51, 0x33, 0x19, 2, 0x25, true, 0x13⟩),
     ([0x48138AAA8B366973], .vfmul ⟨3, 0x45, 0x2a, 0x51, 0x33, 0x19, 2, 0x25, true, 0x13⟩),
     ([0x481B8AAA8B366973], .vfma ⟨3, 0x45, 0x2a, 0x51, 0x33, 0x19, 2, 0x25, true, 0x13⟩),
     ([0x48238AAA8B366973], .vfnma ⟨3, 0x45, 0x2a, 0x51, 0x33, 0x19, 2, 0x25, true, 0x13⟩),
     ([0x482B8AAA8B366973], .vfmin ⟨3, 0x45, 0x2a, 0x51, 0x33, 0x19, 2, 0x25, true, 0x13⟩),
     ([0x48338AAA8B366973], .vfmax ⟨3, 0x45, 0x2a, 0x51, 0x33, 0x19, 2, 0x25, true, 0x13⟩),
     ([0x483B8AAA8B366973], .vfminn ⟨3, 0x45, 0x2a, 0x51, 0x33, 0x19, 2, 0x25, true, 0x13⟩),
     ([0x48438AAA8B366973], .vfmaxn ⟨3, 0x45, 0x2a, 0x51, 0x33, 0x19, 2, 0x25, true, 0x13⟩),
     ([0x484B8AAA8B366973], .vfabs ⟨3, 0x45, 0x2a, 0x51, 0x33, 0x19, 2, 0x25, true, 0x13⟩),
     ([0x48538AAA8B366973], .vfneg ⟨3, 0x45, 0x2a, 0x51, 0x33, 0x19, 2, 0x25, true, 0x13⟩),
     ([0x485B8AAA8B366973], .vfcps ⟨3, 0x45, 0x2a, 0x51, 0x33, 0x19, 2, 0x25, true, 0x13⟩),
     ([0x48638AAA8B366973], .vfrnd ⟨3, 0x45, 0x2a, 0x51, 0x33, 0x19, 2, 0x25, true, 0x13⟩),
     ([0x486B8AAA8B366973], .vfdiv ⟨3, 0x45, 0x2a, 0x51, 0x33, 0x19, 2, 0x25, true, 0x13⟩),
     ([0x48738AAA8B366973], .vfsqrt ⟨3, 0x45, 0x2a, 0x51, 0x33, 0x19, 2, 0x25, true, 0x13⟩),
     ([0x487B8AAA8B366973], .vfclass ⟨3, 0x45, 0x2a, 0x51, 0x33, 0x19, 2, 0x25, true, 0x13⟩)] = true := by decide

/-- R41 to R46 and R50, MOP 0x13: each function of the class, every field of its format with a value of its own. -/
theorem decode_mop_13 : reads
    [([0x4C038AAA8B366973], .vrcp ⟨3, 0x45, 0x2a, 0x51, 0x33, 0x19, 2, 0x25, true, 0x13⟩),
     ([0x4C0B8AAA8B366973], .vrsq ⟨3, 0x45, 0x2a, 0x51, 0x33, 0x19, 2, 0x25, true, 0x13⟩),
     ([0x4C138AAA8B366973], .vexp2 ⟨3, 0x45, 0x2a, 0x51, 0x33, 0x19, 2, 0x25, true, 0x13⟩),
     ([0x4C1B8AAA8B366973], .vlog2 ⟨3, 0x45, 0x2a, 0x51, 0x33, 0x19, 2, 0x25, true, 0x13⟩),
     ([0x4C238AAA8B366973], .vsinpi ⟨3, 0x45, 0x2a, 0x51, 0x33, 0x19, 2, 0x25, true, 0x13⟩),
     ([0x4C2B8AAA8B366973], .vcospi ⟨3, 0x45, 0x2a, 0x51, 0x33, 0x19, 2, 0x25, true, 0x13⟩),
     ([0x4C338AAA8B366973], .vtanh ⟨3, 0x45, 0x2a, 0x51, 0x33, 0x19, 2, 0x25, true, 0x13⟩)] = true := by decide

/-- R41 to R46 and R50, MOP 0x14: each function of the class, every field of its format with a value of its own. -/
theorem decode_mop_14 : reads
    [([0x50038AAA8B366973], .vmov ⟨3, 0x45, 0x2a, 0x51, 0x33, 0x19, 2, 0x25, true, 0x13⟩),
     ([0x500B8AAA8B366973], .vsel ⟨3, 0x45, 0x2a, 0x51, 0x33, 0x19, 2, 0x25, true, 0x13⟩),
     ([0x50138AAA8B366973], .vbcst ⟨3, 0x45, 0x2a, 0x51, 0x33, 0x19, 2, 0x25, true, 0x13⟩),
     ([0x501B8AAA8B366973], .vidx ⟨3, 0x45, 0x2a, 0x51, 0x33, 0x19, 2, 0x25, true, 0x13⟩),
     ([0x50238AAA8B366973], .vget ⟨3, 0x45, 0x2a, 0x51, 0x33, 0x19, 2, 0x25, true, 0x13⟩),
     ([0x502B8AAA8B366973], .vput ⟨3, 0x45, 0x2a, 0x51, 0x33, 0x19, 2, 0x25, true, 0x13⟩)] = true := by decide

/-- R41 to R46 and R50, MOP 0x18: each function of the class, every field of its format with a value of its own. -/
theorem decode_mop_18 : reads
    [([0x60038AAA8B366973], .vcvtf ⟨3, 0x45, 0x2a, 0x51, 0x33, 0x19, 2, 0x25, true, 0x13⟩),
     ([0x600B8AAA8B366973], .vf2i ⟨3, 0x45, 0x2a, 0x51, 0x33, 0x19, 2, 0x25, true, 0x13⟩),
     ([0x60138AAA8B366973], .vi2f ⟨3, 0x45, 0x2a, 0x51, 0x33, 0x19, 2, 0x25, true, 0x13⟩),
     ([0x601B8AAA8B366973], .vcvt8 ⟨3, 0x45, 0x2a, 0x51, 0x33, 0x19, 2, 0x25, true, 0x13⟩),
     ([0x60238AAA8B366973], .vext8 ⟨3, 0x45, 0x2a, 0x51, 0x33, 0x19, 2, 0x25, true, 0x13⟩),
     ([0x602B8AAA8B366973], .vscale ⟨3, 0x45, 0x2a, 0x51, 0x33, 0x19, 2, 0x25, true, 0x13⟩),
     ([0x60338AAA8B366973], .vbscl ⟨3, 0x45, 0x2a, 0x51, 0x33, 0x19, 2, 0x25, true, 0x13⟩),
     ([0x603B8AAA8B366973], .vpk8 ⟨3, 0x45, 0x2a, 0x51, 0x33, 0x19, 2, 0x25, true, 0x13⟩),
     ([0x60438AAA8B366973], .vupk8 ⟨3, 0x45, 0x2a, 0x51, 0x33, 0x19, 2, 0x25, true, 0x13⟩)] = true := by decide

/-- R41 to R46 and R50, MOP 0x19: each function of the class, every field of its format with a value of its own. -/
theorem decode_mop_19 : reads
    [([0x64038AAA8B366973], .vrngs ⟨3, 0x45, 0x2a, 0x51, 0x33, 0x19, 2, 0x25, true, 0x13⟩),
     ([0x640B8AAA8B366973], .vrng ⟨3, 0x45, 0x2a, 0x51, 0x33, 0x19, 2, 0x25, true, 0x13⟩)] = true := by decide

/-- R41 to R46 and R50, MOP 0x20: each function of the class, every field of its format with a value of its own. -/
theorem decode_mop_20 : reads
    [([0x800418A089ABCDEF], .sld none ⟨4, 6, 0xa, 0, 0x89abcdef⟩),
     ([0xFDD51A8000000000, 0x800418A089ABCDEF], .sld (some ⟨3, 5, 2, 4, 1, 0x15, 0⟩) ⟨4, 6, 0xa, 0, 0x89abcdef⟩),
     ([0x800C18A089ABCDEF], .sst none ⟨4, 6, 0xa, 0, 0x89abcdef⟩),
     ([0xFDD51A8000000000, 0x800C18A089ABCDEF], .sst (some ⟨3, 5, 2, 4, 1, 0x15, 0⟩) ⟨4, 6, 0xa, 0, 0x89abcdef⟩)] = true := by decide

/-- R41 to R46 and R50, MOP 0x21: each function of the class, every field of its format with a value of its own. -/
theorem decode_mop_21 : reads
    [([0x84058C6359D9ABCD], .vld none ⟨5, 0x46, 0xc, 0x35, 2, 0x1d, 0x9abcd⟩),
     ([0xFDD51A8000000000, 0x84058C6359D9ABCD], .vld (some ⟨3, 5, 2, 4, 1, 0x15, 0⟩) ⟨5, 0x46, 0xc, 0x35, 2, 0x1d, 0x9abcd⟩),
     ([0x840D8C6359D9ABCD], .vst none ⟨5, 0x46, 0xc, 0x35, 2, 0x1d, 0x9abcd⟩),
     ([0xFDD51A8000000000, 0x840D8C6359D9ABCD], .vst (some ⟨3, 5, 2, 4, 1, 0x15, 0⟩) ⟨5, 0x46, 0xc, 0x35, 2, 0x1d, 0x9abcd⟩),
     ([0x84158C6359D9ABCD], .vldb none ⟨5, 0x46, 0xc, 0x35, 2, 0x1d, 0x9abcd⟩),
     ([0xFDD51A8000000000, 0x84158C6359D9ABCD], .vldb (some ⟨3, 5, 2, 4, 1, 0x15, 0⟩) ⟨5, 0x46, 0xc, 0x35, 2, 0x1d, 0x9abcd⟩),
     ([0x841D8C6359D9ABCD], .vstb none ⟨5, 0x46, 0xc, 0x35, 2, 0x1d, 0x9abcd⟩),
     ([0xFDD51A8000000000, 0x841D8C6359D9ABCD], .vstb (some ⟨3, 5, 2, 4, 1, 0x15, 0⟩) ⟨5, 0x46, 0xc, 0x35, 2, 0x1d, 0x9abcd⟩)] = true := by decide

/-- R41 to R46 and R50, MOP 0x22: each function of the class, every field of its format with a value of its own. -/
theorem decode_mop_22 : reads
    [([0x880514AAD496BEEF], .zset ⟨5, 5, 0xa, 0x2b, 0x14, 9, 6, 0xbeef⟩),
     ([0x880D14AAD496BEEF], .zsets ⟨5, 5, 0xa, 0x2b, 0x14, 9, 6, 0xbeef⟩),
     ([0x881514AAD496BEEF], .zrew ⟨5, 5, 0xa, 0x2b, 0x14, 9, 6, 0xbeef⟩),
     ([0x881814AAD496BEEF], .zposRead ⟨0, 5, 0xa, 0x2b, 0x14, 9, 6, 0xbeef⟩),
     ([0x881914AAD496BEEF], .zposSet ⟨1, 5, 0xa, 0x2b, 0x14, 9, 6, 0xbeef⟩),
     ([0x881A14AAD496BEEF], .zposEnd ⟨2, 5, 0xa, 0x2b, 0x14, 9, 6, 0xbeef⟩)] = true := by decide

/-- R41 to R46 and R50, MOP 0x23: each function of the class, every field of its format with a value of its own. -/
theorem decode_mop_23 : reads
    [([0x8C058C6359D9ABCD], .fence none ⟨5, 0x46, 0xc, 0x35, 2, 0x1d, 0x9abcd⟩),
     ([0xFDD51A8000000000, 0x8C058C6359D9ABCD], .fence (some ⟨3, 5, 2, 4, 1, 0x15, 0⟩) ⟨5, 0x46, 0xc, 0x35, 2, 0x1d, 0x9abcd⟩),
     ([0x8C0D8C6359D9ABCD], .cwb none ⟨5, 0x46, 0xc, 0x35, 2, 0x1d, 0x9abcd⟩),
     ([0xFDD51A8000000000, 0x8C0D8C6359D9ABCD], .cwb (some ⟨3, 5, 2, 4, 1, 0x15, 0⟩) ⟨5, 0x46, 0xc, 0x35, 2, 0x1d, 0x9abcd⟩),
     ([0x8C158C6359D9ABCD], .cinv none ⟨5, 0x46, 0xc, 0x35, 2, 0x1d, 0x9abcd⟩),
     ([0xFDD51A8000000000, 0x8C158C6359D9ABCD], .cinv (some ⟨3, 5, 2, 4, 1, 0x15, 0⟩) ⟨5, 0x46, 0xc, 0x35, 2, 0x1d, 0x9abcd⟩),
     ([0x8C1D8C6359D9ABCD], .pref none ⟨5, 0x46, 0xc, 0x35, 2, 0x1d, 0x9abcd⟩),
     ([0xFDD51A8000000000, 0x8C1D8C6359D9ABCD], .pref (some ⟨3, 5, 2, 4, 1, 0x15, 0⟩) ⟨5, 0x46, 0xc, 0x35, 2, 0x1d, 0x9abcd⟩)] = true := by decide

/-- R41 to R46 and R50, MOP 0x24: each function of the class, every field of its format with a value of its own. -/
theorem decode_mop_24 : reads
    [([0x900514AAD496BEEF], .chopen ⟨5, 5, 0xa, 0x2b, 0x14, 9, 6, 0xbeef⟩),
     ([0x900D14AAD496BEEF], .chwait ⟨5, 5, 0xa, 0x2b, 0x14, 9, 6, 0xbeef⟩),
     ([0x901514AAD496BEEF], .chclose ⟨5, 5, 0xa, 0x2b, 0x14, 9, 6, 0xbeef⟩)] = true := by decide

/-- R41 to R46 and R50, MOP 0x28: each function of the class, every field of its format with a value of its own. -/
theorem decode_mop_28 : reads
    [([0xA0058C6359D9ABCD], .satom none ⟨5, 0x46, 0xc, 0x35, 2, 0x1d, 0x9abcd⟩),
     ([0xFDD51A8000000000, 0xA0058C6359D9ABCD], .satom (some ⟨3, 5, 2, 4, 1, 0x15, 0⟩) ⟨5, 0x46, 0xc, 0x35, 2, 0x1d, 0x9abcd⟩),
     ([0xA00D8C6359D9ABCD], .vatom none ⟨5, 0x46, 0xc, 0x35, 2, 0x1d, 0x9abcd⟩),
     ([0xFDD51A8000000000, 0xA00D8C6359D9ABCD], .vatom (some ⟨3, 5, 2, 4, 1, 0x15, 0⟩) ⟨5, 0x46, 0xc, 0x35, 2, 0x1d, 0x9abcd⟩),
     ([0xA0158C6359D9ABCD], .fxadd none ⟨5, 0x46, 0xc, 0x35, 2, 0x1d, 0x9abcd⟩),
     ([0xFDD51A8000000000, 0xA0158C6359D9ABCD], .fxadd (some ⟨3, 5, 2, 4, 1, 0x15, 0⟩) ⟨5, 0x46, 0xc, 0x35, 2, 0x1d, 0x9abcd⟩),
     ([0xA01D8C6359D9ABCD], .fxrd none ⟨5, 0x46, 0xc, 0x35, 2, 0x1d, 0x9abcd⟩),
     ([0xFDD51A8000000000, 0xA01D8C6359D9ABCD], .fxrd (some ⟨3, 5, 2, 4, 1, 0x15, 0⟩) ⟨5, 0x46, 0xc, 0x35, 2, 0x1d, 0x9abcd⟩)] = true := by decide

/-- R41 to R46 and R50, MOP 0x29: each function of the class, every field of its format with a value of its own. -/
theorem decode_mop_29 : reads
    [([0xA40514AAD496BEEF], .bart ⟨5, 5, 0xa, 0x2b, 0x14, 9, 6, 0xbeef⟩),
     ([0xA40D14AAD496BEEF], .bara ⟨5, 5, 0xa, 0x2b, 0x14, 9, 6, 0xbeef⟩),
     ([0xA41514AAD496BEEF], .barw ⟨5, 5, 0xa, 0x2b, 0x14, 9, 6, 0xbeef⟩),
     ([0xA41D14AAD496BEEF], .barb ⟨5, 5, 0xa, 0x2b, 0x14, 9, 6, 0xbeef⟩),
     ([0xA42514AAD496BEEF], .sbinit ⟨5, 5, 0xa, 0x2b, 0x14, 9, 6, 0xbeef⟩),
     ([0xA42D14AAD496BEEF], .sbarv ⟨5, 5, 0xa, 0x2b, 0x14, 9, 6, 0xbeef⟩),
     ([0xA43514AAD496BEEF], .sbwait ⟨5, 5, 0xa, 0x2b, 0x14, 9, 6, 0xbeef⟩)] = true := by decide

/-- R41 to R46 and R50, MOP 0x2A: each function of the class, every field of its format with a value of its own. -/
theorem decode_mop_2A : reads
    [([0xA80514AAD496BEEF], .waitv none ⟨5, 5, 0xa, 0x2b, 0x14, 9, 6, 0xbeef⟩),
     ([0xFDD51A8000000000, 0xA80514AAD496BEEF], .waitv (some ⟨3, 5, 2, 4, 1, 0x15, 0⟩) ⟨5, 5, 0xa, 0x2b, 0x14, 9, 6, 0xbeef⟩)] = true := by decide

/-- R41 to R46 and R50, MOP 0x2B: each function of the class, every field of its format with a value of its own. -/
theorem decode_mop_2B : reads
    [([0xAC0514AAD496BEEF], .batt ⟨5, 5, 0xa, 0x2b, 0x14, 9, 6, 0xbeef⟩),
     ([0xAC0D14AAD496BEEF], .bpost ⟨5, 5, 0xa, 0x2b, 0x14, 9, 6, 0xbeef⟩),
     ([0xAC1514AAD496BEEF], .bread ⟨5, 5, 0xa, 0x2b, 0x14, 9, 6, 0xbeef⟩),
     ([0xAC1D14AAD496BEEF], .bdet ⟨5, 5, 0xa, 0x2b, 0x14, 9, 6, 0xbeef⟩),
     ([0xAC2514AAD496BEEF], .bvseg ⟨5, 5, 0xa, 0x2b, 0x14, 9, 6, 0xbeef⟩),
     ([0xAC2D14AAD496BEEF], .bvcmp ⟨5, 5, 0xa, 0x2b, 0x14, 9, 6, 0xbeef⟩)] = true := by decide

/-- R41 to R46 and R50, MOP 0x2C: each function of the class, every field of its format with a value of its own. -/
theorem decode_mop_2C : reads
    [([0xB0038AAA8B366973], .vvote ⟨3, 0x45, 0x2a, 0x51, 0x33, 0x19, 2, 0x25, true, 0x13⟩),
     ([0xB00B8AAA8B366973], .vshfl ⟨3, 0x45, 0x2a, 0x51, 0x33, 0x19, 2, 0x25, true, 0x13⟩),
     ([0xB0138AAA8B366973], .vmatch ⟨3, 0x45, 0x2a, 0x51, 0x33, 0x19, 2, 0x25, true, 0x13⟩),
     ([0xB01B8AAA8B366973], .vred ⟨3, 0x45, 0x2a, 0x51, 0x33, 0x19, 2, 0x25, true, 0x13⟩),
     ([0xB0238AAA8B366973], .vscan ⟨3, 0x45, 0x2a, 0x51, 0x33, 0x19, 2, 0x25, true, 0x13⟩)] = true := by decide

/-- R41 to R46 and R50, MOP 0x30: each function of the class, every field of its format with a value of its own. -/
theorem decode_mop_30 : reads
    [([0xC00514AAD496BEEF], .qbind ⟨5, 5, 0xa, 0x2b, 0x14, 9, 6, 0xbeef⟩),
     ([0xC00D14AAD496BEEF], .qpush ⟨5, 5, 0xa, 0x2b, 0x14, 9, 6, 0xbeef⟩),
     ([0xC01514AAD496BEEF], .qpop ⟨5, 5, 0xa, 0x2b, 0x14, 9, 6, 0xbeef⟩),
     ([0xC01D14AAD496BEEF], .qtry ⟨5, 5, 0xa, 0x2b, 0x14, 9, 6, 0xbeef⟩),
     ([0xC02514AAD496BEEF], .qstat ⟨5, 5, 0xa, 0x2b, 0x14, 9, 6, 0xbeef⟩)] = true := by decide

/-- R41 to R46 and R50, MOP 0x31: each function of the class, every field of its format with a value of its own. -/
theorem decode_mop_31 : reads
    [([0xC40014AAD496BEEF], .copyLinear none ⟨0, 5, 0xa, 0x2b, 0x14, 9, 6, 0xbeef⟩),
     ([0xFDD51A8000000000, 0xC40014AAD496BEEF], .copyLinear (some ⟨3, 5, 2, 4, 1, 0x15, 0⟩) ⟨0, 5, 0xa, 0x2b, 0x14, 9, 6, 0xbeef⟩),
     ([0xC40114AAD496BEEF], .copyDescribed none ⟨1, 5, 0xa, 0x2b, 0x14, 9, 6, 0xbeef⟩),
     ([0xFDD51A8000000000, 0xC40114AAD496BEEF], .copyDescribed (some ⟨3, 5, 2, 4, 1, 0x15, 0⟩) ⟨1, 5, 0xa, 0x2b, 0x14, 9, 6, 0xbeef⟩),
     ([0xC40D14AAD496BEEF], .copyg none ⟨5, 5, 0xa, 0x2b, 0x14, 9, 6, 0xbeef⟩),
     ([0xFDD51A8000000000, 0xC40D14AAD496BEEF], .copyg (some ⟨3, 5, 2, 4, 1, 0x15, 0⟩) ⟨5, 5, 0xa, 0x2b, 0x14, 9, 6, 0xbeef⟩),
     ([0xC41514AAD496BEEF], .copys none ⟨5, 5, 0xa, 0x2b, 0x14, 9, 6, 0xbeef⟩),
     ([0xFDD51A8000000000, 0xC41514AAD496BEEF], .copys (some ⟨3, 5, 2, 4, 1, 0x15, 0⟩) ⟨5, 5, 0xa, 0x2b, 0x14, 9, 6, 0xbeef⟩),
     ([0xC41D14AAD496BEEF], .copyr none ⟨5, 5, 0xa, 0x2b, 0x14, 9, 6, 0xbeef⟩),
     ([0xFDD51A8000000000, 0xC41D14AAD496BEEF], .copyr (some ⟨3, 5, 2, 4, 1, 0x15, 0⟩) ⟨5, 5, 0xa, 0x2b, 0x14, 9, 6, 0xbeef⟩)] = true := by decide

/-- R41 to R46 and R50, MOP 0x34: each function of the class, every field of its format with a value of its own. -/
theorem decode_mop_34 : reads
    [([0xD00514AAD496BEEF], .mloop none ⟨5, 5, 0xa, 0x2b, 0x14, 9, 6, 0xbeef⟩),
     ([0xFDD51A8000000000, 0xD00514AAD496BEEF], .mloop (some ⟨3, 5, 2, 4, 1, 0x15, 0⟩) ⟨5, 5, 0xa, 0x2b, 0x14, 9, 6, 0xbeef⟩),
     ([0xD00D14AAD496BEEF], .mzero ⟨5, 5, 0xa, 0x2b, 0x14, 9, 6, 0xbeef⟩),
     ([0xD01514AAD496BEEF], .mrd ⟨5, 5, 0xa, 0x2b, 0x14, 9, 6, 0xbeef⟩),
     ([0xD01D14AAD496BEEF], .mwr ⟨5, 5, 0xa, 0x2b, 0x14, 9, 6, 0xbeef⟩),
     ([0xD02514AAD496BEEF], .mst none ⟨5, 5, 0xa, 0x2b, 0x14, 9, 6, 0xbeef⟩),
     ([0xFDD51A8000000000, 0xD02514AAD496BEEF], .mst (some ⟨3, 5, 2, 4, 1, 0x15, 0⟩) ⟨5, 5, 0xa, 0x2b, 0x14, 9, 6, 0xbeef⟩),
     ([0xD02D14AAD496BEEF], .mwait ⟨5, 5, 0xa, 0x2b, 0x14, 9, 6, 0xbeef⟩),
     ([0xD03514AAD496BEEF], .mstat ⟨5, 5, 0xa, 0x2b, 0x14, 9, 6, 0xbeef⟩)] = true := by decide

/-- R41 to R46 and R50, MOP 0x36: each function of the class, every field of its format with a value of its own. -/
theorem decode_mop_36 : reads
    [([0xD80514AAD496BEEF], .rcrt ⟨5, 5, 0xa, 0x2b, 0x14, 9, 6, 0xbeef⟩),
     ([0xD80D14AAD496BEEF], .hnext ⟨5, 5, 0xa, 0x2b, 0x14, 9, 6, 0xbeef⟩),
     ([0xD81514AAD496BEEF], .hrd ⟨5, 5, 0xa, 0x2b, 0x14, 9, 6, 0xbeef⟩),
     ([0xD81D14AAD496BEEF], .hend ⟨5, 5, 0xa, 0x2b, 0x14, 9, 6, 0xbeef⟩),
     ([0xD82514AAD496BEEF], .hjoin ⟨5, 5, 0xa, 0x2b, 0x14, 9, 6, 0xbeef⟩),
     ([0xD82D14AAD496BEEF], .hrel ⟨5, 5, 0xa, 0x2b, 0x14, 9, 6, 0xbeef⟩)] = true := by decide

/-- R41 to R46 and R50, MOP 0x37: each function of the class, every field of its format with a value of its own. -/
theorem decode_mop_37 : reads
    [([0xDC0514AAD496BEEF], .rgnOpen ⟨5, 5, 0xa, 0x2b, 0x14, 9, 6, 0xbeef⟩),
     ([0xDC0D14AAD496BEEF], .rgnClose ⟨5, 5, 0xa, 0x2b, 0x14, 9, 6, 0xbeef⟩),
     ([0xDC1514AAD496BEEF], .rgnAbort ⟨5, 5, 0xa, 0x2b, 0x14, 9, 6, 0xbeef⟩)] = true := by decide

/-- R41 to R46 and R50, MOP 0x3A: each function of the class, every field of its format with a value of its own. -/
theorem decode_mop_3A : reads
    [([0xE804526189ABCDEF], .rds ⟨true, 5, 9, 0x21, 0x89abcdef⟩),
     ([0xE80C526189ABCDEF], .wrs ⟨true, 5, 9, 0x21, 0x89abcdef⟩),
     ([0xE814526189ABCDEF], .trap ⟨true, 5, 9, 0x21, 0x89abcdef⟩),
     ([0xE81C526189ABCDEF], .eret ⟨true, 5, 9, 0x21, 0x89abcdef⟩),
     ([0xE824526189ABCDEF], .brk ⟨true, 5, 9, 0x21, 0x89abcdef⟩),
     ([0xE82C526189ABCDEF], .sigs ⟨true, 5, 9, 0x21, 0x89abcdef⟩),
     ([0xE834526189ABCDEF], .pcnt ⟨true, 5, 9, 0x21, 0x89abcdef⟩),
     ([0xE83C526189ABCDEF], .dtime ⟨true, 5, 9, 0x21, 0x89abcdef⟩)] = true := by decide

/-- Words that 02_instruction_words.md prints, with the fields it gives them. -/
theorem decode_printed_02 : reads
    [([0x4803060410000000], .vfadd ⟨3, 3, 1, 2, 0, 0, 0, 0, false, 0⟩),
     ([0x840C0627F0000000], .vst none ⟨4, 3, 4, 0x7f, 0, 0, 0⟩),
     ([0x04100180FFFFFFFC], .bne ⟨false, 0, 6, 0, 0xfffffffc⟩)] = true := by decide

/-- Words that 03_control.md prints, with the fields it gives them. -/
theorem decode_printed_03 : reads
    [([0x143CA00000000030], .mrange ⟨true, 0xa, 0, 0, 0x30⟩),
     ([0x1420D28000000000], .mnot ⟨false, 0xd, 0xa, 0, 0⟩),
     ([0x2804400000000003], .li ⟨true, 4, 0, 0, 3⟩),
     ([0x0C00010000000004], .loop ⟨false, 0, 4, 0, 4⟩),
     ([0x4000020408028300], .vadd ⟨0, 1, 1, 1, 0, 0xa, 0, 0xc, false, 0⟩)] = true := by decide

/-- Words that 04_scalar.md prints, with the fields it gives them. -/
theorem decode_printed_04 : reads
    [([0x28047000AAAAAAAB], .li ⟨true, 7, 0, 0, 0xaaaaaaab⟩),
     ([0x2020818700000000], .mulhu ⟨false, 8, 6, 7, 0⟩),
     ([0x2054820000000001], .shr ⟨true, 8, 8, 0, 1⟩),
     ([0x2014920000000003], .mul ⟨true, 9, 8, 0, 3⟩),
     ([0x2008918900000000], .sub ⟨false, 9, 6, 9, 0⟩)] = true := by decide

/-- Words that 05_vector.md prints, with the fields it gives them. -/
theorem decode_printed_05 : reads
    [([0x5018280000000C00], .vidx ⟨0, 0x14, 0, 0, 0, 0, 0, 0x30, false, 0⟩),
     ([0x481B140420A00100], .vfma ⟨3, 0xa, 1, 4, 0xa, 0, 0, 4, false, 0⟩),
     ([0x4400145028000302], .vicmp ⟨0, 0xa, 0x14, 5, 0, 0, 0, 0xc, false, 2⟩)] = true := by decide

/-- Words that 06_narrow_formats.md prints, with the fields it gives them. -/
theorem decode_printed_06 : reads
    [([0x5003021C00000400], .vmov ⟨3, 1, 7, 0, 0, 0, 0, 0x10, false, 0⟩),
     ([0x6400001000000400], .vrngs ⟨0, 0, 4, 0, 0, 0, 0, 0x10, false, 0⟩),
     ([0x601B0A040000303C], .vcvt8 ⟨3, 5, 1, 0, 0, 0, 3, 0, true, 0x1c⟩),
     ([0x64080C0000000000], .vrng ⟨0, 6, 0, 0, 0, 0, 0, 0, false, 0⟩)] = true := by decide

/-- Words that 08_ordering.md prints, with the fields it gives them. -/
theorem decode_printed_08 : reads
    [([0x800C286000000000], .sst none ⟨4, 0xa, 6, 0, 0⟩),
     ([0x8004206000000000], .sld none ⟨4, 8, 6, 0, 0⟩)] = true := by decide

/-- Words that 09_synchronisation.md prints, with the fields it gives them. -/
theorem decode_printed_09 : reads
    [([0xA0041227F0000008], .satom none ⟨4, 9, 4, 0x7f, 0, 0, 8⟩)] = true := by decide

/-- Words that 10_group_operations.md prints, with the fields it gives them. -/
theorem decode_printed_10 : reads
    [([0xB01B100400000000], .vred ⟨3, 8, 1, 0, 0, 0, 0, 0, false, 0⟩),
     ([0xB023040400000000], .vscan ⟨3, 2, 1, 0, 0, 0, 0, 0, false, 0⟩)] = true := by decide

/-- Words that 11_engines_and_copies.md prints, with the fields it gives them. -/
theorem decode_printed_11 : reads
    [([0xC002000000300000], .qbind ⟨2, 0, 0, 0, 0, 3, 0, 0⟩),
     ([0xC001000000200030], .qbind ⟨1, 0, 0, 0, 0, 2, 0, 0x30⟩),
     ([0xC400504188200000], .copyLinear none ⟨0, 0x14, 4, 6, 8, 2, 0, 0⟩),
     ([0xC010280000300000], .qpop ⟨0, 0xa, 0, 0, 0, 3, 0, 0⟩)] = true := by decide

/-- Words that 15_system_and_traps.md prints, with the fields it gives them. -/
theorem decode_printed_15 : reads
    [([0x202FCF00000000FF], .and ⟨true, 0x3c, 0x3c, 0, 0xff⟩)] = true := by decide

/-- Words that 20_program_conversion.md prints, with the fields it gives them. -/
theorem decode_printed_20 : reads
    [([0xE80440000000000C], .rds ⟨true, 4, 0, 0, 0xc⟩),
     ([0x84140227F0000000], .vldb none ⟨4, 1, 4, 0x7f, 0, 0, 0⟩),
     ([0x601B04040000103C], .vcvt8 ⟨3, 2, 1, 0, 0, 0, 1, 0, true, 0x1c⟩),
     ([0x84180427F0000080], .vstb none ⟨0, 2, 4, 0x7f, 0, 0, 0x80⟩),
     ([0x6400000000000400], .vrngs ⟨0, 0, 0, 0, 0, 0, 0, 0x10, false, 0⟩),
     ([0x6408060000000000], .vrng ⟨0, 3, 0, 0, 0, 0, 0, 0, false, 0⟩),
     ([0x800C1840000000E0], .sst none ⟨4, 6, 4, 0, 0xe0⟩)] = true := by decide

/-- Words that 21_program_matrix_tile.md prints, with the fields it gives them. -/
theorem decode_printed_21 : reads
    [([0xA420012500000000], .sbinit ⟨0, 0, 0x12, 0x14, 0, 0, 0, 0⟩),
     ([0xC40070A590300003], .copyLinear none ⟨0, 0x1c, 0xa, 0x16, 0x10, 3, 0, 3⟩),
     ([0xD000530000000001], .mloop none ⟨0, 0x14, 0x30, 0, 0, 0, 0, 1⟩),
     ([0x841C0867F0000000], .vstb none ⟨4, 4, 0xc, 0x7f, 0, 0, 0⟩),
     ([0xB01B1E1800000000], .vred ⟨3, 0xf, 6, 0, 0, 0, 0, 0, false, 0⟩)] = true := by decide

/-- Words that 22_program_halo.md prints, with the fields it gives them. -/
theorem decode_printed_22 : reads
    [([0xA418000000000000], .barb ⟨0, 0, 0, 0, 0, 0, 0, 0⟩),
     ([0x84140C07F0000000], .vldb none ⟨4, 6, 0, 0x7f, 0, 0, 0⟩),
     ([0xB0080E1880000302], .vshfl ⟨0, 7, 6, 0x10, 0, 0, 0, 0xc, false, 2⟩),
     ([0x4803161C40000000], .vfadd ⟨3, 0xb, 7, 8, 0, 0, 0, 0, false, 0⟩),
     ([0x500B182C30034000], .vsel ⟨3, 0xc, 0xb, 6, 0, 0xd, 0, 0, false, 0⟩)] = true := by decide

/-- Words that 23_program_harvest.md prints, with the fields it gives them. -/
theorem decode_printed_23 : reads
    [([0xDC00100004000000], .rgnOpen ⟨0, 4, 0, 0, 4, 0, 0, 0⟩),
     ([0x2810A10600000000], .lea ⟨false, 0xa, 4, 6, 0⟩),
     ([0xA0140227F0000100], .fxadd none ⟨4, 1, 4, 0x7f, 0, 0, 0x100⟩),
     ([0x2004C18000000080], .add ⟨true, 0xc, 6, 0, 0x80⟩),
     ([0x200CD1C000000080], .sub ⟨true, 0xd, 7, 0, 0x80⟩),
     ([0xDC0D18C342000001], .rgnClose ⟨5, 6, 0xc, 0xd, 2, 0, 0, 1⟩),
     ([0xA01C2827F0000100], .fxrd none ⟨4, 0x14, 4, 0x7f, 0, 0, 0x100⟩)] = true := by decide

/-- Words that 24_program_board_helpers.md prints, with the fields it gives them. -/
theorem decode_printed_24 : reads
    [([0xAC00006000000001], .batt ⟨0, 0, 6, 0, 0, 0, 0, 1⟩),
     ([0x0428038800000006], .bltu ⟨false, 0, 0xe, 8, 6⟩),
     ([0x143C000000000001], .mrange ⟨true, 0, 0, 0, 1⟩),
     ([0xD80040800000002D], .rcrt ⟨0, 0x10, 8, 0, 0, 0, 0, 0x2d⟩),
     ([0xAC20500000020000], .bvseg ⟨0, 0x14, 0, 0, 0, 0, 2, 0⟩),
     ([0xA0043827F0000390], .satom none ⟨4, 0x1c, 4, 0x7f, 0, 0, 0x390⟩)] = true := by decide

/-- Words that 25_program_inbound_write.md prints, with the fields it gives them. -/
theorem decode_printed_25 : reads
    [([0x8004204000001000], .sld none ⟨4, 8, 4, 0, 0x1000⟩),
     ([0x04080200FFFFFFFD], .beq ⟨false, 0, 8, 0, 0xfffffffd⟩),
     ([0x5018062400000400], .vidx ⟨0, 3, 9, 0, 0, 0, 0, 0x10, false, 0⟩),
     ([0x4040020418000000], .vxor ⟨0, 1, 1, 3, 0, 0, 0, 0, false, 0⟩),
     ([0xB000140400000002], .vvote ⟨0, 0xa, 1, 0, 0, 0, 0, 0, false, 2⟩),
     ([0x2004924000000040], .add ⟨true, 9, 9, 0, 0x40⟩)] = true := by decide

/-- R45 to R51: what does not decode, and why: a prefix before a branch, one with a reserved ORD, a prefix or LIW as the last
word, two prefixes, SUB 3 of ZPOS, no word; MOP 0x06, an FN beyond the last listed and a header are words of no instruction. -/
theorem decode_refusals :
    decode [0xFDB0000000000000, 0x0400000000000002] = .error .pfxRefused ∧
    decode [0xFE80000000000000, 0x8004204000000040] = .error .pfxReserved ∧
    decode [0xFDB0000000000000] = .error .pfxLast ∧ decode [0x280C400000000000] = .error .noLiteral ∧
    decode [0xFDB0000000000000, 0xFDB0000000000000] = .error .pfxTwice ∧
    decode [0x881B000000000000] = .error .unlistedSub ∧ decode [] = .error .noWord ∧
    decode [0x1800000000000000] = .ok (.unassignedWord 0x1800000000000000) ∧
    decode [0x0450000000000000] = .ok (.unassignedWord 0x0450000000000000) ∧
    decode [0x00FFFFFF00000000] = .ok (.unassignedWord 0x00FFFFFF00000000) := by and_intros <;> decide

/-! ### The checks of WellFormed -/

/-- Every instruction of a list is ill-formed. -/
def refused (xs : List Instr) : Bool := xs.all (fun i => !i.wf)

/-- R69 to R73: one term for each check of a CB word. -/
theorem illformed_cb : refused
    [.br ⟨true, 0, 0, 0, 1⟩, .br ⟨false, 1, 0, 0, 1⟩, .br ⟨false, 0, 1, 0, 1⟩, .br ⟨false, 0, 0, 1, 1⟩, .beq ⟨true, 0, 1, 2, 1⟩,
     .beq ⟨false, 1, 1, 2, 1⟩, .bmz ⟨true, 0, 1, 0, 1⟩, .bmz ⟨false, 1, 1, 0, 1⟩, .bmz ⟨false, 0, 1, 1, 1⟩, .bmz ⟨false, 0, 62, 0, 1⟩,
     .call ⟨true, 2, 0, 0, 1⟩, .call ⟨false, 3, 0, 0, 1⟩, .call ⟨false, 2, 1, 0, 1⟩, .call ⟨false, 2, 0, 1, 1⟩,
     .calli ⟨true, 2, 4, 0, 0⟩, .calli ⟨false, 3, 4, 0, 0⟩, .calli ⟨false, 2, 5, 0, 0⟩, .calli ⟨false, 2, 4, 1, 0⟩,
     .calli ⟨false, 2, 4, 0, 1⟩, .ret ⟨true, 0, 4, 0, 0⟩, .ret ⟨false, 1, 4, 0, 0⟩, .ret ⟨false, 0, 5, 0, 0⟩, .ret ⟨false, 0, 4, 1, 0⟩,
     .jmpi ⟨false, 0, 4, 0, 1⟩, .loop ⟨true, 0, 4, 0, 2⟩, .loop ⟨false, 1, 4, 0, 2⟩, .loop ⟨false, 0, 4, 1, 2⟩,
     .loop ⟨false, 0, 4, 0, 1⟩, .loop ⟨false, 0, 4, 0, 0xFFFFFFFF⟩, .lbrk ⟨false, 0, 0, 1, 2⟩, .lcget ⟨true, 4, 0, 0, 0⟩,
     .lcget ⟨false, 4, 1, 0, 0⟩, .lcget ⟨false, 4, 0, 4, 0⟩, .lcget ⟨false, 4, 0, 0, 1⟩, .lcset ⟨true, 0, 4, 0, 0⟩,
     .lcset ⟨false, 1, 4, 0, 0⟩, .lcset ⟨false, 0, 4, 3, 0⟩, .lcset ⟨false, 0, 4, 0, 1⟩] = true := by decide

/-- R41, R74 to R78, R82 to R87, R291 to R295: one term for each check of an SR word. -/
theorem illformed_sr : refused
    [.exit ⟨true, 0, 0, 0, 0⟩, .nop ⟨false, 1, 0, 0, 0⟩, .eret ⟨false, 0, 1, 0, 0⟩, .exit ⟨false, 0, 0, 1, 0⟩, .nop ⟨false, 0, 0, 0, 1⟩,
     .yield ⟨false, 0, 0, 0, 1⟩, .yield ⟨true, 1, 0, 0, 1⟩, .yield ⟨true, 0, 1, 0, 1⟩, .yield ⟨true, 0, 0, 1, 1⟩,
     .yield ⟨true, 0, 0, 0, 0⟩, .yield ⟨true, 0, 0, 0, 8⟩, .snooze ⟨false, 1, 0, 2, 0⟩, .snooze ⟨false, 0, 1, 2, 0⟩,
     .snooze ⟨true, 0, 0, 2, 5⟩, .mand ⟨true, 1, 4, 0, 0⟩, .mor ⟨false, 1, 4, 7, 1⟩, .mxor ⟨false, 62, 4, 7, 0⟩,
     .mandn ⟨false, 1, 63, 7, 0⟩, .mand ⟨false, 1, 4, 62, 0⟩, .mnot ⟨true, 1, 4, 0, 0⟩, .mmov ⟨false, 1, 4, 0, 1⟩,
     .mnot ⟨false, 1, 4, 1, 0⟩, .mmov ⟨false, 62, 4, 0, 0⟩, .mnot ⟨false, 1, 62, 0, 0⟩, .mpopc ⟨true, 4, 1, 0, 0⟩,
     .mffs ⟨false, 4, 1, 0, 1⟩, .mpopc ⟨false, 4, 1, 1, 0⟩, .mffs ⟨false, 4, 62, 0, 0⟩, .mrange ⟨true, 1, 4, 1, 5⟩,
     .mrange ⟨false, 1, 4, 1, 5⟩, .mrange ⟨false, 62, 4, 1, 0⟩, .mtest ⟨true, 4, 1, 1, 5⟩, .mtest ⟨true, 4, 62, 0, 5⟩,
     .mlive ⟨true, 1, 0, 0, 0⟩, .mlive ⟨false, 1, 0, 0, 1⟩, .mlive ⟨false, 1, 1, 0, 0⟩, .mlive ⟨false, 1, 0, 1, 0⟩,
     .mlive ⟨false, 62, 0, 0, 0⟩, .add ⟨true, 4, 5, 6, 1⟩, .add ⟨false, 4, 5, 6, 1⟩, .shl ⟨true, 4, 5, 0, 32⟩, .sar ⟨false, 4, 5, 6, 1⟩,
     .clz ⟨true, 4, 5, 0, 0⟩, .popc ⟨false, 4, 5, 1, 0⟩, .brev ⟨false, 4, 5, 0, 1⟩, .addw ⟨true, 4, 6, 8, 1⟩, .addw ⟨false, 4, 7, 8, 0⟩,
     .subw ⟨false, 5, 6, 8, 0⟩, .mulw ⟨false, 4, 6, 9, 0⟩, .sltw ⟨false, 5, 6, 9, 0⟩, .shlw ⟨true, 4, 6, 0, 64⟩,
     .shrw ⟨false, 5, 6, 7, 0⟩, .li ⟨false, 4, 0, 0, 1⟩, .li ⟨true, 4, 1, 0, 1⟩, .li ⟨true, 4, 0, 1, 1⟩, .liw ⟨true, 4, 0, 0, 0⟩ 1,
     .liw ⟨false, 5, 0, 0, 0⟩ 1, .liw ⟨false, 4, 1, 0, 0⟩ 1, .liw ⟨false, 4, 0, 1, 0⟩ 1, .liw ⟨false, 4, 0, 0, 1⟩ 1,
     .lea ⟨true, 4, 6, 1, 1⟩, .lea ⟨true, 5, 6, 0, 1⟩, .lea ⟨true, 4, 7, 0, 1⟩, .movwCopy ⟨true, 4, 6, 0, 0⟩,
     .movwCopy ⟨false, 5, 6, 0, 0⟩, .movwCopy ⟨false, 4, 7, 0, 0⟩, .movwCopy ⟨false, 4, 6, 1, 0⟩, .movwCopy ⟨false, 4, 6, 0, 1⟩,
     .movwRelative ⟨false, 4, 0, 0, 1⟩, .movwRelative ⟨true, 5, 0, 0, 1⟩, .movwRelative ⟨true, 4, 1, 0, 1⟩,
     .movwRelative ⟨true, 4, 0, 1, 1⟩, .rds ⟨false, 4, 0, 0, 0⟩, .rds ⟨true, 4, 1, 0, 0⟩, .rds ⟨true, 4, 0, 1, 0⟩,
     .rds ⟨true, 4, 0, 0, 0x18⟩, .rds ⟨true, 5, 0, 0, 0x0C⟩, .wrs ⟨false, 0, 4, 0, 0⟩, .wrs ⟨true, 1, 4, 0, 0x0D⟩,
     .wrs ⟨true, 0, 4, 1, 0x0D⟩, .wrs ⟨true, 0, 4, 0, 0x0C⟩, .wrs ⟨true, 0, 5, 0, 0x10⟩, .trap ⟨false, 0, 0, 0, 0⟩,
     .trap ⟨true, 1, 0, 0, 0⟩, .brk ⟨true, 0, 1, 0, 0⟩, .brk ⟨true, 0, 0, 1, 0⟩, .trap ⟨true, 0, 0, 0, 256⟩, .sigs ⟨true, 0, 0, 0, 0⟩,
     .sigs ⟨false, 1, 0, 0, 0⟩, .sigs ⟨false, 0, 5, 0, 0⟩, .sigs ⟨false, 0, 4, 1, 0⟩, .sigs ⟨false, 0, 4, 0, 1⟩,
     .pcnt ⟨false, 4, 0, 0, 0⟩, .pcnt ⟨true, 5, 0, 0, 1⟩, .pcnt ⟨true, 4, 1, 0, 1⟩, .pcnt ⟨true, 4, 0, 1, 1⟩, .pcnt ⟨true, 4, 0, 0, 16⟩,
     .dtime ⟨true, 4, 0, 0, 0⟩, .dtime ⟨false, 5, 0, 0, 0⟩, .dtime ⟨false, 4, 1, 0, 0⟩, .dtime ⟨false, 4, 0, 1, 0⟩,
     .dtime ⟨false, 4, 0, 0, 1⟩] = true := by decide

/-- A VR word of type `t` with operands `d`, `a`, `b`, `c`, kinds `ok` and X. -/
def vx (t : BitVec 3) (d a b c : BitVec 7) (m : BitVec 6) (rm : BitVec 2) (ok : BitVec 6) (sat : Bool) (x : BitVec 5) : VR :=
  ⟨t, d, a, b, c, m, rm, ok, sat, x⟩

/-- R42, R43, R90, R91, R103 to R107: one term for each check of a VR word of 05_vector.md. -/
theorem illformed_vr : refused
    [.vadd (vx 3 1 2 3 0 0 0 0 false 0), .vadd (vx 0 1 2 3 0 62 0 0 false 0), .vadd (vx 0 1 64 3 0 0 0 0x10 false 0),
     .vadd (vx 0 1 8 3 0 0 0 0x20 false 0), .vadd (vx 0 1 2 3 1 0 0 0 false 0), .vadd (vx 0 1 2 3 0 0 0 1 false 0),
     .vadd (vx 0 1 2 3 0 0 1 0 false 0), .vmul (vx 0 1 2 3 0 0 0 0 true 0), .vadd (vx 0 1 2 3 0 0 0 0 false 1),
     .vabs (vx 0 1 2 0 0 0 0 0 true 1), .vabs (vx 0 1 2 1 0 0 0 0 false 0), .vicmp (vx 3 4 2 3 0 0 0 0 false 0),
     .vicmp (vx 0 62 2 3 0 0 0 0 false 0), .vicmp (vx 0 4 2 3 0 0 1 0 false 0), .vicmp (vx 0 4 2 3 0 0 0 0 true 0),
     .vicmp (vx 0 4 2 3 0 0 0 0 false 10), .vfcmp (vx 3 4 2 3 0 0 0 0 false 8), .vfcmp (vx 6 4 3 2 0 0 0 0 false 0),
     .vfadd (vx 3 1 2 5 0 0 0 0xC false 0), .vfadd (vx 6 1 2 4 0 0 0 0 false 0), .vfadd (vx 3 1 2 3 0 0 0 0 true 0),
     .vfadd (vx 3 1 2 3 0 0 0 0 false 1), .vfadd (vx 3 1 2 3 0 0 3 0 false 0), .vfmin (vx 3 1 2 3 0 0 1 0 false 0),
     .vfrnd (vx 0 1 2 0 0 0 0 0 false 0), .vfrnd (vx 6 1 2 0 0 0 0 0 false 0), .vfrnd (vx 3 1 2 0 0 0 0 0 true 0),
     .vfrnd (vx 3 1 2 0 0 0 3 0 false 4), .vfrnd (vx 3 1 2 0 0 0 0 0 false 1), .vrcp (vx 6 2 4 0 0 0 0 0 false 0),
     .vrcp (vx 3 1 2 0 0 0 2 0 false 0), .vrcp (vx 3 1 2 0 0 0 0 0 true 0), .vrcp (vx 3 1 2 0 0 0 0 0 false 1),
     .vmov (vx 7 1 2 0 0 0 0 0 false 0), .vmov (vx 6 1 2 0 0 0 0 0 false 0), .vsel (vx 0 1 2 3 0 0 1 0 false 0),
     .vbcst (vx 0 1 2 3 0 0 0 0 false 0), .vbcst (vx 0 1 2 3 0 0 0 0x14 false 0), .vbcst (vx 6 1 2 3 0 0 0 4 false 0),
     .vbcst (vx 0 1 2 3 0 0 0 4 false 1), .vidx (vx 1 1 2 0 0 0 0 0 false 0), .vidx (vx 0 1 2 0 0 0 0 0 true 0),
     .vget (vx 0 64 2 3 0 0 0 4 false 0), .vget (vx 0 4 2 3 0 1 0 4 false 0), .vget (vx 0 4 2 3 0 0 0 0 false 0),
     .vget (vx 0 4 2 3 0 0 0 4 false 1), .vput (vx 0 4 2 3 0 0 0 4 false 0), .vput (vx 0 4 2 3 0 1 0 0x14 false 0),
     .vput (vx 0 4 2 3 0 0 0 0x14 false 1)] = true := by decide

/-- R120 to R126, R190 to R195: one term for each check of a VR word of 06_narrow_formats.md and 10_group_operations.md. -/
theorem illformed_vr_narrow : refused
    [.vcvtf (vx 6 2 4 0 0 0 0 0 true 3), .vcvtf (vx 6 2 4 0 0 0 0 0 false 0x13), .vcvtf (vx 6 3 4 0 0 0 0 0 false 3),
     .vcvtf (vx 6 2 4 0 0 0 1 0 false 3), .vcvtf (vx 6 2 4 0 0 0 0 0 false 0xB), .vcvtf (vx 3 2 5 0 0 0 0 0 false 6),
     .vcvtf (vx 4 2 4 5 0 0 3 0 false 3), .vcvtf (vx 3 2 4 0 0 0 1 0 false 4), .vcvtf (vx 3 2 4 0 0 0 0 0 false 3),
     .vf2i (vx 0 1 2 0 0 0 0 0 false 0), .vf2i (vx 6 1 3 0 0 0 0 0 false 0), .vi2f (vx 6 1 2 0 0 0 0 0 false 0),
     .vi2f (vx 3 1 2 0 0 0 0 0 true 0), .vi2f (vx 3 1 2 0 0 0 3 0 false 0), .vf2i (vx 3 1 2 0 0 0 0 0 false 2),
     .vcvt8 (vx 0 1 2 0 0 0 0 0 false 0), .vext8 (vx 0 1 2 0 0 0 0 0 false 0), .vext8 (vx 3 1 2 0 0 0 1 0 false 0),
     .vext8 (vx 3 1 2 0 0 0 0 0 true 0), .vscale (vx 0 1 2 3 0 0 0 0 false 0), .vscale (vx 3 1 2 3 0 0 0 0 true 0),
     .vscale (vx 3 1 2 3 0 0 0 0 false 1), .vbscl (vx 3 1 2 3 0 0 0 0 false 3), .vbscl (vx 3 1 2 3 0 0 3 0 false 0),
     .vbscl (vx 3 1 2 3 0 0 1 0 false 2), .vpk8 (vx 3 1 2 0 0 0 0 0 false 0), .vpk8 (vx 0 1 2 0 0 0 1 0 false 0),
     .vpk8 (vx 0 1 2 0 0 0 0 0 true 0), .vpk8 (vx 0 1 2 0 0 0 0 0 false 1), .vupk8 (vx 0 1 2 0 0 0 0 0 false 8),
     .vrngs (vx 0 1 2 0 0 0 0 0 false 0), .vrngs (vx 3 0 2 0 0 0 0 0 false 0), .vrngs (vx 0 0 2 0 0 0 1 0 false 0),
     .vrng (vx 0 1 2 0 0 0 0 0 false 0), .vrng (vx 0 1 0 0 0 0 0 0 true 0), .vvote (vx 3 4 2 0 0 0 0 0 false 0),
     .vvote (vx 0 4 2 0 0 0 1 0 false 0), .vvote (vx 0 4 2 0 0 0 0 0 true 0), .vvote (vx 0 4 2 0 0 0 0 0 false 4),
     .vvote (vx 0 62 2 0 0 0 0 0 false 3), .vvote (vx 0 64 2 0 0 0 0 0 false 0), .vshfl (vx 7 1 2 3 0 0 0 0 false 0),
     .vshfl (vx 0 1 2 7 0 0 0 8 false 0), .vshfl (vx 6 1 2 3 0 0 0 0 false 0), .vshfl (vx 0 1 2 3 0 0 1 0 false 0),
     .vshfl (vx 0 1 2 3 0 0 0 0 true 0), .vshfl (vx 0 1 2 3 0 0 0 0 false 4), .vmatch (vx 6 2 4 0 0 0 0 0 false 0),
     .vmatch (vx 0 3 4 0 0 0 0 0 false 0), .vmatch (vx 0 2 4 0 0 0 0 0 false 1), .vred (vx 4 4 2 0 0 0 0 0 false 0),
     .vred (vx 0 4 2 0 0 0 0 0 true 0), .vred (vx 0 4 2 0 0 0 0 0 false 5), .vred (vx 0 4 2 0 0 0 0 0 false 16),
     .vred (vx 0 64 2 0 0 0 0 0 false 0), .vred (vx 0 4 2 0 0 0 0 0 false 8), .vscan (vx 6 1 2 0 0 0 0 0 false 0),
     .vred (vx 0 4 2 0 0 0 1 0 false 0), .vred (vx 3 4 2 0 0 0 1 0 false 1), .vred (vx 3 4 2 0 0 0 2 0 false 0)] = true := by decide

/-- A prefix with one field. -/
def pfx (ord scope space cp : BitVec 3) (home : BitVec 2) (chan : BitVec 5) : Option Pfx := some ⟨ord, scope, space, cp, home, chan, 0⟩

/-- R43, R44, R46, R144, R145, R153, R154, R172 to R175: one term for each check of a memory word or its prefix. -/
theorem illformed_memory : refused
    [.sld none ⟨4, 4, 10, 1, 0⟩, .sld none ⟨6, 4, 10, 0, 0⟩, .sst none ⟨1, 4, 10, 0, 0⟩, .sst none ⟨3, 4, 10, 0, 0⟩,
     .sld none ⟨4, 4, 11, 0, 0⟩, .sld none ⟨5, 5, 10, 0, 0⟩, .sld (pfx 3 0 0 0 0 0) ⟨4, 4, 10, 0, 0⟩,
     .sld (pfx 0 0 0 0 0 1) ⟨4, 4, 10, 0, 0⟩, .sst (pfx 2 0 0 0 0 0) ⟨4, 4, 10, 0, 0⟩, .sld (pfx 5 0 0 0 0 0) ⟨4, 4, 10, 0, 0⟩,
     .sld (pfx 0 7 0 0 0 0) ⟨4, 4, 10, 0, 0⟩, .sld (pfx 0 0 6 0 0 0) ⟨4, 4, 10, 0, 0⟩, .sld (pfx 0 0 0 6 0 0) ⟨4, 4, 10, 0, 0⟩,
     .sld (pfx 0 0 0 0 3 0) ⟨4, 4, 10, 0, 0⟩, .sld (some ⟨0, 0, 0, 0, 0, 0, 1⟩) ⟨4, 4, 10, 0, 0⟩,
     .vld none ⟨4, 2, 11, 0x7F, 0, 0, 0⟩, .vld none ⟨4, 2, 10, 0x7F, 0, 62, 0⟩, .vld none ⟨4, 2, 10, 0x7F, 1, 0, 0⟩,
     .vld none ⟨7, 2, 10, 0x7F, 0, 0, 0⟩, .vst none ⟨3, 2, 10, 0x7F, 0, 0, 0⟩, .vld none ⟨5, 3, 10, 0x7F, 0, 0, 0⟩,
     .vldb none ⟨4, 2, 10, 3, 0, 0, 0⟩, .vstb none ⟨4, 2, 10, 3, 0, 0, 0⟩, .fence none ⟨1, 0, 0, 0, 0, 0, 0⟩,
     .fence none ⟨0, 1, 0, 0, 0, 0, 0⟩, .fence none ⟨0, 0, 2, 0, 0, 0, 0⟩, .fence none ⟨0, 0, 0, 1, 0, 0, 0⟩,
     .fence none ⟨0, 0, 0, 0, 1, 0, 0⟩, .fence none ⟨0, 0, 0, 0, 0, 1, 0⟩, .fence none ⟨0, 0, 0, 0, 0, 0, 1⟩,
     .fence (pfx 0 0 1 0 0 0) ⟨0, 0, 0, 0, 0, 0, 0⟩, .fence (pfx 0 0 0 1 0 0) ⟨0, 0, 0, 0, 0, 0, 0⟩,
     .fence (pfx 0 0 0 0 1 0) ⟨0, 0, 0, 0, 0, 0, 0⟩, .cwb none ⟨0, 0, 11, 0x7F, 0, 0, 0⟩, .cwb none ⟨1, 0, 10, 0x7F, 0, 0, 0⟩,
     .cinv none ⟨0, 1, 10, 0x7F, 0, 0, 0⟩, .cinv none ⟨0, 0, 10, 0x7F, 0, 1, 0⟩, .cwb (pfx 1 0 0 0 0 0) ⟨0, 0, 10, 0x7F, 0, 0, 0⟩,
     .pref (pfx 0 1 0 0 0 0) ⟨0, 0, 10, 0x7F, 0, 0, 0⟩, .satom none ⟨3, 4, 10, 0x7F, 0, 0, 0⟩,
     .satom none ⟨4, 4, 10, 0x7F, 0, 0, 0xA0000⟩, .satom none ⟨4, 5, 10, 0x7F, 0, 0, 0x90000⟩,
     .satom none ⟨5, 6, 10, 0x7F, 0, 0, 0x90000⟩, .satom none ⟨5, 5, 10, 0x7F, 0, 0, 0⟩, .satom none ⟨4, 4, 11, 0x7F, 0, 0, 0⟩,
     .satom none ⟨4, 64, 10, 0x7F, 0, 0, 0⟩, .satom none ⟨4, 4, 10, 3, 0, 0, 0⟩, .satom none ⟨4, 4, 10, 0x7F, 0, 1, 0⟩,
     .satom none ⟨4, 4, 10, 0x7F, 2, 0, 0⟩, .satom (pfx 0 0 0 1 0 0) ⟨4, 4, 10, 0x7F, 0, 0, 0⟩, .vatom none ⟨4, 4, 11, 0x7F, 0, 0, 0⟩,
     .vatom none ⟨5, 5, 10, 0x7F, 0, 0, 0⟩, .fxadd none ⟨4, 4, 11, 0x7F, 0, 0, 0⟩, .fxadd none ⟨5, 4, 10, 0x7F, 0, 0, 0⟩,
     .fxadd none ⟨4, 4, 10, 0x7F, 0, 0, 0x10000⟩, .fxrd none ⟨3, 4, 10, 0x7F, 0, 0, 0⟩, .fxrd none ⟨5, 5, 10, 0x7F, 0, 0, 0⟩,
     .fxrd none ⟨4, 4, 10, 0x7F, 0, 0, 0x20000⟩, .fxrd none ⟨4, 4, 11, 0x7F, 0, 0, 0⟩, .fxrd none ⟨4, 64, 10, 0x7F, 0, 0, 0⟩,
     .fxrd none ⟨4, 4, 10, 3, 0, 0, 0⟩, .fxrd none ⟨4, 4, 10, 0x7F, 1, 0, 0⟩, .fxrd none ⟨4, 4, 10, 0x7F, 0, 1, 0⟩,
     .fxrd (pfx 3 0 0 0 0 0) ⟨4, 4, 10, 0x7F, 0, 0, 0⟩] = true := by decide

/-- R45, R150, R156, R177, R181, R182, R186, R203: one term for each check of an EX word of streams, channels, barriers, the
board and queues. -/
theorem illformed_ex : refused
    [.zset ⟨1, 0, 10, 0, 0, 0, 0, 0⟩, .zset ⟨0, 1, 10, 0, 0, 0, 0, 0⟩, .zset ⟨0, 0, 11, 0, 0, 0, 0, 0⟩, .zset ⟨0, 0, 10, 1, 0, 0, 0, 0⟩,
     .zset ⟨0, 0, 10, 0, 1, 0, 0, 0⟩, .zset ⟨0, 0, 10, 0, 0, 1, 0, 0⟩, .zset ⟨0, 0, 10, 0, 0, 0, 1, 0⟩, .zset ⟨0, 0, 10, 0, 0, 0, 0, 8⟩,
     .zsets ⟨4, 0, 10, 5, 0, 0, 0, 0⟩, .zsets ⟨0, 1, 10, 5, 0, 0, 0, 0⟩, .zsets ⟨0, 0, 11, 5, 0, 0, 0, 0⟩,
     .zsets ⟨0, 0, 10, 5, 1, 0, 0, 0⟩, .zsets ⟨0, 0, 10, 5, 0, 0, 0, 8⟩, .zrew ⟨1, 0, 0, 0, 0, 0, 0, 0⟩, .zrew ⟨0, 1, 0, 0, 0, 0, 0, 0⟩,
     .zrew ⟨0, 0, 1, 0, 0, 0, 0, 0⟩, .zrew ⟨0, 0, 0, 1, 0, 0, 0, 0⟩, .zrew ⟨0, 0, 0, 0, 0, 0, 1, 0⟩, .zrew ⟨0, 0, 0, 0, 0, 0, 0, 8⟩,
     .zposRead ⟨0, 5, 0, 0, 0, 0, 0, 0⟩, .zposRead ⟨0, 4, 1, 0, 0, 0, 0, 0⟩, .zposRead ⟨0, 4, 0, 1, 0, 0, 0, 0⟩,
     .zposRead ⟨0, 4, 0, 0, 0, 0, 0, 8⟩, .zposSet ⟨1, 1, 10, 0, 0, 0, 0, 0⟩, .zposSet ⟨1, 0, 11, 0, 0, 0, 0, 0⟩,
     .zposSet ⟨1, 0, 10, 0, 0, 1, 0, 0⟩, .zposEnd ⟨2, 4, 1, 0, 0, 0, 0, 0⟩, .zposEnd ⟨2, 4, 0, 1, 0, 0, 0, 0⟩,
     .zposEnd ⟨2, 4, 0, 0, 0, 0, 0, 8⟩, .chopen ⟨1, 0, 0, 0, 0, 0, 0, 1⟩, .chopen ⟨0, 1, 0, 0, 0, 0, 0, 1⟩,
     .chopen ⟨0, 0, 1, 0, 0, 0, 0, 1⟩, .chopen ⟨0, 0, 0, 1, 0, 0, 0, 1⟩, .chopen ⟨0, 0, 0, 0, 1, 0, 0, 1⟩,
     .chopen ⟨0, 0, 0, 0, 0, 0, 0, 0⟩, .chopen ⟨0, 0, 0, 0, 0, 0, 0, 33⟩, .chopen ⟨0, 0, 0, 0, 0, 0, 0, 513⟩,
     .chwait ⟨0, 0, 0, 0, 0, 0, 0, 257⟩, .chclose ⟨0, 0, 0, 0, 0, 0, 0, 257⟩, .bart ⟨0, 0, 0, 0, 0, 0, 0, 16⟩,
     .bara ⟨1, 0, 0, 0, 0, 0, 0, 0⟩, .barw ⟨0, 1, 0, 0, 0, 0, 0, 0⟩, .bart ⟨0, 0, 1, 0, 0, 0, 0, 0⟩, .bart ⟨0, 0, 0, 1, 0, 0, 0, 0⟩,
     .bart ⟨0, 0, 0, 0, 0, 1, 0, 0⟩, .barb ⟨0, 0, 0, 0, 0, 0, 0, 1⟩, .sbinit ⟨2, 0, 10, 5, 6, 0, 0, 0⟩, .sbinit ⟨0, 1, 10, 5, 6, 0, 0, 0⟩,
     .sbinit ⟨0, 0, 11, 5, 6, 0, 0, 0⟩, .sbarv ⟨0, 0, 10, 5, 1, 0, 0, 0⟩, .sbarv ⟨0, 0, 10, 5, 0, 1, 0, 0⟩,
     .sbwait ⟨0, 4, 10, 5, 0, 0, 1, 0⟩, .sbwait ⟨0, 4, 10, 5, 0, 0, 0, 1⟩, .waitv none ⟨0, 4, 11, 5, 6, 0, 0, 0⟩,
     .waitv none ⟨0, 4, 10, 5, 6, 1, 0, 0⟩, .waitv none ⟨0, 4, 10, 5, 6, 0, 1, 0⟩, .waitv none ⟨0, 4, 10, 5, 6, 0, 0, 1⟩,
     .waitv (pfx 3 0 0 0 0 0) ⟨0, 4, 10, 5, 6, 0, 0, 0⟩, .batt ⟨1, 0, 4, 0, 0, 0, 0, 2⟩, .batt ⟨0, 1, 4, 0, 0, 0, 0, 2⟩,
     .batt ⟨0, 0, 4, 1, 0, 0, 0, 2⟩, .batt ⟨0, 0, 4, 0, 0, 0, 1, 2⟩, .bpost ⟨1, 6, 4, 8, 0, 0, 0, 2⟩, .bpost ⟨0, 7, 4, 8, 0, 0, 0, 2⟩,
     .bpost ⟨0, 6, 4, 9, 0, 0, 0, 2⟩, .bpost ⟨0, 6, 4, 8, 1, 0, 0, 2⟩, .bpost ⟨0, 6, 4, 8, 0, 1, 0, 2⟩, .bpost ⟨0, 6, 4, 8, 0, 0, 8, 2⟩,
     .bread ⟨1, 8, 4, 0, 0, 0, 0, 2⟩, .bread ⟨0, 6, 4, 0, 0, 0, 0, 2⟩, .bread ⟨0, 60, 4, 0, 0, 0, 0, 2⟩, .bread ⟨0, 0, 4, 0, 0, 0, 0, 2⟩,
     .bread ⟨0, 8, 4, 1, 0, 0, 0, 2⟩, .bread ⟨0, 8, 4, 0, 1, 0, 0, 2⟩, .bdet ⟨2, 4, 4, 0, 0, 0, 0, 2⟩, .bdet ⟨0, 4, 4, 1, 0, 0, 0, 2⟩,
     .bdet ⟨0, 4, 4, 0, 0, 1, 0, 2⟩, .bvseg ⟨1, 4, 0, 0, 0, 0, 1, 0⟩, .bvseg ⟨0, 62, 0, 0, 0, 0, 1, 0⟩, .bvseg ⟨0, 4, 1, 0, 0, 0, 1, 0⟩,
     .bvseg ⟨0, 4, 0, 1, 0, 0, 1, 0⟩, .bvseg ⟨0, 4, 0, 0, 1, 0, 1, 0⟩, .bvseg ⟨0, 4, 0, 0, 0, 1, 1, 0⟩, .bvseg ⟨0, 4, 0, 0, 0, 0, 8, 0⟩,
     .bvseg ⟨0, 4, 0, 0, 0, 0, 1, 3⟩, .bvcmp ⟨4, 4, 0, 0, 0, 0, 1, 0⟩, .bvcmp ⟨0, 4, 1, 0, 0, 0, 1, 0⟩, .bvcmp ⟨0, 4, 0, 1, 0, 0, 1, 0⟩,
     .bvcmp ⟨0, 4, 0, 0, 1, 0, 1, 0⟩, .bvcmp ⟨0, 4, 0, 0, 0, 1, 1, 0⟩, .bvcmp ⟨0, 4, 0, 0, 0, 0, 8, 0⟩, .bvcmp ⟨0, 4, 0, 0, 0, 0, 1, 8⟩,
     .qbind ⟨5, 0, 0, 0, 0, 1, 0, 0⟩, .qbind ⟨2, 1, 0, 0, 0, 1, 0, 0⟩, .qbind ⟨2, 0, 1, 0, 0, 1, 0, 0⟩, .qbind ⟨2, 0, 0, 1, 0, 1, 0, 0⟩,
     .qbind ⟨2, 0, 0, 0, 1, 1, 0, 0⟩, .qbind ⟨2, 0, 0, 0, 0, 1, 1, 0⟩, .qbind ⟨2, 0, 0, 0, 0, 1, 0, 1⟩, .qbind ⟨1, 0, 0, 0, 0, 1, 0, 3⟩,
     .qbind ⟨1, 0, 0, 0, 0, 1, 0, 4⟩, .qbind ⟨1, 0, 0, 0, 0, 1, 0, 256⟩, .qbind ⟨3, 0, 0, 0, 0, 1, 0, 16⟩, .qbind ⟨4, 0, 0, 0, 0, 1, 0, 16⟩,
     .qpush ⟨1, 0, 4, 0, 0, 3, 0, 0⟩, .qpush ⟨0, 0, 4, 1, 0, 3, 0, 0⟩, .qpush ⟨0, 0, 4, 0, 1, 3, 0, 0⟩, .qpush ⟨0, 0, 4, 0, 0, 3, 1, 0⟩,
     .qpush ⟨0, 0, 4, 0, 0, 3, 0, 1⟩, .qpush ⟨0, 1, 4, 0, 0, 3, 0, 0⟩, .qpush ⟨0, 0, 5, 0, 0, 3, 0, 0⟩, .qpop ⟨0, 5, 0, 0, 0, 3, 0, 0⟩,
     .qpop ⟨0, 4, 1, 0, 0, 3, 0, 0⟩, .qtry ⟨0, 6, 0, 0, 0, 3, 0, 0⟩, .qtry ⟨0, 8, 1, 0, 0, 3, 0, 0⟩, .qstat ⟨0, 4, 1, 0, 0, 3, 0, 0⟩] =
    true := by decide

/-- R210, R233 to R238, R249, R250, R268 to R270: one term for each check of an EX word of copies, tiles, helpers and regions. -/
theorem illformed_ex_engines : refused
    [.copyLinear none ⟨1, 4, 6, 8, 10, 1, 0, 0⟩, .copyLinear none ⟨0, 4, 7, 8, 10, 1, 0, 0⟩, .copyLinear none ⟨0, 4, 6, 9, 10, 1, 0, 0⟩,
     .copyLinear none ⟨0, 4, 6, 8, 11, 1, 0, 0⟩, .copyLinear none ⟨0, 4, 6, 8, 10, 1, 1, 0⟩, .copyLinear none ⟨0, 4, 6, 8, 10, 1, 0, 8⟩,
     .copyLinear (pfx 0 0 1 0 0 0) ⟨0, 4, 6, 8, 10, 1, 0, 0⟩, .copyLinear (pfx 0 0 0 0 1 0) ⟨0, 4, 6, 8, 10, 1, 0, 0⟩,
     .copyDescribed none ⟨0, 4, 6, 0, 0, 1, 0, 0⟩, .copyg none ⟨1, 4, 6, 0, 0, 1, 0, 0⟩, .copyg none ⟨0, 4, 7, 0, 0, 1, 0, 0⟩,
     .copyg none ⟨0, 4, 6, 1, 0, 1, 0, 0⟩, .copyg none ⟨0, 4, 6, 0, 1, 1, 0, 0⟩, .copyg none ⟨0, 4, 6, 0, 0, 1, 1, 0⟩,
     .copyg none ⟨0, 4, 6, 0, 0, 1, 0, 1⟩, .copys none ⟨2, 4, 6, 8, 5, 1, 0, 2⟩, .copys none ⟨1, 4, 7, 8, 5, 1, 0, 2⟩,
     .copys none ⟨1, 4, 6, 9, 5, 1, 0, 2⟩, .copyr none ⟨1, 4, 6, 8, 5, 1, 0, 2⟩, .copys none ⟨0, 4, 6, 8, 5, 1, 0, 2⟩,
     .copys none ⟨1, 4, 6, 8, 5, 1, 1, 2⟩, .mloop none ⟨1, 4, 16, 0, 0, 0, 0, 0⟩, .mloop none ⟨0, 4, 18, 0, 0, 0, 0, 0⟩,
     .mloop none ⟨0, 4, 0, 0, 0, 0, 0, 0⟩, .mloop none ⟨0, 4, 52, 0, 0, 0, 0, 0⟩, .mloop none ⟨0, 4, 16, 1, 0, 0, 0, 0⟩,
     .mloop none ⟨0, 4, 16, 0, 1, 0, 0, 0⟩, .mloop none ⟨0, 4, 16, 0, 0, 1, 0, 0⟩, .mloop none ⟨0, 4, 16, 0, 0, 0, 4, 0⟩,
     .mloop none ⟨0, 4, 16, 0, 0, 0, 0, 2⟩, .mloop (pfx 0 0 1 0 0 0) ⟨0, 4, 16, 0, 0, 0, 0, 0⟩, .mst none ⟨1, 4, 16, 0, 0, 0, 0, 0⟩,
     .mst none ⟨0, 4, 17, 0, 0, 0, 0, 0⟩, .mst none ⟨0, 4, 0, 0, 0, 0, 0, 0⟩, .mst none ⟨0, 4, 56, 0, 0, 0, 0, 0⟩,
     .mst none ⟨0, 4, 16, 1, 0, 0, 0, 0⟩, .mst none ⟨0, 4, 16, 0, 1, 0, 0, 0⟩, .mst none ⟨0, 4, 16, 0, 0, 1, 0, 0⟩,
     .mst none ⟨0, 4, 16, 0, 0, 0, 4, 0⟩, .mst none ⟨0, 4, 16, 0, 0, 0, 0, 1⟩, .mzero ⟨1, 0, 0, 0, 0, 0, 0, 0⟩, .mzero ⟨0, 1, 0, 0, 0, 0, 0, 0⟩,
     .mzero ⟨0, 0, 1, 0, 0, 0, 0, 0⟩, .mzero ⟨0, 0, 0, 1, 0, 0, 0, 0⟩, .mzero ⟨0, 0, 0, 0, 1, 0, 0, 0⟩, .mzero ⟨0, 0, 0, 0, 0, 1, 0, 0⟩,
     .mzero ⟨0, 0, 0, 0, 0, 0, 4, 0⟩, .mzero ⟨0, 0, 0, 0, 0, 0, 0, 1⟩, .mrd ⟨2, 0, 5, 6, 0, 0, 0, 3⟩, .mrd ⟨0, 1, 5, 6, 0, 0, 0, 3⟩,
     .mwr ⟨0, 0, 5, 6, 1, 0, 0, 3⟩, .mwr ⟨0, 0, 5, 6, 0, 1, 0, 3⟩, .mrd ⟨0, 0, 5, 6, 0, 0, 4, 3⟩, .mrd ⟨0, 0, 5, 6, 0, 0, 0, 128⟩,
     .mwait ⟨2, 0, 0, 0, 0, 0, 0, 0⟩, .mwait ⟨0, 0, 0, 0, 0, 0, 1, 0⟩, .mwait ⟨0, 1, 0, 0, 0, 0, 0, 0⟩, .mwait ⟨0, 0, 1, 0, 0, 0, 0, 0⟩,
     .mwait ⟨0, 0, 0, 1, 0, 0, 0, 0⟩, .mwait ⟨0, 0, 0, 0, 1, 0, 0, 0⟩, .mwait ⟨0, 0, 0, 0, 0, 1, 0, 0⟩, .mwait ⟨1, 0, 0, 0, 0, 0, 4, 0⟩,
     .mwait ⟨0, 0, 0, 0, 0, 0, 0, 1⟩, .mstat ⟨1, 4, 0, 0, 0, 0, 0, 0⟩, .mstat ⟨0, 5, 0, 0, 0, 0, 0, 0⟩, .mstat ⟨0, 4, 1, 0, 0, 0, 0, 0⟩,
     .mstat ⟨0, 4, 0, 1, 0, 0, 0, 0⟩, .mstat ⟨0, 4, 0, 0, 1, 0, 0, 0⟩, .mstat ⟨0, 4, 0, 0, 0, 1, 0, 0⟩, .mstat ⟨0, 4, 0, 0, 0, 0, 4, 0⟩,
     .mstat ⟨0, 4, 0, 0, 0, 0, 0, 1⟩, .rcrt ⟨2, 4, 5, 0, 1, 0, 0, 1⟩, .rcrt ⟨0, 4, 5, 16, 1, 0, 0, 1⟩, .rcrt ⟨0, 4, 5, 0, 9, 0, 0, 1⟩,
     .rcrt ⟨0, 4, 5, 0, 1, 1, 0, 1⟩, .rcrt ⟨0, 4, 5, 0, 1, 0, 1, 1⟩, .rcrt ⟨0, 4, 5, 1, 0, 0, 0, 1⟩, .hnext ⟨1, 4, 0, 0, 0, 0, 0, 0⟩,
     .hend ⟨0, 1, 0, 0, 0, 0, 0, 0⟩, .hnext ⟨0, 4, 1, 0, 0, 0, 0, 0⟩, .hnext ⟨0, 4, 0, 1, 0, 0, 0, 0⟩, .hnext ⟨0, 4, 0, 0, 1, 0, 0, 0⟩,
     .hnext ⟨0, 4, 0, 0, 0, 1, 0, 0⟩, .hnext ⟨0, 4, 0, 0, 0, 0, 1, 0⟩, .hnext ⟨0, 4, 0, 0, 0, 0, 0, 1⟩, .hrd ⟨0, 4, 0, 0, 0, 0, 0, 23⟩,
     .hjoin ⟨0, 0, 0, 0, 0, 0, 8, 0⟩, .hrel ⟨0, 0, 0, 0, 0, 0, 1, 0⟩, .rgnAbort ⟨0, 0, 0, 0, 0, 0, 0, 1⟩, .rgnOpen ⟨1, 4, 0, 0, 2, 0, 0, 1⟩,
     .rgnOpen ⟨0, 4, 1, 0, 2, 0, 0, 1⟩, .rgnOpen ⟨0, 4, 0, 1, 2, 0, 0, 1⟩, .rgnOpen ⟨0, 4, 0, 0, 2, 1, 0, 1⟩,
     .rgnOpen ⟨0, 0, 0, 0, 61, 0, 0, 1⟩, .rgnOpen ⟨0, 4, 0, 0, 0, 0, 0, 1⟩, .rgnOpen ⟨0, 0, 0, 0, 2, 0, 0, 1⟩,
     .rgnOpen ⟨0, 60, 0, 0, 2, 0, 0, 1⟩, .rgnOpen ⟨0, 4, 0, 0, 2, 0, 0, 31⟩, .rgnClose ⟨0, 4, 6, 0, 2, 0, 0, 0⟩,
     .rgnClose ⟨7, 4, 6, 0, 2, 0, 0, 0⟩, .rgnClose ⟨3, 4, 6, 0, 61, 0, 0, 0⟩, .rgnClose ⟨3, 4, 6, 0, 2, 1, 0, 0⟩,
     .rgnClose ⟨3, 4, 6, 0, 2, 0, 1, 0⟩, .rgnClose ⟨3, 4, 6, 0, 2, 0, 0, 2⟩, .rgnClose ⟨3, 4, 6, 8, 2, 0, 0, 0⟩,
     .rgnClose ⟨3, 1, 0, 0, 0, 0, 0, 0⟩, .rgnClose ⟨3, 0, 1, 0, 0, 0, 0, 0⟩, .rgnClose ⟨3, 63, 6, 0, 2, 0, 0, 0⟩,
     .rgnClose ⟨3, 4, 63, 0, 2, 0, 0, 0⟩] = true := by decide

/-! ### Witnesses -/

/-- The identity of the group of these tests: uid 7 of context 1, the one group of instance 0 of band 5. -/
def midId : GroupId := { GroupId.none with uid := 7, ctx := 1, band := 5, field := 3, ntiles := 1 }

/-- A barrier that no group has reached. -/
def bar0 : Barrier := ⟨0, [], none⟩

/-- The band of these tests: one team instance with 4 KiB of scratch. -/
def midBand : Band where
  uid := 5
  field := 3
  ctx := 1
  bandx := 0
  cluster := 0
  insts := [⟨0, 0, 4096, 1, true, Vector.replicate 16 bar0, Vector.replicate 32 none, false⟩]
  bar := bar0
  killed := false

/-- The group of these tests, at address 8 of a block of 15 words. -/
def midGrp : Group :=
  { Group.initial midId 0 0 (List.range 8) with pc := 8, blockHdr := 0, blockEnd := 128, depth := 0 }

/-- A ready group of a part that is up, whose code lies at address 0, with a header there, and whose data lie at 0x40000. -/
def mid : State :=
  { State.reset with
    grp := midGrp, bands := [midBand], regs := { PartRegs.reset with bootst := 0x40000000 },
    tlb := [⟨0, 0, 0, ⟨0, 18, .loc 0, true, false, true⟩⟩, ⟨0, 0, 1, ⟨2 ^ 18, 18, .loc 0, true, true, false⟩⟩],
    mem := Memory.setMany [] (keyHome 0 0) (fetchBlock 64 0x1010000000000000),
    agenda := [.issue 7] }

/-- The header at address 0. -/
def hdr0 : Header := Header.ofWord 0x000FFFFF00000004


/-- The state with the word `w` at its group's pc. -/
def midW (w : Nat) : State := { mid with mem := Memory.setMany [] (keyHome 0 0) (fetchBlock 64 w) }
/-- The state with other values in its group. -/
def midG (f : Group → Group) : State := mid.onGrp f
/-- The outcome is a next state. -/
def goes : Out → Bool
  | .next _ => true
  | _ => false
/-- Words of one instruction were fetched. -/
def okWords {ε : Type} : Except ε (List DWord) → Bool
  | .ok _ => true
  | .error _ => false
/-- An SR word with register operands, and one with an immediate. -/
def srR : SR := ⟨false, 4, 6, 8, 0⟩
def srI : SR := ⟨true, 4, 6, 0, 5⟩
/-- A branch to the header at address 0, and one to the word after it, which is none. -/
def cbBack : CB := ⟨false, 0, 0, 0, 0xFFFFFFFF⟩
def cbHere : CB := ⟨false, 0, 0, 0, 0⟩

theorem witness_EncodeDecodeRoundTrip : encode (.add srR) ≠ [] ∧ (Instr.add srR).wf = true := by decide

theorem witness_StepRunsDecodedInstruction :
    (mid.agenda = .issue mid.grp.id.uid :: [] ∧ mid.tick.atInsn) ∧
    okWords (({ mid.tick with agenda := [] } : State).onGrp Group.choose).fetched.insnWords = true ∧
    (okWords (({ (midW 0xFC00000000000007).tick with agenda := [] } : State).onGrp Group.choose).fetched.insnWords = true ∧
      decode [0xFC00000000000007] = .error .pfxLast) ∧
    okWords (({ ({ mid with tlb := [] } : State).tick with agenda := [] } : State).onGrp Group.choose).fetched.insnWords = false ∧
    ({ mid with agenda := [.event .feedLoss (.reset .powerOn 0)] } : State).agenda =
      .event .feedLoss (.reset .powerOn 0) :: [] ∧ encode .feedLoss = [] := by
  refine ⟨⟨by decide, by unfold State.atInsn; decide⟩, by decide, by decide, by decide, by decide, by decide⟩

theorem witness_IllegalFormsTrap : encode (.nop srI) ≠ [] ∧ (Instr.nop srI).wf = false := by decide

theorem witness_NextWordFollows : mid.grp.pc + BitVec.ofNat 64 (8 * 1) ≠ mid.grp.blockEnd ∧
    (midG (fun g => { g with pc := 112 })).grp.pc + BitVec.ofNat 64 (8 * 1) ≠ mid.grp.blockEnd := by decide

theorem witness_StepKeepsMemoryCanonical : mid.memOk ∧ goes (step mid) = true := by
  unfold State.memOk; decide

theorem witness_BranchesCallsAndJumpsTransfer :
    (cbBack.okBr = true ∧ mid.check (mid.grp.target cbBack.off) = .ok hdr0) ∧
    (cbBack.okCond = true ∧ mid.grp.scalOk cbBack.a = true ∧ mid.grp.scalOk cbBack.b = true ∧
      mid.grp.rs cbBack.a = mid.grp.rs cbBack.b ∧
      mid.check (mid.grp.target cbHere.off) = .error { cause := .badtarget, trapa := some 8, fetch := some 8 }) ∧
    (midG (fun g => g.ws 1 5)).grp.rs 1 ≠ (midG (fun g => g.ws 1 5)).grp.rs 0 ∧
    (cbBack.okMask = true ∧ mid.grp.tripOk cbBack.a = true ∧ mid.grp.mask 0 ≠ 0 ∧ (midG (fun g => g.setRaw 0 0)).grp.mask 0 = 0) ∧
    ((⟨false, 2, 0, 0, 0xFFFFFFFF⟩ : CB).okCall = true ∧ mid.grp.pairOk 2 = true ∧ mid.grp.liveInPair 2 = false) ∧
    ((⟨false, 2, 4, 0, 0⟩ : CB).okCalli = true ∧ mid.grp.pairOk 4 = true ∧ mid.check (mid.grp.rp 4) = .ok hdr0) ∧
    (⟨false, 0, 4, 0, 0⟩ : CB).okJump = true := by decide

theorem witness_LoopsFollowTheirCounts :
    ((⟨false, 0, 4, 0, 2⟩ : CB).okLoop = true ∧ mid.grp.scalOk 4 = true ∧
      mid.check (mid.grp.target 2) = .ok (Header.ofWord 0) ∧ mid.grp.rs 4 = 0) ∧
    ((midG (fun g => { g.ws 4 1 with depth := 2 })).grp.rs 4 ≠ 0 ∧ (midG (fun g => { g.ws 4 1 with depth := 2 })).grp.depth < 3) ∧
    (cbBack.okLbrk = true ∧ (midG (fun g => { g with depth := 3 })).grp.depth ≠ 0) ∧
    ((⟨false, 4, 0, 3, 0⟩ : CB).okLcget = true ∧ mid.grp.liveIn 4 = false) ∧ (⟨false, 0, 4, 2, 0⟩ : CB).okLcset = true ∧
    (midGrp.depth = 0 ∧ midGrp.depth ≤ 3) ∧
    (let g := { midGrp with depth := 3, exit := midGrp.exit.set 2 64, lc := midGrp.lc.set 2 2 }
     g.depth ≤ 3 ∧ g.depth ≠ 0 ∧ (64 : DWord) = g.exit[g.depth - 1]?.getD 0 ∧ 1 < (g.lc[g.depth - 1]?.getD 0).toNat ∧
       (8 : DWord) ≠ g.exit[g.depth - 1]?.getD 0) ∧
    (let g := { midGrp with depth := 1, exit := midGrp.exit.set 0 64, lc := midGrp.lc.set 0 1 }
     g.depth ≠ 0 ∧ (64 : DWord) = g.exit[g.depth - 1]?.getD 0 ∧ (g.lc[g.depth - 1]?.getD 0).toNat ≤ 1) := by decide

theorem witness_MaskTriplesComputed :
    (srR.okTriples = true ∧ mid.grp.tripOk srR.d = true ∧ mid.grp.liveInTriple srR.d = false ∧ mid.grp.tripOk srR.a = true ∧
      mid.grp.tripOk srR.b = true) ∧
    (⟨false, 60, 61, 0, 0⟩ : SR).okTriple2 = true ∧ (⟨true, 0, 6, 0, 96⟩ : SR).okRange = true ∧
    (⟨false, 0, 0, 0, 0⟩ : SR).okLive = true ∧ mid.grp.id.lanes ≤ 96 ∧
    ((⟨false, 4, 0, 0, 0⟩ : SR).okCount = true ∧ mid.grp.mask 0 ≠ 0 ∧ mid.grp.mask 10 = 0) ∧
    (⟨true, 4, 0, 0, 95⟩ : SR).okTest = true := by decide

theorem witness_ScalarResults :
    (Instr.add srR).wf = true ∧ (Instr.add srI).wf = true ∧
    (mid.grp.scalOk srR.d = true ∧ mid.grp.scalOk srR.a = true ∧ mid.grp.scalOk srR.b = true ∧ mid.grp.liveIn srR.d = false) ∧
    srI.okBin = true ∧ (⟨false, 0, 6, 0, 0⟩ : SR).okUnary = true := by decide

theorem witness_PairResults :
    (srR.okPair true true = true ∧ mid.grp.pairOk srR.d = true ∧ mid.grp.pairOk srR.a = true ∧ mid.grp.pairOk srR.b = true ∧
      mid.grp.liveInPair srR.d = false) ∧
    (⟨true, 4, 6, 0, 63⟩ : SR).okPairShift = true ∧ (⟨false, 5, 6, 8, 0⟩ : SR).okPair false true = true := by decide

theorem witness_ImmediatesAndAddresses :
    (⟨true, 63, 0, 0, 9⟩ : SR).okLi = true ∧ (⟨false, 62, 0, 0, 0⟩ : SR).okLiw = true ∧ mid.grp.pairOk 62 = true ∧
    mid.grp.liveInPair 62 = false ∧ (⟨true, 4, 6, 0, 0x80000000⟩ : SR).okLea = true ∧ (⟨false, 4, 6, 0, 0⟩ : SR).okMovCopy = true ∧
    (⟨true, 4, 0, 0, 3⟩ : SR).okMovRel = true := by decide

/-- A VR word on registers, with operands of the kinds `ok`. -/
def vr (t : BitVec 3) (d a b c : BitVec 7) (ok : BitVec 6) (x : BitVec 5) : VR := ⟨t, d, a, b, c, 0, 0, ok, false, x⟩

theorem witness_VectorIntegerResults :
    (Instr.vmul (vr 0 1 2 3 0 0 0)).wf = true ∧ mid.vrReady (vr 0 1 2 3 0 0 0) (usesOf 2 (vr 0 1 2 3 0 0 0) false) false [] ∧
    (Instr.vmad (vr 2 1 2 3 4 0 0)).wf = true ∧ mid.vrReady (vr 2 1 2 3 4 0 0) (usesOf 3 (vr 2 1 2 3 4 0 0) false) false [] ∧
    (Instr.vpopc (vr 1 1 2 0 0 0 0)).wf = true ∧ mid.vrReady (vr 1 1 2 0 0 0 0) (usesOf 1 (vr 1 1 2 0 0 0 0) false) false [] ∧
    (Instr.vadd { vr 2 1 2 3 0 0 0 with sat := true }).wf = true ∧ (Instr.vadd { vr 2 1 2 3 0 0 1 with sat := true }).wf = true ∧
    (Instr.vadd (vr 2 1 2 3 0 0 0)).wf = true ∧
    mid.vrReady { vr 2 1 2 3 0 0 1 with sat := true } (usesOf 2 { vr 2 1 2 3 0 0 1 with sat := true } false) false [] := by
  unfold State.vrReady; and_intros <;> decide

theorem witness_VectorCompares :
    (mid.grp.tripOk 0 = true ∧ mid.grp.tripOk ((vr 0 0 2 3 0 0 9).d.setWidth 6) = true ∧
      mid.grp.liveInTriple ((vr 0 0 2 3 0 0 9).d.setWidth 6) = false ∧
      (usesOf 2 (vr 0 0 2 3 0 0 9) false).all mid.grp.useOk = true ∧
      mid.readStreams (streamsOf (usesOf 2 (vr 0 0 2 3 0 0 9) false)) = .ok []) ∧
    (vr 0 0 2 3 0 0 9).okCmp [0] 9 = true ∧ (vr 3 0 2 3 0 0 7).okCmp [3, 6] 7 = true ∧ (vr 6 0 2 4 0 0 0).okCmp [3, 6] 7 = true ∧
    (usesOf 2 (vr 6 0 2 4 0 0 0) true).all mid.grp.useOk = true := by and_intros <;> decide

theorem witness_VectorFloatComplete :
    ((Instr.vfadd (vr 6 2 4 6 0 0 0)).wf = true ∧ mid.vrReady (vr 6 2 4 6 0 0 0) (usesOf 2 (vr 6 2 4 6 0 0 0) true) true []) ∧
    ((Instr.vfabs (vr 4 2 4 0 0 0 0)).wf = true ∧ mid.vrReady (vr 4 2 4 0 0 0 0) (usesOf 1 (vr 4 2 4 0 0 0 0) false) false []) ∧
    ((vr 3 2 4 5 6 0 0).okFp true true true = true ∧ mid.vrReady (vr 3 2 4 5 6 0 0) (usesOf 3 (vr 3 2 4 5 6 0 0) false) false []) ∧
    ((vr 3 2 4 0 0 0 0).okRnd = true ∧ (vr 3 2 4 0 0 0 0).okFp true false false = true ∧ (vr 3 2 4 0 0 0 0).okSpecial = true ∧
      mid.vrReady (vr 3 2 4 0 0 0 1) (usesOf 1 (vr 3 2 4 0 0 0 1) false) false []) := by
  unfold State.vrReady; and_intros <;> decide

theorem witness_SignsAndNansOfFloats :
    (0xFFFFFFFF : Nat) < 2 ^ Fmt.f32.width ∧ (fval .f32 0x7FC00000).isNan = true ∧ (fval .f32 0x3F800000).isNan = false ∧
    (fval .f32 0x7F800001).isSig = true := by and_intros <;> decide

theorem witness_LaneInstructionsComplete :
    ((vr 3 2 4 0 0 0 0).okMov false = true ∧ (vr 3 2 4 5 0 0 0).okMov true = true ∧
      mid.vrReady (vr 3 2 4 5 0 0 0) (usesOf 2 (vr 3 2 4 5 0 0 0) false) false []) ∧
    ((vr 0 2 4 3 0 0b000100 0).okBcst = true ∧ mid.vrReady (vr 0 2 4 3 0 0b000100 0)
      [useA (vr 0 2 4 3 0 0b000100 0) false, useB (vr 0 2 4 3 0 0b000100 0) false] false []) ∧
    ((vr 0 2 4 0 0 0 0).okIdx = true ∧ mid.vrReady (vr 0 2 4 0 0 0 0) (usesOf 1 (vr 0 2 4 0 0 0 0) false) false []) ∧
    ((vr 0 2 4 3 0 0b000100 0).okGet = true ∧ mid.grp.scalOk 2 = true ∧ mid.grp.liveIn 2 = false ∧
      (usesOf 2 (vr 0 2 4 3 0 0b000100 0) false).all mid.grp.useOk = true) ∧
    ((vr 0 2 4 0 0 0b010100 0).okPut = true ∧ mid.grp.dstOk (vr 0 2 4 0 0 0b010100 0) false = true ∧
      mid.grp.dstLive (vr 0 2 4 0 0 0b010100 0) false = false ∧
      (usesOf 2 (vr 0 2 4 0 0 0b010100 0) false).all mid.grp.useOk = true ∧
      mid.readStreams (streamsOf (usesOf 2 (vr 0 2 4 0 0 0b010100 0) false)) = .ok []) := by
  unfold State.vrReady; and_intros <;> decide

theorem witness_ConversionsComplete :
    ((vr 6 2 4 0 0 0 3).okCvtf = true ∧ mid.vrReady (vr 6 2 4 0 0 0 3) (usesOf 1 (vr 6 2 4 0 0 0 3) false) true []) ∧
    ((vr 3 2 4 0 0 0 6).okCvtf = true ∧ mid.vrReady (vr 3 2 4 0 0 0 6) (usesOf 1 (vr 3 2 4 0 0 0 6) true) false []) ∧
    ((vr 3 2 4 0 0 0 12).okCvtf = true ∧ (vr 3 2 4 0 0 0 5).okCvtf = true ∧
      mid.vrReady (vr 3 2 4 0 0 0 12) (usesOf 1 (vr 3 2 4 0 0 0 12) false) false []) ∧
    ((vr 4 2 4 5 0 0 3).okCvtf = true ∧ mid.vrReady (vr 4 2 4 5 0 0 3) (usesOf 2 (vr 4 2 4 5 0 0 3) false) false []) ∧
    ((vr 6 2 4 0 0 0 1).okF2i true = true ∧ mid.vrReady (vr 6 2 4 0 0 0 1) (usesOf 1 (vr 6 2 4 0 0 0 1) true) false []) ∧
    ((vr 6 2 4 0 0 0 1).okF2i false = true ∧ mid.vrReady (vr 6 2 4 0 0 0 1) (usesOf 1 (vr 6 2 4 0 0 0 1) false) true []) ∧
    ((vr 3 2 4 0 0 0 1).okExt8 = true ∧ recOk (vr 3 2 4 0 0 0 1).x = true) ∧
    ((vr 3 2 4 5 0 0 0).okScale 0 = true ∧ (vr 3 2 4 5 0 0 0).okScale 2 = true ∧ (vr 3 2 4 5 0 0 1).okScale 2 = true ∧
      (vr 3 2 4 5 0 0 2).okScale 2 = true ∧
      mid.vrReady (vr 3 2 4 5 0 0 0) (usesOf 2 (vr 3 2 4 5 0 0 0) false) false []) ∧
    ((vr 0 2 4 0 0 0 0).okPack 0 = true ∧ (vr 0 2 4 0 0 0 7).okPack 7 = true ∧
      mid.vrReady (vr 0 2 4 0 0 0 7) (usesOf 1 (vr 0 2 4 0 0 0 7) false) false []) := by
  unfold State.vrReady; and_intros <;> decide

theorem witness_GeneratorInstructions :
    ((vr 0 0 4 0 0 0 0).okRngs = true ∧ mid.grp.tripOk 0 = true ∧ (usesOf 1 (vr 0 0 4 0 0 0 0) false).all mid.grp.useOk = true ∧
      mid.readStreams (streamsOf (usesOf 1 (vr 0 0 4 0 0 0 0) false)) = .ok []) ∧
    ((vr 0 2 0 0 0 0 0).okRng = true ∧ mid.vrReady (vr 0 2 0 0 0 0 0) [] false []) ∧
    ((vr 3 2 4 0 0 0 1).okCvt8 = true ∧ ({ vr 3 2 4 0 0 0 1 with rm := 3 } : VR).okCvt8 = true ∧ (mid.grp.mask 0).getLsbD 95 = true ∧
      recOk (vr 3 2 4 0 0 0 1).x = true ∧
      mid.vrReady (vr 3 2 4 0 0 0 1) (usesOf 1 (vr 3 2 4 0 0 0 1) false) false []) := by
  unfold State.vrReady; and_intros <;> decide

theorem witness_GroupWideResults :
    ((vr 0 2 4 0 0 0 2).okVote = true ∧ mid.grp.scalOk 2 = true ∧ mid.grp.liveIn 2 = false) ∧
    ((vr 0 4 4 0 0 0 3).okVote = true ∧ mid.grp.tripOk 4 = true ∧ mid.grp.liveInTriple 4 = false) ∧
    ((vr 0 2 4 5 0 0 0).okShfl = true ∧ mid.vrReady (vr 0 2 4 5 0 0 0)
      [useA (vr 0 2 4 5 0 0 0) false, useB (vr 0 2 4 5 0 0 0) false] false [] ∧ (vr 0 2 4 5 0 0 0).kindB ≠ 3 ∧
      (vr 0 2 4 5 0 0 1).okShfl = true ∧ (vr 0 2 4 5 0 0 3).okShfl = true ∧ (vr 0 2 4 1 0 0b001100 2).okShfl = true ∧
      (vr 0 2 4 1 0 0b001100 2).kindB = 3) ∧
    ((vr 0 2 4 0 0 0 0).okMatch = true ∧ (vr 3 2 4 0 0 0 0).okMatch = true ∧ (mid.grp.mask 0).getLsbD 0 = true ∧ mid.vrReady (vr 0 2 4 0 0 0 0) (usesOf 1 (vr 0 2 4 0 0 0 0) false) true []) ∧
    ((vr 6 2 4 0 0 0 0).okRed true = true ∧ (mid.grp.scalOk 2 && mid.grp.scalOk 3) = true ∧ mid.grp.liveInPair 2 = false ∧
      (usesOf 1 (vr 6 2 4 0 0 0 0) true).all mid.grp.useOk = true) ∧
    ((vr 0 2 4 0 0 0 8).okRed false = true ∧ mid.vrReady (vr 0 2 4 0 0 0 8) (usesOf 1 (vr 0 2 4 0 0 0 8) false) false []) ∧
    (vr 0 2 4 0 0 0 0).x.extractLsb' 0 3 = 0 := by
  unfold State.vrReady; and_intros <;> decide

theorem witness_VectorWriteFrame :
    (95 < 96 ∧ midGrp.phys 0 ≠ some 1 ∧ midGrp.phys (0 + 1) = some 1) ∧ (0 : LaneSet).getLsbD 95 = false := by and_intros <;> decide

/-- The state with the data page's address in pair s10:s11, and only lanes 0 and 95 enabled. -/
def dat : State := midG (fun g => (g.wp 10 0x40000).setRaw 0 (BitVec.ofNat 96 (2 ^ 95 + 1)))
/-- A load or store of one word at the data page; a pair; an odd address. -/
def smW : SM := ⟨4, 4, 10, 0, 0⟩
def smOdd : SM := ⟨4, 4, 10, 0, 2⟩
/-- A vector access of words at the data page, lane by lane the same, and one block. -/
def vmW : VM := ⟨4, 2, 10, 0x7F, 0, 0, 0⟩
/-- A prefix of a release at band scope, and one that names channel 31. -/
def pfxRel : Pfx := ⟨3, 3, 0, 0, 0, 0, 0⟩
def pfxChan : Pfx := ⟨0, 0, 0, 0, 0, 31, 0⟩
/-- The keys of words of the data page. -/
def blockKeys (l : Nat) : List Nat := keyRun (keyHome 0 (0x40000 + 4 * l)) 4

theorem witness_ScalarLoadResult :
    ((Instr.sld none smW).wf = true ∧ dat.grp.smOk smW = true ∧ dat.grp.liveIn smW.d = false ∧ (dat.grp.eff none).space ≠ 4 ∧
      (dat.grp.smAddr smW).toNat % Machine.sizeOf smW.sz = 0 ∧
      dat.place none (dat.grp.eff none).space .read (dat.grp.smAddr smW) (Machine.sizeOf smW.sz) = .keys (blockKeys 0) ∧
      ∀ k ∈ blockKeys 0, dat.missing .l1 k = false) ∧
    ((Instr.sld none smOdd).wf = true ∧ (dat.grp.smAddr smOdd).toNat % Machine.sizeOf smOdd.sz ≠ 0) ∧
    (255 : Nat) < 2 ^ 8 ∧ (65535 : Nat) < 2 ^ 16 := by and_intros <;> decide

theorem witness_VectorLoadResult :
    (Instr.vldb none vmW).wf = true ∧ dat.grp.vmOk vmW = true ∧ dat.grp.vmDataOk vmW (decide (vmW.sz = 5)) = true ∧
    dat.grp.liveInVec vmW.v.toNat = false ∧
    (∀ x ∈ dat.grp.vmAccesses vmW true (dat.grp.eff none).space 4, x.addr.toNat % 4 = 0) ∧
    (∀ x ∈ dat.grp.vmAccesses vmW true (dat.grp.eff none).space 4,
      dat.place (some x.lane) (dat.grp.eff none).space .read x.addr 4 = .keys (blockKeys x.lane)) ∧
    (∀ x ∈ dat.grp.vmAccesses vmW true (dat.grp.eff none).space 4, ∀ k ∈ blockKeys x.lane, dat.missing .l1 k = false) := by
  and_intros <;> decide

theorem witness_ScalarStoreResult :
    ((Instr.sst none smW).wf = true ∧ dat.grp.smOk smW = true ∧ dat.grp.inRegion = false ∧ (dat.grp.eff none).chan = 0 ∧
      (releases (fitStore (dat.grp.eff none).ord) = false ∧ ∀ k ∈ blockKeys 0, relGet dat.grp.relq k = none) ∧
      (dat.grp.eff none).space ≠ 4 ∧ (dat.grp.smAddr smW).toNat % Machine.sizeOf smW.sz = 0 ∧
      dat.place none (dat.grp.eff none).space .write (dat.grp.smAddr smW) (Machine.sizeOf smW.sz) = .keys (blockKeys 0) ∧
      (blockKeys 0).Nodup ∧ dat.mem.wf = true) ∧
    ((Instr.sst (some pfxRel) smW).wf = true ∧ releases (fitStore (dat.grp.eff (some pfxRel)).ord) = true ∧
      3 ≤ (dat.grp.eff (some pfxRel)).scope ∧ (dat.grp.eff (some pfxRel)).space = (dat.grp.eff none).space) ∧
    ((∀ c ∈ [((0x40000 : Nat), (1 : Byte))], bufferAtom [] c.1 = false) ∧
      (bufferStore [] [((0x40000 : Nat), (1 : Byte))]).map bufferFits = some true) := by and_intros <;> decide

theorem witness_VectorStoreFrame :
    (Instr.vstb none vmW).wf = true ∧ dat.grp.vmOk vmW = true ∧ dat.grp.vmDataOk vmW (decide (vmW.sz = 5)) = true ∧
    dat.grp.inRegion = false ∧ (dat.grp.eff none).chan = 0 ∧ releases (fitStore (dat.grp.eff none).ord) = false ∧
    (∀ x ∈ dat.grp.vmAccesses vmW true (dat.grp.eff none).space 4, ∀ k ∈ blockKeys x.lane, relGet dat.grp.relq k = none) ∧
    (∀ x ∈ dat.grp.vmAccesses vmW true (dat.grp.eff none).space 4,
      dat.place (some x.lane) (dat.grp.eff none).space .write x.addr 4 = .keys (blockKeys x.lane)) ∧
    dat.mem.wf = true ∧ ((dat.grp.vmAccesses vmW true (dat.grp.eff none).space 4).flatMap (fun x => blockKeys x.lane)).Nodup := by
  and_intros <;> decide

/-- A stream word on z7, with pair s10:s11 and pair D. -/
def exZ (sub : BitVec 3) (d a b : BitVec 6) : EX := ⟨sub, d, a, b, 0, 0, 0, 7⟩
/-- The keys of a descriptor at the start of the data page. -/
def zKeys : List Nat := keyRun (keyHome 0 0x40000) 64
/-- The data page with the descriptor of a stream of bytes in global memory at its start. -/
def datZ : State := { dat with mem := Memory.setMany [] (keyHome 0 0x40000) (natBytes 8 0x40000 ++ [4]) }

theorem witness_StreamInstructionsComplete :
    ((exZ 0 0 10 0).okZset = true ∧ datZ.grp.pairOk 10 = true ∧ (datZ.grp.rp 10).toNat % 64 = 0 ∧
      datZ.place none 1 .read (datZ.grp.rp 10) 64 = .keys zKeys ∧ (∀ k ∈ zKeys, datZ.missing .l1 k = false) ∧
      streamBad (zKeys.map (datZ.loadByte .l1)) = false ∧
      (Stream.ofBytes (zKeys.map (datZ.loadByte .l1))).base.toNat %
        2 ^ (Stream.ofBytes (zKeys.map (datZ.loadByte .l1))).esz.toNat = 0) ∧
    ((exZ 3 0 10 5).okZsets = true ∧ dat.grp.scalOk 5 = true) ∧ (exZ 0 0 0 0).okZrew = true ∧
    ((exZ 0 4 0 0).okZposRead = true ∧ dat.grp.pairOk 4 = true ∧ dat.grp.liveInPair 4 = false) ∧
    (exZ 1 0 10 0).okZposSet = true ∧ ((exZ 2 4 0 0).okZposEnd = true ∧ dat.grp.scalOk 4 = true ∧ dat.grp.liveIn 4 = false) := by
  and_intros <;> decide

/-- A cache word on the line at the data page. -/
def vmLine : VM := ⟨0, 0, 10, 0x7F, 0, 0, 0⟩
/-- The result of a check has a value. -/
def isOk {ε α : Type} : Except ε α → Bool
  | .ok _ => true
  | .error _ => false

theorem witness_CacheInstructionsComplete :
    ((Instr.fence none ⟨0, 0, 0, 0, 0, 0, 0⟩).wf = true ∧ dat.grp.relq = [] ∧ (dat.grp.eff none).scope ≠ 6) ∧
    (dat.grp.vmOk vmLine = true ∧ (dat.grp.eff none).space ≠ 2 ∧ (dat.grp.eff none).space ≠ 3 ∧
      isOk (dat.placeAll (dat.grp.eff none).space (fun x => dat.place (if vmLine.noIndex then none else some x.lane) (dat.grp.eff none).space .read
        x.addr 1) (dat.grp.lineAccesses vmLine)) = true) ∧
    (Instr.cwb none vmLine).wf = true ∧ (Instr.cinv none vmLine).wf = true ∧ (Instr.pref none vmLine).wf = true := by
  and_intros <;> decide

/-- A channel word on channel `n`. -/
def exC (n : BitVec 16) : EX := ⟨0, 0, 0, 0, 0, 0, 0, n⟩
/-- The state after channel 31 has been opened to die 0. -/
def chan : State := mid.onInst (fun i => { i with chans := i.chans.setIfInBounds 31 (some 0) })
def datChan (d : Nat) : State := dat.onInst (fun i => { i with chans := i.chans.setIfInBounds 31 (some d) })

theorem witness_ChannelsComplete :
    ((exC 31).okChan true = true ∧ mid.grp.inRegion = false ∧ mid.channelDie 31 = none ∧ mid.built.dies.getLsbD 0 = true) ∧
    chan.channelDie 31 = some 0 ∧ ((exC 287).okChan true = true ∧ (0 : Nat) ≠ (287 : BitVec 16).toNat / 256 % 2) ∧
    ((exC 31).okChan false = true ∧ chan.grp.channelClear 31 = true) ∧
    ((Instr.sst (some pfxChan) smW).wf = true ∧ dat.grp.smOk smW = true ∧ dat.grp.inRegion = false ∧
      (dat.grp.eff (some pfxChan)).chan = 31 ∧ (dat.grp.eff (some pfxChan)).space = 1 ∧
      (dat.grp.smAddr smW).toNat % Machine.sizeOf smW.sz = 0 ∧
      (datChan 0).place none 1 .write (dat.grp.smAddr smW) (Machine.sizeOf smW.sz) = .keys (blockKeys 0) ∧
      (datChan 0).channelDie 31 = some 0 ∧ (∀ k ∈ blockKeys 0, homeDie k = some 0) ∧ dat.grp.relq = [] ∧
      releases (fitStore (dat.grp.eff (some pfxChan)).ord) = false ∧ (datChan 1).channelDie 31 = some 1 ∧
      dat.channelDie 31 = none) ∧
    (({ chan with grp := { chan.grp with status := .waiting (.channel 31 true) }, ev := .group 7 } : State).focus 7).isSome = true ∧
    (chan.onGrp (fun g => { g with relq := [⟨5, 31, [], 1⟩] })).settleNow.grp.relq = [] := by
  and_intros <;> decide

/-- Atomics of one word at the data page: `add`, `cas`, and the read of an accumulator with `clr`. -/
def vmAdd : VM := ⟨4, 4, 10, 0x7F, 0, 0, 0⟩
def vmCas : VM := ⟨4, 4, 10, 0x7F, 0, 0, 0x90000⟩
def vmClr : VM := ⟨4, 4, 10, 0x7F, 0, 0, 0x10000⟩
/-- The keys of an accumulator at the data page. -/
def fxKeys : List Nat := keyRun (keyHome 0 0x40000) 16

set_option maxRecDepth 8000 in
theorem witness_AtomicsActAtOnce :
    (dat.mem.wf = true ∧ ∀ k, keyHome 0 0x40000 ≤ k → k < keyHome 0 0x40000 + 1 → keyKind k < 4) ∧
    (dat.grp.relq = [] ∧ releases (dat.grp.eff none).ord = false ∧
      dat.releaseAt 0 3 = dat.releaseAt dat.grp.coreNo (dat.grp.eff (some pfxRel)).scope ∧
      (dat.grp.eff (some pfxRel)).scope ≠ 6 ∧ (Instr.satom (some pfxRel) vmAdd).wf = true) ∧
    ((Instr.satom none vmAdd).wf = true ∧ dat.grp.pairOk 10 = true ∧ dat.grp.scalOk 4 = true ∧ dat.grp.inRegion = false ∧
      dat.grp.liveIn 4 = false ∧ (dat.grp.rp 10 + atomOfs vmAdd).toNat % 4 = 0 ∧ releases (dat.grp.eff none).ord = false ∧
      dat.atomPlace none (dat.grp.eff none).space (dat.grp.rp 10 + atomOfs vmAdd) 4 = .keys (blockKeys 0)) ∧
    ((Instr.satom none vmCas).wf = true ∧ vmCas.atomOp = 9 ∧ dat.grp.scalOk 5 = true) ∧
    ((Instr.vatom none vmCas).wf = true ∧ dat.grp.hasVec 5 = true ∧ dat.grp.vmOk vmCas = true ∧
      dat.grp.vmDataOk vmCas false = true ∧ dat.grp.liveInVec 4 = false ∧
      isOk (dat.accessAll (dat.grp.eff none).space 4 (fun x => dat.atomPlace (some x.lane) (dat.grp.eff none).space x.addr 4)
        ((lanesOf (dat.grp.mask vmCas.m)).map (fun l => ⟨l, dat.grp.vmAddr vmCas (atomOfs vmCas) l⟩))) = true) ∧
    ((Instr.fxadd none vmAdd).wf = true ∧ dat.grp.region = none ∧
      isOk (dat.accessAll (dat.grp.eff none).space 16 (fun x => dat.atomPlace (some x.lane) (dat.grp.eff none).space x.addr 16)
        ((lanesOf (dat.grp.mask vmAdd.m)).map (fun l => ⟨l, dat.grp.vmAddr vmAdd (atomOfs vmAdd) l⟩))) = true) ∧
    ((Instr.fxrd none vmAdd).wf = true ∧ (dat.grp.rp 10 + atomOfs vmAdd).toNat % 16 = 0 ∧
      (dat.place none (dat.grp.eff none).space .read (dat.grp.rp 10 + atomOfs vmAdd) 16).local? = .keys fxKeys) ∧
    ((Instr.fxrd none vmClr).wf = true ∧ vmClr.atomOp = 1 ∧
      dat.atomPlace none (dat.grp.eff none).space (dat.grp.rp 10 + atomOfs vmClr) 16 = .keys fxKeys) := by
  refine ⟨⟨by decide, fun k h1 h2 => ?_⟩, ?_⟩
  · obtain rfl : k = keyHome 0 0x40000 := by omega
    decide
  · and_intros <;> decide

/-- A barrier word on barrier `n`. -/
def exB (n : BitVec 16) : EX := ⟨0, 0, 0, 0, 0, 0, 0, n⟩
/-- The band with a second group in the team, which has not arrived. -/
def two : State :=
  { mid with
    grp := { midGrp with id := { midId with ngrp := 2 } },
    others := [{ midGrp with id := { midId with uid := 8, ngrp := 2 } }],
    bands := [{ midBand with insts := midBand.insts.map (fun i => { i with ngrp := 2 }) }] }
/-- The same two groups as members of the band barrier. -/
def two16 : State :=
  { two with
    grp := { two.grp with id := { two.grp.id with bandBar := true } },
    others := two.others.map (fun g => { g with id := { g.id with bandBar := true } }) }
/-- The state with the group's arrival at barrier 15 kept, the phase over. -/
def over15 : State := midG (fun g => { g with arrived := g.arrived.set 15 (some 7) })

theorem witness_BarriersComplete :
    ((exB 15).okBar 15 = true ∧ mid.grp.helper = none ∧ mid.grp.relq = [] ∧ mid.grp.inRegion = false ∧ mid.grp.mark 15 = none ∧
      (mid.arrives 15).barPassed 15 = true) ∧
    ((two.arrives 15).grp.mark 15 = some ((two.arrives 15).phaseOf 15) ∧ two.grp.mark 15 = none) ∧
    (over15.grp.mark 15 = some 7 ∧ over15.phaseOf 15 ≠ 7) ∧
    ((exB 0).okBar 0 = true ∧ (midG (fun g => { g with id := { g.id with bandBar := true } })).grp.id.bandBar = true ∧
      mid.grp.mark 16 = none ∧ (mid.arrives 16).barPassed 16 = true) ∧
    (two16.grp.id.bandBar = true ∧ two16.grp.mark 16 = none ∧
      (two16.arrives 16).grp.mark 16 = some ((two16.arrives 16).phaseOf 16)) ∧
    (mid.barAt mid.grp.id.band mid.grp.id.inst 15 = some bar0 ∧ mid.grp.memberOf mid.grp.id.band mid.grp.id.inst 15 = true) := by
  and_intros <;> decide

/-- A word on a barrier object at offset 4080 of the group's scratch, whose offset is in pair s10:s11. -/
def scr : State := midG (fun g => g.wp 10 4080)
def exS (d c : BitVec 6) : EX := ⟨0, d, 10, 5, c, 0, 0, 0⟩
def sbKeys : List Nat := keyRun (keyScratch 5 0 4080) 16
/-- The object valid with phase 9. -/
def scr9 : State := scr.onScratchBar (keyScratch 5 0 4080) (fun b => { b with valid := true, phase := 9, expect := 4 })
/-- WAITV on a word of the data page, equal to s5. -/
def exW : EX := ⟨0, 4, 10, 5, 6, 0, 0, 0⟩
/-- The group waits, as a turn names it. -/
def waits (s : State) (w : Wait) : State := { s.onGrp (fun g => { g with status := .waiting w }) with ev := .group 7 }

theorem witness_ScratchBarriersAndWaitv :
    (scr.grp.pairOk 10 = true ∧ (scr.grp.rp 10).toNat % 16 = 0 ∧ scr.place none 2 .write (scr.grp.rp 10) 16 = .keys sbKeys ∧
      (exS 0 6).okSb false true = true ∧ (exS 0 0).okSb false false = true ∧ scr.grp.scalOk 6 = true ∧ scr.grp.inRegion = false ∧
      scr.grp.relq = []) ∧
    ((exS 4 0).okSb true false = true ∧ scr9.place none 2 .read (scr9.grp.rp 10) 16 = .keys sbKeys ∧ scr9.grp.liveIn 4 = false ∧
      0 < ((scr9.scratchBar (sbKeys.headD 0)).phase - scr9.grp.rs 5).toInt) ∧
    ((waits scr9 (.scratchBar 4 (keyScratch 5 0 4080) 8)).focus 7).isSome = true ∧
    0 < ((scr9.scratchBar (keyScratch 5 0 4080)).phase - 8).toInt ∧
    ((Instr.waitv none exW).wf = true ∧ (match dat.pollRead none exW with
        | .ok (w, _) => decide (w = 0)
        | _ => false) = true ∧ waitCond exW.sub 0 (dat.grp.rs 5) = true) ∧
    (((waits dat (.word exW none 0)).focus 7).isSome = true ∧ dat.grp.rs 6 ≠ 0xFFFFFFFF ∧ 0 + (dat.grp.rs 6).toNat ≤ dat.time) ∧
    (⟨0, true, 0, 0, 1⟩ : ScratchBar).valid = true ∧ (⟨0, true, 0, 0, 1⟩ : ScratchBar).expect ≠ 0 := by and_intros <;> decide

/-- A context with a board of three slots as object 2, with every right, and the board with slot 2 the group's. -/
def ctx1 : Context where
  num := 1
  pasid := 0
  tenant := 0
  debug := false
  fvec := 0
  route := 0
  fsize := 4096
  fault := 0x40000
  faultNext := 64
  save := 0
  ssize := 0
  bittern := 0
  bslots := 0
  objn := 4
  objtab := 0
  slice := 0
  ckmode := 0
  ckq := 0
  ckval := 0
  objs := [(2, .board 0x11 6 3)]
  carve := 0
  sliceStart := 0
  tier := 0
  deadline := 0
  isSaved := false
  wrote := false
  savedCps := []
  savedMxs := []
  killed := false
  killDue := false
  ckLast := 0
  ckCount := 0
  ckPaused := false
  ckBundle := none
  ckSince := 0
def brd : State := { midG (fun g => g.ws 4 2) with ctxs := [ctx1] }
def brdOwn : State := brd.setBoard ((brd.boardAt 6).setSlot { (brd.boardAt 6).slot 2 with owner := some 7 })
/-- A board word on object 2 and the slot in s4. -/
def exBrd (d b : BitVec 6) (w : BitVec 4) : EX := ⟨0, d, 4, b, 0, 0, w, 2⟩

theorem witness_BoardInstructions :
    (brd.useBoard 2 4 = .ok (6, 3) ∧ brd.grp.mayPost = true ∧ (brd.grp.rs 4).toNat < 3 ∧ (exBrd 0 0 0).okBatt = true ∧
      ((brd.boardAt 6).slot 2).owner = none) ∧
    ((exBrd 8 10 7).okBpost = true ∧ brdOwn.grp.pairOk 8 = true ∧ ((brdOwn.boardAt 6).slot 2).owner = some 7 ∧
      (brdOwn.boardAt 6).level < 0xFFFFFFFF ∧ brdOwn.grp.relq = []) ∧
    (isOk (brd.useBoard 3 4) = false ∧ ((brd.onGrp (fun g => g.ws 4 3)).grp.rs 4).toNat = 3) ∧
    ((exBrd 5 0 0).okBdet = true ∧ brdOwn.grp.scalOk 5 = true ∧ (exBrd 5 0 0).sub = 0 ∧
      ({ exBrd 5 0 0 with sub := 1 } : EX).okBdet = true ∧
      ∀ x ∈ (brdOwn.boardAt 6).slots, x.idx ≠ 2 → x.owner = none) ∧
    ((waits brdOwn (.bpost (exBrd 8 10 7) 1 1 1)).focus 7).isSome = true ∧
    ((exBrd 8 0 0).okBread = true ∧ brd.grp.pairOk 8 = true ∧ brd.grp.pairOk 10 = true ∧ brd.useBoard 2 0 = .ok (6, 3)) ∧
    ((⟨0, 8, 0, 0, 0, 0, 7, 2⟩ : EX).okBvseg = true ∧ brd.grp.tripOk 8 = true ∧ brd.grp.liveInTriple 8 = false) ∧
    (⟨1, 8, 0, 0, 0, 0, 7, 0⟩ : EX).okBvcmp = true ∧ (⟨0, 8, 0, 0, 0, 0, 7, 6⟩ : EX).okBvcmp = true := by
  and_intros <;> decide

/-- Queue registers: q3 receives mailbox 0, q4 sends to it, q5 is a completion register that holds an entry. -/
def que : State := midG (fun g =>
  ((g.onQueue 3 (fun _ => ⟨.recv 0, [], [], 0⟩)).onQueue 4 (fun _ => ⟨.send 0, [], [], 0⟩)).onQueue 5 (fun _ => ⟨.done, [9], [0], 0⟩))
/-- The receiver's register full. -/
def queFull : State := que.onGrp (fun g => g.onQueue 3 (fun _ => ⟨.recv 0, List.replicate 8 1, List.replicate 8 0, 0⟩))
/-- A queue word. -/
def exQ (sub : BitVec 3) (d a : BitVec 6) (q : BitVec 4) (imm : BitVec 16) : EX := ⟨sub, d, a, 0, 0, q, 0, imm⟩

theorem witness_QueueInstructions :
    (que.grp.mayQueue = true ∧ (exQ 2 0 0 15 0).okQbind = true ∧ que.bindOk 15 (kindOf (exQ 2 0 0 15 0)) = true) ∧
    ((exQ 0 0 10 4 0).okQpush = true ∧ que.grp.pairOk 10 = true ∧ que.sendTo 4 = some (7, 3) ∧ que.held 7 3 < 8 ∧
      que.grp.relq = [] ∧ queFull.sendTo 4 = some (7, 3) ∧ 8 ≤ queFull.held 7 3) ∧
    ((exQ 0 8 0 5 0).okQpop = true ∧ (exQ 0 8 0 5 0).okQtry = true ∧ que.grp.popsFrom 5 = true ∧ que.grp.pairOk 8 = true ∧
      (que.grp.queue 5).entries = 9 :: []) ∧
    (que.grp.popsFrom 3 = true ∧ (que.grp.queue 3).entries = []) ∧ (exQ 0 8 0 5 0).okQstat = true ∧
    (((waits que (.push 4 1)).focus 7).isSome = true ∧ (waits que (.push 4 1)).sendTo 4 = some (7, 3) ∧
      (waits que (.push 4 1)).held 7 3 < 8) ∧
    ((waits que (.pop 8 5)).focus 7).isSome = true := by and_intros <;> decide

theorem witness_FlowInstructionsComplete :
    ((⟨false, 0, 0, 0, 0⟩ : SR).allZero = true ∧ mid.grp.helper = none ∧ isOk mid.exitJoin = true ∧
      (∀ q ∈ mid.exitTiles, ∀ g ∈ mid.group? q.1, (g.tile q.2).cause = 0) ∧ mid.grp.relq = [] ∧ mid.remoteOpen = false ∧ mid.teamIdle = true) ∧
    ((⟨true, 0, 0, 0, 7⟩ : SR).okYield = true ∧ que.grp.yieldEvents &&& yieldSet ⟨true, 0, 0, 0, 7⟩ ≠ 0 ∧
      (midW 0x1010000000000000).check (mid.grp.pc + 8) = .ok (Header.ofWord 0) ∧
      mid.grp.yieldEvents &&& yieldSet ⟨true, 0, 0, 0, 7⟩ = 0) ∧
    (((waits que (.yielding 1)).focus 7).isSome = true ∧ (waits que (.yielding 1)).grp.yieldEvents &&& 1 ≠ 0) ∧
    ((⟨true, 0, 0, 0, 9⟩ : SR).okSnooze = true ∧ mid.grp.srcB ⟨true, 0, 0, 0, 9⟩ ≠ 0 ∧ mid.grp.srcB ⟨true, 0, 0, 0, 0⟩ = 0) ∧
    (((waits mid (.snooze 0)).focus 7).isSome = true ∧ 0 ≤ (waits mid (.snooze 0)).grp.ccnt) := by and_intros <;> decide

/-- Command register q1 with completion register q2; and a tensor as object 0. -/
def cpy : State :=
  { midG (fun g => (g.onQueue 1 (fun _ => ⟨.copy 2 0, [], [], 0⟩)).onQueue 2 (fun _ => ⟨.done, [], [], 0⟩)) with
    ctxs := [{ ctx1 with objs := [(0, .tensor ⟨160, 1, 31, 0, 0xFFFF, 0x40000, Vector.replicate 5 1, Vector.replicate 5 1⟩)] }] }
/-- Eight commands outstanding. -/
def cpyFull : State := cpy.onGrp (fun g => g.onQueue 1 (fun _ => ⟨.copy 2 0, [], [], 8⟩))
def exCopy : EX := ⟨0, 4, 10, 12, 14, 1, 0, 7⟩

theorem witness_CopyInstructionsPush :
    ((Instr.copyLinear none exCopy).wf = true ∧ cpy.grp.mayQueue = true ∧ (cpy.copyForm .linear exCopy).isSome = true ∧
      (cpy.grp.queue exCopy.q.toNat).copyLink = some (2, 0) ∧ cpy.copyRoom exCopy (2, 0) = true ∧
      cpyFull.copyRoom exCopy (2, 0) = true) ∧
    ((Instr.copys none ⟨0, 4, 10, 12, 0, 1, 0, 0⟩).wf = true ∧ (cpy.copyForm .shardOut ⟨0, 4, 10, 12, 0, 1, 0, 0⟩).isSome = true) ∧
    ((waits cpy (.copyRoom .linear none exCopy)).focus 7).isSome = true := by and_intros <;> decide

/-- A command of 4,096 bytes and one, of the group, that engine 0 works on. -/
def cmd0 : CopyCmd where
  uid := 20
  form := .linear 0x40000 0x42000 4097 0
  group := some 7
  ctx := 1
  pasid := 0
  fn := 0
  cls := 0
  band := 5
  inst := 0
  cluster := 0
  core := 0
  reg := 1
  doneReg := 2
  eng := 0
  tag := 0
  acq := false
  acqDone := false
  rel := false
  scope := 1
  cp := 1
  bar := 0xFFFFFFFF
  mark := ⟨0, 0, none⟩
  bundle := 0
  sub := 0
  entry := 0
  engine := none
  plan := none
  landed := 0
  ended := none
  suspended := false
  again := false
  keepBar := false
  keepFlags := false
  taken := 0
  dropToken := false
  waitHost := none
  denied := false
def cpyRuns (f : CopyCmd → CopyCmd) : State :=
  { cpy.onGrp (fun g => g.onQueue 1 (fun _ => ⟨.copy 2 0, [20], [0], 1⟩)) with copies := [f cmd0], ev := .cmd 20 0 }
/-- The tensor of one FP32 element, and a state whose shard at the data page has no MAGIC. -/
def ten0 : Tensor := ⟨160, 1, 31, 0, 0xFFFF, 0x40000, Vector.replicate 5 1, Vector.replicate 5 1⟩
def cpyShard : State := cpyRuns id
def plan0 : CopyPlan := .linear 0x40000 0x42000 2 0

set_option maxRecDepth 8000 in
theorem witness_CopyCommandsRun :
    ((cpyRuns id).copy? 20 = some cmd0 ∧ (cpyRuns id).copyMayStart cmd0 0 = true) ∧
    (let c := { cmd0 with engine := some 0, plan := some plan0 }
     (cpyRuns (fun _ => c)).copy? 20 = some c ∧ (cpyRuns (fun _ => c)).guaranteedFirst c = false ∧ plan0.granules ≤ 0 + 1 ∧
      plan0.more = false ∧ isOk ((cpyRuns (fun _ => c)).granuleCells c plan0 ((List.range (plan0.granule 0).2).map ((plan0.granule 0).1 + ·))) = true) ∧
    (let c := { cmd0 with ended := some (0, 0, 0) }
     (cpyRuns (fun _ => c)).copy? 20 = some c ∧ (cpyRuns (fun _ => c)).tokenBefore c = false ∧
      (cpyRuns (fun _ => c)).isEvicted 7 = false) ∧
    (let p : CopyPlan := .shardIn ten0 (Vector.replicate 5 0) (Vector.replicate 5 1) 0 [0x40000] ⟨0, 0, none⟩ [] []
     let c := { cmd0 with engine := some 0, plan := some p }
     p.more = true ∧ p.total < 4096 * (0 + 1) ∧ isOk (cpyShard.takeShard c p) = true) ∧
    ((7 : Nat) < 8 ∧ (31 : Nat) < 32 ∧ (2 ^ 40 - 1 : Nat) < 2 ^ 40) := by and_intros <;> decide

/-- The operands of MLOOP in s16 to s27: FP32 panels and their format block at the data page, one step. -/
def mxm : State :=
  { midG (fun g => ((((g.wp 16 0x40000).wp 18 0x40000).wp 24 0x40000).ws 26 1)) with
    mem := Memory.setMany [] (keyHome 0 0x40000) [160, 160] }
def exMx (sub : BitVec 3) (d a b : BitVec 6) (imm : BitVec 16) : EX := ⟨sub, d, a, b, 0, 0, 0, imm⟩
def mxLoopCmd : MxCmd :=
  { mxm.grp.mkMx .loop none (exMx 0 4 16 0 0) (mxm.grp.capture 16 12) [] false with
    fblk := (keyRun (keyHome 0 0x40000) 32).map (mxm.loadByte .l1) }
/-- A tile whose queue has this command at its head. -/
def mxq (c : MxCmd) : State := { mxm.onGrp (fun g => { g with mxq := [c], ccnt := 40 }) with ev := .tile 7 0 }
def mxStore : MxCmd := { mxLoopCmd with kind := .store, ops := [0x40000, 0, 512, 160, 0, 0] }

theorem witness_MatrixInstructionsComplete :
    ((Instr.mloop none (exMx 0 4 16 0 0)).wf = true ∧ mxm.mxFree (exMx 0 4 16 0 0) ∧ mxm.grp.mxq.length < 8 ∧
      mxm.grp.liveInTile 0 = false ∧ mxm.grp.liveIn 4 = false ∧ mxm.mloopReads none (exMx 0 4 16 0 0) mxLoopCmd ∧ mloopOk mxLoopCmd) ∧
    ((exMx 0 0 0 0 0).okMzero = true ∧ mxm.mxFree (exMx 0 0 0 0 0)) ∧
    8 ≤ (mxm.onGrp (fun g => { g with mxq := List.replicate 8 mxLoopCmd })).grp.mxq.length ∧
    ((exMx 1 0 5 6 3).okMrd = true ∧ mxm.mxFree (exMx 1 0 5 6 3) ∧ mxm.grp.hasVec 3 = true ∧ mxm.grp.mxCount 0 = 0 ∧
      mxm.grp.liveInVec 3 = false) ∧
    ((Instr.mst none (exMx 0 4 16 0 0)).wf = true ∧ mstReady { mxStore with begun := false }) ∧
    ((exMx 1 0 0 0 0).okMwait = true ∧ tileOf (exMx 1 0 0 0 0) < mxm.grp.id.ntiles ∧
      (∀ t ∈ mxm.grp.waitedTiles (exMx 1 0 0 0 0), (mxm.grp.tile t).cause = 0 ∧ mxm.grp.mxCount t = 0) ∧
      (mxq mxLoopCmd).grp.mxCount 0 ≠ 0) ∧
    ((exMx 0 4 0 0 0).okMstat = true ∧ mxm.grp.mxOk (exMx 0 4 0 0 0) = true) := by
  unfold State.mxFree State.mloopReads mloopOk mstReady panelAligned
  and_intros <;> first | decide | skip
  exact ⟨[(0, keyRun (keyHome 0 0x40000) 32)], by decide, by decide, rfl⟩

set_option maxRecDepth 8000 in
theorem witness_MatrixEventsHappen_store :
    ((mxq { mxStore with done := 127 }).mxAcquireWaits { mxStore with done := 127 } = false) ∧
    (((mxq { mxStore with done := 127 }).acquiredHead 0).mstRows 0 { mxStore with done := 127 } (.ofWord (({ mxStore with done := 127 } : MxCmd).op 3))
      ((List.range 128).drop 127)).2 = none ∧
    (let c := { mxStore with ops := [0x80000, 0, 512, 160, 0, 0] }
     (((mxq c).acquiredHead 0).mstRows 0 c (.ofWord (c.op 3)) ((List.range 128).drop 0)).2 = some (0x80000, .fault 1)) := by
  and_intros <;> decide +kernel

set_option maxRecDepth 8000 in
theorem witness_MatrixEventsHappen :
    (let c := { mxLoopCmd with begun := true, pinned := (List.range 32).map (fun i => ((0, i), Vector.replicate 128 0)) }
     (mxq c).grp.mxHead 0 = some c ∧ (mxq c).mxHeld = false ∧ ((mxq c).grp.tile 0).cause = 0 ∧ c.ready = true ∧
      (mxq c).mxBusy (mxq c).grp.coreNo = false ∧ (mxq c).mxTurn (mxq c).grp.coreNo = some (7, 0)) ∧
    (let c := { mxLoopCmd with begun := true, running := some 32 }
     (mxq c).grp.mxHead 0 = some c ∧ 32 ≤ 32 ∧ c.kind = .loop ∧ c.done + 1 = c.nstep) ∧
    (let c := { mxLoopCmd with begun := true }
     (mxq c).grp.mxHead 0 = some c ∧ c.kind = .loop ∧ (mxq c).grp.mxRuns = true ∧ (mxq c).mxAcquireWaits c = false ∧
      ((mxq c).pick c.lacking).1 = some (0, 0) ∧ ((c.units 0)[0]?.map (fun x => isOk ((mxq c).mxFetch c 0 x))) = some true) ∧
    ((mxq mxStore).grp.mxHead 0 = some mxStore ∧ mxStore.kind = .store ∧ mxStore.waitHost = none ∧ (mxq mxStore).grp.mxRuns = true) ∧
    ((mxq { mxStore with kind := .zero }).grp.mxHead 0 = some { mxStore with kind := .zero }) ∧
    (((waits mxm (.matrix (exMx 0 0 0 0 0))).focus 7).isSome = true ∧
      ∀ i ∈ mxm.grp.waitedTiles (exMx 0 0 0 0 0), (mxm.grp.tile i).cause = 0 ∧ mxm.grp.mxCount i = 0) := by
  and_intros <;> decide

/-- A header at address 0 with the flags `fl` (R36), a second RGN.OPEN word behind it. -/
def midH (fl : Nat) : State :=
  { mid with mem := Memory.setMany [] (keyHome 0 0) (natBytes 8 (15 * 2 ^ 48 + 0xFFFF * 2 ^ 32 + fl) ++ natBytes 8 0xDC00000000000000) }
/-- A helper instruction's word with destination s4 and source s5. -/
def exH (sub : BitVec 3) (d a : BitVec 6) (w : BitVec 4) (imm : BitVec 16) : EX := ⟨sub, d, a, 0, 0, 0, w, imm⟩
/-- A recruitment of 200 iterations, the second chunk unclaimed. -/
def rec0 : Recruit where
  iters := 200
  next := 1
  release := false
  done := 0
  lentVec := []
  lentScal := Vector.replicate 16 3
  granted := 1
  withSelf := true
  selfClaim := some 0
  faults := []
  fpsr := 0
/-- A field whose kernel has a helper quota of 4. -/
def fld0 : Field where
  uid := 3
  bundle := 1
  sub := 0
  ctx := 1
  cls := 0
  kernel := ⟨96, 0, 4, 0, 0, [⟨0, 1, 8, 0, false, 0, []⟩]⟩
  nteam := 1
  nband := 2
  dieMask := 3
  resident := false
  tree := false
  karg := 0
  repAddr := 0
  repCfg := 0
  nextBand := 1
  retired := []
  base := 0
  clusterRetired := []
  fired := []
  killed := false
  fault := none
/-- A recruiter with one lane in em, 200 iterations asked for in s5, and a quota for its band. -/
def rcr : State := { (midH 8).onGrp (fun g => (g.ws 5 200).setRaw 0 1) with fields := [fld0] }
def rcrW : EX := ⟨0, 4, 5, 0, 0, 0, 0, 0xFFFF⟩
/-- A recruiter, and the same beside its helper 8, which is the current group in `hlp`. -/
def own : State := midG (fun g => { g with recruit := some rec0 })
def hlpG : Group := { midGrp with id := { midId with uid := 8 }, helper := some ⟨7, 0, some 0, 0, true⟩, ccnt := 20000 }
def hlp : State := { mid with grp := hlpG, others := [own.grp] }

set_option maxRecDepth 8000 in
theorem witness_HelpersComplete :
    (rcrW.okRcrt = true ∧ rcr.grp.scalOk 4 = true ∧ rcr.grp.scalOk 5 = true ∧ rcr.grp.lentOk rcrW = true ∧ rcr.grp.recruit = none ∧
      rcr.grp.liveIn 4 = false ∧ rcr.check (rcr.grp.pc + 8 * rcrW.imm.signExtend 64) = .ok (Header.ofWord 0x000FFFFF00000008) ∧
      (Header.ofWord 0x000FFFFF00000008).flagH = true ∧ (rcr.grp.rs 5).toNat = 200 ∧ rcr.recruitCode = 0 ∧
      ({ rcr with fields := [] } : State).recruitCode ≠ 0 ∧ ((rcr.onGrp (fun g => g.ws 5 0)).grp.rs 5).toNat = 0) ∧
    (own.grp.scalOk 4 = true ∧ own.grp.mayClaim = true ∧ own.recruitOf = some (7, rec0) ∧ (exH 0 4 0 0 0).okHelper true 0 0 = true ∧
      rec0.release = false ∧ rec0.next < (rec0.iters + 95) / 96 ∧ (rec0.iters + 95) / 96 ≤ ({ rec0 with next := 3 } : Recruit).next ∧
      (exH 0 4 0 0 22).okHelper true 22 0 = true ∧ (own.group? 7).map own.asleep = some false) ∧
    (rcr.grp.relq = [] ∧ hlp.grp.relq = []) ∧
    ((exH 0 0 0 0 0).okHelper false 0 0 = true ∧ hlp.grp.helper = some ⟨7, 0, some 0, 0, true⟩ ∧ (7 : Nat) ≠ hlp.grp.id.uid ∧
      ((hlp.group? 7).map (fun g => g.recruit)) = some (some rec0) ∧ (0 : Nat) < 256) ∧
    (own.grp.helper = none ∧ (exH 0 0 0 7 0).okHelper false 0 7 = true ∧ own.joinReady = true ∧ rec0.faults = [] ∧
      ({ own with others := [hlpG] } : State).joinReady = false ∧ mid.grp.recruit = none) ∧
    (let t : State := { hlp with grp := { hlpG with status := .granted, bankIds := [] }, ev := .group 8 }
     (t.focus 8).isSome = true ∧ t.grp.status = .granted ∧ t.helperFits t.grp = true) ∧
    (let t : State := { own with ev := .group 7, grp := { own.grp with status := .waiting (.join 0) } }
     (t.focus 7).isSome = true ∧ t.joinReady = true ∧ t.grp.recruit = some rec0) ∧
    (hlp.grp.helper = some ⟨7, 0, some 0, 0, true⟩ ∧ hlp.grp.resident = true ∧ hlp.grp.status ≠ .parked ∧
      16384 < hlp.grp.ccnt - 0) := by and_intros <;> decide

/-- RGN.OPEN of s4 and s5 with octet 0; the region that it opens. -/
def rgnW : EX := ⟨0, 4, 0, 0, 2, 0, 0, 1⟩
def rgn : State := midH 4
def rgn1 : Region := rgn.grp.newRegion rgnW
def inRgn : State := rgn.onGrp (fun g => { g with region := some rgn1 })
/-- RGN.CLOSE of s4 and s5 from s6 and s7, once and repeated on s8. -/
def closeW (b : BitVec 6) (imm : BitVec 16) : EX := ⟨3, 4, 6, b, 2, 0, 0, imm⟩
/-- A harvest group with a region, on the core of a guaranteed group that waits for a buffer. -/
def harv : State :=
  { inRgn with
    grp := { inRgn.grp with id := { midId with cls := 1 } },
    others := { midGrp with id := { midId with uid := 8 }, status := .waiting (.regionBuffer rgnW) } ::
      (List.range 7).map (fun i => { inRgn.grp with id := { midId with uid := 20 + i, cls := 1 } }), ev := .evict 7 0 }
/-- The same group evicted and spilled, alone, with its state in slot 0 of its context's bittern. -/
def spilt (spilled : Bool) : State :=
  { harv with
    others := [], ev := .group 7, ctxs := [{ ctx1 with bittern := BitVec.ofNat 64 (2 ^ 60), bslots := 1 }],
    grp := { harv.grp with status := .evicted false spilled false, bankIds := [], slot := some 0 } }

set_option maxRecDepth 8000 in
theorem witness_RegionsComplete :
    (rgnW.okRgnOpen = true ∧ rgn.firstInG = true ∧ rgn.grp.mayOpen rgnW = true ∧ rgn.bufferFree = true ∧
      rgn.grp.tilesBusy rgnW.w = false ∧
      (rgn.onGrp (fun g => { g with mxq := [{ mxLoopCmd with tile := 0 }] })).grp.tilesBusy 1 = true) ∧
    ({ rgn with others := (List.range 8).map (fun i => { inRgn.grp with id := { midId with uid := 20 + i } }) } : State).bufferFree = false ∧
    (((waits rgn (.regionBuffer rgnW)).focus 7).isSome = true ∧ (waits rgn (.regionBuffer rgnW)).bufferFree = true) ∧
    ((closeW 0 0).okRgnClose = true ∧ (closeW 8 1).okRgnClose = true ∧ inRgn.grp.region = some rgn1 ∧ inRgn.grp.mxq = [] ∧
      inRgn.grp.relq = [] ∧ (closeW 0 0).sub ≠ 6 ∧ inRgn.unacked [] = false ∧ inRgn.grp.rs 8 = 0 ∧ (inRgn.onGrp (fun g => g.ws 8 1)).grp.rs 8 ≠ 0) ∧
    ((exH 0 0 0 0 0).okHelper false 0 0 = true ∧
      isOk ((((inRgn.onGrp Group.countRetired).acquireAt inRgn.grp.coreNo 6).onGrp (fun g => g.discardMx.restart rgn1)).enter
        rgn1.marker false) = true) ∧
    ((harv.focus 7).isSome = true ∧ harv.grp.victim = true ∧ harv.evictionDue harv.grp = true) ∧
    (((spilt false).focus 7).isSome = true ∧ (spilt false).grp.status = .evicted false false false ∧
      (spilt false).grp.relq = [] ∧ (spilt false).remoteDirty = []) ∧
    (((spilt true).focus 7).isSome = true ∧ (spilt true).grp.status = .evicted false true false ∧
      (spilt true).reloadSlice = some 0 ∧ (spilt true).ctxHeld = false ∧ (spilt true).slotChanged = false ∧
      ((spilt true).onGrp (fun g => { g with slotBytes := [(0, 1)] })).slotChanged = true) := by and_intros <;> decide

/-- A system word. -/
def srS (d a : BitVec 6) (imm : Word) : SR := ⟨decide (imm ≠ 0), d, a, 0, imm⟩

theorem witness_SystemInstructionsComplete :
    ((⟨true, 4, 0, 0, 0x0E⟩ : SR).okRds = true ∧ isPairSpecial 0x0E = false ∧ mid.grp.scalOk 4 = true ∧ mid.grp.liveIn 4 = false) ∧
    ((⟨true, 4, 0, 0, 0x10⟩ : SR).okRds = true ∧ isPairSpecial 0x10 = true ∧ mid.grp.pairOk 4 = true ∧ mid.grp.liveInPair 4 = false) ∧
    ((⟨true, 0, 6, 0, 0x0E⟩ : SR).okWrs = true ∧ mid.grp.scalOk 6 = true ∧ specialOk 0x0E (mid.grp.rs 6) = true) ∧
    ((⟨true, 0, 6, 0, 0x0D⟩ : SR).okWrs = true ∧ specialOk 0x0D (mid.grp.rs 6) = true ∧ (⟨true, 0, 6, 0, 0x13⟩ : SR).okWrs = true ∧
      isPairSpecial 0x13 = true) ∧
    ((⟨true, 0, 6, 0, 0x12⟩ : SR).okWrs = true ∧ mid.grp.pairOk 6 = true ∧ specialOk 0x12 (mid.grp.rs 6) = true) ∧
    ((⟨true, 4, 0, 0, 0⟩ : SR).okPcnt = true ∧ (⟨true, 4, 0, 0, 3⟩ : SR).okPcnt = true ∧
      (⟨true, 4, 0, 0, 15⟩ : SR).okPcnt = true ∧
      (let s : State := { mid with regs := { mid.regs with tcen := 1, tcsel := mid.regs.tcsel.set 11 12 } }
       mid.regs.tcen.getLsbD mid.grp.id.fn = false ∧ s.regs.tcen.getLsbD s.grp.id.fn = true ∧ s.regs.tcsel[15 - 4]? = some 12 ∧
         s.regs.tcount[s.grp.id.fn]? = some (Vector.replicate 12 0)) ∧ (⟨false, 4, 0, 0, 0⟩ : SR).okDtime = true) ∧
    (let s : State := midG (fun g => { g with preempt := .delivered 0 })
     (⟨false, 0, 0, 0, 0⟩ : SR).okSigs = true ∧ s.grp.helper = none ∧ s.grp.inRegion = false ∧ s.grp.mayAnswer = true ∧
       s.grp.trappc = s.grp.trappcRec ∧ s.grp.relq = [] ∧ (s.releaseAt s.grp.coreNo 6).remoteDirty = [] ∧
       s.remoteOpen = false) ∧
    ((⟨false, 0, 10, 0, 0⟩ : SR).okSigs = true ∧ mid.check (mid.grp.rp 10) = .ok hdr0) := by and_intros <;> decide

theorem witness_TrapsAreTakenAndReturnedFrom :
    (let s := midH 16
     s.grp.hnd = false ∧ s.routed .swtrap = true ∧ s.check s.grp.trapv = .ok (Header.ofWord 0x000FFFFF00000010) ∧
       (Header.ofWord 0x000FFFFF00000010).flagT = true ∧ (Header.ofWord 0x000FFFFF00000010).ok = true ∧
       (Header.ofWord 0x000FFFFF00000010).flagG = false) ∧
    mid.handlerOk = false ∧
    ((⟨true, 0, 0, 0, 7⟩ : SR).okTrap = true ∧ mid.grp.pc + 8 ≠ mid.grp.blockEnd) ∧
    (let s : State := midG (fun g => { g with trapc := 0x80000002, trappc := 16, trappcRec := 16, trapHdr := 0, trapBlockEnd := 128 })
     (⟨false, 0, 0, 0, 0⟩ : SR).allZero = true ∧ s.grp.helper = none ∧ s.grp.hnd = true ∧ s.grp.trappc = s.grp.trappcRec ∧
       s.grp.trappc ≠ s.grp.trapHdr ∧ s.grp.preempt = .none) := by and_intros <;> decide

/-- The state of an event. -/
def evt (s : State) (e : EvArg) : State := { s with ev := e }

theorem witness_WatchdogsAndChecks :
    (let b : Band := { midBand with insts := midBand.insts.map (fun i => { i with bars := i.bars.set 3 ⟨0, [7], some (7, 2 ^ 24)⟩ }) }
     let s : State := evt { (midG (fun g => { g with ccnt := 2 ^ 24 })) with bands := [b] } (.barrier 5 0 3)
     (s.band? 5).isSome = true ∧ s.barAt 5 0 3 = some ⟨0, [7], some (7, 2 ^ 24)⟩ ∧
       s.barClock ⟨0, [7], some (7, 2 ^ 24)⟩ = some (2 ^ 24, 2 ^ 24) ∧ s.memberAway 5 0 3 = false ∧ s.killIsDue 1 = false) ∧
    (let s : State := evt (midG (fun g => { g with progress := 2 ^ 30 + 1, unchosen := 64 })) (.group 7)
     (s.focus 7).isSome = true ∧ s.grp.status = .ready ∧ 2 ^ (s.grp.wdcfg.extractLsb' 8 8).toNat < s.grp.progress ∧
       s.grp.raised = false ∧ 64 ≤ s.grp.unchosen) ∧
    (let s : State := { midG (fun g => { g with bankIds := [2] }) with unswept := [(0, 2), (0, 3)] }
     s.unswept.contains (0, 2) = true ∧ s.sweepDue 0 2 = true ∧ s.sweepDue 0 3 = true ∧ (s.bankOwner 0 2).isSome = true ∧
       s.bankOwner 0 3 = none) := by and_intros <;> decide

/-- The data page holds a bundle of one SIGNAL, read from a queue of context 1. -/
def que0 : Queue where
  pasid := 0
  num := 9
  qcb := 0x9000
  ring := 0x40000
  log2sz := 4
  cls := 0
  prio := 0
  tenant := 0
  ctx := 1
  cmode := 1
  ckq := false
  drain := 2
  cvec := 0
  state := .active
  rdidx := 0
  wridx := 1
  nextRead := 0
  doneAhead := []
  present := true
  cached := true
  entry2 := 0
  force := false
  byFn := 0
def sub0 (after : Nat) : SubLaunch := ⟨natBytes 64 (3 + 256 * after + 65536 * 4), false, false, none, false⟩
def bun0 : Bundle where
  uid := 1
  queue := 0
  ridx := 0
  step := false
  serial := false
  cmode := 1
  crec := 0
  tag := 0
  waits := []
  subs := [sub0 0]
  started := false
  startTime := 0
  early := none
  abandoned := false
/-- The queue and its bundle, a field of the bundle in progress, and context 1 as `c`. -/
def fe (c : Context) : State := { mid with ctxs := [c], queues := [que0], bundles := [bun0], fields := [fld0] }
def away : State := { fe ctx1 with grp := { Group.placeholder with id := { GroupId.none with uid := 0 } }, bands := [] }

set_option maxRecDepth 8000 in
theorem witness_BandsAndContexts :
    (let s : State := evt away (.place 3 0 [0] [0])
     s.fields.find? (fun f => f.uid = 3) = some fld0 ∧ s.ctx? 1 = some ctx1 ∧ s.mayPlace fld0 ctx1 = true ∧
       s.servedLater (s.fieldQueue fld0) = false ∧ s.reportGap 3 = none ∧ (s.placeBands fld0 ctx1 1 1 [0] [0]).isSome = true) ∧
    (let s : State := evt ((fe ctx1).onGrp (fun g => { g with id := { g.id with cls := 1 }, bankIds := List.range 96 })) (.place 3 0 [0] [0])
     s.mayPlace fld0 ctx1 = true ∧ s.servedLater (s.fieldQueue fld0) = false ∧ s.reportGap 3 = none ∧
       (s.placeBands fld0 ctx1 1 1 [0] [0]).isNone = true ∧ (s.assignBands fld0 ctx1 [0] [0]).isSome = true) ∧
    (let s : State := evt ((fe ctx1).onGrp (fun g => { g with status := .exited })) (.band 5)
     s.band? 5 = some midBand ∧ (∀ g ∈ s.groups, g.id.band = 5 → g.status = .exited ∧ g.mxq = []) ∧
       (∀ c ∈ s.copies, c.group.isSome = true → c.band ≠ 5) ∧ s.reportGap midBand.field = none ∧
       (s.releaseBand midBand).remoteDirty = []) ∧
    (let c := { ctx1 with slice := 10 }
     let s : State :=
       { fe c with
         time := 10, built := { mid.built with clusters := 1 }
         copies := [{ cmd0 with engine := some 0 }, { cmd0 with engine := some 1 }, { cmd0 with ctx := 2, group := none }] }
     s.ctx? 1 = some c ∧ c.isSaved = false ∧ c.killed = false ∧ 0 < c.slice ∧ c.sliceStart + c.slice ≤ s.time ∧ c.tier = 0 ∧
       s.othersWait 1 = true) ∧
    (let c := { ctx1 with tier := 2, deadline := 9 }
     let s : State := { fe c with time := 10 }
     s.ctx? 1 = some c ∧ c.isSaved = false ∧ c.killed = false ∧ c.deadline < s.time ∧ s.ctxBands c ≠ [] ∧
       s.hostGap c.who .write c.save (s.saveRecords 1).length = none ∧
       ({ s with bands := [] } : State).ctxBands c = [] ∧ (∀ x ∈ s.copies, x.ctx ≠ 1) ∧ s.remoteDirty = []) ∧
    (let c := { ctx1 with ckPaused := true }
     let s : State := { fe c with time := 2001 }
     s.ctx? 1 = some c ∧ c.tier = 0 ∧ c.ckBundle = none ∧ c.ckSince + s.drainOf 1 < s.time ∧ s.ctxRuns c = true) ∧
    (let c := { ctx1 with tier := 3 }
     let s : State := (fe c).onGrp (fun g => { g with status := .saved false false })
     s.ctx? 1 = some c ∧ (∀ g ∈ s.groups, (∃ b ∈ s.ctxBands c, b.uid = g.id.band) → s.maySave g = true) ∧
       (∀ x ∈ s.copies, x.ctx = 1 → x.suspended = true) ∧
       s.hostGap c.who .write c.save (s.saveRecords 1).length = none ∧
       ((s.ctxBands c).foldl State.releaseBand (s.saveParked ((s.ctxBands c).map (·.uid)))).remoteDirty = []) ∧
    (let c := { ctx1 with ckval := 5, ckmode := 2, ckCount := 5 }
     0 < c.ckval ∧ c.ckmode = 2 ∧ c.ckval ≤ c.ckCount ∧ c.paused = false ∧ (fe c).sliceDue c = false) ∧
    (let c := { ctx1 with ckval := 5, ckmode := 1 }
     c.ckmode = 1 ∧ c.ckLast + c.ckval ≤ 5 ∧ c.paused = false) ∧
    (let s : State := { (fe ctx1).onGrp (fun g => { g with preempt := .due 0 }) with time := 100001 }
     s.grp ∈ s.groups ∧ s.grp.id.ctx = 1 ∧ s.grp.status ≠ .exited ∧ s.grp.preempt = .due 0 ∧ 0 + 100000 < s.time) ∧
    (let c := { ctx1 with isSaved := true }
     let s : State := (fe c).onGrp (fun g => { g with status := .saved false false, bankIds := [] })
     s.ctx? 1 = some c ∧ c.killed = false ∧ c.ckPaused = false ∧ c.wrote = false ∧
       (((s.asksFront c.who []).restoreRecords c).bind (fun r => r.resumeBands c (r.ctxBands c) [0])).isSome = true) ∧
    (let c := { ctx1 with isSaved := true, wrote := true, savedCps := [20] }
     let s : State := { fe c with copies := [{ cmd0 with suspended := true }] }
     s.ctx? 1 = some c ∧ c.killed = false ∧ c.ckPaused = false ∧ s.hostGap c.who .read c.save (s.recordLength 1) = none ∧
       ((s.asksFront c.who [(c.save, s.recordLength 1)]).restoreRecords c).isNone = true) ∧
    (let c := { ctx1 with ckPaused := true, ckq := 9 }
     let s : State := { fe c with queues := [{ que0 with ckq := true }] }
     s.bundle? 1 = some bun0 ∧ s.queueOfBundle bun0 = some { que0 with ckq := true } ∧ s.ctx? 1 = some c ∧
       s.startable bun0 = true ∧ s.drained c = true ∧
       s.firstGap (s.queueWho { que0 with ckq := true }) (s.startReach (s.queueWho { que0 with ckq := true }) bun0) = none) := by
  and_intros <;> decide

set_option maxRecDepth 8000 in
theorem witness_ParkctlActs :
    (let v (op : Nat) : DWord := BitVec.ofNat 64 (2 ^ 63 + op * 2 ^ 60)
     let s (op : Nat) : State := evt { (fe ctx1) with fns := mid.fns.set 0 { FnRegs.reset with pktgt := 1 } } (.fnReg 0 (v op))
     let t : ParkTarget := parkTarget 1 (v 0)
     (s 0).ev = .fnReg 0 (v 0) ∧ (v 0).getLsbD 63 = true ∧ ((s 0).fnRegs 0).pkcmd.getLsbD 63 = false ∧
       ((s 0).ctx? t.ctx) = some ctx1 ∧ (s 0).ctxNow t.ctx = some ctx1 ∧
       (fld (v 0) 60 3 = 0 ∧ fld (v 1) 60 3 = 1 ∧ fld (v 2) 60 3 = 2 ∧ fld (v 3) 60 3 = 3 ∧ fld (v 4) 60 3 = 4 ∧ fld (v 5) 60 3 = 5) ∧
       (s 0).parkGroup t = some mid.grp ∧ mid.grp.status ≠ .parked ∧
       (((s 0).onGrp (fun g => { g with status := .parked })).parkGroup t).map (·.status) = some .parked ∧
       mid.grp.trapc.getLsbD 30 = false ∧
       (((s 1).onGrp (fun g => { g with status := .parked, trapc := 2 ^ 30 })).parkGroup t).map (·.trapc.getLsbD 30) = some true ∧
       ({ s 2 with bands := [] } : State).parkGroup t = none ∧ (s 3).parkTeam t = some midBand ∧ (s 4).parkBand t = some midBand) := by
  and_intros <;> decide

/-- A queue's ring at the data page, where it holds the header of a LAUNCH of one SIGNAL. -/
def fe9 : State :=
  { fe ctx1 with
    bundles := [], mem := Memory.setMany mid.mem (keyHome 0 0x40000) (natBytes 4 0x010001 ++ List.replicate 60 0 ++ natBytes 4 0x040003) }
def bunW : Bundle := { bun0 with waits := [⟨0x40000, 0x010001, 0, false⟩, ⟨0x80000, 0, 0, false⟩] }

/-- A queue table at 0x1000 with an entry for PASID 0, whose table at 0x2000 names the QCB of queue 9. -/
def qtb : State :=
  (({ fe ctx1 with regs := { mid.regs with qtroot := 0x1001 } } : State).writePhys 0x1000 (natBytes 8 0x2003)).writePhys 0x2048
    (natBytes 8 0x9003)
def queOut : Queue := { que0 with cached := false }

set_option maxRecDepth 8000 in
theorem witness_BundlesRun :
    ((fe ctx1).fnRegs 0).bells.find? (fun b => b.slot = 4) = none ∧
    (let s : State := { fe ctx1 with fns := mid.fns.set 0 { FnRegs.reset with bells := [⟨4, 0, 9⟩, ⟨5, 0, 8⟩] } }
     (s.fnRegs 0).bells.find? (fun b => b.slot = 4) = some ⟨4, 0, 9⟩ ∧ s.queueBusy 0 9 = false ∧
       (s.useQueue 0 9).1 = some 0 ∧ (s.useQueue 0 9).2.queues[0]? = some que0 ∧ que0.state ≠ .destroying ∧ que0.state ≠ .destroyed ∧
       idxSub 16 que0.wridx ≠ 0 ∧ idxSub 16 que0.wridx < 2 ^ 31 ∧ idxSub 16 que0.rdidx ≤ 2 ^ que0.log2sz ∧
       2 ^ que0.log2sz < idxSub 17 que0.rdidx ∧ idxSub 17 que0.wridx < 2 ^ 31 ∧
       (s.fnRegs 0).bells.find? (fun b => b.slot = 5) = some ⟨5, 0, 8⟩ ∧ s.queueBusy 0 8 = false ∧ (s.useQueue 0 8).1 = none) ∧
    (let s : State := { fe ctx1 with queues := [queOut], bundles := [] }
     queOut.cached = false ∧ s.mayRead 0 queOut = true ∧ (s.walkAndRead 0 9).1 = none ∧ (({ qtb with queues := [queOut] } : State).walkAndRead 0 9).1 = some 0) ∧
    (fe9.queues[0]? = some que0 ∧ que0.cached = true ∧ fe9.mayRead 0 que0 = true ∧ fe9.bundleGap que0 = none ∧
      (let v := fe9.asksFront que0.ringWho (fe9.bundleRuns que0)
       (v.ringBytes que0 (que0.slotAddr 0) 64).isSome = true ∧ (v.ringBytes que0 (que0.slotAddr 0 + 64) 64).isSome = true) ∧
      (fe9.ringBytes que0 0x80000 64).isNone = true) ∧
    (let s : State := { fe9 with bundles := [bunW] }
     let v (a : DWord) := s.asksFront (s.queueWho que0) [(a, 4)]
     s.bundle? 1 = some bunW ∧ s.queueOfBundle bunW = some que0 ∧ bunW.started = false ∧ bunW.early = none ∧
       bunW.waits[0]? = some ⟨0x40000, 0x010001, 0, false⟩ ∧ bunW.waits[1]? = some ⟨0x80000, 0, 0, false⟩ ∧ s.mayDispatch que0 = true ∧
       s.hostGap (s.queueWho que0) .read 0x40000 4 = none ∧ isOk ((v 0x40000).readVirt (s.queueWho que0) 0x40000 4) = true ∧
       s.hostGap (s.queueWho que0) .read 0x80000 4 = none ∧ isOk ((v 0x80000).readVirt (s.queueWho que0) 0x80000 4) = false) ∧
    (let s := fe ctx1
     let v := (s.asksFront (s.queueWho que0) (readRuns (s.startReach (s.queueWho que0) bun0))).serve 0
     s.startable bun0 = true ∧ que0.ckq = false ∧ s.servedLater 0 = false ∧
       s.firstGap (s.queueWho que0) (s.startReach (s.queueWho que0) bun0) = none ∧
       isOk (v.startChecks (v.queueWho que0) 0 (((v.ctx? 1).map (·.bslots)).getD 0) bun0) = true) ∧
    (let b : Bundle := { bun0 with subs := [⟨natBytes 64 1, false, false, none, false⟩] }
     let s : State := { fe ctx1 with bundles := [b] }
     let v := (s.asksFront (s.queueWho que0) (readRuns (s.startReach (s.queueWho que0) b))).serve 0
     s.startable b = true ∧ s.servedLater 0 = false ∧ s.firstGap (s.queueWho que0) (s.startReach (s.queueWho que0) b) = none ∧
       isOk (v.startChecks (v.queueWho que0) 0 (((v.ctx? 1).map (·.bslots)).getD 0) b) = false) ∧
    (let b : Bundle := { bun0 with subs := [sub0 1], started := true }
     let s : State := { fe ctx1 with bundles := [b], fields := [] }
     s.bundle? 1 = some b ∧ b.subs[0]? = some (sub0 1) ∧ (sub0 1).after = true ∧ (sub0 1).retired = false ∧ s.afterDue b 0 = true ∧
       signalTarget (sub0 1).bytes = none ∧ s.afterRuns b = true ∧
       ({ s with ctxs := [{ ctx1 with killed := true }] } : State).afterRuns b = false) ∧
    (let b : Bundle := { bun0 with early := some (3, 0, 0xFF) }
     ({ fe ctx1 with bundles := [b] } : State).bundleOver b = true ∧ b.crec = 0 ∧
       (fe ctx1).reportGap fld0.uid = none) ∧
    headerOk (natBytes 64 7) = false := by and_intros <;> decide

set_option maxRecDepth 8000 in
theorem witness_QctlActs :
    (let v (op : Nat) : DWord := BitVec.ofNat 64 (2 ^ 63 + op * 2 ^ 60 + 5 * 2 ^ 12 + 9)
     let s (op : Nat) : State := evt qtb (.fnReg 0 (v op))
     (s 0).ev = .fnReg 0 (v 0) ∧ (v 0).getLsbD 63 = true ∧ ((s 0).fnRegs 0).qctl.getLsbD 63 = false ∧
       (s 0).ownsPasid 0 (qctlPasid (v 0)) = true ∧ (s 0).queueBusy (qctlPasid (v 0)) (qctlQueue (v 0)) = false ∧
       (fld (v 0) 60 3 = 0 ∧ fld (v 1) 60 3 = 1 ∧ fld (v 2) 60 3 = 2 ∧ fld (v 3) 60 3 = 3) ∧
       (qtb.walkQueue (qctlPasid (v 0)) (qctlQueue (v 0))).1 = some ⟨0x2048, 0x9000, true⟩ ∧
       (qtb.useQueue (qctlPasid (v 0)) (qctlQueue (v 0))).1 = some 0 ∧ ((fe ctx1).walkQueue 0 9).1 = none ∧
       (fe ctx1).queueIdx 0 9 = some 0 ∧ (qtb.knownQueue 0 9).1 = some 0 ∧ (qtb.knownQueue 0 10).1 = none) ∧
    (let q := { que0 with state := .destroying }
     let s : State := { fe ctx1 with queues := [q], bundles := [] }
     s.queues[0]? = some q ∧ (∀ b ∈ s.bundles, b.queue ≠ 0) ∧ q.byFn < 64) := by and_intros <;> decide

/-- A record of the object table: a TENSOR of one element at the data page. -/
def tenB : List Byte :=
  natBytes 8 0x03010001 ++ natBytes 8 0x40000 ++ (List.replicate 5 (natBytes 4 1)).flatten ++ List.replicate 28 0
/-- Context 1 with its object table at the data page, and the entry of PASID 0 at 0x3000. -/
def ctxO : Context := { ctx1 with objtab := 0x40000 }
def objS : State :=
  ({ fe ctxO with mem := Memory.setMany mid.mem (keyHome 0 0x40040) tenB, regs := { mid.regs with pasidroot := 0x3001 } } : State).writePhys
    0x3000 (natBytes 8 1)
/-- A region whose write buffer holds a byte of a HOST page. -/
def hostRgn : Region := { rgn1 with buffer := [.atom (keyHost 0x1000) 4 0 1] }
set_option maxRecDepth 8000 in
theorem witness_TranslationEventsComplete :
    (let v (op func n : Nat) : DWord := BitVec.ofNat 64 (2 ^ 63 + op * 2 ^ 61 + func * 2 ^ 52 + n)
     let s (op func n : Nat) : State := evt mid (.fnReg 0 (v op func n))
     (s 0 0 0).ev = .fnReg 0 (v 0 0 0) ∧ (v 0 0 0).getLsbD 63 = true ∧ ((s 0 0 0).fnRegs 0).tlbinvHi.getLsbD 63 = false ∧
       fld (v 0 0 0) 61 2 = 0 ∧ (s 0 0 0).ownsPasid 0 (tlbPasid (v 0 0 0)) = true ∧
       (fld (v 1 0 2) 61 2 = 1 ∧ tlbPages (v 1 0 2) ≠ 0) ∧ (fld (v 2 63 0) 61 2 = 2 ∧ tlbFunc (v 2 63 0) ≠ 0)) ∧
    (let s : State := { evt mid (.fn 0) with fns := mid.fns.set 0 { FnRegs.reset with tlbinvHi := 2 ^ 63 } }
     (s.fnRegs 0).tlbinvHi.getLsbD 63 = true ∧ s.performAll.tlbOpen (s.fnRegs 0).tlbinvHi = false) ∧
    ((mid.dropInvalid 0 0 0 12).performAll.hostOpen 0 0 = false ∧
      ((mid.onGrp (fun g => { g with region := some hostRgn })).dropInvalid 0 0 0 12).performAll.hostOpen 0 0 = true) ∧
    (let v (op : Nat) : DWord := BitVec.ofNat 64 (2 ^ 63 + op * 2 ^ 61 + 1 * 2 ^ 16 + 1)
     let s : State := evt objS (.fnReg 0 (v 1))
     (v 1).getLsbD 63 = true ∧ (s.fnRegs 0).objctl.getLsbD 63 = false ∧ fld (v 1) 61 2 = 1 ∧ fld (v 0) 61 2 = 0 ∧
       (s.objContext (objCtx (v 1))).1 = some ctxO ∧ s.ownsCtx 0 ctxO = true ∧ objIndex (v 1) < ctxO.objn ∧
       s.hostGap ctxO.who .read (ctxO.objtab + 64) 64 = none ∧
       isOk (s.readVirt ctxO.who (ctxO.objtab + BitVec.ofNat 64 (64 * objIndex (v 1))) 64) = true ∧
       (match s.readVirt ctxO.who (ctxO.objtab + BitVec.ofNat 64 (64 * objIndex (v 1))) 64 with
        | .ok b => (recordOf b).isSome
        | .error _ => false) = true) ∧
    (let r : AtsReq := ⟨20, 0, 0, 0x80, false, 0, false, false, false⟩
     let s : State := { mid with ats := [r], time := 100000001 }
     s.ats.find? (fun q => decide (q.id = 20) && !q.pri && !q.failed) = some r ∧ (3 : Byte).toNat % 4 ≠ 0 ∧ (0 : Byte).toNat % 4 = 0 ∧
       mid.time ≤ r.since + 100000000 ∧ ({ mid with ats := [{ r with pri := true }] } : State).ats.find? (fun q => decide (q.id = 20) && q.pri && !q.held && !q.failed) =
         some { r with pri := true } ∧ r.since + 100000000 < s.time) ∧
    ((1 : Nat) ≤ 63 ∧ (63 : Nat) < 64 ∧ mid.enumerated = true ∧ mid.regs.vfEnable = false) := by and_intros <;> decide

/-- A part that is up, and one that the PF owns. -/
def up : State := mid
def owned : State := { up with regs := { up.regs with ownctl := 1 } }

theorem witness_RegisterWritesComplete :
    (owned.isUp = true ∧ up.isUp = true ∧ owned.owns (.fn 0) = true ∧ owned.regs.vfEnable = false ∧ 30 ≤ fld 46 0 6 ∧ fld 46 0 6 ≤ 46 ∧ fld 30 0 6 = 30) ∧
    (up.owns (.fn 0) = false ∧ ownerCode (.fn 0) ≠ 0 ∧ ({ owned with regs := { owned.regs with vfEnable := true } } : State).regs.vfEnable = true) ∧
    ((0x240 : Nat) ≤ 0x248 ∧ (0x248 : Nat) < 0x250 ∧ 0x248 % 8 = 0 ∧ 0x248 - 0x240 + 3 < 12 ∧ masterFn (.fn 0) < 64 ∧ masterFn (.fn 63) < 64) ∧
    (accessOk 0x202 4 = false ∧ accessOk 0x200 8 = true ∧ owned.isUp = true) := by and_intros <;> decide

/-- A posted write of one byte at the data page, through BAR4; then its request, and the same one sent. -/
def req0 (k : Option Nat) : PostReq := ⟨0, 0, [(keyHome 0 0x40000, 5)], none, k⟩
def posts (k : Option Nat) : State := { up with posts := [⟨0, 1, [req0 k]⟩] }

theorem witness_HostLinkEventsComplete :
    up.enumerated = true ∧
    (up.fnThere 0 = true ∧ [(5 : Byte)] ≠ [] ∧ (up.postReqs 0 0 0x200 (natBytes 8 1) (up.postsOf 0).count).isSome = true ∧
      (up.postReqs 0 2 0x1000 (natBytes 4 1) (up.postsOf 0).count).isSome = true) ∧ up.fnThere 1 = false ∧
    (((posts none).postsOf 0).reqs[0]? = some (req0 none) ∧ (req0 none).sentAt = none ∧
      (∀ q ∈ ((posts none).postsOf 0).reqs, q.write < (req0 none).write → q.route = (req0 none).route ∧ q.sentAt.isSome = true)) ∧
    (((posts (some 4)).postsOf 0).reqs[0]? = some (req0 (some 4)) ∧ (req0 (some 4)).sentAt = some 4 ∧
      (∀ q ∈ ((posts (some 4)).postsOf 0).reqs, q.route = 0 → ∀ k, q.sentAt = some k → 4 ≤ k) ∧ (posts (some 4)).memOk ∧
      ((req0 (some 4)).cells.map (·.1)).Nodup ∧ (∀ x ∈ (req0 (some 4)).cells, keyKind x.1 = 0)) ∧
    ((up.postsOf 0).reqs = [] ∧ (up.hostBytes 0 0 0x200 8).isSome = true ∧ up.hostBytes 0 0 0x201 8 = none) ∧
    (owned.owner = 1 ∧ up.owner ≠ 1) := by
  unfold State.memOk
  and_intros <;> decide

/-- A window that opens the first 256 KiB of die 0 to every device, and a remote read and write of group 7. -/
def win : State :=
  { up with windows := [⟨true, true, false, 1, 0, 0, 0, 0, 0x40000, 0⟩], regs := { up.regs with fdevid := 0x80000001 } }
def rrq (w : Option (List Host.Cell)) : RemoteReq := ⟨30, some 7, 1, 2, 128, w, 0, 0, 0, 0, true, none, some 1⟩
def rem (w : Option (List Host.Cell)) : State := { up with remote := [rrq w], time := 1000001 }

set_option maxRecDepth 8000 in
theorem witness_FabricEventsComplete :
    ((win.inboundKeys 3 0 4 false).isSome = true ∧ (win.inboundKeys 3 0x3FFFC 4 true).isSome = true ∧
      win.inboundKeys 3 0x40000 4 false = none) ∧
    ((rem none).remote? 30 = some (rrq none) ∧ (rrq none).sent = true ∧ (rrq none).since + 1000000 < (rem none).time ∧
      ({ rem none with time := 1000000 } : State).time ≤ (rrq none).since + 1000000 ∧ (rrq none).write = none ∧ (List.replicate 128 (1 : Byte)).length = 128 ∧ ((rem none).group? 7).isSome = true) ∧
    (let w := some [(keyRemote 2 128, (5 : Byte))]
     (rem w).remote? 30 = some (rrq w) ∧ (rrq w).write = w ∧ (rem w).inOrder (rrq w) = true) ∧
    (let l : L1Line := ⟨0, 2, 1, 1, Vector.replicate 128 5, ⟨0, 0, 1⟩⟩
     ({ up with l1 := [l] } : State).l1Line 0 2 = some l ∧ l.dirty ≠ 0) ∧
    (let s : State := up.onGrp (fun g => { g with relq := [⟨6, 0, [], 1⟩] })
     s.grp.relq = [⟨6, 0, [], 1⟩] ∧ (s.focus 7).isSome = true ∧ (s.releaseAt s.grp.coreNo 6).remoteDirty = []) ∧
    ((up.built.links ||| up.built.linkBack).getLsbD 23 = true ∧
      (let s : State := { up with built := { up.built with links := 0x7FFFFF } }
       s.made.links.getLsbD 23 = true ∧ s.built.ods.getLsbD (23 / 6) = true ∧ s.linksNow.getLsbD 23 = false)) ∧
    ({ up with time := 1000 } : State).window < ({ up with time := 1000 } : State).time / 1000 ∧ (23 : Nat) < 24 := by
  and_intros <;> decide

set_option maxRecDepth 8000 in
theorem witness_BringUpEventsComplete :
    State.reset.memOk ∧
    (let s : State := { up with regs := { up.regs with dreset := 2 ^ 63 + 7 } }
     s.regs.dreset.getLsbD 63 = true ∧ fld s.regs.dreset 0 4 < 8) ∧
    (let s : State := { up with regs := { up.regs with dreset := 2 ^ 63 + 1 } }
     fld s.regs.dreset 0 4 < 2 ∧ (s.drainX (fld s.regs.dreset 0 4)).drained1 (fld s.regs.dreset 0 4) = true) ∧
    (ownerCode .bmc ≠ 0 ∧ up.hears = true ∧ owned.hears = true ∧ keyKind (placeKey 1 5 0) = 1 ∧ up.owner = 0 ∧ owned.owner ≠ ownerCode .bmc ∧ owned.owner = ownerCode (.fn 0) ∧
      (16 : DWord).getLsbD 4 = true ∧ (16 : DWord).getLsbD 5 = false ∧ (0x108 : DWord).getLsbD 4 = false ∧ fld 0x108 2 2 ≠ 3 ∧
      (32 : DWord).getLsbD 5 = true ∧
      ({ owned with regs := { owned.regs with ownctl := 9 } } : State).handTo = ownerCode .bmc ∧ owned.handTo ≠ ownerCode .bmc) ∧
    (let s : State := { up with time := 3600000000000 }
     s.regs.healthAt + 3600000000000 ≤ s.time) ∧ (1 : Nat) < 2 ∧ dieOfCluster (clusterOfCore 383) = 1 := by
  unfold State.memOk
  and_intros <;> decide

/-- The debug window of an owner, on group 0 of instance 0 of band 0 of context 1. -/
def dbg (f : Group → Group) (r : DWord) : State :=
  { (fe ctx1).onGrp f with regs := { owned.regs with dbgtgt := 1, dbgreg := r, dbgdata := 9 } }
def dbgV (op : Nat) : DWord := BitVec.ofNat 64 (2 ^ 63 + op * 2 ^ 59)
def park (g : Group) : Group := { g with status := .parked }
def parkR (g : Group) : Group := { park g with region := some (g.newRegion rgnW) }

set_option maxRecDepth 8000 in
theorem witness_DebugWindowActs :
    ((dbgV 0).getLsbD 63 = true ∧ (dbg id 0).isUp = true ∧ (dbg id 0).owns (.fn 0) = true ∧ (dbg id 0).regs.dbgcmd.getLsbD 63 = false) ∧
    (dbgOp (dbgV 0) = 0 ∧ dbgOp (dbgV 1) = 1 ∧ dbgOp (dbgV 2) = 2 ∧ dbgOp (dbgV 3) = 3) ∧
    ((dbg id 0).debugTarget (dbgV 0) = some (dbg id 0).grp ∧ (dbg id 0).grp.isParked = false) ∧
    ((dbg park 0).debugTarget (dbgV 0) = some (dbg park 0).grp ∧ (dbg park 0).grp.isParked = true ∧
      (dbg park 0).debugStalls (dbg park 0).grp 0 = false ∧ ((dbg park 0).focus (dbg park 0).grp.id.uid).isSome = true) ∧
    ((match (dbg park 0).debugRead 0x400 with
      | .ok _ => true
      | _ => false) = true ∧
     (match (dbg park 0).grp.debugWrite 0x400 9 with
      | .ok _ => true
      | _ => false) = true ∧
     (match (dbg parkR 0).grp.debugWrec 0x409 9 with
      | .ok _ => true
      | _ => false) = true) := by and_intros <;> decide

theorem witness_NopChangesNothing : (⟨true, 0, 0, 0, 0⟩ : SR) ≠ ⟨false, 0, 0, 0, 0⟩ := by decide

theorem witness_LoadImmediateWhole :
    (let f : SR := ⟨true, 60, 0, 0, 9⟩
     f.i = true ∧ f.a = 0 ∧ f.b = 0 ∧ mid.grp.scalOk f.d = true ∧ mid.grp.liveIn f.d = false ∧ f.d ≠ 0) ∧
    (let f : SR := ⟨true, 4, 0, 0, 9⟩
     inRgn.grp.scalOk f.d = true ∧ inRgn.grp.liveIn f.d = true) := by and_intros <;> decide

theorem witness_LeaveLoopWhole :
    (let s := midG (fun g => { g with depth := 3 })
     s.grp.depth ≠ 0 ∧ s.check (s.grp.pc + 8 * cbBack.off.signExtend 64) = .ok hdr0 ∧
       isOk (s.check (s.grp.pc + 8 * cbHere.off.signExtend 64)) = false) := by and_intros <;> decide

theorem witness_OwnerRegistersKept :
    accessOk 0x238 8 = true ∧ up.isUp = true ∧ up.owns (.fn 0) = false ∧ ownerCode (.fn 0) ≠ 0 ∧ 0x238 % 4 = 0 ∧ (0x7FC : Nat) < 0x800 := by and_intros <;> decide

theorem witness_ResetAndGroupStartValues : midId.lanes ≤ 96 := by decide

/-- An instruction is in order and completes. -/
def runs (i : Instr) : Bool := i.wf && goes (exec i mid)
/-- SR words with one source, with none, and with a small immediate. -/
def srU : SR := ⟨false, 4, 6, 0, 0⟩
def srN : SR := ⟨false, 4, 0, 0, 0⟩
def srL : SR := ⟨true, 4, 0, 0, 5⟩

theorem witness_RegisterInstructionsFrame :
    (mid.grp.pc + BitVec.ofNat 64 (8 * srWords (.add srR)) ≠ mid.grp.blockEnd ∧
      mid.grp.pc + BitVec.ofNat 64 (8 * srWords (.liw srN 9)) ≠ mid.grp.blockEnd) ∧
    (runs (.add srR) = true ∧ mid.grp.writesScalar srR (.add srR)) ∧ (runs (.cmov srR) = true ∧ mid.grp.writesScalar srR (.cmov srR)) ∧
    (runs (.clz srU) = true ∧ mid.grp.writesScalar srU (.clz srU)) ∧ (runs (.sltw srR) = true ∧ mid.grp.writesScalar srR (.sltw srR)) ∧
    (runs (.li srL) = true ∧ mid.grp.writesScalar srL (.li srL)) ∧ (runs (.mffs srU) = true ∧ mid.grp.writesScalar srU (.mffs srU)) ∧
    (runs (.mtest srR) = true ∧ mid.grp.writesScalar srR (.mtest srR)) ∧
    (runs (.mand srR) = true ∧ mid.grp.writesTriple srR (.mand srR)) ∧ (runs (.mnot srU) = true ∧ mid.grp.writesTriple srU (.mnot srU)) ∧
    (runs (.mrange srR) = true ∧ mid.grp.writesTriple srR (.mrange srR)) ∧
    (runs (.mlive srN) = true ∧ mid.grp.writesTriple srN (.mlive srN)) := by
  unfold Group.writesScalar Group.writesTriple Group.srOk Group.srTripleOk
  and_intros <;> decide

theorem witness_RegisterInstructionsFrame_pairs :
    (runs (.addw srR) = true ∧ mid.grp.writesPair srR (.addw srR)) ∧ (runs (.shlw srR) = true ∧ mid.grp.writesPair srR (.shlw srR)) ∧
    (runs (.lea srR) = true ∧ mid.grp.writesPair srR (.lea srR)) ∧
    (runs (.movwCopy srU) = true ∧ mid.grp.writesPair srU (.movwCopy srU)) ∧
    (runs (.movwRelative srL) = true ∧ mid.grp.writesPair srL (.movwRelative srL)) ∧
    (runs (.liw srN 9) = true ∧ mid.grp.writesPair srN (.liw srN 9)) := by
  refine ⟨⟨by decide, .inl ⟨by decide, by unfold Group.srPairOk; decide⟩⟩,
    ⟨by decide, .inr ⟨by decide, by decide, .inl ⟨.inl (by decide), by decide, by decide⟩⟩⟩,
    ⟨by decide, .inr ⟨by decide, by decide, .inl ⟨.inr rfl, by decide, by decide⟩⟩⟩,
    ⟨by decide, .inr ⟨by decide, by decide, .inr (.inl ⟨rfl, by decide⟩)⟩⟩,
    ⟨by decide, .inr ⟨by decide, by decide, .inr (.inr (.inl rfl))⟩⟩,
    ⟨by decide, .inr ⟨by decide, by decide, .inr (.inr (.inr ⟨9, rfl⟩))⟩⟩⟩

/-! ### One step, against the spec's worked examples -/

/-- The group after one step on the word `w` at its pc, from the group that `f` makes; the state's part `h` may be set too. -/
def ran (w : Nat) (f : Group → Group) (h : State → State := id) : Option State :=
  match step (h ((midW w).onGrp f)) with
  | .next t => some t
  | _ => none
/-- A scalar, a pair, a lane and em's first word after that step. -/
def sOf (n : BitVec 6) (o : Option State) : Option Word := o.map (fun t => t.grp.rs n)
def pOf (n : BitVec 6) (o : Option State) : Option DWord := o.map (fun t => t.grp.rp n)
def vOf (n l : Nat) (o : Option State) : Option Word := o.map (fun t => t.grp.rvl n l)
/-- Lanes 0 and 1 are active, and vector register `n` holds `x` in lane 0 and `y` in lane 1. -/
def lanes2 (n : Nat) (x y : Word) (g : Group) : Group := (g.setRaw 0 3).wv n ((zeroLanes.set 0 x).set 1 y)

/-- 04_scalar.md, division by 3: 100 × 0xAAAAAAAB has the upper half 66. -/
theorem test_mulhu : sOf 8 (ran 0x2020818700000000 (fun g => (g.ws 6 100).ws 7 0xAAAAAAAB)) = some 66 := by decide
/-- The same: 66 >> 1. -/
theorem test_shr : sOf 8 (ran 0x2054820000000001 (fun g => g.ws 8 66)) = some 33 := by decide
/-- The same: 33 × 3. -/
theorem test_mul : sOf 9 (ran 0x2014920000000003 (fun g => g.ws 8 33)) = some 99 := by decide
/-- The same, a source that is also the destination: 100 - 99. -/
theorem test_sub : sOf 9 (ran 0x2008918900000000 (fun g => (g.ws 6 100).ws 9 99)) = some 1 := by decide
/-- 04_scalar.md: SLT against -1 is signed, SLTU unsigned. -/
theorem test_slt_sltu : sOf 4 (ran 0x208C_4140_FFFF_FFFF id) = some 0 ∧ sOf 4 (ran 0x2094_4140_FFFF_FFFF id) = some 1 := by
  and_intros <;> decide
/-- 04_scalar.md, launch arguments: the row address. -/
theorem test_lea : pOf 12 (ran 0x2810_C18A_0000_0000 (fun g => (g.wp 6 0x20000000000).ws 10 0x780)) = some 0x20000000780 := by decide
/-- 03_control.md, the split at lane 48: MRANGE, then MNOT of it. -/
theorem test_mrange : (ran 0x143CA00000000030 id).map (fun t => [t.grp.rs 10, t.grp.rs 11, t.grp.rs 12]) =
    some [0xFFFFFFFF, 0x0000FFFF, 0] := by decide
theorem test_mnot : (ran 0x1420D28000000000 (fun g => (g.ws 10 0xFFFFFFFF).ws 11 0xFFFF)).map
    (fun t => [t.grp.rs 13, t.grp.rs 14, t.grp.rs 15]) = some [0, 0xFFFF0000, 0xFFFFFFFF] := by decide
/-- 03_control.md: MFFS of an empty mask. -/
theorem test_mffs_none : sOf 4 (ran 0x1430_4040_0000_0000 id) = some 0xFFFFFFFF := by decide
/-- 05_vector.md, the single rounding: `VFMUL.f v11, v1, s4` sets NX. -/
theorem test_vfmul : (ran 0x4813_1604_2000_0100 (fun g => (lanes2 1 0x3F800001 0x3F800001 g).ws 4 0x3F7FFFFE)).map
    (fun t => (t.grp.rvl 11 0, t.grp.fpsr)) = some (0x3F800000, 16) := by decide +kernel
/-- The same: `VFMA.f v10, v1, s4, v10` rounds once, and sets no flag. -/
theorem test_vfma : (ran 0x481B_1404_20A0_0100 (fun g =>
    (lanes2 10 0xBF800000 0xBF800000 (lanes2 1 0x3F800001 0x3F800001 g)).ws 4 0x3F7FFFFE)).map
    (fun t => (t.grp.rvl 10 1, t.grp.fpsr)) = some (0xA8800000, 0) := by decide +kernel
/-- 05_vector.md, the fragment: VIDX gives each lane its index. -/
theorem test_vidx : vOf 20 95 (ran 0x5018280000000C00 id) = some 95 := by decide +kernel
/-- The same, with two lanes active: lanes 0 and 1 pass, and the bits of the other lanes are kept. -/
theorem test_vicmp : sOf 10 (ran 0x4400145028000302 (fun g => (lanes2 20 0 9 g).ws 10 6)) = some 5 := by decide +kernel
/-- 06_narrow_formats.md, stochastic rounding at work: the seeds. -/
theorem test_vrngs : (ran 0x6400001000000400 (fun g => g.ws 4 1)).map (fun t => (t.grp.gen[0]?, t.grp.gen[1]?)) =
    some (some 1, some 0x10000) := by decide +kernel
/-- The same: lane 0 rounds down to 0x40, lane 1 up to 0x41, NX. -/
theorem test_vcvt8 : (ran 0x601B0A040000303C (fun g => { lanes2 1 0x3F8F8000 0x3F8F8000 g with gen := (g.gen.set 0 1).set 1 0x10000 })).map
    (fun t => (t.grp.rvl 5 0, t.grp.rvl 5 1, t.grp.fpsr)) = some (0x40, 0x41, 16) := by decide +kernel
/-- The same: the next draws. -/
theorem test_vrng : (ran 0x64080C0000000000 (fun g => { g.setRaw 0 3 with gen := (g.gen.set 0 0x42021).set 1 0x20231000 })).map
    (fun t => (t.grp.rvl 6 0, t.grp.rvl 6 1)) = some (0x04080601, 0x06451331) := by decide +kernel
/-- 10_group_operations.md: keys -0, NaN, +0 and another NaN: lanes 0 and 2 receive (0, 2), lanes 1 and 3 (1, 2). -/
theorem test_vmatch : (ran 0xB013_0404_0000_0000 (fun g =>
      (g.setRaw 0 15).wv 1 ((((zeroLanes.set 0 0x80000000).set 1 0x7FC00000).set 2 0).set 3 0x7FA00001))).map
    (fun t => [t.grp.rvl 2 0, t.grp.rvl 3 0, t.grp.rvl 2 1, t.grp.rvl 2 2, t.grp.rvl 2 3, t.grp.rvl 3 3]) =
    some [0, 2, 1, 0, 1, 2] := by decide +kernel
/-- R190: the ballot clears the bits of the lanes that do not take part. -/
theorem test_vvote_ballot : sOf 10 (ran 0xB000_1404_0000_0003 (fun g => (lanes2 1 0 7 g).ws 10 0xFFFFFFFF)) = some 2 := by decide +kernel
/-- R194: the sum of the active lanes, with the wrap of 32 bits. -/
theorem test_vred : sOf 4 (ran 0xB018_0804_0000_0000 (lanes2 1 0xFFFFFFFF 3)) = some 2 := by decide +kernel
/-- 07_memory_access.md: `SLD s8, [s4:s5 + 64]`; the byte at the lowest address is the least significant (R3). -/
theorem test_sld : sOf 8 (ran 0x8004204000000040 (fun g => g.wp 4 0x40000)
    (fun s => { s with mem := Memory.setMany s.mem (keyHome 0 0x40040) [1, 2, 3, 4] })) = some 0x04030201 := by decide
/-- 08_ordering.md, P 3: `SST s10, [s6:s7]`, into the core's L1 (R134). -/
theorem test_sst : (ran 0x800C_2860_0000_0000 (fun g => (g.wp 6 0x40000).ws 10 0x04030201)).map
    (fun t => (keyRun (keyHome 0 0x40000) 4).map (t.loadByte .l1)) = some [1, 2, 3, 4] := by decide +kernel
/-- R172: an atomic add leaves the sum in memory and gives the value before. -/
theorem test_satom : (ran 0xA004_0847_F000_0000 (fun g => (g.wp 8 0x40000).ws 4 5)
    (fun s => { s with mem := Memory.setMany s.mem (keyHome 0 0x40000) [7] })).map
    (fun t => (t.grp.rs 4, t.mem.get (keyHome 0 0x40000))) = some (7, 12) := by decide
/-- 25_program_inbound_write.md, word 1: KARG into a pair. -/
theorem test_rds_karg : pOf 4 (ran 0xE80440000000000C (fun g => { g with id := { g.id with karg := 0x123456789 } })) =
    some 0x123456789 := by decide
/-- R76: NOP moves the pc and counts one instruction. -/
theorem test_nop : (ran 0x1010000000000000 id).map (fun t => (t.grp.pc, t.grp.retired)) = some (16, 1) := by decide
/-- R273, R274, R277: TRAP 7 with a handler: the next word's address, the cause with ARG and HND, and the handler's block. -/
theorem test_trap : (match exec (.trap ⟨true, 0, 0, 0, 7⟩) (midH 16) with
    | .next t => some (t.grp.trappc, t.grp.trapc, t.grp.pc)
    | _ => none) = some (16, 0x80070002, 8) := by decide
/-- R96: a bank of a guaranteed group that compression leaves unused is spare for a harvest group and for no other. -/
theorem test_spare_bank : (match mid.run (.compress 0 3) with
    | .next t => some ((t.freeBanks 0 1).contains 3, (t.freeBanks 0 0).contains 3, (t.freeBanks 0 1).contains 2)
    | _ => none) = some (true, false, false) := by decide
/-- R361: the first step brings the part up. -/
theorem test_boot : (match step State.reset with
    | .next t => some (t.isUp, t.agenda.isEmpty)
    | _ => none) = some (true, true) := by decide
/-- R335: a TCSEL value of 13 reads as 0, one of 12 as it is. -/
theorem test_tcsel_reserved : (match exec .tcselWrite { owned with ev := .reg (.fn 0) 0x240 4 0x0C0D } with
    | .next t => some (t.regs.tcsel[0], t.regs.tcsel[1])
    | _ => none) = some (0, 12) := by decide
/-- R300: DESTROY is accepted of a queue in ERROR whose entries are no longer there. -/
theorem test_destroy_error : (match exec .qctlDestroy { fe ctx1 with
      queues := [{ que0 with state := .error }], ev := .fnReg 0 (BitVec.ofNat 64 (2 ^ 63 + 2 ^ 60 + 9)) } with
    | .next t => some ((t.queues[0]?).map (·.state), (t.fnRegs 0).qctl.getLsbD 63)
    | _ => none) = some (some .destroying, true) := by decide
/-- R358, R355: past the window's boundary a link that has come back is there, and its loss takes it away. -/
theorem test_link_loss_rejoined : (match exec .linkLoss { up with
      time := 1000, built := { up.built with links := 0x7FFFFF, linkBack := 0x800000 }, ev := .link 23 } with
    | .next t => some (t.linksNow.getLsbD 23, t.linksNow.getLsbD 22)
    | _ => none) = some (false, true) := by decide

end Sys2Proof.Tests
end

section
/-! PROOFS. The watchdogs, the fairness of issue, the sweep of a bank and machine checks (01_machine.md R27, 05_vector.md R97,
09_synchronisation.md R178, R179, 15_system_and_traps.md R281, R283, R289). -/

namespace Sys2Proof.Machine

open Sys2Proof

/-! ### The arms of the event rows -/

theorem exec_barrierWatchdogExpiry (s : State) : exec .barrierWatchdogExpiry s = execBarrierWatchdogExpiry s := rfl
theorem exec_progressWatchdogExpiry (s : State) : exec .progressWatchdogExpiry s = execProgressWatchdogExpiry s := rfl
theorem exec_issueFairnessRaise (s : State) : exec .issueFairnessRaise s = execIssueFairnessRaise s := rfl
theorem exec_bankSweep (s : State) : exec .bankSweep s = execBankSweep s := rfl
theorem exec_machineCheck (s : State) : exec .machineCheck s = execMachineCheck s := rfl

/-- An event of a group runs in the state whose focus that group is. -/
theorem withGroup_of_focus {s t : State} {uid : Nat} (row : String) (k : State → Out) (hev : s.ev = .group uid)
    (ht : s.focus uid = some t) : withGroup row s k = k t := by
  simp only [withGroup, hev, ht]

/-! ### The barrier watchdog (R178) -/

/-- The machine as a broken barrier leaves it before the kill that follows: its record is written, BARTMO is taken by every waiting
member, and the phase is counted no more. -/
def State.breakBarrier (s : State) (band : Band) (inst bar : Nat) (b : Barrier) (waited : Nat) : State :=
  let t := s.faultRecord band.ctx (s.barrierRecord band inst bar b waited)
  (t.trapAll { cause := .bartmo } ((t.groups.filter (fun g => g.waitsOn band.uid inst bar)).map (fun g => g.id.uid))).onBarrier
    band.uid inst bar (fun x => { x with first := none })

theorem State.killRecorded_of_none {s : State} {ctx : Nat} (h : ∀ r ∈ s.records, r.1 ≠ ctx) :
    s.killRecorded ctx = s.killContext ctx := by
  have hno : s.records.any (fun r => r.1 = ctx) = false := by simpa using h
  rw [State.killRecorded, hno]
  rfl

theorem State.killRecorded_of_mem {s : State} {ctx : Nat} (h : ∃ r ∈ s.records, r.1 = ctx) :
    s.killRecorded ctx =
      { s with ctxs := s.ctxs.map (fun c => if c.num = ctx then { c with killDue := true } else c) } := by
  have hany : s.records.any (fun r => r.1 = ctx) = true := by simpa using h
  rw [State.killRecorded, hany]
  rfl

/-- The uid of a band that is found is the one asked for. -/
theorem State.band?_uid {s : State} {u : Nat} {b : Band} (h : s.band? u = some b) : b.uid = u := by
  simpa using List.find?_some h

/-- BARRIER_WATCHDOG_EXPIRY breaks a barrier whose count has reached its limit, while no member is away and no kill is due. -/
theorem execBarrierWatchdogExpiry_breaks {s : State} {u inst bar waited limit : Nat} {band : Band} {b : Barrier}
    (hev : s.ev = .barrier u inst bar) (hband : s.band? u = some band) (hbar : s.barAt u inst bar = some b)
    (hclock : s.barClock b = some (waited, limit)) (hover : limit ≤ waited) (haway : s.memberAway u inst bar = false)
    (hdue : s.killIsDue band.ctx = false) :
    execBarrierWatchdogExpiry s = .next ((s.breakBarrier band inst bar b waited).killRecorded band.ctx) := by
  have hu := State.band?_uid hband
  subst hu
  simp [execBarrierWatchdogExpiry, State.breakBarrier, hev, hband, hbar, hclock, hover, haway, hdue]

/-! ### The progress watchdog and the fairness of issue (R283, R27) -/

theorem execProgressWatchdogExpiry_over {s t : State} {uid : Nat} (hev : s.ev = .group uid) (ht : s.focus uid = some t)
    (hready : t.grp.status = .ready) (hover : 2 ^ (t.grp.wdcfg.extractLsb' 8 8).toNat < t.grp.progress) :
    execProgressWatchdogExpiry s = .next t.progressTrap := by
  have hlim : t.grp.overLimit = true := by simpa [Group.overLimit] using hover
  rw [execProgressWatchdogExpiry, withGroup_of_focus _ _ hev ht]
  simp [hlim, hready]

theorem execIssueFairnessRaise_unchosen {s t : State} {uid : Nat} (hev : s.ev = .group uid) (ht : s.focus uid = some t)
    (hready : t.grp.status = .ready) (hlow : t.grp.raised = false) (hlong : 64 ≤ t.grp.unchosen) :
    execIssueFairnessRaise s = .next (t.onGrp (fun g => { g with raised := true })) := by
  rw [execIssueFairnessRaise, withGroup_of_focus _ _ hev ht]
  simp [hready, hlow, hlong]

/-! ### The sweep of a bank (R97) -/

/-- The bank has been swept, and is not among those that still wait for their turn. -/
def State.swept (s : State) (slice bank : Nat) : State :=
  { s with
    unswept := s.unswept.filter (fun b => b ≠ (slice, bank)), waking := s.waking.filter (fun b => b ≠ (slice, bank)) }

theorem execBankSweep_clean {s : State} {slice bank : Nat} (hev : s.ev = .bank slice bank true)
    (hin : s.unswept.contains (slice, bank) = true) (hdue : s.sweepDue slice bank = true) :
    execBankSweep s = .next (s.swept slice bank) := by
  simp only [execBankSweep, hev, hin, hdue, Bool.and_self, if_true, State.swept]

/-- As `State.swept`, of a sweep that has failed: the syndrome that its record shows is a free value. -/
def State.sweptFailed (s : State) (slice bank : Nat) : State := { s.swept slice bank with freeIx := s.freeIx + 1 }

/-- A failed sweep of a bank that holds a group's registers is a machine check on the group's context. -/
theorem execBankSweep_failed_owned {s : State} {slice bank : Nat} {g : Group} (hev : s.ev = .bank slice bank false)
    (hin : s.unswept.contains (slice, bank) = true) (hdue : s.sweepDue slice bank = true)
    (hown : s.bankOwner slice bank = some g) :
    execBankSweep s = .next ((s.sweptFailed slice bank).eccContext g.id.ctx (s.sweepRecord 1 slice bank)) := by
  simp only [execBankSweep, hev, hin, hdue, hown, Bool.and_self, if_true, Bool.false_eq_true, if_false,
    State.sweptFailed, State.swept]

/-- A failed sweep of a bank that holds no group's registers is a corrected error. -/
theorem execBankSweep_failed_unowned {s : State} {slice bank : Nat} (hev : s.ev = .bank slice bank false)
    (hin : s.unswept.contains (slice, bank) = true) (hdue : s.sweepDue slice bank = true)
    (hown : s.bankOwner slice bank = none) :
    execBankSweep s = .next ((s.sweptFailed slice bank).corrected (s.sweepRecord 0 slice bank)) := by
  simp only [execBankSweep, hev, hin, hdue, hown, Bool.and_self, if_true, Bool.false_eq_true, if_false,
    State.sweptFailed, State.swept]

/-! ### Machine checks (R289) -/

@[simp] theorem State.corrected_outbox (s : State) (r : List Byte) :
    (s.corrected r).outbox = .errorLog 0 r :: s.outbox := rfl
@[simp] theorem State.corrected_grp (s : State) (r : List Byte) : (s.corrected r).grp = s.grp := rfl
@[simp] theorem State.corrected_count (s : State) (r : List Byte) :
    (s.corrected r).regs.corrected = s.regs.corrected + 1 := rfl
@[simp] theorem State.reportFatal_outbox (s : State) : s.reportFatal.outbox = .fatal :: s.outbox := rfl
@[simp] theorem State.reportFatal_due (s : State) : s.reportFatal.regs.fatalDue = true := rfl
@[simp] theorem State.reportFatal_mem (s : State) : s.reportFatal.mem = s.mem := rfl

/-- An uncorrectable error of a context ends with the kill of the context. -/
theorem State.eccContext_kills (s : State) (ctx : Nat) (r : List Byte) :
    ∃ t : State, s.eccContext ctx r = t.killContext ctx := ⟨_, rfl⟩

theorem execMachineCheck_context {s : State} {unit ctx : Nat} {die cluster core slice : Byte} {loc synd : DWord}
    (hev : s.ev = .check unit (some ctx) die cluster core slice loc synd) :
    execMachineCheck s = .next (s.eccContext ctx (s.checkRecord unit 1 die cluster core slice loc synd)) := by
  simp only [execMachineCheck, hev]

theorem execMachineCheck_part {s : State} {unit : Nat} {die cluster core slice : Byte} {loc synd : DWord}
    (hev : s.ev = .check unit none die cluster core slice loc synd) :
    execMachineCheck s =
      .next (s.send (.errorLog 2 (s.checkRecord unit 2 die cluster core slice loc synd))).reportFatal := by
  simp only [execMachineCheck, hev]

end Sys2Proof.Machine

open Sys2Proof Sys2Proof.Machine

/-- Settles O44: each event row, where its occasion holds, is the one operation that its rule names. -/
theorem watchdogsAndChecks : Obligations.WatchdogsAndChecks := by
  unfold Obligations.WatchdogsAndChecks
  refine ⟨?barrier, ?group, ?sweep, ?check⟩
  case barrier =>
    intro s u inst bar waited limit band b hev hband hbar hclock hover haway hdue
    have hrun := execBarrierWatchdogExpiry_breaks hev hband hbar hclock hover haway hdue
    have hu := State.band?_uid hband
    subst hu
    refine ⟨_, s.breakBarrier band inst bar b waited, rfl, rfl, fun hnone => ?_, fun hsome => ?_⟩
    · rw [exec_barrierWatchdogExpiry, hrun, State.killRecorded_of_none hnone]
    · rw [exec_barrierWatchdogExpiry, hrun, State.killRecorded_of_mem hsome]
  case group =>
    intro s t uid hev ht hready
    refine ⟨fun hover => ?_, fun hlow hlong => ?_⟩
    · exact (exec_progressWatchdogExpiry s).trans (execProgressWatchdogExpiry_over hev ht hready hover)
    · exact (exec_issueFairnessRaise s).trans (execIssueFairnessRaise_unchosen hev ht hready hlow hlong)
  case sweep =>
    intro s slice bank hin hdue
    refine ⟨fun hev => ?_, fun hev => ⟨fun g hg => ?_, fun hnone => ?_⟩⟩
    · exact (exec_bankSweep s).trans (execBankSweep_clean hev hin hdue)
    · obtain ⟨t, ht⟩ := (s.sweptFailed slice bank).eccContext_kills g.id.ctx (s.sweepRecord 1 slice bank)
      exact ⟨t, ht ▸ (exec_bankSweep s).trans (execBankSweep_failed_owned hev hin hdue hg)⟩
    · exact ⟨_, _, (exec_bankSweep s).trans (execBankSweep_failed_unowned hev hin hdue hnone), State.corrected_outbox _ _,
        State.corrected_grp _ _, State.corrected_count _ _⟩
  case check =>
    intro s unit die cluster core slice loc synd
    refine ⟨fun ctx hev => ?_, fun hev => ?_⟩
    · obtain ⟨t, ht⟩ := s.eccContext_kills ctx (s.checkRecord unit 1 die cluster core slice loc synd)
      exact ⟨t, ht ▸ (exec_machineCheck s).trans (execMachineCheck_context hev)⟩
    · exact ⟨_, (exec_machineCheck s).trans (execMachineCheck_part hev), by simp, by simp, by simp⟩
end

section
/-! SUPPORT. The bands, the groups beside the one in focus, and the contexts are no part of memory: no access, no release, no
acquire and no count of one changes them. -/

namespace Sys2Proof.Machine

open Sys2Proof

/-- What the part is at work on: what accesses to memory leave as it is. -/
structure Work where
  others : List Group
  bands : List Band
  fields : List Field
  ctxs : List Context
  copies : List CopyCmd

/-- What the machine is at work on. -/
def State.work (s : State) : Work := ⟨s.others, s.bands, s.fields, s.ctxs, s.copies⟩

theorem State.bands_of_work {s t : State} (h : t.work = s.work) : t.bands = s.bands := congrArg Work.bands h
theorem State.ctxs_of_work {s t : State} (h : t.work = s.work) : t.ctxs = s.ctxs := congrArg Work.ctxs h

/-- A walk of a list by what keeps a view of the machine keeps it. -/
theorem State.foldl_keeps {α β : Type} (view : State → β) (h : State → α → State)
    (hk : ∀ (s : State) (x : α), view (h s x) = view s) (xs : List α) (s : State) : view (xs.foldl h s) = view s := by
  induction xs generalizing s with
  | nil => rfl
  | cons x xs ih => exact (ih (h s x)).trans (hk s x)

/-! ### Counts, and lines that come into a cache -/

theorem State.OnlyCounts.work_eq {s t : State} (h : s.OnlyCounts t) : t.work = s.work := by
  obtain ⟨r, rfl⟩ := h; rfl

@[simp] theorem State.countEvent_work (s : State) (f sel n : Nat) : (s.countEvent f sel n).work = s.work :=
  (s.countEvent_only f sel n).work_eq

@[simp] theorem State.countMsc_work (s : State) (f l : Nat) : (s.countMsc f l).work = s.work :=
  (s.countMsc_only f l).work_eq

@[simp] theorem State.walkVas_work (s : State) (f p : Nat) (as : List Nat) : (s.walkVas f p as).work = s.work :=
  (s.walkVas_only f p as).work_eq

@[simp] theorem State.walkFront_work (s : State) (w : Who) (a : DWord) (n : Nat) : (s.walkFront w a n).work = s.work :=
  s.walkVas_work _ _ _

@[simp] theorem State.mscKeep_work (s : State) (t l : Nat) : (s.mscKeep t l).work = s.work := by
  unfold State.mscKeep
  split
  · rfl
  · split
    · rfl
    · exact s.countEvent_work _ _ _

@[simp] theorem State.mscWrite_work (s : State) (t l : Nat) : (s.mscWrite t l).work = s.work := by
  unfold State.mscWrite
  rw [State.mscKeep_work]
  split <;> simp

@[simp] theorem State.countWrite_work (s : State) (t c l : Nat) : (s.countWrite t c l).work = s.work := by
  unfold State.countWrite
  split <;> simp

@[simp] theorem State.atMsc_work (s : State) (t : Nat) (r : Bool) (ks : List Nat) : (s.atMsc t r ks).work = s.work :=
  State.foldl_keeps State.work _ (fun u l => by split <;> simp) _ s

@[simp] theorem State.allocL2_work (s : State) (x : L2Line) : (s.allocL2 x).work = s.work := by
  unfold State.allocL2
  split <;> rfl

@[simp] theorem State.fillL2_work (s : State) (c l k p : Nat) : (s.fillL2 c l k p).work = s.work := by
  unfold State.fillL2
  dsimp only
  split
  · rfl
  · exact s.allocL2_work _

@[simp] theorem State.wroteL2_work (s : State) (c : Nat) (w : Want) (l : Nat) : (s.wroteL2 c w l).work = s.work := by
  unfold State.wroteL2
  dsimp only
  split
  · split <;> simp
  · simp

@[simp] theorem State.wroteLines_work (s : State) (c : Nat) (w : Want) (ks : List Nat) :
    (s.wroteLines c w ks).work = s.work :=
  State.foldl_keeps State.work _ (fun u l => u.wroteL2_work c w l) _ s

/-! ### Writes -/

@[simp] theorem State.setBacking_work (s : State) (k : Nat) (x : Byte) : (s.setBacking k x).work = s.work := by
  unfold State.setBacking
  split <;> rfl

@[simp] theorem State.writeL2Byte_work (s : State) (c k : Nat) (x : Byte) : (s.writeL2Byte c k x).work = s.work :=
  s.setBacking_work k x

@[simp] theorem State.writeL1Byte_work (s : State) (c : Nat) (w : Want) (k : Nat) (x : Byte) :
    (s.writeL1Byte c w k x).work = s.work := by
  unfold State.writeL1Byte
  split <;> rfl

@[simp] theorem State.storeByte_work (s : State) (c : Nat) (thru : Bool) (w : Want) (k : Nat) (x : Byte) :
    (s.storeByte c thru w k x).work = s.work := by
  unfold State.storeByte
  split
  · split
    · exact s.writeL2Byte_work (clusterOfCore c) k x
    · exact s.writeL1Byte_work c w k x
  · rfl

@[simp] theorem State.storeCells_work (s : State) (thru : Bool) (w : Want) (cs : List Host.Cell) :
    (s.storeCells thru w cs).work = s.work := by
  induction cs generalizing s with
  | nil => rfl
  | cons c cs ih => rw [State.storeCells, ih, State.storeByte_work]

@[simp] theorem State.storeLines_work (s : State) (thru : Bool) (cp : Nat) (cs : List Host.Cell) :
    (s.storeLines thru cp cs).work = s.work := by
  unfold State.storeLines
  rw [State.storeCells_work]
  split <;> simp

@[simp] theorem State.writeCoherent_work (s : State) (k : Nat) (xs : List Byte) : (s.writeCoherent k xs).work = s.work := by
  induction xs generalizing s k with
  | nil => rfl
  | cons x xs ih =>
    rw [State.writeCoherent, ih]
    exact s.setBacking_work k x

@[simp] theorem State.throughHost_work (s : State) (k : Nat) (x : Byte) : (s.throughHost k x).work = s.work := by
  unfold State.throughHost
  split <;> rfl

@[simp] theorem State.writeKeys_work (s : State) (ks : List Nat) (xs : List Byte) : (s.writeKeys ks xs).work = s.work := by
  induction ks generalizing s xs with
  | nil => cases xs <;> rfl
  | cons k ks ih =>
    cases xs with
    | nil => rfl
    | cons x xs => rw [State.writeKeys, ih, State.throughHost_work, State.writeCoherent_work]

@[simp] theorem State.writePhys_work (s : State) (a : Nat) (xs : List Byte) : (s.writePhys a xs).work = s.work := by
  induction xs generalizing s a with
  | nil => rfl
  | cons x xs ih =>
    rw [State.writePhys, ih]
    split <;> simp

@[simp] theorem State.sendHost_work (s : State) (f p : Nat) (cs : List Host.Cell) : (s.sendHost f p cs).work = s.work := rfl

/-- A write of the front end, where it is made. -/
theorem State.writeVirt_work {s t : State} {w : Who} {a : DWord} {xs : List Byte} (h : s.writeVirt w a xs = .ok t) :
    t.work = s.work := by
  unfold State.writeVirt at h
  split at h
  · cases h
    simp
  · cases h

/-! ### Releases and acquires -/

@[simp] theorem State.writeBackBytes_work (s : State) (c : Nat) (l : L1Line) (os : List Nat) :
    (s.writeBackBytes c l os).work = s.work := by
  induction os generalizing s with
  | nil => rfl
  | cons o os ih =>
    rw [State.writeBackBytes, ih]
    split <;> simp

@[simp] theorem State.writeBackLine_work (s : State) (c : Nat) (l : L1Line) : (s.writeBackLine c l).work = s.work := by
  unfold State.writeBackLine
  split
  · rfl
  · rw [State.writeBackBytes_work]
    split <;> simp

@[simp] theorem State.writeBackAll_work (s : State) (c : Nat) (ls : List L1Line) : (s.writeBackAll c ls).work = s.work := by
  induction ls generalizing s with
  | nil => rfl
  | cons l ls ih =>
    rw [State.writeBackAll, ih]
    split <;> simp

@[simp] theorem State.cleanCore_work (s : State) (c : Nat) : (s.cleanCore c).work = s.work := s.writeBackAll_work c s.l1

@[simp] theorem State.cleanLine_work (s : State) (c l : Nat) : (s.cleanLine c l).work = s.work := by
  unfold State.cleanLine
  split
  · exact s.writeBackLine_work _ _
  · rfl

@[simp] theorem State.evictL1_work (s : State) (c l : Nat) : (s.evictL1 c l).work = s.work := s.cleanLine_work c l

@[simp] theorem State.invalidateStale_work (s : State) (c n : Nat) : (s.invalidateStale c n).work = s.work := by
  unfold State.invalidateStale
  split <;> rfl

@[simp] theorem State.flushHost_work (s : State) : s.flushHost.work = s.work := rfl

@[simp] theorem State.noteOrigin_work (s : State) (o : Origin) (ks : List Nat) : (s.noteOrigin o ks).work = s.work := rfl

@[simp] theorem State.releaseAt_work (s : State) (c n : Nat) : (s.releaseAt c n).work = s.work := by
  unfold State.releaseAt
  dsimp only
  split
  · rfl
  · split <;> simp

@[simp] theorem State.acquireAt_work (s : State) (c n : Nat) : (s.acquireAt c n).work = s.work := by
  unfold State.acquireAt
  dsimp only
  split
  · rfl
  · split <;> rfl

/-! ### Requests to other devices and to the host -/

@[simp] theorem State.request_work (s : State) (o : Origin) (g : Option Nat) (p : Option (Nat × Bool)) (q : Option Nat)
    (d a : Nat) (w : Option (List Host.Cell)) : (s.request o g p q d a w).work = s.work := rfl

@[simp] theorem State.requestWrites_work (s : State) (xs : List (Nat × List Host.Cell)) :
    (s.requestWrites xs).work = s.work := by
  induction xs generalizing s with
  | nil => rfl
  | cons x xs ih => rw [State.requestWrites, ih, State.request_work]

@[simp] theorem State.sendRemoteWrites_work (s : State) (cs : List Host.Cell) : (s.sendRemoteWrites cs).work = s.work :=
  s.requestWrites_work _

@[simp] theorem State.askFront_work (s : State) (f p v : Nat) : (s.askFront f p v).work = s.work := by
  unfold State.askFront
  split <;> rfl

@[simp] theorem State.askKeys_work (s : State) (w : Who) (ks : List Nat) : (s.askKeys w ks).work = s.work :=
  s.atMsc_work w.fn true ks

/-! ### A group's waiting stores, and its lines as it leaves its core -/

@[simp] theorem State.onGrp_work (s : State) (f : Group → Group) : (s.onGrp f).work = s.work := rfl

@[simp] theorem State.dropOtherL2_work (s : State) (c l : Nat) : (s.dropOtherL2 c l).work = s.work := rfl

@[simp] theorem State.drainChannel_work (s : State) (n : Nat) : (s.drainChannel n).work = s.work := by
  rw [State.drainChannel, State.onGrp_work]
  exact State.foldl_keeps State.work _ (fun t _ => t.dropOtherL2_work _ _) _ s

@[simp] theorem State.performRel_work (s : State) (r : RelStore) : (s.performRel r).work = s.work := by
  unfold State.performRel
  dsimp only
  have hdrain : (if r.chan = 0 then s else s.drainChannel r.chan).work = s.work := by split <;> simp
  split <;> simp [hdrain]

@[simp] theorem State.settleFar_work (s : State) (rs : List RelStore) : (State.settleFar rs s).work = s.work := by
  induction rs generalizing s with
  | nil => rfl
  | cons r rs ih =>
    rw [State.settleFar]
    split <;> simp [ih]

@[simp] theorem State.settleNow_work (s : State) : s.settleNow.work = s.work := s.settleFar_work _

@[simp] theorem State.finishStores_work (s : State) : s.finishStores.work = s.work := by
  rw [State.finishStores, State.onGrp_work, ← s.settleNow_work]
  exact State.foldl_keeps State.work _ (fun t _ => t.dropOtherL2_work _ _) _ s.settleNow

@[simp] theorem State.dropReads_work (s : State) (uid : Nat) : (s.dropReads uid).work = s.work := rfl

@[simp] theorem State.keepPrivate_work (s : State) (uid : Nat) : (s.keepPrivate uid).work = s.work := by
  rw [State.keepPrivate]
  exact State.foldl_keeps State.work _ (fun t _ => t.evictL1_work _ _) _ s

@[simp] theorem State.leavesCore_work (s : State) : s.leavesCore.work = s.work := by
  rw [State.leavesCore, State.dropReads_work, State.keepPrivate_work]

@[simp] theorem State.wake_work (s : State) (core : Nat) (first : List (Nat × Nat)) : (s.wake core first).work = s.work := by
  unfold State.wake
  split <;> rfl

@[simp] theorem State.serve_work (s : State) (i : Nat) : (s.serve i).work = s.work := by
  unfold State.serve
  split <;> rfl

@[simp] theorem State.releaseBand_work (s : State) (b : Band) : (s.releaseBand b).work = s.work :=
  State.foldl_keeps State.work _ (fun t core => t.releaseAt_work core 6) _ s

end Sys2Proof.Machine
end

section
/-! PROOFS. Bands are placed whole, or assigned, and retire (01_machine.md R22, 08_ordering.md R164,
16_launch_and_scheduling.md R310, R313). -/

namespace Sys2Proof.Machine

open Sys2Proof

/-! ### Reports leave the placed bands as they are (R278, R313, R314, R403) -/

/-- The placed bands, and the groups beside the one in focus: what a report leaves as it is, although the record of one that fails
changes its context. -/
def State.placed (s : State) : List Group × List Band := (s.others, s.bands)

theorem State.others_of_placed {s t : State} (h : t.placed = s.placed) : t.others = s.others := congrArg Prod.fst h
theorem State.bands_of_placed {s t : State} (h : t.placed = s.placed) : t.bands = s.bands := congrArg Prod.snd h
theorem State.placed_of_work {s t : State} (h : t.work = s.work) : t.placed = s.placed :=
  congrArg (fun w : Work => (w.others, w.bands)) h

@[simp] theorem State.send_placed (s : State) (m : OutMsg) : (s.send m).placed = s.placed := rfl
@[simp] theorem State.setCtx_placed (s : State) (c : Context) : (s.setCtx c).placed = s.placed := rfl
@[simp] theorem State.dropFailed_others (s : State) (w : Who) : (s.dropFailed w).others = s.others := rfl
@[simp] theorem State.dropFailed_bands (s : State) (w : Who) : (s.dropFailed w).bands = s.bands := rfl
@[simp] theorem State.dropFailed_band? (s : State) (w : Who) (u : Nat) : (s.dropFailed w).band? u = s.band? u := rfl
@[simp] theorem State.onField_placed (s : State) (u : Nat) (h : Field → Field) : (s.onField u h).placed = s.placed := rfl
@[simp] theorem State.onSub_placed (s : State) (u i : Nat) (h : SubLaunch → SubLaunch) : (s.onSub u i h).placed = s.placed := rfl
@[simp] theorem State.walkFront_placed (s : State) (w : Who) (a : DWord) (n : Nat) : (s.walkFront w a n).placed = s.placed :=
  State.placed_of_work (s.walkFront_work w a n)
@[simp] theorem State.askFront_placed (s : State) (f p v : Nat) : (s.askFront f p v).placed = s.placed :=
  State.placed_of_work (s.askFront_work f p v)

/-- The write of a record, made or refused. -/
theorem State.writeVirt_or_walk_placed (s : State) (w : Who) (a : DWord) (xs : List Byte) (n : Nat) :
    (match s.writeVirt w a xs with
      | .ok t => t
      | .error _ => s.walkFront w a n).placed = s.placed := by
  split
  · next t h => exact State.placed_of_work (State.writeVirt_work h)
  · exact s.walkFront_placed w a n

@[simp] theorem State.writeRecord_placed (s : State) (ctx : Nat) (xs : List Byte) : (s.writeRecord ctx xs).placed = s.placed := by
  unfold State.writeRecord
  split
  · rfl
  next c _ =>
  have hask (ks : List Nat) : (s.askKeys c.who ks).placed = s.placed := State.placed_of_work (s.askKeys_work c.who ks)
  dsimp only
  rw [State.send_placed]
  split
  · split
    · next t h =>
      rw [State.setCtx_placed, State.placed_of_work (State.writeVirt_work h)]
      exact (State.writeVirt_or_walk_placed _ _ _ _ _).trans (hask _)
    · rw [State.send_placed, State.walkFront_placed]
      exact (State.writeVirt_or_walk_placed _ _ _ _ _).trans (hask _)
  · exact (State.writeVirt_or_walk_placed _ _ _ _ _).trans (hask _)

@[simp] theorem State.faultRecord_placed (s : State) (ctx : Nat) (xs : List Byte) : (s.faultRecord ctx xs).placed = s.placed := by
  unfold State.faultRecord
  split
  · rfl
  · split
    · exact State.askFront_placed _ _ _ _
    · exact s.writeRecord_placed ctx xs

@[simp] theorem State.frontWrite_placed (s : State) (q : Queue) (b : Bundle) (i which : Nat) (a : DWord) (xs : List Byte) :
    (s.frontWrite q b i which a xs).placed = s.placed := by
  unfold State.frontWrite
  split
  · next t h => exact State.placed_of_work (State.writeVirt_work h)
  · rw [State.frontRecord, State.faultRecord_placed, State.onSub_placed, State.walkFront_placed]

@[simp] theorem State.fireLevel_placed (s : State) (q : Queue) (b : Bundle) (f : Field) (l : Level) :
    (s.fireLevel q b f l).placed = s.placed := by
  unfold State.fireLevel
  dsimp only
  split <;> split <;> simp

@[simp] theorem State.fireLevels_placed (s : State) (u : Nat) (ls : List Level) : (s.fireLevels u ls).placed = s.placed := by
  induction ls generalizing s with
  | nil => rfl
  | cons l ls ih =>
    rw [State.fireLevels]
    refine (ih _).trans ?_
    split
    · split
      · split <;> simp
      · rfl
    · rfl

@[simp] theorem State.reportBand_placed (s : State) (u bandx cluster : Nat) : (s.reportBand u bandx cluster).placed = s.placed := by
  unfold State.reportBand
  split
  · rfl
  · dsimp only
    rw [State.fireLevels_placed]
    split
    · split <;> simp
    · simp

/-! ### The placement of a band (R22, R310) -/

@[simp] theorem State.onBand_length (s : State) (u : Nat) (h : Band → Band) :
    (s.onBand u h).bands.length = s.bands.length := by
  rw [State.onBand, List.length_map]

theorem State.placeGroup_bands {s t : State} {f : Field} {c : Context} {band bandx : Nat} {i : InstAt} {x : StageDesc}
    {grpx core slice : Nat} (h : s.placeGroup f c band bandx i x grpx core slice = some t) : t.bands = s.bands := by
  unfold State.placeGroup at h
  dsimp only at h
  split at h
  · cases h
    exact congrArg Work.bands (s.wake_work _ _)
  · cases h

theorem State.placeGroups_bands {s t : State} {f : Field} {c : Context} {band bandx : Nat} {i : InstAt} {x : StageDesc}
    {core grpx : Nat} {slices : List Nat} (h : s.placeGroups f c band bandx i x core grpx slices = some t) :
    t.bands = s.bands := by
  induction slices generalizing s grpx with
  | nil => cases h; rfl
  | cons sl sls ih =>
    rw [State.placeGroups] at h
    split at h
    · next u hu => exact (ih h).trans (State.placeGroup_bands hu)
    · cases h

theorem State.placeInst_length {s t : State} {f : Field} {c : Context} {band bandx core : Nat} {i : InstAt}
    {slices rest : List Nat} (h : s.placeInst f c band bandx i core slices = some (t, rest)) :
    t.bands.length = s.bands.length := by
  unfold State.placeInst at h
  split at h
  · cases h
  · dsimp only at h
    split at h
    · cases h
    · split at h
      · next u hu =>
        split at h
        · cases h
          rw [State.placeGroups_bands hu, State.onBand_length]
        · cases h
      · cases h

theorem State.placeInsts_length {s t : State} {f : Field} {c : Context} {band bandx cluster : Nat} {is : List InstAt}
    {cores slices cs sls : List Nat} (h : s.placeInsts f c band bandx cluster is cores slices = some (t, cs, sls)) :
    t.bands.length = s.bands.length := by
  induction is generalizing s cores slices with
  | nil => cases h; rfl
  | cons i is ih =>
    cases cores with
    | nil => cases h
    | cons core cores =>
      rw [State.placeInsts] at h
      split at h
      · cases h
      · split at h
        · next u rest hu => exact (ih h).trans (State.placeInst_length hu)
        · cases h

theorem State.placeBand_length {s t : State} {f : Field} {c : Context} {bandx : Nat} {cores slices cs sls : List Nat}
    (h : s.placeBand f c bandx cores slices = some (t, cs, sls)) : t.bands.length = s.bands.length + 1 := by
  unfold State.placeBand at h
  dsimp only at h
  split at h
  · cases h
  · split at h
    · cases h
    · next u _ _ hu =>
      cases h
      have hacq := State.bands_of_work (State.foldl_keeps State.work _ (fun v core => v.acquireAt_work core 6)
        ((cores.take f.insts.length).eraseDups) u)
      have hlen := State.placeInsts_length hu
      rw [List.length_append] at hlen
      exact (congrArg List.length hacq).trans hlen

/-- As many bands come as are placed. -/
theorem State.placeBands_length {s t : State} {f : Field} {c : Context} {n bandx : Nat} {cores slices : List Nat}
    (h : s.placeBands f c n bandx cores slices = some t) : t.bands.length = s.bands.length + n := by
  induction n generalizing s bandx cores slices with
  | zero =>
    rw [State.placeBands] at h
    split at h
    · cases h; rfl
    · cases h
  | succ n ih =>
    rw [State.placeBands] at h
    split at h
    · next u cs sls hu =>
      have hone := State.placeBand_length hu
      have hrest := ih h
      omega
    · cases h

/-! ### BAND_PLACE -/

theorem exec_bandPlace (s : State) : exec .bandPlace s = execBandPlace s := rfl
theorem exec_bandRetire (s : State) : exec .bandRetire s = execBandRetire s := rfl

/-- The machine as BAND_PLACE leaves it where the bands of field `u` have been placed: their assignment is over, their queue is
served, and the levels that they complete fire. -/
def State.placedFor (t : State) (u queue : Nat) : State :=
  (({ t with arrivals := t.arrivals.filter (fun a => a.field ≠ u) } : State).serve queue).fireLevels u levels

@[simp] theorem State.placedFor_bands (t : State) (u queue : Nat) : (t.placedFor u queue).bands = t.bands :=
  (State.bands_of_placed (State.fireLevels_placed _ u levels)).trans (State.bands_of_work (State.serve_work _ queue))

section
variable {s t : State} {u cl : Nat} {cores slices : List Nat} {f : Field} {c : Context}

theorem execBandPlace_places (hev : s.ev = .place u cl cores slices) (hf : s.fields.find? (fun f => f.uid = u) = some f)
    (hc : s.ctx? f.ctx = some c) (hmay : s.mayPlace f c = true) (hturn : s.servedLater (s.fieldQueue f) = false)
    (hgap : s.reportGap u = none) (hplace : s.placeBands f c f.atOnce f.nextBand cores slices = some t) :
    execBandPlace s = .next ((t.placedFor u (s.fieldQueue f)).dropFailed (s.reportWho u)) := by
  simp only [execBandPlace, hev, hf, hc, hmay, hturn, hgap, hplace, Bool.not_false, Bool.and_self, if_true]
  rfl

theorem execBandPlace_assigns (hev : s.ev = .place u cl cores slices) (hf : s.fields.find? (fun f => f.uid = u) = some f)
    (hc : s.ctx? f.ctx = some c) (hmay : s.mayPlace f c = true) (hturn : s.servedLater (s.fieldQueue f) = false)
    (hgap : s.reportGap u = none) (hplace : s.placeBands f c f.atOnce f.nextBand cores slices = none)
    (hassign : s.assignBands f c cores slices = some t) :
    execBandPlace s = .next (t.dropFailed (s.reportWho u)) := by
  simp only [execBandPlace, hev, hf, hc, hmay, hturn, hgap, hplace, hassign, Bool.not_false, Bool.and_self, if_true]
  rfl

end

/-! ### BAND_RETIRE (R164) -/

/-- A band whose groups have ended with no matrix command left, and whose copies have ended, is over. -/
theorem State.bandOver_of_ended {s : State} {b : Band}
    (hg : ∀ g ∈ s.groups, g.id.band = b.uid → g.status = .exited ∧ g.mxq = [])
    (hc : ∀ x ∈ s.copies, x.group.isSome = true → x.band ≠ b.uid) : s.bandOver b = true := by
  rw [State.bandOver, Bool.and_eq_true]
  refine ⟨List.all_eq_true.2 fun g hmem => ?_, List.all_eq_true.2 fun x hmem => ?_⟩
  · by_cases hin : g.id.band = b.uid
    · obtain ⟨hexit, hmx⟩ := hg g hmem hin
      simp [Group.over, Group.lives, hexit, hmx]
    · simp [hin]
  · by_cases hown : x.group.isSome = true
    · simp [hc x hmem hown]
    · simp [Option.not_isSome_iff_eq_none.1 hown]

theorem execBandRetire_retires {s : State} {u : Nat} {b : Band} (hev : s.ev = .band u) (hb : s.band? u = some b)
    (hover : s.bandOver b = true) (hgap : s.reportGap b.field = none) (hclear : (s.releaseBand b).remoteDirty = []) :
    execBandRetire s = .next (((s.releaseBand b).retireBand b).dropFailed (s.reportWho b.field)) := by
  simp only [execBandRetire, hev, hb, hover, hgap, hclear, List.isEmpty_nil, if_true]
  rfl

/-- Retirement drops the band and its groups, and no other. -/
@[simp] theorem State.retireBand_placed (s : State) (b : Band) : (s.retireBand b).placed = (s.dropBand b).placed := by
  unfold State.retireBand
  dsimp only
  rw [State.reportBand_placed]
  split
  · split <;> simp
  · rfl

theorem State.retireBand_band? (s : State) (b : Band) : (s.retireBand b).band? b.uid = none := by
  rw [State.band?, State.bands_of_placed (s.retireBand_placed b)]
  simp [State.dropBand]

theorem State.retireBand_others {s : State} {b : Band} {g : Group} (h : g ∈ (s.retireBand b).others) : g.id.band ≠ b.uid := by
  rw [State.others_of_placed (s.retireBand_placed b)] at h
  simpa using (List.mem_filter.1 h).2

end Sys2Proof.Machine
end

section
/-! PROOFS. A context's slice ends, its deadline runs out, it is saved and resumed, and its checkpoint is triggered
(15_system_and_traps.md R279, R284 to R287, 16_launch_and_scheduling.md R315, R316, R349). -/

namespace Sys2Proof.Machine

open Sys2Proof

theorem exec_tenantSliceEnd (s : State) : exec .tenantSliceEnd s = execTenantSliceEnd s := rfl
theorem exec_deadlineOverrun (s : State) : exec .deadlineOverrun s = execDeadlineOverrun s := rfl
theorem exec_contextSave (s : State) : exec .contextSave s = execContextSave s := rfl
theorem exec_checkpointTrigger (s : State) : exec .checkpointTrigger s = execCheckpointTrigger s := rfl
theorem exec_preemptHandlerTimeout (s : State) : exec .preemptHandlerTimeout s = execPreemptHandlerTimeout s := rfl
theorem exec_contextResume (s : State) : exec .contextResume s = execContextResume s := rfl
theorem exec_checkpointBundleStart (s : State) : exec .checkpointBundleStart s = execCheckpointBundleStart s := rfl

/-! ### What leaves the contexts as they are -/

/-- STATE of the queues follows a context, and no context follows a queue. -/
@[simp] theorem State.onQcb_ctxs (s : State) (i : Nat) (h : Queue → Queue) : (s.onQcb i h).ctxs = s.ctxs := by
  unfold State.onQcb
  split <;> rfl

@[simp] theorem State.writePhys_ctxs (s : State) (a : Nat) (xs : List Byte) : (s.writePhys a xs).ctxs = s.ctxs :=
  State.ctxs_of_work (s.writePhys_work a xs)

@[simp] theorem State.writeBack_ctxs (s : State) (i : Nat) : (s.writeBack i).ctxs = s.ctxs := by
  unfold State.writeBack
  split <;> simp

@[simp] theorem State.moveQueue_ctxs (s : State) (i : Nat) : (s.moveQueue i).ctxs = s.ctxs := by
  unfold State.moveQueue
  split
  · rfl
  · split <;> simp

@[simp] theorem State.moveQueues_ctxs (s : State) : s.moveQueues.ctxs = s.ctxs :=
  State.foldl_keeps State.ctxs _ State.moveQueue_ctxs _ s

theorem State.focus_ctxs {s t : State} {u : Nat} (h : s.focus u = some t) : t.ctxs = s.ctxs := by
  unfold State.focus at h
  split at h
  · cases h; rfl
  · split at h
    · cases h
    · cases h; rfl

/-- What a group does leaves the contexts as they are where the operation does. -/
theorem State.asGroup_ctxs {f : State → State} (hf : ∀ t, (f t).ctxs = t.ctxs) (s : State) (u : Nat) :
    (s.asGroup u f).ctxs = s.ctxs := by
  unfold State.asGroup
  split
  · rfl
  · next t ht =>
    have hdone : (f t).ctxs = s.ctxs := (hf t).trans (State.focus_ctxs ht)
    cases hback : (f t).focus s.grp.id.uid with
    | none => exact hdone
    | some v => exact (State.focus_ctxs hback).trans hdone

theorem State.saveParked_ctxs (s : State) (bands : List Nat) : (s.saveParked bands).ctxs = s.ctxs :=
  State.foldl_keeps State.ctxs _ (fun t u => State.asGroup_ctxs
    (fun v => State.ctxs_of_work ((State.leavesCore_work _).trans v.finishStores_work)) t u) _ s

/-! ### A context found again after its change -/

theorem State.ctx?_num {s : State} {n : Nat} {c : Context} (h : s.ctx? n = some c) : c.num = n := by
  simpa using List.find?_some h

/-- A machine with the same contexts finds the same one. -/
theorem State.ctx?_congr {s t : State} (h : t.ctxs = s.ctxs) (n : Nat) : t.ctx? n = s.ctx? n := by
  rw [State.ctx?, State.ctx?, h]

/-- The context that replaces one of its number is found. -/
theorem State.ctx?_setCtx {s : State} {n : Nat} {c d : Context} (h : s.ctx? n = some c) (hd : d.num = n) :
    (s.setCtx d).ctx? n = some d := by
  subst hd
  have hsame : ((fun x : Context => decide (x.num = d.num)) ∘ fun x => if x.num = d.num then d else x) =
      fun x => decide (x.num = d.num) := by
    funext x
    by_cases hx : x.num = d.num <;> simp [hx]
  have hfound : s.ctxs.find? (fun x => decide (x.num = d.num)) = some c := h
  rw [State.ctx?, State.setCtx_ctxs, List.find?_map, hsame, hfound, Option.map_some, if_pos (State.ctx?_num h)]

/-! ### The end of a slice, and a checkpoint's trigger (R284, R315, R316) -/

section
variable {s : State} {n : Nat} {c : Context}

theorem execTenantSliceEnd_due (hev : s.ev = .ctx n) (hc : s.ctx? n = some c) (hsaved : c.isSaved = false)
    (hkilled : c.killed = false) (hslice : 0 < c.slice) (hover : c.sliceStart + c.slice ≤ s.time) (htier : c.tier = 0)
    (hwait : s.othersWait n = true) :
    execTenantSliceEnd s = .next (s.setCtx { c with tier := 2, deadline := s.time + s.drainOf n }).moveQueues := by
  have hdue : s.sliceDue { c with num := n } = true := by
    simp [State.sliceDue, hslice, hover, htier, hsaved, hkilled, hwait]
  simp only [execTenantSliceEnd, hev, hc, hdue, if_true]

/-- The context as CHECKPOINT_TRIGGER leaves it. -/
def Context.checkpointing (c : Context) (now : Nat) : Context :=
  { c with
    ckPaused := true, ckSince := now, ckCount := 0,
    ckLast := if c.ckmode = 1 then c.ckLast + (now - c.ckLast) / c.ckval * c.ckval else c.ckLast }

theorem Context.triggered_iff (c : Context) (now : Nat) :
    c.triggered now = true ↔
      0 < c.ckval ∧ (c.ckmode = 1 ∧ c.ckLast + c.ckval ≤ now ∨ c.ckmode = 2 ∧ c.ckval ≤ c.ckCount) := by
  simp [Context.triggered]

theorem execCheckpointTrigger_fires (hev : s.ev = .ctx n) (hc : s.ctx? n = some c) (hkilled : c.killed = false)
    (htrig : c.triggered s.time = true) (hpaused : c.paused = false) (hdue : s.sliceDue c = false) :
    execCheckpointTrigger s = .next (s.setCtx (c.checkpointing s.time)).moveQueues := by
  have hall : (c.triggered s.time && !c.paused && !c.killed && !s.sliceDue c) = true := by
    simp [htrig, hpaused, hkilled, hdue]
  simp only [execCheckpointTrigger, hev, hc, hall, if_true]
  rfl

/-! ### A deadline that has passed (R285) -/

/-- The drain deadline of a slice end has passed. -/
theorem execDeadlineOverrun_slice (hev : s.ev = .ctx n) (hc : s.ctx? n = some c) (hsaved : c.isSaved = false)
    (hkilled : c.killed = false) (htier : c.tier = 2) (hlate : c.deadline < s.time)
    (hruns : s.ctxBands c ≠ [] ∨ ∃ x ∈ s.copies, x.ctx = n) : execDeadlineOverrun s = .next (s.overrun c) := by
  have hleft : (!(s.ctxBands c).isEmpty || s.copies.any (fun x => x.ctx = n)) = true := by simpa using hruns
  simp only [execDeadlineOverrun, hev, hc, hsaved, hkilled, htier, hlate, hleft, decide_true, Bool.not_false, Bool.and_self,
    Bool.true_or, if_true]

/-- The drain deadline of a checkpoint has passed. -/
theorem execDeadlineOverrun_checkpoint (hev : s.ev = .ctx n) (hc : s.ctx? n = some c) (hsaved : c.isSaved = false)
    (hkilled : c.killed = false) (htier : c.tier = 0) (hck : c.ckPaused = true) (hfree : c.ckBundle = none)
    (hlate : c.ckSince + s.drainOf n < s.time) (hruns : s.ctxRuns c = true) :
    execDeadlineOverrun s = .next (s.overrun c) := by
  simp only [execDeadlineOverrun, hev, hc, hsaved, hkilled, htier, hck, hfree, hlate, hruns, Option.isNone_none, decide_true,
    Bool.not_false, Bool.and_self, Bool.or_true, if_true]

/-- A PREEMPT that has been due for more than 100 µs kills the context (R286). -/
theorem execPreemptHandlerTimeout_late {g : Group} {since : Nat} (hev : s.ev = .ctx n) (hg : g ∈ s.groups)
    (hctx : g.id.ctx = n) (hlives : g.status ≠ .exited) (hpre : g.preempt = .due since ∨ g.preempt = .delivered since)
    (hlate : since + 100000 < s.time) : execPreemptHandlerTimeout s = .next (s.killContext n).moveQueues := by
  have hsince : g.preemptSince = some since := by
    rcases hpre with h | h <;> simp [Group.preemptSince, h]
  simp only [execPreemptHandlerTimeout, hev]
  rw [if_pos]
  exact List.any_eq_true.2 ⟨g, hg, by simp [Group.lives, hctx, hlives, hsince, hlate]⟩

/-! ### The save (R287) -/

/-- However its area takes the records, the context of a save is saved. -/
theorem State.writeSave_isSaved {t : State} (h : t.ctx? n = some c) :
    ∃ d, (t.writeSave c).ctx? n = some d ∧ d.isSaved = true := by
  have hput (u : State) (d : Context) (hu : u.work = t.work) (hd : d.num = c.num) : (u.setCtx d).ctx? n = some d :=
    State.ctx?_setCtx ((State.ctx?_congr (State.ctxs_of_work hu) n).trans h) (hd.trans (State.ctx?_num h))
  unfold State.writeSave
  dsimp only
  split
  · exact ⟨_, hput t _ rfl rfl, rfl⟩
  · split
    · next u hu => exact ⟨_, hput u _ (State.writeVirt_work hu) rfl, rfl⟩
    · exact ⟨_, hput _ _ (t.walkFront_work _ _ _) rfl, rfl⟩

/-- The machine whose save is written: the parked groups are saved, and every band of the context has been released. -/
def State.savedBands (s : State) (c : Context) : State :=
  (s.ctxBands c).foldl State.releaseBand (s.saveParked ((s.ctxBands c).map (·.uid)))

theorem State.savedBands_ctxs (s : State) (c : Context) : (s.savedBands c).ctxs = s.ctxs :=
  (State.ctxs_of_work (State.foldl_keeps State.work _ State.releaseBand_work _ _)).trans (s.saveParked_ctxs _)

/-- Without bands there is nothing to save parked and nothing to release. -/
theorem State.savedBands_remoteDirty (h : s.ctxBands c = []) : (s.savedBands c).remoteDirty = s.remoteDirty := by
  rw [State.savedBands, h]
  simp [State.saveParked, State.mapGroups]

/-- The context may be saved: at tier 2 once no band and no copy of it is left, at tier 3 once every group and every copy that is
left has been saved or suspended. -/
def State.mayBeSaved (s : State) (n : Nat) (c : Context) : Prop :=
  (c.tier = 2 ∧ s.ctxBands c = [] ∧ ∀ x ∈ s.copies, x.ctx ≠ n) ∨
  (c.tier = 3 ∧ (∀ g ∈ s.groups, (∃ b ∈ s.ctxBands c, b.uid = g.id.band) → s.maySave g = true) ∧
    ∀ x ∈ s.copies, x.ctx = n → x.suspended = true)

theorem execContextSave_writes (hev : s.ev = .ctx n) (hc : s.ctx? n = some c) (hsaved : c.isSaved = false)
    (hkilled : c.killed = false) (hgap : s.hostGap c.who .write c.save (s.saveRecords n).length = none)
    (hmay : s.mayBeSaved n c) (hclear : (s.savedBands c).remoteDirty = []) :
    execContextSave s = .next (((s.savedBands c).writeSave c).moveQueues.dropFailed c.who) := by
  have hready : (if c.tier = 3 then
        s.groups.all (fun g => !((s.ctxBands c).map (·.uid)).contains g.id.band || s.maySave g) &&
          s.copies.all (fun x => decide (x.ctx ≠ n) || x.suspended)
      else decide (c.tier = 2) && (s.ctxBands c).isEmpty && !s.copies.any (fun x => x.ctx = n)) = true := by
    rcases hmay with ⟨htier, hbands, hcopies⟩ | ⟨htier, hgroups, hcopies⟩
    · simpa [htier, hbands] using hcopies
    · simp only [htier, if_true, Bool.and_eq_true, List.all_eq_true]
      refine ⟨fun g hg => ?_, fun x hx => ?_⟩
      · by_cases hin : ∃ b ∈ s.ctxBands c, b.uid = g.id.band
        · simp [hgroups g hg hin]
        · simp [List.contains_eq_mem, hin]
      · by_cases hown : x.ctx = n
        · simp [hcopies x hx hown]
        · simp [hown]
  have hclear' : (s.savedBands c).remoteClear = true := by rw [State.remoteClear, hclear]; rfl
  simp only [execContextSave, hev, hc]
  rw [hready]
  simp only [hsaved, hkilled, Bool.not_false, Bool.and_self, if_true]
  rw [State.savedBands] at hclear'
  rw [hclear', if_pos rfl, hgap]
  rfl

theorem exec_contextSave_isSaved (hev : s.ev = .ctx n) (hc : s.ctx? n = some c) (hsaved : c.isSaved = false)
    (hkilled : c.killed = false) (hgap : s.hostGap c.who .write c.save (s.saveRecords n).length = none)
    (hmay : s.mayBeSaved n c) (hclear : (s.savedBands c).remoteDirty = []) :
    ∃ (t : State) (d : Context), exec .contextSave s = .next t ∧ t.ctx? n = some d ∧ d.isSaved = true := by
  obtain ⟨d, hd, hdone⟩ := State.writeSave_isSaved ((State.ctx?_congr (s.savedBands_ctxs c) n).trans hc)
  exact ⟨_, d, (exec_contextSave s).trans (execContextSave_writes hev hc hsaved hkilled hgap hmay hclear),
    (State.ctx?_congr (State.moveQueues_ctxs _) n).trans hd, hdone⟩

/-! ### The return of a saved context (R230, R287, R349) -/

/-- The runs that a resume reads: the resumable records, where they stand in the save area. -/
def State.resumeReads (s : State) (n : Nat) (c : Context) : List (DWord × Nat) :=
  if c.wrote then [(c.save, s.recordLength n)] else []

theorem State.resumed_copies {t : State} {x : CopyCmd} (hx : x ∈ (t.resumed c).copies) (hn : x.ctx = c.num) :
    x.suspended = false := by
  obtain ⟨y, -, rfl⟩ := List.mem_map.1 hx
  by_cases hy : y.ctx = c.num
  · rw [if_pos hy]
  · rw [if_neg hy] at hn
    exact absurd hn hy

/-- A resume that waits for no page of its records. -/
theorem State.resumeGap_none (hgap : c.wrote = true → s.hostGap c.who .read c.save (s.recordLength n) = none) :
    (if c.wrote then s.hostGap c.who .read c.save (s.recordLength n) else none) = none := by
  by_cases h : c.wrote = true
  · rw [if_pos h, hgap h]
  · rw [if_neg h]

section
variable {cls : List Nat}

/-- A context whose records cannot be restored is killed. -/
theorem execContextResume_kills (hev : s.ev = .resume n cls) (hc : s.ctx? n = some c) (hsaved : c.isSaved = true)
    (hkilled : c.killed = false) (hck : c.ckPaused = false)
    (hgap : c.wrote = true → s.hostGap c.who .read c.save (s.recordLength n) = none)
    (hbad : (s.asksFront c.who (s.resumeReads n c)).restoreRecords c = none) :
    execContextResume s = .next
      ((((s.asksFront c.who (s.resumeReads n c)).setCtx { c with isSaved := false }).killContext n).moveQueues.dropFailed
        c.who) := by
  have hmay : (c.isSaved && !c.killed && !c.ckPaused) = true := by simp [hsaved, hkilled, hck]
  rw [State.resumeReads] at hbad
  simp only [execContextResume, hev, hc, hmay, if_true, frontReads, State.resumeGap_none hgap, hbad]
  rfl

/-- A context whose records are restored, and whose bands find room on the clusters, runs again. -/
theorem execContextResume_resumes {r t : State} (hev : s.ev = .resume n cls) (hc : s.ctx? n = some c)
    (hsaved : c.isSaved = true) (hkilled : c.killed = false) (hck : c.ckPaused = false)
    (hgap : c.wrote = true → s.hostGap c.who .read c.save (s.recordLength n) = none)
    (hr : (s.asksFront c.who (s.resumeReads n c)).restoreRecords c = some r)
    (ht : r.resumeBands c (r.ctxBands c) cls = some t) :
    execContextResume s = .next ((t.resumed c).dropFailed c.who) := by
  have hmay : (c.isSaved && !c.killed && !c.ckPaused) = true := by simp [hsaved, hkilled, hck]
  rw [State.resumeReads] at hr
  simp only [execContextResume, hev, hc, hmay, if_true, frontReads, State.resumeGap_none hgap, hr, ht]
  rfl

end

end

/-! ### The bundle of a checkpoint (R316) -/

theorem execCheckpointBundleStart_starts {s : State} {u i : Nat} {b : Bundle} {q : Queue} {c : Context} (hev : s.ev = .bundle u i)
    (hb : s.bundle? u = some b) (hq : s.queueOfBundle b = some q) (hc : s.ctx? q.ctx = some c) (hck : q.ckq = true)
    (hstart : s.startable b = true) (hdrained : s.drained c = true)
    (hgap : s.firstGap (s.queueWho q) (s.startReach (s.queueWho q) b) = none) :
    execCheckpointBundleStart s = .next
      (((s.asksFront (s.queueWho q) (readRuns (s.startReach (s.queueWho q) b))).startBundle q b).dropFailed (s.queueWho q)) := by
  simp only [execCheckpointBundleStart, hev, hb, hq, hc, hck, hstart, hdrained, Bool.and_self, if_true, frontReads, hgap]
  rfl

end Sys2Proof.Machine

open Sys2Proof Sys2Proof.Machine

/-- Settles O45: each event row, where its occasion holds, is the one operation that its rule names; what that operation
writes to memory, and the reports and queue states that follow, leave the bands and the contexts as it has set them. -/
theorem bandsAndContexts : Obligations.BandsAndContexts := by
  unfold Obligations.BandsAndContexts
  refine ⟨?place, ?retire, ?context, ?preempt, ?resume, ?bundle⟩
  case place =>
    intro s t u cl cores slices f c hev hf hc hmay hturn hgap
    refine ⟨fun hplace => ?_, fun hplace hassign => ?_⟩
    · refine ⟨_, (exec_bandPlace s).trans (execBandPlace_places hev hf hc hmay hturn hgap hplace), ?_⟩
      rw [State.dropFailed_bands, State.placedFor_bands, State.placeBands_length hplace]
    · exact (exec_bandPlace s).trans (execBandPlace_assigns hev hf hc hmay hturn hgap hplace hassign)
  case retire =>
    intro s u b hev hb hgroups hcopies hgap hclear
    have hu := State.band?_uid hb
    subst hu
    refine ⟨_, (exec_bandRetire s).trans
      (execBandRetire_retires hev hb (State.bandOver_of_ended hgroups hcopies) hgap hclear), ?_, fun g hg => ?_⟩
    · rw [State.dropFailed_band?, State.retireBand_band?]
    · rw [State.dropFailed_others] at hg
      exact State.retireBand_others hg
  case context =>
    intro s n c hev hc hsaved hkilled
    have hnum := State.ctx?_num hc
    refine ⟨fun hslice hover htier hwait => ?_, fun htier hlate hruns => ?_, fun htier hck hfree hlate hruns => ?_,
      fun hgap => ⟨fun htier hbands hcopies hclear => ?_, fun htier hgroups hcopies hclear => ?_⟩,
      fun hval hfire hpaused hdue => ?_⟩
    · exact ⟨_, _, (exec_tenantSliceEnd s).trans
          (execTenantSliceEnd_due hev hc hsaved hkilled hslice hover htier hwait),
        (State.ctx?_congr (State.moveQueues_ctxs _) n).trans (State.ctx?_setCtx hc hnum), rfl, rfl⟩
    · exact (exec_deadlineOverrun s).trans (execDeadlineOverrun_slice hev hc hsaved hkilled htier hlate hruns)
    · exact (exec_deadlineOverrun s).trans
        (execDeadlineOverrun_checkpoint hev hc hsaved hkilled htier hck hfree hlate hruns)
    · exact exec_contextSave_isSaved hev hc hsaved hkilled hgap (.inl ⟨htier, hbands, hcopies⟩)
        ((State.savedBands_remoteDirty hbands).trans hclear)
    · exact exec_contextSave_isSaved hev hc hsaved hkilled hgap (.inr ⟨htier, hgroups, hcopies⟩) hclear
    · exact ⟨_, c.checkpointing s.time, (exec_checkpointTrigger s).trans (execCheckpointTrigger_fires hev hc hkilled
          ((c.triggered_iff s.time).2 ⟨hval, hfire⟩) hpaused hdue),
        (State.ctx?_congr (State.moveQueues_ctxs _) n).trans (State.ctx?_setCtx hc hnum), rfl, rfl, rfl⟩
  case preempt =>
    intro s n g since hev hg hctx hlives hpre hlate
    exact (exec_preemptHandlerTimeout s).trans (execPreemptHandlerTimeout_late hev hg hctx hlives hpre hlate)
  case resume =>
    intro s n c cls hev hc hsaved hkilled hck hgap u hu
    subst hu
    refine ⟨fun hbad => ?_, fun r t hr ht => ?_⟩
    · exact (exec_contextResume s).trans (execContextResume_kills hev hc hsaved hkilled hck hgap hbad)
    · exact ⟨_, (exec_contextResume s).trans (execContextResume_resumes hev hc hsaved hkilled hck hgap hr ht),
        fun x hx hn => State.resumed_copies hx (hn.trans (State.ctx?_num hc).symm)⟩
  case bundle =>
    intro s u i b q c hev hb hq hc hck hstart hdrained hgap
    exact (exec_checkpointBundleStart s).trans (execCheckpointBundleStart_starts hev hb hq hc hck hstart hdrained hgap)
end

section
/-! SUPPORT. The words of 02_instruction_words.md: a field of a word is the field that the word was put together from (R41 to R46),
so decoding gives back every row that has words of its own (R47 to R50), and the row of the words that are no instruction (R51) only
where the word is none. -/

namespace Sys2Proof

/-! ### The fields of a word (R41 to R45) -/

/-- One bit of a word, as a field of one bit. -/
theorem bitOf_of_extract {w : DWord} {k : Nat} {b : Bool} (h : w.extractLsb' k 1 = bit1 b) : bitOf w k = b := by
  simpa [bit1, bitOf] using congrArg (fun x => x.getLsbD 0) h

theorem SR.extract_toWord (f : SR) (mop : BitVec 6) (fn : BitVec 7) (lo len : Nat) :
    (f.toWord mop fn).extractLsb' lo len = BitVec.extractLsb' (n := 6 + 7 + 1 + 6 + 6 + 6 + 32) lo len
      (mop ++ fn ++ bit1 f.i ++ f.d ++ f.a ++ f.b ++ f.imm) := rfl

@[simp] theorem SR.mopOf_toWord (f : SR) (mop : BitVec 6) (fn : BitVec 7) : mopOf (f.toWord mop fn) = mop := by
  simp [mopOf, SR.extract_toWord, BitVec.extractLsb'_append_eq_of_le, -Nat.reduceAdd]

@[simp] theorem SR.fnOf_toWord (f : SR) (mop : BitVec 6) (fn : BitVec 7) : fnOf (f.toWord mop fn) = fn := by
  simp [fnOf, SR.extract_toWord, BitVec.extractLsb'_append_eq_of_le, BitVec.extractLsb'_append_eq_of_add_le,
    -Nat.reduceAdd]

@[simp] theorem SR.ofWord_toWord (f : SR) (mop : BitVec 6) (fn : BitVec 7) : SR.ofWord (f.toWord mop fn) = f := by
  have hbit : bitOf (f.toWord mop fn) 50 = f.i := bitOf_of_extract (by
    simp [SR.extract_toWord, BitVec.extractLsb'_append_eq_of_le, BitVec.extractLsb'_append_eq_of_add_le, -Nat.reduceAdd])
  simp [SR.ofWord, hbit, SR.extract_toWord, BitVec.extractLsb'_append_eq_of_le,
    BitVec.extractLsb'_append_eq_of_add_le, -Nat.reduceAdd]

theorem CB.extract_toWord (f : CB) (mop : BitVec 6) (fn : BitVec 7) (lo len : Nat) :
    (f.toWord mop fn).extractLsb' lo len = BitVec.extractLsb' (n := 6 + 7 + 1 + 6 + 6 + 6 + 32) lo len
      (mop ++ fn ++ bit1 f.r ++ f.d ++ f.a ++ f.b ++ f.off) := rfl

@[simp] theorem CB.mopOf_toWord (f : CB) (mop : BitVec 6) (fn : BitVec 7) : mopOf (f.toWord mop fn) = mop := by
  simp [mopOf, CB.extract_toWord, BitVec.extractLsb'_append_eq_of_le, -Nat.reduceAdd]

@[simp] theorem CB.fnOf_toWord (f : CB) (mop : BitVec 6) (fn : BitVec 7) : fnOf (f.toWord mop fn) = fn := by
  simp [fnOf, CB.extract_toWord, BitVec.extractLsb'_append_eq_of_le, BitVec.extractLsb'_append_eq_of_add_le,
    -Nat.reduceAdd]

@[simp] theorem CB.ofWord_toWord (f : CB) (mop : BitVec 6) (fn : BitVec 7) : CB.ofWord (f.toWord mop fn) = f := by
  have hbit : bitOf (f.toWord mop fn) 50 = f.r := bitOf_of_extract (by
    simp [CB.extract_toWord, BitVec.extractLsb'_append_eq_of_le, BitVec.extractLsb'_append_eq_of_add_le, -Nat.reduceAdd])
  simp [CB.ofWord, hbit, CB.extract_toWord, BitVec.extractLsb'_append_eq_of_le,
    BitVec.extractLsb'_append_eq_of_add_le, -Nat.reduceAdd]

theorem VR.extract_toWord (f : VR) (mop : BitVec 6) (fn : BitVec 7) (lo len : Nat) :
    (f.toWord mop fn).extractLsb' lo len = BitVec.extractLsb' (n := 6 + 7 + 3 + 7 + 7 + 7 + 7 + 6 + 2 + 6 + 1 + 5) lo len
      (mop ++ fn ++ f.t ++ f.d ++ f.a ++ f.b ++ f.c ++ f.m ++ f.rm ++ f.ok ++ bit1 f.sat ++ f.x) := rfl

@[simp] theorem VR.mopOf_toWord (f : VR) (mop : BitVec 6) (fn : BitVec 7) : mopOf (f.toWord mop fn) = mop := by
  simp [mopOf, VR.extract_toWord, BitVec.extractLsb'_append_eq_of_le, -Nat.reduceAdd]

@[simp] theorem VR.fnOf_toWord (f : VR) (mop : BitVec 6) (fn : BitVec 7) : fnOf (f.toWord mop fn) = fn := by
  simp [fnOf, VR.extract_toWord, BitVec.extractLsb'_append_eq_of_le, BitVec.extractLsb'_append_eq_of_add_le,
    -Nat.reduceAdd]

@[simp] theorem VR.ofWord_toWord (f : VR) (mop : BitVec 6) (fn : BitVec 7) : VR.ofWord (f.toWord mop fn) = f := by
  have hbit : bitOf (f.toWord mop fn) 5 = f.sat := bitOf_of_extract (by
    simp [VR.extract_toWord, BitVec.extractLsb'_append_eq_of_le, BitVec.extractLsb'_append_eq_of_add_le, -Nat.reduceAdd])
  simp [VR.ofWord, hbit, VR.extract_toWord, BitVec.extractLsb'_append_eq_of_le,
    BitVec.extractLsb'_append_eq_of_add_le, -Nat.reduceAdd]

theorem SM.extract_toWord (f : SM) (mop : BitVec 6) (fn : BitVec 7) (lo len : Nat) :
    (f.toWord mop fn).extractLsb' lo len = BitVec.extractLsb' (n := 6 + 7 + 3 + 6 + 6 + 4 + 32) lo len
      (mop ++ fn ++ f.sz ++ f.d ++ f.a ++ f.r ++ f.ofs) := rfl

@[simp] theorem SM.mopOf_toWord (f : SM) (mop : BitVec 6) (fn : BitVec 7) : mopOf (f.toWord mop fn) = mop := by
  simp [mopOf, SM.extract_toWord, BitVec.extractLsb'_append_eq_of_le, -Nat.reduceAdd]

@[simp] theorem SM.fnOf_toWord (f : SM) (mop : BitVec 6) (fn : BitVec 7) : fnOf (f.toWord mop fn) = fn := by
  simp [fnOf, SM.extract_toWord, BitVec.extractLsb'_append_eq_of_le, BitVec.extractLsb'_append_eq_of_add_le,
    -Nat.reduceAdd]

@[simp] theorem SM.ofWord_toWord (f : SM) (mop : BitVec 6) (fn : BitVec 7) : SM.ofWord (f.toWord mop fn) = f := by
  simp [SM.ofWord, SM.extract_toWord, BitVec.extractLsb'_append_eq_of_le, BitVec.extractLsb'_append_eq_of_add_le,
    -Nat.reduceAdd]

theorem VM.extract_toWord (f : VM) (mop : BitVec 6) (fn : BitVec 7) (lo len : Nat) :
    (f.toWord mop fn).extractLsb' lo len = BitVec.extractLsb' (n := 6 + 7 + 3 + 7 + 6 + 7 + 2 + 6 + 20) lo len
      (mop ++ fn ++ f.sz ++ f.v ++ f.sb ++ f.vi ++ f.sc ++ f.m ++ f.ofs) := rfl

@[simp] theorem VM.mopOf_toWord (f : VM) (mop : BitVec 6) (fn : BitVec 7) : mopOf (f.toWord mop fn) = mop := by
  simp [mopOf, VM.extract_toWord, BitVec.extractLsb'_append_eq_of_le, -Nat.reduceAdd]

@[simp] theorem VM.fnOf_toWord (f : VM) (mop : BitVec 6) (fn : BitVec 7) : fnOf (f.toWord mop fn) = fn := by
  simp [fnOf, VM.extract_toWord, BitVec.extractLsb'_append_eq_of_le, BitVec.extractLsb'_append_eq_of_add_le,
    -Nat.reduceAdd]

@[simp] theorem VM.ofWord_toWord (f : VM) (mop : BitVec 6) (fn : BitVec 7) : VM.ofWord (f.toWord mop fn) = f := by
  simp [VM.ofWord, VM.extract_toWord, BitVec.extractLsb'_append_eq_of_le, BitVec.extractLsb'_append_eq_of_add_le,
    -Nat.reduceAdd]

theorem EX.extract_toWord (f : EX) (mop : BitVec 6) (fn : BitVec 7) (lo len : Nat) :
    (f.toWord mop fn).extractLsb' lo len = BitVec.extractLsb' (n := 6 + 7 + 3 + 6 + 6 + 6 + 6 + 4 + 4 + 16) lo len
      (mop ++ fn ++ f.sub ++ f.d ++ f.a ++ f.b ++ f.c ++ f.q ++ f.w ++ f.imm) := rfl

@[simp] theorem EX.mopOf_toWord (f : EX) (mop : BitVec 6) (fn : BitVec 7) : mopOf (f.toWord mop fn) = mop := by
  simp [mopOf, EX.extract_toWord, BitVec.extractLsb'_append_eq_of_le, -Nat.reduceAdd]

@[simp] theorem EX.fnOf_toWord (f : EX) (mop : BitVec 6) (fn : BitVec 7) : fnOf (f.toWord mop fn) = fn := by
  simp [fnOf, EX.extract_toWord, BitVec.extractLsb'_append_eq_of_le, BitVec.extractLsb'_append_eq_of_add_le,
    -Nat.reduceAdd]

@[simp] theorem EX.ofWord_toWord (f : EX) (mop : BitVec 6) (fn : BitVec 7) : EX.ofWord (f.toWord mop fn) = f := by
  simp [EX.ofWord, EX.extract_toWord, BitVec.extractLsb'_append_eq_of_le, BitVec.extractLsb'_append_eq_of_add_le,
    -Nat.reduceAdd]

theorem Pfx.extract_toWord (p : Pfx) (lo len : Nat) :
    p.toWord.extractLsb' lo len = BitVec.extractLsb' (n := 6 + 3 + 3 + 3 + 3 + 2 + 5 + 39) lo len
      ((0x3F#6) ++ p.ord ++ p.scope ++ p.space ++ p.cp ++ p.home ++ p.chan ++ p.r) := rfl

@[simp] theorem Pfx.mopOf_toWord (p : Pfx) : mopOf p.toWord = 0x3F#6 := by
  simp [mopOf, Pfx.extract_toWord, BitVec.extractLsb'_append_eq_of_le, -Nat.reduceAdd]

@[simp] theorem Pfx.ofWord_toWord (p : Pfx) : Pfx.ofWord p.toWord = p := by
  simp [Pfx.ofWord, Pfx.extract_toWord, BitVec.extractLsb'_append_eq_of_le, BitVec.extractLsb'_append_eq_of_add_le,
    -Nat.reduceAdd]

/-! ### The first word of an instruction (R46 to R48) -/

/-- A word that is no PFX word is decoded with the next word of its block as its literal. -/
theorem decode_cons {w : DWord} {rest : List DWord} (h : mopOf w ≠ 0x3F#6) :
    decode (w :: rest) = decodeWord none w rest.head? := by
  simp [decode, h]

/-- A PFX word that a row accepts holds no reserved value (R47). -/
theorem reservedOk_of_pfxOk {q : Pfx} {ords : List Nat} {scope space cp home chan : Bool}
    (h : pfxOk (some q) ords scope space cp home chan = true) : q.reservedOk = true := by
  simp only [pfxOk, Bool.and_eq_true] at h
  tauto

/-- A word is decoded with the PFX word before it, where it has one that its row accepts. -/
theorem decode_pfxWords {p : Option Pfx} {w : DWord} {ok : Bool} {ords : List Nat} {scope space cp home chan : Bool}
    (hwf : (ok && pfxOk p ords scope space cp home chan) = true) (h : mopOf w ≠ 0x3F#6) :
    decode (pfxWords p ++ [w]) = decodeWord p w none := by
  cases p with
  | none => exact decode_cons h
  | some q =>
    have hq : q.reservedOk = true := reservedOk_of_pfxOk (Bool.and_eq_true_iff.mp hwf).2
    simp [pfxWords, decode, hq]

/-! ### What the checks of a row say of the bit or the field that tells two rows of one FN apart (R87, R150, R210) -/

theorem SR.i_of_okMovCopy {f : SR} (h : f.okMovCopy = true) : f.i = false := by
  simp only [SR.okMovCopy, Bool.and_eq_true, Bool.not_eq_true'] at h
  tauto

theorem SR.i_of_okMovRel {f : SR} (h : f.okMovRel = true) : f.i = true := by
  simp only [SR.okMovRel, Bool.and_eq_true] at h
  tauto

theorem EX.sub_of_okZposRead {f : EX} (h : f.okZposRead = true) : f.sub = 0 := by
  simp only [EX.okZposRead, Bool.and_eq_true, decide_eq_true_eq] at h
  tauto

theorem EX.sub_of_okZposSet {f : EX} (h : f.okZposSet = true) : f.sub = 1 := by
  simp only [EX.okZposSet, Bool.and_eq_true, decide_eq_true_eq] at h
  tauto

theorem EX.sub_of_okZposEnd {f : EX} (h : f.okZposEnd = true) : f.sub = 2 := by
  simp only [EX.okZposEnd, Bool.and_eq_true, decide_eq_true_eq] at h
  tauto

theorem EX.sub_of_okCopyLinear {f : EX} (h : f.okCopyLinear = true) : f.sub = 0 := by
  simp only [EX.okCopyLinear, Bool.and_eq_true, decide_eq_true_eq] at h
  tauto

theorem EX.sub_of_okCopyAt {f : EX} {sub : Nat} (h : f.okCopyAt sub = true) : f.sub.toNat = sub := by
  simp only [EX.okCopyAt, Bool.and_eq_true, decide_eq_true_eq] at h
  tauto

/-! ### The MOP of a word (R50) -/

theorem decode_mop01 {w : DWord} (h : mopOf w = 0x01#6) : decode [w] = decodeMop01 w := by
  rw [decode_cons (by simp [h]), decodeWord, h]; rfl
theorem decode_mop02 {w : DWord} (h : mopOf w = 0x02#6) : decode [w] = decodeMop02 w := by
  rw [decode_cons (by simp [h]), decodeWord, h]; rfl
theorem decode_mop03 {w : DWord} (h : mopOf w = 0x03#6) : decode [w] = decodeMop03 w := by
  rw [decode_cons (by simp [h]), decodeWord, h]; rfl
theorem decode_mop04 {w : DWord} (h : mopOf w = 0x04#6) : decode [w] = decodeMop04 w := by
  rw [decode_cons (by simp [h]), decodeWord, h]; rfl
theorem decode_mop05 {w : DWord} (h : mopOf w = 0x05#6) : decode [w] = decodeMop05 w := by
  rw [decode_cons (by simp [h]), decodeWord, h]; rfl
theorem decode_mop08 {w : DWord} (h : mopOf w = 0x08#6) : decode [w] = decodeMop08 w := by
  rw [decode_cons (by simp [h]), decodeWord, h]; rfl
theorem decode_mop09 {w : DWord} (h : mopOf w = 0x09#6) : decode [w] = decodeMop09 w := by
  rw [decode_cons (by simp [h]), decodeWord, h]; rfl
theorem decode_mop0A {w : DWord} {ws : List DWord} (h : mopOf w = 0x0A#6) : decode (w :: ws) = decodeMop0A w ws.head? := by
  rw [decode_cons (by simp [h]), decodeWord, h]; rfl
theorem decode_mop10 {w : DWord} (h : mopOf w = 0x10#6) : decode [w] = decodeMop10 w := by
  rw [decode_cons (by simp [h]), decodeWord, h]; rfl
theorem decode_mop11 {w : DWord} (h : mopOf w = 0x11#6) : decode [w] = decodeMop11 w := by
  rw [decode_cons (by simp [h]), decodeWord, h]; rfl
theorem decode_mop12 {w : DWord} (h : mopOf w = 0x12#6) : decode [w] = decodeMop12 w := by
  rw [decode_cons (by simp [h]), decodeWord, h]; rfl
theorem decode_mop13 {w : DWord} (h : mopOf w = 0x13#6) : decode [w] = decodeMop13 w := by
  rw [decode_cons (by simp [h]), decodeWord, h]; rfl
theorem decode_mop14 {w : DWord} (h : mopOf w = 0x14#6) : decode [w] = decodeMop14 w := by
  rw [decode_cons (by simp [h]), decodeWord, h]; rfl
theorem decode_mop18 {w : DWord} (h : mopOf w = 0x18#6) : decode [w] = decodeMop18 w := by
  rw [decode_cons (by simp [h]), decodeWord, h]; rfl
theorem decode_mop19 {w : DWord} (h : mopOf w = 0x19#6) : decode [w] = decodeMop19 w := by
  rw [decode_cons (by simp [h]), decodeWord, h]; rfl
theorem decodeWord_mop20 {p : Option Pfx} {w : DWord} (h : mopOf w = 0x20#6) : decodeWord p w none = decodeMop20 p w := by
  rw [decodeWord, h]; rfl
theorem decodeWord_mop21 {p : Option Pfx} {w : DWord} (h : mopOf w = 0x21#6) : decodeWord p w none = decodeMop21 p w := by
  rw [decodeWord, h]; rfl
theorem decode_mop22 {w : DWord} (h : mopOf w = 0x22#6) : decode [w] = decodeMop22 w := by
  rw [decode_cons (by simp [h]), decodeWord, h]; rfl
theorem decodeWord_mop23 {p : Option Pfx} {w : DWord} (h : mopOf w = 0x23#6) : decodeWord p w none = decodeMop23 p w := by
  rw [decodeWord, h]; rfl
theorem decode_mop24 {w : DWord} (h : mopOf w = 0x24#6) : decode [w] = decodeMop24 w := by
  rw [decode_cons (by simp [h]), decodeWord, h]; rfl
theorem decodeWord_mop28 {p : Option Pfx} {w : DWord} (h : mopOf w = 0x28#6) : decodeWord p w none = decodeMop28 p w := by
  rw [decodeWord, h]; rfl
theorem decode_mop29 {w : DWord} (h : mopOf w = 0x29#6) : decode [w] = decodeMop29 w := by
  rw [decode_cons (by simp [h]), decodeWord, h]; rfl
theorem decodeWord_mop2A {p : Option Pfx} {w : DWord} (h : mopOf w = 0x2A#6) : decodeWord p w none = decodeMop2A p w := by
  rw [decodeWord, h]; rfl
theorem decode_mop2B {w : DWord} (h : mopOf w = 0x2B#6) : decode [w] = decodeMop2B w := by
  rw [decode_cons (by simp [h]), decodeWord, h]; rfl
theorem decode_mop2C {w : DWord} (h : mopOf w = 0x2C#6) : decode [w] = decodeMop2C w := by
  rw [decode_cons (by simp [h]), decodeWord, h]; rfl
theorem decode_mop30 {w : DWord} (h : mopOf w = 0x30#6) : decode [w] = decodeMop30 w := by
  rw [decode_cons (by simp [h]), decodeWord, h]; rfl
theorem decodeWord_mop31 {p : Option Pfx} {w : DWord} (h : mopOf w = 0x31#6) : decodeWord p w none = decodeMop31 p w := by
  rw [decodeWord, h]; rfl
theorem decodeWord_mop34 {p : Option Pfx} {w : DWord} (h : mopOf w = 0x34#6) : decodeWord p w none = decodeMop34 p w := by
  rw [decodeWord, h]; rfl
theorem decode_mop36 {w : DWord} (h : mopOf w = 0x36#6) : decode [w] = decodeMop36 w := by
  rw [decode_cons (by simp [h]), decodeWord, h]; rfl
theorem decode_mop37 {w : DWord} (h : mopOf w = 0x37#6) : decode [w] = decodeMop37 w := by
  rw [decode_cons (by simp [h]), decodeWord, h]; rfl
theorem decode_mop3A {w : DWord} (h : mopOf w = 0x3A#6) : decode [w] = decodeMop3A w := by
  rw [decode_cons (by simp [h]), decodeWord, h]; rfl

/-! ### The rows of the opcode map (R50) -/

/-- R41 to R50: every well-formed instruction of a row that has words of its own decodes from them, whatever its operands. -/
theorem decode_encode {i : Instr} (hne : encode i ≠ []) (hwf : i.wf = true) (hrow : ∀ w, i ≠ .unassignedWord w) :
    decode (encode i) = .ok i := by
  cases i with
  | unassignedWord w => exact absurd rfl (hrow w)
  | br f | beq f | bne f | blt f | bge f | bltu f | bgeu f | bmz f | bmnz f | bmall f =>
    exact (decode_mop01 (by simp)).trans (by simp [decodeMop01])
  | call f | calli f | ret f | jmpi f =>
    exact (decode_mop02 (by simp)).trans (by simp [decodeMop02])
  | loop f | lbrk f | lcget f | lcset f =>
    exact (decode_mop03 (by simp)).trans (by simp [decodeMop03])
  | exit f | yield f | nop f | snooze f =>
    exact (decode_mop04 (by simp)).trans (by simp [decodeMop04])
  | mand f | mor f | mxor f | mandn f | mnot f | mpopc f | mffs f | mrange f | mtest f | mmov f | mlive f =>
    exact (decode_mop05 (by simp)).trans (by simp [decodeMop05])
  | add f | sub f | mul f | mulhs f | mulhu f | and f | or f | xor f | andn f | shl f | shr f | sar f | rotl f
  | min f | max f | minu f | maxu f | slt f | sltu f | seq f | sne f | clz f | ctz f | popc f | brev f | cmov f =>
    exact (decode_mop08 (by simp)).trans (by simp [decodeMop08])
  | addw f | subw f | mulw f | shlw f | shrw f | sarw f | sltw f | sltuw f =>
    exact (decode_mop09 (by simp)).trans (by simp [decodeMop09])
  | li f | liw f lit | lea f =>
    exact (decode_mop0A (by simp)).trans (by simp [decodeMop0A])
  | movwCopy f =>
    have hi : f.i = false := SR.i_of_okMovCopy hwf
    exact (decode_mop0A (by simp)).trans (by simp [decodeMop0A, hi])
  | movwRelative f =>
    have hi : f.i = true := SR.i_of_okMovRel hwf
    exact (decode_mop0A (by simp)).trans (by simp [decodeMop0A, hi])
  | vadd f | vsub f | vmul f | vmulh f | vmulhu f | vmad f | vand f | vor f | vxor f | vandn f | vshl f | vshr f
  | vsar f | vmin f | vmax f | vminu f | vmaxu f | vabs f | vneg f | vpopc f | vclz f =>
    exact (decode_mop10 (by simp)).trans (by simp [decodeMop10])
  | vicmp f | vfcmp f =>
    exact (decode_mop11 (by simp)).trans (by simp [decodeMop11])
  | vfadd f | vfsub f | vfmul f | vfma f | vfnma f | vfmin f | vfmax f | vfminn f | vfmaxn f | vfabs f | vfneg f
  | vfcps f | vfrnd f | vfdiv f | vfsqrt f | vfclass f =>
    exact (decode_mop12 (by simp)).trans (by simp [decodeMop12])
  | vrcp f | vrsq f | vexp2 f | vlog2 f | vsinpi f | vcospi f | vtanh f =>
    exact (decode_mop13 (by simp)).trans (by simp [decodeMop13])
  | vmov f | vsel f | vbcst f | vidx f | vget f | vput f =>
    exact (decode_mop14 (by simp)).trans (by simp [decodeMop14])
  | vcvtf f | vf2i f | vi2f f | vcvt8 f | vext8 f | vscale f | vbscl f | vpk8 f | vupk8 f =>
    exact (decode_mop18 (by simp)).trans (by simp [decodeMop18])
  | vrngs f | vrng f =>
    exact (decode_mop19 (by simp)).trans (by simp [decodeMop19])
  | sld p f | sst p f =>
    exact (decode_pfxWords hwf (by simp)).trans ((decodeWord_mop20 (by simp)).trans (by simp [decodeMop20]))
  | vld p f | vst p f | vldb p f | vstb p f =>
    exact (decode_pfxWords hwf (by simp)).trans ((decodeWord_mop21 (by simp)).trans (by simp [decodeMop21]))
  | zset f | zsets f | zrew f =>
    exact (decode_mop22 (by simp)).trans (by simp [decodeMop22])
  | zposRead f =>
    have hsub : f.sub = 0 := EX.sub_of_okZposRead hwf
    exact (decode_mop22 (by simp)).trans (by simp [decodeMop22, hsub])
  | zposSet f =>
    have hsub : f.sub = 1 := EX.sub_of_okZposSet hwf
    exact (decode_mop22 (by simp)).trans (by simp [decodeMop22, hsub])
  | zposEnd f =>
    have hsub : f.sub = 2 := EX.sub_of_okZposEnd hwf
    exact (decode_mop22 (by simp)).trans (by simp [decodeMop22, hsub])
  | fence p f | cwb p f | cinv p f | pref p f =>
    exact (decode_pfxWords hwf (by simp)).trans ((decodeWord_mop23 (by simp)).trans (by simp [decodeMop23]))
  | chopen f | chwait f | chclose f =>
    exact (decode_mop24 (by simp)).trans (by simp [decodeMop24])
  | satom p f | vatom p f | fxadd p f | fxrd p f =>
    exact (decode_pfxWords hwf (by simp)).trans ((decodeWord_mop28 (by simp)).trans (by simp [decodeMop28]))
  | bart f | bara f | barw f | barb f | sbinit f | sbarv f | sbwait f =>
    exact (decode_mop29 (by simp)).trans (by simp [decodeMop29])
  | waitv p f =>
    exact (decode_pfxWords hwf (by simp)).trans ((decodeWord_mop2A (by simp)).trans (by simp [decodeMop2A]))
  | batt f | bpost f | bread f | bdet f | bvseg f | bvcmp f =>
    exact (decode_mop2B (by simp)).trans (by simp [decodeMop2B])
  | vvote f | vshfl f | vmatch f | vred f | vscan f =>
    exact (decode_mop2C (by simp)).trans (by simp [decodeMop2C])
  | qbind f | qpush f | qpop f | qtry f | qstat f =>
    exact (decode_mop30 (by simp)).trans (by simp [decodeMop30])
  | copyg p f | copys p f | copyr p f =>
    exact (decode_pfxWords hwf (by simp)).trans ((decodeWord_mop31 (by simp)).trans (by simp [decodeMop31]))
  | copyLinear p f =>
    have hsub : f.sub = 0 := EX.sub_of_okCopyLinear (Bool.and_eq_true_iff.mp hwf).1
    exact (decode_pfxWords hwf (by simp)).trans ((decodeWord_mop31 (by simp)).trans (by simp [decodeMop31, hsub]))
  | copyDescribed p f =>
    have hsub : f.sub.toNat = 1 := EX.sub_of_okCopyAt (Bool.and_eq_true_iff.mp hwf).1
    exact (decode_pfxWords hwf (by simp)).trans ((decodeWord_mop31 (by simp)).trans (by simp [decodeMop31, hsub]))
  | mloop p f | mst p f =>
    exact (decode_pfxWords hwf (by simp)).trans ((decodeWord_mop34 (by simp)).trans (by simp [decodeMop34]))
  | mzero f | mrd f | mwr f | mwait f | mstat f =>
    exact (decode_cons (by simp)).trans ((decodeWord_mop34 (by simp)).trans (by simp [decodeMop34]))
  | rcrt f | hnext f | hrd f | hend f | hjoin f | hrel f =>
    exact (decode_mop36 (by simp)).trans (by simp [decodeMop36])
  | rgnOpen f | rgnClose f | rgnAbort f =>
    exact (decode_mop37 (by simp)).trans (by simp [decodeMop37])
  | rds f | wrs f | trap f | brk f | eret f | sigs f | pcnt f | dtime f =>
    exact (decode_mop3A (by simp)).trans (by simp [decodeMop3A])
  | _ => exact absurd rfl hne

end Sys2Proof

open Sys2Proof

/-- Refutes O1: every term of the row UNASSIGNED_WORD is well-formed and encodes to its word as it stands, whether or not that word is
assigned. NOP's word is the counterexample: it is NOP that decodes from it, as from every word of a row of its own (`decode_encode`). -/
theorem not_encodeDecodeRoundTrip : ¬ Obligations.EncodeDecodeRoundTrip := by
  unfold Obligations.EncodeDecodeRoundTrip
  intro h
  have hrow : decode [0x1010000000000000] = .ok (.unassignedWord 0x1010000000000000) :=
    h (.unassignedWord 0x1010000000000000) (List.cons_ne_nil _ _) rfl
  have hnop : decode [0x1010000000000000] = .ok (.nop ⟨false, 0, 0, 0, 0⟩) :=
    decode_encode (i := .nop ⟨false, 0, 0, 0, 0⟩) (List.cons_ne_nil _ _) rfl (fun _ => nofun)
  exact nomatch hrow.symm.trans hnop
end

section
/-! PROOFS. A word whose own fields break its encoding (02_instruction_words.md R41 to R49, R51, R52): every row begins with the check of
ILLEGAL, of which `Instr.wf` is a part, so where that fails the instruction takes ILLEGAL in the state as it stood. -/

namespace Sys2Proof.Machine

open Sys2Proof

/-- The outcome of ILLEGAL: the trap, taken in the state as it stood. -/
def State.illegal (s : State) : Out := .next (s.takeTrap { cause := .illegal })

/-! ### Bodies that begin with a check that fails -/

theorem State.need_false {s : State} {ok : Bool} {c : Cause} (h : ok = false) :
    s.need ok c = .error (.trap { cause := c } s) := by
  rw [h]; rfl

/-- Nothing of a body is reached past its first part, where that takes ILLEGAL. -/
theorem finish_of_illegal {α : Type} {len : Nat} {s : State} {x : Run α} {k : α → Run Ctl}
    (h : x = .error (.trap { cause := .illegal } s)) : finish len (x >>= k) = s.illegal := by
  rw [h]; rfl

/-- The checks of MRD and MWR (R235). -/
theorem State.mxLine_illegal {s : State} {f : EX} {rgnw : Bool} (h : f.okMrd = false) :
    s.mxLine f rgnw = .error (.trap { cause := .illegal } s) := by
  unfold State.mxLine
  rw [State.need_false (by simp [h])]; rfl

/-- The checks of a VR instruction (R90 to R94). -/
theorem finish_runVR_illegal {s : State} {ok fmt rgnw : Bool} {t : BitVec 3} {us : List Use} {body : VBody} {len : Nat}
    (h : ok = false) : finish len (s.runVR ok fmt rgnw t us body) = s.illegal := by
  unfold State.runVR
  rw [State.need_false (by simp [h])]; rfl

/-! ### The rows -/

/-- The first check of a row is of its own fields, whatever the state. -/
theorem exec_of_not_wf {i : Instr} (s : State) (hne : encode i ≠ []) (h : i.wf = false) : exec i s = s.illegal := by
  cases i with
  | br f | beq f | bne f | blt f | bge f | bltu f | bgeu f | bmz f | bmnz f | bmall f | call f | calli f | ret f
  | jmpi f | loop f | lbrk f | lcget f | lcset f | exit f | yield f | nop f | snooze f | mand f | mor f | mxor f
  | mandn f | mnot f | mpopc f | mffs f | mrange f | mtest f | mmov f | mlive f | add f | sub f | mul f | mulhs f
  | mulhu f | and f | or f | xor f | andn f | shl f | shr f | sar f | rotl f | min f | max f | minu f | maxu f
  | slt f | sltu f | seq f | sne f | clz f | ctz f | popc f | brev f | cmov f | addw f | subw f | mulw f | shlw f
  | shrw f | sarw f | sltw f | sltuw f | li f | liw f lit | lea f | movwCopy f | movwRelative f | zset f | zsets f
  | zrew f | zposRead f | zposSet f | zposEnd f | chopen f | chwait f | chclose f | bart f | bara f | barw f | barb f
  | sbinit f | sbarv f | sbwait f | batt f | bpost f | bread f | bdet f | bvseg f | bvcmp f | qbind f | qpush f
  | qpop f | qtry f | qstat f | mzero f | mwait f | mstat f | rcrt f | hnext f | hrd f | hend f | hjoin f | hrel f
  | rgnOpen f | rgnClose f | rgnAbort f | rds f | wrs f | trap f | brk f | eret f | sigs f | pcnt f | dtime f =>
    simp only [Instr.wf] at h
    exact finish_of_illegal (State.need_false (by simp [h]))
  | sld p f | sst p f | vld p f | vst p f | vldb p f | vstb p f | fence p f | cwb p f | cinv p f | pref p f
  | satom p f | vatom p f | fxadd p f | fxrd p f | waitv p f | copyLinear p f | copyDescribed p f | copyg p f
  | copys p f | copyr p f | mloop p f | mst p f =>
    exact finish_of_illegal (State.need_false (by simp [h]))
  | mrd f | mwr f => exact finish_of_illegal (State.mxLine_illegal h)
  | vadd f | vsub f | vmul f | vmulh f | vmulhu f | vmad f | vand f | vor f | vxor f | vandn f | vshl f | vshr f
  | vsar f | vmin f | vmax f | vminu f | vmaxu f | vabs f | vneg f | vpopc f | vclz f | vicmp f | vfcmp f | vfadd f
  | vfsub f | vfmul f | vfma f | vfnma f | vfmin f | vfmax f | vfminn f | vfmaxn f | vfabs f | vfneg f | vfcps f
  | vfrnd f | vfdiv f | vfsqrt f | vfclass f | vrcp f | vrsq f | vexp2 f | vlog2 f | vsinpi f | vcospi f | vtanh f
  | vmov f | vsel f | vbcst f | vidx f | vget f | vput f | vcvtf f | vf2i f | vi2f f | vcvt8 f | vext8 f | vscale f
  | vbscl f | vpk8 f | vupk8 f | vrngs f | vrng f | vvote f | vshfl f | vmatch f | vred f | vscan f =>
    simp only [Instr.wf] at h
    exact finish_runVR_illegal (by simp [h])
  | unassignedWord w => exact nomatch h
  | _ => exact absurd rfl hne

end Sys2Proof.Machine

open Sys2Proof Sys2Proof.Machine

/-- Settles O4: by the first check of each row, and by the one arm of UNASSIGNED_WORD. -/
theorem illegalFormsTrap : Obligations.IllegalFormsTrap := by
  unfold Obligations.IllegalFormsTrap
  exact ⟨fun _ s hne hwf => exec_of_not_wf s hne hwf, fun _ _ => rfl⟩
end

section
/-! PROOFS. The turn of the agenda that a step takes: the step's time leaves the agenda and the groups' names as they are, and the
issue of a group at an instruction of its block runs what its words decode to (02_instruction_words.md R32, R33, R47, R51, R52). -/

namespace Sys2Proof.Machine

open Sys2Proof

/-! ### What a write-back leaves alone (R134, R135) -/

/-- Who is in focus and which turns are to come: what a write-back of a line leaves as it is. -/
def State.turns (s : State) : Group × List Turn := (s.grp, s.agenda)

theorem State.grp_of_turns {s t : State} (h : t.turns = s.turns) : t.grp = s.grp := congrArg Prod.fst h
theorem State.agenda_of_turns {s t : State} (h : t.turns = s.turns) : t.agenda = s.agenda := congrArg Prod.snd h

@[simp] theorem State.countEvent_turns (s : State) (f sel n : Nat) :
    (s.countEvent f sel n).turns = s.turns := by
  obtain ⟨r, h⟩ := s.countEvent_only f sel n
  rw [h]
  rfl

@[simp] theorem State.mscKeep_turns (s : State) (f l : Nat) : (s.mscKeep f l).turns = s.turns := by
  unfold State.mscKeep
  split
  · rfl
  · split
    · rfl
    · exact s.countEvent_turns _ _ _

@[simp] theorem State.mscWrite_turns (s : State) (f l : Nat) : (s.mscWrite f l).turns = s.turns := by
  unfold State.mscWrite
  rw [State.mscKeep_turns]
  split <;> simp

@[simp] theorem State.countWrite_turns (s : State) (f c l : Nat) :
    (s.countWrite f c l).turns = s.turns := by
  unfold State.countWrite
  split <;> simp

@[simp] theorem State.fillL2_turns (s : State) (c l k p : Nat) :
    (s.fillL2 c l k p).turns = s.turns := by
  simp only [State.fillL2, State.allocL2]
  split
  · rfl
  · split <;> rfl

@[simp] theorem State.wroteL2_turns (s : State) (c : Nat) (w : Want) (l : Nat) :
    (s.wroteL2 c w l).turns = s.turns := by
  simp only [State.wroteL2]
  split
  · split <;> simp
  · simp

@[simp] theorem State.writeL2Byte_turns (s : State) (c k : Nat) (x : Byte) :
    (s.writeL2Byte c k x).turns = s.turns := by
  have hback : (s.setBacking k x).turns = s.turns := by
    unfold State.setBacking
    split <;> rfl
  exact hback

@[simp] theorem State.writeBackBytes_turns (s : State) (c : Nat) (l : L1Line) (os : List Nat) :
    (s.writeBackBytes c l os).turns = s.turns := by
  induction os generalizing s with
  | nil => rfl
  | cons o os ih =>
    rw [State.writeBackBytes, ih]
    split <;> simp

@[simp] theorem State.writeBackLine_turns (s : State) (c : Nat) (l : L1Line) :
    (s.writeBackLine c l).turns = s.turns := by
  unfold State.writeBackLine
  split
  · rfl
  · rw [State.writeBackBytes_turns]
    split <;> simp

@[simp] theorem State.evictL1_turns (s : State) (c l : Nat) : (s.evictL1 c l).turns = s.turns := by
  have hclean : (s.cleanLine c l).turns = s.turns := by
    unfold State.cleanLine
    split
    · exact s.writeBackLine_turns _ _
    · rfl
  exact hclean

@[simp] theorem State.trimCore_turns (s : State) (core : Nat) : (s.trimCore core).turns = s.turns :=
  State.foldl_keeps State.turns (fun t (l : L1Line) => t.evictL1 core l.line) (fun t l => t.evictL1_turns core l.line) _ s

@[simp] theorem State.trimL1_turns (s : State) : s.trimL1.turns = s.turns := by
  unfold State.trimL1
  split
  · rfl
  · exact State.foldl_keeps State.turns _ State.trimCore_turns _ s

/-! ### The time of a step -/

/-- The step's time leaves the agenda. -/
@[simp] theorem State.tick_agenda (s : State) : s.tick.agenda = s.agenda :=
  show s.trimL1.agenda = s.agenda from State.agenda_of_turns s.trimL1_turns

/-- The step's time leaves who the group in focus is. -/
@[simp] theorem State.tick_id (s : State) : s.tick.grp.id = s.grp.id :=
  show s.trimL1.grp.id = s.grp.id from congrArg Group.id (State.grp_of_turns s.trimL1_turns)

/-- The state in which a step takes its turn: its time has passed, and `rest` is left of the agenda. -/
def State.ticked (s : State) (rest : List Turn) : State := { s.tick with agenda := rest }

@[simp] theorem State.ticked_grp (s : State) (rest : List Turn) : (s.ticked rest).grp = s.tick.grp := rfl

theorem State.ticked_atInsn {s : State} (rest : List Turn) (h : s.tick.atInsn) : (s.ticked rest).atInsn := h

/-- A step passes its time and takes the next turn of the agenda. -/
theorem step_of_agenda {s : State} {turn : Turn} {rest : List Turn} (h : s.agenda = turn :: rest) :
    step s = (s.ticked rest).run turn := by
  rw [step, State.tick_agenda, h]
  rfl

/-- An event of the agenda runs its row on its argument. -/
theorem State.run_event {row : Instr} (s : State) (arg : EvArg) (h : encode row = []) :
    s.run (.event row arg) = exec row { s with ev := arg } := by
  simp [State.run, State.event, h]

/-! ### The issue of a group (R27, R32, R47) -/

/-- The group in focus issues by its own turn, where no PREEMPT is due. -/
theorem State.run_issue_focused {s : State} {uid : Nat} (huid : s.grp.id.uid = uid) (hpre : s.grp.preempt = .none) :
    s.run (.issue uid) = s.turn := by
  simp [State.run, State.issue, State.focus, huid, hpre]

/-- The turn of a group that stands at an instruction of its block runs that instruction's words. -/
theorem State.turn_of_atInsn {s : State} (h : s.atInsn) : s.turn = (s.onGrp Group.choose).runWord := by
  obtain ⟨hready, hchosen, -, hlimit, hchunk, hhdr, -⟩ := h
  have hstatus : s.grp.status = .ready := by
    simp only [State.isReady, Bool.and_eq_true, decide_eq_true_eq] at hready
    tauto
  have hword : (s.onGrp Group.choose).runInsn = (s.onGrp Group.choose).runWord := by
    rw [State.runInsn, if_neg (show (s.onGrp Group.choose).grp.pc ≠ (s.onGrp Group.choose).grp.blockHdr from hhdr)]
  simp [State.turn, hstatus, hready, hchosen, hlimit, hchunk, hword]

/-- A group that is not at its block's end runs the instruction at its pc. -/
theorem State.runWord_of_insn {s : State} {i : Instr} (h : s.grp.pc ≠ s.grp.blockEnd) (hi : s.fetched.insn = .ok i) :
    s.runWord = exec i s.fetched := by
  rw [State.runWord, if_neg h, hi]

/-- Where there is none at its pc, it takes the trap of the fetch or of the decoding. -/
theorem State.runWord_of_insn_error {s : State} {e : Trap} (h : s.grp.pc ≠ s.grp.blockEnd)
    (he : s.fetched.insn = .error e) : s.runWord = .next (s.fetched.takeTrap e) := by
  rw [State.runWord, if_neg h, he]

/-- The instruction at the pc is the one that the words there decode to. -/
theorem State.insn_of_decode {s : State} {ws : List DWord} {i : Instr} (hws : s.insnWords = .ok ws) (hi : decode ws = .ok i) :
    s.insn = .ok i := by
  simp [State.insn, hws, hi]

/-- Words that decode to none are ILLEGAL. -/
theorem State.insn_of_decode_error {s : State} {ws : List DWord} {e : DecodeErr} (hws : s.insnWords = .ok ws)
    (he : decode ws = .error e) : s.insn = .error { cause := .illegal } := by
  simp [State.insn, hws, he]

/-- Words that cannot be fetched are the trap of the fetch. -/
theorem State.insn_of_fetch_error {s : State} {e : Trap} (h : s.insnWords = .error e) : s.insn = .error e := by
  simp [State.insn, h]

/-! ### The next word (R33, R61) -/

/-- Short of the block's end, an instruction that completes changes its group's pc, its counts and its status, and nothing else. -/
theorem State.retire_inBlock {s : State} {len : Nat} (h : s.grp.pc + BitVec.ofNat 64 (8 * len) ≠ s.grp.blockEnd) :
    s.retire len = { s with grp := { s.grp with
      pc := s.grp.pc + BitVec.ofNat 64 (8 * len), retired := s.grp.retired + 1, progress := s.grp.progress + 1,
      status := .ready, remoteGot := [], denied := false } } := by
  rw [State.retire, State.continueAt, if_neg (by exact h)]
  rfl

end Sys2Proof.Machine

open Sys2Proof Sys2Proof.Machine

/-- Settles O3: the step takes the head of the agenda after its time has passed; the issue of a group at an instruction of its block
comes down to that instruction's words, and an event's turn to its row. -/
theorem stepRunsDecodedInstruction : Obligations.StepRunsDecodedInstruction := by
  unfold Obligations.StepRunsDecodedInstruction
  refine ⟨?issue, ?event⟩
  case issue =>
    intro s c rest hagenda hat hc
    subst hc
    obtain ⟨-, -, hpre, -, -, -, hend⟩ := State.ticked_atInsn rest hat
    have hstep : step s = ((s.ticked rest).onGrp Group.choose).runWord := by
      rw [step_of_agenda hagenda, State.run_issue_focused (by simp) hpre, State.turn_of_atInsn (State.ticked_atInsn rest hat)]
    refine ⟨fun ws i hws hi => ?_, fun ws e hws he => ?_, fun e he => ?_⟩
    · exact hstep.trans (State.runWord_of_insn hend (State.insn_of_decode hws hi))
    · exact hstep.trans (State.runWord_of_insn_error hend (State.insn_of_decode_error hws he))
    · exact hstep.trans (State.runWord_of_insn_error hend (State.insn_of_fetch_error he))
  case event =>
    intro s rest row arg hagenda hrow
    exact (step_of_agenda hagenda).trans (State.run_event _ arg hrow)

/-- Settles O5: short of the block's end, execution continues by the pc alone. -/
theorem nextWordFollows : Obligations.NextWordFollows := by
  unfold Obligations.NextWordFollows
  intro s len h
  exact State.retire_inBlock h
end

section
/-! PROOFS. What a body with its checks passed comes to, and the instructions of control: branches, calls, jumps and loops
(03_control.md R60, R69 to R73, R76). -/

namespace Sys2Proof.Machine

open Sys2Proof

/-! ### Bodies whose checks pass, or end in a trap -/

@[simp] theorem State.need_true (s : State) (c : Cause) : s.need true c = .ok () := rfl

@[simp] theorem State.chk_ok {α : Type} (s : State) (a : α) : s.chk (.ok a) = .ok a := rfl

@[simp] theorem State.chk_error {α : Type} (s : State) (e : Trap) : s.chk (.error e : Chk α) = .error (.trap e s) := rfl

/-- A body goes on after a part that gives a value. -/
@[simp] theorem Run.ok_bind {α β : Type} (a : α) (k : α → Run β) : ((.ok a : Run α) >>= k) = k a := rfl

/-- A body ends with a part that ends it. -/
@[simp] theorem Run.error_bind {α β : Type} (c : Ctl) (k : α → Run β) : ((.error c : Run α) >>= k) = .error c := rfl

@[simp] theorem Run.pure_eq {α : Type} (a : α) : (pure a : Run α) = .ok a := rfl

@[simp] theorem finish_ok (len : Nat) (c : Ctl) : finish len (.ok c) = settle len c := rfl

@[simp] theorem finish_error (len : Nat) (c : Ctl) : finish len (.error c) = settle len c := rfl

@[simp] theorem settle_done (len : Nat) (s : State) : settle len (.done s) = .next (s.retire len) := rfl
@[simp] theorem settle_goto (len : Nat) (t : DWord) (s : State) : settle len (.goto t s) = .next (s.transfer t) := rfl
@[simp] theorem settle_at (len : Nat) (s : State) : settle len (.at_ s) = .next s := rfl
@[simp] theorem settle_trap (len : Nat) (e : Trap) (s : State) : settle len (.trap e s) = .next (s.takeTrap e) := rfl
@[simp] theorem settle_wait (len : Nat) (w : Wait) (s : State) : settle len (.wait w s) = .next (s.waitFor w) := rfl

/-! ### Transfers of control (R60) -/

theorem finish_jump_of_check {len : Nat} {s : State} {t : DWord} {h : Header} (hc : s.check t = .ok h) :
    finish len (s.jump t) = .next (s.transfer t) := by
  simp [State.jump, hc]

theorem finish_jump_of_check_error {len : Nat} {s : State} {t : DWord} {e : Trap} (hc : s.check t = .error e) :
    finish len (s.jump t) = .next (s.takeTrap e) := by
  simp [State.jump, hc]

/-! ### Branches (R69) -/

/-- What a branch does where its fields are in order and `P` is its condition. -/
theorem finish_branch {s : State} {ok taken : Bool} {off : Word} {P : Prop} (hok : ok = true) (htaken : taken = true ↔ P) :
    (¬ P → finish 1 (s.branch ok taken off) = .next (s.after 1 id)) ∧
    (P → (∀ h, s.check (s.grp.target off) = .ok h →
        finish 1 (s.branch ok taken off) = .next (s.transfer (s.grp.target off))) ∧
      (∀ e, s.check (s.grp.target off) = .error e → finish 1 (s.branch ok taken off) = .next (s.takeTrap e))) := by
  subst hok
  refine ⟨fun hP => ?_, fun hP => ?_⟩
  · have hno : taken = false := Bool.eq_false_iff.2 (mt htaken.1 hP)
    subst hno
    rfl
  · have hyes : s.branch true taken off = s.jump (s.grp.target off) := by rw [htaken.2 hP]; rfl
    rw [hyes]
    exact ⟨fun _ => finish_jump_of_check, fun _ => finish_jump_of_check_error⟩

/-- The register comparisons of R69 are branches on two scalars, each with its condition. -/
theorem condBranches_compare : ∀ p ∈ condBranches, ∃ c : Word → Word → Bool,
    (∀ f s, exec (p.1 f) s = branchCmp f c s) ∧ ∀ a b, c a b = true ↔ p.2 a b := by
  simp only [condBranches, List.forall_mem_cons]
  refine ⟨?beq, ?bne, ?blt, ?bge, ?bltu, ?bgeu, by simp⟩
  case beq | bne => exact ⟨_, fun _ _ => rfl, fun _ _ => decide_eq_true_iff⟩
  case blt => exact ⟨_, fun _ _ => rfl, fun _ _ => BitVec.slt_iff_toInt_lt⟩
  case bge => exact ⟨fun a b => !a.slt b, fun _ _ => rfl, fun a b => by simp [BitVec.slt_eq_decide]⟩
  case bltu => exact ⟨_, fun _ _ => rfl, fun _ _ => BitVec.ult_iff_toNat_lt⟩
  case bgeu => exact ⟨fun a b => !a.ult b, fun _ _ => rfl, fun a b => by simp [BitVec.ult_eq_decide]⟩

/-- The mask tests of R69 are branches on a mask, each with its condition. -/
theorem maskBranches_test : ∀ p ∈ maskBranches, ∃ c : LaneSet → LaneSet → Bool,
    (∀ f s, exec (p.1 f) s = branchMask f c s) ∧ ∀ m live, c m live = true ↔ p.2 m live := by
  simp only [maskBranches, List.forall_mem_cons]
  refine ⟨?bmz, ?bmnz, ?bmall, by simp⟩
  case bmz | bmnz | bmall => exact ⟨_, fun _ _ => rfl, fun _ _ => decide_eq_true_iff⟩

/-! ### Calls and indirect jumps (R70) -/

theorem finish_call {s : State} {ok : Bool} {d : BitVec 6} {t : DWord} {h : Header} (hok : ok = true)
    (hd : s.grp.pairOk d = true) (hlive : s.grp.liveInPair d = false) (hc : s.check t = .ok h) :
    finish 1 (s.call ok d t) = .next ((s.onGrp (fun g => g.wp d (g.pc + 8))).transfer t) := by
  simp [State.call, hok, hd, hlive, hc]

theorem finish_indirect {s : State} {f : CB} {h : Header} (hok : f.okJump = true) (ha : s.grp.pairOk f.a = true)
    (hc : s.check (s.grp.rp f.a) = .ok h) : finish 1 (s.indirect f) = .next (s.transfer (s.grp.rp f.a)) := by
  simp [State.indirect, hok, ha, finish_jump_of_check hc]

/-! ### Loops (R71 to R73) -/

/-- LOOP with the count 0 goes to its end. -/
theorem execLoop_zero {f : CB} {s : State} {h : Header} (hok : f.okLoop = true) (ha : s.grp.scalOk f.a = true)
    (hc : s.check (s.grp.target f.off) = .ok h) (hn : s.grp.rs f.a = 0) :
    execLoop f s = .next (s.transfer (s.grp.target f.off)) := by
  simp [execLoop, hok, ha, hc, hn]

/-- LOOP with a nonzero count opens a level below the third. -/
theorem execLoop_opens {f : CB} {s : State} {h : Header} (hok : f.okLoop = true) (ha : s.grp.scalOk f.a = true)
    (hc : s.check (s.grp.target f.off) = .ok h) (hn : s.grp.rs f.a ≠ 0) (hdepth : s.grp.depth < 3) :
    execLoop f s = .next (s.after 1 (fun g =>
      { g.openLoop (g.target f.off) (g.rs f.a) with loopBuf := s.takeBody (s.grp.target f.off) })) := by
  simp only [execLoop, hok, ha, hc, Bool.and_self, State.need_true, Run.ok_bind, State.chk_ok, if_neg hn,
    decide_eq_true hdepth]
  rfl

theorem execLbrk_leaves {f : CB} {s : State} {h : Header} (hok : f.okLbrk = true) (hdepth : s.grp.depth ≠ 0)
    (hc : s.check (s.grp.target f.off) = .ok h) :
    execLbrk f s = .next ((s.onGrp Group.leaveLoop).transfer (s.grp.target f.off)) := by
  simp [execLbrk, hok, hdepth, hc]

/-- LBRK takes the trap of Check on its target, with the loop state as it stands. -/
theorem execLbrk_of_check_error {f : CB} {s : State} {e : Trap} (hok : f.okLbrk = true) (hdepth : s.grp.depth ≠ 0)
    (hc : s.check (s.grp.target f.off) = .error e) : execLbrk f s = .next (s.takeTrap e) := by
  simp [execLbrk, hok, hdepth, hc]

theorem execLbrk_illegal {f : CB} {s : State} (h : f.okLbrk = false ∨ s.grp.depth = 0) :
    execLbrk f s = s.illegal :=
  finish_of_illegal (State.need_false (by simpa [Decidable.imp_iff_not_or] using h))

theorem execLcget_reads {f : CB} {s : State} (hok : f.okLcget = true) (hd : s.grp.scalOk f.d = true)
    (hlive : s.grp.liveIn f.d = false) :
    execLcget f s = .next (s.after 1 (fun g => g.ws f.d
      (if f.b = 3 then BitVec.ofNat 32 g.depth else g.lc[f.b.toNat]?.getD 0))) := by
  simp only [execLcget, hok, hd, hlive, Bool.and_self, Bool.not_false, State.need_true, Run.ok_bind]
  rfl

theorem execLcset_writes {f : CB} {s : State} (hok : f.okLcset = true) (ha : s.grp.scalOk f.a = true) :
    execLcset f s = .next (s.after 1 (fun g => { g with lc := g.lc.setIfInBounds f.b.toNat (g.rs f.a) })) := by
  simp [execLcset, hok, ha, State.after]

/-! ### Arrive (R60) -/

/-- Fuel beyond the depth changes nothing: each level that ends takes one. -/
theorem Group.arriveFuel_succ {fuel : Nat} {g : Group} (a : DWord) (h : g.depth ≤ fuel) :
    Group.arriveFuel (fuel + 1) g a = Group.arriveFuel fuel g a := by
  induction fuel generalizing g with
  | zero => simp [Group.arriveFuel, Nat.le_zero.1 h]
  | succ fuel ih =>
    have hleave := ih (g := { g with lc := g.lc.setIfInBounds (g.depth - 1) 0, depth := g.depth - 1 })
      (show g.depth - 1 ≤ fuel by omega)
    rw [Group.arriveFuel, Group.arriveFuel]
    simp only [hleave]

/-- An address that ends no active level is where the block is entered. -/
theorem Group.arrive_elsewhere {g : Group} {a : DWord} (h : g.depth = 0 ∨ a ≠ g.exit[g.depth - 1]?.getD 0) :
    g.arrive a = (g, a) := by
  rw [Group.arrive, Group.arriveFuel]
  rcases h with hdepth | ha
  · rw [if_pos hdepth]
  · simp only [if_neg ha, ite_self]

/-- At the exit of the innermost level, with a count above 1, one iteration is counted down and the body starts again. -/
theorem Group.arrive_again {g : Group} {a : DWord} (hdepth : g.depth ≠ 0) (ha : a = g.exit[g.depth - 1]?.getD 0)
    (hcount : 1 < (g.lc[g.depth - 1]?.getD 0).toNat) :
    g.arrive a = ({ g with lc := g.lc.setIfInBounds (g.depth - 1) (g.lc[g.depth - 1]?.getD 0 - 1) },
      g.start[g.depth - 1]?.getD 0) := by
  rw [Group.arrive, Group.arriveFuel]
  simp only [if_neg hdepth, if_pos ha, if_neg (Nat.not_le.2 hcount)]

/-- With the count 1 or 0 the level ends, and the arrival goes on at the same address. -/
theorem Group.arrive_ends {g : Group} {a : DWord} (hle : g.depth ≤ 3) (hdepth : g.depth ≠ 0)
    (ha : a = g.exit[g.depth - 1]?.getD 0) (hcount : (g.lc[g.depth - 1]?.getD 0).toNat ≤ 1) :
    g.arrive a = ({ g with lc := g.lc.setIfInBounds (g.depth - 1) 0, depth := g.depth - 1 } : Group).arrive a := by
  rw [Group.arrive, Group.arriveFuel]
  simp only [if_neg hdepth, if_pos ha, if_pos hcount]
  exact (Group.arriveFuel_succ a (show g.depth - 1 ≤ 2 by omega)).symm

end Sys2Proof.Machine

open Sys2Proof Sys2Proof.Machine

/-- Settles O8: every branch of the tables is one test and one jump, a call and an indirect jump are one Check and one transfer. -/
theorem branchesCallsAndJumpsTransfer : Obligations.BranchesCallsAndJumpsTransfer := by
  unfold Obligations.BranchesCallsAndJumpsTransfer
  refine ⟨⟨?br, ?cond, ?mask⟩, fun s f h => ⟨?call, ?calli, ?jump⟩⟩
  case br =>
    intro s f h hok hc
    exact ((finish_branch hok (iff_of_true rfl trivial)).2 trivial).1 h hc
  case cond =>
    intro p hp s f hok ha hb
    obtain ⟨c, hexec, hiff⟩ := condBranches_compare p hp
    rw [hexec]
    exact finish_branch (by simp [hok, ha, hb]) (hiff _ _)
  case mask =>
    intro p hp s f hok ha
    obtain ⟨c, hexec, hiff⟩ := maskBranches_test p hp
    rw [hexec]
    exact finish_branch (by simp [hok, ha]) (hiff _ _)
  case call => exact fun hok hd hlive hc => finish_call hok hd hlive hc
  case calli => exact fun hok hd ha hlive hc => finish_call (by simp [hok, ha]) hd hlive hc
  case jump => exact fun hok ha hc => ⟨finish_indirect hok ha hc, finish_indirect hok ha hc⟩

/-- Settles O9: the four loop instructions each by its cases, and Arrive by the innermost level alone. -/
theorem loopsFollowTheirCounts : Obligations.LoopsFollowTheirCounts := by
  unfold Obligations.LoopsFollowTheirCounts
  refine ⟨⟨?loop, ?lbrk, ?lcget, ?lcset⟩, ?arrive⟩
  case loop => exact fun s f h hok ha hc => ⟨execLoop_zero hok ha hc, execLoop_opens hok ha hc⟩
  case lbrk => exact fun s f h hok hdepth hc => execLbrk_leaves hok hdepth hc
  case lcget => exact fun s f hok hd hlive => execLcget_reads hok hd hlive
  case lcset => exact fun s f hok ha => execLcset_writes hok ha
  case arrive => exact fun g a hle => ⟨Group.arrive_elsewhere, Group.arrive_again, Group.arrive_ends hle⟩
end

section
/-! PROOFS. The instructions that write a scalar, a pair or a triple, and the mask triples (03_control.md R63, R78). -/

namespace Sys2Proof.Machine

open Sys2Proof

/-! ### Bodies that write a register -/

/-- Of the change that an instruction makes to its group only what it makes of that group counts. -/
theorem State.after_congr {s : State} {len : Nat} {f g : Group → Group} (h : f s.grp = g s.grp) :
    s.after len f = s.after len g := by
  rw [State.after, State.after, State.onGrp, State.onGrp, h]

theorem finish_toScalar {s : State} {ok : Bool} {d : BitVec 6} {x : Word} {len : Nat} (hok : ok = true)
    (hd : s.grp.scalOk d = true) (hlive : s.grp.liveIn d = false) :
    finish len (s.toScalar ok d x) = .next (s.after len (fun g => g.ws d x)) := by
  simp only [State.toScalar, hok, hd, hlive, Bool.and_self, Bool.not_false, State.need_true, Run.ok_bind]
  rfl

theorem finish_toPair {s : State} {ok : Bool} {d : BitVec 6} {x : DWord} {len : Nat} (hok : ok = true)
    (hd : s.grp.pairOk d = true) (hlive : s.grp.liveInPair d = false) :
    finish len (s.toPair ok d x) = .next (s.after len (fun g => g.wp d x)) := by
  simp only [State.toPair, hok, hd, hlive, Bool.and_self, Bool.not_false, State.need_true, Run.ok_bind]
  rfl

theorem finish_toTriple {s : State} {ok : Bool} {d : BitVec 6} {m : LaneSet} {len : Nat} (hok : ok = true)
    (hd : s.grp.tripOk d = true) (hlive : s.grp.liveInTriple d = false) :
    finish len (s.toTriple ok d m) = .next (s.after len (fun g => g.setRaw d m)) := by
  simp only [State.toTriple, hok, hd, hlive, Bool.and_self, Bool.not_false, State.need_true, Run.ok_bind]
  rfl

/-! ### Sets of lanes -/

/-- The sum of the powers of two of the numbers below `n` that a test picks has their bits, and no other. -/
theorem testBit_sum_pow (p : Nat → Bool) (n : Nat) :
    ((List.range n).filter p).foldl (fun x l => x + 2 ^ l) 0 < 2 ^ n ∧
    ∀ k, k < n → (((List.range n).filter p).foldl (fun x l => x + 2 ^ l) 0).testBit k = p k := by
  induction n with
  | zero => simp
  | succ n ih =>
    obtain ⟨hlt, hbit⟩ := ih
    rw [List.range_succ, List.filter_append, List.foldl_append]
    generalize ((List.range n).filter p).foldl (fun x l => x + 2 ^ l) 0 = x at hlt hbit
    have htop : x.testBit n = false := Nat.testBit_lt_two_pow hlt
    cases hp : p n with
    | false =>
      refine ⟨by simp [hp]; omega, fun k hk => ?_⟩
      rcases Nat.lt_succ_iff_lt_or_eq.1 hk with hk | rfl
      · simp [hp, hbit k hk]
      · simp [hp, htop]
    | true =>
      refine ⟨by simp [hp]; omega, fun k hk => ?_⟩
      rcases Nat.lt_succ_iff_lt_or_eq.1 hk with hk | rfl
      · simp [hp, Nat.add_comm x, Nat.testBit_two_pow_add_gt hk, hbit k hk]
      · simp [hp, Nat.add_comm x, Nat.testBit_two_pow_add_eq, htop]

/-- MRANGE's set holds the lanes from the first bound up to but not including the second. -/
theorem getLsbD_laneRange {lo hi l : Nat} (hl : l < 96) : (laneRange lo hi).getLsbD l = true ↔ lo ≤ l ∧ l < hi := by
  have hbit := (testBit_sum_pow (fun l => decide (lo ≤ l) && decide (l < hi)) 96).2 l hl
  rw [laneRange, BitVec.getLsbD_ofNat, hbit]
  simp [hl]

/-- LiveMask holds the lanes of the group. -/
theorem getLsbD_liveMask {lanes l : Nat} (hl : l < 96) : (liveMask lanes).getLsbD l = true ↔ l < lanes := by
  rw [liveMask, BitVec.getLsbD_ofNat, Nat.testBit_two_pow_sub_one]
  simp [hl]

/-- The lanes of a set are counted one by one. -/
theorem popCount_eq_countP (m : LaneSet) : popCount m = (List.range 96).countP (fun l => m.getLsbD l) := by
  rw [popCount, lanesOf, List.countP_eq_length_filter]

/-- The value that MFFS writes: the lowest lane of a set, or 0xFFFFFFFF where there is none. -/
def lowestLane (m : LaneSet) : Word :=
  match lanesOf m with
  | l :: _ => BitVec.ofNat 32 l
  | [] => 0xFFFFFFFF

/-- The first of the lanes of a set is the first lane that the set holds. -/
theorem lanesOf_head? (m : LaneSet) : (lanesOf m).head? = (List.range 96).find? (fun l => m.getLsbD l) :=
  List.head?_filter

theorem lanesOf_eq_nil_iff (m : LaneSet) : lanesOf m = [] ↔ m = 0 := by
  rw [lanesOf, List.filter_eq_nil_iff]
  refine ⟨fun h => BitVec.eq_of_getLsbD_eq fun l hl => ?_, fun h l _ => by simp [h]⟩
  simpa using h l (List.mem_range.2 hl)

theorem lowestLane_zero : lowestLane 0 = 0xFFFFFFFF := by
  rw [lowestLane, (lanesOf_eq_nil_iff 0).2 rfl]

/-- The lowest lane is in the set, and none below it is. -/
theorem lowestLane_of_ne_zero {m : LaneSet} (h : m ≠ 0) :
    m.getLsbD (lowestLane m).toNat = true ∧ ∀ l, l < (lowestLane m).toNat → m.getLsbD l = false := by
  obtain ⟨l, ls, hls⟩ := List.exists_cons_of_ne_nil (mt (lanesOf_eq_nil_iff m).1 h)
  have hfind : (List.range 96).find? (fun l => m.getLsbD l) = some l := by rw [← lanesOf_head?, hls]; rfl
  obtain ⟨hmem, hlt, hbelow⟩ := List.find?_range_eq_some.1 hfind
  have hlow : (lowestLane m).toNat = l := by
    rw [List.mem_range] at hlt
    simp only [lowestLane, hls, BitVec.toNat_ofNat]
    omega
  rw [hlow]
  exact ⟨hmem, fun k hk => by simpa using hbelow k hk⟩

/-! ### The instructions -/

/-- The logic forms of R78 are one operation on raw triples, which works lane by lane. -/
theorem tripleOps_lanewise : ∀ p ∈ tripleOps, ∃ op : LaneSet → LaneSet → LaneSet,
    (∀ f s, exec (p.1 f) s = tripleLogic f op s) ∧
    ∀ a b l, l < 96 → (op a b).getLsbD l = p.2 (a.getLsbD l) (b.getLsbD l) := by
  simp only [tripleOps, List.forall_mem_cons]
  refine ⟨?mand, ?mor, ?mxor, ?mandn, by simp⟩
  case mand => exact ⟨_, fun _ _ => rfl, fun a b l _ => BitVec.getLsbD_and⟩
  case mor => exact ⟨_, fun _ _ => rfl, fun a b l _ => BitVec.getLsbD_or⟩
  case mxor => exact ⟨_, fun _ _ => rfl, fun a b l _ => BitVec.getLsbD_xor⟩
  case mandn => exact ⟨fun a b => a &&& ~~~b, fun _ _ => rfl, fun a b l hl => by simp [hl]⟩

theorem tripleLogic_writes {f : SR} {op : LaneSet → LaneSet → LaneSet} {s : State} (hok : f.okTriples = true)
    (hd : s.grp.srTripleOk f) (ha : s.grp.tripOk f.a = true) (hb : s.grp.tripOk f.b = true) :
    tripleLogic f op s = .next (s.after 1 (fun g => g.setRaw f.d (op (s.grp.raw f.a) (s.grp.raw f.b)))) :=
  finish_toTriple (by simp [hok, ha, hb]) hd.1 hd.2

theorem execMmov_writes {f : SR} {s : State} (hok : f.okTriple2 = true) (hd : s.grp.srTripleOk f)
    (ha : s.grp.tripOk f.a = true) : execMmov f s = .next (s.after 1 (fun g => g.setRaw f.d (s.grp.raw f.a))) :=
  finish_toTriple (by simp [hok, ha]) hd.1 hd.2

theorem execMnot_writes {f : SR} {s : State} (hok : f.okTriple2 = true) (hd : s.grp.srTripleOk f)
    (ha : s.grp.tripOk f.a = true) : execMnot f s = .next (s.after 1 (fun g => g.setRaw f.d (~~~(s.grp.raw f.a)))) :=
  finish_toTriple (by simp [hok, ha]) hd.1 hd.2

theorem execMrange_writes {f : SR} {s : State} (hok : f.okRange = true) (hd : s.grp.srTripleOk f)
    (ha : s.grp.scalOk f.a = true) (hb : s.grp.scalOk f.b = true) :
    execMrange f s =
      .next (s.after 1 (fun g => g.setRaw f.d (laneRange (s.grp.rs f.a).toNat (s.grp.srcB f).toNat))) :=
  finish_toTriple (by simp [hok, ha, hb]) hd.1 hd.2

theorem execMlive_writes {f : SR} {s : State} (hok : f.okLive = true) (hd : s.grp.srTripleOk f) :
    execMlive f s = .next (s.after 1 (fun g => g.setRaw f.d s.grp.live)) :=
  finish_toTriple hok hd.1 hd.2

theorem execMpopc_writes {f : SR} {s : State} (hok : f.okCount = true) (ha : s.grp.tripOk f.a = true)
    (hd : s.grp.scalOk f.d = true) (hlive : s.grp.liveIn f.d = false) :
    execMpopc f s = .next (s.after 1 (fun g => g.ws f.d (BitVec.ofNat 32 (popCount (s.grp.mask f.a))))) :=
  finish_toScalar (by simp [hok, ha]) hd hlive

theorem execMffs_writes {f : SR} {s : State} (hok : f.okCount = true) (ha : s.grp.tripOk f.a = true)
    (hd : s.grp.scalOk f.d = true) (hlive : s.grp.liveIn f.d = false) :
    execMffs f s = .next (s.after 1 (fun g => g.ws f.d (lowestLane (s.grp.mask f.a)))) :=
  finish_toScalar (by simp [hok, ha]) hd hlive

theorem execMtest_writes {f : SR} {s : State} (hok : f.okTest = true) (ha : s.grp.tripOk f.a = true)
    (hb : s.grp.scalOk f.b = true) (hd : s.grp.scalOk f.d = true) (hlive : s.grp.liveIn f.d = false) :
    execMtest f s =
      .next (s.after 1 (fun g => g.ws f.d (boolWord ((s.grp.mask f.a).getLsbD (s.grp.srcB f).toNat)))) :=
  finish_toScalar (by simp [hok, ha, hb]) hd hlive

end Sys2Proof.Machine

open Sys2Proof Sys2Proof.Machine

/-- Settles O10: each instruction writes one set of lanes or one number, whose bits or value the lemmas about sets of lanes give. -/
theorem maskTriplesComputed : Obligations.MaskTriplesComputed := by
  unfold Obligations.MaskTriplesComputed
  refine ⟨⟨?logic, ?copy, ?range, ?live⟩, ?count, ?test⟩
  case logic =>
    intro p hp s f hok hd ha hb
    obtain ⟨op, hexec, hlane⟩ := tripleOps_lanewise p hp
    exact ⟨_, (hexec f s).trans (tripleLogic_writes hok hd ha hb), hlane _ _⟩
  case copy =>
    intro s f hok hd ha
    exact ⟨execMmov_writes hok hd ha, _, execMnot_writes hok hd ha, fun l hl => by simp [hl]⟩
  case range =>
    intro s f hok hd ha hb
    exact ⟨_, execMrange_writes hok hd ha hb, fun l hl => getLsbD_laneRange hl⟩
  case live =>
    intro s f hok hd
    exact ⟨_, execMlive_writes hok hd, fun _ l hl => getLsbD_liveMask hl⟩
  case count =>
    intro s f hok ha hd hlive
    refine ⟨?_, _, execMffs_writes hok ha hd hlive, fun hzero => ?_, lowestLane_of_ne_zero⟩
    · exact (execMpopc_writes hok ha hd hlive).trans
        (congrArg _ (State.after_congr (by rw [popCount_eq_countP])))
    · rw [hzero, lowestLane_zero]
  case test =>
    intro s f hok ha hb hd hlive
    exact (execMtest_writes hok ha hb hd hlive).trans (congrArg _ (State.after_congr (by rw [boolWord])))
end

section
/-! PROOFS. The frame of the SR instructions that only write scalars (00_scope.md R9, 03_control.md R78, 04_scalar.md R79, R82 to
R87): each of them, in order, writes one scalar, pair or triple and goes on, and such a write leaves everything else. -/

namespace Sys2Proof.Machine

open Sys2Proof

/-! ### What a write of scalars leaves -/

/-- A change of a group touches nothing but its scalars. -/
def OnlyScalars (f : Group → Group) : Prop := ∀ g, f g = { g with sreg := (f g).sreg }

theorem onlyScalars_ws (n : BitVec 6) (x : Word) : OnlyScalars (fun g => g.ws n x) := by
  intro g
  simp only [Group.ws]
  split <;> rfl

theorem OnlyScalars.comp {f h : Group → Group} (hf : OnlyScalars f) (hh : OnlyScalars h) :
    OnlyScalars (fun g => h (f g)) := by
  intro g
  show h (f g) = { g with sreg := (h (f g)).sreg }
  rw [hh (f g), hf g]

theorem onlyScalars_wp (n : BitVec 6) (x : DWord) : OnlyScalars (fun g => g.wp n x) := by
  intro g
  simp only [Group.wp]
  split
  · rfl
  · exact (onlyScalars_ws n _).comp (onlyScalars_ws (n + 1) _) g

theorem onlyScalars_setRaw (b : BitVec 6) (m : LaneSet) : OnlyScalars (fun g => g.setRaw b m) :=
  ((onlyScalars_ws _ _).comp (onlyScalars_ws _ _)).comp (onlyScalars_ws _ _)

theorem Group.ws_sreg_other (g : Group) {n : BitVec 6} (x : Word) {k : Nat} (hk : k ≠ n.toNat) :
    (g.ws n x).sreg[k]? = g.sreg[k]? := by
  rw [Group.ws]
  split
  · rfl
  · exact Vector.getElem?_set_ne (by have := n.isLt; omega) hk.symm

theorem Group.wp_sreg_other (g : Group) {n : BitVec 6} (x : DWord) (heven : n.toNat % 2 = 0) {k : Nat}
    (hk : k ≠ n.toNat) (hk1 : k ≠ n.toNat + 1) : (g.wp n x).sreg[k]? = g.sreg[k]? := by
  obtain ⟨-, -, hsucc⟩ := succ_of_even n heven
  rw [Group.wp]
  split
  · rfl
  · rw [Group.ws_sreg_other _ _ (by rwa [hsucc]), Group.ws_sreg_other _ _ hk]

/-- The registers of a triple follow its base. -/
theorem toNat_tripleBase_add {b : BitVec 6} (h : tripleOk b = true) :
    (tripleBase b + 1).toNat = (tripleBase b).toNat + 1 ∧ (tripleBase b + 2).toNat = (tripleBase b).toNat + 2 := by
  have hb : b.toNat < 62 := by simpa [tripleOk] using h
  have hbase : (tripleBase b).toNat ≤ 61 := by
    rw [tripleBase]
    split
    · decide
    · omega
  constructor <;> rw [BitVec.toNat_add] <;> simp <;> omega

theorem Group.setRaw_sreg_other (g : Group) {b : BitVec 6} (m : LaneSet) (hb : tripleOk b = true) {k : Nat}
    (hk : k < (tripleBase b).toNat ∨ (tripleBase b).toNat + 2 < k) : (g.setRaw b m).sreg[k]? = g.sreg[k]? := by
  obtain ⟨h1, h2⟩ := toNat_tripleBase_add hb
  rw [Group.setRaw, Group.ws_sreg_other _ _ (by omega), Group.ws_sreg_other _ _ (by omega),
    Group.ws_sreg_other _ _ (by omega)]

/-- An instruction that changes scalars of its group and does not end its block changes nothing else but the pc and the counts. -/
theorem State.after_inBlock {s : State} {len : Nat} {f : Group → Group} (hf : OnlyScalars f)
    (hend : s.grp.pc + BitVec.ofNat 64 (8 * len) ≠ s.grp.blockEnd) :
    s.after len f = { s with grp := { s.grp with
      sreg := (f s.grp).sreg, pc := s.grp.pc + BitVec.ofNat 64 (8 * len), retired := s.grp.retired + 1,
      progress := s.grp.progress + 1, status := .ready, remoteGot := [], denied := false } } := by
  have hgrp : s.onGrp f = { s with grp := { s.grp with sreg := (f s.grp).sreg } } := by
    rw [State.onGrp, hf s.grp]
  rw [State.after, hgrp, State.retire_inBlock (by exact hend)]

/-! ### What each instruction writes -/

/-- The binary operations of R82 are one form of instruction. -/
theorem scalarOps_form : ∀ p ∈ scalarOps, ∃ op : Word → Word → Word, ∀ f s,
    exec (p.1 f) s = scalarBin (p.1 f).wf f op s ∧ srWords (p.1 f) = 1 := by
  intro p hp
  fin_cases hp
  all_goals exact ⟨_, fun _ _ => ⟨by dsimp only [exec]; rfl, rfl⟩⟩

/-- The pair operations of R83 are one form of instruction. -/
theorem pairOps_form : ∀ p ∈ pairOps, ∃ op : DWord → DWord → DWord, ∀ f s,
    exec (p.1 f) s = pairBin f op s ∧ (p.1 f).wf = f.okPair true true ∧ srWords (p.1 f) = 1 := by
  intro p hp
  fin_cases hp
  all_goals exact ⟨_, fun _ _ => ⟨by dsimp only [exec]; rfl, rfl, rfl⟩⟩

/-- The pair shifts of R83 are one form of instruction. -/
theorem pairShifts_form : ∀ p ∈ pairShifts, ∃ op : DWord → Nat → DWord, ∀ f s,
    exec (p.1 f) s = pairShift f op s ∧ (p.1 f).wf = f.okPairShift ∧ srWords (p.1 f) = 1 := by
  intro p hp
  fin_cases hp
  all_goals exact ⟨_, fun _ _ => ⟨by dsimp only [exec]; rfl, rfl, rfl⟩⟩

/-- The pair comparisons of R83 are one form of instruction. -/
theorem pairTests_form : ∀ p ∈ pairTests, ∃ op : DWord → DWord → Bool, ∀ f s,
    exec (p.1 f) s = pairCmp f op s ∧ (p.1 f).wf = f.okPair false true ∧ srWords (p.1 f) = 1 := by
  intro p hp
  fin_cases hp
  all_goals exact ⟨_, fun _ _ => ⟨by dsimp only [exec]; rfl, rfl, rfl⟩⟩

/-- The logic forms of R78 are words of three triples. -/
theorem tripleOps_wf : ∀ p ∈ tripleOps, ∀ f, (p.1 f).wf = f.okTriples ∧ srWords (p.1 f) = 1 := by
  intro p hp
  fin_cases hp
  all_goals exact fun _ => ⟨rfl, rfl⟩

theorem scalarBin_writes {ok : Bool} {f : SR} {op : Word → Word → Word} {s : State} (hok : ok = true) (hs : s.grp.srOk f) :
    scalarBin ok f op s = .next (s.after 1 (fun g => g.ws f.d (op (s.grp.rs f.a) (s.grp.srcB f)))) := by
  obtain ⟨hd, ha, hb, hlive⟩ := hs
  exact finish_toScalar (by simp [hok, ha, hb]) hd hlive

theorem scalarUn_writes {f : SR} {op : Word → Word} {s : State} (hok : f.okUnary = true) (hs : s.grp.srOk f) :
    scalarUn f op s = .next (s.after 1 (fun g => g.ws f.d (op (s.grp.rs f.a)))) := by
  obtain ⟨hd, ha, -, hlive⟩ := hs
  exact finish_toScalar (by simp [hok, ha]) hd hlive

/-- B of a pair operation is in order where its pair may be named. -/
theorem Group.srcPairOk_of_pairOk {g : Group} {f : SR} (h : g.pairOk f.b = true) : g.srcPairOk f = true := by
  simp [Group.srcPairOk, h]

/-- An instruction that writes one scalar, in order, writes it and goes on. -/
theorem exec_of_writesScalar {s : State} {f : SR} {i : Instr} (hwf : i.wf = true) (h : s.grp.writesScalar f i) :
    ∃ x, exec i s = .next (s.after (srWords i) (fun g => g.ws f.d x)) := by
  rcases h with ⟨⟨p, hp, rfl⟩ | hi, hs⟩ | ⟨hd, hlive, ⟨⟨p, hp, rfl⟩, ha, hb⟩ | rfl | ⟨hi, ha⟩ | ⟨rfl, ha, hb⟩⟩
  case inl.inl =>
    obtain ⟨op, hform⟩ := scalarOps_form p hp
    obtain ⟨hexec, hlen⟩ := hform f s
    exact ⟨_, by rw [hexec, hlen]; exact scalarBin_writes hwf hs⟩
  case inl.inr =>
    simp only [List.mem_cons, List.not_mem_nil, or_false] at hi
    rcases hi with rfl | rfl | rfl | rfl | rfl
    · exact ⟨_, scalarBin_writes (op := fun a b => if a ≠ 0 then b else s.grp.rs f.d) hwf hs⟩
    · exact ⟨_, scalarUn_writes (op := fun a => BitVec.ofNat 32 (clzBits a)) hwf hs⟩
    · exact ⟨_, scalarUn_writes (op := fun a => BitVec.ofNat 32 (ctzBits a)) hwf hs⟩
    · exact ⟨_, scalarUn_writes (op := fun a => BitVec.ofNat 32 (popBits a)) hwf hs⟩
    · exact ⟨_, scalarUn_writes (op := fun a => revBits a) hwf hs⟩
  case inr.inl =>
    obtain ⟨op, hform⟩ := pairTests_form p hp
    obtain ⟨hexec, hok, hlen⟩ := hform f s
    rw [hok] at hwf
    exact ⟨_, by
      rw [hexec, hlen]; exact finish_toScalar (by simp [hwf, ha, Group.srcPairOk_of_pairOk hb]) hd hlive⟩
  case inr.inr.inl => exact ⟨f.imm, finish_toScalar hwf hd hlive⟩
  case inr.inr.inr.inl =>
    simp only [List.mem_cons, List.not_mem_nil, or_false] at hi
    rcases hi with rfl | rfl
    · exact ⟨_, execMpopc_writes hwf ha hd hlive⟩
    · exact ⟨_, execMffs_writes hwf ha hd hlive⟩
  case inr.inr.inr.inr => exact ⟨_, execMtest_writes hwf ha hb hd hlive⟩

/-- An instruction that writes a pair, in order, writes it and goes on; the pair has an even base. -/
theorem exec_of_writesPair {s : State} {f : SR} {i : Instr} (hwf : i.wf = true) (h : s.grp.writesPair f i) :
    f.d.toNat % 2 = 0 ∧ ∃ x, exec i s = .next (s.after (srWords i) (fun g => g.wp f.d x)) := by
  rcases h with ⟨⟨p, hp, rfl⟩, hd, ha, hb, hlive⟩ |
    ⟨hd, hlive, ⟨⟨p, hp, rfl⟩ | rfl, ha, hb⟩ | ⟨rfl, ha⟩ | rfl | ⟨lit, rfl⟩⟩
  case inl =>
    obtain ⟨op, hform⟩ := pairOps_form p hp
    obtain ⟨hexec, hok, hlen⟩ := hform f s
    rw [hok] at hwf
    exact ⟨by simp_all [SR.okPair, even6], _, by
      rw [hexec, hlen]; exact finish_toPair (by simp [hwf, ha, Group.srcPairOk_of_pairOk hb]) hd hlive⟩
  case inr.inl.inl =>
    obtain ⟨op, hform⟩ := pairShifts_form p hp
    obtain ⟨hexec, hok, hlen⟩ := hform f s
    rw [hok] at hwf
    exact ⟨by simp_all [SR.okPairShift, SR.okPair, even6], _, by
      rw [hexec, hlen]; exact finish_toPair (by simp [hwf, ha, hb]) hd hlive⟩
  case inr.inl.inr =>
    have hok : f.okLea = true := hwf
    exact ⟨by simp_all [SR.okLea, even6], _, finish_toPair (by simp [hok, ha, hb]) hd hlive⟩
  case inr.inr.inl =>
    have hok : f.okMovCopy = true := hwf
    exact ⟨by simp_all [SR.okMovCopy, even6], _, finish_toPair (by simp [hok, ha]) hd hlive⟩
  case inr.inr.inr.inl =>
    have hok : f.okMovRel = true := hwf
    exact ⟨by simp_all [SR.okMovRel, even6], _, finish_toPair hok hd hlive⟩
  case inr.inr.inr.inr =>
    have hok : f.okLiw = true := hwf
    exact ⟨by simp_all [SR.okLiw, even6], lit, finish_toPair hok hd hlive⟩

/-- An instruction that writes a triple, in order, writes it and goes on; the triple has a base that R43 accepts. -/
theorem exec_of_writesTriple {s : State} {f : SR} {i : Instr} (hwf : i.wf = true) (h : s.grp.writesTriple f i) :
    tripleOk f.d = true ∧ ∃ m, exec i s = .next (s.after (srWords i) (fun g => g.setRaw f.d m)) := by
  obtain ⟨hd, ⟨⟨p, hp, rfl⟩, ha, hb⟩ | ⟨hi, ha⟩ | ⟨rfl, ha, hb⟩ | rfl⟩ := h
  case inl =>
    obtain ⟨op, hexec, -⟩ := tripleOps_lanewise p hp
    obtain ⟨hok, hlen⟩ := tripleOps_wf p hp f
    rw [hok] at hwf
    exact ⟨by simp_all [SR.okTriples], _, by rw [hexec, hlen]; exact tripleLogic_writes hwf hd ha hb⟩
  case inr.inl =>
    simp only [List.mem_cons, List.not_mem_nil, or_false] at hi
    rcases hi with rfl | rfl
    · have hok : f.okTriple2 = true := hwf
      exact ⟨by simp_all [SR.okTriple2], _, execMnot_writes hok hd ha⟩
    · have hok : f.okTriple2 = true := hwf
      exact ⟨by simp_all [SR.okTriple2], _, execMmov_writes hok hd ha⟩
  case inr.inr.inl =>
    have hok : f.okRange = true := hwf
    exact ⟨by simp_all [SR.okRange], _, execMrange_writes hok hd ha hb⟩
  case inr.inr.inr =>
    have hok : f.okLive = true := hwf
    exact ⟨by simp_all [SR.okLive], _, execMlive_writes hok hd⟩

/-- The machine after an instruction that only changes scalars, and that does not end its block. -/
def State.scalarsOnly (s t : State) (len : Nat) : Prop :=
  t = { s with grp := t.grp } ∧ (∀ k, t.mem.get k = s.mem.get k) ∧
  t.grp = { s.grp with
    sreg := t.grp.sreg, pc := s.grp.pc + BitVec.ofNat 64 (8 * len), retired := s.grp.retired + 1,
    progress := s.grp.progress + 1, status := .ready, remoteGot := [], denied := false }

/-- Such an instruction changes the group's scalars as its change does, and nothing else but the pc and the counts. -/
theorem scalarsOnly_of_exec {s t : State} {i : Instr} {c : Group → Group} (hc : OnlyScalars c)
    (hend : s.grp.pc + BitVec.ofNat 64 (8 * srWords i) ≠ s.grp.blockEnd) (ht : exec i s = .next t)
    (hexec : exec i s = .next (s.after (srWords i) c)) :
    t.grp.sreg = (c s.grp).sreg ∧ s.scalarsOnly t (srWords i) := by
  rw [ht, State.after_inBlock hc hend, Host.Outcome.next.injEq] at hexec
  subst hexec
  exact ⟨rfl, rfl, fun _ => rfl, rfl⟩

end Sys2Proof.Machine

open Sys2Proof Sys2Proof.Machine

/-- Settles O60: each of these instructions, in order, writes one register, pair or triple and goes on, and such a write leaves every
other scalar and the rest of the group. -/
theorem registerInstructionsFrame : Obligations.RegisterInstructionsFrame := by
  unfold Obligations.RegisterInstructionsFrame
  intro s t f i hend hexec hwf
  have hscalar (h : s.grp.writesScalar f i) :
      (∀ k, k ≠ f.d.toNat → t.grp.sreg[k]? = s.grp.sreg[k]?) ∧ s.scalarsOnly t (srWords i) := by
    obtain ⟨x, hx⟩ := exec_of_writesScalar hwf h
    obtain ⟨hsreg, hframe⟩ := scalarsOnly_of_exec (onlyScalars_ws f.d x) hend hexec hx
    exact ⟨fun k hk => hsreg ▸ s.grp.ws_sreg_other x hk, hframe⟩
  have hpair (h : s.grp.writesPair f i) :
      (∀ k, k ≠ f.d.toNat → k ≠ f.d.toNat + 1 → t.grp.sreg[k]? = s.grp.sreg[k]?) ∧ s.scalarsOnly t (srWords i) := by
    obtain ⟨heven, x, hx⟩ := exec_of_writesPair hwf h
    obtain ⟨hsreg, hframe⟩ := scalarsOnly_of_exec (onlyScalars_wp f.d x) hend hexec hx
    exact ⟨fun k hk hk1 => hsreg ▸ s.grp.wp_sreg_other x heven hk hk1, hframe⟩
  have htriple (h : s.grp.writesTriple f i) :
      (∀ k, k < (tripleBase f.d).toNat ∨ (tripleBase f.d).toNat + 2 < k → t.grp.sreg[k]? = s.grp.sreg[k]?) ∧
        s.scalarsOnly t (srWords i) := by
    obtain ⟨hbase, m, hm⟩ := exec_of_writesTriple hwf h
    obtain ⟨hsreg, hframe⟩ := scalarsOnly_of_exec (onlyScalars_setRaw f.d m) hend hexec hm
    exact ⟨fun k hk => hsreg ▸ s.grp.setRaw_sreg_other m hbase hk, hframe⟩
  refine ⟨fun h => (hscalar h).1, fun h => (hpair h).1, fun h => (htriple h).1, ?frame⟩
  rintro (h | h | h)
  · exact (hscalar h).2
  · exact (hpair h).2
  · exact (htriple h).2
end

section
/-! SUPPORT. The writes of a group's stores and of the front end leave who is in focus and the turns to come; a trap leaves who the
group is and its loops, and of the other groups who they are, what they have retired and whether they run (08_ordering.md R135, R159,
R161, 15_system_and_traps.md R274 to R279). -/

namespace Sys2Proof.Machine

open Sys2Proof

theorem State.OnlyCounts.turns_eq {s t : State} (h : s.OnlyCounts t) : t.turns = s.turns := by
  obtain ⟨r, rfl⟩ := h; rfl

@[simp] theorem State.countMsc_turns (s : State) (f l : Nat) : (s.countMsc f l).turns = s.turns :=
  (s.countMsc_only f l).turns_eq

@[simp] theorem State.walkVas_turns (s : State) (f p : Nat) (as : List Nat) : (s.walkVas f p as).turns = s.turns :=
  (s.walkVas_only f p as).turns_eq

@[simp] theorem State.walkFront_turns (s : State) (w : Who) (a : DWord) (n : Nat) : (s.walkFront w a n).turns = s.turns :=
  s.walkVas_turns _ _ _

@[simp] theorem State.atMsc_turns (s : State) (f : Nat) (r : Bool) (ks : List Nat) : (s.atMsc f r ks).turns = s.turns :=
  State.foldl_keeps State.turns _ (fun u l => by split <;> simp) _ s

@[simp] theorem State.askKeys_turns (s : State) (w : Who) (ks : List Nat) : (s.askKeys w ks).turns = s.turns :=
  s.atMsc_turns w.fn true ks

/-! ### Writes of the front end (R403) -/

@[simp] theorem State.setBacking_turns (s : State) (k : Nat) (x : Byte) : (s.setBacking k x).turns = s.turns := by
  simp [State.turns]

@[simp] theorem State.writeCoherent_turns (s : State) (k : Nat) (xs : List Byte) :
    (s.writeCoherent k xs).turns = s.turns := by
  induction xs generalizing s k with
  | nil => rfl
  | cons x xs ih =>
    rw [State.writeCoherent, ih]
    exact s.setBacking_turns k x

@[simp] theorem State.throughHost_turns (s : State) (k : Nat) (x : Byte) : (s.throughHost k x).turns = s.turns := by
  unfold State.throughHost
  split <;> rfl

@[simp] theorem State.writeKeys_turns (s : State) (ks : List Nat) (xs : List Byte) :
    (s.writeKeys ks xs).turns = s.turns := by
  induction ks generalizing s xs with
  | nil => cases xs <;> rfl
  | cons k ks ih =>
    cases xs with
    | nil => rfl
    | cons x xs => rw [State.writeKeys, ih, State.throughHost_turns, State.writeCoherent_turns]

@[simp] theorem State.sendHost_turns (s : State) (f p : Nat) (cs : List Host.Cell) : (s.sendHost f p cs).turns = s.turns := rfl

theorem State.writeVirt_turns {s t : State} {w : Who} {a : DWord} {xs : List Byte} (h : s.writeVirt w a xs = .ok t) :
    t.turns = s.turns := by
  unfold State.writeVirt at h
  split at h
  · cases h
    simp
  · cases h

@[simp] theorem State.send_turns (s : State) (m : OutMsg) : (s.send m).turns = s.turns := rfl

@[simp] theorem State.setCtx_turns (s : State) (c : Context) : (s.setCtx c).turns = s.turns := rfl

@[simp] theorem State.askFront_turns (s : State) (f p v : Nat) : (s.askFront f p v).turns = s.turns := by
  unfold State.askFront
  split <;> rfl

@[simp] theorem State.writeRecord_turns (s : State) (ctx : Nat) (xs : List Byte) : (s.writeRecord ctx xs).turns = s.turns := by
  unfold State.writeRecord
  split
  · rfl
  · rename_i c _
    dsimp only
    rw [State.send_turns]
    have hcount (ks : List Nat) (bs : List Byte) :
        (match (s.askKeys c.who ks).writeVirt c.who c.fault bs with
          | .ok t => t
          | .error _ => (s.askKeys c.who ks).walkFront c.who c.fault 8).turns = s.turns := by
      split
      · rename_i t ht
        rw [State.writeVirt_turns ht, State.askKeys_turns]
      · simp
    split
    · split
      · rename_i t ht
        exact (State.writeVirt_turns ht).trans (hcount _ _)
      · rw [State.send_turns, State.walkFront_turns]
        exact hcount _ _
    · exact hcount _ _

@[simp] theorem State.faultRecord_turns (s : State) (ctx : Nat) (xs : List Byte) : (s.faultRecord ctx xs).turns = s.turns := by
  unfold State.faultRecord
  split
  · rfl
  · split
    · exact State.askFront_turns _ _ _ _
    · exact s.writeRecord_turns ctx xs

/-! ### Releases, and stores of a group -/

@[simp] theorem State.wroteLines_turns (s : State) (c : Nat) (w : Want) (ks : List Nat) :
    (s.wroteLines c w ks).turns = s.turns :=
  State.foldl_keeps State.turns _ (fun u l => u.wroteL2_turns c w l) _ s

@[simp] theorem State.storeByte_turns (s : State) (c : Nat) (thru : Bool) (w : Want) (k : Nat) (x : Byte) :
    (s.storeByte c thru w k x).turns = s.turns := by
  have hcore : (s.writeL1Byte c w k x).turns = s.turns := by
    unfold State.writeL1Byte
    split <;> rfl
  unfold State.storeByte
  split
  · split
    · exact s.writeL2Byte_turns (clusterOfCore c) k x
    · exact hcore
  · rfl

@[simp] theorem State.storeCells_turns (s : State) (thru : Bool) (w : Want) (cs : List Host.Cell) :
    (s.storeCells thru w cs).turns = s.turns := by
  induction cs generalizing s with
  | nil => rfl
  | cons c cs ih => rw [State.storeCells, ih, State.storeByte_turns]

@[simp] theorem State.storeLines_turns (s : State) (thru : Bool) (cp : Nat) (cs : List Host.Cell) :
    (s.storeLines thru cp cs).turns = s.turns := by
  unfold State.storeLines
  rw [State.storeCells_turns]
  split <;> simp

@[simp] theorem State.noteOrigin_turns (s : State) (o : Origin) (ks : List Nat) : (s.noteOrigin o ks).turns = s.turns := rfl

@[simp] theorem State.writeBackAll_turns (s : State) (c : Nat) (ls : List L1Line) : (s.writeBackAll c ls).turns = s.turns := by
  induction ls generalizing s with
  | nil => rfl
  | cons l ls ih =>
    rw [State.writeBackAll, ih]
    split <;> simp

@[simp] theorem State.invalidateStale_turns (s : State) (c n : Nat) : (s.invalidateStale c n).turns = s.turns := by
  unfold State.invalidateStale
  split <;> rfl

@[simp] theorem State.flushHost_turns (s : State) : s.flushHost.turns = s.turns := rfl

@[simp] theorem State.releaseAt_turns (s : State) (c n : Nat) : (s.releaseAt c n).turns = s.turns := by
  have hclean : (s.cleanCore c).turns = s.turns := s.writeBackAll_turns c s.l1
  unfold State.releaseAt
  dsimp only
  split
  · rfl
  · split <;> simp [hclean]

@[simp] theorem State.acquireAt_turns (s : State) (c n : Nat) : (s.acquireAt c n).turns = s.turns := by
  unfold State.acquireAt
  dsimp only
  split
  · rfl
  · split <;> rfl

@[simp] theorem State.requestWrites_turns (s : State) (xs : List (Nat × List Host.Cell)) :
    (s.requestWrites xs).turns = s.turns := by
  induction xs generalizing s with
  | nil => rfl
  | cons x xs ih =>
    rw [State.requestWrites, ih]
    rfl

@[simp] theorem State.sendRemoteWrites_turns (s : State) (cs : List Host.Cell) : (s.sendRemoteWrites cs).turns = s.turns :=
  s.requestWrites_turns _

/-! ### What a trap leaves (R274 to R279) -/

/-- Who a group is and the state of its loops: what no trap changes (R72). -/
def Group.loops (g : Group) : GroupId × Nat × Vector Word 3 × Vector DWord 3 × Vector DWord 3 :=
  (g.id, g.depth, g.lc, g.start, g.exit)

/-- Who a group is, how many instructions it has retired, and its status. -/
def Group.tally (g : Group) : GroupId × Nat × Status := (g.id, g.retired, g.status)

theorem Group.id_of_loops {g h : Group} (e : g.loops = h.loops) : g.id = h.id := congrArg Prod.fst e
theorem Group.id_of_tally {g h : Group} (e : g.tally = h.tally) : g.id = h.id := congrArg Prod.fst e

@[simp] theorem State.chargeHelper_grp (s : State) (c : Cause) : (s.chargeHelper c).grp = s.grp := by
  unfold State.chargeHelper
  split <;> rfl

/-- A helper's fault is noted at its recruiter, which runs on. -/
@[simp] theorem State.chargeHelper_tallies (s : State) (c : Cause) :
    (s.chargeHelper c).others.map Group.tally = s.others.map Group.tally := by
  unfold State.chargeHelper
  split
  · rfl
  · rw [List.map_map]
    refine List.map_congr_left fun g _ => ?_
    rw [Function.comp_apply]
    split <;> rfl

@[simp] theorem State.park_loops (s : State) (c : Cause) (a : Nat) (failed : Bool) :
    (s.park c a failed).grp.loops = s.grp.loops := by
  rw [State.park, State.grp_of_turns (State.faultRecord_turns _ _ _), State.chargeHelper_grp]
  rfl

@[simp] theorem State.park_tallies (s : State) (c : Cause) (a : Nat) (failed : Bool) :
    (s.park c a failed).others.map Group.tally = s.others.map Group.tally := by
  rw [State.park, State.others_of_placed (State.faultRecord_placed _ _ _), State.chargeHelper_tallies]

@[simp] theorem State.walkFetch_others (s : State) (a : Option DWord) : (s.walkFetch a).others = s.others :=
  congrArg Work.others (s.walkVas_work _ _ _)

/-- The entry of a block without LIVE leaves the loops. -/
theorem State.enter_loops {s t : State} {a : DWord} (h : s.enter a false = .ok t) : t.grp.loops = s.grp.loops := by
  unfold State.enter at h
  split at h
  · cases h
  · dsimp only at h
    split at h
    · cases h
    · rcases ite_eq_iff.1 h with ⟨-, h⟩ | ⟨-, h⟩
      · cases h
      · cases h
        rfl

theorem State.enter_tallies {s t : State} {a : DWord} {live : Bool} (h : s.enter a live = .ok t) :
    t.others.map Group.tally = s.others.map Group.tally := by
  rw [State.enter_others h]

@[simp] theorem State.enterHandler_loops (s : State) (c : Cause) (a : Nat) :
    (s.enterHandler c a).grp.loops = s.grp.loops := by
  unfold State.enterHandler
  dsimp only
  split
  · rename_i t ht
    rw [State.enter_loops ht]
    rfl
  · rw [State.walkFetch_grp, State.park_loops]
    rfl

@[simp] theorem State.enterHandler_tallies (s : State) (c : Cause) (a : Nat) :
    (s.enterHandler c a).others.map Group.tally = s.others.map Group.tally := by
  unfold State.enterHandler
  dsimp only
  split
  · rename_i t ht
    rw [State.enter_tallies ht]
  · rw [State.walkFetch_others, State.park_tallies]

/-- A trap leaves who the group is and its loops. -/
@[simp] theorem State.takeTrap_loops (s : State) (t : Trap) : (s.takeTrap t).grp.loops = s.grp.loops := by
  have hrecord : (s.recordTrap t).grp.loops = s.grp.loops := rfl
  unfold State.takeTrap
  dsimp only
  rw [State.walkFetch_grp]
  split
  · rw [State.park_loops, hrecord]
  · split
    · rw [State.enterHandler_loops, hrecord]
    · rw [State.walkFetch_grp, State.park_loops, hrecord]

/-- A trap of a group leaves who the others are, what they have retired and their status. -/
@[simp] theorem State.takeTrap_tallies (s : State) (t : Trap) :
    (s.takeTrap t).others.map Group.tally = s.others.map Group.tally := by
  have hrecord : (s.recordTrap t).others = s.others := rfl
  unfold State.takeTrap
  dsimp only
  rw [State.walkFetch_others]
  split
  · rw [State.park_tallies, hrecord]
  · split
    · rw [State.enterHandler_tallies, hrecord]
    · rw [State.walkFetch_others, State.park_tallies, hrecord]

end Sys2Proof.Machine
end

section
/-! PROOFS. Whole rules of control: the words that the spec writes out, NOP, and LBRK with its traps (03_control.md R72, R76,
04_scalar.md R82 to R84). -/

namespace Sys2Proof

open Sys2Proof.Machine

/-- A well-formed instruction of a row of its own decodes from its word. -/
theorem decode_of_encode {i : Instr} {w : DWord} (hw : encode i = [w]) (hwf : i.wf = true)
    (hrow : ∀ w, i ≠ .unassignedWord w) : decode [w] = .ok i :=
  hw ▸ decode_encode (by simp [hw]) hwf hrow

/-- NOP with every field 0 is the word of R76. -/
theorem encode_nop_zero : encode (.nop ⟨false, 0, 0, 0, 0⟩) = [0x1010000000000000] := rfl

/-- NOP's word has every field 0. -/
theorem SR.allZero_iff (f : SR) : f.allZero = true ↔ f = ⟨false, 0, 0, 0, 0⟩ := by
  cases f
  simp [SR.allZero, and_assoc]

/-- LBRK's word carries nothing but its offset (R72). -/
theorem encode_lbrk (off : Word) :
    encode (.lbrk ⟨false, 0, 0, 0, off⟩) = [BitVec.ofNat 64 (0x03 * 2 ^ 58 + 2 ^ 51 + off.toNat)] := by
  have hoff := off.isLt
  have hfixed : (0x03#6 ++ 0x01#7 ++ bit1 false ++ 0#6 ++ 0#6 ++ 0#6 : BitVec 32) = 0x0C080000#32 := by decide
  have hword : CB.toWord ⟨false, 0, 0, 0, off⟩ 0x03 0x01 = 0x0C080000#32 ++ off := congrArg (· ++ off) hfixed
  refine congrArg (fun w => [w]) (BitVec.eq_of_toNat_eq ?_)
  rw [hword, BitVec.toNat_append, ← Nat.shiftLeft_add_eq_or_of_lt hoff, Nat.shiftLeft_eq, BitVec.toNat_ofNat,
    BitVec.toNat_ofNat]
  omega

/-- The fields of LBRK that it does not use are 0 (R72). -/
theorem CB.okLbrk_iff (f : CB) : f.okLbrk = true ↔ f.r = false ∧ f.d = 0 ∧ f.a = 0 ∧ f.b = 0 := by
  simp [CB.okLbrk, CB.okBr, and_assoc]

end Sys2Proof

open Sys2Proof Sys2Proof.Machine

/-- Settles O2: each word is the one that its instruction encodes to. -/
theorem wordsOfTheSpecDecode : Obligations.WordsOfTheSpecDecode := by
  unfold Obligations.WordsOfTheSpecDecode
  refine ⟨?nop, ?li, ?mulhu, ?shr, ?mul, ?sub⟩
  all_goals exact decode_of_encode rfl rfl (fun _ => nofun)

/-- Settles O55: the zero word is the only NOP in order, and it does nothing but go on. -/
theorem nopChangesNothing : Obligations.NopChangesNothing := by
  unfold Obligations.NopChangesNothing
  refine ⟨encode_nop_zero, decode_of_encode encode_nop_zero rfl (fun _ => nofun), fun _ => rfl, fun s f hf => ?_⟩
  exact exec_of_not_wf s (List.cons_ne_nil _ _) (Bool.eq_false_iff.2 (mt f.allZero_iff.1 hf))

/-- Settles O57: the word by its fields, the traps in their order, and the loop state as no trap changes it. -/
theorem leaveLoopWhole : Obligations.LeaveLoopWhole := by
  unfold Obligations.LeaveLoopWhole
  refine ⟨encode_lbrk, fun s f => ⟨?illegal, ?leaves⟩, fun s t => ?loops⟩
  case illegal =>
    intro h
    refine execLbrk_illegal ?_
    rw [← Bool.not_eq_true, f.okLbrk_iff]
    rw [← Bool.not_eq_false] at h
    tauto
  case leaves =>
    intro hr hd ha hb hdepth
    have hok := f.okLbrk_iff.2 ⟨hr, hd, ha, hb⟩
    exact ⟨fun e he => execLbrk_of_check_error hok hdepth he, fun h hc => execLbrk_leaves hok hdepth hc⟩
  case loops =>
    obtain ⟨-, hdepth, hlc, hstart, hexit⟩ := by simpa [Group.loops] using s.takeTrap_loops t
    exact ⟨hdepth, hlc, hstart, hexit⟩
end

section
/-! SUPPORT. The end of a group (03_control.md R74, 15_system_and_traps.md R279): what happens to others in it leaves the group itself
as it ended, and how much it had retired. -/

namespace Sys2Proof.Machine

open Sys2Proof

/-! ### The tally of the group in focus -/

theorem Group.tally_eq_iff {g : Group} {id : GroupId} {n : Nat} {st : Status} :
    g.tally = (id, n, st) ↔ g.id = id ∧ g.retired = n ∧ g.status = st := by
  simp [Group.tally]

theorem State.tally_of_turns {s t : State} (h : t.turns = s.turns) : t.grp.tally = s.grp.tally :=
  congrArg Group.tally (State.grp_of_turns h)

@[simp] theorem Group.onChannel_tally (g : Group) (chan : Nat) (cs : List Host.Cell) :
    (g.onChannel chan cs).tally = g.tally := by
  unfold Group.onChannel
  split <;> rfl

@[simp] theorem State.drainChannel_tally (s : State) (n : Nat) : (s.drainChannel n).grp.tally = s.grp.tally := by
  have hdrop := State.foldl_keeps State.grp (fun t (c : Nat × Nat) => t.dropOtherL2 t.grp.id.cluster c.2) (fun _ _ => rfl)
    (s.grp.chanOpen.filter (fun c => c.1 = n)) s
  exact (congrArg Group.tally hdrop).trans rfl

@[simp] theorem State.performRel_tally (s : State) (r : RelStore) : (s.performRel r).grp.tally = s.grp.tally := by
  have hdrain : (if r.chan = 0 then s else s.drainChannel r.chan).grp.tally = s.grp.tally := by split <;> simp
  have hstored : (((if r.chan = 0 then s else s.drainChannel r.chan).noteOrigin s.grp.origin (r.cells.map (·.1))).storeLines
      true r.cp r.cells).grp.tally = s.grp.tally :=
    (State.tally_of_turns (State.storeLines_turns _ true r.cp r.cells)).trans
      ((State.tally_of_turns (State.noteOrigin_turns _ _ _)).trans hdrain)
  have hstore := (Group.onChannel_tally _ r.chan r.cells).trans hstored
  unfold State.performRel
  dsimp only
  split
  · rw [State.tally_of_turns (State.sendRemoteWrites_turns _ _), State.tally_of_turns (State.flushHost_turns _),
      State.tally_of_turns (State.invalidateStale_turns _ _ _)]
    exact hstore
  · rw [State.tally_of_turns (State.invalidateStale_turns _ _ _)]
    exact hstore

@[simp] theorem State.settleFar_tally (s : State) (rs : List RelStore) : (State.settleFar rs s).grp.tally = s.grp.tally := by
  induction rs generalizing s with
  | nil => rfl
  | cons r rs ih =>
    have hrelease := State.tally_of_turns (s.releaseAt_turns s.grp.coreNo r.scope)
    rw [State.settleFar]
    split
    · rw [State.tally_of_turns (State.sendRemoteWrites_turns _ _), hrelease]
    · rw [ih, State.performRel_tally, hrelease]

@[simp] theorem State.finishStores_tally (s : State) : s.finishStores.grp.tally = s.grp.tally := by
  have hdrop := State.foldl_keeps State.grp (fun t c => t.dropOtherL2 t.grp.id.cluster c.2) (fun _ _ => rfl)
    s.settleNow.grp.chanOpen s.settleNow
  exact (congrArg Group.tally hdrop).trans (s.settleFar_tally s.grp.relq)

/-! ### Doing something as another group, and coming back -/

/-- What is done as the group in focus is done in the state as it stands. -/
theorem State.asGroup_self {s : State} {f : State → State} (hid : (f s).grp.id = s.grp.id) :
    s.asGroup s.grp.id.uid f = f s := by
  simp [State.asGroup, State.focus, hid]

/-- The focus moves to the first of the other groups that has the uid. -/
theorem State.focus_head {t : State} {g : Group} {rest : List Group} {u : Nat} (hne : t.grp.id.uid ≠ u)
    (hcons : t.others = g :: rest) (hg : g.id.uid = u) : ∃ v, t.focus u = some v ∧ v.grp = g := by
  have hfind : t.others.find? (fun h => h.id.uid = u) = some g := by
    rw [hcons, List.find?_cons_of_pos (by simpa using hg)]
  rw [State.focus, if_neg hne, hfind]
  exact ⟨_, rfl, rfl⟩

/-- To act as another group, the group in focus is put before the rest. -/
theorem State.focus_other {s t : State} {u : Nat} (hne : s.grp.id.uid ≠ u) (h : s.focus u = some t) :
    t.grp.id.uid = u ∧ ∃ rest, t.others = s.grp :: rest := by
  rw [State.focus, if_neg hne] at h
  split at h
  · cases h
  · rename_i g hg
    cases h
    exact ⟨by simpa using List.find?_some hg, _, rfl⟩

/-- What is done as another group leaves the tally of the group in focus, where it leaves who that other group is and the tallies of
the rest. -/
theorem State.asGroup_tally {s : State} {u : Nat} {f : State → State} (hne : s.grp.id.uid ≠ u)
    (hid : ∀ t, (f t).grp.id = t.grp.id) (hothers : ∀ t, (f t).others.map Group.tally = t.others.map Group.tally) :
    (s.asGroup u f).grp.tally = s.grp.tally := by
  rw [State.asGroup]
  split
  · rfl
  · rename_i t ht
    obtain ⟨hu, rest, hrest⟩ := State.focus_other hne ht
    obtain ⟨g, rest', hcons, hg, -⟩ := List.map_eq_cons_iff.1 ((hothers t).trans (congrArg (List.map Group.tally) hrest))
    have hback : (f t).grp.id.uid ≠ s.grp.id.uid := by rw [hid, hu]; exact Ne.symm hne
    obtain ⟨v, hv, hvg⟩ := State.focus_head hback hcons (congrArg GroupId.uid (Group.id_of_tally hg))
    rw [hv, Option.getD_some, hvg, hg]

@[simp] theorem State.asGroup_finishStores_tally (s : State) (u : Nat) :
    (s.asGroup u State.finishStores).grp.tally = s.grp.tally := by
  by_cases hu : s.grp.id.uid = u
  · rw [← hu, State.asGroup_self (Group.id_of_tally s.finishStores_tally), State.finishStores_tally]
  · exact State.asGroup_tally hu (fun t => Group.id_of_tally t.finishStores_tally)
      (fun t => congrArg (fun w => w.others.map Group.tally) t.finishStores_work)

/-! ### The stages of an end -/

/-- The stores of the group and of its helpers are performed, and they have ended. -/
def State.ending (s : State) (uid : Nat) (kill : Bool) : State :=
  let ends := uid :: (s.groups.filter (fun h => h.helps uid && h.lives)).map (fun h => h.id.uid)
  let s0 := ends.foldl (fun t u => t.asGroup u State.finishStores) s
  let s1 := s0.mapGroups (fun h => decide (h.id.uid = uid))
    (fun h => if kill then { h.ended with mxq := [], tiles := h.tiles.map Tile.faultless } else h.ended)
  s1.mapGroups (fun h => h.helps uid && h.lives) (fun h => { h.ended with mxq := [] })

/-- What a group that has ended held is given up: its own memory, board slots, copies, tokens and lines read ahead. -/
def State.clearedOf (s : State) (uid : Nat) : State :=
  let t := (s.groups.filter (fun h => h.helps uid)).foldl (fun t h => t.dropPrivate h.id.uid) (s.dropPrivate uid)
  { t with
    boards := t.boards.map (fun b => b.release uid),
    copies := t.copies.map (fun c => if c.group = some uid then { c with dropToken := true } else c),
    tokens := t.tokens.filter (fun t => t.group ≠ uid), ahead := t.ahead.filter (fun a => a.1 ≠ uid) }

/-- The end of a group, stage by stage. -/
theorem State.endGroup_eq {s : State} {uid : Nat} {g : Group} (kill : Bool) (h : s.group? uid = some g) :
    s.endGroup uid kill =
      (((((s.ending uid kill).clearedOf uid).faultPushers g).endPhases g.id.band g.id.inst).closeInst g.id.band g.id.inst) := by
  rw [State.endGroup, h]
  rfl

theorem State.group?_self (s : State) : s.group? s.grp.id.uid = some s.grp :=
  List.find?_cons_of_pos (by simp)

@[simp] theorem State.mapGroups_grp (s : State) (p : Group → Bool) (f : Group → Group) :
    (s.mapGroups p f).grp = if p s.grp then f s.grp else s.grp := rfl

@[simp] theorem State.mapGroups_groups (s : State) (p : Group → Bool) (f : Group → Group) :
    (s.mapGroups p f).groups = s.groups.map (fun g => if p g then f g else g) := rfl

/-- After its end a group has exited, with all that it had retired. -/
theorem State.ending_tally (s : State) : (s.ending s.grp.id.uid false).grp.tally = (s.grp.id, s.grp.retired, .exited) := by
  have hstores := State.foldl_keeps (fun t => t.grp.tally) (fun t u => t.asGroup u State.finishStores)
    (fun t u => t.asGroup_finishStores_tally u)
    (s.grp.id.uid :: (s.groups.filter (fun h => h.helps s.grp.id.uid && h.lives)).map (fun h => h.id.uid)) s
  rw [State.ending]
  generalize List.foldl _ s _ = s0 at hstores ⊢
  obtain ⟨hid, hretired, -⟩ := Group.tally_eq_iff.1 hstores
  have hself : decide (s0.grp.id.uid = s.grp.id.uid) = true := decide_eq_true (congrArg GroupId.uid hid)
  have hgone : (s0.grp.ended.helps s.grp.id.uid && s0.grp.ended.lives) = false := Bool.and_false _
  rw [State.mapGroups_grp, State.mapGroups_grp, if_pos hself, if_neg Bool.false_ne_true, hgone, if_neg Bool.false_ne_true]
  exact Group.tally_eq_iff.2 ⟨hid, hretired, rfl⟩

/-- No group of that uid runs on. -/
theorem State.ending_exited (s : State) (uid : Nat) : ∀ g ∈ (s.ending uid false).groups, g.id.uid = uid → g.status = .exited := by
  intro g hg huid
  rw [State.ending] at hg
  simp only [State.mapGroups_groups, List.map_map, List.mem_map, Function.comp_apply, decide_eq_true_eq] at hg
  obtain ⟨h, -, rfl⟩ := hg
  by_cases hh : h.id.uid = uid
  · simp only [if_pos hh, if_neg Bool.false_ne_true]
    split <;> rfl
  · simp only [if_neg hh] at huid
    split at huid <;> exact absurd huid hh

@[simp] theorem State.dropPrivate_groups (s : State) (uid : Nat) : (s.dropPrivate uid).groups = s.groups := rfl

theorem State.grp_of_groups {s t : State} (h : t.groups = s.groups) : t.grp = s.grp := (List.cons.inj h).1

@[simp] theorem State.clearedOf_groups (s : State) (uid : Nat) : (s.clearedOf uid).groups = s.groups :=
  (State.foldl_keeps State.groups (fun t (h : Group) => t.dropPrivate h.id.uid) (fun _ _ => rfl) _ (s.dropPrivate uid)).trans rfl

/-- The faults of those that wait to push into a mailbox leave a group that waits for no push. -/
theorem State.faultPushers_tally {s : State} {g : Group}
    (h : ∀ x ∈ s.groups, x.id.uid = s.grp.id.uid → x.pushBox = none) : (s.faultPushers g).grp.tally = s.grp.tally := by
  rw [State.faultPushers]
  refine List.foldlRecOn (motive := fun t : State => t.grp.tally = s.grp.tally) s.groups _ rfl (fun t ht x hx => ?_)
  split
  · rename_i q m hpush
    split
    · have hne : t.grp.id.uid ≠ x.id.uid := by
        intro huid
        have hnone := h x hx (huid.symm.trans (congrArg GroupId.uid (Group.id_of_tally ht)))
        cases hnone.symm.trans hpush
      rw [State.asGroup_tally hne (fun u => Group.id_of_loops (u.takeTrap_loops _)) (fun u => u.takeTrap_tallies _), ht]
    · exact ht
  · exact ht

theorem Group.pushBox_of_exited {g : Group} (h : g.status = .exited) : g.pushBox = none := by
  simp [Group.pushBox, Group.waiting?, h]

@[simp] theorem State.onBarrier_grp (s : State) (band inst bar : Nat) (h : Barrier → Barrier) :
    (s.onBarrier band inst bar h).grp = s.grp := rfl

@[simp] theorem State.shiftBudget_grp (s : State) (last : Option Nat) (cs : List Nat) : (s.shiftBudget last cs).grp = s.grp := by
  induction cs generalizing s with
  | nil => rfl
  | cons c cs ih =>
    rw [State.shiftBudget, ih]
    rfl

/-- The end of a phase leaves a group that has exited. -/
theorem State.endPhase_grp {s : State} (band inst bar : Nat) (h : s.grp.status = .exited) :
    (s.endPhase band inst bar).grp = s.grp := by
  have hwaits : s.grp.waitsOn band inst bar = false := by simp [Group.waitsOn, Group.waiting?, h]
  unfold State.endPhase
  split
  · rfl
  · split
    · dsimp only
      split <;> simp [hwaits]
    · rfl

theorem State.endPhases_grp {s : State} (band inst : Nat) (h : s.grp.status = .exited) :
    (s.endPhases band inst).grp = s.grp := by
  rw [State.endPhases]
  refine List.foldlRecOn (motive := fun t : State => t.grp = s.grp) _ _ rfl (fun t ht bar _ => ?_)
  rw [State.endPhase_grp band inst bar (by rw [ht, h]), ht]

@[simp] theorem State.closeInst_grp (s : State) (band inst : Nat) : (s.closeInst band inst).grp = s.grp := by
  unfold State.closeInst
  split <;> rfl

/-- The end of the group in focus leaves it exited, with all that it had retired. -/
theorem State.endGroup_self_tally (s : State) :
    (s.endGroup s.grp.id.uid false).grp.tally = (s.grp.id, s.grp.retired, .exited) := by
  have hending := s.ending_tally
  have hcleared : ((s.ending s.grp.id.uid false).clearedOf s.grp.id.uid).grp = (s.ending s.grp.id.uid false).grp :=
    State.grp_of_groups (State.clearedOf_groups _ _)
  have hfault := State.faultPushers_tally (s := (s.ending s.grp.id.uid false).clearedOf s.grp.id.uid) (g := s.grp) (by
    intro x hx huid
    rw [State.clearedOf_groups] at hx
    rw [hcleared, (Group.tally_eq_iff.1 hending).1] at huid
    exact Group.pushBox_of_exited (s.ending_exited s.grp.id.uid x hx huid))
  rw [hcleared, hending] at hfault
  obtain ⟨-, -, hexited⟩ := Group.tally_eq_iff.1 hfault
  rw [State.endGroup_eq false s.group?_self, State.closeInst_grp, State.endPhases_grp _ _ hexited, hfault]

end Sys2Proof.Machine
end

section
/-! PROOFS. EXIT, YIELD, NOP and SNOOZE, and the events that end their waits (03_control.md R74 to R77). -/

namespace Sys2Proof.Machine

open Sys2Proof

/-! ### EXIT (R74) -/

/-- The retired instructions of a group stay counted over the change of its recruitment. -/
theorem State.onRecruit_retired (s : State) (uid : Nat) (h : Recruit → Recruit) :
    (s.onRecruit uid h).grp.retired = s.grp.retired := by
  rw [State.onRecruit, State.mapGroups_grp]
  split <;> rfl

/-- A join that is over leaves the count of retired instructions. -/
theorem State.join_retired {s t : State} {view : Option (BitVec 4)} (h : s.join view = .ok t) :
    t.grp.retired = s.grp.retired := by
  unfold State.join at h
  split at h
  · cases h
    cases view <;> rfl
  · rename_i r _
    split at h
    · cases h
    · split at h
      · cases h
      · have hacq := congrArg Group.retired (State.grp_of_turns (s.acquireAt_turns s.grp.coreNo 3))
        cases h
        cases view <;> exact hacq

theorem State.exitJoin_retired {s t : State} (h : s.exitJoin = .ok t) : t.grp.retired = s.grp.retired := by
  unfold State.exitJoin at h
  split at h
  · rw [State.join_retired h, State.onRecruit_retired]
  · cases h
    rfl

/-- Tiles without a deferred fault raise none. -/
theorem State.takeMxAll_faultless {s : State} {qs : List (Nat × Nat)}
    (h : ∀ q ∈ qs, ∀ g, s.group? q.1 = some g → (g.tile q.2).cause = 0) : s.takeMxAll qs = .ok s := by
  induction qs with
  | nil => rfl
  | cons q qs ih =>
    have hq : s.takeMx q.1 q.2 = .ok s := by
      rw [State.takeMx]
      cases hg : s.group? q.1 with
      | none => rfl
      | some g => simp [h q List.mem_cons_self g hg]
    rw [State.takeMxAll, hq]
    exact ih fun p hp => h p (List.mem_cons_of_mem q hp)

theorem State.settleStores_nil {s : State} (h : s.grp.relq = []) : s.settleStores = .ok s := by
  rw [State.settleStores, h]
  rfl

/-- EXIT whose waits are over ends the group. -/
theorem execExit_ends {f : SR} {s s1 : State} (hok : f.allZero = true) (hhelper : s.grp.helper = none)
    (hjoin : s.exitJoin = .ok s1)
    (htiles : ∀ q ∈ s1.exitTiles, ∀ g, s1.group? q.1 = some g → (g.tile q.2).cause = 0) (hrelq : s1.grp.relq = [])
    (hremote : s1.remoteOpen = false) (hteam : s1.notLast = true ∨ s1.teamIdle = true) :
    execExit f s = .next ((s1.onGrp (fun g => g.countRetired.progressed)).endGroup s1.grp.id.uid false) := by
  have hover : (s1.remoteOpen || (!s1.notLast && !s1.teamIdle)) = false := by
    rcases hteam with h | h <;> simp [hremote, h]
  simp only [execExit, hok, hhelper, Option.isNone_none, Bool.and_self, State.need_true, Run.ok_bind, hjoin,
    State.takeMxAll_faultless htiles, State.settleStores_nil hrelq, hover, Bool.false_eq_true, if_false, Run.pure_eq,
    finish_ok, settle_at]

/-! ### YIELD (R75) -/

/-- YIELD continues at the next block, the latched events that it names consumed. -/
theorem finish_continueYield {s : State} {e : BitVec 3} {h : Header} (hc : s.check (s.grp.pc + 8) = .ok h) :
    finish 1 (s.continueYield e) = .next ((s.onGrp (fun g => { g with
      latch := g.latch &&& ~~~(e &&& 6), progress := 0 })).transfer (s.grp.pc + 8)) := by
  have hcheck : (s.onGrp (fun g => { g with latch := g.latch &&& ~~~(e &&& 6) })).check (s.grp.pc + 8) = .ok h := hc
  rw [State.continueYield]
  simp only [State.onGrp_grp, hcheck, State.chk_ok, Run.ok_bind]
  rfl

theorem execYield_present {f : SR} {s : State} {h : Header} (hok : f.okYield = true)
    (he : s.grp.yieldEvents &&& yieldSet f ≠ 0) (hc : s.check (s.grp.pc + 8) = .ok h) :
    execYield f s = .next ((s.onGrp (fun g => { g with
      latch := g.latch &&& ~~~(yieldSet f &&& 6), progress := 0 })).transfer (s.grp.pc + 8)) := by
  simp only [execYield, hok, State.need_true, Run.ok_bind, if_pos he, finish_continueYield hc]

theorem execYield_waits {f : SR} {s : State} (hok : f.okYield = true) (he : s.grp.yieldEvents &&& yieldSet f = 0) :
    execYield f s = .next ((s.onGrp (fun g => { g with progress := 0 })).waitFor (.yielding (yieldSet f))) := by
  simp only [execYield, hok, State.need_true, Run.ok_bind, he, ne_eq, not_true, if_false]
  rfl

/-- What a group waits for, by its status. -/
theorem Group.waiting?_of_status {g : Group} {w : Wait} (h : g.status = .waiting w) : g.waiting? = some w := by
  rw [Group.waiting?, h]

theorem execYieldWake_wakes {s t : State} {uid : Nat} {e : BitVec 3} {h : Header} (hev : s.ev = .group uid)
    (ht : s.focus uid = some t) (hwait : t.grp.status = .waiting (.yielding e)) (he : t.grp.yieldEvents &&& e ≠ 0)
    (hc : t.check (t.grp.pc + 8) = .ok h) :
    execYieldWake s = .next ((t.onGrp (fun g => { g with
      latch := g.latch &&& ~~~(e &&& 6), progress := 0 })).transfer (t.grp.pc + 8)) := by
  rw [execYieldWake, withGroup_of_focus _ _ hev ht, Group.waiting?_of_status hwait]
  simp only [if_pos he, finish_continueYield hc]

/-! ### NOP and SNOOZE (R76, R77) -/

theorem execNop_goesOn {f : SR} {s : State} (hok : f.allZero = true) : execNop f s = .next (s.retire 1) := by
  simp [execNop, hok]

theorem execSnooze_zero {f : SR} {s : State} (hok : f.okSnooze = true) (hb : s.grp.scalOk f.b = true)
    (hn : s.grp.srcB f = 0) : execSnooze f s = .next (s.retire 1) := by
  simp [execSnooze, hok, hb, hn]

theorem execSnooze_waits {f : SR} {s : State} (hok : f.okSnooze = true) (hb : s.grp.scalOk f.b = true)
    (hn : s.grp.srcB f ≠ 0) :
    execSnooze f s = .next (s.waitFor (.snooze (s.grp.ccnt + (s.grp.srcB f).toNat))) := by
  simp only [execSnooze, hok, hb, Bool.and_self, State.need_true, Run.ok_bind, if_neg hn]
  rfl

theorem execSnoozeExpiry_over {s t : State} {uid u : Nat} (hev : s.ev = .group uid) (ht : s.focus uid = some t)
    (hwait : t.grp.status = .waiting (.snooze u)) (hover : u ≤ t.grp.ccnt) :
    execSnoozeExpiry s = .next (t.retire 1) := by
  rw [execSnoozeExpiry, withGroup_of_focus _ _ hev ht, Group.waiting?_of_status hwait]
  simp only [if_pos hover, settle_done]

end Sys2Proof.Machine

open Sys2Proof Sys2Proof.Machine

/-- Settles O35: EXIT by what the end of a group leaves of it, the others case by case. -/
theorem flowInstructionsComplete : Obligations.FlowInstructionsComplete := by
  unfold Obligations.FlowInstructionsComplete
  refine ⟨?exit, ?yield, ?wake, ?nop, ?snooze, ?expiry⟩
  case exit =>
    intro s s1 f hok hhelper hjoin htiles hrelq hremote hteam
    obtain ⟨-, hretired, hstatus⟩ :=
      Group.tally_eq_iff.1 (s1.onGrp (fun g => g.countRetired.progressed)).endGroup_self_tally
    exact ⟨_, execExit_ends hok hhelper hjoin htiles hrelq hremote hteam, hstatus,
      hretired.trans (congrArg (· + 1) (State.exitJoin_retired hjoin))⟩
  case yield =>
    intro s f h hok
    exact ⟨fun he hc => execYield_present hok he hc, execYield_waits hok⟩
  case wake => exact fun s t uid e h hev ht hwait he hc => execYieldWake_wakes hev ht hwait he hc
  case nop => exact fun s f hok => execNop_goesOn hok
  case snooze => exact fun s f hok hb => ⟨execSnooze_zero hok hb, execSnooze_waits hok hb⟩
  case expiry => exact fun s t uid u hev ht hwait hover => execSnoozeExpiry_over hev ht hwait hover
end

section
/-! SUPPORT. The operations on bit vectors that the scalar instructions name, as the numbers of their table (04_scalar.md R82, R83), and
the bit counts, bit by bit. -/

namespace Sys2Proof.Machine

open Sys2Proof

/-! ### Arithmetic on numbers -/

theorem add_eq_ofNat {w : Nat} (a b : BitVec w) : a + b = BitVec.ofNat w (a.toNat + b.toNat) := by
  simp [BitVec.ofNat_add]

theorem mul_eq_ofNat {w : Nat} (a b : BitVec w) : a * b = BitVec.ofNat w (a.toNat * b.toNat) := by
  simp [BitVec.ofNat_mul]

theorem sub_eq_ofInt {w : Nat} (a b : BitVec w) : a - b = BitVec.ofInt w (a.toInt - b.toInt) := by
  rw [Int.sub_eq_add_neg, BitVec.ofInt_add, BitVec.ofInt_neg, BitVec.ofInt_toInt, BitVec.ofInt_toInt, BitVec.sub_eq_add_neg]

theorem andn_eq_ofNat {w : Nat} (a b : BitVec w) : a &&& ~~~b = BitVec.ofNat w (a.toNat &&& (2 ^ w - 1 - b.toNat)) := by
  rw [BitVec.ofNat_and, BitVec.ofNat_toNat, BitVec.setWidth_eq, ← BitVec.toNat_not, BitVec.ofNat_toNat, BitVec.setWidth_eq]

theorem shl_eq_ofNat {w : Nat} (a : BitVec w) (n : Nat) : a <<< n = BitVec.ofNat w (a.toNat * 2 ^ n) :=
  BitVec.eq_of_toNat_eq (by simp [Nat.shiftLeft_eq])

theorem shr_eq_ofNat {w : Nat} (a : BitVec w) (n : Nat) : a >>> n = BitVec.ofNat w (a.toNat / 2 ^ n) := by
  rw [← Nat.shiftRight_eq_div_pow, ← BitVec.toNat_ushiftRight, BitVec.ofNat_toNat, BitVec.setWidth_eq]

theorem sar_eq_ofInt {w : Nat} (a : BitVec w) (n : Nat) : a.sshiftRight n = BitVec.ofInt w (a.toInt / 2 ^ n) := by
  rw [BitVec.sshiftRight, Int.shiftRight_eq_div_pow]
  norm_cast

/-- A rotation is a shift whose upper half comes back at the bottom. -/
theorem rotl_eq_ofNat {w n : Nat} (a : BitVec w) (hn : n < w) :
    a.rotateLeft n = BitVec.ofNat w (a.toNat * 2 ^ n % 2 ^ w + a.toNat * 2 ^ n / 2 ^ w) := by
  have hw : 2 ^ w = 2 ^ (w - n) * 2 ^ n := by rw [← Nat.pow_add, Nat.sub_add_cancel hn.le]
  have htop : a.toNat / 2 ^ (w - n) < 2 ^ n := Nat.div_lt_of_lt_mul (hw ▸ a.isLt)
  have hlow : a.toNat * 2 ^ n % 2 ^ w = (a.toNat % 2 ^ (w - n)) <<< n := by
    rw [hw, Nat.mul_mod_mul_right, Nat.shiftLeft_eq]
  have hhigh : a.toNat * 2 ^ n / 2 ^ w = a.toNat / 2 ^ (w - n) := by
    rw [hw, Nat.mul_div_mul_right _ _ (Nat.two_pow_pos n)]
  rw [hlow, hhigh, Nat.shiftLeft_add_eq_or_of_lt htop, ← hlow, ← Nat.shiftLeft_eq, ← Nat.shiftRight_eq_div_pow]
  conv_rhs => rw [← Nat.mod_eq_of_lt hn]
  rw [← BitVec.toNat_rotateLeft, BitVec.ofNat_toNat, BitVec.setWidth_eq]

theorem sltMin_eq_ofInt {w : Nat} (a b : BitVec w) :
    (if a.slt b then a else b) = BitVec.ofInt w (min a.toInt b.toInt) := by
  rcases lt_or_ge a.toInt b.toInt with h | h
  · rw [if_pos (BitVec.slt_iff_toInt_lt.2 h), min_eq_left h.le, BitVec.ofInt_toInt]
  · rw [if_neg (mt BitVec.slt_iff_toInt_lt.1 h.not_gt), min_eq_right h, BitVec.ofInt_toInt]

theorem sltMax_eq_ofInt {w : Nat} (a b : BitVec w) :
    (if a.slt b then b else a) = BitVec.ofInt w (max a.toInt b.toInt) := by
  rcases lt_or_ge a.toInt b.toInt with h | h
  · rw [if_pos (BitVec.slt_iff_toInt_lt.2 h), max_eq_right h.le, BitVec.ofInt_toInt]
  · rw [if_neg (mt BitVec.slt_iff_toInt_lt.1 h.not_gt), max_eq_left h, BitVec.ofInt_toInt]

theorem ultMin_eq_ofNat {w : Nat} (a b : BitVec w) :
    (if a.ult b then a else b) = BitVec.ofNat w (min a.toNat b.toNat) := by
  rcases lt_or_ge a.toNat b.toNat with h | h
  · simp [BitVec.ult_iff_toNat_lt.2 h, h.le]
  · simp [mt BitVec.ult_iff_toNat_lt.1 h.not_gt, h]

theorem ultMax_eq_ofNat {w : Nat} (a b : BitVec w) :
    (if a.ult b then b else a) = BitVec.ofNat w (max a.toNat b.toNat) := by
  rcases lt_or_ge a.toNat b.toNat with h | h
  · simp [BitVec.ult_iff_toNat_lt.2 h, h.le]
  · simp [mt BitVec.ult_iff_toNat_lt.1 h.not_gt, h]

/-- A test whose condition is `P` gives 1 where `P` holds and 0 where it does not. -/
theorem boolWord_eq_ite {b : Bool} {P : Prop} [Decidable P] (h : b = true ↔ P) : boolWord b = if P then 1 else 0 := by
  simp [boolWord, h]

/-! ### Bit counts -/

/-- The elements before the first that fails a test are as many as its place. -/
theorem length_takeWhile_not {α : Type} (p : α → Bool) (xs : List α) :
    (xs.takeWhile (fun x => !p x)).length = xs.findIdx p := by
  simp [List.takeWhile_eq_take_findIdx_not, List.findIdx_le_length]

/-- CLZ counts the zero bits above the highest one bit. -/
theorem clzBits_spec {w : Nat} (x : BitVec w) :
    clzBits x ≤ w ∧ (∀ k, k < clzBits x → x.getLsbD (w - 1 - k) = false) ∧
    (clzBits x < w → x.getLsbD (w - 1 - clzBits x) = true) := by
  have hlen : (List.range w).reverse.length = w := by simp
  rw [clzBits, length_takeWhile_not]
  exact ⟨List.findIdx_le_length.trans_eq hlen, fun k hk => by simpa using List.not_of_lt_findIdx hk,
    fun hlt => by simpa using List.findIdx_getElem (w := hlt.trans_eq hlen.symm)⟩

/-- CTZ counts the zero bits below the lowest one bit. -/
theorem ctzBits_spec {w : Nat} (x : BitVec w) :
    ctzBits x ≤ w ∧ (∀ k, k < ctzBits x → x.getLsbD k = false) ∧ (ctzBits x < w → x.getLsbD (ctzBits x) = true) := by
  have hlen : (List.range w).length = w := List.length_range
  rw [ctzBits, length_takeWhile_not]
  exact ⟨List.findIdx_le_length.trans_eq hlen, fun k hk => by simpa using List.not_of_lt_findIdx hk,
    fun hlt => by simpa using List.findIdx_getElem (w := hlt.trans_eq hlen.symm)⟩

/-- A count of the bits of a word fits a word. -/
theorem toNat_ofNat_of_le_32 {n : Nat} (h : n ≤ 32) : (BitVec.ofNat 32 n).toNat = n :=
  Nat.mod_eq_of_lt (by omega)

theorem popBits_eq_countP {w : Nat} (x : BitVec w) : popBits x = (List.range w).countP (fun k => x.getLsbD k) := by
  rw [popBits, List.countP_eq_length_filter]

/-- BREV's sum is the sum of the powers of two whose mirrored bits are set. -/
theorem revBits_eq_sum {w : Nat} (x : BitVec w) : revBits x =
    BitVec.ofNat w (((List.range w).filter (fun l => x.getLsbD (w - 1 - l))).foldl (fun n l => n + 2 ^ l) 0) := by
  have hcomm : RightCommutative (fun n l => if x.getLsbD (w - 1 - l) then n + 2 ^ l else n) :=
    ⟨fun n l m => by split <;> split <;> omega⟩
  have hreverse : (List.range w).reverse = (List.range w).map (w - 1 - ·) := by
    rw [List.range_eq_range', List.reverse_range', Nat.zero_add, List.range_eq_range']
  rw [revBits, List.foldl_filter, ← (List.reverse_perm (List.range w)).foldl_eq (rcomm := hcomm), hreverse, List.foldl_map]
  refine congrArg _ (List.foldl_ext _ _ 0 fun n k hk => ?_)
  have hback : w - 1 - (w - 1 - k) = k := by
    rw [List.mem_range] at hk
    omega
  rw [hback]

/-- BREV mirrors the bits. -/
theorem getLsbD_revBits {w k : Nat} (x : BitVec w) (hk : k < w) : (revBits x).getLsbD (w - 1 - k) = x.getLsbD k := by
  have hlt : w - 1 - k < w := by omega
  rw [revBits_eq_sum, BitVec.getLsbD_ofNat, (testBit_sum_pow _ w).2 _ hlt, decide_eq_true hlt, Bool.true_and]
  congr 1
  omega

end Sys2Proof.Machine
end

section
/-! PROOFS. What the scalar instructions write: the operations of R82 and R83, and the immediates and addresses of R84 to R87
(04_scalar.md). -/

namespace Sys2Proof.Machine

open Sys2Proof

/-! ### Operations on scalars and pairs (R82, R83) -/

/-- The rows of R82 write what the table gives. -/
theorem scalarOps_result : ∀ p ∈ scalarOps, ∃ op : Word → Word → Word,
    (∀ f s, exec (p.1 f) s = scalarBin (p.1 f).wf f op s) ∧ ∀ a b, op a b = p.2 a b := by
  simp only [scalarOps, List.forall_mem_cons]
  refine ⟨?add, ?sub, ?mul, ?mulhs, ?mulhu, ?and, ?or, ?xor, ?andn, ?shl, ?shr, ?sar, ?rotl, ?min, ?max, ?minu, ?maxu,
    ?slt, ?sltu, ?seq, ?sne, by simp⟩
  case mulhs => exact ⟨fun a b => BitVec.ofInt 32 (a.toInt * b.toInt / 2 ^ 32), fun _ _ => rfl, fun _ _ => rfl⟩
  case mulhu => exact ⟨fun a b => BitVec.ofNat 32 (a.toNat * b.toNat / 2 ^ 32), fun _ _ => rfl, fun _ _ => rfl⟩
  case and | or | xor => exact ⟨_, fun _ _ => rfl, fun a b => by simp⟩
  case add => exact ⟨fun a b => a + b, fun _ _ => rfl, add_eq_ofNat⟩
  case sub => exact ⟨fun a b => a - b, fun _ _ => rfl, sub_eq_ofInt⟩
  case mul => exact ⟨fun a b => a * b, fun _ _ => rfl, mul_eq_ofNat⟩
  case andn => exact ⟨fun a b => a &&& ~~~b, fun _ _ => rfl, andn_eq_ofNat⟩
  case shl => exact ⟨fun a b => a <<< count5 b, fun _ _ => rfl, fun a b => shl_eq_ofNat a (count5 b)⟩
  case shr => exact ⟨fun a b => a >>> count5 b, fun _ _ => rfl, fun a b => shr_eq_ofNat a (count5 b)⟩
  case sar => exact ⟨fun a b => a.sshiftRight (count5 b), fun _ _ => rfl, fun a b => sar_eq_ofInt a (count5 b)⟩
  case rotl => exact ⟨fun a b => a.rotateLeft (count5 b), fun _ _ => rfl,
    fun a b => rotl_eq_ofNat a (Nat.mod_lt b.toNat (by decide))⟩
  case min => exact ⟨fun a b => if a.slt b then a else b, fun _ _ => rfl, sltMin_eq_ofInt⟩
  case max => exact ⟨fun a b => if a.slt b then b else a, fun _ _ => rfl, sltMax_eq_ofInt⟩
  case minu => exact ⟨fun a b => if a.ult b then a else b, fun _ _ => rfl, ultMin_eq_ofNat⟩
  case maxu => exact ⟨fun a b => if a.ult b then b else a, fun _ _ => rfl, ultMax_eq_ofNat⟩
  case slt => exact ⟨fun a b => boolWord (a.slt b), fun _ _ => rfl, fun a b => boolWord_eq_ite BitVec.slt_iff_toInt_lt⟩
  case sltu => exact ⟨fun a b => boolWord (a.ult b), fun _ _ => rfl, fun a b => boolWord_eq_ite BitVec.ult_iff_toNat_lt⟩
  case seq => exact ⟨fun a b => boolWord (decide (a = b)), fun _ _ => rfl, fun a b => boolWord_eq_ite decide_eq_true_iff⟩
  case sne => exact ⟨fun a b => boolWord (decide (a ≠ b)), fun _ _ => rfl,
    fun a b => (boolWord_eq_ite decide_eq_true_iff).trans (ite_not _ _ _)⟩

/-- The pair operations of R83 write what the table gives. -/
theorem pairOps_result : ∀ p ∈ pairOps, ∃ op : DWord → DWord → DWord,
    (∀ f s, exec (p.1 f) s = pairBin f op s) ∧ ∀ a b, op a b = p.2 a b := by
  simp only [pairOps, List.forall_mem_cons]
  refine ⟨?addw, ?subw, ?mulw, by simp⟩
  case addw => exact ⟨_, fun _ _ => rfl, add_eq_ofNat⟩
  case subw => exact ⟨_, fun _ _ => rfl, sub_eq_ofInt⟩
  case mulw => exact ⟨_, fun _ _ => rfl, mul_eq_ofNat⟩

/-- The pair shifts of R83 write what the table gives. -/
theorem pairShifts_result : ∀ p ∈ pairShifts, ∃ op : DWord → Nat → DWord,
    (∀ f s, exec (p.1 f) s = pairShift f op s) ∧ ∀ a n, op a n = p.2 a n := by
  simp only [pairShifts, List.forall_mem_cons]
  refine ⟨?shlw, ?shrw, ?sarw, by simp⟩
  case shlw => exact ⟨_, fun _ _ => rfl, shl_eq_ofNat⟩
  case shrw => exact ⟨_, fun _ _ => rfl, shr_eq_ofNat⟩
  case sarw => exact ⟨_, fun _ _ => rfl, sar_eq_ofInt⟩

/-- The pair comparisons of R83 test what the table gives. -/
theorem pairTests_result : ∀ p ∈ pairTests, ∃ op : DWord → DWord → Bool,
    (∀ f s, exec (p.1 f) s = pairCmp f op s) ∧ ∀ a b, op a b = true ↔ p.2 a b := by
  simp only [pairTests, List.forall_mem_cons]
  refine ⟨?sltw, ?sltuw, by simp⟩
  case sltw => exact ⟨_, fun _ _ => rfl, fun _ _ => BitVec.slt_iff_toInt_lt⟩
  case sltuw => exact ⟨_, fun _ _ => rfl, fun _ _ => BitVec.ult_iff_toNat_lt⟩

theorem execCmov_writes {f : SR} {s : State} (hok : f.okBin = true) (hs : s.grp.srOk f) :
    execCmov f s = .next (s.after 1 (fun g => g.ws f.d (if g.rs f.a = 0 then g.rs f.d else g.srcB f))) :=
  (scalarBin_writes hok hs).trans (congrArg _ (State.after_congr (congrArg _ (ite_not _ _ _))))

theorem pairBin_writes {f : SR} {op : DWord → DWord → DWord} {s : State} (hok : f.okPair true true = true)
    (hs : s.grp.srPairOk f) :
    pairBin f op s = .next (s.after 1 (fun g => g.wp f.d (op (s.grp.rp f.a) (s.grp.srcPair f)))) := by
  obtain ⟨hd, ha, hb, hlive⟩ := hs
  exact finish_toPair (by simp [hok, ha, Group.srcPairOk_of_pairOk hb]) hd hlive

theorem pairShift_writes {f : SR} {op : DWord → Nat → DWord} {s : State} (hok : f.okPairShift = true)
    (hd : s.grp.pairOk f.d = true) (ha : s.grp.pairOk f.a = true) (hb : s.grp.scalOk f.b = true)
    (hlive : s.grp.liveInPair f.d = false) :
    pairShift f op s = .next (s.after 1 (fun g => g.wp f.d (op (s.grp.rp f.a) ((s.grp.srcB f).toNat % 64)))) :=
  finish_toPair (by simp [hok, ha, hb]) hd hlive

theorem pairCmp_writes {f : SR} {op : DWord → DWord → Bool} {s : State} (hok : f.okPair false true = true)
    (hd : s.grp.scalOk f.d = true) (ha : s.grp.pairOk f.a = true) (hb : s.grp.pairOk f.b = true)
    (hlive : s.grp.liveIn f.d = false) :
    pairCmp f op s = .next (s.after 1 (fun g => g.ws f.d (boolWord (op (s.grp.rp f.a) (s.grp.srcPair f))))) :=
  finish_toScalar (by simp [hok, ha, Group.srcPairOk_of_pairOk hb]) hd hlive

/-! ### Immediates and addresses (R84 to R87) -/

/-- An offset in words from an instruction is 8 times that many bytes from its address. -/
theorem Group.target_eq_ofInt (g : Group) (off : Word) :
    g.target off = BitVec.ofInt 64 (g.pc.toNat + 8 * off.toInt) := by
  simp [Group.target, BitVec.ofInt_add, BitVec.ofInt_mul, BitVec.signExtend]

/-- A pair moved by a signed offset. -/
theorem add_signExtend_eq_ofInt {v w : Nat} (a : BitVec w) (b : BitVec v) :
    a + b.signExtend w = BitVec.ofInt w (a.toNat + b.toInt) := by
  simp [BitVec.ofInt_add, BitVec.signExtend]

theorem execLi_writes {f : SR} {s : State} (hok : f.okLi = true) (hd : s.grp.scalOk f.d = true)
    (hlive : s.grp.liveIn f.d = false) : execLi f s = .next (s.after 1 (fun g => g.ws f.d f.imm)) :=
  finish_toScalar hok hd hlive

theorem execLiw_writes {f : SR} {lit : DWord} {s : State} (hok : f.okLiw = true) (hd : s.grp.pairOk f.d = true)
    (hlive : s.grp.liveInPair f.d = false) : execLiw f lit s = .next (s.after 2 (fun g => g.wp f.d lit)) :=
  finish_toPair hok hd hlive

theorem execLea_writes {f : SR} {s : State} (hok : f.okLea = true) (hd : s.grp.pairOk f.d = true)
    (ha : s.grp.pairOk f.a = true) (hb : s.grp.scalOk f.b = true) (hlive : s.grp.liveInPair f.d = false) :
    execLea f s = .next (s.after 1 (fun g => g.wp f.d (BitVec.ofInt 64 ((g.rp f.a).toNat + (g.srcB f).toInt)))) :=
  (finish_toPair (by simp [hok, ha, hb]) hd hlive).trans
    (congrArg _ (State.after_congr (congrArg _ (add_signExtend_eq_ofInt _ _))))

theorem execMovwCopy_writes {f : SR} {s : State} (hok : f.okMovCopy = true) (hd : s.grp.pairOk f.d = true)
    (ha : s.grp.pairOk f.a = true) (hlive : s.grp.liveInPair f.d = false) :
    execMovwCopy f s = .next (s.after 1 (fun g => g.wp f.d (g.rp f.a))) :=
  (finish_toPair (by simp [hok, ha]) hd hlive).trans (congrArg _ (State.after_congr rfl))

theorem execMovwRelative_writes {f : SR} {s : State} (hok : f.okMovRel = true) (hd : s.grp.pairOk f.d = true)
    (hlive : s.grp.liveInPair f.d = false) :
    execMovwRelative f s =
      .next (s.after 1 (fun g => g.wp f.d (BitVec.ofInt 64 (g.pc.toNat + 8 * f.imm.toInt)))) :=
  (finish_toPair hok hd hlive).trans (congrArg _ (State.after_congr (congrArg _ (s.grp.target_eq_ofInt f.imm))))

end Sys2Proof.Machine

open Sys2Proof Sys2Proof.Machine

/-- Settles O11: every row of R82 is one operation on two scalars that is its table's on numbers, and the bit counts are those of the
bits of s[A] one by one. -/
theorem scalarResults : Obligations.ScalarResults := by
  unfold Obligations.ScalarResults
  refine ⟨⟨?binary, ?cmov⟩, fun s f hok hs => ⟨?clz, ?ctz, ?popc, ?brev⟩⟩
  case binary =>
    intro p hp s f hwf hs
    obtain ⟨op, hexec, hop⟩ := scalarOps_result p hp
    exact ((hexec f s).trans (scalarBin_writes hwf hs)).trans (congrArg _ (State.after_congr (congrArg _ (hop _ _))))
  case cmov => exact fun s f hok hs => execCmov_writes hok hs
  case clz =>
    have hspec := clzBits_spec (s.grp.rs f.a)
    rw [← toNat_ofNat_of_le_32 hspec.1] at hspec
    exact ⟨_, scalarUn_writes (op := fun a => BitVec.ofNat 32 (clzBits a)) hok hs, hspec⟩
  case ctz =>
    have hspec := ctzBits_spec (s.grp.rs f.a)
    rw [← toNat_ofNat_of_le_32 hspec.1] at hspec
    exact ⟨_, scalarUn_writes (op := fun a => BitVec.ofNat 32 (ctzBits a)) hok hs, hspec⟩
  case popc =>
    exact (scalarUn_writes (op := fun a => BitVec.ofNat 32 (popBits a)) hok hs).trans
      (congrArg _ (State.after_congr (by rw [popBits_eq_countP])))
  case brev => exact ⟨_, scalarUn_writes hok hs, fun k hk => getLsbD_revBits _ hk⟩

/-- Settles O12: every row of R83 is one operation, shift or test on two pairs that is its table's on numbers. -/
theorem pairResults : Obligations.PairResults := by
  unfold Obligations.PairResults
  refine ⟨?ops, ?shifts, ?tests⟩
  case ops =>
    intro p hp s f hok hs
    obtain ⟨op, hexec, hop⟩ := pairOps_result p hp
    exact ((hexec f s).trans (pairBin_writes hok hs)).trans (congrArg _ (State.after_congr (congrArg _ (hop _ _))))
  case shifts =>
    intro p hp s f hok hd ha hb hlive
    obtain ⟨op, hexec, hop⟩ := pairShifts_result p hp
    exact ((hexec f s).trans (pairShift_writes hok hd ha hb hlive)).trans
      (congrArg _ (State.after_congr (congrArg _ (hop _ _))))
  case tests =>
    intro p hp s f hok hd ha hb hlive
    obtain ⟨op, hexec, hop⟩ := pairTests_result p hp
    have hwrites := (hexec f s).trans (pairCmp_writes hok hd ha hb hlive)
    refine ⟨fun h => ?_, fun h => ?_⟩
    · rwa [(hop _ _).2 h] at hwrites
    · rwa [Bool.eq_false_iff.2 (mt (hop _ _).1 h)] at hwrites

/-- Settles O13: each of them writes one register or pair, and the two sums are those of the offsets as signed numbers. -/
theorem immediatesAndAddresses : Obligations.ImmediatesAndAddresses := by
  unfold Obligations.ImmediatesAndAddresses
  exact fun s f => ⟨execLi_writes, fun _ => execLiw_writes, execLea_writes, execMovwCopy_writes, execMovwRelative_writes⟩
end

section
/-! PROOFS. LI as a whole rule (04_scalar.md R84). -/

namespace Sys2Proof

open Sys2Proof.Machine

theorem toNat_append_eq_add {v w : Nat} (x : BitVec v) (y : BitVec w) : (x ++ y).toNat = x.toNat * 2 ^ w + y.toNat := by
  rw [BitVec.toNat_append, ← Nat.shiftLeft_add_eq_or_of_lt y.isLt, Nat.shiftLeft_eq]

/-- A word in SR format is the sum of its fields at their places (R41). -/
theorem toNat_srWord (f : SR) (mop : BitVec 6) (fn : BitVec 7) :
    (f.toWord mop fn).toNat = mop.toNat * 2 ^ 58 + fn.toNat * 2 ^ 51 + f.i.toNat * 2 ^ 50 + f.d.toNat * 2 ^ 44 +
      f.a.toNat * 2 ^ 38 + f.b.toNat * 2 ^ 32 + f.imm.toNat := by
  simp only [SR.toWord, toNat_append_eq_add, bit1, BitVec.toNat_ofBool]
  ring

/-- LI's word (R84). -/
theorem encode_li (d : BitVec 6) (n : Word) :
    encode (.li ⟨true, d, 0, 0, n⟩) = [BitVec.ofNat 64 (0x0A * 2 ^ 58 + 2 ^ 50 + d.toNat * 2 ^ 44 + n.toNat)] := by
  have hword : (SR.toWord ⟨true, d, 0, 0, n⟩ 0x0A 0x00).toNat = 0x0A * 2 ^ 58 + 2 ^ 50 + d.toNat * 2 ^ 44 + n.toNat := by
    simp [toNat_srWord]
  rw [← hword, BitVec.ofNat_toNat, BitVec.setWidth_eq]
  rfl

/-- The fields of LI that it does not use are 0, and it has an immediate (R84). -/
theorem SR.okLi_iff (f : SR) : f.okLi = true ↔ f.i = true ∧ f.a = 0 ∧ f.b = 0 := by
  simp [SR.okLi, and_assoc]

end Sys2Proof

namespace Sys2Proof.Machine

open Sys2Proof

theorem Group.ws_sreg_self (g : Group) {n : BitVec 6} (x : Word) (h : n ≠ 0) : (g.ws n x).sreg[n.toNat]? = some x := by
  rw [Group.ws, if_neg h]
  exact Vector.getElem?_set_self (by have := n.isLt; omega)

theorem finish_toScalar_illegal {s : State} {ok : Bool} {d : BitVec 6} {x : Word} {len : Nat}
    (h : ok = false ∨ s.grp.scalOk d = false) : finish len (s.toScalar ok d x) = s.illegal :=
  finish_of_illegal (State.need_false (by simpa [Decidable.imp_iff_not_or] using h))

theorem finish_toScalar_rgnw {s : State} {ok : Bool} {d : BitVec 6} {x : Word} {len : Nat} (hok : ok = true)
    (hd : s.grp.scalOk d = true) (hlive : s.grp.liveIn d = true) :
    finish len (s.toScalar ok d x) = .next (s.takeTrap { cause := .rgnw }) := by
  simp only [State.toScalar, hok, hd, hlive, Bool.and_self, Bool.not_true, State.need_true, Run.ok_bind,
    State.need_false]
  rfl

end Sys2Proof.Machine

open Sys2Proof Sys2Proof.Machine

/-- Settles O56: the word is the sum of its fields, and the two checks come one after the other before the write. -/
theorem loadImmediateWhole : Obligations.LoadImmediateWhole := by
  unfold Obligations.LoadImmediateWhole
  refine ⟨encode_li, fun s f => ⟨?writes, ?illegal, ?rgnw⟩⟩
  case writes =>
    intro hi ha hb hd hlive
    have hexec : exec (.li f) s = .next (s.after 1 (fun g => g.ws f.d f.imm)) :=
      execLi_writes (f.okLi_iff.2 ⟨hi, ha, hb⟩) hd hlive
    refine ⟨fun hzero => ?_, _, hexec, rfl, onlyScalars_ws f.d f.imm s.grp, s.grp.ws_sreg_self f.imm,
      fun k => s.grp.ws_sreg_other f.imm⟩
    rw [hexec, hzero]
    rfl
  case illegal =>
    intro h
    refine finish_toScalar_illegal ?_
    rw [← Bool.not_eq_true, f.okLi_iff]
    rw [← Bool.not_eq_true] at h
    tauto
  case rgnw => exact fun hi ha hb hd hlive => finish_toScalar_rgnw (f.okLi_iff.2 ⟨hi, ha, hb⟩) hd hlive
end

section
/-! PROOFS. The registers at reset, and what a group holds as it starts (03_control.md R59, 04_scalar.md R80, 05_vector.md R95,
06_narrow_formats.md R117, 11_engines_and_copies.md R197). -/

namespace Sys2Proof.Machine

open Sys2Proof

/-- A set of lanes is its three words put together (R43). -/
theorem laneWords_append (m : LaneSet) : laneWord m 2 ++ laneWord m 1 ++ laneWord m 0 = m := by
  refine BitVec.eq_of_getLsbD_eq fun l hl => ?_
  simp only [laneWord, BitVec.getLsbD_append, BitVec.getLsbD_extractLsb']
  by_cases h0 : l < 32
  · simp [h0]
  · by_cases h1 : l < 64
    · have hin : l - 32 < 32 := by omega
      have hback : 32 + (l - 32) = l := by omega
      simp [h0, hin, hback]
    · have hin : ¬ l - 32 < 32 := by omega
      have hin2 : l - 32 - 32 < 32 := by omega
      have hback : 64 + (l - 32 - 32) = l := by omega
      simp [h0, hin, hin2, hback]

section
variable (id : GroupId) (entry trapv : DWord) (bs : List Nat)

/-- The scalars of a group as it starts (R80). -/
theorem Group.rs_initial {n : BitVec 6} (h : n ≠ 0) : (Group.initial id entry trapv bs).rs n =
    if 61 ≤ n.toNat then laneWord (liveMask id.lanes) (n.toNat - 61) else 0 := by
  rw [Group.rs, if_neg h]
  exact Vector.getElem_ofFn _

theorem Group.rs_initial_below {n : BitVec 6} (h : n.toNat < 61) : (Group.initial id entry trapv bs).rs n = 0 := by
  by_cases hn : n = 0
  · subst hn
    rfl
  · rw [Group.rs_initial id entry trapv bs hn, if_neg (by omega)]

/-- The triple em0 to em2 of a group as it starts is LiveMask (R80). -/
theorem Group.raw_initial : (Group.initial id entry trapv bs).raw 0 = liveMask id.lanes := by
  have hword (n : BitVec 6) (hn : 61 ≤ n.toNat) :
      (Group.initial id entry trapv bs).rs n = laneWord (liveMask id.lanes) (n.toNat - 61) := by
    rw [Group.rs_initial id entry trapv bs (by rintro rfl; exact absurd hn (by decide)), if_pos hn]
  rw [Group.raw, hword _ (by decide), hword _ (by decide), hword _ (by decide)]
  exact laneWords_append _

theorem Group.physLanes_initial (p : Nat) : (Group.initial id entry trapv bs).physLanes p = zeroLanes := by
  have hall : (Group.initial id entry trapv bs).vreg = Vector.replicate 232 zeroLanes := rfl
  rw [Group.physLanes, hall, Vector.getElem?_replicate]
  split <;> rfl

/-- The lane generator of a group as it starts (R117). -/
theorem Group.gen_initial {l : Nat} (hl : l < 96) : (Group.initial id entry trapv bs).gen[l]? =
    some (if l = 0 then 1 else BitVec.ofNat 32 (l * 0x00010001)) := by
  have hgen : (Group.initial id entry trapv bs).gen = genInitial := rfl
  rw [hgen, genInitial, Vector.getElem?_ofFn, dif_pos hl]

/-- The queue registers of a group as it starts (R197). -/
theorem Group.queue_initial (q : Nat) : (Group.initial id entry trapv bs).queue q = QReg.initial := by
  have hall : (Group.initial id entry trapv bs).queues = Vector.replicate 16 QReg.initial := rfl
  rw [Group.queue, hall, Vector.getElem?_replicate]
  split <;> rfl

end

end Sys2Proof.Machine

open Sys2Proof Sys2Proof.Machine

/-- Settles O59: the registers by the values of reset, and the group by its registers, each as it starts. -/
theorem resetAndGroupStartValues : Obligations.ResetAndGroupStartValues := by
  unfold Obligations.ResetAndGroupStartValues
  refine ⟨?reset, fun id entry trapv bs _ => ?start⟩
  case reset =>
    exact ⟨rfl, rfl, rfl, rfl, rfl, rfl, rfl, rfl, rfl, rfl, rfl, rfl, Vector.all_replicate, Vector.all_replicate,
      Vector.all_replicate, rfl, rfl, rfl, rfl, rfl, rfl, rfl, rfl⟩
  case start =>
    refine ⟨fun n => Group.rs_initial_below id entry trapv bs, fun l hl => ?em,
      fun p _ => Group.physLanes_initial id entry trapv bs p, fun l hpos hl => ?gen, Group.gen_initial id entry trapv bs (by decide),
      rfl, rfl, rfl, rfl, fun q _ => ?queue, rfl⟩
    case em => rw [Group.raw_initial, Bool.eq_iff_iff, getLsbD_liveMask hl, decide_eq_true_iff]
    case gen => rw [Group.gen_initial id entry trapv bs hl, if_neg hpos.ne']
    case queue =>
      rw [Group.queue_initial]
      exact ⟨rfl, rfl⟩
end

section
/-! SUPPORT. What a VR word comes to once its checks pass (05_vector.md R90 to R94): the reads of its streams leave the group but two of
its counts, and its body works on that group with its streams advanced. -/

namespace Sys2Proof.Machine

open Sys2Proof

/-! ### What the reads of streams leave of the group (R94, R137, R295) -/

@[simp] theorem State.countL2_turns (tenant cluster : Nat) (past : Bool) (ls : List Nat) (s : State) :
    (s.countL2 tenant cluster past ls).turns = s.turns := by
  induction ls generalizing s with
  | nil => rfl
  | cons l ls ih =>
    rw [State.countL2, ih]
    split <;> simp

theorem State.readMissed_grp (s : State) (past : Bool) (bytes : Nat) (ls : List Nat) :
    (s.readMissed past bytes ls).grp = s.grp.countMisses ls.length bytes :=
  State.grp_of_turns (State.countL2_turns _ _ _ _ _)

@[simp] theorem State.allocLoad_turns (core : Nat) (how : ReadAt) (w : Want) (ls : List Nat) (s : State) :
    (s.allocLoad core how w ls).turns = s.turns := by
  have hput : ∀ (t : State) (l : Nat), (t.putL1 core l w).turns = t.turns := fun _ _ => rfl
  induction ls generalizing s with
  | nil => rfl
  | cons l ls ih =>
    rw [State.allocLoad, ih]
    cases l2Prio w.cp <;> split <;> simp [hput]

/-- A read of the issuing group changes two counts of the group (R295). -/
theorem State.sawBeyond_grp (s : State) (core : Nat) (how : ReadAt) (cp : Nat) (ks : List Nat) :
    ∃ n bytes, (s.sawBeyond core how cp ks).grp = s.grp.countMisses n bytes := by
  refine ⟨(s.missedLines core how ks).length, 128 * (s.missedLines core how ks).length,
    (State.grp_of_turns (State.allocLoad_turns _ _ _ _ _)).trans ?_⟩
  cases how <;> exact s.readMissed_grp _ _ _

/-- The reads of a word's streams change two counts of the group. -/
theorem State.passL1_grp (s : State) (zs : List Nat) : ∃ n bytes, (s.passL1 zs).grp = s.grp.countMisses n bytes := by
  induction zs generalizing s with
  | nil => exact ⟨0, 0, rfl⟩
  | cons z zs ih =>
    rw [State.passL1]
    split
    · obtain ⟨n, bytes, h⟩ := ih ((s.walked _ _).sawBeyond _ _ _ _)
      obtain ⟨n', bytes', h'⟩ := (s.walked _ _).sawBeyond_grp _ _ _ _
      rw [h', State.walked_grp] at h
      exact ⟨n' + n, bytes' + bytes, h.trans (by simp [Group.countMisses, Nat.add_assoc])⟩
    · exact ih s

/-! ### The group that a VR word writes -/

/-- The group as a word's streams have been read and have advanced: what the word's write starts from. -/
def State.streamed (s : State) (us : List Use) : Group := (s.passL1 (streamsOf us)).grp.advanceStreams (streamsOf us)

theorem State.streamed_eq (s : State) (us : List Use) :
    ∃ n bytes, s.streamed us = (s.grp.countMisses n bytes).advanceStreams (streamsOf us) := by
  obtain ⟨n, bytes, h⟩ := s.passL1_grp (streamsOf us)
  exact ⟨n, bytes, by rw [State.streamed, h]⟩

@[simp] theorem State.streamed_mask (s : State) (us : List Use) (b : BitVec 6) : (s.streamed us).mask b = s.grp.mask b := by
  obtain ⟨n, bytes, h⟩ := s.streamed_eq us
  rw [h]
  rfl

@[simp] theorem State.streamed_raw (s : State) (us : List Use) (b : BitVec 6) : (s.streamed us).raw b = s.grp.raw b := by
  obtain ⟨n, bytes, h⟩ := s.streamed_eq us
  rw [h]
  rfl

@[simp] theorem State.streamed_live (s : State) (us : List Use) : (s.streamed us).live = s.grp.live := by
  obtain ⟨n, bytes, h⟩ := s.streamed_eq us
  rw [h]
  rfl

@[simp] theorem State.streamed_fpcr (s : State) (us : List Use) : (s.streamed us).fpcr = s.grp.fpcr := by
  obtain ⟨n, bytes, h⟩ := s.streamed_eq us
  rw [h]
  rfl

@[simp] theorem State.streamed_pickLane (s : State) (us : List Use) (v : LaneVals) (i : Nat) :
    (s.streamed us).pickLane v i = s.grp.pickLane v i := by
  rw [Group.pickLane, Group.pickLane, State.streamed_live]

/-- Of the change that a VR word makes only what it makes of that group counts. -/
theorem State.afterVR_congr {s : State} {us : List Use} {f g : Group → Group} (h : f (s.streamed us) = g (s.streamed us)) :
    s.afterVR us f = s.afterVR us g :=
  State.after_congr h

/-! ### Bodies whose checks pass (R90 to R94) -/

/-- A VR word in order makes the change of its body, its streams having given `vs`. -/
theorem finish_runVR {s : State} {ok rgnw : Bool} {t : BitVec 3} {us : List Use} {vs : List (Nat × LaneVals)} {body : VBody}
    (hok : ok = true) (hus : us.all s.grp.useOk = true) (hrgnw : rgnw = false)
    (hvs : s.readStreams (streamsOf us) = .ok vs) :
    finish 1 (s.runVR ok true rgnw t us body) = .next (s.afterVR us (fun g => body (s.opnds t us vs) g)) := by
  simp only [State.runVR, hok, hus, hrgnw, hvs, Bool.and_self, Bool.not_false, State.need_true]
  rfl

/-- The same for a word that writes a vector register, or a pair of them. -/
theorem finish_runVR_ready {s : State} {f : VR} {ok wide : Bool} {us : List Use} {vs : List (Nat × LaneVals)}
    {body : VBody} (hok : ok = true) (hs : s.vrReady f us wide vs) :
    finish 1 (s.runVR (ok && s.grp.tripOk f.m && s.grp.dstOk f wide) true (s.grp.dstLive f wide) f.t us body) =
      .next (s.afterVR us (fun g => body (s.opnds f.t us vs) g)) := by
  obtain ⟨hm, hd, hlive, hus, hvs⟩ := hs
  exact finish_runVR (by simp [hok, hm, hd]) hus hlive hvs

end Sys2Proof.Machine
end

section
/-! PROOFS. The frame of the write of a VR word: inactive lanes and everything but vector registers and FPSR stay (05_vector.md
R93). -/

namespace Sys2Proof.Machine

open Sys2Proof

theorem Group.wv_only (g : Group) (n : Nat) (x : Lanes) : g.wv n x = { g with vreg := (g.wv n x).vreg } := by
  unfold Group.wv
  split <;> rfl

theorem Group.wvm_only (g : Group) (n : Nat) (m : LaneSet) (x : Lanes) :
    g.wvm n m x = { g with vreg := (g.wvm n m x).vreg } :=
  g.wv_only n _

theorem Group.writeLanes_only (g : Group) (d : Nat) (wide : Bool) (m : LaneSet) (r : Nat → LaneRes) :
    g.writeLanes d wide m r =
      { g with vreg := (g.writeLanes d wide m r).vreg, fpsr := (g.writeLanes d wide m r).fpsr } := by
  cases wide with
  | false => rw [Group.writeLanes, if_neg Bool.false_ne_true, Group.wvm_only]; rfl
  | true => rw [Group.writeLanes, if_pos rfl, Group.wvm_only _ (d + 1), Group.wvm_only g d]; rfl

theorem Group.physLanes_wv_other {g : Group} {n p : Nat} (x : Lanes) (h : g.phys n ≠ some p) :
    (g.wv n x).physLanes p = g.physLanes p := by
  unfold Group.wv
  cases hq : g.phys n with
  | none => rfl
  | some q =>
    have hqp : q ≠ p := fun e => h (hq.trans (congrArg some e))
    simp only [Group.physLanes, Vector.getElem?_setIfInBounds_ne hqp]

theorem Group.physLanes_wv_self {g : Group} {n p : Nat} (x : Lanes) (h : g.phys n = some p) :
    (g.wv n x).physLanes p = if p < 232 then x else g.physLanes p := by
  simp only [Group.wv, h, Group.physLanes, Vector.getElem?_setIfInBounds_self]
  split
  · rfl
  · next hp => rw [Vector.getElem?_eq_none (Nat.le_of_not_lt hp)]

/-- A register that is not written, and a lane outside the set, stay as they were. -/
theorem Group.wvm_keeps {g : Group} {n p l : Nat} {m : LaneSet} {x : Lanes} (hl : l < 96)
    (h : g.phys n ≠ some p ∨ m.getLsbD l = false) : ((g.wvm n m x).physLanes p)[l]? = (g.physLanes p)[l]? := by
  by_cases hp : g.phys n = some p
  · have hm : m.getLsbD l = false := h.resolve_left (not_not_intro hp)
    rw [Group.wvm, Group.physLanes_wv_self _ hp]
    split
    · rw [Vector.getElem?_eq_getElem hl, mergeLanes_get _ _ _ _ hl, hm, if_neg Bool.false_ne_true, Group.rv, hp,
        Vector.getElem?_eq_getElem hl]
    · rfl
  · rw [Group.wvm, Group.physLanes_wv_other _ hp]

theorem Group.phys_wvm (g : Group) (n k : Nat) (m : LaneSet) (x : Lanes) : (g.wvm n m x).phys k = g.phys k := by
  simp [Group.phys]

theorem Group.writeLanes_keeps {g : Group} {d p l : Nat} {wide : Bool} {m : LaneSet} {r : Nat → LaneRes} (hl : l < 96)
    (h : (g.phys d ≠ some p ∧ (wide = true → g.phys (d + 1) ≠ some p)) ∨ m.getLsbD l = false) :
    ((g.writeLanes d wide m r).physLanes p)[l]? = (g.physLanes p)[l]? := by
  have hlow : g.phys d ≠ some p ∨ m.getLsbD l = false := h.imp_left And.left
  cases wide with
  | false => exact Group.wvm_keeps hl hlow
  | true =>
    refine (Group.wvm_keeps hl ?_).trans (Group.wvm_keeps hl hlow)
    rw [Group.phys_wvm]
    exact h.imp_left fun hd => hd.2 rfl

end Sys2Proof.Machine

open Sys2Proof Sys2Proof.Machine

/-- Settles O22: the write changes the registers by lanes and FPSR, and the streams are those that advance. -/
theorem vectorWriteFrame : Obligations.VectorWriteFrame := by
  unfold Obligations.VectorWriteFrame
  rintro g _ zs d wide m r p l hl rfl
  refine ⟨fun h => ?kept, ?rest⟩
  case kept => exact Group.writeLanes_keeps (g := g.advanceStreams zs) hl h
  case rest => rw [Group.writeLanes_only]; rfl
end

section
/-! PROOFS. The vector integer instructions (05_vector.md R103): a lane is put together from its elements, each the exact result of
the elements of the operands modulo 2^e, or saturated. -/

namespace Sys2Proof.Machine

open Sys2Proof

/-! ### The elements of a lane -/

theorem loHalf_setWidth (w : Word) : loHalf (w.setWidth 64) = w := by
  refine BitVec.eq_of_getLsbD_eq fun i hi => ?_
  simp only [loHalf, BitVec.getLsbD_extractLsb', BitVec.getLsbD_setWidth, Nat.zero_add, hi]
  simp [Nat.lt_trans hi (by decide : 32 < 64)]

/-- A sum of digits of `e` bits each has those digits. -/
theorem digit_foldl {e : Nat} {f : Nat → Nat} (hf : ∀ k, f k < 2 ^ e) (n : Nat) :
    (List.range n).foldl (fun x k => x + f k * 2 ^ (e * k)) 0 < 2 ^ (e * n) ∧
    ∀ k, k < n → (List.range n).foldl (fun x k => x + f k * 2 ^ (e * k)) 0 / 2 ^ (e * k) % 2 ^ e = f k := by
  induction n with
  | zero => simp
  | succ n ih =>
    obtain ⟨hlt, hdigit⟩ := ih
    rw [List.range_succ, List.foldl_append]
    simp only [List.foldl_cons, List.foldl_nil]
    generalize (List.range n).foldl (fun x k => x + f k * 2 ^ (e * k)) 0 = x at hlt hdigit
    refine ⟨?_, fun k hk => ?_⟩
    · calc x + f n * 2 ^ (e * n) < (f n + 1) * 2 ^ (e * n) := by rw [Nat.add_mul, Nat.one_mul]; omega
        _ ≤ 2 ^ e * 2 ^ (e * n) := Nat.mul_le_mul_right _ (hf n)
        _ = 2 ^ (e * (n + 1)) := by rw [← Nat.pow_add, Nat.mul_succ, Nat.add_comm]
    · rcases Nat.lt_succ_iff_lt_or_eq.1 hk with hk | rfl
      · obtain ⟨d, rfl⟩ := Nat.exists_eq_add_of_lt hk
        have hpow : 2 ^ (e * (k + d + 1)) = 2 ^ (e * k) * (2 ^ e * 2 ^ (e * d)) := by ring
        rw [hpow, Nat.mul_left_comm, Nat.add_mul_div_left _ _ (Nat.two_pow_pos _), Nat.mul_left_comm,
          Nat.add_mul_mod_self_left, hdigit k hk]
      · rw [Nat.add_mul_div_right _ _ (Nat.two_pow_pos _), Nat.div_eq_of_lt hlt, Nat.zero_add, Nat.mod_eq_of_lt (hf k)]

/-- A lane has the elements that it is put together from. -/
theorem elem_joinElems {e k : Nat} {f : Nat → Nat} (hf : ∀ k, f k < 2 ^ e) (hk : k < 32 / e) :
    elem e (joinElems e f) k = f k := by
  obtain ⟨hlt, hdigit⟩ := digit_foldl hf (32 / e)
  have hfits : 2 ^ (e * (32 / e)) ≤ 2 ^ 32 := Nat.pow_le_pow_right (by decide) (Nat.mul_div_le 32 e)
  rw [elem, joinElems, BitVec.toNat_ofNat, Nat.mod_eq_of_lt (hlt.trans_le hfits), hdigit k hk]

theorem elem_lt (e : Nat) (x : Word) (k : Nat) : elem e x k < 2 ^ e := Nat.mod_lt _ (Nat.two_pow_pos e)

/-! ### Numbers modulo 2^e -/

theorem wrapTo_lt (e : Nat) (x : Int) : wrapTo e x < 2 ^ e := by
  have hpos : (0 : Int) < 2 ^ e := by positivity
  have h := Int.emod_lt_of_pos x hpos
  have h0 := Int.emod_nonneg x hpos.ne'
  rw [wrapTo]
  zify
  rwa [Int.toNat_of_nonneg h0]

theorem wrapTo_of_lt {e : Nat} {x : Int} (h0 : 0 ≤ x) (h : x < 2 ^ e) : (wrapTo e x : Int) = x := by
  rw [wrapTo, Int.emod_eq_of_lt h0 h, Int.toNat_of_nonneg h0]

/-- A number of the signed range is what its pattern means. -/
theorem signedOf_wrapTo {e : Nat} (he : 0 < e) {x : Int} (hlo : -(2 ^ (e - 1)) ≤ x) (hhi : x < 2 ^ (e - 1)) :
    signedOf e (wrapTo e x) = x := by
  have htwice : (2 : Int) ^ e = 2 ^ (e - 1) + 2 ^ (e - 1) := by
    rw [← mul_two, ← pow_succ, Nat.sub_add_cancel he]
  have hcast : ((2 ^ (e - 1) : Nat) : Int) = 2 ^ (e - 1) := by norm_cast
  rcases le_or_gt 0 x with h0 | h0
  · have hw := wrapTo_of_lt (e := e) h0 (by omega)
    rw [signedOf, if_pos (by omega), hw]
  · have hw : (wrapTo e x : Int) = x + 2 ^ e := by
      rw [← wrapTo_of_lt (e := e) (x := x + 2 ^ e) (by omega) (by omega), wrapTo, wrapTo, Int.add_emod_right]
    rw [signedOf, if_neg (by omega), hw]
    omega

theorem elemBits_pos (t : BitVec 3) : 0 < elemBits t := by
  unfold elemBits
  split
  · decide
  · split <;> decide

/-! ### One element (R103) -/

theorem intElem_lt (op uop : IntOp) (sat u : Bool) (e a b c : Nat) : intElem op uop sat u e a b c < 2 ^ e := by
  unfold intElem
  split
  · split <;> exact wrapTo_lt _ _
  · exact wrapTo_lt _ _

theorem intElem_signed {op uop : IntOp} {e a b c : Nat} (he : 0 < e) :
    signedOf e (intElem op uop true false e a b c) = max (-(2 ^ (e - 1))) (min (2 ^ (e - 1) - 1) (op e a b c)) := by
  have hpos : (0 : Int) < 2 ^ (e - 1) := by positivity
  exact signedOf_wrapTo he (le_max_left _ _) (max_lt (by omega) (min_lt_of_left_lt (by omega)))

theorem intElem_unsigned {op uop : IntOp} {e a b c : Nat} :
    (intElem op uop true true e a b c : Int) = max 0 (min (2 ^ e - 1) (uop e a b c)) := by
  have hpos : (0 : Int) < 2 ^ e := by positivity
  exact wrapTo_of_lt (le_max_left _ _) (max_lt hpos (min_lt_of_left_lt (by omega)))

/-! ### The instructions -/

/-- Element `k` of lane `l` that an integer instruction writes. -/
def intElemAt (f : VR) (op uop : IntOp) (o : Opnds) (l k : Nat) : Nat :=
  intElem op uop f.sat (f.x.getLsbD 0) (elemBits f.t) (elem (elemBits f.t) (o.a.word l) k)
    (elem (elemBits f.t) (o.b.word l) k) (elem (elemBits f.t) (o.c.word l) k)

/-- Lane `l` that an integer instruction writes. -/
def intLane (f : VR) (op uop : IntOp) (o : Opnds) (l : Nat) : LaneRes :=
  ⟨(joinElems (elemBits f.t) (intElemAt f op uop o l)).setWidth 64, 0⟩

theorem elem_intLane {f : VR} {op uop : IntOp} {o : Opnds} {l k : Nat} (hk : k < 32 / elemBits f.t) :
    elem (elemBits f.t) (loHalf (intLane f op uop o l).val) k = intElemAt f op uop o l k := by
  rw [intLane, loHalf_setWidth]
  exact elem_joinElems (fun _ => intElem_lt _ _ _ _ _ _ _ _) hk

theorem vecInt_writes {ok : Bool} {f : VR} {us : List Use} {op uop : IntOp} {s : State} {vs : List (Nat × LaneVals)}
    (hok : ok = true) (hs : s.vrReady f us false vs) :
    vecInt ok f us op uop s = .next (s.afterLanes f us false (intLane f op uop (s.opnds f.t us vs))) :=
  finish_runVR_ready hok hs

theorem VR.sat_of_okInt {f : VR} {canUsat b c : Bool} (h : f.okInt false canUsat b c = true) : f.sat = false := by
  simp only [VR.okInt, Bool.and_eq_true, Bool.or_false, Bool.not_eq_true'] at h
  exact h.1.2

/-- VCLZ counts the zero bits above the highest one bit, whose place is the logarithm. -/
theorem clzBits_ofNat {e a : Nat} (h : a < 2 ^ e) :
    (clzBits (BitVec.ofNat e a) : Int) = if a = 0 then (e : Int) else e - 1 - Nat.log2 a := by
  obtain ⟨hle, hzeros, htop⟩ := clzBits_spec (BitVec.ofNat e a)
  generalize clzBits (BitVec.ofNat e a) = n at hle hzeros htop
  have hbit : ∀ k, k < e → (BitVec.ofNat e a).getLsbD k = a.testBit k := fun k hk => by
    rw [BitVec.getLsbD_ofNat, decide_eq_true hk, Bool.true_and]
  have hclear : ∀ i, e ≤ i + n → a.testBit i = false := fun i hi => by
    rcases Nat.lt_or_ge i e with hie | hie
    · have hback : e - 1 - (e - 1 - i) = i := by omega
      rw [← hbit i hie, ← hback]
      exact hzeros _ (by omega)
    · exact Nat.testBit_lt_two_pow (h.trans_le (Nat.pow_le_pow_right (by decide) hie))
  rcases Nat.lt_or_ge n e with hn | hn
  · have hset : a.testBit (e - 1 - n) = true := (hbit _ (by omega)).symm.trans (htop hn)
    have hne : a ≠ 0 := by
      rintro rfl
      simp at hset
    have hlog : Nat.log2 a = e - 1 - n := by
      rw [Nat.log2_eq_iff hne]
      exact ⟨Nat.ge_two_pow_of_testBit hset, Nat.lt_pow_two_of_testBit _ fun i hi => hclear i (by omega)⟩
    rw [if_neg hne, hlog]
    omega
  · have hzero : a = 0 := Nat.eq_of_testBit_eq fun i => by rw [Nat.zero_testBit, hclear i (by omega)]
    rw [if_pos hzero]
    omega

theorem popBits_ofNat (e a : Nat) :
    popBits (BitVec.ofNat e a) = (List.range e).countP (fun k => a.testBit k) := by
  rw [popBits_eq_countP]
  refine List.countP_congr fun k hk => ?_
  rw [BitVec.getLsbD_ofNat, decide_eq_true (List.mem_range.1 hk), Bool.true_and]

/-- The instructions of R103 that never saturate compute what the table gives. -/
theorem vecIntOps_result : ∀ p ∈ vecIntOps, ∃ op : IntOp,
    (∀ f s, exec (p.1 f) s = vecInt (p.1 f).wf f (usesOf p.2.1 f false) op op s) ∧
    (∀ f, (p.1 f).wf = true → f.sat = false) ∧
    ∀ e a b c, a < 2 ^ e → op e a b c = p.2.2 e a b c := by
  simp only [vecIntOps, List.forall_mem_cons]
  refine ⟨?vmul, ?vmulh, ?vmulhu, ?vmad, ?vand, ?vor, ?vxor, ?vandn, ?vshl, ?vshr, ?vsar, ?vmin, ?vmax, ?vminu, ?vmaxu,
    ?vpopc, ?vclz, by simp⟩
  case vpopc =>
    exact ⟨fun e a _ _ => (popBits (BitVec.ofNat e a) : Int), fun _ _ => rfl, fun _ => VR.sat_of_okInt,
      fun e a _ _ _ => congrArg _ (popBits_ofNat e a)⟩
  case vclz =>
    exact ⟨fun e a _ _ => (clzBits (BitVec.ofNat e a) : Int), fun _ _ => rfl, fun _ => VR.sat_of_okInt,
      fun e a _ _ => clzBits_ofNat⟩
  all_goals exact ⟨_, fun _ _ => rfl, fun _ => VR.sat_of_okInt, fun _ _ _ _ _ => rfl⟩

/-- The instructions of R103 that may saturate compute what the table gives. -/
theorem vecSatOps_result : ∀ p ∈ vecSatOps, ∀ f s, exec (p.1 f) s =
    vecInt (p.1 f).wf f (usesOf p.2.1 f false) (fun e a b _ => p.2.2.1 e a b) (fun e a b _ => p.2.2.2 e a b) s := by
  simp only [vecSatOps, List.forall_mem_cons]
  exact ⟨fun _ _ => rfl, fun _ _ => rfl, fun _ _ => rfl, fun _ _ => rfl, by simp⟩

end Sys2Proof.Machine

open Sys2Proof Sys2Proof.Machine

/-- Settles O14: every row is one operation on elements, and each lane it writes has the elements that the operation gives. -/
theorem vectorIntegerResults : Obligations.VectorIntegerResults := by
  unfold Obligations.VectorIntegerResults
  refine ⟨?wrap, ?saturate⟩
  case wrap =>
    intro p hp s f vs hwf hs
    obtain ⟨op, hexec, hsat, hop⟩ := vecIntOps_result p hp
    refine ⟨_, (hexec f s).trans (vecInt_writes hwf hs), fun l _ => ⟨rfl, fun k hk => ?_⟩⟩
    rw [elem_intLane hk, intElemAt, hsat f hwf, intElem, if_neg Bool.false_ne_true, hop _ _ _ _ (elem_lt _ _ _), wrapTo]
  case saturate =>
    intro p hp s f vs hwf hs
    refine ⟨_, (vecSatOps_result p hp f s).trans (vecInt_writes hwf hs), fun l _ => ⟨rfl, fun k hk a b ha hb => ?_⟩⟩
    rw [elem_intLane hk, intElemAt, ← ha, ← hb]
    refine ⟨fun hsat => ?plain, fun hsat hx => ?signed, fun hsat hx => ?unsigned⟩
    case plain => rw [hsat]; rfl
    case signed => rw [hsat, hx, intElem_signed (elemBits_pos _)]
    case unsigned => rw [hsat, hx, intElem_unsigned]
end

section
/-! PROOFS. The vector compares (05_vector.md R104). -/

namespace Sys2Proof.Machine

open Sys2Proof

/-- The lanes of a set of which a test holds. -/
def hitLanes (m : LaneSet) (p : Nat → Bool) : LaneSet :=
  BitVec.ofNat 96 ((lanesOf m).foldl (fun n l => if p l then n + 2 ^ l else n) 0)

theorem getLsbD_hitLanes {m : LaneSet} {p : Nat → Bool} {l : Nat} (hl : l < 96) :
    (hitLanes m p).getLsbD l = (p l && m.getLsbD l) := by
  rw [hitLanes, ← List.foldl_filter, lanesOf, List.filter_filter, BitVec.getLsbD_ofNat, decide_eq_true hl, Bool.true_and]
  exact (testBit_sum_pow (fun l => p l && m.getLsbD l) 96).2 l hl

/-- The bits of a triple with those of the active lanes replaced by the results of a test (R104). -/
def comparedBits (m old : LaneSet) (p : Nat → Bool) : LaneSet := (old &&& ~~~m) ||| hitLanes m p

theorem getLsbD_comparedBits {m old : LaneSet} {p : Nat → Bool} {l : Nat} (hl : l < 96) :
    (comparedBits m old p).getLsbD l = if m.getLsbD l then p l else old.getLsbD l := by
  rw [comparedBits, BitVec.getLsbD_or, BitVec.getLsbD_and, BitVec.getLsbD_not, getLsbD_hitLanes hl]
  cases m.getLsbD l <;> simp [hl]

/-- Lanes that raise no flag leave FPSR. -/
theorem Group.raiseFlags_none (g : Group) (ls : List Nat) : g.raiseFlags (ls.foldl (fun x _ => x ||| 0) 0) = g := by
  simp [Group.raiseFlags]

/-- Lane `l` of a compare of the word's two operands. -/
def State.cmpLane (s : State) (f : VR) (vs : List (Nat × LaneVals)) (cond : DWord → DWord → Bool × BitVec 6) (l : Nat) :
    Bool × BitVec 6 :=
  cond ((s.opnds f.t (usesOf 2 f f.wide) vs).a[l]?.getD 0) ((s.opnds f.t (usesOf 2 f f.wide) vs).b[l]?.getD 0)

/-- What a compare in order writes: its bits, and the flags of its active lanes. -/
theorem vecCompare_writes {ok : Bool} {f : VR} {cond : DWord → DWord → Bool × BitVec 6} {s : State}
    {vs : List (Nat × LaneVals)} (hok : ok = true) (hm : s.grp.tripOk f.m = true)
    (hd : s.grp.tripOk (f.d.setWidth 6) = true) (hlive : s.grp.liveInTriple (f.d.setWidth 6) = false)
    (hus : (usesOf 2 f f.wide).all s.grp.useOk = true) (hvs : s.readStreams (streamsOf (usesOf 2 f f.wide)) = .ok vs) :
    vecCompare ok f cond s = .next (s.afterVR (usesOf 2 f f.wide) (fun g =>
      (g.setRaw (f.d.setWidth 6) (comparedBits (s.grp.mask f.m) (s.grp.raw (f.d.setWidth 6))
        (fun l => (s.cmpLane f vs cond l).1))).raiseFlags
          ((lanesOf (s.grp.mask f.m)).foldl (fun x l => x ||| (s.cmpLane f vs cond l).2) 0))) := by
  refine (finish_runVR (by simp [hok, hm, hd]) hus hlive hvs).trans (congrArg _ (State.afterVR_congr ?_))
  rw [State.streamed_mask, State.streamed_raw]
  rfl

/-- VICMP raises no flag. -/
theorem execVicmp_writes {f : VR} {s : State} {vs : List (Nat × LaneVals)} (hok : f.okCmp [0] 9 = true)
    (hm : s.grp.tripOk f.m = true) (hd : s.grp.tripOk (f.d.setWidth 6) = true)
    (hlive : s.grp.liveInTriple (f.d.setWidth 6) = false) (hus : (usesOf 2 f f.wide).all s.grp.useOk = true)
    (hvs : s.readStreams (streamsOf (usesOf 2 f f.wide)) = .ok vs) :
    execVicmp f s = .next (s.afterVR (usesOf 2 f f.wide) (fun g =>
      g.setRaw (f.d.setWidth 6) (comparedBits (s.grp.mask f.m) (s.grp.raw (f.d.setWidth 6))
        (fun l => (s.cmpLane f vs (fun a b => (intCond f.x.toNat (loHalf a) (loHalf b), 0)) l).1)))) := by
  rw [execVicmp, vecCompare_writes hok hm hd hlive hus hvs]
  exact congrArg _ (State.afterVR_congr (Group.raiseFlags_none _ _))

/-- The condition of VFCMP on two lanes (R104). -/
def fpCondition (fpcr : Word) (f : VR) (a b : DWord) : Bool × BitVec 6 :=
  fCond (fmtOf f.t) f.x.toNat (flushIn fpcr (fmtOf f.t) (if f.wide then a.toNat else (loHalf a).toNat))
    (flushIn fpcr (fmtOf f.t) (if f.wide then b.toNat else (loHalf b).toNat))

theorem execVfcmp_eq (f : VR) (s : State) :
    execVfcmp f s = vecCompare (f.okCmp [3, 6] 7) f (fpCondition s.grp.fpcr f) s := rfl

end Sys2Proof.Machine

open Sys2Proof Sys2Proof.Machine

/-- Settles O15: both compares write the bits of one test, VICMP's raising no flag. -/
theorem vectorCompares : Obligations.VectorCompares := by
  unfold Obligations.VectorCompares
  intro s f vs hm hd hlive hus hvs
  refine ⟨fun hok => ?vicmp, fun hok => ?vfcmp⟩
  case vicmp => exact ⟨_, execVicmp_writes hok hm hd hlive hus hvs, fun l hl => getLsbD_comparedBits hl⟩
  case vfcmp =>
    refine ⟨_, _, (execVfcmp_eq f s).trans (vecCompare_writes hok hm hd hlive hus hvs), fun l hl => ?_⟩
    exact getLsbD_comparedBits hl
end

section
/-! PROOFS. The floating-point vector instructions and the special functions (05_vector.md R105, R106). -/

namespace Sys2Proof.Machine

open Sys2Proof

/-- What a floating-point instruction in order writes: its computation on the elements of each lane, under the group's FPCR. -/
theorem vecFp_writes {ok : Bool} {f : VR} {us : List Use} {op : Word → Fmt → Nat → Nat → Nat → FRes} {s : State}
    {vs : List (Nat × LaneVals)} (hok : ok = true) (hs : s.vrReady f us f.wide vs) :
    vecFp ok f us op s = .next (s.afterLanes f us f.wide (fun l =>
      fpLane f.t (op s.grp.fpcr (fmtOf f.t)) ((s.opnds f.t us vs).a[l]?.getD 0) ((s.opnds f.t us vs).b[l]?.getD 0)
        ((s.opnds f.t us vs).c[l]?.getD 0))) := by
  refine (finish_runVR_ready hok hs).trans (congrArg _ (State.afterVR_congr ?_))
  rw [State.streamed_fpcr]

/-- The instructions of R105 on two flushed elements. -/
theorem vecFpOps2_form : ∀ p ∈ vecFpOps2, ∀ f s, exec (p.1 f) s =
    vecFp (p.1 f).wf f (usesOf 2 f f.wide)
      (fun fpcr t a b _ => p.2 fpcr t (rmMode f fpcr) (flushIn fpcr t a) (flushIn fpcr t b)) s := by
  simp only [vecFpOps2, List.forall_mem_cons]
  exact ⟨fun _ _ => rfl, fun _ _ => rfl, fun _ _ => rfl, fun _ _ => rfl, fun _ _ => rfl, fun _ _ => rfl, fun _ _ => rfl,
    fun _ _ => rfl, by simp⟩

/-- The instructions of R105 on elements as stored. -/
theorem vecFpBits_form : ∀ p ∈ vecFpBits, ∀ f s, exec (p.1 f) s =
    vecFp (p.1 f).wf f (usesOf p.2.1 f f.wide) (fun _ t a b _ => ⟨p.2.2 t a b, 0⟩) s := by
  simp only [vecFpBits, List.forall_mem_cons]
  exact ⟨fun _ _ => rfl, fun _ _ => rfl, fun _ _ => rfl, fun _ _ => rfl, by simp⟩

/-- The fused multiply-adds of R105. -/
theorem vecFma_form (minus : Bool) (f : VR) (s : State) : exec (if minus then .vfnma f else .vfma f) s =
    vecFp (f.okFp true true true) f (usesOf 3 f f.wide) (fun fpcr t a b c =>
      fMa fpcr t (rmMode f fpcr) minus (flushIn fpcr t a) (flushIn fpcr t b) (flushIn fpcr t c)) s := by
  cases minus <;> rfl

theorem vfrnd_form (f : VR) (s : State) : exec (.vfrnd f) s =
    vecFp f.okRnd f (usesOf 1 f f.wide) (fun fpcr t a _ _ =>
      fIntegral t (rndOf fpcr f.rm (.ofBits (f.x.extractLsb' 0 2))) (flushIn fpcr t a)) s := rfl

theorem vfsqrt_form (f : VR) (s : State) : exec (.vfsqrt f) s =
    vecFp (f.okFp true false false) f (usesOf 1 f f.wide) (fun fpcr t a _ _ =>
      fSqrt fpcr t (rmMode f fpcr) (flushIn fpcr t a)) s := rfl

/-- The special functions of R106. -/
theorem vecSpecials_form : ∀ p ∈ vecSpecials, ∀ f s, exec (p.1 f) s =
    vecFp f.okSpecial f (usesOf 1 f false) (fun fpcr _ a _ _ => fSpecial fpcr p.2 a) s := by
  simp only [vecSpecials, List.forall_mem_cons]
  exact ⟨fun _ _ => rfl, fun _ _ => rfl, fun _ _ => rfl, fun _ _ => rfl, fun _ _ => rfl, fun _ _ => rfl, fun _ _ => rfl,
    by simp⟩

end Sys2Proof.Machine

open Sys2Proof Sys2Proof.Machine

/-- Settles O16: every row is one computation on elements, of as many operands as it names. -/
theorem vectorFloatComplete : Obligations.VectorFloatComplete := by
  unfold Obligations.VectorFloatComplete
  refine ⟨?binary, ?bits, ?fused, fun s f vs hs => ⟨?round, ?root⟩, ?special⟩
  case binary =>
    intro p hp s f vs hwf hs
    exact (vecFpOps2_form p hp f s).trans (vecFp_writes hwf hs)
  case bits =>
    intro p hp s f vs hwf hs
    exact (vecFpBits_form p hp f s).trans (vecFp_writes hwf hs)
  case fused =>
    intro s f vs minus hok hs
    exact (vecFma_form minus f s).trans (vecFp_writes hok hs)
  case round => exact fun hok => (vfrnd_form f s).trans (vecFp_writes hok hs)
  case root => exact fun hok => (vfsqrt_form f s).trans (vecFp_writes hok hs)
  case special =>
    intro p hp s f vs hok hs
    exact (vecSpecials_form p hp f s).trans (vecFp_writes hok hs)
end

section
/-! PROOFS. The lane instructions (05_vector.md R107). -/

namespace Sys2Proof.Machine

open Sys2Proof

/-- What a move of lanes in order writes. -/
theorem vecMove_writes {ok : Bool} {f : VR} {us : List Use} {m : Group → LaneSet} {val : Group → Opnds → Nat → DWord}
    {s : State} {vs : List (Nat × LaneVals)} (hok : ok = true) (hs : s.vrReady f us f.wide vs) :
    vecMove ok f us m val s = .next (s.afterVR us (fun g => g.writeLanes f.d.toNat f.wide (m g) (fun l =>
      ⟨val (s.streamed us) (s.opnds f.t us vs) l, 0⟩))) :=
  (finish_runVR_ready hok hs).trans (congrArg _ (State.afterVR_congr rfl))

theorem execVget_writes {f : VR} {s : State} {vs : List (Nat × LaneVals)} (hok : f.okGet = true)
    (hd : s.grp.scalOk (f.d.setWidth 6) = true) (hlive : s.grp.liveIn (f.d.setWidth 6) = false)
    (hus : (usesOf 2 f false).all s.grp.useOk = true) (hvs : s.readStreams (streamsOf (usesOf 2 f false)) = .ok vs) :
    execVget f s = .next (s.afterVR (usesOf 2 f false) (fun g => g.ws (f.d.setWidth 6)
      (loHalf (s.grp.pickLane (s.opnds f.t (usesOf 2 f false) vs).a
        ((s.opnds f.t (usesOf 2 f false) vs).b.word 0).toNat)))) := by
  refine (finish_runVR (by simp [hok, hd]) hus hlive hvs).trans (congrArg _ (State.afterVR_congr ?_))
  rw [State.streamed_pickLane]

/-- A write of no lane changes nothing. -/
theorem Group.wvm_zero (g : Group) (n : Nat) (x : Lanes) : g.wvm n 0 x = g := by
  have hmerge : mergeLanes 0 (g.rv n) x = g.rv n := by
    refine Vector.ext fun l hl => ?_
    simp [mergeLanes_get _ _ _ _ hl]
  rw [Group.wvm, hmerge, Group.wv, Group.rv]
  cases g.phys n with
  | none => rfl
  | some p =>
    have hsame : g.vreg.setIfInBounds p (g.physLanes p) = g.vreg := by
      refine Vector.ext fun i hi => ?_
      rw [Vector.getElem_setIfInBounds hi]
      split
      · next hp =>
        subst hp
        rw [Group.physLanes, Vector.getElem?_eq_getElem hi, Option.getD_some]
      · rfl
    simp only [hsame]

/-- The lane that VPUT writes, if it is a live one (R107). -/
def putLanes (live : LaneSet) (i : Nat) : LaneSet := if live.getLsbD i then BitVec.ofNat 96 (2 ^ i) else 0

theorem getLsbD_putLanes {live : LaneSet} {i l : Nat} (hl : l < 96) :
    (putLanes live i).getLsbD l = true ↔ live.getLsbD l = true ∧ l = i := by
  rw [putLanes]
  split
  · next hlive =>
    rw [BitVec.getLsbD_ofNat, decide_eq_true hl, Bool.true_and, Nat.testBit_two_pow, decide_eq_true_iff]
    exact ⟨fun h => ⟨h ▸ hlive, h.symm⟩, fun h => h.2.symm⟩
  · next hdead =>
    refine iff_of_false (by simp) ?_
    rintro ⟨hlive, rfl⟩
    exact hdead hlive

theorem execVput_writes {f : VR} {s : State} {vs : List (Nat × LaneVals)} (hok : f.okPut = true)
    (hd : s.grp.dstOk f false = true) (hlive : s.grp.dstLive f false = false)
    (hus : (usesOf 2 f false).all s.grp.useOk = true) (hvs : s.readStreams (streamsOf (usesOf 2 f false)) = .ok vs) :
    execVput f s = .next (s.afterVR (usesOf 2 f false) (fun g => g.wvm f.d.toNat
      (putLanes s.grp.live ((s.opnds f.t (usesOf 2 f false) vs).b.word 0).toNat)
      (Vector.replicate 96 ((s.opnds f.t (usesOf 2 f false) vs).a.word 0)))) := by
  refine (finish_runVR (by simp [hok, hd]) hus hlive hvs).trans (congrArg _ (State.afterVR_congr ?_))
  dsimp only
  rw [State.streamed_live, putLanes]
  split
  · rfl
  · rw [Group.wvm_zero]

end Sys2Proof.Machine

open Sys2Proof Sys2Proof.Machine

/-- Settles O18: four moves of lanes, and the reading and the writing of one lane. -/
theorem laneInstructionsComplete : Obligations.LaneInstructionsComplete := by
  unfold Obligations.LaneInstructionsComplete
  intro s f vs
  refine ⟨fun hok hs => ?vmov, fun hok hs => ?vsel, fun hok hs => ?vbcst, fun hok hs => ?vidx, ?vget, ?vput⟩
  case vmov => exact vecMove_writes hok hs
  case vsel =>
    refine (vecMove_writes hok hs).trans ?_
    simp only [State.streamed_mask]
  case vbcst =>
    refine (vecMove_writes hok hs).trans ?_
    simp only [State.streamed_pickLane]
    rfl
  case vidx => exact vecMove_writes hok hs
  case vget => exact execVget_writes
  case vput =>
    exact fun hok hd hlive hus hvs => ⟨_, execVput_writes hok hd hlive hus hvs, fun l hl => getLsbD_putLanes hl⟩
end

section
/-! PROOFS. Signs and NaNs of floating-point elements (05_vector.md R99, R105). -/

namespace Sys2Proof.Machine

open Sys2Proof

/-! ### The sign bit (R105) -/

/-- An element with its sign replaced. -/
def withSign (t : Fmt) (neg : Bool) (a : Nat) : Nat := a % t.signBit + signOf t neg

theorem testBit_withSign (t : Fmt) (neg : Bool) (a : Nat) :
    (∀ k, k < t.width - 1 → (withSign t neg a).testBit k = a.testBit k) ∧
    (withSign t neg a).testBit (t.width - 1) = neg := by
  have hlow : ∀ k, (a % t.signBit).testBit k = (decide (k < t.width - 1) && a.testBit k) := fun k =>
    Nat.testBit_mod_two_pow a (t.width - 1) k
  cases neg with
  | false => exact ⟨fun k hk => by simp [withSign, signOf, hlow, hk], by simp [withSign, signOf, hlow]⟩
  | true =>
    have hsum : withSign t true a = 2 ^ (t.width - 1) + a % t.signBit := Nat.add_comm _ _
    rw [hsum]
    exact ⟨fun k hk => by rw [Nat.testBit_two_pow_add_gt hk, hlow, decide_eq_true hk, Bool.true_and],
      by rw [Nat.testBit_two_pow_add_eq, hlow, decide_eq_false (Nat.lt_irrefl _)]; rfl⟩

theorem Fmt.two_pow_width (t : Fmt) : 2 ^ t.width = 2 * t.signBit := by
  cases t <;> rfl

/-- An element's sign bit is set from the sign bit's weight on. -/
theorem testBit_sign {t : Fmt} {a : Nat} (ha : a < 2 ^ t.width) :
    a.testBit (t.width - 1) = decide (t.signBit ≤ a) := by
  rw [t.two_pow_width] at ha
  rcases Nat.lt_or_ge a t.signBit with h | h
  · rw [decide_eq_false (Nat.not_le.2 h)]
    exact Nat.testBit_lt_two_pow h
  · rw [decide_eq_true h, ← Nat.add_sub_cancel' h]
    exact (Nat.testBit_two_pow_add_eq _ _).trans (by rw [Nat.testBit_lt_two_pow (show _ < t.signBit by omega)]; rfl)

theorem fAbs_eq_withSign (t : Fmt) (a : Nat) : fAbs t a = withSign t false a := rfl

theorem fCps_eq_withSign {t : Fmt} {a b : Nat} (hb : b < 2 ^ t.width) :
    fCps t a b = withSign t (b.testBit (t.width - 1)) a := by
  rw [testBit_sign hb]
  rfl

theorem negate_eq_withSign {t : Fmt} {a : Nat} (ha : a < 2 ^ t.width) :
    negate t a = withSign t (!a.testBit (t.width - 1)) a := by
  rw [testBit_sign ha, negate, withSign, signOf]
  rw [t.two_pow_width] at ha
  split
  · next h =>
    have hrest : a % t.signBit = a - t.signBit := by
      rw [Nat.mod_eq_sub_mod h, Nat.mod_eq_of_lt (by omega)]
    simp [h, hrest]
  · next h => simp [h, Nat.mod_eq_of_lt (Nat.lt_of_not_le h)]

/-! ### The first NaN operand (R99) -/

/-- An element that is a NaN is one with its own bits. -/
theorem fval_of_isNan {t : Fmt} {b : Nat} (h : (fval t b).isNan = true) : fval t b = .nan b (fval t b).isSig := by
  revert h
  simp only [fval]
  split
  · split
    · exact fun h => absurd h Bool.false_ne_true
    · exact fun _ => rfl
  · split <;> exact fun h => absurd h Bool.false_ne_true

theorem FVal.isNan_of_isSig {v : FVal} (h : v.isSig = true) : v.isNan = true := by
  cases v with
  | nan => rfl
  | inf | fin => exact absurd h Bool.false_ne_true

/-- A first operand that is a NaN is returned quieted. -/
theorem firstNan_head {t : Fmt} {a : Nat} (h : (fval t a).isNan = true) (vs : List FVal) :
    ∃ x, firstNan t (fval t a :: vs) = some ⟨quiet t a, x⟩ := by
  rw [fval_of_isNan h]
  exact ⟨_, rfl⟩

/-- A first operand that is no NaN is passed over. -/
theorem firstNan_tail {t : Fmt} {v : FVal} (h : v.isNan = false) (vs : List FVal) :
    firstNan t (v :: vs) = firstNan t vs := by
  have hsig : v.isSig = false := Bool.eq_false_iff.2 fun hs => Bool.false_ne_true (h.symm.trans (FVal.isNan_of_isSig hs))
  rw [firstNan, firstNan, List.find?_cons_of_neg (by simp [h]), List.any_cons, hsig, Bool.false_or]

/-- An operand that signals sets IV. -/
theorem firstNan_signals {t : Fmt} {vs : List FVal} (h : ∃ v ∈ vs, v.isSig = true) :
    ∃ y, firstNan t vs = some ⟨y, flagIV⟩ := by
  have hany : vs.any FVal.isSig = true := List.any_eq_true.2 h
  obtain ⟨v, hv, hs⟩ := h
  obtain ⟨w, hw⟩ := Option.isSome_iff_exists.1 (List.find?_isSome.2 ⟨v, hv, FVal.isNan_of_isSig hs⟩)
  have hnan : w.isNan = true := List.find?_some hw
  rw [firstNan, hw, hany]
  cases w with
  | nan b s => exact ⟨_, rfl⟩
  | inf | fin => exact absurd hnan Bool.false_ne_true

/-! ### The operations on NaNs -/

section
variable {fpcr : Word} {t : Fmt} {m : Rnd} {a b c : Nat} {r : FRes}

theorem fAdd_of_firstNan (h : firstNan t [fval t a, fval t b] = some r) : fAdd fpcr t m a b = r := by
  rw [fAdd, h]

theorem fMul_of_firstNan (h : firstNan t [fval t a, fval t b] = some r) : fMul fpcr t m a b = r := by
  simp only [fMul, h]

theorem fDiv_of_firstNan (h : firstNan t [fval t a, fval t b] = some r) : fDiv fpcr t m a b = r := by
  simp only [fDiv, h]

theorem fMa_bits_of_firstNan (minus : Bool) (h : firstNan t [fval t a, fval t b, fval t c] = some r) :
    (fMa fpcr t m minus a b c).bits = r.bits := by
  simp only [fMa, h]

/-- A fused multiply-add adds to the flags of its NaN operands at most IV. -/
theorem fMa_signals {y : Nat} (minus : Bool) (h : firstNan t [fval t a, fval t b, fval t c] = some ⟨y, flagIV⟩) :
    (fMa fpcr t m minus a b c).flags &&& flagIV = flagIV := by
  have hkeep : ∀ iv, (flagIV ||| flagIf iv flagIV) &&& flagIV = flagIV := by decide
  simp only [fMa, h]
  exact hkeep _

/-- A subtraction is an addition to the second operand, whose sign is inverted where it is no NaN. -/
theorem fSub_of_isNan (h : (fval t b).isNan = true) : fSub fpcr t m a b = fAdd fpcr t m a b := by
  rw [fSub, if_pos h]

theorem fSub_of_not_isNan (h : (fval t b).isNan = false) : fSub fpcr t m a b = fAdd fpcr t m a (negate t b) := by
  rw [fSub, h, if_neg Bool.false_ne_true]

theorem fSub_bits_left (ha : (fval t a).isNan = true) : (fSub fpcr t m a b).bits = quiet t a := by
  cases hb : (fval t b).isNan with
  | true =>
    obtain ⟨x, hx⟩ := firstNan_head ha [fval t b]
    rw [fSub_of_isNan hb, fAdd_of_firstNan hx]
  | false =>
    obtain ⟨x, hx⟩ := firstNan_head ha [fval t (negate t b)]
    rw [fSub_of_not_isNan hb, fAdd_of_firstNan hx]

theorem fSub_signals (h : (fval t a).isSig = true ∨ (fval t b).isSig = true) : (fSub fpcr t m a b).flags = flagIV := by
  cases hb : (fval t b).isNan with
  | true =>
    obtain ⟨y, hy⟩ := firstNan_signals (t := t) (vs := [fval t a, fval t b]) (by simpa using h)
    rw [fSub_of_isNan hb, fAdd_of_firstNan hy]
  | false =>
    have ha : (fval t a).isSig = true := h.resolve_right fun hs =>
      Bool.false_ne_true (hb.symm.trans (FVal.isNan_of_isSig hs))
    obtain ⟨y, hy⟩ := firstNan_signals (t := t) (vs := [fval t a, fval t (negate t b)]) (by simp [ha])
    rw [fSub_of_not_isNan hb, fAdd_of_firstNan hy]

end

end Sys2Proof.Machine

open Sys2Proof Sys2Proof.Machine

/-- Settles O17: the sign instructions replace the sign, and every operation begins with the first NaN of its operands. -/
theorem signsAndNansOfFloats : Obligations.SignsAndNansOfFloats := by
  unfold Obligations.SignsAndNansOfFloats
  refine ⟨fun t a b ha hb => ?signs, fun fpcr t m a b c => ⟨?first, ?second, ?third, ?signals3, ?signals2⟩⟩
  case signs =>
    rw [negate_eq_withSign ha, fAbs_eq_withSign, fCps_eq_withSign hb]
    obtain ⟨hneg, hnegSign⟩ := testBit_withSign t (!a.testBit (t.width - 1)) a
    obtain ⟨habs, habsSign⟩ := testBit_withSign t false a
    obtain ⟨hcps, hcpsSign⟩ := testBit_withSign t (b.testBit (t.width - 1)) a
    exact ⟨fun k hk => ⟨hneg k hk, habs k hk, hcps k hk⟩, hnegSign, habsSign, hcpsSign⟩
  case first =>
    intro ha
    obtain ⟨x, hx⟩ := firstNan_head ha [fval t b]
    obtain ⟨x3, hx3⟩ := firstNan_head ha [fval t b, fval t c]
    refine ⟨by rw [fAdd_of_firstNan hx], fSub_bits_left ha, by rw [fMul_of_firstNan hx], by rw [fDiv_of_firstNan hx],
      fun minus => fMa_bits_of_firstNan minus hx3⟩
  case second =>
    intro ha hb
    obtain ⟨x, hx⟩ := firstNan_head hb []
    obtain ⟨x3, hx3⟩ := firstNan_head hb [fval t c]
    rw [← firstNan_tail ha] at hx hx3
    refine ⟨by rw [fAdd_of_firstNan hx], by rw [fSub_of_isNan hb, fAdd_of_firstNan hx], by rw [fMul_of_firstNan hx],
      by rw [fDiv_of_firstNan hx], fun minus => fMa_bits_of_firstNan minus hx3⟩
  case third =>
    intro ha hb hc minus
    obtain ⟨x, hx⟩ := firstNan_head hc []
    rw [← firstNan_tail hb, ← firstNan_tail ha] at hx
    exact fMa_bits_of_firstNan minus hx
  case signals3 =>
    intro h minus
    obtain ⟨y, hy⟩ := firstNan_signals (t := t) (vs := [fval t a, fval t b, fval t c]) (by simpa using h)
    exact fMa_signals minus hy
  case signals2 =>
    intro h
    obtain ⟨y, hy⟩ := firstNan_signals (t := t) (vs := [fval t a, fval t b]) (by simpa using h)
    rw [fAdd_of_firstNan hy, fSub_signals h, fMul_of_firstNan hy, fDiv_of_firstNan hy]
    exact ⟨BitVec.and_self, BitVec.and_self, BitVec.and_self, BitVec.and_self⟩
end

section
/-! SUPPORT. The conversion instructions (06_narrow_formats.md R119 to R125): what one writes once its checks pass, and the bytes of
a word. -/

namespace Sys2Proof.Machine

open Sys2Proof

/-- What a conversion in order writes: its computation on the operands of each lane, under the group's FPCR. -/
theorem vecConv_writes {ok fmt wide : Bool} {f : VR} {us : List Use} {op : Word → Opnds → Nat → LaneRes} {s : State}
    {vs : List (Nat × LaneVals)} (hok : ok = true) (hfmt : fmt = true) (hs : s.vrReady f us wide vs) :
    vecConv ok fmt f us wide op s = .next (s.afterLanes f us wide (op s.grp.fpcr (s.opnds f.t us vs))) := by
  subst hfmt
  refine (finish_runVR_ready hok hs).trans (congrArg _ (State.afterVR_congr ?_))
  rw [State.streamed_fpcr]

@[simp] theorem State.streamed_gen (s : State) (us : List Use) : (s.streamed us).gen = s.grp.gen := by
  obtain ⟨n, bytes, h⟩ := s.streamed_eq us
  rw [h]
  rfl

@[simp] theorem State.streamed_rvl (s : State) (us : List Use) (n l : Nat) : (s.streamed us).rvl n l = s.grp.rvl n l := by
  obtain ⟨k, bytes, h⟩ := s.streamed_eq us
  rw [h]
  rfl

/-! ### Bytes of a word (R125) -/

theorem elem_eq_extractLsb' (e : Nat) (x : Word) (k : Nat) : elem e x k = (x.extractLsb' (e * k) e).toNat := by
  rw [BitVec.extractLsb'_toNat, Nat.shiftRight_eq_div_pow, elem]

/-- Elements are equal where their bits are. -/
theorem elem_congr {e k j : Nat} {x y : Word} (h : ∀ i, i < e → x.getLsbD (e * k + i) = y.getLsbD (e * j + i)) :
    elem e x k = elem e y j := by
  rw [elem_eq_extractLsb', elem_eq_extractLsb']
  refine congrArg _ (BitVec.eq_of_getLsbD_eq fun i hi => ?_)
  rw [BitVec.getLsbD_extractLsb', BitVec.getLsbD_extractLsb', h i hi]

/-- A word shifted right by one byte, with the low byte of another on top: what VPK8 writes. -/
def packByte (old a : Word) : Word := (old >>> 8) ||| ((a &&& 0xFF) <<< 24)

theorem getLsbD_packByte (old a : Word) (i : Nat) :
    (packByte old a).getLsbD i = (old.getLsbD (8 + i) || (decide (24 ≤ i) && decide (i < 32) && a.getLsbD (i - 24))) := by
  have hlow : ∀ k, (0xFF : Word).getLsbD k = decide (k < 8) := fun k => by
    rw [show (0xFF : Word) = BitVec.ofNat 32 (2 ^ 8 - 1) from rfl, BitVec.getLsbD_ofNat, Nat.testBit_two_pow_sub_one]
    simp only [Bool.and_eq_right_iff_imp, decide_eq_true_eq]
    omega
  rw [packByte, BitVec.getLsbD_or, BitVec.getLsbD_ushiftRight, BitVec.getLsbD_shiftLeft, BitVec.getLsbD_and, hlow]
  by_cases h24 : 24 ≤ i
  · by_cases h32 : i < 32
    · simp [h24, h32, Nat.not_lt.2 h24, show i - 24 < 8 by omega]
    · simp [h32]
  · simp [h24, Nat.lt_of_not_le h24]

theorem elem_packByte_top (old a : Word) : elem 8 (packByte old a) 3 = elem 8 a 0 :=
  elem_congr fun i hi => by
    rw [getLsbD_packByte, BitVec.getLsbD_of_ge old _ (by omega), decide_eq_true (by omega), decide_eq_true (by omega),
      Bool.true_and, Bool.false_or, Bool.true_and]
    congr 1
    omega

theorem elem_packByte_low (old a : Word) {k : Nat} (hk : k < 3) : elem 8 (packByte old a) k = elem 8 old (k + 1) :=
  elem_congr fun i hi => by
    rw [getLsbD_packByte, decide_eq_false (by omega), Bool.false_and, Bool.false_and, Bool.or_false]
    congr 1
    omega

/-- A byte widened to a word, its sign extended or not: what VUPK8 writes. -/
def unpackByte (signed : Bool) (y : BitVec 8) : Word := if signed then y.signExtend 32 else y.setWidth 32

theorem unpackByte_ofNat (signed : Bool) {y : Nat} (hy : y < 256) : unpackByte signed (BitVec.ofNat 8 y) =
    if signed = true ∧ 128 ≤ y then BitVec.ofInt 32 ((y : Int) - 256) else BitVec.ofNat 32 y := by
  have hnat : (BitVec.ofNat 8 y).toNat = y := Nat.mod_eq_of_lt hy
  cases signed with
  | false => rw [unpackByte, if_neg Bool.false_ne_true, if_neg (by simp), ← BitVec.ofNat_toNat, hnat]
  | true =>
    rw [unpackByte, if_pos rfl, BitVec.signExtend, BitVec.toInt_eq_toNat_cond, hnat]
    by_cases h : 128 ≤ y
    · rw [if_neg (by omega), if_pos ⟨rfl, h⟩]
      rfl
    · rw [if_pos (by omega), if_neg (fun hs => h hs.2), BitVec.ofInt_natCast]

end Sys2Proof.Machine
end

section
/-! PROOFS. The conversions, the scalings and the byte packings (06_narrow_formats.md R120 to R125). -/

namespace Sys2Proof.Machine

open Sys2Proof

/-! ### VCVTF (R120) -/

/-- The conversion of one element that VCVTF makes. -/
def cvtfElem (f : VR) (fpcr : Word) (x : Nat) : FRes :=
  fConvert fpcr (fmtOf (f.x.extractLsb' 0 3)) (fmtOf f.t) (rmMode f fpcr) (flushIn fpcr (fmtOf (f.x.extractLsb' 0 3)) x)

/-- Two results, the elements 0 and 1 of a lane. -/
def packResults (r0 r1 : FRes) : LaneRes := ⟨BitVec.ofNat 64 (r0.bits + 65536 * r1.bits), r0.flags ||| r1.flags⟩

theorem execVcvtf_packed {f : VR} (h : f.t = 4 ∨ f.t = 5) (s : State) :
    execVcvtf f s = vecConv f.okCvtf true f (usesOf 2 f false) f.wide (fun fpcr o l =>
      packResults (cvtfElem f fpcr (o.a.word l).toNat) (cvtfElem f fpcr (o.b.word l).toNat)) s := by
  have hp : (decide (f.t = 4) || decide (f.t = 5)) = true := by simpa using h
  simp only [execVcvtf, hp, if_true]
  rfl

/-- The element of lane `l` that the rows of one operand convert. -/
def cvtfSource (f : VR) (o : Opnds) (l : Nat) : Nat :=
  if f.x.extractLsb' 0 3 = 6 then (o.a[l]?.getD 0).toNat
  else if fmtOf (f.x.extractLsb' 0 3) = .f32 then (o.a.word l).toNat
  else elem 16 (o.a.word l) (if f.x.getLsbD 3 then 1 else 0)

theorem execVcvtf_single {f : VR} (h : ¬ (f.t = 4 ∨ f.t = 5)) (s : State) :
    execVcvtf f s = vecConv f.okCvtf true f (usesOf 1 f (decide (f.x.extractLsb' 0 3 = 6))) f.wide (fun fpcr o l =>
      (cvtfElem f fpcr (cvtfSource f o l)).lane) s := by
  have hp : (decide (f.t = 4) || decide (f.t = 5)) = false := by simpa using h
  have hone : ∀ (fpcr : Word) (o : Opnds) (l : Nat), (cvtfElem f fpcr (cvtfSource f o l)).lane =
      if decide (f.x.extractLsb' 0 3 = 6) = true then (cvtfElem f fpcr (o.a[l]?.getD 0).toNat).lane
      else if fmtOf (f.x.extractLsb' 0 3) = .f32 then (cvtfElem f fpcr (o.a.word l).toNat).lane
      else (cvtfElem f fpcr (elem 16 (o.a.word l) (if f.x.getLsbD 3 then 1 else 0))).lane := by
    intro fpcr o l
    simp only [cvtfSource, decide_eq_true_eq, apply_ite (cvtfElem f fpcr), apply_ite FRes.lane]
  simp only [execVcvtf, hp, hone, Bool.false_eq_true, if_false]
  rfl

/-- A type that a row does not list is refused by that row. -/
theorem VR.opsOk_of_other_type {f : VR} {types : List Nat} {a b c : OpUse} (h : types.contains f.t.toNat = false) :
    f.opsOk types a b c = false := by
  simp only [VR.opsOk, h, Bool.false_and]

/-- The rows that pack two elements convert from FP32. -/
theorem VR.source_of_okCvtf_packed {f : VR} (hok : f.okCvtf = true) (h : f.t = 4 ∨ f.t = 5) :
    f.x.extractLsb' 0 3 = 3 := by
  have hnot6 : ([6] : List Nat).contains f.t.toNat = false := by rcases h with h | h <;> rw [h] <;> rfl
  have hnot3 : ([3] : List Nat).contains f.t.toNat = false := by rcases h with h | h <;> rw [h] <;> rfl
  simp only [VR.okCvtf, VR.opsOk_of_other_type hnot6, VR.opsOk_of_other_type hnot3, Bool.false_and, Bool.false_or,
    Bool.or_false, Bool.and_eq_true, decide_eq_true_eq] at hok
  obtain ⟨-, ⟨⟨-, hsource⟩, -⟩, -⟩ := hok
  exact BitVec.eq_of_toNat_eq hsource

/-! ### VF2I and VI2F, VEXT8, and VSCALE (R121, R123, R124) -/

/-- The integer that VF2I makes of an element, and its flags. -/
def f2iElem (f : VR) (fpcr : Word) (x : Nat) : Int × Flags :=
  fToInt (fmtOf f.t) (rmMode f fpcr) (if f.x.getLsbD 0 then 0 else -(2 ^ 31))
    (if f.x.getLsbD 0 then 2 ^ 32 - 1 else 2 ^ 31 - 1) (flushIn fpcr (fmtOf f.t) x)

theorem execVf2i_eq (f : VR) (s : State) : execVf2i f s =
    vecConv (f.okF2i true) true f (usesOf 1 f f.wide) false (fun fpcr o l =>
      let r := f2iElem f fpcr (if f.wide then (o.a[l]?.getD 0).toNat else (o.a.word l).toNat)
      ⟨(BitVec.ofInt 32 r.1).setWidth 64, r.2⟩) s := rfl

theorem execVi2f_eq (f : VR) (s : State) : execVi2f f s =
    vecConv (f.okF2i false) true f (usesOf 1 f false) f.wide (fun fpcr o l =>
      (roundFlush fpcr (fmtOf f.t) (rmMode f fpcr)
        (Exact.ofInt (if f.x.getLsbD 0 then ((o.a.word l).toNat : Int) else (o.a.word l).toInt) 0)).lane) s := rfl

theorem execVext8_eq (f : VR) (s : State) : execVext8 f s =
    vecConv f.okExt8 (recOk f.x) f (usesOf 1 f false) false (fun fpcr o l =>
      (ext8 fpcr (Rec8.ofBits f.x) (elem 8 (o.a.word l) 0)).lane) s := rfl

theorem execVscale_eq (f : VR) (s : State) : execVscale f s =
    vecConv (f.okScale 0) true f (usesOf 2 f false) false (fun fpcr o l =>
      (fScale fpcr .f32 (rmMode f fpcr) (flushIn fpcr .f32 (o.a.word l).toNat) (o.b.word l).toInt).lane) s := rfl

/-! ### VBSCL and the packings (R124, R125) -/

theorem execVpk8_eq (f : VR) (s : State) : execVpk8 f s =
    vecMove (f.okPack 0) f (usesOf 1 f false) (fun g => g.mask f.m)
      (fun g o l => (packByte (g.rvl f.d.toNat l) (o.a.word l)).setWidth 64) s := rfl

theorem execVupk8_eq (f : VR) (s : State) : execVupk8 f s =
    vecMove (f.okPack 7) f (usesOf 1 f false) (fun g => g.mask f.m) (fun _ o l =>
      (unpackByte (f.x.getLsbD 2) (BitVec.ofNat 8 (elem 8 (o.a.word l) (f.x.extractLsb' 0 2).toNat))).setWidth 64) s := rfl

/-- Lane `l` that VBSCL writes where it scales: by the scale byte, or by its inverse (R113, R124). -/
def scaledLane (f : VR) (fpcr : Word) (o : Opnds) (l : Nat) : LaneRes :=
  if elem 8 (o.b.word l) 0 = 0xFF then (⟨Fmt.f32.canon, flagSN ||| flagIV⟩ : FRes).lane
  else (fScale fpcr .f32 (rmMode f fpcr) (flushIn fpcr .f32 (o.a.word l).toNat)
    ((if f.x = 0 then (elem 8 (o.b.word l) 0 : Int) else 254 - elem 8 (o.b.word l) 0) - 127)).lane

theorem execVbscl_eq (f : VR) (s : State) : execVbscl f s =
    vecConv (f.okScale 2) true f (usesOf 2 f false) false (fun fpcr o l =>
      if f.x = 2 then (deriveScale fpcr (o.a.word l) (o.b.word l)).lane else scaledLane f fpcr o l) s := rfl

theorem scaledLane_nan {f : VR} {fpcr : Word} {o : Opnds} {l : Nat} (h : elem 8 (o.b.word l) 0 = 0xFF) :
    loHalf (scaledLane f fpcr o l).val = 0x7FC00000 := by
  rw [scaledLane, if_pos h]
  decide

theorem scaledLane_scales {f : VR} {fpcr : Word} {o : Opnds} {l : Nat} (h : elem 8 (o.b.word l) 0 ≠ 0xFF) :
    scaledLane f fpcr o l = (fScale fpcr .f32 (rmMode f fpcr) (flushIn fpcr .f32 (o.a.word l).toNat)
      (if f.x = 0 then (elem 8 (o.b.word l) 0 : Int) - 127 else 127 - elem 8 (o.b.word l) 0)).lane := by
  rw [scaledLane, if_neg h]
  congr 2
  split <;> omega

end Sys2Proof.Machine

open Sys2Proof Sys2Proof.Machine

/-- Settles O19: each instruction is one computation on the lanes of its operands. -/
theorem conversionsComplete : Obligations.ConversionsComplete := by
  unfold Obligations.ConversionsComplete
  intro s f vs
  refine ⟨?vcvtf, fun hok hs => ?vf2i, fun hok hs => ?vi2f, fun hok hrec hs => ?vext8, fun hok hs => ?vscale,
    fun hok hs => ?vbscl, fun hok hs => ?vpk8, fun hok hs => ?vupk8⟩
  case vcvtf =>
    rintro hok us rfl
    by_cases hp : f.t = 4 ∨ f.t = 5
    · rw [if_pos hp]
      intro hs
      have hnot3 : f.t ≠ 3 := by rcases hp with h | h <;> rw [h] <;> decide
      have hnot6 : f.t ≠ 6 := by rcases hp with h | h <;> rw [h] <;> decide
      refine ⟨_, (execVcvtf_packed hp s).trans (vecConv_writes hok rfl hs), fun l _ =>
        ⟨fun ht => absurd ht hnot3, fun ht => absurd ht hnot6, fun _ => ?_, fun _ ht => absurd ht hnot3⟩⟩
      simp only [packResults, cvtfElem, VR.source_of_okCvtf_packed hok hp]
      rfl
    · rw [if_neg hp]
      intro hs
      refine ⟨_, (execVcvtf_single hp s).trans (vecConv_writes hok rfl hs), fun l _ =>
        ⟨fun ht hx => ?_, fun ht hx => ?_, fun ht => absurd ht hp, fun u ht hu => ?_⟩⟩
      · simp only [cvtfElem, cvtfSource, ht, hx]
        rfl
      · simp only [cvtfElem, cvtfSource, ht, hx]
        rfl
      · rcases hu with ⟨hx, rfl⟩ | ⟨-, hx, rfl⟩
        all_goals
          simp only [cvtfElem, cvtfSource, ht, hx]
          rfl
  case vf2i =>
    refine ⟨_, (execVf2i_eq f s).trans (vecConv_writes hok rfl hs), fun l _ => ?_⟩
    exact loHalf_setWidth (BitVec.ofInt 32 (f2iElem f s.grp.fpcr _).1)
  case vi2f => exact (execVi2f_eq f s).trans (vecConv_writes hok rfl hs)
  case vext8 => exact (execVext8_eq f s).trans (vecConv_writes hok hrec hs)
  case vscale => exact (execVscale_eq f s).trans (vecConv_writes hok rfl hs)
  case vbscl =>
    refine ⟨_, (execVbscl_eq f s).trans (vecConv_writes hok rfl hs), fun hx l _ he => ?_, fun hx l _ e he hne => ?_,
      fun hx l _ => if_pos hx⟩
    · rw [if_neg hx, scaledLane_nan he]
    · subst he
      rw [if_neg hx, scaledLane_scales hne]
  case vpk8 =>
    refine ⟨_, (execVpk8_eq f s).trans (vecMove_writes hok hs), fun l _ => ?_⟩
    rw [loHalf_setWidth, State.streamed_rvl]
    exact ⟨elem_packByte_top _ _, fun k => elem_packByte_low _ _⟩
  case vupk8 =>
    refine ⟨_, (execVupk8_eq f s).trans (vecMove_writes hok hs), fun l _ y hy => ?_⟩
    rw [loHalf_setWidth, ← hy, unpackByte_ofNat _ (hy ▸ elem_lt 8 _ _)]
end

section
/-! PROOFS. The lane generators: VRNGS, VRNG and VCVT8 (06_narrow_formats.md R117, R122, R126). -/

namespace Sys2Proof.Machine

open Sys2Proof

/-- A write of lanes depends on no lane outside the set. -/
theorem Group.wvm_mergeLanes (g : Group) (n : Nat) (m : LaneSet) (old new : Lanes) :
    g.wvm n m (mergeLanes m old new) = g.wvm n m new := by
  rw [Group.wvm, Group.wvm]
  refine congrArg _ (Vector.ext fun l hl => ?_)
  simp only [mergeLanes_get _ _ _ _ hl]
  split <;> rfl

theorem Group.writeLanes_congr {g : Group} {d : Nat} {wide : Bool} {m : LaneSet} {r r' : Nat → LaneRes}
    (h : ∀ l, l < 96 → m.getLsbD l = true → r l = r' l) : g.writeLanes d wide m r = g.writeLanes d wide m r' := by
  have heq : (fun l : Fin 96 => if m.getLsbD l.val then r l.val else ⟨0, 0⟩) =
      fun l : Fin 96 => if m.getLsbD l.val then r' l.val else ⟨0, 0⟩ :=
    funext fun l => ite_congr rfl (h l.val l.isLt) fun _ => rfl
  rw [Group.writeLanes, heq, Group.writeLanes]

/-- An active lane holds its draw afterwards. -/
theorem Group.draw_gen_get {g : Group} {m : LaneSet} {l : Nat} (hl : l < 96) (hm : m.getLsbD l = true) :
    (g.draw m).gen[l]?.getD 0 = drawNext (g.gen[l]?.getD 0) := by
  rw [Group.draw, Vector.getElem?_eq_getElem hl, Vector.getElem?_eq_getElem hl, Option.getD_some, Option.getD_some,
    mergeLanes_get _ _ _ _ hl, if_pos hm, Vector.getElem_map]

/-- VRNG writes the draws of the active lanes (R126). -/
theorem execVrng_writes {f : VR} {s : State} {vs : List (Nat × LaneVals)} (hok : f.okRng = true)
    (hs : s.vrReady f [] false vs) :
    execVrng f s = .next (s.after 1 (fun g =>
      (g.draw (g.mask f.m)).wvm f.d.toNat (g.mask f.m) (g.gen.map drawNext))) :=
  (finish_runVR_ready hok hs).trans (congrArg _ (State.after_congr (Group.wvm_mergeLanes _ _ _ _ _)))

/-! ### Seeds (R126) -/

/-- The seed of lane `l` from its operand: never zero. -/
def seedOf (a : Word) (l : Nat) : Word :=
  if a ^^^ BitVec.ofNat 32 (l * 0x10001) = 0 then 1 else a ^^^ BitVec.ofNat 32 (l * 0x10001)

theorem seedOf_ne_zero (a : Word) (l : Nat) : seedOf a l ≠ 0 := by
  unfold seedOf
  split
  · decide
  · assumption

theorem seedOf_of_ne {a : Word} {l : Nat} (h : a ≠ BitVec.ofNat 32 (l * 0x10001)) :
    seedOf a l = a ^^^ BitVec.ofNat 32 (l * 0x10001) :=
  if_neg fun h0 => h (BitVec.xor_eq_zero_iff.1 h0)

/-- VRNGS seeds the generators of the active lanes and leaves the others (R126). -/
theorem execVrngs_writes {f : VR} {s : State} {vs : List (Nat × LaneVals)} (hok : f.okRngs = true)
    (hm : s.grp.tripOk f.m = true) (hus : (usesOf 1 f false).all s.grp.useOk = true)
    (hvs : s.readStreams (streamsOf (usesOf 1 f false)) = .ok vs) :
    execVrngs f s = .next (s.afterVR (usesOf 1 f false) (fun g => { g with
      gen := mergeLanes (s.grp.mask f.m) s.grp.gen
        (Vector.ofFn fun l => seedOf ((s.opnds f.t (usesOf 1 f false) vs).a.word l.val) l.val) })) := by
  refine (finish_runVR (by simp [hok, hm]) hus rfl hvs).trans (congrArg _ (State.afterVR_congr ?_))
  rw [State.streamed_mask, State.streamed_gen]
  rfl

/-! ### VCVT8 (R122) -/

/-- Lane `l` that VCVT8 writes: rounded with the lane's draw, or in the word's mode. -/
def cvt8Lane (f : VR) (g : Group) (o : Opnds) (l : Nat) : LaneRes :=
  (cvt8 (Rec8.ofBits f.x) (if f.rm = 3 then .stoch (drawNext (g.gen[l]?.getD 0)) else .mode (rmMode f g.fpcr)) f.sat
    (flushIn g.fpcr .f32 (o.a.word l).toNat)).lane

theorem execVcvt8_writes {f : VR} {s : State} {vs : List (Nat × LaneVals)} (hok : f.okCvt8 = true)
    (hrec : recOk f.x = true) (hs : s.vrReady f (usesOf 1 f false) false vs) :
    execVcvt8 f s = .next (s.afterVR (usesOf 1 f false) (fun g =>
      (if f.rm = 3 then g.draw (g.mask f.m) else g).writeLanes f.d.toNat false (g.mask f.m)
        (cvt8Lane f s.grp (s.opnds f.t (usesOf 1 f false) vs)))) := by
  rw [execVcvt8, hrec]
  refine (finish_runVR_ready hok hs).trans (congrArg _ (State.afterVR_congr (Group.writeLanes_congr fun l hl hm => ?_)))
  rw [cvt8Lane, ← State.streamed_gen s (usesOf 1 f false), ← State.streamed_fpcr s (usesOf 1 f false)]
  by_cases hrm : f.rm = 3
  · simp only [if_pos hrm, Group.draw_gen_get hl hm]
  · simp only [if_neg hrm]

end Sys2Proof.Machine

open Sys2Proof Sys2Proof.Machine

/-- Settles O20: the three instructions touch the generators of the active lanes alone, by a seed or by one draw. -/
theorem generatorInstructions : Obligations.GeneratorInstructions := by
  unfold Obligations.GeneratorInstructions
  intro s f vs
  refine ⟨fun hok hm hus hvs => ?vrngs, execVrng_writes, fun hok hrec hs => ?vcvt8⟩
  case vrngs =>
    refine ⟨_, execVrngs_writes hok hm hus hvs, fun l hl => ?_⟩
    rw [mergeLanes_get _ _ _ _ hl, Vector.getElem_ofFn]
    refine ⟨fun hoff => by rw [hoff, if_neg Bool.false_ne_true], fun hon => ?_⟩
    rw [if_pos hon]
    exact ⟨seedOf_ne_zero _ _, seedOf_of_ne⟩
  case vcvt8 => exact ⟨_, execVcvt8_writes hok hrec hs, fun l _ _ => rfl⟩
end

section
/-! PROOFS. The checks of an access that passes them (07_memory_access.md R133, R140, R141), and the scalar loads (R44, R144). -/

namespace Sys2Proof.Machine

open Sys2Proof

/-! ### The checks of an access that passes them (R141) -/

theorem State.checkAlign_of_aligned {s : State} {n : Nat} {xs : List Access} (h : ∀ x ∈ xs, x.addr.toNat % n = 0) :
    s.checkAlign n xs = .ok () := by
  have hnone : xs.find? (fun x => decide (x.addr.toNat % n ≠ 0)) = none := by simpa using h
  rw [State.checkAlign, hnone]

theorem State.placeEach_of_keys {s : State} {find : Access → Place} {ks : Nat → List Nat} {xs : List Access}
    (h : ∀ x ∈ xs, find x = .keys (ks x.lane)) : s.placeEach find xs = .ok (xs.map (fun x => (x.lane, ks x.lane))) := by
  induction xs with
  | nil => rfl
  | cons x xs ih =>
    have hx : s.settlePlace x (find x) = .ok (ks x.lane) := by rw [h x (by simp)]; rfl
    have hxs := ih (fun y hy => h y (by simp [hy]))
    simp only [State.placeEach, hx, hxs, List.map_cons]

theorem State.placeAll_of_keys {s : State} {space : Nat} {find : Access → Place} {ks : Nat → List Nat} {xs : List Access}
    (h : ∀ x ∈ xs, find x = .keys (ks x.lane)) :
    s.placeAll space find xs = .ok (xs.map (fun x => (x.lane, ks x.lane))) := by
  rw [State.placeAll, State.placeEach_of_keys h]

/-- Aligned accesses whose bytes are there pass the checks of R141. -/
theorem State.accessAll_of_keys {s : State} {space n : Nat} {find : Access → Place} {ks : Nat → List Nat} {xs : List Access}
    (halign : ∀ x ∈ xs, x.addr.toNat % n = 0) (hkeys : ∀ x ∈ xs, find x = .keys (ks x.lane)) :
    s.accessAll space n find xs = .ok (xs.map (fun x => (x.lane, ks x.lane))) := by
  rw [State.accessAll, State.checkAlign_of_aligned halign, ← State.placeAll_of_keys hkeys]

/-- One access whose address is no multiple of its size takes MISALIGN (R141, step 2). -/
theorem State.accessAll_misaligned {s : State} {space n : Nat} {find : Access → Place} {x : Access} (h : x.addr.toNat % n ≠ 0) :
    s.accessAll space n find [x] = .error (.trap (x.trap .misalign) s) := by
  rw [State.accessAll, State.checkAlign, List.find?_cons_of_pos (by simpa using h)]

/-- A load whose bytes of remote windows have all come does not wait. -/
theorem State.awaitRemote_of_there {s : State} {how : ReadAt} {cp : Nat} {ks : List Nat} (h : ∀ k ∈ ks, s.missing how k = false) :
    s.awaitRemote how cp ks = .ok () := by
  have hlack : ks.filter (s.missing how) = [] := List.filter_eq_nil_iff.2 (fun k hk => by simp [h k hk])
  simp [State.awaitRemote, hlack]

/-- The space of a scalar access is fitting: the space of a single group comes from no MDEF (R130, R133). -/
theorem State.fitScalar_of {s : State} {e : Eff} {a : DWord} (h : e.spaceSet = true ∨ e.space ≠ 4) :
    s.fitScalar e a = .ok () := by
  rw [State.fitScalar, if_neg (by simpa [Decidable.imp_iff_not_or] using h)]

theorem State.scalarKeys_of_keys {s : State} {e : Eff} {nd : Need} {a : DWord} {n : Nat} {ks : List Nat}
    (hfit : e.spaceSet = true ∨ e.space ≠ 4) (halign : a.toNat % n = 0) (hkeys : s.place none e.space nd a n = .keys ks) :
    s.scalarKeys e nd a n = .ok ks := by
  have hplace : s.accessAll e.space n (fun x => s.place none e.space nd x.addr n) [⟨0, a⟩] = .ok [(0, ks)] :=
    State.accessAll_of_keys (ks := fun _ => ks) (by simpa using halign) (by simpa using hkeys)
  simp [State.scalarKeys, State.fitScalar_of hfit, hplace]

theorem State.scalarKeys_misaligned {s : State} {e : Eff} {nd : Need} {a : DWord} {n : Nat}
    (hfit : e.spaceSet = true ∨ e.space ≠ 4) (halign : a.toNat % n ≠ 0) :
    s.scalarKeys e nd a n = .error (.trap { cause := .misalign, arg := 0, trapa := some a } s) := by
  rw [State.scalarKeys, State.fitScalar_of hfit, State.accessAll_misaligned (x := ⟨0, a⟩) halign]
  rfl

/-! ### Scalar loads (R44, R144) -/

/-- Nothing of the word or the group forbids SLD. -/
structure Group.SldReady (g : Group) (p : Option Pfx) (f : SM) : Prop where
  word : (Instr.sld p f).wf = true
  names : g.smOk f = true
  live : (if f.sz = 5 then g.liveInPair f.d else g.liveIn f.d) = false

theorem execSld_of_keys {s : State} {p : Option Pfx} {f : SM} {e : Eff} {how : ReadAt} {ks : List Nat} (h : s.grp.SldReady p f)
    (he : e = s.grp.eff p) (hhow : how = readHow (fitLoad e.ord) e.scope e.cp)
    (hkeys : s.scalarKeys e .read (s.grp.smAddr f) (sizeOf f.sz) = .ok ks) (hthere : ∀ k ∈ ks, s.missing how k = false) :
    execSld p f s = .next (((((s.walked e.space [⟨0, s.grp.smAddr f⟩]).sawBeyond s.grp.coreNo how e.cp ks).acquireIf
      (fitLoad e.ord) e.scope).onGrp (fun g => g.putLoad f (s.loadNat how ks))).retire (pfxLen p)) := by
  subst he hhow
  simp only [execSld, h.word, h.names, h.live, Bool.and_self, Bool.not_false, State.need_true, hkeys,
    State.awaitRemote_of_there hthere, Run.ok_bind, Run.pure_eq, finish_ok, settle_done]

theorem execSld_of_trap {s t : State} {p : Option Pfx} {f : SM} {e : Trap} (h : s.grp.SldReady p f)
    (hkeys : s.scalarKeys (s.grp.eff p) .read (s.grp.smAddr f) (sizeOf f.sz) = .error (.trap e t)) :
    execSld p f s = .next (t.takeTrap e) := by
  simp only [execSld, h.word, h.names, h.live, Bool.and_self, Bool.not_false, State.need_true, hkeys,
    Run.ok_bind, Run.error_bind, finish_error, settle_trap]

/-- A number below 2^w, as the signed number of its w bits. -/
theorem toInt_ofNat_of_lt {w y : Nat} (hw : 0 < w) (h : y < 2 ^ w) :
    (BitVec.ofNat w y).toInt = if y < 2 ^ (w - 1) then (y : Int) else y - 2 ^ w := by
  have hpow : 2 ^ w = 2 * 2 ^ (w - 1) := by rw [← Nat.pow_succ']; congr 1; omega
  rw [BitVec.toInt_eq_toNat_cond, BitVec.toNat_ofNat, Nat.mod_eq_of_lt h]
  by_cases hy : y < 2 ^ (w - 1)
  · rw [if_pos hy, if_pos (by omega)]
  · rw [if_neg hy, if_neg (by omega)]; push_cast; rfl

/-- The low half of a number's bits. -/
theorem loHalf_ofNat (y : Nat) : loHalf (BitVec.ofNat 64 y) = BitVec.ofNat 32 y := by
  apply BitVec.eq_of_toNat_eq
  simp [loHalf]

theorem Group.putLoad_single {g : Group} {f : SM} {y : Nat} {x : Word} (hsz : f.sz ≠ 5) (hx : loHalf (extendLoad f.sz y) = x) :
    g.putLoad f y = g.ws f.d x := by
  rw [Group.putLoad, if_neg hsz, hx]

end Sys2Proof.Machine

open Sys2Proof Sys2Proof.Machine

/-- Settles O23: SLD that passes its checks writes what its bytes give, one that is not aligned ends at the check of R141; the
signed forms extend the number that their bytes stand for. -/
theorem scalarLoadResult : Obligations.ScalarLoadResult := by
  unfold Obligations.ScalarLoadResult
  refine ⟨?load, ?extend⟩
  case load =>
    intro s p f e how he hhow hwf hok hlive hfit
    have hready : s.grp.SldReady p f := ⟨hwf, hok, hlive⟩
    refine ⟨fun ks halign hkeys hthere => ?_, fun halign => ?_⟩
    · exact execSld_of_keys hready he hhow (State.scalarKeys_of_keys hfit halign hkeys) hthere
    · subst he
      exact execSld_of_trap hready (State.scalarKeys_misaligned hfit halign)
  case extend =>
    intro g f y
    have hunsigned : f.sz ≠ 1 → f.sz ≠ 3 → f.sz ≠ 5 → g.putLoad f y = g.ws f.d (BitVec.ofNat 32 y) := fun h1 h3 h5 =>
      Group.putLoad_single h5 (by rw [extendLoad, if_neg h1, if_neg h3, loHalf_ofNat])
    refine ⟨fun hsz _ => ?byte, fun hsz hy => ?signedByte, fun hsz _ => ?half, fun hsz hy => ?signedHalf, fun hsz => ?word,
      fun hsz => ?pair⟩
    case byte | half | word => exact hunsigned (by simp [hsz]) (by simp [hsz]) (by simp [hsz])
    case signedByte =>
      refine Group.putLoad_single (by simp [hsz]) ?_
      rw [extendLoad, if_pos hsz, loHalf_setWidth, BitVec.signExtend, toInt_ofNat_of_lt (by decide) hy]
    case signedHalf =>
      refine Group.putLoad_single (by simp [hsz]) ?_
      rw [extendLoad, if_neg (by simp [hsz]), if_pos hsz, loHalf_setWidth, BitVec.signExtend,
        toInt_ofNat_of_lt (by decide) hy]
    case pair => rw [Group.putLoad, if_pos hsz]
end

section
/-! PROOFS. The vector loads (07_memory_access.md R145). -/

namespace Sys2Proof.Machine

open Sys2Proof

/-! ### Vector loads (R145) -/

theorem Group.mem_vmAccesses {g : Group} {f : VM} {block : Bool} {space n l : Nat} (hl : l < 96)
    (hm : (g.mask f.m).getLsbD l = true) : ∃ x ∈ g.vmAccesses f block space n, x.lane = l := by
  refine ⟨_, List.mem_map_of_mem (List.mem_filter.2 ⟨List.mem_range.2 hl, hm⟩), rfl⟩

/-- Among the places of accesses, the one of a lane that has one. -/
theorem find?_places {xs : List Access} {ks : Nat → List Nat} {l : Nat} (h : ∃ x ∈ xs, x.lane = l) :
    (xs.map (fun x => (x.lane, ks x.lane))).find? (fun q => decide (q.1 = l)) = some (l, ks l) := by
  induction xs with
  | nil => simp at h
  | cons x xs ih =>
    by_cases hx : x.lane = l
    · simp [hx]
    · rw [List.map_cons, List.find?_cons_of_neg (by simpa using hx)]
      exact ih (by simpa [hx] using h)

theorem State.acquireIf_grp (s : State) (ord scope : Nat) :
    ∃ b, (s.acquireIf ord scope).grp = { s.grp with acqLoad := b } := by
  unfold State.acquireIf
  split
  · exact ⟨s.grp.acqLoad || decide (2 ≤ scope), by
      rw [State.onGrp_grp, State.grp_of_turns (s.acquireAt_turns _ _)]; rfl⟩
  · exact ⟨s.grp.acqLoad, rfl⟩

/-- A load leaves the registers of its group: what it may name, and its masks. -/
theorem State.loaded_mask (s : State) (space : Nat) (xs : List Access) (core : Nat) (how : ReadAt) (cp : Nat) (ks : List Nat)
    (ord scope : Nat) (b : BitVec 6) :
    ((((s.walked space xs).sawBeyond core how cp ks).acquireIf ord scope).grp).mask b = s.grp.mask b := by
  obtain ⟨acq, hacq⟩ := ((s.walked space xs).sawBeyond core how cp ks).acquireIf_grp ord scope
  obtain ⟨n, bytes, hsaw⟩ := (s.walked space xs).sawBeyond_grp core how cp ks
  rw [hacq, hsaw, State.walked_grp]
  rfl

/-- Nothing of the word or the group forbids a vector load. -/
structure Group.VecLoadReady (g : Group) (f : VM) : Prop where
  names : g.vmOk f = true
  data : g.vmDataOk f (decide (f.sz = 5)) = true
  live : g.liveInVec f.v.toNat = false
  liveHigh : f.sz = 5 → g.liveInVec (f.v.toNat + 1) = false

theorem vecLoad_of_keys {s : State} {block : Bool} {p : Option Pfx} {f : VM} {e : Eff} {ord : Nat} {how : ReadAt}
    {xs : List Access} {ks : Nat → List Nat} (h : s.grp.VecLoadReady f) (he : e = s.grp.eff p)
    (hord : ord = if e.space = 4 then 1 else fitLoad e.ord) (hhow : how = readHow ord e.scope e.cp)
    (hxs : xs = s.grp.vmAccesses f block e.space (sizeOf f.sz)) (halign : ∀ x ∈ xs, x.addr.toNat % sizeOf f.sz = 0)
    (hkeys : ∀ x ∈ xs, s.place (some x.lane) e.space .read x.addr (sizeOf f.sz) = .keys (ks x.lane))
    (hthere : ∀ x ∈ xs, ∀ k ∈ ks x.lane, s.missing how k = false) :
    vecLoad true block p f s =
      .next (((((s.walked e.space xs).sawBeyond s.grp.coreNo how e.cp (xs.flatMap (fun x => ks x.lane))).acquireIf ord
        e.scope).onGrp (fun g => g.writeLanes f.v.toNat (decide (f.sz = 5)) (g.mask f.m)
          (fun l => ⟨extendLoad f.sz (s.loadNat how (ks l)), 0⟩))).retire (pfxLen p)) := by
  subst he
  have hlive : (s.grp.liveInVec f.v.toNat || (decide (f.sz = 5) && s.grp.liveInVec (f.v.toNat + 1))) = false := by
    simpa [h.live] using h.liveHigh
  have hplaces := State.accessAll_of_keys (s := s) (space := (s.grp.eff p).space) halign hkeys
  have hflat : (xs.map (fun x => (x.lane, ks x.lane))).flatMap (·.2) = xs.flatMap (fun x => ks x.lane) := by
    rw [List.flatMap_map]
  have hwait : s.awaitRemote how (s.grp.eff p).cp (xs.flatMap (fun x => ks x.lane)) = .ok () :=
    State.awaitRemote_of_there (by simpa using fun k x hx hk => hthere x hx k hk)
  simp only [vecLoad, h.names, h.data, hlive, ← hxs, ← hord, ← hhow, hplaces, hflat, hwait, Bool.and_self, Bool.not_false,
    State.need_true, Run.ok_bind, Run.pure_eq, finish_ok, settle_done]
  refine congrArg _ (State.after_congr (Group.writeLanes_congr fun l hl hm => ?_))
  rw [State.loaded_mask] at hm
  simp only [find?_places (ks := ks) (hxs ▸ s.grp.mem_vmAccesses (block := block) hl hm)]

end Sys2Proof.Machine

open Sys2Proof Sys2Proof.Machine

/-- Settles O24: the lanes of the mask are those that the word accesses, and each finds its own bytes among them. -/
theorem vectorLoadResult : Obligations.VectorLoadResult := by
  unfold Obligations.VectorLoadResult
  intro s p f e ord how block xs ks he hord hhow hwf hnames hdata hlive hhigh hxs halign hkeys hthere
  have hready : s.grp.VecLoadReady f := ⟨hnames, hdata, hlive, hhigh⟩
  have hload := vecLoad_of_keys hready he hord hhow hxs halign hkeys hthere
  cases block with
  | false => exact (congrArg (vecLoad · false p f s) hwf).trans hload
  | true => exact (congrArg (vecLoad · true p f s) hwf).trans hload
end

section
/-! PROOFS. The stream instructions (07_memory_access.md R147 to R150). -/

namespace Sys2Proof.Machine

open Sys2Proof

/-- A record whose bytes are there and aligned is read (R150). -/
theorem State.readRecord_of_keys {s : State} {a : DWord} {ks : List Nat} (halign : a.toNat % 64 = 0)
    (hkeys : s.place none 1 .read a 64 = .keys ks) (hthere : ∀ k ∈ ks, s.missing .l1 k = false) :
    s.readRecord a = .ok ks := by
  have hplace : s.accessAll 1 64 (fun x => s.place none 1 .read x.addr 64) [⟨0, a⟩] = .ok [(0, ks)] :=
    State.accessAll_of_keys (ks := fun _ => ks) (by simpa using halign) (by simpa using hkeys)
  simp [State.readRecord, hplace, State.awaitRemote_of_there hthere]

theorem execZset_of_record {s : State} {f : EX} {ks : List Nat} {z : Stream} (hok : f.okZset = true)
    (ha : s.grp.pairOk f.a = true) (hrec : s.readRecord (s.grp.rp f.a) = .ok ks)
    (hbad : streamBad (ks.map (s.loadByte .l1)) = false) (hz : z = Stream.ofBytes (ks.map (s.loadByte .l1)))
    (halign : z.base.toNat % 2 ^ z.esz.toNat = 0) :
    execZset f s = .next (((s.walked 1 [⟨0, s.grp.rp f.a⟩]).sawBeyond s.grp.coreNo .l1 1 ks).after 1 (fun g =>
      g.setStream (zOf f) z)) := by
  subst hz
  simp only [execZset, hok, ha, hrec, hbad, halign, needAt, Bool.and_self, Bool.not_false, if_true, decide_true, State.need_true, State.chk_ok, Run.ok_bind,
    Run.pure_eq, finish_ok, settle_done, State.after]

/-- The stream of ZSETS: `n` consecutive elements from an address in global space (R150). -/
def Stream.consecutive (base : DWord) (esz : BitVec 2) (n : Word) : Stream :=
  { base := base, esz := esz, space := 1, cp := 1, home := 0,
    stride := Vector.ofFn (fun k => if k.val = 0 then 1 else 0),
    extent := Vector.ofFn (fun k => if k.val = 0 then n else 1), cursor := 0, fin := false }

theorem execZsets_consecutive {s : State} {f : EX} (hok : f.okZsets = true) (ha : s.grp.pairOk f.a = true)
    (hb : s.grp.scalOk f.b = true) :
    execZsets f s = .next (s.after 1 (fun g => g.setStream (zOf f)
      (Stream.consecutive (s.grp.rp f.a) (f.sub.extractLsb' 0 2) (s.grp.rs f.b)))) := by
  simp only [execZsets, hok, ha, hb, Bool.and_self, State.need_true, Run.ok_bind, Run.pure_eq, finish_ok, settle_done]
  rfl

theorem Stream.consecutive_total (base : DWord) (esz : BitVec 2) (n : Word) :
    (Stream.consecutive base esz n).total = n.toNat := by
  simp [Stream.total, Stream.consecutive, Vector.toList_ofFn, List.ofFn_succ]

/-- Element `i` of consecutive ones lies `i` elements after the first (R148). -/
theorem Stream.consecutive_offset {base : DWord} {esz : BitVec 2} {n : Word} {i : Nat} (h : i < n.toNat) :
    (Stream.consecutive base esz n).offset i = i := by
  simp [Stream.offset, Stream.consecutive, List.range_succ, Nat.div_eq_of_lt h]
  exact_mod_cast Nat.mod_eq_of_lt h

theorem execZposSet_writes {s : State} {f : EX} (hok : f.okZposSet = true) (ha : s.grp.pairOk f.a = true) :
    execZposSet f s = .next (s.after 1 (fun g => g.setStream (zOf f) { g.streamAt (zOf f) with
      cursor := BitVec.ofNat 64 (min (g.rp f.a).toNat (2 ^ 63)), fin := false })) := by
  simp only [execZposSet, hok, ha, Bool.and_self, State.need_true, Run.ok_bind, Run.pure_eq, finish_ok, settle_done,
    State.after, State.onGrp]

theorem execZrew_rewinds {s : State} {f : EX} (hok : f.okZrew = true) :
    execZrew f s = .next (s.after 1 (fun g => g.setStream (zOf f) { g.streamAt (zOf f) with cursor := 0, fin := false })) := by
  simp only [execZrew, hok, State.need_true, Run.ok_bind, Run.pure_eq, finish_ok, settle_done, State.after]

end Sys2Proof.Machine

open Sys2Proof Sys2Proof.Machine

/-- Settles O27: each instruction runs through its checks; the extents and strides of ZSETS's stream give element `i` the offset `i`. -/
theorem streamInstructionsComplete : Obligations.StreamInstructionsComplete := by
  unfold Obligations.StreamInstructionsComplete
  intro s f
  refine ⟨?zset, ?zsets, ?zrew, ?zposRead, ?zposSet, ?zposEnd⟩
  case zset =>
    intro ks hok ha halign hkeys hthere hbad hbase
    exact execZset_of_record hok ha (State.readRecord_of_keys halign hkeys hthere) hbad rfl hbase
  case zsets =>
    intro hok ha hb
    exact ⟨_, execZsets_consecutive hok ha hb, rfl, rfl, Stream.consecutive_total _ _ _, rfl, rfl,
      fun i hi => Stream.consecutive_offset (by rwa [Stream.consecutive_total] at hi)⟩
  case zrew => exact execZrew_rewinds
  case zposRead =>
    intro hok hd hlive
    exact finish_toPair hok hd hlive
  case zposSet => exact execZposSet_writes
  case zposEnd =>
    intro hok hd hlive
    exact finish_toScalar hok hd hlive
end

section
/-! SUPPORT. Stores outside regions that are performed as they are issued, and the checks of SST (07_memory_access.md R142, R144, R155,
08_ordering.md R161). -/

namespace Sys2Proof.Machine

open Sys2Proof

/-! ### How many bytes a place gives (R127 to R131) -/

@[simp] theorem keyRun_length (k n : Nat) : (keyRun k n).length = n := by simp [keyRun]

theorem State.globalBytes_length {s : State} {w : Who} {nd : Need} {a : DWord} {n : Nat} {ks : List Nat}
    (h : s.globalBytes w nd a n = .keys ks) : ks.length = n := by
  induction n generalizing a ks with
  | zero => cases h; rfl
  | succ n ih =>
    rw [State.globalBytes] at h
    split at h
    · split at h
      · next hrest => cases h; rw [List.length_cons, ih hrest]
      · next hrest => exact absurd h (hrest ks)
    all_goals cases h

theorem State.globalPlace_length {s : State} {w : Who} {nd : Need} {a : DWord} {n : Nat} {ks : List Nat}
    (h : s.globalPlace w nd a n = .keys ks) : ks.length = n := by
  unfold State.globalPlace at h
  split at h
  · split at h
    · cases h; exact keyRun_length _ _
    all_goals cases h
  · exact State.globalBytes_length h

/-- An access that has a place has as many bytes as it asks for. -/
theorem State.place_length {s : State} {lane : Option Nat} {space : Nat} {nd : Need} {a : DWord} {n : Nat} {ks : List Nat}
    (h : s.place lane space nd a n = .keys ks) : ks.length = n := by
  unfold State.place at h
  split at h
  · exact State.globalPlace_length h
  all_goals
    repeat' split at h
    all_goals cases h
    all_goals simp

theorem sizeOf_pos (sz : BitVec 3) : 0 < sizeOf sz := by
  unfold sizeOf
  repeat' split
  all_goals decide

@[simp] theorem natBytes_length (n x : Nat) : (natBytes n x).length = n := by
  induction n generalizing x with
  | zero => rfl
  | succ n ih => simp [natBytes, ih]

@[simp] theorem cellsOf_length (ks : List Nat) (x : Nat) : (cellsOf ks x).length = ks.length := by simp [cellsOf]

@[simp] theorem cellsOf_keys (ks : List Nat) (x : Nat) : (cellsOf ks x).map (·.1) = ks :=
  List.map_fst_zip (by simp)

/-! ### Walks -/

theorem State.walked_only (s : State) (space : Nat) (xs : List Access) : s.OnlyCounts (s.walked space xs) := by
  unfold State.walked
  split
  · exact s.walkVas_only _ _ _
  · exact ⟨s.regs, rfl⟩

/-! ### Stores that are performed as they are issued (R135, R142, R155, R161) -/

/-- No waiting release store goes before a store that is performed at once on its channel. -/
theorem State.beforeStore_of_now {s : State} {ord scope chan : Nat} {cells : List Host.Cell}
    (hnow : s.storesNow ord scope (cells.map (·.1)))
    (hchan : chan = 0 ∨ s.grp.relq.all (fun r => decide (r.chan ≠ chan)) = true) : s.beforeStore ord chan cells = .ok s := by
  have hnone : s.grp.relq = [] → s.settleStores = .ok s := fun h => by rw [State.settleStores, h]; rfl
  have hsame : (decide (chan ≠ 0) && s.grp.relq.any (fun r => decide (r.chan = chan))) = false := by
    rcases hchan with h | h
    · simp [h]
    · simpa using fun _ => by simpa using h
  rcases hnow with ⟨hrel, hkeys⟩ | ⟨-, hempty⟩
  · have hnokey : (cells.map (·.1)).any (fun k => (relGet s.grp.relq k).isSome) = false := by
      rw [List.any_eq_false]
      intro k hk
      rw [hkeys k hk]
      decide
    rw [State.beforeStore, hrel, hsame, State.beforeKeys, hnokey]
    rfl
  · simp only [State.beforeStore, State.beforeKeys, hnone hempty, ite_self]

/-- A store outside a region that is performed as it is issued. -/
theorem State.storeAll_of_now {s : State} {ord scope cp chan : Nat} {cells : List Host.Cell} (hreg : s.grp.inRegion = false)
    (hcells : cells ≠ []) (hnow : s.storesNow ord scope (cells.map (·.1)))
    (hchan : chan = 0 ∨ s.grp.relq.all (fun r => decide (r.chan ≠ chan)) = true) :
    s.storeAll ord scope cp chan cells = .ok ((s.performStores cp chan cells).onGrp Group.progressed) := by
  have hregion : s.grp.region = none := by simpa [Group.inRegion] using hreg
  have hlow : ¬ (releases ord && decide (3 ≤ scope)) = true := by
    rcases hnow with ⟨hrel, -⟩ | ⟨hscope, -⟩
    · simp [hrel]
    · simp [hscope]
  rw [State.storeAll, hregion]
  dsimp only
  rw [if_neg hlow, State.beforeStore_of_now hnow hchan, Run.ok_bind, Run.pure_eq, State.storedCells, if_neg (by simpa using hcells)]

/-! ### Scalar stores (R144) -/

/-- What SST writes: the bytes of s[D], or of pair D. -/
def Group.storeNat (g : Group) (f : SM) : Nat := if f.sz = 5 then (g.rp f.d).toNat else (g.rs f.d).toNat

/-- Nothing of the word or the group forbids SST outside a region, and its bytes are at `ks`. -/
structure State.SstReady (s : State) (p : Option Pfx) (f : SM) (e : Eff) (ks : List Nat) : Prop where
  eff : e = s.grp.eff p
  word : (Instr.sst p f).wf = true
  names : s.grp.smOk f = true
  outside : s.grp.inRegion = false
  fits : e.spaceSet = true ∨ e.space ≠ 4
  aligned : (s.grp.smAddr f).toNat % sizeOf f.sz = 0
  place : s.place none e.space .write (s.grp.smAddr f) (sizeOf f.sz) = .keys ks

theorem State.SstReady.keys_ne_nil {s : State} {p : Option Pfx} {f : SM} {e : Eff} {ks : List Nat} (h : s.SstReady p f e ks) :
    ks ≠ [] := by
  intro hnil
  have hlen := State.place_length h.place
  have hpos := sizeOf_pos f.sz
  rw [hnil, List.length_nil] at hlen
  omega

theorem State.storePlace_of_outside {s : State} (h : s.grp.inRegion = false) (lane : Option Nat) (space : Nat) (a : DWord)
    (n : Nat) : s.storePlace lane space a n = s.place lane space .write a n := by
  simp [State.storePlace, h]

theorem State.chanOf_of_outside {s : State} (h : s.grp.inRegion = false) (e : Eff) : s.chanOf e = e.chan := by
  simp [State.chanOf, h]

theorem Group.chanRefused_of_outside {g : Group} (h : g.inRegion = false) (e : Eff) : g.chanRefused e = false := by
  simp [Group.chanRefused, h]

/-- SST that passes the checks of its access comes to the check of its channel and to its stores. -/
theorem execSst_of_ready {s : State} {p : Option Pfx} {f : SM} {e : Eff} {ks : List Nat} (h : s.SstReady p f e ks) :
    execSst p f s = finish (pfxLen p) ((s.walked e.space [⟨0, s.grp.smAddr f⟩]).checkChannel e.chan e.space
      [⟨0, s.grp.smAddr f⟩] [(0, ks)] >>= fun _ => (s.walked e.space [⟨0, s.grp.smAddr f⟩]).storeAll (fitStore e.ord) e.scope
        e.cp e.chan (cellsOf ks (s.grp.storeNat f)) >>= fun t => .ok (.done t)) := by
  obtain ⟨heff, hword, hnames, hout, hfit, halign, hplace⟩ := h
  subst heff
  have hplaces : s.accessAll (s.grp.eff p).space (sizeOf f.sz)
      (fun x => s.storePlace none (s.grp.eff p).space x.addr (sizeOf f.sz)) [⟨0, s.grp.smAddr f⟩] = .ok [(0, ks)] :=
    State.accessAll_of_keys (ks := fun _ => ks) (by simpa using halign)
      (by simpa [State.storePlace_of_outside hout] using hplace)
  simp only [execSst, hword, hnames, Group.chanRefused_of_outside hout, State.chanOf_of_outside hout, State.fitScalar_of hfit,
    hplaces, Bool.and_self, Bool.not_false, State.need_true, Run.ok_bind, Run.pure_eq, List.flatMap_cons, List.flatMap_nil,
    List.append_nil]
  rfl

theorem execSst_performed {s : State} {p : Option Pfx} {f : SM} {e : Eff} {ks : List Nat} (h : s.SstReady p f e ks)
    (hnow : s.storesNow (fitStore e.ord) e.scope ks)
    (hchan : e.chan = 0 ∨ s.grp.relq.all (fun r => decide (r.chan ≠ e.chan)) = true)
    (hcheck : (s.walked e.space [⟨0, s.grp.smAddr f⟩]).checkChannel e.chan e.space [⟨0, s.grp.smAddr f⟩] [(0, ks)] = .ok ()) :
    execSst p f s = .next ((((s.walked e.space [⟨0, s.grp.smAddr f⟩]).performStores e.cp e.chan
      (cellsOf ks (s.grp.storeNat f))).onGrp Group.progressed).retire (pfxLen p)) := by
  rw [execSst_of_ready h, hcheck, Run.ok_bind, State.storeAll_of_now]
  · rfl
  · simpa using h.outside
  · rw [← List.length_pos_iff, cellsOf_length, List.length_pos_iff]; exact h.keys_ne_nil
  · rw [cellsOf_keys, State.storesNow, State.walked_grp]; exact hnow
  · simpa using hchan

end Sys2Proof.Machine
end

section
/-! PROOFS. The ordered channels (07_memory_access.md R155, R156). -/

namespace Sys2Proof.Machine

open Sys2Proof

/-! ### The ordered channels of a team (R155, R156) -/

/-- The walks of a group's accesses leave the channels of its team. -/
theorem State.walked_channelDie (s : State) (space : Nat) (xs : List Access) (n : Nat) :
    (s.walked space xs).channelDie n = s.channelDie n := by
  obtain ⟨r, h⟩ := s.walked_only space xs
  rw [h]
  rfl

/-- A store on a channel leaves it: the channel is closed, or a byte is not homed on its die (R155). -/
def State.leavesChannel (s : State) (chan space : Nat) (ks : List Nat) : Bool :=
  (s.channelDie chan).isNone || (decide (space ≠ 1) && decide (space ≠ 5)) || ks.any (fun k => decide (homeDie k ≠ s.channelDie chan))

theorem State.walked_leavesChannel (s : State) (sp : Nat) (xs : List Access) (chan space : Nat) (ks : List Nat) :
    (s.walked sp xs).leavesChannel chan space ks = s.leavesChannel chan space ks := by
  rw [State.leavesChannel, State.walked_channelDie, State.leavesChannel]

theorem State.leavesChannel_eq_false {s : State} {chan space d : Nat} {ks : List Nat} (hdie : s.channelDie chan = some d)
    (hspace : space = 1 ∨ space = 5) (hhome : ∀ k ∈ ks, homeDie k = some d) : s.leavesChannel chan space ks = false := by
  have hkeys : ks.any (fun k => decide (homeDie k ≠ some d)) = false := by simpa using hhome
  rcases hspace with rfl | rfl <;> rw [State.leavesChannel, hdie, hkeys] <;> rfl

theorem State.leavesChannel_eq_true {s : State} {chan space : Nat} {ks : List Nat}
    (h : s.channelDie chan = none ∨ ∃ k ∈ ks, homeDie k ≠ s.channelDie chan) : s.leavesChannel chan space ks = true := by
  rw [State.leavesChannel]
  rcases h with hclosed | hkey
  · rw [hclosed]; rfl
  · have hany : ks.any (fun k => decide (homeDie k ≠ s.channelDie chan)) = true := by simpa using hkey
    rw [hany, Bool.or_true]

theorem State.checkChannel_of_keeps {s : State} {chan space : Nat} {a : DWord} {ks : List Nat}
    (h : s.leavesChannel chan space ks = false) : s.checkChannel chan space [⟨0, a⟩] [(0, ks)] = .ok () := by
  rw [State.leavesChannel, State.channelDie] at h
  simp only [State.checkChannel, List.zip_cons_cons, List.zip_nil_left, List.find?_cons, List.find?_nil, h, ite_self]

theorem State.checkChannel_of_leaves {s : State} {chan space : Nat} {a : DWord} {ks : List Nat} (hchan : chan ≠ 0)
    (h : s.leavesChannel chan space ks = true) :
    s.checkChannel chan space [⟨0, a⟩] [(0, ks)] = .error (.trap { cause := .chfault, arg := 0, trapa := some a } s) := by
  rw [State.leavesChannel, State.channelDie] at h
  simp only [State.checkChannel, if_neg hchan, List.zip_cons_cons, List.zip_nil_left, List.find?_cons, h, Access.trap]

/-! ### CHOPEN, CHWAIT and CHCLOSE (R156) -/

theorem execChopen_opens {s : State} {f : EX} (hok : f.okChan true = true) (hout : s.grp.inRegion = false)
    (hclosed : s.channelDie (f.imm.toNat % 32) = none) (hdie : s.built.dies.getLsbD (f.imm.toNat / 256 % 2) = true) :
    execChopen f s = .next ((s.onInst (fun i => { i with
      chans := i.chans.setIfInBounds (f.imm.toNat % 32) (some (f.imm.toNat / 256 % 2)) })).retire 1) := by
  simp only [execChopen, hok, hout, hclosed, hdie, Bool.not_false, Bool.and_self, State.need_true, Run.ok_bind, Run.pure_eq,
    finish_ok, settle_done]

theorem execChopen_again {s : State} {f : EX} (hok : f.okChan true = true) (hout : s.grp.inRegion = false)
    (hopen : s.channelDie (f.imm.toNat % 32) = some (f.imm.toNat / 256 % 2)) : execChopen f s = .next (s.retire 1) := by
  simp only [execChopen, hok, hout, hopen, decide_true, Bool.not_false, Bool.and_self, State.need_true, Run.ok_bind, Run.pure_eq,
    finish_ok, settle_done]

theorem execChopen_elsewhere {s : State} {f : EX} {d : Nat} (hok : f.okChan true = true) (hout : s.grp.inRegion = false)
    (hopen : s.channelDie (f.imm.toNat % 32) = some d) (hd : d ≠ f.imm.toNat / 256 % 2) :
    execChopen f s = .next (s.takeTrap { cause := .chfault }) := by
  simp only [execChopen, hok, hout, hopen, State.need_false (decide_eq_false hd), Bool.not_false, Bool.and_self,
    State.need_true, Run.ok_bind, Run.error_bind, finish_error, settle_trap]

theorem execChwait_clear {s : State} {f : EX} (hok : f.okChan false = true) (hclear : s.grp.channelClear (f.imm.toNat % 32) = true) :
    execChwait f s = .next (s.retire 1) := by
  simp only [execChwait, hok, hclear, Bool.or_true, if_true, State.need_true, Run.ok_bind, Run.pure_eq, finish_ok, settle_done]

theorem execChclose_clear {s : State} {f : EX} {d : Nat} (hok : f.okChan false = true)
    (hclear : s.grp.channelClear (f.imm.toNat % 32) = true) (hout : s.grp.inRegion = false)
    (hopen : s.channelDie (f.imm.toNat % 32) = some d) :
    execChclose f s = .next ((s.closeChannel (f.imm.toNat % 32)).retire 1) := by
  simp only [execChclose, hok, hout, hclear, hopen, Bool.not_false, Bool.and_self, Option.isNone_some, Bool.false_eq_true,
    if_false, if_true, State.need_true, Run.ok_bind, Run.pure_eq, finish_ok, settle_done]

/-! ### CHANNEL_DRAINED (R156) -/

/-- What becomes of the group that waited for a channel: its stores on the channel are performed at device scope, and CHCLOSE closes
the channel. -/
def State.channelEnded (s : State) (n : Nat) (close : Bool) : State :=
  if close then (s.drainChannel n).closeChannel n else s.drainChannel n

theorem State.drainChannel_grp (s : State) (n : Nat) :
    (s.drainChannel n).grp = { s.grp with chanOpen := s.grp.chanOpen.filter (fun c => c.1 ≠ n) } := by
  have hfold (xs : List (Nat × Nat)) : (xs.foldl (fun (t : State) c => t.dropOtherL2 t.grp.id.cluster c.2) s).grp = s.grp :=
    State.foldl_keeps State.grp (fun (t : State) (c : Nat × Nat) => t.dropOtherL2 t.grp.id.cluster c.2) (fun _ _ => rfl) xs s
  rw [State.drainChannel, State.onGrp_grp, hfold]

theorem State.channelEnded_mem (s : State) (n : Nat) (close : Bool) : (s.channelEnded n close).mem = s.mem := by
  cases close <;> exact s.drainChannel_mem n

theorem State.channelEnded_clear {s : State} {n : Nat} (close : Bool) (h : s.grp.relq.all (fun r => decide (r.chan ≠ n)) = true) :
    (s.channelEnded n close).grp.channelClear n = true := by
  have hgrp : (s.channelEnded n close).grp = (s.drainChannel n).grp := by cases close <;> rfl
  rw [hgrp, State.drainChannel_grp, Group.channelClear]
  simpa using h

theorem State.focus_mem {s t : State} {uid : Nat} (h : s.focus uid = some t) : t.mem = s.mem := by
  unfold State.focus at h
  split at h
  · cases h; rfl
  · split at h
    · cases h
    · cases h; rfl

theorem execChannelDrained_of_none {s t : State} {uid n : Nat} {close : Bool} (hev : s.ev = .group uid)
    (hfocus : s.focus uid = some t) (hwait : t.grp.status = .waiting (.channel n close))
    (hnone : t.grp.relq.all (fun r => decide (r.chan ≠ n)) = true) :
    execChannelDrained s = .next ((t.channelEnded n close).retire 1) := by
  have hany : t.grp.relq.any (fun r => decide (r.chan = n)) = false := by simpa using hnone
  simp only [execChannelDrained, withGroup, hev, hfocus, Group.waiting?, hwait, hany]
  rfl

theorem execChannelDrained_of_settled {s t : State} {uid n : Nat} {close : Bool} (hev : s.ev = .group uid)
    (hfocus : s.focus uid = some t) (hwait : t.grp.status = .waiting (.channel n close))
    (hsome : t.grp.relq.any (fun r => decide (r.chan = n)) = true) (hsettled : t.settleNow.grp.relq = []) :
    execChannelDrained s = .next ((t.settleNow.channelEnded n close).retire 1) := by
  simp only [execChannelDrained, withGroup, hev, hfocus, Group.waiting?, hwait, hsome, State.settleFirst, hsettled]
  rfl

end Sys2Proof.Machine

open Sys2Proof Sys2Proof.Machine

/-- Settles O29: the checks of CHOPEN, CHWAIT and CHCLOSE by cases on the channel; CHANNEL_DRAINED by whether a release store of the
channel still waits; SST by the check of its channel. -/
theorem channelsComplete : Obligations.ChannelsComplete := by
  unfold Obligations.ChannelsComplete
  refine ⟨?instructions, ?drained, ?store⟩
  case instructions =>
    intro s f
    refine ⟨fun hok hout => ⟨?opens, ?again, ?elsewhere⟩, fun hok hclear => ⟨?waits, ?closes⟩⟩
    case opens => exact execChopen_opens hok hout
    case again => exact execChopen_again hok hout
    case elsewhere => exact fun d => execChopen_elsewhere hok hout
    case waits => exact execChwait_clear hok hclear
    case closes => exact fun hout d => execChclose_clear hok hclear hout
  case drained =>
    intro s t uid n close hev hfocus hwait hready
    by_cases hnone : t.grp.relq.all (fun r => decide (r.chan ≠ n)) = true
    · exact ⟨_, execChannelDrained_of_none hev hfocus hwait hnone, State.channelEnded_clear close hnone,
        fun _ => (t.channelEnded_mem n close).trans (State.focus_mem hfocus)⟩
    · have hsettled := hready.resolve_left hnone
      have hsome : t.grp.relq.any (fun r => decide (r.chan = n)) = true := by simpa using hnone
      exact ⟨_, execChannelDrained_of_settled hev hfocus hwait hsome hsettled,
        State.channelEnded_clear close (by rw [hsettled]; rfl), fun h => absurd h hnone⟩
  case store =>
    intro s p f e ks x heff hword hnames hout hchan hspace halign hplace hx
    have hready : s.SstReady p f e ks := ⟨heff, hword, hnames, hout, .inr (by omega), halign, hplace⟩
    subst hx
    refine ⟨fun d hdie hhome hclear hnow => ?_, fun hbad => ?_⟩
    · have hkeeps := State.leavesChannel_eq_false hdie hspace hhome
      exact execSst_performed hready hnow (.inr hclear)
        (State.checkChannel_of_keeps ((s.walked_leavesChannel _ _ _ _ _).trans hkeeps))
    · have hleaves := State.leavesChannel_eq_true (space := e.space) hbad
      rw [show exec (.sst p f) s = execSst p f s from rfl, execSst_of_ready hready,
        State.checkChannel_of_leaves hchan ((s.walked_leavesChannel _ _ _ _ _).trans hleaves)]
      rfl
end

section
/-! PROOFS. FENCE, and the cache instructions (07_memory_access.md R153, R154). -/

namespace Sys2Proof.Machine

open Sys2Proof

/-! ### What leaves the lines of L1 as they are (R134, R135) -/

@[simp] theorem State.countEvent_l1 (s : State) (f sel n : Nat) : (s.countEvent f sel n).l1 = s.l1 := by
  obtain ⟨r, h⟩ := s.countEvent_only f sel n
  rw [h]

@[simp] theorem State.mscKeep_l1 (s : State) (t l : Nat) : (s.mscKeep t l).l1 = s.l1 := by
  unfold State.mscKeep
  split
  · rfl
  · split <;> simp

@[simp] theorem State.countWrite_l1 (s : State) (t c l : Nat) : (s.countWrite t c l).l1 = s.l1 := by
  unfold State.countWrite State.mscWrite
  split
  · simp
  · rw [State.mscKeep_l1]
    split <;> simp

@[simp] theorem State.fillL2_l1 (s : State) (c l k p : Nat) : (s.fillL2 c l k p).l1 = s.l1 := by
  simp only [State.fillL2, State.allocL2]
  split
  · rfl
  · split <;> rfl

@[simp] theorem State.wroteL2_l1 (s : State) (c : Nat) (w : Want) (l : Nat) : (s.wroteL2 c w l).l1 = s.l1 := by
  simp only [State.wroteL2]
  split
  · split <;> simp
  · simp

@[simp] theorem State.writeL2Byte_l1 (s : State) (c k : Nat) (x : Byte) : (s.writeL2Byte c k x).l1 = s.l1 :=
  s.setBacking_l1 k x

@[simp] theorem State.writeBackBytes_l1 (s : State) (c : Nat) (l : L1Line) (os : List Nat) :
    (s.writeBackBytes c l os).l1 = s.l1 := by
  induction os generalizing s with
  | nil => rfl
  | cons o os ih =>
    rw [State.writeBackBytes, ih]
    split <;> simp

@[simp] theorem State.writeBackLine_l1 (s : State) (c : Nat) (l : L1Line) : (s.writeBackLine c l).l1 = s.l1 := by
  unfold State.writeBackLine
  split
  · rfl
  · rw [State.writeBackBytes_l1]
    split <;> simp

@[simp] theorem State.writeBackAll_l1 (s : State) (c : Nat) (ls : List L1Line) : (s.writeBackAll c ls).l1 = s.l1 := by
  induction ls generalizing s with
  | nil => rfl
  | cons l ls ih =>
    rw [State.writeBackAll, ih]
    split <;> simp

@[simp] theorem State.invalidateStale_l1 (s : State) (c n : Nat) : (s.invalidateStale c n).l1 = s.l1 := by
  unfold State.invalidateStale
  split <;> rfl

@[simp] theorem State.requestWrites_l1 (s : State) (xs : List (Nat × List Host.Cell)) : (s.requestWrites xs).l1 = s.l1 := by
  induction xs generalizing s with
  | nil => rfl
  | cons x xs ih =>
    rw [State.requestWrites, ih]
    rfl

@[simp] theorem State.sendRemoteWrites_l1 (s : State) (cs : List Host.Cell) : (s.sendRemoteWrites cs).l1 = s.l1 :=
  s.requestWrites_l1 _

/-! ### FENCE (R133, R135, R153) -/

/-- No byte of a core's lines that others may share is dirty in its L1. -/
def State.coreClean (s : State) (core : Nat) : Prop :=
  ∀ l ∈ s.l1, l.core = core → isShared (128 * l.line) = true → l.dirty = 0

/-- A release at band scope or wider leaves nothing dirty in its core's L1 (R135). -/
theorem State.releaseAt_coreClean {s : State} {core scope : Nat} (h : 3 ≤ scope) : (s.releaseAt core scope).coreClean core := by
  have hl1 : (s.releaseAt core scope).l1 = (s.cleanCore core).l1 := by
    unfold State.releaseAt
    rw [if_neg (by omega)]
    dsimp only
    split
    · exact State.invalidateStale_l1 _ _ _
    · exact State.invalidateStale_l1 _ _ _
  intro l hl hcore hshared
  rw [hl1] at hl
  obtain ⟨m, -, rfl⟩ := List.mem_map.1 hl
  split
  · rfl
  · next hm =>
    rw [if_neg hm] at hcore hshared
    exact absurd (by simp [L1Line.ofCore, hcore, hshared]) hm

/-- An acquire makes no byte dirty (R135). -/
theorem State.acquireAt_coreClean {s : State} {core scope : Nat} (h : s.coreClean core) : (s.acquireAt core scope).coreClean core := by
  have hdrop : (s.dropClean core).coreClean core := by
    intro l hl
    obtain ⟨hl, -⟩ := List.mem_filter.1 hl
    obtain ⟨m, hm, rfl⟩ := List.mem_map.1 hl
    split <;> exact h m hm
  unfold State.acquireAt
  split
  · exact h
  · dsimp only
    split <;> exact hdrop

theorem State.releaseIf_of_now {s : State} {ord scope : Nat} (h : s.releasesNow ord scope) :
    s.releaseIf ord scope = .ok (if releases ord then s.releaseAt s.grp.coreNo scope else s) := by
  unfold State.releaseIf
  split
  · next hrel =>
    rcases h with hnone | ⟨hempty, hremote⟩
    · rw [hnone] at hrel; cases hrel
    · have hsettle : s.settleStores = .ok s := by rw [State.settleStores, hempty]; rfl
      have hawait : (s.releaseAt s.grp.coreNo scope).awaitRemoteWrites scope = .ok () := by
        rw [State.awaitRemoteWrites, if_neg]
        rcases hremote with hscope | hdirty
        · simp [hscope]
        · simp [hdirty]
      simp only [State.releaseRun, hsettle, hawait, Run.ok_bind, Run.pure_eq]
  · rfl

/-- What FENCE leaves: its release, then its acquire. -/
def State.fenced (s : State) (ord scope : Nat) : State :=
  let t := if releases ord then s.releaseAt s.grp.coreNo scope else s
  if acquires ord then t.acquireAt t.grp.coreNo scope else t

theorem State.fenced_grp (s : State) (ord scope : Nat) : (s.fenced ord scope).grp = s.grp := by
  have hrel : (if releases ord then s.releaseAt s.grp.coreNo scope else s).turns = s.turns := by split <;> simp
  unfold State.fenced
  dsimp only
  split
  · exact State.grp_of_turns ((State.acquireAt_turns _ _ _).trans hrel)
  · exact State.grp_of_turns hrel

theorem State.fenced_coreClean {s : State} {ord scope : Nat} (hscope : 3 ≤ scope) (hrel : releases ord = true) :
    (s.fenced ord scope).coreClean s.grp.coreNo := by
  have hgrp : (s.releaseAt s.grp.coreNo scope).grp = s.grp := State.grp_of_turns (by simp)
  unfold State.fenced
  rw [if_pos hrel]
  dsimp only
  split
  · rw [hgrp]
    exact State.acquireAt_coreClean (State.releaseAt_coreClean hscope)
  · exact State.releaseAt_coreClean hscope

theorem execFence_of_now {s : State} {p : Option Pfx} {f : VM} {e : Eff} {ord : Nat} (he : e = s.grp.eff p)
    (hord : ord = if e.ord = 1 then 4 else e.ord) (hword : (Instr.fence p f).wf = true) (hnow : s.releasesNow ord e.scope) :
    execFence p f s = .next ((s.fenced ord e.scope).retire (pfxLen p)) := by
  subst he
  simp only [execFence, hword, ← hord, State.releaseIf_of_now hnow, State.need_true, Run.ok_bind, Run.pure_eq, finish_ok,
    settle_done, State.fenced]

/-! ### CWB and CINV (R154) -/

/-- No byte of a line is dirty in a core's L1. -/
def State.lineClean (s : State) (core line : Nat) : Prop := ∀ l ∈ s.l1, l.core = core → l.line = line → l.dirty = 0

/-- A core's L1 does not hold a line. -/
def State.lineGone (s : State) (core line : Nat) : Prop := ∀ l ∈ s.l1, l.core = core → l.line ≠ line

/-- A line is written back where the core's L1 holds it. -/
theorem State.cleanLine_l1 (s : State) (core line : Nat) :
    (s.cleanLine core line).l1 = s.l1.map (fun m => if m.core = core && m.line = line then { m with dirty := 0 } else m) := by
  unfold State.cleanLine
  split
  · dsimp only
    rw [State.writeBackLine_l1]
  · next hnone =>
    have hid : ∀ m ∈ s.l1, (if m.core = core && m.line = line then { m with dirty := 0 } else m) = id m :=
      fun m hm => if_neg (List.find?_eq_none.1 hnone m hm)
    rw [List.map_congr_left hid, List.map_id]

/-- The line is clean once it is written back, and clean lines stay so. -/
theorem State.cleanLine_lineClean {s : State} {core line n : Nat} (h : n = line ∨ s.lineClean core n) :
    (s.cleanLine core line).lineClean core n := by
  intro l hl hcore hline
  rw [State.cleanLine_l1] at hl
  obtain ⟨m, hm, rfl⟩ := List.mem_map.1 hl
  split
  · rfl
  · next hother =>
    rw [if_neg hother] at hcore hline
    refine h.elim (fun hn => absurd ?_ hother) (fun hclean => hclean m hm hcore hline)
    simp [hcore, hline, hn]

theorem State.cleanLine_lineGone {s : State} {core line n : Nat} (h : s.lineGone core n) :
    (s.cleanLine core line).lineGone core n := by
  intro l hl hcore
  rw [State.cleanLine_l1] at hl
  obtain ⟨m, hm, rfl⟩ := List.mem_map.1 hl
  have hgone := h m hm
  split at hcore
  · next hself => rw [if_pos hself]; exact hgone hcore
  · next hother => rw [if_neg hother]; exact hgone hcore

theorem State.writeBackAt_l1 (s : State) (scope line : Nat) :
    (s.writeBackAt scope line).l1 = (s.cleanLine s.grp.coreNo line).l1 := by
  unfold State.writeBackAt
  dsimp only
  split
  · rw [State.sendRemoteWrites_l1]; rfl
  · rfl

theorem State.cleanLine_turns (s : State) (core line : Nat) : (s.cleanLine core line).turns = s.turns :=
  s.evictL1_turns core line

theorem State.writeBackAt_grp (s : State) (scope line : Nat) : (s.writeBackAt scope line).grp = s.grp := by
  refine State.grp_of_turns (Eq.trans ?_ (s.cleanLine_turns s.grp.coreNo line))
  unfold State.writeBackAt
  dsimp only
  split
  · rw [State.sendRemoteWrites_turns]; rfl
  · rfl

theorem State.evictL1_grp (s : State) (core line : Nat) : (s.evictL1 core line).grp = s.grp :=
  State.grp_of_turns (s.evictL1_turns core line)

/-- The line is gone once it has left, and lines that are gone stay so. -/
theorem State.evictL1_lineGone {s : State} {core line n : Nat} (h : n = line ∨ s.lineGone core n) :
    (s.evictL1 core line).lineGone core n := by
  intro l hl hcore hline
  obtain ⟨hl, hkept⟩ := List.mem_filter.1 hl
  rcases h with rfl | hgone
  · simp [hcore, hline] at hkept
  · exact State.cleanLine_lineGone hgone l hl hcore hline

/-- What an action on one line brings about for it, and keeps for every other, is so of every line after it has been done to all. -/
theorem State.foldl_lines {P : Nat → State → Prop} {act : State → Nat → State} (s : State) (lines : List Nat)
    (hgrp : ∀ t n, (act t n).grp = t.grp) (hact : ∀ t m n, t.grp = s.grp → (n = m ∨ P n t) → P n (act t m)) :
    (lines.foldl act s).grp = s.grp ∧ ∀ n, (n ∈ lines ∨ P n s) → P n (lines.foldl act s) := by
  induction lines generalizing s with
  | nil => exact ⟨rfl, fun n h => by simpa using h⟩
  | cons m ms ih =>
    obtain ⟨hsame, hall⟩ := ih (act s m) (fun t k n ht => hact t k n (ht.trans (hgrp s m)))
    refine ⟨hsame.trans (hgrp s m), fun n h => hall n ?_⟩
    rw [List.mem_cons] at h
    rcases h with (hn | hn) | hn
    · exact .inr (hact s m n rfl (.inl hn))
    · exact .inl hn
    · exact .inr (hact s m n rfl (.inr hn))

/-- The lines are written back at a scope, one after another. -/
def State.writeBackLines (s : State) (scope : Nat) (lines : List Nat) : State := lines.foldl (fun t n => t.writeBackAt scope n) s

/-- The lines leave the L1 of the group's core, one after another. -/
def State.evictLines (s : State) (lines : List Nat) : State := lines.foldl (fun t n => t.evictL1 t.grp.coreNo n) s

theorem State.writeBackLines_spec (s : State) (scope : Nat) (lines : List Nat) :
    (s.writeBackLines scope lines).grp = s.grp ∧
      ∀ n, (n ∈ lines ∨ s.lineClean s.grp.coreNo n) → (s.writeBackLines scope lines).lineClean s.grp.coreNo n :=
  s.foldl_lines (P := fun n t => t.lineClean s.grp.coreNo n) lines (fun t n => t.writeBackAt_grp scope n) fun t m n ht h => by
    rw [State.lineClean, State.writeBackAt_l1, ht]
    exact State.cleanLine_lineClean h

theorem State.evictLines_spec (s : State) (lines : List Nat) :
    (s.evictLines lines).grp = s.grp ∧
      ∀ n, (n ∈ lines ∨ s.lineGone s.grp.coreNo n) → (s.evictLines lines).lineGone s.grp.coreNo n :=
  s.foldl_lines (P := fun n t => t.lineGone s.grp.coreNo n) lines (fun t n => t.evictL1_grp _ n) fun t m n ht h => by
    rw [ht]
    exact State.evictL1_lineGone h

/-- The lines of a cache instruction's accesses, each once (R154). -/
def linesOf (ps : List (Nat × List Nat)) : List Nat := ((ps.flatMap (·.2)).map lineOf).eraseDups

theorem mem_linesOf {ps : List (Nat × List Nat)} {k : Nat} (h : k ∈ ps.flatMap (·.2)) : lineOf k ∈ linesOf ps := by
  rw [linesOf, List.mem_eraseDups]
  exact List.mem_map_of_mem h

theorem State.beforeLines_of_apart {s : State} {ps : List (Nat × List Nat)}
    (h : ∀ r ∈ s.grp.relq, ∀ c ∈ r.cells, ∀ k ∈ ps.flatMap (·.2), lineOf c.1 ≠ lineOf k) :
    s.beforeLines (linesOf ps) = .ok s := by
  rw [State.beforeLines, if_neg]
  simp only [List.any_eq_true, List.contains_iff_mem, not_exists, not_and]
  intro r hr c hc hmem
  rw [linesOf, List.mem_eraseDups] at hmem
  obtain ⟨k, hk, hline⟩ := List.mem_map.1 hmem
  exact h r hr c hc k hk hline.symm

/-- A cache instruction whose lines no waiting release store touches writes them back, and CINV drops them. -/
theorem cacheLine_of_places {s : State} {leave : Bool} {p : Option Pfx} {f : VM} {e : Eff} {ps : List (Nat × List Nat)}
    (he : e = s.grp.eff p) (hnames : s.grp.vmOk f = true) (hspace : e.space ≠ 2 ∧ e.space ≠ 3)
    (hplace : s.placeAll e.space (fun x => s.place (if f.noIndex then none else some x.lane) e.space .read x.addr 1)
      (s.grp.lineAccesses f) = .ok ps)
    (hapart : ∀ r ∈ s.grp.relq, ∀ c ∈ r.cells, ∀ k ∈ ps.flatMap (·.2), lineOf c.1 ≠ lineOf k) :
    cacheLine true leave p f s = .next ((if leave then
      ((s.walked e.space (s.grp.lineAccesses f)).writeBackLines e.scope (linesOf ps)).evictLines (linesOf ps)
      else (s.walked e.space (s.grp.lineAccesses f)).writeBackLines e.scope (linesOf ps)).retire (pfxLen p)) := by
  subst he
  have hleft : (decide ((s.grp.eff p).space = 2) || decide ((s.grp.eff p).space = 3)) = false := by simp [hspace]
  have hbefore : (s.walked (s.grp.eff p).space (s.grp.lineAccesses f)).beforeLines (linesOf ps) =
      .ok (s.walked (s.grp.eff p).space (s.grp.lineAccesses f)) := State.beforeLines_of_apart (by simpa using hapart)
  rw [linesOf] at hbefore
  simp only [cacheLine, hnames, hleft, hplace, hbefore, Bool.and_self, State.need_true, Run.ok_bind, Run.pure_eq, Bool.false_eq_true,
    if_false, finish_ok, settle_done]
  rfl

/-! ### PREF (R154) -/

/-- The issuing group and memory: what a prefetch leaves as they are. -/
def State.grpMem (s : State) : Group × Memory := (s.grp, s.mem)

theorem State.fetchLine_grpMem (s : State) (fn pasid core cls prio line : Nat) (intoL1 : Bool) :
    (s.fetchLine fn pasid core cls prio line intoL1).grpMem = s.grpMem := by
  have hl2 : ((s.readHost fn pasid (clusterOfCore core) false [line]).fillL2 (clusterOfCore core) line cls prio).grpMem =
      s.grpMem :=
    Prod.ext (State.grp_of_turns (State.fillL2_turns _ _ _ _ _)) (State.fillL2_mem _ _ _ _ _)
  have hl1 (t : State) (w : Want) : (t.fillL1 core line w).grpMem = t.grpMem := by
    simp only [State.fillL1]
    split
    all_goals split <;> rfl
  unfold State.fetchLine
  dsimp only
  split
  · exact (hl1 _ _).trans hl2
  · exact hl2

theorem State.prefLine_grpMem (s : State) (prio : Nat) (intoL1 : Bool) (line : Nat) :
    (s.prefLine prio intoL1 line).grpMem = s.grpMem := by
  unfold State.prefLine
  dsimp only
  split
  · split <;> rfl
  · exact s.fetchLine_grpMem _ _ _ _ _ _ _

theorem State.askHost_grpMem (s : State) (fn pasid v : Nat) : (s.askHost fn pasid v).grpMem = s.grpMem := by
  unfold State.askHost
  split
  · split <;> rfl
  · rfl

theorem State.prefetch_grpMem (s : State) (prio : Nat) (intoL1 : Bool) (a : DWord) (place : Place) :
    (s.prefetch prio intoL1 a place).grpMem = s.grpMem := by
  unfold State.prefetch
  split
  · exact State.foldl_keeps State.grpMem _ (fun t n => t.prefLine_grpMem prio intoL1 n) _ s
  · exact State.askHost_grpMem _ _ _ _
  · rfl

theorem execPref_prefetches {s : State} {p : Option Pfx} {f : VM} (hnames : s.grp.vmOk f = true)
    (hword : (Instr.pref p f).wf = true) :
    ∃ t : State, execPref p f s = .next (t.retire (pfxLen p)) ∧ t.grpMem = s.grpMem := by
  simp only [execPref, hword, hnames, Bool.and_self, State.need_true, Run.ok_bind, Run.pure_eq, finish_ok, settle_done]
  refine ⟨_, rfl, (State.foldl_keeps State.grpMem _ (fun t x => t.prefetch_grpMem _ _ _ _) _ _).trans ?_⟩
  exact Prod.ext (s.walked_grp _ _) (s.walked_mem _ _)

end Sys2Proof.Machine

open Sys2Proof Sys2Proof.Machine

/-- Settles O28: a release cleans its core's lines and an acquire makes none dirty; a line that is written back, or leaves, stays so
while the others follow; a prefetch touches neither the group nor memory. -/
theorem cacheInstructionsComplete : Obligations.CacheInstructionsComplete := by
  unfold Obligations.CacheInstructionsComplete
  intro s p f e he
  refine ⟨?fence, ?lines, ?pref⟩
  case fence =>
    intro hword hnow
    exact ⟨_, execFence_of_now he rfl hword hnow, State.fenced_grp _ _ _, State.fenced_coreClean⟩
  case lines =>
    intro hnames hscratch hwindow ps hplace hapart
    have hline (leave : Bool) := cacheLine_of_places (leave := leave) he hnames ⟨hscratch, hwindow⟩ hplace hapart
    obtain ⟨hbackGrp, hback⟩ :=
      (s.walked e.space (s.grp.lineAccesses f)).writeBackLines_spec e.scope (linesOf ps)
    obtain ⟨hgoneGrp, hgone⟩ := State.evictLines_spec
      ((s.walked e.space (s.grp.lineAccesses f)).writeBackLines e.scope (linesOf ps)) (linesOf ps)
    rw [hbackGrp] at hgoneGrp hgone
    rw [State.walked_grp] at hbackGrp hback hgoneGrp hgone
    refine ⟨fun hword => ⟨_, ?cwb, hbackGrp, fun k hk => hback _ (.inl (mem_linesOf hk))⟩,
      fun hword => ⟨_, ?cinv, hgoneGrp, fun k hk => hgone _ (.inl (mem_linesOf hk))⟩⟩
    case cwb => exact (congrArg (cacheLine · false p f s) hword).trans (hline false)
    case cinv => exact (congrArg (cacheLine · true p f s) hword).trans (hline true)
  case pref =>
    intro hnames hword
    obtain ⟨t, hexec, hkeeps⟩ := execPref_prefetches hnames hword
    exact ⟨t, hexec, congrArg Prod.fst hkeeps, congrArg Prod.snd hkeeps⟩
end

section
/-! PROOFS. Stores over memory that is not in its canonical form: what the frames of SST and VST leave out (07_memory_access.md R142,
R144, R145). -/

namespace Sys2Proof.Machine

open Sys2Proof

/-! ### Vector stores that are performed as they are issued (R145) -/

/-- What VST and VSTB write in a lane: that lane of V, or of its pair. -/
def Group.laneNat (g : Group) (f : VM) (l : Nat) : Nat :=
  (g.rvl f.v.toNat l).toNat + (if f.sz = 5 then (g.rvl (f.v.toNat + 1) l).toNat * 2 ^ 32 else 0)

theorem vecStore_performed {s : State} {block : Bool} {p : Option Pfx} {f : VM} {e : Eff} {ord : Nat} {xs : List Access}
    {ks : Nat → List Nat} {cells : List Host.Cell} (he : e = s.grp.eff p) (hnames : s.grp.vmOk f = true)
    (hdata : s.grp.vmDataOk f (decide (f.sz = 5)) = true) (hout : s.grp.inRegion = false) (hchan : e.chan = 0)
    (hord : ord = if e.space = 4 then 1 else fitStore e.ord) (hxs : xs = s.grp.vmAccesses f block e.space (sizeOf f.sz))
    (halign : ∀ x ∈ xs, x.addr.toNat % sizeOf f.sz = 0)
    (hkeys : ∀ x ∈ xs, s.place (some x.lane) e.space .write x.addr (sizeOf f.sz) = .keys (ks x.lane))
    (hcells : cells = xs.flatMap (fun x => cellsOf (ks x.lane) (s.grp.laneNat f x.lane)))
    (hsome : cells ≠ []) (hnow : s.storesNow ord e.scope (cells.map (·.1))) :
    vecStore true block p f s =
      .next ((((s.walked e.space xs).performStores e.cp 0 cells).onGrp Group.progressed).retire (pfxLen p)) := by
  subst he
  have hplaces : s.accessAll (s.grp.eff p).space (sizeOf f.sz)
      (fun x => s.storePlace (some x.lane) (s.grp.eff p).space x.addr (sizeOf f.sz)) xs =
        .ok (xs.map (fun x => (x.lane, ks x.lane))) :=
    State.accessAll_of_keys halign (by simpa only [State.storePlace_of_outside hout] using hkeys)
  have hflat : (xs.map (fun x => (x.lane, ks x.lane))).flatMap (fun q => cellsOf q.2 (s.grp.laneNat f q.1)) = cells := by
    rw [List.flatMap_map, hcells]
  have hval (l : Nat) : ((s.grp.rvl f.v.toNat l).toNat +
      (if decide (f.sz = 5) = true then (s.grp.rvl (f.v.toNat + 1) l).toNat * 2 ^ 32 else 0)) = s.grp.laneNat f l := by
    simp [Group.laneNat]
  have hstore := State.storeAll_of_now (s := s.walked (s.grp.eff p).space xs) (ord := ord) (scope := (s.grp.eff p).scope)
    (cp := (s.grp.eff p).cp) (chan := 0) (by simpa using hout) hsome (by simpa [State.storesNow] using hnow) (.inl rfl)
  simp only [vecStore, hnames, hdata, Group.chanRefused_of_outside hout, State.chanOf_of_outside hout, hchan, ← hxs, hplaces,
    ← hord, State.checkChannel, hval, hflat, hstore, Bool.and_self, Bool.not_false, State.need_true, Run.ok_bind, Run.pure_eq, if_true, finish_ok,
    settle_done]

/-! ### Memory that is not in its canonical form -/

/-- Two bytes out of order: the first hides the second, until a write of 0 removes it. -/
def unsortedMemory : Memory := [(2 ^ 65 + 1, 1), (2 ^ 65, 1)]

/-- A group of one lane, inside its block, whose accesses are relaxed and go to its team's scratch memory. -/
def scratchGroup : Group :=
  { Group.initial { GroupId.none with lanes := 1 } 0 0 [] with blockEnd := 64, mdef := 0x289 }

/-- The group in a band of one team with 16 bytes of scratch, over memory that is out of order. -/
def unsortedState : State :=
  { State.reset with
    grp := scratchGroup
    mem := unsortedMemory
    bands := [{ uid := 0, field := 0, ctx := 0, bandx := 0, cluster := 0, bar := ⟨0, [], none⟩, killed := false,
                insts := [{ k := 0, core := 0, scr := 16, ngrp := 1, bandBar := false, bars := Vector.replicate 16 ⟨0, [], none⟩,
                            chans := Vector.replicate 32 none, exited := false }] }] }

/-- SST of the byte 0 at offset 1 of scratch. -/
def zeroByteStore : SM := ⟨0, 0, 0, 0, 1⟩

/-- VST of the byte 0 of a lane at offset 1 of scratch. -/
def zeroLaneStore : VM := ⟨0, 0, 0, 0x7F, 0, 0, 1⟩

/-- Where two states inside their blocks complete alike, their memories are the same. -/
theorem State.mem_of_retire_eq {t u : State} {len : Nat} (h : t.retire len = u.retire len)
    (ht : t.grp.pc + BitVec.ofNat 64 (8 * len) ≠ t.grp.blockEnd) (hu : u.grp.pc + BitVec.ofNat 64 (8 * len) ≠ u.grp.blockEnd) :
    t.mem = u.mem := by
  have hmem := congrArg State.mem h
  rw [State.retire_inBlock ht, State.retire_inBlock hu] at hmem
  exact hmem

/-- The state after the byte 0 has been stored at offset 1 of scratch. -/
def unsortedStored : State := (unsortedState.performStores 1 0 [(2 ^ 65 + 1, 0)]).onGrp Group.progressed

/-- The stored byte leaves the list, and the one that it hid shows. -/
theorem unsortedStored_mem : unsortedStored.mem = [(2 ^ 65, 1)] := by decide

/-- Whatever completes as that store does has changed the byte at offset 0, which the store does not write. -/
theorem backing_of_retires_unsorted {t : State}
    (h : Host.Outcome.next (t.retire 1) = (Host.Outcome.next (unsortedStored.retire 1) : Out))
    (hpc : t.grp.pc = scratchGroup.pc) (hend : t.grp.blockEnd = scratchGroup.blockEnd) :
    t.backing (2 ^ 65) ≠ unsortedState.backing (2 ^ 65) := by
  have hmem : t.mem = [(2 ^ 65, 1)] := by
    refine (State.mem_of_retire_eq (Host.Outcome.next.inj h) ?_ (by decide)).trans unsortedStored_mem
    rw [hpc, hend]
    decide
  have hback : t.backing (2 ^ 65) = t.mem.get (2 ^ 65) := rfl
  rw [hback, hmem]
  decide

end Sys2Proof.Machine

open Sys2Proof Sys2Proof.Machine

/-- Refutes O25: the statement lets memory stand out of its canonical form, and there a store of the byte 0 takes the byte's entry
off the list and uncovers another byte, which the store does not write. -/
theorem not_scalarStoreResult : ¬ Obligations.ScalarStoreResult := by
  unfold Obligations.ScalarStoreResult
  rintro ⟨hperformed, -, -⟩
  have hready : unsortedState.SstReady none zeroByteStore ⟨1, 1, 2, 1, 0, 0, false, false⟩ [2 ^ 65 + 1] :=
    ⟨by decide, by decide, by decide, by decide, by decide, by decide, by decide⟩
  have hnow : unsortedState.storesNow 1 1 [2 ^ 65 + 1] := .inl ⟨rfl, fun _ _ => rfl⟩
  obtain ⟨t, hexec, hgrp, -, hother, -⟩ := hperformed unsortedState none zeroByteStore _ _ hready.eff hready.word hready.names
    hready.outside rfl hnow hready.fits hready.aligned hready.place
  have hstored := execSst_performed hready hnow (.inl rfl) rfl
  exact backing_of_retires_unsorted (hexec.symm.trans hstored) (by rw [hgrp]; rfl) (by rw [hgrp]; rfl)
    (hother (2 ^ 65) (by decide)).1

/-- Refutes O26: as O25, by a vector store of one lane. -/
theorem not_vectorStoreFrame : ¬ Obligations.VectorStoreFrame := by
  unfold Obligations.VectorStoreFrame
  intro hframe
  let e : Eff := ⟨1, 1, 2, 1, 0, 0, false, false⟩
  have hnow : unsortedState.storesNow 1 1 [2 ^ 65 + 1] := .inl ⟨rfl, fun _ _ => rfl⟩
  have hxs : [⟨0, 1⟩] = unsortedState.grp.vmAccesses zeroLaneStore false 2 1 := by decide
  have hkeys : ∀ x ∈ ([⟨0, 1⟩] : List Access), unsortedState.place (some x.lane) 2 .write x.addr 1 = .keys [2 ^ 65 + 1] := by decide
  obtain ⟨t, hexec, -, hgrp, hother, -⟩ := hframe unsortedState none zeroLaneStore e false [⟨0, 1⟩] (fun _ => [2 ^ 65 + 1])
    (by decide) (by decide) (by decide) (by decide) rfl rfl hnow hxs (by decide) hkeys
  have hstored := vecStore_performed (s := unsortedState) (block := false) (p := none) (f := zeroLaneStore) (e := e)
    (ord := 1) (xs := [⟨0, 1⟩]) (ks := fun _ => [2 ^ 65 + 1]) (cells := [(2 ^ 65 + 1, 0)])
    (by decide) (by decide) (by decide) rfl rfl rfl hxs (by decide) hkeys (by decide) (by decide) hnow
  exact backing_of_retires_unsorted (hexec.symm.trans hstored) (by rw [hgrp]; rfl) (by rw [hgrp]; rfl)
    (hother (2 ^ 65) (by decide)).1
end

section
/-! SUPPORT. Memory in its canonical form over the ways in which a body goes on, ends or is refused: what the laws of every instruction
and event are put together from. -/

namespace Sys2Proof.Machine

open Sys2Proof

/-! ### Outcomes and bodies -/

/-- An outcome leaves memory in its canonical form: a next state has it, and a turn that is none has no state. -/
def OutOk (o : Out) : Prop := ∀ t, o = .next t → t.memOk

/-- A part of a body keeps memory in its canonical form: what it gives has `P`, and a way of ending has its state so. -/
def RunOk {α : Type} (P : α → Prop) : Run α → Prop
  | .ok a => P a
  | .error c => c.state.memOk

/-- An ending leaves memory in its canonical form. -/
def Ctl.memOk (c : Ctl) : Prop := c.state.memOk

theorem outOk_next {t : State} (h : t.memOk) : OutOk (.next t) := fun _ e => Host.Outcome.next.inj e ▸ h

theorem outOk_refused (r : Refusal) : OutOk (.refused r) := fun _ e => by cases e

theorem outOk_fault (r : Fault) : OutOk (.fault r) := fun _ e => by cases e

theorem outOk_ite {c : Prop} [Decidable c] {o p : Out} (ho : OutOk o) (hp : OutOk p) : OutOk (if c then o else p) := by
  split
  · exact ho
  · exact hp

theorem outOk_settle (n : Nat) {c : Ctl} (h : c.memOk) : OutOk (settle n c) := fun _ e => settle_wf h e

/-- An instruction keeps the canonical form where its body does. -/
theorem outOk_finish (n : Nat) {b : Run Ctl} (h : RunOk Ctl.memOk b) : OutOk (finish n b) := by
  cases b with
  | ok c => exact outOk_settle n h
  | error c => exact outOk_settle n h

theorem RunOk.bind {α β : Type} {P : α → Prop} {Q : β → Prop} {x : Run α} {f : α → Run β} (hx : RunOk P x)
    (hf : ∀ a, P a → RunOk Q (f a)) : RunOk Q (x >>= f) := by
  cases x with
  | ok a => exact hf a hx
  | error c => exact hx

theorem runOk_pure {α : Type} {P : α → Prop} {a : α} (h : P a) : RunOk P (pure a) := h

theorem runOk_done {s : State} (h : s.memOk) : RunOk Ctl.memOk (pure (.done s)) := h

theorem runOk_ite {α : Type} {P : α → Prop} {c : Prop} [Decidable c] {x y : Run α} (hx : RunOk P x) (hy : RunOk P y) :
    RunOk P (if c then x else y) := by
  split
  · exact hx
  · exact hy

/-- A part that may give any value. -/
abbrev RunKeeps {α : Type} (x : Run α) : Prop := RunOk (fun _ => True) x

theorem RunOk.ok {α : Type} {P : α → Prop} {x : Run α} {a : α} (h : RunOk P x) (e : x = .ok a) : P a := by
  rw [e] at h; exact h

theorem RunOk.error {α : Type} {P : α → Prop} {x : Run α} {c : Ctl} (h : RunOk P x) (e : x = .error c) : c.memOk := by
  rw [e] at h; exact h

section
variable {s : State} (h : s.memOk)
include h

theorem State.chk_keeps {α : Type} (c : Chk α) : RunKeeps (s.chk c) := by
  cases c with
  | ok a => trivial
  | error e => exact h

theorem State.need_keeps (ok : Bool) (c : Cause) : RunKeeps (s.need ok c) := State.chk_keeps h _

/-- A check goes before the rest of a body. -/
theorem State.need_then {β : Type} {Q : β → Prop} {ok : Bool} {c : Cause} {f : Unit → Run β} (hf : RunOk Q (f ())) :
    RunOk Q (s.need ok c >>= f) := (State.need_keeps h ok c).bind fun _ _ => hf

theorem State.chk_then {α β : Type} {Q : β → Prop} {c : Chk α} {f : α → Run β} (hf : ∀ a, c = .ok a → RunOk Q (f a)) :
    RunOk Q (s.chk c >>= f) := by
  cases c with
  | ok a => exact hf a rfl
  | error e => exact h

end

/-! ### Walks of lists -/

theorem State.foldl_memOk {α : Type} {f : State → α → State} (hf : ∀ (t : State) (x : α), t.memOk → (f t x).memOk) (xs : List α)
    {s : State} (h : s.memOk) : (xs.foldl f s).memOk := by
  induction xs generalizing s with
  | nil => exact h
  | cons x xs ih => exact ih (hf s x h)

theorem State.memOk_of_mem {s t : State} (e : t.mem = s.mem) (h : s.memOk) : t.memOk := by rwa [State.memOk, e]

theorem State.ite_memOk {c : Prop} [Decidable c] {s t : State} (hs : s.memOk) (ht : t.memOk) : (if c then s else t).memOk := by
  split
  · exact hs
  · exact ht

theorem State.onGrp_memOk {s : State} (h : s.memOk) (f : Group → Group) : (s.onGrp f).memOk := h

/-! ### Groups by uid -/

theorem State.focus_memOk {s t : State} {uid : Nat} (h : s.memOk) (e : s.focus uid = some t) : t.memOk :=
  State.memOk_of_mem (State.focus_mem e) h

theorem State.asGroup_memOk {s : State} {f : State → State} (h : s.memOk) (uid : Nat)
    (hf : ∀ t : State, t.memOk → (f t).memOk) : (s.asGroup uid f).memOk := by
  unfold State.asGroup
  split
  · exact h
  · next t ht =>
    have hft := hf t (State.focus_memOk h ht)
    cases hback : (f t).focus s.grp.id.uid with
    | none => exact hft
    | some u => exact State.focus_memOk hft hback

theorem outOk_withGroup {row : String} {s : State} {k : State → Out} (h : s.memOk) (hk : ∀ t : State, t.memOk → OutOk (k t)) :
    OutOk (withGroup row s k) := by
  unfold withGroup
  split
  · split
    · exact outOk_fault _
    · next t ht => exact hk t (State.focus_memOk h ht)
  · exact outOk_refused _

end Sys2Proof.Machine
end

section
/-! SUPPORT. The operands of instructions keep memory in its canonical form (05_vector.md R94, 07_memory_access.md R127 to R148,
08_ordering.md R159, R161). -/

namespace Sys2Proof.Machine

open Sys2Proof

/-! ### Requests to remote devices (R352) -/

@[simp] theorem State.request_mem (s : State) (o : Origin) (g : Option Nat) (p : Option (Nat × Bool)) (q : Option Nat) (d a : Nat)
    (w : Option (List Host.Cell)) : (s.request o g p q d a w).mem = s.mem := rfl

@[simp] theorem State.requestLines_mem (s : State) (cp : Nat) (ks : List Nat) : (s.requestLines cp ks).mem = s.mem := by
  induction ks generalizing s with
  | nil => rfl
  | cons k ks ih =>
    rw [State.requestLines, ih]
    split <;> rfl

theorem outOk_remoteFirst {row : String} {s : State} {done : State → Out} (h : s.memOk) (hd : OutOk (done s)) :
    OutOk (State.remoteFirst row s done) := by
  unfold State.remoteFirst
  split
  · exact hd
  · exact outOk_ite (outOk_refused _) (outOk_next (State.memOk_of_mem (s.sendRemoteWrites_mem _) h))

section
variable {s : State} (h : s.memOk)
include h

theorem State.awaitRemote_keeps (how : ReadAt) (cp : Nat) (ks : List Nat) : RunKeeps (s.awaitRemote how cp ks) :=
  runOk_ite trivial (State.memOk_of_mem (s.requestLines_mem _ _) h)

theorem State.awaitRemoteWrites_keeps (scope : Nat) : RunKeeps (s.awaitRemoteWrites scope) :=
  runOk_ite (State.memOk_of_mem (s.sendRemoteWrites_mem _) h) trivial

/-! ### The places of accesses (R141) -/

theorem State.settlePlace_keeps (x : Access) (p : Place) : RunKeeps (s.settlePlace x p) := by
  cases p with
  | keys ks => trivial
  | prot => exact h
  | transl => exact h
  | host v => exact runOk_ite h (State.memOk_of_mem (s.askHost_mem _ _ _) h)

theorem State.placeEach_keeps (find : Access → Place) (xs : List Access) : RunKeeps (s.placeEach find xs) := by
  induction xs with
  | nil => trivial
  | cons x xs ih =>
    unfold State.placeEach
    split
    · next hx => exact (State.settlePlace_keeps h x _).error hx
    · split
      · next hxs => exact ih.error hxs
      · trivial

theorem State.walked_memOk (space : Nat) (xs : List Access) : (s.walked space xs).memOk :=
  State.memOk_of_mem (s.walked_mem space xs) h

theorem State.placeAll_keeps (space : Nat) (find : Access → Place) (xs : List Access) : RunKeeps (s.placeAll space find xs) := by
  unfold State.placeAll
  split
  · trivial
  · exact State.placeEach_keeps (State.walked_memOk h _ _) _ _

theorem State.checkAlign_keeps (n : Nat) (xs : List Access) : RunKeeps (s.checkAlign n xs) := by
  unfold State.checkAlign
  split
  · exact h
  · trivial

theorem State.accessAll_keeps (space n : Nat) (find : Access → Place) (xs : List Access) :
    RunKeeps (s.accessAll space n find xs) := by
  unfold State.accessAll
  split
  · next hc => exact (State.checkAlign_keeps h n xs).error hc
  · exact State.placeAll_keeps h _ _ _

theorem State.checkChannel_keeps (chan space : Nat) (xs : List Access) (ps : List (Nat × List Nat)) :
    RunKeeps (s.checkChannel chan space xs ps) := by
  unfold State.checkChannel
  split
  · trivial
  · dsimp only
    split
    · exact h
    · trivial

theorem State.fitScalar_keeps (e : Eff) (a : DWord) : RunKeeps (s.fitScalar e a) := runOk_ite h trivial

theorem State.scalarKeys_keeps (e : Eff) (nd : Need) (a : DWord) (n : Nat) : RunKeeps (s.scalarKeys e nd a n) :=
  (State.fitScalar_keeps h e a).bind fun _ _ => (State.accessAll_keeps h _ _ _ _).bind fun _ _ => trivial

theorem State.readRecord_keeps (a : DWord) : RunKeeps (s.readRecord a) :=
  (State.accessAll_keeps h _ _ _ _).bind fun _ _ => (State.awaitRemote_keeps h _ _ _).bind fun _ _ => trivial

theorem State.sawBeyond_memOk (core : Nat) (how : ReadAt) (cp : Nat) (ks : List Nat) : (s.sawBeyond core how cp ks).memOk :=
  State.memOk_of_mem (s.sawBeyond_mem core how cp ks) h

theorem State.acquireAt_memOk (core scope : Nat) : (s.acquireAt core scope).memOk :=
  State.memOk_of_mem (s.acquireAt_mem core scope) h

theorem State.acquireIf_memOk (ord scope : Nat) : (s.acquireIf ord scope).memOk := by
  unfold State.acquireIf
  split
  · exact State.acquireAt_memOk h _ _
  · exact h

/-! ### Release stores that wait (R135, R159, R161) -/

theorem State.settleStores_keeps : RunOk State.memOk s.settleStores := by
  have hlist (rs : List RelStore) : ∀ t : State, t.memOk → RunOk State.memOk (State.settleList rs t) := by
    induction rs with
    | nil => exact fun t ht => ht
    | cons r rs ih =>
      intro t ht
      have hrel : (t.releaseAt t.grp.coreNo r.scope).memOk := State.releaseAt_wf ht _ _
      unfold State.settleList
      dsimp only
      split
      · next hc => exact (State.awaitRemoteWrites_keeps hrel _).error hc
      · exact ih _ (State.performRel_wf hrel r)
  exact hlist _ s h

theorem State.settleNow_memOk : s.settleNow.memOk := by
  have hlist (rs : List RelStore) : ∀ t : State, t.memOk → (State.settleFar rs t).memOk := by
    induction rs with
    | nil => exact fun t ht => ht
    | cons r rs ih =>
      intro t ht
      have hrel : (t.releaseAt t.grp.coreNo r.scope).memOk := State.releaseAt_wf ht _ _
      unfold State.settleFar
      dsimp only
      split
      · exact State.memOk_of_mem (State.sendRemoteWrites_mem _ _) hrel
      · exact ih _ (State.performRel_wf hrel r)
  exact hlist _ s h

theorem outOk_settleFirst {row : String} {clear : Bool} {done : State → Out} (hd : ∀ t : State, t.memOk → OutOk (done t)) :
    OutOk (State.settleFirst row s clear done) := by
  have hnow := State.settleNow_memOk h
  exact outOk_ite (hd _ hnow)
    (outOk_ite (outOk_refused _) (outOk_next (State.memOk_of_mem (State.sendRemoteWrites_mem _ _) hnow)))

theorem State.beforeKeys_keeps (ks : List Nat) : RunOk State.memOk (s.beforeKeys ks) :=
  runOk_ite (State.settleStores_keeps h) h

theorem State.beforeLines_keeps (lines : List Nat) : RunOk State.memOk (s.beforeLines lines) :=
  runOk_ite (State.settleStores_keeps h) h

theorem State.releaseRun_keeps (scope : Nat) : RunOk State.memOk (s.releaseRun scope) :=
  (State.settleStores_keeps h).bind fun _ ht =>
    have hrel := State.releaseAt_wf ht _ scope
    (State.awaitRemoteWrites_keeps hrel scope).bind fun _ _ => hrel

theorem State.releaseIf_keeps (ord scope : Nat) : RunOk State.memOk (s.releaseIf ord scope) :=
  runOk_ite (State.releaseRun_keeps h scope) h

theorem State.beforeStore_keeps (ord chan : Nat) (cells : List Host.Cell) : RunOk State.memOk (s.beforeStore ord chan cells) :=
  runOk_ite (State.settleStores_keeps h) (State.beforeKeys_keeps h _)

theorem State.storeAll_keeps (ord scope cp chan : Nat) (cells : List Host.Cell) :
    RunOk State.memOk (s.storeAll ord scope cp chan cells) := by
  unfold State.storeAll
  split
  · refine (State.releaseIf_keeps h _ _).bind fun t ht => ?_
    split
    · exact runOk_ite ht ht
    · exact ht
  · refine runOk_ite (State.memOk_of_mem (State.storedCells_mem _ _) h) ((State.beforeStore_keeps h _ _ _).bind fun t ht => ?_)
    exact State.memOk_of_mem (State.storedCells_mem _ _) (State.performStores_wf ht _ _ _)

/-! ### Streams, and the words that read them (R94, R148) -/

theorem State.streamVals_keeps (z : Stream) : RunKeeps (s.streamVals z) := by
  unfold State.streamVals
  dsimp only
  split
  · next hc => exact (State.placeAll_keeps h _ _ _).error hc
  · split
    · next hc => exact (State.awaitRemote_keeps h _ _ _).error hc
    · trivial

theorem State.readStreams_keeps (zs : List Nat) : RunKeeps (s.readStreams zs) := by
  induction zs with
  | nil => trivial
  | cons z zs ih =>
    unfold State.readStreams
    split
    · next hc => exact (State.streamVals_keeps h _).error hc
    · split
      · next hc => exact ih.error hc
      · trivial

omit h in
@[simp] theorem State.passL1_mem (s : State) (zs : List Nat) : (s.passL1 zs).mem = s.mem := by
  induction zs generalizing s with
  | nil => rfl
  | cons z zs ih =>
    rw [State.passL1, ih]
    split
    · rw [State.sawBeyond_mem, State.walked_mem]
    · rfl

theorem State.runVR_keeps (ok fmt rgnw : Bool) (t : BitVec 3) (us : List Use) (body : VBody) :
    RunOk Ctl.memOk (s.runVR ok fmt rgnw t us body) := by
  unfold State.runVR
  split
  · next hc => exact (State.need_keeps h _ _).error hc
  · split
    · next hc => exact (State.need_keeps h _ _).error hc
    · split
      · next hc => exact (State.need_keeps h _ _).error hc
      · split
        · next hc => exact (State.readStreams_keeps h _).error hc
        · exact State.memOk_of_mem (s.passL1_mem _) h

theorem State.jump_keeps (t : DWord) : RunOk Ctl.memOk (s.jump t) := State.chk_then h fun _ _ => h

theorem State.branch_keeps (ok taken : Bool) (off : Word) : RunOk Ctl.memOk (s.branch ok taken off) :=
  State.need_then h (runOk_ite (State.jump_keeps h _) h)

theorem State.call_keeps (ok : Bool) (d : BitVec 6) (t : DWord) : RunOk Ctl.memOk (s.call ok d t) :=
  State.need_then h (State.need_then h (State.chk_then h fun _ _ => h))

theorem State.indirect_keeps (f : CB) : RunOk Ctl.memOk (s.indirect f) := State.need_then h (State.jump_keeps h _)

theorem State.toTriple_keeps (ok : Bool) (d : BitVec 6) (x : LaneSet) : RunOk Ctl.memOk (s.toTriple ok d x) :=
  State.need_then h (State.need_then h h)

theorem State.toScalar_keeps (ok : Bool) (d : BitVec 6) (x : Word) : RunOk Ctl.memOk (s.toScalar ok d x) :=
  State.need_then h (State.need_then h h)

theorem State.toPair_keeps (ok : Bool) (d : BitVec 6) (x : DWord) : RunOk Ctl.memOk (s.toPair ok d x) :=
  State.need_then h (State.need_then h h)

end

end Sys2Proof.Machine
end

section
/-! SUPPORT. The instructions of 07_memory_access.md keep memory in its canonical form (R144 to R156). -/

namespace Sys2Proof.Machine

open Sys2Proof

section
variable {s : State} (h : s.memOk)
include h

/-! ### Scalar and vector memory (R144, R145) -/

theorem execSld_ok (p : Option Pfx) (f : SM) : OutOk (execSld p f s) :=
  outOk_finish _ (State.need_then h (State.need_then h ((State.scalarKeys_keeps h _ _ _ _).bind fun _ _ =>
    (State.awaitRemote_keeps h _ _ _).bind fun _ _ =>
      State.acquireIf_memOk (State.sawBeyond_memOk (State.walked_memOk h _ _) _ _ _ _) _ _)))

theorem execSst_ok (p : Option Pfx) (f : SM) : OutOk (execSst p f s) :=
  outOk_finish _ (State.need_then h ((State.fitScalar_keeps h _ _).bind fun _ _ =>
    (State.accessAll_keeps h _ _ _ _).bind fun _ _ =>
      have hw := State.walked_memOk h (s.grp.eff p).space [⟨0, s.grp.smAddr f⟩]
      (State.checkChannel_keeps hw _ _ _ _).bind fun _ _ => (State.storeAll_keeps hw _ _ _ _ _).bind fun _ ht => ht))

theorem vecLoad_ok (ok block : Bool) (p : Option Pfx) (f : VM) : OutOk (vecLoad ok block p f s) :=
  outOk_finish _ (State.need_then h (State.need_then h ((State.accessAll_keeps h _ _ _ _).bind fun _ _ =>
    (State.awaitRemote_keeps h _ _ _).bind fun _ _ =>
      State.acquireIf_memOk (State.sawBeyond_memOk (State.walked_memOk h _ _) _ _ _ _) _ _)))

theorem vecStore_ok (ok block : Bool) (p : Option Pfx) (f : VM) : OutOk (vecStore ok block p f s) :=
  outOk_finish _ (State.need_then h ((State.accessAll_keeps h _ _ _ _).bind fun _ _ =>
    have hw := State.walked_memOk h (s.grp.eff p).space (s.grp.vmAccesses f block (s.grp.eff p).space (sizeOf f.sz))
    (State.checkChannel_keeps hw _ _ _ _).bind fun _ _ => (State.storeAll_keeps hw _ _ _ _ _).bind fun _ ht => ht))

/-! ### Streams (R147 to R150) -/

theorem execZset_ok (f : EX) : OutOk (execZset f s) :=
  outOk_finish _ (State.need_then h ((State.readRecord_keeps h _).bind fun ks _ =>
    have ht := State.sawBeyond_memOk (State.walked_memOk h 1 [⟨0, s.grp.rp f.a⟩]) s.grp.coreNo .l1 1 ks
    State.chk_then ht fun _ _ => State.need_then ht ht))

theorem execZsets_ok (f : EX) : OutOk (execZsets f s) := outOk_finish _ (State.need_then h h)

theorem execZrew_ok (f : EX) : OutOk (execZrew f s) := outOk_finish _ (State.need_then h h)

theorem execZposRead_ok (f : EX) : OutOk (execZposRead f s) := outOk_finish _ (State.toPair_keeps h _ _ _)

theorem execZposSet_ok (f : EX) : OutOk (execZposSet f s) := outOk_finish _ (State.need_then h h)

theorem execZposEnd_ok (f : EX) : OutOk (execZposEnd f s) := outOk_finish _ (State.toScalar_keeps h _ _ _)

/-! ### Caches and fences (R153, R154) -/

theorem execFence_ok (p : Option Pfx) (f : VM) : OutOk (execFence p f s) :=
  outOk_finish _ (State.need_then h ((State.releaseIf_keeps h _ _).bind fun _ ht =>
    State.ite_memOk (State.acquireAt_memOk ht _ _) ht))

theorem State.writeBackAt_memOk (scope line : Nat) : (s.writeBackAt scope line).memOk := by
  unfold State.writeBackAt
  dsimp only
  have hc := State.cleanLine_wf h s.grp.coreNo line
  split
  · exact State.memOk_of_mem (State.sendRemoteWrites_mem _ _) (State.flushHostOf_wf (by exact hc) _)
  · exact hc

theorem cacheLine_ok (ok leave : Bool) (p : Option Pfx) (f : VM) : OutOk (cacheLine ok leave p f s) :=
  outOk_finish _ (State.need_then h (runOk_ite h ((State.placeAll_keeps h _ _ _).bind fun ps _ =>
    (State.beforeLines_keeps (State.walked_memOk h _ _) _).bind fun t ht => by
      have hback := State.foldl_memOk (f := fun u n => u.writeBackAt (s.grp.eff p).scope n)
        (fun _ _ hu => State.writeBackAt_memOk hu _ _) ((ps.flatMap (·.2)).map lineOf).eraseDups ht
      exact State.ite_memOk (State.foldl_memOk (fun _ _ hu => State.evictL1_wf hu _ _) _ hback) hback)))

theorem State.fetchLine_memOk (fn pasid core cls prio line : Nat) (intoL1 : Bool) :
    (s.fetchLine fn pasid core cls prio line intoL1).memOk :=
  State.memOk_of_mem (congrArg Prod.snd (s.fetchLine_grpMem fn pasid core cls prio line intoL1)) h

theorem execPref_ok (p : Option Pfx) (f : VM) : OutOk (execPref p f s) :=
  outOk_finish _ (State.need_then h (State.foldl_memOk
    (fun t _ ht => State.memOk_of_mem (congrArg Prod.snd (t.prefetch_grpMem _ _ _ _)) ht) _ (State.walked_memOk h _ _)))

theorem State.servePrefs_memOk (ps : List Pref) : (s.servePrefs ps).memOk := by
  induction ps generalizing s with
  | nil => exact h
  | cons p ps ih =>
    unfold State.servePrefs
    refine ih ?_
    split
    · exact State.fetchLine_memOk h _ _ _ _ _ _ _
    · split
      · exact h
      · exact h
    · exact h

theorem State.servePrefsNow_memOk : s.servePrefsNow.memOk :=
  State.servePrefs_memOk (s := { s with prefs := [] }) h _

/-! ### Ordered channels (R155, R156) -/

theorem execChopen_ok (f : EX) : OutOk (execChopen f s) :=
  outOk_finish _ (State.need_then h (by
    dsimp only
    split
    · exact State.need_then h h
    · exact State.need_then h h))

theorem execChwait_ok (f : EX) : OutOk (execChwait f s) := outOk_finish _ (State.need_then h (runOk_ite h h))

theorem execChclose_ok (f : EX) : OutOk (execChclose f s) :=
  outOk_finish _ (State.need_then h (runOk_ite h (runOk_ite h h)))

theorem execChannelDrained_ok : OutOk (execChannelDrained s) :=
  outOk_withGroup h fun t ht => by
    split
    · next n close _ =>
      have hended (u : State) (hu : u.memOk) :
          OutOk (settle 1 (.done (if close then (u.drainChannel n).closeChannel n else u.drainChannel n))) := by
        have hd : (u.drainChannel n).memOk := State.memOk_of_mem (u.drainChannel_mem n) hu
        exact outOk_settle 1 (State.ite_memOk hd hd)
      exact outOk_ite (outOk_settleFirst ht hended) (hended t ht)
    · exact outOk_refused _

end

end Sys2Proof.Machine
end

section
/-! SUPPORT. Atomics, the ends of groups, barriers, boards and queue registers keep memory in its canonical form
(09_synchronisation.md, 11_engines_and_copies.md R197 to R203, 15_system_and_traps.md R279). -/

namespace Sys2Proof.Machine

open Sys2Proof

section
variable {s : State} (h : s.memOk)
include h

/-! ### Atomics and exact sums (R170 to R175) -/

theorem State.atomically_memOk (key n : Nat) (f : Nat → Nat) : (s.atomically key n f).1.memOk :=
  State.memOk_of_mem (State.mscKeep_mem _ _ _) (State.writeCoherent_wf (State.takeExclusive_wf h s.grp.coreNo key) key _)

theorem State.atomLanes_memOk (n : Nat) (f : Nat → Nat → Nat) (qs : List (Nat × List Nat)) : (s.atomLanes n f qs).1.memOk := by
  induction qs generalizing s with
  | nil => exact h
  | cons q qs ih => exact ih (State.atomically_memOk h _ _ _)

theorem State.holdAtomics_keeps (r : Region) (xs : List (Nat × Nat × Nat × BitVec 128)) :
    RunOk State.memOk (s.holdAtomics r xs) := by
  unfold State.holdAtomics
  split
  · exact runOk_ite h h
  · exact h

theorem State.releaseFirst_keeps (ord scope : Nat) (ks : List Nat) : RunOk State.memOk (s.releaseFirst ord scope ks) :=
  runOk_ite (State.releaseRun_keeps h _) (State.beforeKeys_keeps h _)

theorem State.orderHeld_keeps (ord scope : Nat) : RunOk State.memOk (s.orderHeld ord scope) :=
  (State.releaseIf_keeps h _ _).bind fun _ ht => State.acquireIf_memOk ht _ _

theorem State.atL2_memOk (ks : List Nat) (back : Bool) : (s.atL2 ks back).memOk :=
  State.memOk_of_mem (State.readMissed_mem _ _ _ _) h

theorem State.chooseOrder_memOk {α : Type} (xs : List α) : (s.chooseOrder xs).2.memOk := h

theorem execSatom_ok (p : Option Pfx) (f : VM) : OutOk (execSatom p f s) :=
  outOk_finish _ (State.need_then h (State.need_then h ((State.accessAll_keeps h _ _ _ _).bind fun ps _ => by
    have hw := State.walked_memOk h (s.grp.eff p).space [⟨0, s.grp.rp f.sb + atomOfs f⟩]
    dsimp only
    split
    · exact (State.orderHeld_keeps hw _ _).bind fun _ ht => (State.holdAtomics_keeps ht _ _).bind fun _ hu => hu
    · exact (State.releaseFirst_keeps hw _ _ _).bind fun t ht =>
        have h3 := State.acquireIf_memOk (State.atomically_memOk (State.atL2_memOk ht _ _) _ _ _) _ _
        State.ite_memOk h3 h3)))

theorem execVatom_ok (p : Option Pfx) (f : VM) : OutOk (execVatom p f s) :=
  outOk_finish _ (State.need_then h (State.need_then h ((State.accessAll_keeps h _ _ _ _).bind fun ps _ =>
    (State.releaseFirst_keeps (State.walked_memOk h _ _) _ _ _).bind fun _ ht =>
      runOk_done (State.onGrp_memOk (State.acquireIf_memOk (State.atomLanes_memOk (State.chooseOrder_memOk (State.atL2_memOk ht _ _) ps)
        _ _ _) _ _) _))))

theorem execFxadd_ok (p : Option Pfx) (f : VM) : OutOk (execFxadd p f s) :=
  outOk_finish _ (State.need_then h ((State.accessAll_keeps h _ _ _ _).bind fun ps _ => by
    have hw := State.walked_memOk h (s.grp.eff p).space
      ((lanesOf (s.grp.mask f.m)).map (fun l => (⟨l, s.grp.vmAddr f (atomOfs f) l⟩ : Access)))
    dsimp only
    split
    · exact (State.orderHeld_keeps hw _ _).bind fun _ ht => (State.holdAtomics_keeps ht _ _).bind fun _ hu => hu
    · exact (State.releaseFirst_keeps hw _ _ _).bind fun t ht =>
        State.acquireIf_memOk (State.atomLanes_memOk (State.atL2_memOk ht _ _) _ _ _) _ _))

theorem execFxrd_ok (p : Option Pfx) (f : VM) : OutOk (execFxrd p f s) :=
  outOk_finish _ (State.need_then h (State.need_then h ((State.accessAll_keeps h _ _ _ _).bind fun ps _ =>
    (State.releaseFirst_keeps (State.walked_memOk h _ _) _ _ _).bind fun t ht => by
      have h1 := State.atL2_memOk ht (ps.flatMap (·.2)) true
      refine State.acquireIf_memOk (s := Prod.fst (ite _ _ _)) ?_ _ _
      split
      · exact State.atomically_memOk h1 _ _ _
      · exact State.takeExclusive_wf h1 _ _)))

/-! ### The end of a phase (R176, R267) -/

theorem State.shiftBudget_memOk (last : Option Nat) (cs : List Nat) : (s.shiftBudget last cs).memOk := by
  induction cs generalizing s with
  | nil => exact h
  | cons c cs ih => exact ih (s := s.setMhz c _) h

theorem State.onBarrier_memOk (band inst bar : Nat) (f : Barrier → Barrier) : (s.onBarrier band inst bar f).memOk := h

theorem State.mapGroups_memOk (p : Group → Bool) (f : Group → Group) : (s.mapGroups p f).memOk := h

theorem State.onBand_memOk (band : Nat) (f : Band → Band) : (s.onBand band f).memOk := h

theorem State.endPhase_memOk (band inst bar : Nat) : (s.endPhase band inst bar).memOk := by
  unfold State.endPhase
  split
  · exact h
  · split
    · exact State.ite_memOk
        (State.shiftBudget_memOk (State.mapGroups_memOk (State.onBarrier_memOk h _ _ _ _) _ _) _ _) h
    · exact h

theorem State.endPhases_memOk (band inst : Nat) : (s.endPhases band inst).memOk :=
  State.foldl_memOk (fun _ _ ht => State.endPhase_memOk ht _ _ _) _ h

/-! ### The end of a group, a team, a band and a context (R74, R130, R279) -/

theorem State.dropPrivate_memOk (uid : Nat) : (s.dropPrivate uid).memOk := Memory.wf_filter _ h

theorem State.keepPrivate_memOk (uid : Nat) : (s.keepPrivate uid).memOk :=
  State.foldl_memOk (fun _ _ ht => State.evictL1_wf ht _ _) _ h

theorem State.leavesCore_memOk : s.leavesCore.memOk := State.keepPrivate_memOk h s.grp.id.uid

theorem State.finishStores_memOk : s.finishStores.memOk :=
  State.foldl_memOk (f := fun (t : State) (c : Nat × Nat) => t.dropOtherL2 t.grp.id.cluster c.2) (fun _ _ ht => ht)
    s.settleNow.grp.chanOpen (State.settleNow_memOk h)

theorem State.faultPushers_memOk (g : Group) : (s.faultPushers g).memOk :=
  State.foldl_memOk (fun t x ht => by
    split
    · exact State.ite_memOk (State.asGroup_memOk ht _ fun _ hu => State.takeTrap_wf hu _) ht
    · exact ht) _ h

theorem State.closeInst_memOk (band inst : Nat) : (s.closeInst band inst).memOk := State.ite_memOk h h

theorem State.endGroup_memOk (uid : Nat) (kill : Bool) : (s.endGroup uid kill).memOk := by
  unfold State.endGroup
  split
  · exact h
  · next g _ =>
    extract_lets ends s0 s1 s2 s3 s4
    have h0 : s0.memOk :=
      State.foldl_memOk (fun _ _ ht => State.asGroup_memOk ht _ fun _ => State.finishStores_memOk) ends h
    have h2 : s2.memOk := State.mapGroups_memOk (State.mapGroups_memOk h0 _ _) _ _
    have h3 : s3.memOk := State.foldl_memOk (fun _ _ ht => State.dropPrivate_memOk ht _) _ (State.dropPrivate_memOk h2 uid)
    have h4 : s4.memOk := h3
    exact State.closeInst_memOk (State.endPhases_memOk (State.faultPushers_memOk h4 g) _ _) _ _

theorem State.killGroups_memOk (us : List Nat) : (s.killGroups us).memOk := by
  induction us generalizing s with
  | nil => exact h
  | cons u us ih => exact ih (State.endGroup_memOk h u true)

theorem State.killTeam_memOk (band inst : Nat) : (s.killTeam band inst).memOk := State.killGroups_memOk (by exact h) _

theorem State.killBand_memOk (band : Nat) : (s.killBand band).memOk := by
  unfold State.killBand
  split
  · exact h
  · exact State.foldl_memOk (f := fun t (i : Inst) => t.killTeam band i.k) (fun _ _ ht => State.killTeam_memOk ht _ _) _ h

theorem State.killContext_memOk (ctx : Nat) : (s.killContext ctx).memOk :=
  State.foldl_memOk (f := fun t (b : Band) => t.killBand b.uid) (fun _ _ ht => State.killBand_memOk ht _) _ h

theorem State.killRecorded_memOk (ctx : Nat) : (s.killRecorded ctx).memOk := State.ite_memOk h (State.killContext_memOk h _)

theorem State.trapAll_memOk (t : Trap) (us : List Nat) : (s.trapAll t us).memOk := by
  induction us generalizing s with
  | nil => exact h
  | cons u us ih => exact ih (State.asGroup_memOk h u fun _ hx => State.takeTrap_wf hx t)

theorem State.killIfDue_memOk (c : Cause) : (s.killIfDue c).memOk := State.ite_memOk (State.killContext_memOk h _) h

theorem State.faultRecord_memOk (ctx : Nat) (bytes : List Byte) : (s.faultRecord ctx bytes).memOk := State.faultRecord_wf h _ _

/-! ### Barriers (R176 to R182) -/

theorem State.enterPhase_memOk (bar : Nat) : (s.enterPhase bar).memOk :=
  State.endPhase_memOk (State.onBarrier_memOk (State.onGrp_memOk h _) _ _ _ _) _ _ _

theorem State.arriveBar_keeps (bar : Nat) : RunOk State.memOk (s.arriveBar bar) :=
  (State.releaseRun_keeps h _).bind fun _ ht => runOk_pure (State.enterPhase_memOk ht bar)

theorem State.passBar_memOk (bar : Nat) : (s.passBar bar).memOk := State.onGrp_memOk (State.acquireAt_memOk h _ _) _

theorem State.waitBar_keeps (bar : Nat) : RunOk State.memOk (s.waitBar bar) := by
  unfold State.waitBar
  split
  · exact h
  · exact runOk_ite (State.passBar_memOk h bar) h

theorem State.arriveAndWait_keeps (bar : Nat) : RunOk State.memOk (s.arriveAndWait bar) :=
  runOk_ite (State.waitBar_keeps h _) ((State.arriveBar_keeps h _).bind fun _ ht => State.waitBar_keeps ht _)

theorem execBart_ok (f : EX) : OutOk (execBart f s) :=
  outOk_finish _ (State.need_then h ((State.arriveAndWait_keeps h _).bind fun _ ht => ht))

theorem execBara_ok (f : EX) : OutOk (execBara f s) :=
  outOk_finish _ (State.need_then h ((State.waitBar_keeps h _).bind fun _ ht => (State.arriveBar_keeps ht _).bind fun _ hu => hu))

theorem execBarw_ok (f : EX) : OutOk (execBarw f s) :=
  outOk_finish _ (State.need_then h ((State.waitBar_keeps h _).bind fun _ ht => ht))

theorem execBarb_ok (f : EX) : OutOk (execBarb f s) :=
  outOk_finish _ (State.need_then h ((State.arriveAndWait_keeps h _).bind fun _ ht => ht))

theorem execBarrierWatchdogExpiry_ok : OutOk (execBarrierWatchdogExpiry s) := by
  unfold execBarrierWatchdogExpiry
  split
  · split
    · split
      · exact outOk_ite (outOk_next (State.killRecorded_memOk
          (State.onBarrier_memOk (State.trapAll_memOk (State.faultRecord_memOk h _ _) _ _) _ _ _ _) _)) (outOk_refused _)
      · exact outOk_refused _
    · exact outOk_refused _
  · exact outOk_refused _

theorem State.onScratchBar_memOk (key : Nat) (f : ScratchBar → ScratchBar) : (s.onScratchBar key f).memOk :=
  Memory.wf_setMany h _ _

theorem State.sbKey_keeps (f : EX) (nd : Need) : RunKeeps (s.sbKey f nd) :=
  (State.accessAll_keeps h _ _ _ _).bind fun _ _ => trivial

theorem execSbinit_ok (f : EX) : OutOk (execSbinit f s) :=
  outOk_finish _ (State.need_then h ((State.sbKey_keeps h _ _).bind fun _ _ => (State.beforeKeys_keeps h _).bind fun _ ht =>
    runOk_done (State.onGrp_memOk (State.onScratchBar_memOk ht _ _) _)))

theorem execSbarv_ok (f : EX) : OutOk (execSbarv f s) :=
  outOk_finish _ (State.need_then h ((State.sbKey_keeps h _ _).bind fun _ _ => (State.releaseRun_keeps h _).bind fun _ ht =>
    runOk_done (State.onGrp_memOk (State.onScratchBar_memOk ht _ _) _)))

theorem State.sbReturn_memOk (d : BitVec 6) (key : Nat) : (s.sbReturn d key).memOk :=
  State.onGrp_memOk (State.acquireAt_memOk h _ _) _

theorem execSbwait_ok (f : EX) : OutOk (execSbwait f s) :=
  outOk_finish _ (State.need_then h (State.need_then h ((State.sbKey_keeps h _ _).bind fun _ _ =>
    (State.beforeKeys_keeps h _).bind fun _ ht => runOk_ite (State.sbReturn_memOk ht _ _) ht)))

theorem execSbwaitRelease_ok : OutOk (execSbwaitRelease s) :=
  outOk_withGroup h fun t ht => by
    split
    · exact outOk_ite (outOk_settle 1 (State.sbReturn_memOk ht _ _)) (outOk_refused _)
    · exact outOk_refused _

theorem State.pollRead_keeps (p : Option Pfx) (f : EX) : RunOk (fun x => x.2.memOk) (s.pollRead p f) :=
  (State.fitScalar_keeps h _ _).bind fun _ _ => (State.accessAll_keeps h _ _ _ _).bind fun _ _ =>
    (State.awaitRemote_keeps h _ _ _).bind fun _ _ => State.sawBeyond_memOk (State.walked_memOk h _ _) _ _ _ _

omit h in
theorem pollAgain_keeps {α : Type} {P : α → Prop} (p : Option Pfx) (f : EX) (since : Nat) {x : Run α} (hx : RunOk P x) :
    RunOk P (pollAgain p f since x) := by
  unfold pollAgain
  split
  · exact hx
  · exact hx
  · exact hx

theorem State.poll_keeps (p : Option Pfx) (f : EX) (since : Nat) : RunOk Ctl.memOk (s.poll p f since) :=
  (pollAgain_keeps p f since (State.pollRead_keeps h p f)).bind fun _ hx =>
    runOk_ite (runOk_done (State.onGrp_memOk (State.acquireIf_memOk hx _ _) _)) hx

theorem execWaitv_ok (p : Option Pfx) (f : EX) : OutOk (execWaitv p f s) :=
  outOk_finish _ (State.need_then h (State.need_then h (State.poll_keeps h _ _ _)))

theorem execWaitvRecheck_ok : OutOk (execWaitvRecheck s) :=
  outOk_withGroup h fun t ht => by
    split
    · exact outOk_finish _ (State.poll_keeps ht _ _ _)
    · exact outOk_refused _

theorem execWaitvTimeout_ok : OutOk (execWaitvTimeout s) :=
  outOk_withGroup h fun t ht => by
    split
    · exact outOk_ite (outOk_finish _ (State.poll_keeps ht _ _ _)) (outOk_refused _)
    · exact outOk_refused _

/-! ### The notice board (R184 to R187) -/

theorem State.useBoard_keeps (idx right : Nat) : RunKeeps (s.useBoard idx right) := by
  unfold State.useBoard
  split
  · exact h
  · split
    · exact runOk_ite trivial h
    · exact h

theorem State.slotOf_keeps (f : EX) (right : Nat) : RunKeeps (s.slotOf f right) :=
  (State.useBoard_keeps h _ _).bind fun _ _ => State.need_then h trivial

theorem execBatt_ok (f : EX) : OutOk (execBatt f s) :=
  outOk_finish _ (State.need_then h ((State.slotOf_keeps h _ _).bind fun _ _ => State.need_then h h))

theorem execBpost_ok (f : EX) : OutOk (execBpost f s) :=
  outOk_finish _ (State.need_then h ((State.slotOf_keeps h _ _).bind fun _ _ => State.need_then h (State.need_then h
    ((State.releaseRun_keeps h _).bind fun _ ht => ht))))

theorem State.bpostDone_memOk (f : EX) (view : BitVec 256) (number level : Word) : (s.bpostDone f view number level).memOk :=
  State.onGrp_memOk (State.acquireAt_memOk h _ _) _

theorem execBpostReturn_ok : OutOk (execBpostReturn s) :=
  outOk_withGroup h fun t ht => by
    split
    · exact outOk_settle 1 (State.bpostDone_memOk ht _ _ _ _)
    · exact outOk_refused _

theorem execBread_ok (f : EX) : OutOk (execBread f s) :=
  outOk_finish _ (State.need_then h (State.need_then h ((State.slotOf_keeps h _ _).bind fun _ _ =>
    runOk_done (State.onGrp_memOk (State.acquireAt_memOk h _ _) _))))

theorem execBdet_ok (f : EX) : OutOk (execBdet f s) :=
  outOk_finish _ (State.need_then h ((State.slotOf_keeps h _ _).bind fun _ _ => State.need_then h h))

theorem execBvseg_ok (f : EX) : OutOk (execBvseg f s) := outOk_finish _ (State.toTriple_keeps h _ _ _)

theorem execBvcmp_ok (f : EX) : OutOk (execBvcmp f s) := outOk_finish _ (State.toScalar_keeps h _ _ _)

/-! ### Queue registers and mailboxes (R198 to R203) -/

theorem State.qfault_then {q : BitVec 4} {ok : Bool} {f : Unit → Run Ctl} (hf : RunOk Ctl.memOk (f ())) :
    RunOk Ctl.memOk (s.qfault q ok >>= f) := State.chk_then h fun _ _ => hf

theorem execQbind_ok (f : EX) : OutOk (execQbind f s) := outOk_finish _ (State.need_then h (State.qfault_then h h))

theorem State.tryPush_keeps (q : BitVec 4) (value : DWord) : RunOk Ctl.memOk (s.tryPush q value) := by
  unfold State.tryPush
  split
  · exact h
  · exact runOk_ite ((State.releaseRun_keeps h _).bind fun _ ht => ht) h

theorem execQpush_ok (f : EX) : OutOk (execQpush f s) := outOk_finish _ (State.need_then h (State.tryPush_keeps h _ _))

theorem execQpushRoom_ok : OutOk (execQpushRoom s) :=
  outOk_withGroup h fun t ht => by
    split
    · split
      · exact outOk_ite (outOk_finish _ (State.tryPush_keeps ht _ _)) (outOk_refused _)
      · exact outOk_finish _ (State.tryPush_keeps ht _ _)
    · exact outOk_refused _

theorem State.takeHead_memOk (q : Nat) : (s.takeHead q).memOk :=
  State.onGrp_memOk (State.onGrp_memOk (State.acquireAt_memOk h _ _) _) _

theorem State.popTo_memOk (d : BitVec 6) (q : Nat) : (s.popTo d q).memOk := State.onGrp_memOk (State.takeHead_memOk h q) _

theorem execQpop_ok (f : EX) : OutOk (execQpop f s) :=
  outOk_finish _ (State.need_then h (State.qfault_then h (runOk_ite h (State.popTo_memOk h _ _))))

theorem execQpopEntry_ok : OutOk (execQpopEntry s) :=
  outOk_withGroup h fun t ht => by
    split
    · exact outOk_ite (outOk_refused _) (outOk_settle 1 (State.popTo_memOk ht _ _))
    · exact outOk_refused _

theorem execQtry_ok (f : EX) : OutOk (execQtry f s) :=
  outOk_finish _ (State.need_then h (State.qfault_then h (runOk_ite h (runOk_done (State.onGrp_memOk (State.popTo_memOk h _ _) _)))))

theorem execQstat_ok (f : EX) : OutOk (execQstat f s) := outOk_finish _ (State.toScalar_keeps h _ _ _)

end

end Sys2Proof.Machine
end

section
/-! SUPPORT. The copy engines and the matrix unit keep memory in its canonical form (11_engines_and_copies.md R204 to R217,
12_matrix.md R219 to R238). -/

namespace Sys2Proof.Machine

open Sys2Proof

/-! ### What reads and marks of the engines leave alone -/

@[simp] theorem State.engineReads_mem (s : State) (c : CopyCmd) (qs : List (DWord × Nat)) : (s.engineReads c qs).mem = s.mem :=
  (State.countL2_mem _ _ _ _ _).trans (State.walkVas_mem _ _ _ _)

@[simp] theorem State.engineTries_mem (s : State) (c : CopyCmd) (qs : List (DWord × Nat)) (e : CopyStop) :
    (s.engineTries c qs e).mem = s.mem := by
  cases e with
  | cause k => exact s.engineReads_mem c qs
  | host v => exact s.walkVas_mem _ _ _

@[simp] theorem State.copyStop_mem (s : State) (c : CopyCmd) (n : Nat) (e : CopyStop) : (s.copyStop c n e).mem = s.mem := by
  cases e with
  | cause k => rfl
  | host v => exact s.askHost_mem _ _ _

@[simp] theorem State.tagLines_mem (s : State) (c : CopyCmd) (code : Nat) (keys ls : List Nat) :
    (s.tagLines c code keys ls).mem = s.mem := by
  induction ls generalizing s with
  | nil => rfl
  | cons l ls ih =>
    rw [State.tagLines, ih]
    repeat' split
    all_goals simp

@[simp] theorem State.acquireEngine_mem (s : State) (c : CopyCmd) : (s.acquireEngine c).mem = s.mem := by
  unfold State.acquireEngine
  split <;> rfl

@[simp] theorem State.copyAccept_mem (s : State) (c : CopyCmd) : (s.copyAccept c).mem = s.mem := by
  unfold State.copyAccept
  split <;> rfl

@[simp] theorem State.deliverToken_mem (s : State) (c : CopyCmd) (token : DWord) : (s.deliverToken c token).mem = s.mem := by
  unfold State.deliverToken
  split
  · rfl
  · dsimp only
    repeat' split
    all_goals rfl

@[simp] theorem State.subFault_mem (s : State) (c : CopyCmd) (status cause : Nat) : (s.subFault c status cause).mem = s.mem := by
  unfold State.subFault
  split <;> rfl

@[simp] theorem State.walkDests_mem (s : State) (c : CopyCmd) (p : CopyPlan) (is : List Nat) : (s.walkDests c p is).mem = s.mem :=
  s.walkVas_mem _ _ _

@[simp] theorem State.copyPlan_mem (s : State) (c : CopyCmd) : (s.copyPlan c).mem = s.mem := by
  unfold State.copyPlan
  dsimp only
  split
  · rw [State.copyStop_mem, State.engineTries_mem, State.acquireEngine_mem]
  · exact (State.engineReads_mem _ _ _).trans (State.acquireEngine_mem _ _)

@[simp] theorem State.nextShard_mem (s : State) (c : CopyCmd) (p : CopyPlan) : (s.nextShard c p).mem = s.mem := by
  unfold State.nextShard
  split
  · rw [State.copyStop_mem, State.engineTries_mem]
  · exact State.engineReads_mem _ _ _

section
variable {s : State} (h : s.memOk)
include h

/-! ### Copy commands (R199, R206, R209) -/

theorem State.engineWrite_memOk (cluster key : Nat) (x : Byte) : (s.engineWrite cluster key x).memOk :=
  State.ite_memOk (State.writeL2Byte_wf h _ _ _) (Memory.wf_set h _ _)

theorem State.engineWrites_memOk (cluster : Nat) (cs : List Host.Cell) : (s.engineWrites cluster cs).memOk := by
  induction cs generalizing s with
  | nil => exact h
  | cons c cs ih => exact ih (State.engineWrite_memOk h _ _ _)

theorem State.setCopy_memOk (c : CopyCmd) : (s.setCopy c).memOk := h

theorem State.countLanded_memOk (c : CopyCmd) (n : Nat) : (s.countLanded c n).memOk :=
  State.ite_memOk h (State.onScratchBar_memOk h _ _)

theorem State.copyRelease_memOk (c : CopyCmd) : (s.copyRelease c).memOk := by
  have h1 : (s.invalidateStale c.cluster c.relScope).memOk := State.memOk_of_mem (s.invalidateStale_mem _ _) h
  exact State.ite_memOk (State.ite_memOk (State.flushHost_wf h1) h1) h

theorem State.releaseLast_memOk (c : CopyCmd) : (s.releaseLast c).memOk := State.ite_memOk (State.copyRelease_memOk h c) h

theorem State.landOne_memOk (c : CopyCmd) (p : CopyPlan) : (s.landOne c p).memOk := by
  unfold State.landOne
  split
  next first n hn =>
    extract_lets is
    split
    · exact State.memOk_of_mem (by rw [State.copyStop_mem, State.walkDests_mem, State.engineTries_mem]) h
    · extract_lets keys s0 s1 s2 q c1
      have h0 : s0.memOk := State.memOk_of_mem (by rw [State.noteOrigin_mem, State.walkDests_mem, State.engineReads_mem]) h
      have h1 : s1.memOk := State.engineWrites_memOk (State.memOk_of_mem (State.wroteLines_mem _ _ _ _) h0) _ _
      have h2 : s2.memOk := State.memOk_of_mem (State.tagLines_mem _ _ _ _ _) h1
      have h3 := State.countLanded_memOk (State.releaseLast_memOk h2 c1) c n
      exact State.setCopy_memOk (State.memOk_of_mem (State.countEvent_mem _ _ _ _) h3) _

theorem State.landGranule_memOk (c : CopyCmd) (p : CopyPlan) : (s.landGranule c p).memOk :=
  State.ite_memOk (State.memOk_of_mem (s.nextShard_mem c p) h) (State.landOne_memOk h c p)

theorem State.copyPlan_memOk (c : CopyCmd) : (s.copyPlan c).memOk := State.memOk_of_mem (s.copyPlan_mem c) h

theorem execCopyCommandStart_ok : OutOk (execCopyCommandStart s) := by
  unfold execCopyCommandStart
  split
  · split
    · next c _ =>
      have h1 (d : CopyCmd) : ((s.copyAccept c).setCopy d).memOk := State.memOk_of_mem (s.copyAccept_mem c) h
      exact outOk_ite (outOk_next (State.copyPlan_memOk (h1 _) _)) (outOk_refused _)
    · exact outOk_refused _
  · exact outOk_refused _

theorem execGranuleLand_ok : OutOk (execGranuleLand s) := by
  unfold execGranuleLand
  split
  · split
    · split
      · exact outOk_ite (outOk_next (State.landGranule_memOk h _ _)) (outOk_refused _)
      · exact outOk_ite (outOk_next (State.copyPlan_memOk h _)) (outOk_refused _)
    · exact outOk_refused _
  · exact outOk_refused _

theorem execCopyToken_ok : OutOk (execCopyToken s) := by
  unfold execCopyToken
  split
  · split
    · next c _ =>
      split
      · refine outOk_ite (outOk_refused _) (outOk_next ?_)
        exact State.memOk_of_mem (s := s.copyRelease c) ((State.subFault_mem _ _ _ _).trans (State.deliverToken_mem _ _ _))
          (State.copyRelease_memOk h c)
      · exact outOk_refused _
    · exact outOk_refused _
  · exact outOk_refused _

/-! ### The copy instructions (R210 to R216) -/

theorem State.engineAcquire_memOk (acq : Bool) (scope : Nat) : (s.engineAcquire acq scope).memOk := by
  unfold State.engineAcquire
  have hrel := State.releaseAt_wf h s.grp.coreNo (max 3 scope)
  split
  · exact State.ite_memOk (State.memOk_of_mem (State.sendRemoteWrites_mem _ _) hrel) hrel
  · exact State.ite_memOk (State.onGrp_memOk (State.cleanCore_wf h _) _) h

theorem State.pushCopy_memOk (p : Option Pfx) (f : EX) (form : CopyForm) (bar : Word) (link : Nat × Nat) :
    (s.pushCopy p f form bar link).memOk := State.engineAcquire_memOk h (acquires (s.grp.eff p).ord) (s.grp.eff p).scope

theorem State.tryCopy_keeps (op : CopyOp) (p : Option Pfx) (f : EX) : RunOk Ctl.memOk (s.tryCopy op p f) := by
  unfold State.tryCopy
  split
  · exact h
  · split
    · exact h
    · exact runOk_ite (State.pushCopy_memOk h _ _ _ _ _) h

theorem copyInstr_ok (ok : Bool) (op : CopyOp) (p : Option Pfx) (f : EX) : OutOk (copyInstr ok op p f s) :=
  outOk_finish _ (State.need_then h (State.tryCopy_keeps h op p f))

theorem execCopyIssueUnblock_ok : OutOk (execCopyIssueUnblock s) :=
  outOk_withGroup h fun t ht => by
    split
    · split
      · exact outOk_refused _
      · exact outOk_finish _ (State.tryCopy_keeps ht _ _ _)
    · exact outOk_refused _

/-! ### The matrix unit's events (R219 to R236) -/

theorem State.takeMx_keeps (owner t : Nat) : RunOk State.memOk (s.takeMx owner t) := by
  unfold State.takeMx
  split
  · exact h
  · exact runOk_ite h (runOk_ite h h)

theorem State.takeMxAll_keeps (qs : List (Nat × Nat)) : RunOk State.memOk (s.takeMxAll qs) := by
  induction qs generalizing s with
  | nil => exact h
  | cons q qs ih =>
    unfold State.takeMxAll
    split
    · next e => exact ih ((State.takeMx_keeps h _ _).ok e)
    · next e => exact (State.takeMx_keeps h _ _).error e

theorem State.mxWalk_memOk (qs : List (DWord × Nat)) : (s.mxWalk qs).memOk := State.memOk_of_mem (s.walkVas_mem _ _ _) h

theorem State.pick_memOk {α : Type} (xs : List α) : (s.pick xs).2.memOk := by
  unfold State.pick
  split
  · exact h
  · exact h

theorem State.mxFill_memOk (cp : BitVec 3) (u : MxUnit) (lines : List Nat) : (s.mxFill cp u lines).memOk := by
  have h2 : ((s.mxWalk [(u.loc, 0)]).countL2 s.grp.id.fn s.grp.id.cluster false lines).memOk :=
    State.memOk_of_mem (State.countL2_mem _ _ _ _ _) (State.mxWalk_memOk h _)
  unfold State.mxFill
  dsimp only
  split
  · exact State.foldl_memOk (fun t n ht => State.memOk_of_mem (t.fillL2_mem _ _ _ _) ht) _ (by exact h2)
  · exact h2

theorem State.fetchUnit_memOk (t : Nat) (c : MxCmd) {u : State} (e : s.fetchUnit t c = some u) : u.memOk := by
  have h1 := State.pick_memOk h c.lacking
  rw [State.fetchUnit] at e
  -- what a fetch gives is of no account here, and too long for the kernel to evaluate: it is made opaque
  obtain ⟨fetch, hfetch⟩ : ∃ fetch, fetch = State.mxFetch := ⟨_, rfl⟩
  rw [← hfetch] at e
  split at e
  next pick s1 hp =>
    rw [hp] at h1
    split at e
    · cases e
    · split at e
      · exact Option.some.inj e ▸ State.onGrp_memOk (State.mxFill_memOk h1 _ _ _) _
      · split at e
        · exact Option.some.inj e ▸ State.onGrp_memOk (State.mxWalk_memOk h1 _) _
        · cases e

theorem outOk_withHead {row : String} {k : State → Nat → MxCmd → Out} (hk : ∀ (t : State) n c, t.memOk → OutOk (k t n c)) :
    OutOk (withHead row s k) := by
  unfold withHead
  split
  · split
    · exact outOk_fault _
    · next t ht =>
      split
      · exact outOk_ite (hk _ _ _ (State.focus_memOk h ht)) (outOk_refused _)
      · exact outOk_refused _
  · exact outOk_refused _

theorem execTileFetch_ok : OutOk (execTileFetch s) :=
  outOk_withHead h fun t n c ht => by
    refine outOk_ite ?_ (outOk_refused _)
    split
    · next e => exact outOk_next (State.fetchUnit_memOk ht n c e)
    · exact outOk_refused _

theorem execKstepStart_ok : OutOk (execKstepStart s) :=
  outOk_withHead h fun _ _ _ ht => outOk_ite (outOk_next ht) (outOk_refused _)

theorem execKstepComplete_ok : OutOk (execKstepComplete s) :=
  outOk_withHead h fun _ _ _ ht => by
    split
    · exact outOk_ite (outOk_next ht) (outOk_refused _)
    · exact outOk_refused _

theorem execMzeroPerform_ok : OutOk (execMzeroPerform s) :=
  outOk_withHead h fun _ _ _ ht => outOk_ite (outOk_next ht) (outOk_refused _)

theorem State.mstRows_memOk (t : Nat) (c : MxCmd) (o : MstOut) (is : List Nat) : (s.mstRows t c o is).1.memOk := by
  induction is generalizing s with
  | nil => exact h
  | cons i is ih =>
    unfold State.mstRows
    extract_lets row u
    have hu : u.memOk := State.mxWalk_memOk h _
    split
    · exact ih (State.onGrp_memOk (State.engineWrites_memOk (State.memOk_of_mem (State.wroteLines_mem _ _ _ _) (by exact hu)) _ _) _)
    · exact hu
    · exact hu

theorem State.mstDone_memOk (t : Nat) (c : MxCmd) : (s.mstDone t c).memOk := by
  unfold State.mstDone
  extract_lets s1 s2
  have h1 : s1.memOk := State.ite_memOk (State.memOk_of_mem (s.invalidateStale_mem _ _) h) h
  exact State.onGrp_memOk (State.ite_memOk (State.flushHost_wf h1) h1) _

theorem State.mstWritten_ok (t : Nat) (c : MxCmd) : OutOk (s.mstWritten t c) :=
  outOk_ite
    (outOk_ite (outOk_next (State.memOk_of_mem (s.sendRemoteWrites_mem _) h))
      (outOk_remoteFirst h (outOk_next (State.mstDone_memOk h t c))))
    (outOk_next (State.mstDone_memOk h t c))

theorem execMstPerform_ok : OutOk (execMstPerform s) :=
  outOk_withHead h fun t n c ht => by
    refine outOk_ite ?_ (outOk_refused _)
    have hrows := State.mstRows_memOk (s := t.acquiredHead n) ht n c (.ofWord (c.op 3)) ((List.range 128).drop c.done)
    split
    · next e => exact State.mstWritten_ok (by rw [e] at hrows; exact hrows) n c
    · next e => exact outOk_next (by rw [e] at hrows; exact hrows)
    · next e =>
      rw [e] at hrows
      exact outOk_ite (outOk_next hrows) (outOk_next (State.onGrp_memOk (State.memOk_of_mem (State.askHost_mem _ _ _ _) hrows) _))
    · next e => exact outOk_next (by rw [e] at hrows; exact hrows)

/-! ### The matrix instructions (R232 to R238) -/

theorem State.pushMx_memOk (d : Option (BitVec 6)) (c : MxCmd) : (s.pushMx d c).memOk :=
  State.onGrp_memOk (State.engineAcquire_memOk h _ _) _

theorem State.queueOrWait_memOk (len : Nat) (d : Option (BitVec 6)) (c : MxCmd) : (s.queueOrWait len d c).memOk := by
  unfold State.queueOrWait
  split
  · exact State.pushMx_memOk h d c
  · exact h

theorem State.tryMx_keeps (len : Nat) (d : Option (BitVec 6)) (c : MxCmd) : RunOk Ctl.memOk (s.tryMx len d c) := by
  unfold State.tryMx
  split
  · next e => exact State.queueOrWait_memOk ((State.takeMx_keeps h _ _).ok e) _ _ _
  · next e => exact (State.takeMx_keeps h _ _).error e

theorem State.readBlock_memOk (c : MxCmd) (a : DWord) (ks : List Nat) : (s.readBlock c a ks).memOk :=
  State.memOk_of_mem (State.allocLoad_mem _ _ _ _ _) (State.memOk_of_mem (State.readMissed_mem _ _ _ _)
    (State.walked_memOk (by exact h) 1 [⟨0, a⟩]))

theorem execMloop_ok (p : Option Pfx) (f : EX) : OutOk (execMloop p f s) :=
  outOk_finish _ (State.need_then h (State.need_then h ((State.takeMx_keeps h _ _).bind fun _ ht =>
    (State.accessAll_keeps ht _ _ _ _).bind fun _ _ => (State.awaitRemote_keeps ht _ _ _).bind fun _ _ =>
      have hb (c : MxCmd) (a : DWord) (ks : List Nat) := State.readBlock_memOk ht c a ks
      State.need_then (hb _ _ _) (State.need_then (hb _ _ _) (State.chk_then (hb _ _ _) fun _ _ =>
        State.chk_then (hb _ _ _) fun _ _ => State.need_then (hb _ _ _) (runOk_pure (State.queueOrWait_memOk (hb _ _ _) _ _ _)))))))

theorem execMzero_ok (f : EX) : OutOk (execMzero f s) :=
  outOk_finish _ (State.need_then h (State.need_then h ((State.takeMx_keeps h _ _).bind fun _ ht =>
    runOk_pure (State.queueOrWait_memOk ht _ _ _))))

theorem State.mxLine_keeps (f : EX) (rgnw : Bool) : RunOk State.memOk (s.mxLine f rgnw) :=
  State.need_then h (State.need_then h ((State.takeMx_keeps h _ _).bind fun _ ht => runOk_ite ht ht))

theorem execMrd_ok (f : EX) : OutOk (execMrd f s) :=
  outOk_finish _ ((State.mxLine_keeps h _ _).bind fun _ ht => runOk_done (State.onGrp_memOk ht _))

theorem execMwr_ok (f : EX) : OutOk (execMwr f s) :=
  outOk_finish _ ((State.mxLine_keeps h _ _).bind fun _ ht => runOk_done (State.onGrp_memOk ht _))

theorem execMst_ok (p : Option Pfx) (f : EX) : OutOk (execMst p f s) :=
  outOk_finish _ (State.need_then h (State.need_then h ((State.takeMx_keeps h _ _).bind fun _ ht =>
    State.need_then ht (State.chk_then ht fun _ _ => State.chk_then ht fun _ _ => State.need_then ht
      (runOk_pure (State.queueOrWait_memOk ht _ _ _))))))

theorem State.mwaitReturn_memOk (f : EX) : (s.mwaitReturn f).memOk := State.onGrp_memOk (State.acquireAt_memOk h _ _) _

theorem State.mwait_keeps (f : EX) : RunOk Ctl.memOk (s.mwait f) :=
  (State.takeMxAll_keeps h _).bind fun _ ht => runOk_ite (runOk_done (State.mwaitReturn_memOk ht f)) ht

theorem execMwait_ok (f : EX) : OutOk (execMwait f s) := outOk_finish _ (State.need_then h (State.mwait_keeps h f))

theorem execMwaitDone_ok : OutOk (execMwaitDone s) :=
  outOk_withGroup h fun t ht => by
    split
    · split
      · exact outOk_refused _
      · exact outOk_finish _ (State.mwait_keeps ht _)
    · exact outOk_refused _

theorem execMstat_ok (f : EX) : OutOk (execMstat f s) :=
  outOk_finish _ (State.need_then h (State.need_then h (runOk_done (State.onGrp_memOk h _))))

end

end Sys2Proof.Machine
end

section
/-! SUPPORT. Helpers, regions, the eviction and reload of harvest groups, and the ends and waits of a group's own keep memory in its
canonical form (13_helpers.md R239 to R250, 14_harvest_regions.md R253 to R270, 03_control.md R74 to R77). -/

namespace Sys2Proof.Machine

open Sys2Proof

theorem Ctl.memOk_done {s : State} (h : s.memOk) : (Ctl.done s).memOk := h

theorem Ctl.memOk_goto {s : State} {a : DWord} (h : s.memOk) : (Ctl.goto a s).memOk := h

section
variable {s : State} (h : s.memOk)
include h

/-! ### Helpers (R239 to R250) -/

theorem State.grantHelpers_memOk (entry : DWord) (n k : Nat) : (s.grantHelpers entry n k).2.memOk := by
  induction n generalizing s k with
  | zero => exact h
  | succ n ih =>
    unfold State.grantHelpers
    split
    · exact h
    · exact ih (by exact h) _

theorem execRcrt_ok (f : EX) : OutOk (execRcrt f s) :=
  outOk_finish _ (State.need_then h (State.need_then h (State.chk_then h fun _ _ => State.chk_then h fun _ _ =>
    State.chk_then h fun _ _ => runOk_ite h (runOk_ite h ((State.releaseRun_keeps h _).bind fun _ ht =>
      runOk_done (State.onGrp_memOk (State.grantHelpers_memOk ht _ _ _) _))))))

theorem State.wake_memOk (core : Nat) (first : List (Nat × Nat)) : (s.wake core first).memOk := State.ite_memOk h h

theorem execHelperStart_ok : OutOk (execHelperStart s) :=
  outOk_withGroup h fun _ ht =>
    outOk_ite (outOk_next (State.onGrp_memOk (State.acquireAt_memOk (State.wake_memOk ht _ _) _ _) _)) (outOk_refused _)

theorem execHnext_ok (f : EX) : OutOk (execHnext f s) :=
  outOk_finish _ (State.need_then h (State.need_then h (by
    split
    · exact h
    · exact h)))

theorem execHrd_ok (f : EX) : OutOk (execHrd f s) :=
  outOk_finish _ (State.need_then h (State.need_then h (by
    split
    · exact h
    · exact runOk_ite h h)))

theorem State.endHelper_memOk (u : Nat) : (s.endHelper u).memOk := State.dropPrivate_memOk (by exact h) _

theorem execHend_ok (f : EX) : OutOk (execHend f s) :=
  outOk_finish _ (State.need_then h (by
    split
    · exact (State.releaseRun_keeps h _).bind fun _ ht => runOk_pure (State.endHelper_memOk ht _)
    · exact h))

theorem execHrel_ok (f : EX) : OutOk (execHrel f s) := outOk_finish _ (State.need_then h h)

theorem State.onRecruit_memOk (u : Nat) (f : Recruit → Recruit) : (s.onRecruit u f).memOk := h

theorem State.freeParked_memOk (u : Nat) : (s.freeParked u).memOk := by
  unfold State.freeParked
  extract_lets parked s0 s1 s2
  have h0 : s0.memOk := State.foldl_memOk (fun _ _ ht => State.asGroup_memOk ht _ fun _ => State.finishStores_memOk) parked h
  have h1 : s1.memOk := State.mapGroups_memOk h0 _ _
  have h2 : s2.memOk := State.foldl_memOk (fun _ _ ht => State.dropPrivate_memOk ht _) parked h1
  exact State.onRecruit_memOk h2 _ _

theorem State.joined_memOk (r : Recruit) : (s.joined r).memOk := State.onGrp_memOk (State.acquireAt_memOk h _ _) _

theorem State.join_keeps (view : Option (BitVec 4)) : RunOk State.memOk (s.join view) := by
  unfold State.join
  split
  · exact State.onGrp_memOk h _
  · refine runOk_ite h ?_
    split
    · exact State.freeParked_memOk (State.faultRecord_memOk h _ _) s.grp.id.uid
    · exact State.onGrp_memOk (State.joined_memOk h _) _

theorem execHjoin_ok (f : EX) : OutOk (execHjoin f s) :=
  outOk_finish _ (State.need_then h ((State.join_keeps h _).bind fun _ ht => ht))

theorem execHjoinComplete_ok : OutOk (execHjoinComplete s) :=
  outOk_withGroup h fun t ht => by
    split
    · exact outOk_ite (outOk_finish _ ((State.join_keeps ht _).bind fun _ hu => hu)) (outOk_refused _)
    · exact outOk_refused _

theorem State.takeTrap_memOk (t : Trap) : (s.takeTrap t).memOk := State.takeTrap_wf h t

theorem execChunkWatchdogExpiry_ok : OutOk (execChunkWatchdogExpiry s) :=
  outOk_withGroup h fun _ ht => outOk_ite (outOk_next (State.takeTrap_memOk ht _)) (outOk_refused _)

/-! ### Regions (R253 to R259, R268 to R270) -/

theorem State.openRegion_keeps (f : EX) : RunOk Ctl.memOk (s.openRegion f) := runOk_ite h (runOk_ite h h)

theorem execRgnOpen_ok (f : EX) : OutOk (execRgnOpen f s) := outOk_finish _ (State.need_then h (State.openRegion_keeps h f))

theorem execRgnOpenBufferGrant_ok : OutOk (execRgnOpenBufferGrant s) :=
  outOk_withGroup h fun t ht => by
    split
    · exact outOk_ite (outOk_finish _ (State.openRegion_keeps ht _)) (outOk_refused _)
    · exact outOk_refused _

theorem State.takeExclusive_memOk (core key : Nat) : (s.takeExclusive core key).memOk := State.takeExclusive_wf h core key

theorem State.publishLine_memOk (line : Nat) (mask : BitVec 128) (data : Vector Byte 128) : (s.publishLine line mask data).memOk :=
  State.foldl_memOk (fun _ _ ht => State.ite_memOk (State.setBacking_wf ht _ _) ht) _ (State.takeExclusive_memOk h _ _)

theorem State.publishBytes_memOk (key : Nat) (xs : List Byte) : (s.publishBytes key xs).memOk := by
  induction xs generalizing s key with
  | nil => exact h
  | cons x xs ih => exact ih (State.setBacking_wf h _ _) _

theorem State.applyEntry_memOk (e : BufEntry) : (s.applyEntry e).memOk := by
  cases e with
  | line l m d => exact State.publishLine_memOk h l m d
  | atom k n o x => exact State.publishBytes_memOk (State.takeExclusive_memOk h _ _) _ _

theorem State.publish_memOk (r : Region) : (s.publish r).memOk :=
  State.onGrp_memOk (State.onGrp_memOk (State.foldl_memOk (fun _ _ ht => State.applyEntry_memOk ht _) r.buffer h) _) _

theorem execRgnClose_ok (f : EX) : OutOk (execRgnClose f s) :=
  outOk_finish _ (State.need_then h (runOk_ite h ((State.settleStores_keeps h).bind fun _ ht =>
    have hrel := State.releaseAt_wf ht _ f.sub.toNat
    runOk_ite (State.memOk_of_mem (State.sendRemoteWrites_mem _ _) hrel) hrel)))

theorem State.commit_memOk (f : EX) (r : Region) : (s.commit f r).memOk := by
  have hp := State.publish_memOk h r
  unfold State.commit
  dsimp only
  split
  · exact Ctl.memOk_goto (State.onGrp_memOk (State.onGrp_memOk hp _) _)
  · exact Ctl.memOk_done (State.onGrp_memOk hp _)

theorem execRgnCommitPublish_ok : OutOk (execRgnCommitPublish s) :=
  outOk_withGroup h fun t ht => by
    split
    · exact outOk_ite (outOk_refused _) (outOk_settle 1 (State.commit_memOk ht _ _))
    · exact outOk_refused _

theorem State.toMarker_memOk (r : Region) : (s.toMarker r).memOk := State.onGrp_memOk (State.acquireAt_memOk h _ _) _

theorem State.restartRegion_memOk : s.restartRegion.memOk := by
  unfold State.restartRegion
  split
  · exact h
  · next r _ =>
    have hm := State.toMarker_memOk h r
    split
    · next e => exact State.memOk_of_mem (State.enter_mem e) hm
    · exact State.takeTrap_memOk hm _

theorem execRgnAbort_ok (f : EX) : OutOk (execRgnAbort f s) :=
  outOk_finish _ (State.need_then h (runOk_pure (State.restartRegion_memOk (State.onGrp_memOk h _))))

/-! ### Eviction and reload (R260 to R265) -/

theorem State.retire_memOk (n : Nat) : (s.retire n).memOk := State.retire_wf h n

theorem State.endPost_memOk : s.endPost.memOk := by
  unfold State.endPost
  split
  · exact State.retire_memOk (State.bpostDone_memOk h _ _ _ _) 1
  · exact h

theorem State.releaseRecruit_memOk : s.releaseRecruit.memOk := by
  unfold State.releaseRecruit
  split
  · exact h
  · exact h

theorem State.reopened_memOk : s.reopened.memOk := by
  unfold State.reopened
  split
  · split
    · exact State.ite_memOk (State.onGrp_memOk h _) h
    · exact h
  · exact h

theorem State.releaseAll_memOk : s.releaseAll.memOk :=
  State.memOk_of_mem (State.sendRemoteWrites_mem _ _) (State.releaseAt_wf (State.finishStores_memOk h) _ _)

theorem State.spillDrowsy_memOk : s.spillDrowsy.memOk := h

theorem State.evict_memOk : s.evict.memOk :=
  State.onGrp_memOk (State.spillDrowsy_memOk (State.releaseAll_memOk (State.releaseRecruit_memOk (State.leavesCore_memOk
    (State.reopened_memOk (State.endPost_memOk h)))))) _

theorem execHarvestEviction_ok : OutOk (execHarvestEviction s) := by
  unfold execHarvestEviction
  split
  · split
    · exact outOk_fault _
    · next ht => exact outOk_ite (outOk_next (State.evict_memOk (State.focus_memOk h ht))) (outOk_refused _)
  · exact outOk_refused _

theorem State.spilled_memOk (restart parked : Bool) : (s.spilled restart parked).memOk := by
  unfold State.spilled
  split
  · exact h
  · exact h

theorem execSpillComplete_ok : OutOk (execSpillComplete s) :=
  outOk_withGroup h fun t ht => by
    split
    · exact outOk_settleFirst ht fun _ hu => outOk_next (State.spilled_memOk hu _ _)
    · exact outOk_refused _

theorem State.placeHeld_memOk : s.placeHeld.memOk :=
  State.foldl_memOk (f := fun x (t : HeldToken) => x.placeToken t.group t.reg t.token (t.rel.getD 0)) (fun _ _ ht => ht) _ h

theorem State.wakeFor_memOk (core slice need : Nat) : (s.wakeFor core slice need).2.memOk := State.wake_memOk h _ _

theorem State.reload_memOk (slice : Nat) (restart parked : Bool) : (s.reload slice restart parked).memOk := by
  have hw := State.wakeFor_memOk h s.grp.coreNo slice s.grp.id.bankNeed
  unfold State.reload
  split
  next banks t e =>
    rw [e] at hw
    have hp (f : Group → Group) := State.placeHeld_memOk (State.onGrp_memOk (State.acquireAt_memOk hw t.grp.coreNo 6) f)
    exact State.ite_memOk (State.restartRegion_memOk (hp _)) (hp _)

/-! ### EXIT, YIELD, NOP and SNOOZE (R74 to R77) -/

theorem State.exitJoin_keeps : RunOk State.memOk s.exitJoin := runOk_ite (State.join_keeps (State.onRecruit_memOk h _ _) _) h

theorem execExit_ok (f : SR) : OutOk (execExit f s) :=
  outOk_finish _ (State.need_then h ((State.exitJoin_keeps h).bind fun _ ht => (State.takeMxAll_keeps ht _).bind fun _ hu =>
    (State.settleStores_keeps hu).bind fun _ hv =>
      runOk_ite hv (runOk_pure (State.endGroup_memOk (State.onGrp_memOk hv _) _ _))))

theorem State.continueYield_keeps (e : BitVec 3) : RunOk Ctl.memOk (s.continueYield e) :=
  State.chk_then (State.onGrp_memOk h _) fun _ _ => State.onGrp_memOk (State.onGrp_memOk h _) _

theorem execYield_ok (f : SR) : OutOk (execYield f s) :=
  outOk_finish _ (State.need_then h (runOk_ite (State.continueYield_keeps h _) h))

theorem execYieldWake_ok : OutOk (execYieldWake s) :=
  outOk_withGroup h fun t ht => by
    split
    · exact outOk_ite (outOk_finish _ (State.continueYield_keeps ht _)) (outOk_refused _)
    · exact outOk_refused _

theorem execNop_ok (f : SR) : OutOk (execNop f s) := outOk_finish _ (State.need_then h h)

theorem execSnooze_ok (f : SR) : OutOk (execSnooze f s) := outOk_finish _ (State.need_then h (runOk_ite h h))

theorem execSnoozeExpiry_ok : OutOk (execSnoozeExpiry s) :=
  outOk_withGroup h fun t ht => by
    split
    · exact outOk_ite (outOk_settle 1 ht) (outOk_refused _)
    · exact outOk_refused _

end

end Sys2Proof.Machine
end

section
/-! SUPPORT. The system instructions, machine checks, and the front end up to the reading of bundles keep memory in its canonical form
(15_system_and_traps.md R271 to R295, 16_launch_and_scheduling.md R297 to R303). -/

namespace Sys2Proof.Machine

open Sys2Proof

@[simp] theorem State.asksFront_mem (s : State) (w : Who) (runs : List (DWord × Nat)) : (s.asksFront w runs).mem = s.mem := by
  induction runs generalizing s with
  | nil => rfl
  | cons r runs ih => rw [State.asksFront, ih, State.askKeys_mem, State.walkFront_mem]

theorem outOk_frontAccess {row : String} {s : State} {w : Who} {gap : Option Nat} {k : Out} (h : s.memOk) (hk : OutOk k) :
    OutOk (frontAccess row s w gap k) := by
  unfold frontAccess
  split
  · split
    · next t => exact outOk_next (show t.memOk from hk t rfl)
    · exact hk
  · exact outOk_ite (outOk_refused _) (outOk_next (State.memOk_of_mem (s.askFront_mem _ _ _) h))

theorem outOk_frontReads {row : String} {s : State} {w : Who} {gap : Option Nat} {runs : List (DWord × Nat)} {k : State → Out}
    (h : s.memOk) (hk : ∀ t : State, t.memOk → OutOk (k t)) : OutOk (frontReads row s w gap runs k) :=
  outOk_frontAccess h (hk _ (State.memOk_of_mem (s.asksFront_mem _ _) h))

section
variable {s : State} (h : s.memOk)
include h

/-! ### Special registers and traps (R271, R291, R292) -/

theorem execRds_ok (f : SR) : OutOk (execRds f s) :=
  outOk_finish _ (State.need_then h (State.need_then h (runOk_done (State.onGrp_memOk h _))))

theorem execWrs_ok (f : SR) : OutOk (execWrs f s) := outOk_finish _ (State.need_then h (runOk_done (State.onGrp_memOk h _)))

theorem State.fallTo_memOk {a : DWord} {t : State} (e : s.fallTo a = .ok t) : t.memOk := by
  unfold State.fallTo at e
  split at e
  · split at e
    · cases e
    · exact Except.ok.inj e ▸ h
  · exact Except.ok.inj e ▸ h

theorem State.userTrap_keeps (c : Cause) (code : Nat) : RunOk Ctl.memOk (s.userTrap c code) := by
  unfold State.userTrap
  split
  · exact h
  · next e =>
    have ht := State.fallTo_memOk h e
    exact ht

theorem execTrap_ok (f : SR) : OutOk (execTrap f s) := outOk_finish _ (State.need_then h (State.userTrap_keeps h _ _))

theorem execBrk_ok (f : SR) : OutOk (execBrk f s) := outOk_finish _ (State.need_then h (State.userTrap_keeps h _ _))

/-! ### PREEMPT, ERET and SIGS (R275, R277, R285, R293, R294) -/

theorem State.endWait_memOk : s.endWait.memOk := by
  unfold State.endWait
  split
  · split
    · exact State.takeTrap_memOk h _
    · exact h
  · exact State.onGrp_memOk h _
  · exact State.retire_memOk (State.bpostDone_memOk h _ _ _ _) 1
  · exact h

theorem State.preemptNow_memOk (since : Nat) : (s.preemptNow since).memOk := by
  unfold State.preemptNow
  extract_lets s1
  refine State.ite_memOk (State.onGrp_memOk h _) ?_
  have h2 : s1.endWait.memOk := State.endWait_memOk (State.onGrp_memOk h _)
  exact State.ite_memOk h2 (State.deliverPreempt_wf (State.onGrp_memOk h2 _) _)

theorem State.deliverHeld_memOk (t : DWord) : (s.deliverHeld t).memOk := by
  unfold State.deliverHeld
  split
  · exact State.ite_memOk (State.deliverPreempt_wf (State.onGrp_memOk h _) _) h
  · exact h

theorem State.resumeAt_memOk (a : DWord) : (s.resumeAt a).memOk := State.resumeAt_wf h a

theorem execEret_ok (f : SR) : OutOk (execEret f s) :=
  outOk_finish _ (State.need_then h (by
    have hend := State.deliverHeld_memOk (State.resumeAt_memOk
      (State.onGrp_memOk h fun g => { g.countRetired with trapc := g.trapc &&& 0x7FFFFFFF }) s.grp.trappc) s.grp.trappc
    dsimp only
    split
    · exact State.chk_then h fun _ _ => hend
    · exact hend))

theorem State.saveGroup_memOk (entry : DWord) : (s.saveGroup entry).memOk := State.onGrp_memOk (State.leavesCore_memOk h) _

theorem execSigs_ok (f : SR) : OutOk (execSigs f s) :=
  outOk_finish _ (State.need_then h (by
    have hend (e : DWord) : RunOk Ctl.memOk (do
        let t ← s.releaseRun 6
        if t.remoteOpen then return .wait .again t
        else return .at_ (t.finishStores.saveGroup e)) :=
      (State.releaseRun_keeps h 6).bind fun _ ht => runOk_ite ht (State.saveGroup_memOk (State.finishStores_memOk ht) e)
    extract_lets e
    split
    · exact State.chk_then h fun _ _ => hend _
    · exact hend _))

theorem execPcnt_ok (f : SR) : OutOk (execPcnt f s) :=
  outOk_finish _ (State.need_then h (State.need_then h (runOk_done (State.onGrp_memOk h _))))

theorem execDtime_ok (f : SR) : OutOk (execDtime f s) :=
  outOk_finish _ (State.need_then h (State.need_then h (runOk_done (State.onGrp_memOk h _))))

theorem execUnassignedWord_ok (w : DWord) : OutOk (execUnassignedWord w s) := outOk_next (State.takeTrap_memOk h _)

/-! ### Watchdogs and machine checks (R27, R97, R283, R289) -/

theorem execProgressWatchdogExpiry_ok : OutOk (execProgressWatchdogExpiry s) :=
  outOk_withGroup h fun _ ht =>
    outOk_ite (outOk_next (State.killIfDue_memOk (State.takeTrap_memOk ht _) _)) (outOk_refused _)

theorem execIssueFairnessRaise_ok : OutOk (execIssueFairnessRaise s) :=
  outOk_withGroup h fun _ ht => outOk_ite (outOk_next (State.onGrp_memOk ht _)) (outOk_refused _)

theorem State.recordEcc_memOk (us : List Nat) : (s.recordEcc us).memOk := by
  induction us generalizing s with
  | nil => exact h
  | cons u us ih => exact ih (State.asGroup_memOk h u fun _ ht => State.takeTrap_memOk (State.endPost_memOk ht) _)

theorem State.send_memOk (m : OutMsg) : (s.send m).memOk := h

theorem State.eccContext_memOk (ctx : Nat) (bytes : List Byte) : (s.eccContext ctx bytes).memOk :=
  State.killContext_memOk (State.send_memOk (State.faultRecord_memOk (State.recordEcc_memOk h _) _ _) _) _

theorem State.reportFatal_memOk : s.reportFatal.memOk := h

theorem execMachineCheck_ok : OutOk (execMachineCheck s) := by
  unfold execMachineCheck
  split
  · exact outOk_next (State.eccContext_memOk h _ _)
  · exact outOk_next (State.reportFatal_memOk (State.send_memOk h _))
  · exact outOk_refused _

theorem State.corrected_memOk (bytes : List Byte) : (s.corrected bytes).memOk := h

theorem execBankSweep_ok : OutOk (execBankSweep s) := by
  unfold execBankSweep
  split
  · refine outOk_ite ?_ (outOk_refused _)
    extract_lets s1 s2
    have h1 : s1.memOk := h
    have h2 : s2.memOk := h
    refine outOk_ite (outOk_next h1) ?_
    split
    · exact outOk_next (State.eccContext_memOk h2 _ _)
    · exact outOk_next (State.corrected_memOk h2 _)
  · exact outOk_refused _

/-! ### Disposal of parked groups (R276, R279) -/

theorem State.restartHalted_memOk : s.restartHalted.memOk := by
  unfold State.restartHalted
  split
  · exact State.ite_memOk (State.onGrp_memOk (State.toMarker_memOk h _) _) h
  · exact h

theorem State.duePreempt_memOk : s.duePreempt.memOk := by
  unfold State.duePreempt
  split
  · exact State.ite_memOk (State.onGrp_memOk h _) h
  · exact h

theorem State.resumeInstruction_memOk : s.resumeInstruction.memOk := by
  unfold State.resumeInstruction
  extract_lets s1 t
  have h1 : s1.memOk := State.onGrp_memOk (State.duePreempt_memOk (State.restartHalted_memOk h)) _
  refine State.ite_memOk h1 ?_
  split
  · exact State.resumeAt_memOk h1 _
  · exact State.takeTrap_memOk (State.onGrp_memOk h1 _) _

theorem State.renewDelivery_memOk : s.renewDelivery.memOk := State.ite_memOk h (State.onGrp_memOk h _)

theorem State.resumeHandler_memOk : s.resumeHandler.memOk := by
  unfold State.resumeHandler
  extract_lets s1 arg
  have h1 : s1.memOk := State.onGrp_memOk (State.duePreempt_memOk (State.restartHalted_memOk h)) _
  exact State.ite_memOk (State.enterHandler_wf (State.renewDelivery_memOk h1) _ _) (State.park_wf h1 _ _ _)

/-! ### Queue tables and control blocks (R298 to R300) -/

theorem State.writePhys_memOk (pa : Nat) (xs : List Byte) : (s.writePhys pa xs).memOk := by
  induction xs generalizing s pa with
  | nil => exact h
  | cons x xs ih =>
    refine ih ?_ _
    split
    · exact State.writeCoherent_wf h _ _
    · exact h

theorem State.readEntry_memOk (pa : Nat) : (s.readEntry pa).2.memOk := by
  unfold State.readEntry
  split
  · exact h
  · split
    · exact h
    · exact State.writePhys_memOk h _ _

theorem State.walkQueue_memOk (pasid num : Nat) : (s.walkQueue pasid num).2.memOk := by
  unfold State.walkQueue
  split
  · exact h
  · next base _ =>
    have h1 := State.readEntry_memOk h (base + 8 * pasid)
    split
    · next e => rw [e] at h1; exact h1
    · next t p1 s1 e =>
      rw [e] at h1
      have h2 := State.readEntry_memOk h1 (t + 8 * num)
      split
      · next e2 => rw [e2] at h2; exact h2
      · next e2 => rw [e2] at h2; exact h2

theorem State.loadCtx_memOk (num : Nat) : (s.loadCtx num).memOk := by
  unfold State.loadCtx
  split
  · exact h
  · split
    · exact h
    · exact h

theorem State.onQcb_memOk (i : Nat) (f : Queue → Queue) : (s.onQcb i f).memOk := by
  unfold State.onQcb
  split
  · exact h
  · exact h

theorem State.writeBack_memOk (i : Nat) : (s.writeBack i).memOk := by
  unfold State.writeBack
  split
  · exact h
  · exact State.writePhys_memOk (State.writePhys_memOk (State.writePhys_memOk h _ _) _ _) _ _

theorem State.moveQueue_memOk (i : Nat) : (s.moveQueue i).memOk := by
  unfold State.moveQueue
  split
  · exact h
  · exact State.ite_memOk h (State.writeBack_memOk (State.onQcb_memOk h _ _) _)

theorem State.moveQueues_memOk : s.moveQueues.memOk := State.foldl_memOk (fun _ _ ht => State.moveQueue_memOk ht _) _ h

theorem State.queueError_memOk (i : Nat) : (s.queueError i).memOk := by
  unfold State.queueError
  split
  · exact h
  · refine State.ite_memOk h ?_
    have h1 := State.writeBack_memOk (State.onQcb_memOk h i fun q => { q with state := .error }) i
    dsimp only
    split
    · exact State.send_memOk h1 _
    · exact h1

theorem State.replaceQcb_memOk (i : Nat) : (s.replaceQcb i).memOk := by
  have h1 := State.onQcb_memOk h i fun q => { q with cached := true }
  unfold State.replaceQcb
  dsimp only
  split
  · exact h1
  · split
    · exact State.onQcb_memOk h1 _ _
    · exact h1

theorem State.forgetCheckpoint_memOk (pasid num : Nat) : (s.forgetCheckpoint pasid num).memOk := h

theorem State.readQcb_memOk (pasid num : Nat) (w : QueueWalk) : (s.readQcb pasid num w).memOk := by
  unfold State.readQcb
  split
  · exact h
  · extract_lets q s1 s2
    have h1 : s1.memOk := State.loadCtx_memOk (State.forgetCheckpoint_memOk h _ _) _
    have h2 : s2.memOk := by
      unfold s2
      split
      · exact State.onQcb_memOk (by exact h1) _ _
      · exact h1
    split
    · next i _ =>
      have h3 := State.replaceQcb_memOk h2 i
      exact State.ite_memOk (State.writeBack_memOk (State.moveQueue_memOk (State.onQcb_memOk h3 _ _) _) _)
        (State.queueError_memOk h3 _)
    · exact h2

theorem State.walkAndRead_memOk (pasid num : Nat) : (s.walkAndRead pasid num).2.memOk := by
  have h1 := State.walkQueue_memOk h pasid num
  unfold State.walkAndRead
  split
  · next e => rw [e] at h1; exact h1
  · next e => rw [e] at h1; exact State.readQcb_memOk h1 _ _ _

theorem State.useQueue_memOk (pasid num : Nat) : (s.useQueue pasid num).2.memOk := by
  unfold State.useQueue
  split
  · split
    · exact h
    · exact State.walkAndRead_memOk h _ _
  · exact State.walkAndRead_memOk h _ _

/-! ### QCTL and doorbells (R297, R302, R317) -/

theorem State.onFn_memOk (fn : Nat) (f : FnRegs → FnRegs) : (s.onFn fn f).memOk := h

theorem State.endQctl_memOk (fn : Nat) (v : DWord) (st : Nat) : (s.endQctl fn v st).memOk := h

theorem outOk_qctlWrite {row : String} {op : Nat} {k : Nat → DWord → State → State}
    (hk : ∀ fn v (t : State), t.memOk → (k fn v t).memOk) : OutOk (qctlWrite row op s k) := by
  unfold qctlWrite
  split
  · exact outOk_ite (outOk_ite (outOk_next h) (outOk_ite (outOk_next (State.endQctl_memOk h _ _ _))
      (outOk_ite (outOk_next (State.endQctl_memOk h _ _ _)) (outOk_next (hk _ _ _ h))))) (outOk_refused _)
  · exact outOk_refused _

theorem execQctlInval_ok : OutOk (execQctlInval s) :=
  outOk_qctlWrite h fun fn v t ht => by
    have h1 := State.walkQueue_memOk ht (qctlPasid v) (qctlQueue v)
    dsimp only
    split
    · next e => rw [e] at h1; exact State.endQctl_memOk (State.readQcb_memOk h1 _ _ _) _ _ _
    · next e _ => rw [e] at h1; exact State.endQctl_memOk (State.queueError_memOk h1 _) _ _ _
    · next e _ => rw [e] at h1; exact State.endQctl_memOk h1 _ _ _

theorem execQctlDbmap_ok : OutOk (execQctlDbmap s) :=
  outOk_qctlWrite h fun fn v t ht => by
    have h1 := State.useQueue_memOk ht (qctlPasid v) (qctlQueue v)
    split
    · next e => rw [e] at h1; exact State.endQctl_memOk (State.onFn_memOk h1 _ _) _ _ _
    · next e => rw [e] at h1; exact State.endQctl_memOk h1 _ _ _

theorem execQctlDbunmap_ok : OutOk (execQctlDbunmap s) :=
  outOk_qctlWrite h fun _ _ _ ht => State.endQctl_memOk (State.onFn_memOk ht _ _) _ _ _

theorem State.ring_memOk (i w : Nat) : (s.ring i w).memOk := by
  unfold State.ring
  split
  · exact h
  · exact State.ite_memOk h (State.ite_memOk (State.queueError_memOk h _)
      (State.moveQueue_memOk (State.writeBack_memOk (State.onQcb_memOk h _ _) _) _))

theorem State.doorbell_memOk (fn slot : Nat) (value : DWord) : (s.doorbell fn slot value).memOk := by
  unfold State.doorbell
  refine State.ite_memOk h ?_
  split
  · exact State.onFn_memOk h _ _
  · next b _ =>
    refine State.ite_memOk h ?_
    have h1 := State.useQueue_memOk h b.pasid b.queue
    split
    · next e => rw [e] at h1; exact State.ring_memOk h1 _ _
    · next e => rw [e] at h1; exact h1

theorem execDoorbellWrite_ok : OutOk (execDoorbellWrite s) := by
  unfold execDoorbellWrite
  split
  · exact outOk_next (State.doorbell_memOk h _ _ _)
  · exact outOk_refused _

/-! ### The reading of bundles (R301, R303) -/

theorem State.inCheckpoint_memOk (q : Queue) (u : Nat) : (s.inCheckpoint q u).memOk := by
  unfold State.inCheckpoint
  split
  · exact State.ite_memOk h h
  · exact h

theorem execBundleRead_ok : OutOk (execBundleRead s) := by
  unfold execBundleRead
  split
  · split
    · next i q _ =>
      refine outOk_ite ?_ (outOk_ite (outOk_frontReads h fun t ht => ?_) (outOk_refused _))
      · have h1 := State.walkAndRead_memOk h q.pasid q.num
        split
        · next e => rw [e] at h1; exact outOk_next h1
        · next e => rw [e] at h1; exact outOk_next (State.queueError_memOk h1 _)
      · split
        · exact outOk_next (State.queueError_memOk ht _)
        · dsimp only
          split
          · exact outOk_next (State.queueError_memOk ht _)
          · exact outOk_next (State.moveQueue_memOk (State.onQcb_memOk
              (State.ite_memOk (State.inCheckpoint_memOk (by exact ht) _ _) (by exact ht)) _ _) _)
    · exact outOk_refused _
  · exact outOk_refused _

theorem State.onBundle_memOk (uid : Nat) (f : Bundle → Bundle) : (s.onBundle uid f).memOk := h

theorem execWaitConditionPoll_ok : OutOk (execWaitConditionPoll s) := by
  unfold execWaitConditionPoll
  split
  · split
    · split
      · refine outOk_ite (outOk_frontReads h fun t ht => ?_) (outOk_refused _)
        split
        · exact outOk_next (State.moveQueues_memOk (State.inCheckpoint_memOk (State.onBundle_memOk ht _ _) _ _))
        · exact outOk_ite (outOk_next (State.moveQueues_memOk (State.onBundle_memOk ht _ _))) (outOk_next ht)
      · exact outOk_refused _
    · exact outOk_refused _
  · exact outOk_refused _

end

end Sys2Proof.Machine
end

section
/-! SUPPORT. The start of bundles, the placement and retirement of bands, and the retirement of bundles keep memory in its canonical form
(16_launch_and_scheduling.md R303 to R318, R403). -/

namespace Sys2Proof.Machine

open Sys2Proof

section
variable {s : State} (h : s.memOk)
include h

/-! ### Writes of the front end (R306, R403) -/

theorem State.writeVirt_memOk {w : Who} {a : DWord} {xs : List Byte} {t : State} (e : s.writeVirt w a xs = .ok t) : t.memOk :=
  State.writeVirt_wf h e

theorem State.walkFront_memOk (w : Who) (a : DWord) (n : Nat) : (s.walkFront w a n).memOk :=
  State.memOk_of_mem (s.walkFront_mem w a n) h

theorem State.frontRecord_memOk (q : Queue) (b : Bundle) (which cause sub : Nat) (a : DWord) :
    (s.frontRecord q b which cause sub a).memOk := State.faultRecord_memOk h _ _

theorem State.onSub_memOk (uid i : Nat) (f : SubLaunch → SubLaunch) : (s.onSub uid i f).memOk := h

theorem State.frontWrite_memOk (q : Queue) (b : Bundle) (i which : Nat) (a : DWord) (bytes : List Byte) :
    (s.frontWrite q b i which a bytes).memOk := by
  unfold State.frontWrite
  split
  · next e => exact State.writeVirt_memOk h e
  · exact State.frontRecord_memOk (State.onSub_memOk (State.walkFront_memOk h _ _ _) _ _ _) _ _ _ _ _ _

theorem State.readsOld_memOk (w : Who) (a : DWord) : (s.readsOld w a).memOk := by
  unfold State.readsOld
  split
  · exact State.memOk_of_mem (s.askKeys_mem _ _) h
  · exact h

theorem State.signal_memOk (q : Queue) (b : Bundle) (i : Nat) (r : List Byte) : (s.signal q b i r).memOk := by
  unfold State.signal
  dsimp only
  split
  · exact State.frontWrite_memOk h _ _ _ _ _ _
  · exact State.frontWrite_memOk h _ _ _ _ _ _
  · exact State.frontWrite_memOk (State.readsOld_memOk h _ _) _ _ _ _ _ _
  · exact h
  · exact State.send_memOk h _

/-! ### The start of bundles (R303, R305, R309) -/

theorem State.startCopies_memOk (q : Queue) (w : Who) (bundle i : Nat) (r : List Byte) : (s.startCopies q w bundle i r).memOk := h

theorem State.startSubs_memOk (q : Queue) (w : Who) (b : Bundle) (ks : List (Nat × List Byte)) (is : List Nat) :
    (s.startSubs q w b ks is).memOk := by
  induction is generalizing s with
  | nil => exact h
  | cons i is ih =>
    unfold State.startSubs
    refine ih ?_
    split
    · exact h
    · split
      · exact h
      · exact State.startCopies_memOk h _ _ _ _ _
      · exact State.ite_memOk h (State.onSub_memOk (State.signal_memOk h _ _ _ _) _ _ _)

theorem State.countStep_memOk (q : Queue) (b : Bundle) : (s.countStep q b).memOk := by
  unfold State.countStep
  split
  · exact State.ite_memOk h h
  · exact h

theorem State.startBundle_memOk (q : Queue) (b : Bundle) : (s.startBundle q b).memOk := by
  unfold State.startBundle
  dsimp only
  split
  · exact State.moveQueues_memOk (State.inCheckpoint_memOk (State.onBundle_memOk h _ _) _ _)
  · exact State.moveQueues_memOk (State.countStep_memOk (State.inCheckpoint_memOk
      (State.startSubs_memOk (State.onBundle_memOk h _ _) _ _ _ _ _) _ _) _ _)

theorem State.serve_memOk (i : Nat) : (s.serve i).memOk := by
  unfold State.serve
  split
  · exact h
  · exact h

theorem execBundleStart_ok : OutOk (execBundleStart s) := by
  unfold execBundleStart
  split
  · split
    · split
      · exact outOk_ite (outOk_frontReads h fun _ ht => outOk_next (State.startBundle_memOk (State.serve_memOk ht _) _ _))
          (outOk_refused _)
      · exact outOk_refused _
    · exact outOk_refused _
  · exact outOk_refused _

/-! ### Reports (R313, R314) -/

theorem State.onField_memOk (uid : Nat) (f : Field → Field) : (s.onField uid f).memOk := h

theorem State.fireLevel_memOk (q : Queue) (b : Bundle) (f : Field) (l : Level) : (s.fireLevel q b f l).memOk := by
  unfold State.fireLevel
  extract_lets s1 s2
  have h1 : s1.memOk := State.onField_memOk h _ _
  have h2 : s2.memOk := State.ite_memOk (State.frontWrite_memOk h1 _ _ _ _ _ _) h1
  exact State.ite_memOk (State.send_memOk h2 _) h2

theorem State.fireLevels_memOk (uid : Nat) (ls : List Level) : (s.fireLevels uid ls).memOk := by
  induction ls generalizing s with
  | nil => exact h
  | cons l ls ih =>
    unfold State.fireLevels
    refine ih ?_
    split
    · split
      · exact State.ite_memOk (State.fireLevel_memOk h _ _ _ _) h
      · exact h
    · exact h

theorem State.reportBand_memOk (uid bandx cluster : Nat) : (s.reportBand uid bandx cluster).memOk := by
  unfold State.reportBand
  split
  · exact h
  · extract_lets f1 s1 s2
    have h1 : s1.memOk := State.onField_memOk h _ _
    have h2 : s2.memOk := by
      unfold s2
      split
      · exact State.ite_memOk (State.frontWrite_memOk h1 _ _ _ _ _ _) h1
      · exact h1
    exact State.fireLevels_memOk h2 _ _

/-! ### The placement of bands (R22, R310, R384) -/

theorem State.placeGroup_memOk {f : Field} {c : Context} {band bandx : Nat} {i : InstAt} {x : StageDesc} {grpx core slice : Nat}
    {t : State} (e : s.placeGroup f c band bandx i x grpx core slice = some t) : t.memOk := by
  unfold State.placeGroup at e
  dsimp only at e
  split at e
  · exact Option.some.inj e ▸ State.wake_memOk h core _
  · cases e

theorem State.placeGroups_memOk {f : Field} {c : Context} {band bandx : Nat} {i : InstAt} {x : StageDesc} {core grpx : Nat}
    {sls : List Nat} {t : State} (e : s.placeGroups f c band bandx i x core grpx sls = some t) : t.memOk := by
  induction sls generalizing s grpx with
  | nil => exact Option.some.inj e ▸ h
  | cons sl sls ih =>
    unfold State.placeGroups at e
    split at e
    · next hu => exact ih (State.placeGroup_memOk h hu) e
    · cases e

theorem State.placeInst_memOk {f : Field} {c : Context} {band bandx : Nat} {i : InstAt} {core : Nat} {slices rest : List Nat}
    {t : State} (e : s.placeInst f c band bandx i core slices = some (t, rest)) : t.memOk := by
  unfold State.placeInst at e
  split at e
  · cases e
  · dsimp only at e
    split at e
    · cases e
    · split at e
      · next hu =>
        split at e
        · cases e
          exact State.placeGroups_memOk (State.onBand_memOk h _ _) hu
        · cases e
      · cases e

theorem State.placeInsts_memOk {f : Field} {c : Context} {band bandx cluster : Nat} {is : List InstAt} {cores slices : List Nat}
    {t : State} {r : List Nat × List Nat} (e : s.placeInsts f c band bandx cluster is cores slices = some (t, r)) : t.memOk := by
  induction is generalizing s cores slices with
  | nil => cases e; exact h
  | cons i is ih =>
    cases cores with
    | nil => cases e
    | cons core cores =>
      unfold State.placeInsts at e
      split at e
      · cases e
      · split at e
        · next hu => exact ih (State.placeInst_memOk h hu) e
        · cases e

theorem State.placeBand_memOk {f : Field} {c : Context} {bandx : Nat} {cores slices : List Nat} {t : State}
    {r : List Nat × List Nat} (e : s.placeBand f c bandx cores slices = some (t, r)) : t.memOk := by
  unfold State.placeBand at e
  dsimp only at e
  split at e
  · cases e
  · split at e
    · cases e
    · next hu =>
      cases e
      exact State.onField_memOk (State.foldl_memOk (fun _ _ ht => State.acquireAt_memOk ht _ _) _
        (State.placeInsts_memOk (by exact h) hu)) _ _

theorem State.placeBands_memOk {f : Field} {c : Context} {n bandx : Nat} {cores slices : List Nat} {t : State}
    (e : s.placeBands f c n bandx cores slices = some t) : t.memOk := by
  induction n generalizing s bandx cores slices with
  | zero =>
    unfold State.placeBands at e
    split at e
    · exact Option.some.inj e ▸ h
    · cases e
  | succ n ih =>
    unfold State.placeBands at e
    split at e
    · next hu => exact ih (State.placeBand_memOk h hu) e
    · cases e

theorem State.assign_memOk {a : Arrival} {t : State} (e : s.assign a = some t) : t.memOk := by
  unfold State.assign at e
  split at e
  · cases e
  · exact Option.some.inj e ▸ h

theorem State.assignWith_memOk {f : Field} {c : Context} {cores slices victims : List Nat} {t : State}
    (e : s.assignWith f c cores slices victims = some t) : t.memOk := by
  unfold State.assignWith at e
  split at e
  · cases e
  · dsimp only at e
    split at e
    · split at e
      · exact State.assign_memOk h e
      · cases e
    · cases e

theorem State.assignChosen_ok (u : Nat) (cores slices victims : List Nat) : OutOk (s.assignChosen u cores slices victims) := by
  unfold State.assignChosen
  split
  · split
    · next e =>
      obtain ⟨c, _, e⟩ := Option.bind_eq_some_iff.1 e
      split at e
      · exact outOk_next (State.assignWith_memOk h e)
      · cases e
    · exact outOk_refused _
  · exact outOk_refused _

theorem execBandPlace_ok : OutOk (execBandPlace s) := by
  unfold execBandPlace
  split
  · exact State.assignChosen_ok h _ _ _ _
  · split
    · split
      · refine outOk_ite (outOk_frontAccess h ?_) (outOk_refused _)
        split
        · next e =>
          have ht := State.placeBands_memOk h e
          exact outOk_next (State.fireLevels_memOk (State.serve_memOk (by exact ht) _) _ _)
        · split
          · next e => exact outOk_next (State.assignWith_memOk h e)
          · exact outOk_refused _
      · exact outOk_refused _
    · exact outOk_refused _
  · exact outOk_refused _

/-! ### The retirement of bands (R164) -/

theorem State.dropBand_memOk (b : Band) : (s.dropBand b).memOk := Memory.wf_filter _ h

theorem State.releaseAt_memOk (core scope : Nat) : (s.releaseAt core scope).memOk := State.releaseAt_wf h core scope

theorem State.releaseBand_memOk (b : Band) : (s.releaseBand b).memOk :=
  State.foldl_memOk (fun _ _ ht => State.releaseAt_memOk ht _ _) _ h

theorem State.sendFor_memOk (p : Group → Bool) : (s.sendFor p).memOk := by
  unfold State.sendFor
  split
  · exact State.asGroup_memOk h _ fun t ht => State.memOk_of_mem (t.sendRemoteWrites_mem _) ht
  · exact h

theorem State.retireBand_memOk (b : Band) : (s.retireBand b).memOk := by
  unfold State.retireBand
  extract_lets bundle s1 s2
  have h1 : s1.memOk := State.dropBand_memOk h b
  have h2 : s2.memOk := by
    unfold s2
    clear_value bundle
    split
    · exact State.ite_memOk (State.onSub_memOk h1 _ _ _) h1
    · exact h1
  exact State.reportBand_memOk h2 _ _ _

theorem execBandRetire_ok : OutOk (execBandRetire s) := by
  unfold execBandRetire
  split
  · split
    · next b _ =>
      refine outOk_ite (outOk_frontAccess h ?_) (outOk_refused _)
      have h1 := State.releaseBand_memOk h b
      exact outOk_ite (outOk_next (State.retireBand_memOk h1 b)) (outOk_ite (outOk_refused _) (outOk_next (State.sendFor_memOk h1 _)))
    · exact outOk_refused _
  · exact outOk_refused _

/-! ### DESTROY (R317) -/

theorem State.killQueueBands_memOk (i : Nat) : (s.killQueueBands i).memOk :=
  State.foldl_memOk (f := fun t (b : Band) => t.killBand b.uid) (fun _ _ ht => State.killBand_memOk ht _) _ h

theorem State.destroyQueue_memOk (fn i : Nat) (force : Bool) : (s.destroyQueue fn i force).memOk := by
  unfold State.destroyQueue
  extract_lets entry2 e s1 s2 s3
  have h2 : s2.memOk := State.writeBack_memOk (State.onQcb_memOk (State.writePhys_memOk h _ _) _ _) _
  have h3 : s3.memOk := h2
  exact State.ite_memOk (State.killQueueBands_memOk h3 i) h3

theorem State.knownQueue_memOk (pasid num : Nat) : (s.knownQueue pasid num).2.memOk := by
  unfold State.knownQueue
  split
  · exact State.ite_memOk h (State.walkAndRead_memOk h _ _)
  · exact State.walkAndRead_memOk h _ _

theorem execQctlDestroy_ok : OutOk (execQctlDestroy s) :=
  outOk_qctlWrite h fun fn v t ht => by
    have h1 := State.knownQueue_memOk ht (qctlPasid v) (qctlQueue v)
    split
    · next e => rw [e] at h1; exact State.onFn_memOk (State.destroyQueue_memOk h1 _ _ _) _ _
    · next e => rw [e] at h1; exact State.endQctl_memOk h1 _ _ _

theorem execDestroyComplete_ok : OutOk (execDestroyComplete s) := by
  unfold execDestroyComplete
  split
  · split
    · exact outOk_ite (outOk_next (State.onFn_memOk (State.writeBack_memOk (State.onQcb_memOk h _ _) _) _ _)) (outOk_refused _)
    · exact outOk_refused _
  · exact outOk_refused _

/-! ### Signals and the retirement of bundles (R306, R307) -/

theorem execSignalAfter_ok : OutOk (execSignalAfter s) := by
  unfold execSignalAfter
  split
  · split
    · split
      · exact outOk_ite (outOk_frontAccess h (outOk_next (State.onSub_memOk
          (State.ite_memOk (State.signal_memOk h _ _ _ _) h) _ _ _))) (outOk_refused _)
      · exact outOk_refused _
    · exact outOk_refused _
  · exact outOk_refused _

theorem State.retireBundle_memOk (q : Queue) (b : Bundle) : (s.retireBundle q b).memOk := by
  unfold State.retireBundle
  extract_lets s1 cmode s2 s3 s4 s5
  have h1 : s1.memOk := by
    refine State.ite_memOk h ?_
    split
    · next e => exact State.writeVirt_memOk h e
    · exact State.frontRecord_memOk (State.walkFront_memOk h _ _ _) _ _ _ _ _ _
  have h2 : s2.memOk := State.ite_memOk (State.send_memOk h1 _) h1
  have h3 : s3.memOk := h2
  have h4 : s4.memOk := State.writeBack_memOk (State.onQcb_memOk h3 _ _) _
  have h5 : s5.memOk := by
    unfold s5
    split
    · exact State.ite_memOk h4 h4
    · exact h4
  exact State.moveQueues_memOk h5

theorem execBundleRetire_ok : OutOk (execBundleRetire s) := by
  unfold execBundleRetire
  split
  · split
    · split
      · exact outOk_ite (outOk_frontAccess h (outOk_next (State.retireBundle_memOk
          (State.foldl_memOk (fun _ _ ht => State.fireLevels_memOk ht _ _) _ h) _ _))) (outOk_refused _)
      · exact outOk_refused _
    · exact outOk_refused _
  · exact outOk_refused _

end

end Sys2Proof.Machine
end

section
/-! SUPPORT. Pre-emption, the saving and resumption of contexts, checkpoints and PARKCTL keep memory in its canonical form
(15_system_and_traps.md R279, R280, R284 to R288, 16_launch_and_scheduling.md R315, R316). -/

namespace Sys2Proof.Machine

open Sys2Proof

section
variable {s : State} (h : s.memOk)
include h

/-! ### Deadline overruns (R284 to R286) -/

theorem State.saveRegion_memOk : s.saveRegion.memOk :=
  State.onGrp_memOk (State.spillDrowsy_memOk (State.releaseAll_memOk (State.releaseRecruit_memOk (State.leavesCore_memOk h)))) _

theorem State.overrunOutside_memOk (now : Nat) : (s.overrunOutside now).memOk :=
  State.ite_memOk (State.onRecruit_memOk h _ _) (State.preemptNow_memOk (State.onRecruit_memOk h _ _) _)

theorem State.overrunGroup_memOk (now : Nat) : (s.overrunGroup now).memOk := by
  have h1 := State.reopened_memOk (State.onGrp_memOk h fun g => { g with mxq := g.haltLoops.mxq, tiles := g.haltLoops.tiles })
  unfold State.overrunGroup
  dsimp only
  split
  · exact h1
  · exact h1
  · exact h1
  · exact h1
  · exact State.ite_memOk h1 (State.ite_memOk (State.saveRegion_memOk h1) (State.overrunOutside_memOk h1 now))

theorem State.overrunAll_memOk (now : Nat) (us : List Nat) : (s.overrunAll now us).memOk := by
  induction us generalizing s with
  | nil => exact h
  | cons u us ih => exact ih (State.asGroup_memOk h u fun _ ht => State.overrunGroup_memOk ht now)

theorem State.overrun_memOk (c : Context) : (s.overrun c).memOk :=
  State.moveQueues_memOk (State.overrunAll_memOk (by exact h) _ _)

theorem execDeadlineOverrun_ok : OutOk (execDeadlineOverrun s) := by
  unfold execDeadlineOverrun
  split
  · split
    · exact outOk_ite (outOk_next (State.overrun_memOk h _)) (outOk_refused _)
    · exact outOk_refused _
  · exact outOk_refused _

theorem execPreemptHandlerTimeout_ok : OutOk (execPreemptHandlerTimeout s) := by
  unfold execPreemptHandlerTimeout
  split
  · exact outOk_ite (outOk_next (State.moveQueues_memOk (State.killContext_memOk h _))) (outOk_refused _)
  · exact outOk_refused _

/-! ### The context save (R287) -/

theorem State.setCtx_memOk (c : Context) : (s.setCtx c).memOk := h

theorem State.writeSave_memOk (c : Context) : (s.writeSave c).memOk := by
  unfold State.writeSave
  extract_lets put
  have hput (t : State) (ok : Bool) (ht : t.memOk) : (put t ok).memOk := State.setCtx_memOk ht _
  refine State.ite_memOk (hput _ _ h) ?_
  split
  · next e => exact hput _ _ (State.writeVirt_memOk h e)
  · exact hput _ _ (State.walkFront_memOk h _ _ _)

theorem State.saveParked_memOk (bands : List Nat) : (s.saveParked bands).memOk :=
  State.mapGroups_memOk (State.foldl_memOk
    (fun _ _ ht => State.asGroup_memOk ht _ fun _ hu => State.leavesCore_memOk (State.finishStores_memOk hu)) _ h) _ _

theorem execContextSave_ok : OutOk (execContextSave s) := by
  unfold execContextSave
  split
  · split
    · next n c _ =>
      have h1 : ((s.ctxBands c).foldl State.releaseBand (s.saveParked ((s.ctxBands c).map (·.uid)))).memOk :=
        State.foldl_memOk (fun _ _ ht => State.releaseBand_memOk ht _) _ (State.saveParked_memOk h _)
      refine outOk_ite ?_ (outOk_refused _)
      exact outOk_ite (outOk_frontAccess h (outOk_next (State.moveQueues_memOk (State.writeSave_memOk h1 _))))
        (outOk_ite (outOk_refused _) (outOk_next (State.sendFor_memOk h1 _)))
    · exact outOk_refused _
  · exact outOk_refused _

/-! ### The context resume (R217, R230, R287) -/

theorem State.unqueue_memOk (uid : Nat) : (s.unqueue uid).memOk := h

theorem State.restoreCopies_memOk {cs : List (Option CopyCmd)} {b : List Byte} {t : State} (e : s.restoreCopies cs b = some t) :
    t.memOk := by
  induction cs generalizing s b with
  | nil => exact Option.some.inj e ▸ h
  | cons c cs ih =>
    cases c with
    | none => exact ih h e
    | some c =>
      unfold State.restoreCopies at e
      split at e
      · exact ih (State.ite_memOk (State.setCopy_memOk h _) (State.setCopy_memOk (State.unqueue_memOk h _) _)) e
      · cases e

theorem State.restoreMx_memOk {cs : List (Option (Nat × MxCmd))} {b : List Byte} {t : State} (e : s.restoreMx cs b = some t) :
    t.memOk := by
  induction cs generalizing s b with
  | nil => exact Option.some.inj e ▸ h
  | cons c cs ih =>
    cases c with
    | none => exact ih h e
    | some c =>
      unfold State.restoreMx at e
      split at e
      · exact ih (State.mapGroups_memOk h _ _) e
      · cases e

theorem State.restoreRecords_memOk {c : Context} {t : State} (e : s.restoreRecords c = some t) : t.memOk := by
  unfold State.restoreRecords at e
  split at e
  · exact Option.some.inj e ▸ h
  · split at e
    · cases e
    · split at e
      · cases e
      · next hu => exact State.restoreMx_memOk (State.mapGroups_memOk (State.restoreCopies_memOk h hu) _ _) e

theorem State.resumeGroup_memOk (cluster : Nat) : (s.resumeGroup cluster).memOk := by
  unfold State.resumeGroup
  extract_lets g src id
  split
  · split
    next banks t e =>
      have hw := State.wakeFor_memOk h (coreIndex cluster id.core) id.slice id.bankNeed
      rw [e] at hw
      have h1 (f : Group → Group) := State.onGrp_memOk hw f
      exact State.ite_memOk (h1 _) (State.ite_memOk (State.restartRegion_memOk (h1 _)) (State.resumeAt_memOk (h1 _) _))
  · exact State.onGrp_memOk h _

theorem State.resumeGroups_memOk (cluster : Nat) (us : List Nat) : (s.resumeGroups cluster us).memOk := by
  induction us generalizing s with
  | nil => exact h
  | cons u us ih => exact ih (State.asGroup_memOk h u fun _ ht => State.resumeGroup_memOk ht cluster)

theorem State.resumeBand_memOk {c : Context} {b : Band} {cluster : Nat} {t : State} (e : s.resumeBand c b cluster = some t) :
    t.memOk := by
  unfold State.resumeBand at e
  dsimp only at e
  split at e
  · exact Option.some.inj e ▸ State.killBand_memOk h _
  · split at e
    · cases e
    · exact Option.some.inj e ▸ State.resumeGroups_memOk (State.onField_memOk
        (State.foldl_memOk (fun _ _ ht => State.acquireAt_memOk ht _ _) _ (by exact h)) _ _) _ _

theorem State.resumeBands_memOk {c : Context} {bs : List Band} {cls : List Nat} {t : State} (e : s.resumeBands c bs cls = some t) :
    t.memOk := by
  induction bs generalizing s cls with
  | nil => exact Option.some.inj e ▸ h
  | cons b bs ih =>
    cases cls with
    | nil => cases e
    | cons cl cls =>
      unfold State.resumeBands at e
      split at e
      · next hu => exact ih (State.resumeBand_memOk h hu) e
      · cases e

theorem State.resumed_memOk (c : Context) : (s.resumed c).memOk :=
  State.mapGroups_memOk (State.moveQueues_memOk (State.setCtx_memOk h _)) (fun g => decide (g.id.ctx = c.num)) Group.startAll

theorem execContextResume_ok : OutOk (execContextResume s) := by
  unfold execContextResume
  split
  · split
    · refine outOk_ite (outOk_frontReads h fun t ht => ?_) (outOk_refused _)
      split
      · exact outOk_next (State.moveQueues_memOk (State.killContext_memOk (State.setCtx_memOk ht _) _))
      · next hr =>
        split
        · next hu => exact outOk_next (State.resumed_memOk (State.resumeBands_memOk (State.restoreRecords_memOk ht hr) hu) _)
        · split
          · next hu => exact outOk_next (State.assign_memOk ht hu)
          · exact outOk_refused _
    · exact outOk_refused _
  · exact outOk_refused _

/-! ### Slices, reloads and checkpoints (R264, R265, R315, R316) -/

theorem execTenantSliceEnd_ok : OutOk (execTenantSliceEnd s) := by
  unfold execTenantSliceEnd
  split
  · split
    · exact outOk_ite (outOk_next (State.moveQueues_memOk (State.setCtx_memOk h _))) (outOk_refused _)
    · exact outOk_refused _
  · exact outOk_refused _

theorem execHarvestReload_ok : OutOk (execHarvestReload s) :=
  outOk_withGroup h fun t ht => by
    split
    · exact outOk_ite (outOk_refused _) (outOk_ite (outOk_next (State.eccContext_memOk (by exact ht) _ _))
        (outOk_next (State.reload_memOk ht _ _ _)))
    · exact outOk_refused _

theorem execCheckpointTrigger_ok : OutOk (execCheckpointTrigger s) := by
  unfold execCheckpointTrigger
  split
  · split
    · exact outOk_ite (outOk_next (State.moveQueues_memOk (State.setCtx_memOk h _))) (outOk_refused _)
    · exact outOk_refused _
  · exact outOk_refused _

theorem execCheckpointBundleStart_ok : OutOk (execCheckpointBundleStart s) := by
  unfold execCheckpointBundleStart
  split
  · split
    · split
      · split
        · exact outOk_ite (outOk_frontReads h fun _ ht => outOk_next (State.startBundle_memOk ht _ _)) (outOk_refused _)
        · exact outOk_refused _
      · exact outOk_refused _
    · exact outOk_refused _
  · exact outOk_refused _

/-! ### PARKCTL (R279, R280) -/

theorem State.endPark_memOk (fn : Nat) (v : DWord) (st : Nat) : (s.endPark fn v st).memOk := h

theorem outOk_parkWrite {row : String} {op : Nat} {k : ParkTarget → State → Option State × Nat}
    (hk : ∀ t u, (k t s).1 = some u → u.memOk) : OutOk (parkWrite row op s k) := by
  unfold parkWrite
  split
  · refine outOk_ite (outOk_ite (outOk_next h) (outOk_ite (outOk_next (State.endPark_memOk h _ _ _)) ?_)) (outOk_refused _)
    split
    · next e => exact outOk_next (State.endPark_memOk (hk _ _ (congrArg Prod.fst e)) _ _ _)
    · exact outOk_next (State.endPark_memOk h _ _ _)
  · exact outOk_refused _

theorem State.parkResume_memOk {t : ParkTarget} {nest : Bool} {f : State → State} (hf : ∀ v : State, v.memOk → (f v).memOk)
    {u : State} (e : (s.parkResume t nest f).1 = some u) : u.memOk := by
  unfold State.parkResume at e
  split at e
  · cases e
  · split at e
    · cases e
    · split at e
      · cases e
      · exact Option.some.inj e ▸ State.asGroup_memOk h _ hf

theorem execParkctlResumeInstruction_ok : OutOk (execParkctlResumeInstruction s) :=
  outOk_parkWrite h fun _ _ e => State.parkResume_memOk h (fun _ => State.resumeInstruction_memOk) e

theorem execParkctlResumeHandler_ok : OutOk (execParkctlResumeHandler s) :=
  outOk_parkWrite h fun _ _ e => State.parkResume_memOk h (fun _ => State.resumeHandler_memOk) e

theorem execParkctlKillGroup_ok : OutOk (execParkctlKillGroup s) :=
  outOk_parkWrite h fun _ _ e => by
    split at e
    · exact Option.some.inj e ▸ State.endGroup_memOk h _ _
    · cases e

theorem execParkctlKillTeam_ok : OutOk (execParkctlKillTeam s) :=
  outOk_parkWrite h fun _ _ e => by
    split at e
    · exact Option.some.inj e ▸ State.killTeam_memOk h _ _
    · cases e

theorem execParkctlKillBand_ok : OutOk (execParkctlKillBand s) :=
  outOk_parkWrite h fun _ _ e => by
    split at e
    · exact Option.some.inj e ▸ State.killBand_memOk h _
    · cases e

theorem execParkctlKillContext_ok : OutOk (execParkctlKillContext s) :=
  outOk_parkWrite h fun _ _ e => by
    split at e
    · exact Option.some.inj e ▸ State.moveQueues_memOk (State.killContext_memOk h _)
    · cases e

end

end Sys2Proof.Machine
end

section
/-! SUPPORT. The events of translation and tenancy and of the Sahig link keep memory in its canonical form
(17_translation_and_tenancy.md R326 to R338, 18_package_host_fabric.md R346, R350 to R358, 08_ordering.md R159). -/

namespace Sys2Proof.Machine

open Sys2Proof

section
variable {s : State} (h : s.memOk)
include h

theorem State.sendRemoteWrites_memOk (cs : List Host.Cell) : (s.sendRemoteWrites cs).memOk :=
  State.memOk_of_mem (s.sendRemoteWrites_mem cs) h

theorem State.countEvent_memOk (t sel n : Nat) : (s.countEvent t sel n).memOk := State.memOk_of_mem (s.countEvent_mem t sel n) h

theorem State.onRegs_memOk (f : PartRegs → PartRegs) : (s.onRegs f).memOk := h

theorem State.ownWrite_memOk {m : Master} {k : State → State} (hk : (k s).memOk) : (s.ownWrite m k).memOk :=
  State.ite_memOk hk (State.ite_memOk h (State.onRegs_memOk h _))

/-! ### TLBINV (R328, R329) -/

theorem State.performAll_memOk : s.performAll.memOk := by
  unfold State.performAll
  extract_lets s1 s2
  have h1 : s1.memOk := State.foldl_memOk (fun _ _ ht => State.asGroup_memOk ht _ fun _ => State.settleNow_memOk) _ h
  have h2 : s2.memOk := State.foldl_memOk (fun _ _ ht => State.releaseAt_memOk ht _ _) _ h1
  exact State.flushHost_wf (by exact h2)

theorem State.performRemote_memOk (pasid : Nat) : (s.performRemote pasid).memOk := by
  unfold State.performRemote
  split
  · exact State.asGroup_memOk h _ fun _ ht => State.sendRemoteWrites_memOk ht _
  · exact h

theorem State.endTlb_memOk (fn : Nat) (hi : DWord) (st : Nat) : (s.endTlb fn hi st).memOk := h

theorem State.goTlb_memOk (fn : Nat) (hi : DWord) : (s.goTlb fn hi).memOk := h

theorem State.dropCovered_memOk (fn : Nat) (hi : DWord) : (s.dropCovered fn hi).memOk := by
  unfold State.dropCovered
  split
  · exact h
  · exact h
  · exact h

theorem outOk_tlbWrite {row : String} {op : Nat} {k : Nat → DWord → State → State} (hk : ∀ fn hi, (k fn hi s).memOk) :
    OutOk (tlbWrite row op s k) := by
  unfold tlbWrite
  split
  · exact outOk_ite (outOk_ite (outOk_next h) (outOk_next (hk _ _))) (outOk_refused _)
  · exact outOk_refused _

theorem State.tlbDropped_memOk (fn : Nat) (hi : DWord) :
    (((s.dropCovered fn hi).performAll.performRemote (tlbPasid hi)).goTlb fn hi).memOk :=
  State.goTlb_memOk (State.performRemote_memOk (State.performAll_memOk (State.dropCovered_memOk h _ _)) _) _ _

theorem execTlbinvPasid_ok : OutOk (execTlbinvPasid s) :=
  outOk_tlbWrite h fun _ _ => State.ite_memOk (State.tlbDropped_memOk h _ _) (State.endTlb_memOk h _ _ _)

theorem execTlbinvRange_ok : OutOk (execTlbinvRange s) :=
  outOk_tlbWrite h fun _ _ => State.ite_memOk (State.endTlb_memOk h _ _ _)
    (State.ite_memOk (State.tlbDropped_memOk h _ _) (State.endTlb_memOk h _ _ _))

theorem execTlbinvStage2_ok : OutOk (execTlbinvStage2 s) :=
  outOk_tlbWrite h fun _ _ => State.ite_memOk (State.endTlb_memOk h _ _ _) (State.ite_memOk (State.endTlb_memOk h _ _ _)
    (State.goTlb_memOk (State.performAll_memOk (State.dropCovered_memOk h _ _)) _ _))

theorem execTlbinvComplete_ok : OutOk (execTlbinvComplete s) := by
  unfold execTlbinvComplete
  split
  · have hp := State.performAll_memOk h
    exact outOk_ite (outOk_ite (outOk_next (State.endTlb_memOk (State.dropCovered_memOk hp _ _) _ _ _))
      (outOk_ite (outOk_refused _) (outOk_next (State.sendRemoteWrites_memOk hp _)))) (outOk_refused _)
  · exact outOk_refused _

/-! ### ATS and PRI (R326, R327) -/

theorem State.invDone_memOk {t : State} (e : s.invDone = some t) : t.memOk := by
  unfold State.invDone at e
  split at e
  · cases e
  · obtain ⟨i, _, rfl⟩ := Option.map_eq_some_iff.1 e
    exact State.send_memOk (by exact State.performAll_memOk h) _

theorem execAtsInvalidateRequest_ok : OutOk (execAtsInvalidateRequest s) := by
  unfold execAtsInvalidateRequest
  split
  · next fn pasid va n _ =>
    have hp : ((s.dropInvalid fn pasid va n).performAll).memOk := State.performAll_memOk (by exact h)
    exact outOk_ite (outOk_next hp) (outOk_next (State.send_memOk hp _))
  · exact outOk_refused _

theorem State.flushList_memOk (rs : List (Nat × List Byte)) : (s.flushList rs).memOk := by
  induction rs generalizing s with
  | nil => exact h
  | cons r rs ih =>
    unfold State.flushList
    refine ih ?_
    split
    · exact h
    · split
      · exact State.writeRecord_wf h _ _
      · exact State.memOk_of_mem (State.askFront_mem _ _ _ _) h

theorem State.flushRecords_memOk : s.flushRecords.memOk := by
  have ht : (({ s with records := [] } : State).flushList s.records).memOk := State.flushList_memOk (by exact h) _
  exact State.foldl_memOk (f := fun u (c : Context) => u.killContext c.num) (fun _ _ hu => State.killContext_memOk hu _) _
    (s := (({ s with records := [] } : State).flushList s.records).dropLost s) ht

theorem State.wakeHost_memOk (q : AtsReq) (denied : Bool) : (s.wakeHost q denied).memOk := State.servePrefsNow_memOk (by exact h)

theorem State.setAts_memOk (q : AtsReq) : (s.setAts q).memOk := h

theorem State.askPage_memOk (q : AtsReq) : (s.askPage q).memOk :=
  State.ite_memOk (State.countEvent_memOk (State.send_memOk (State.setAts_memOk h _) _) _ _ _) (State.setAts_memOk h _)

theorem State.sendPages_memOk : s.sendPages.memOk := State.foldl_memOk (fun _ _ ht => State.askPage_memOk ht _) _ h

theorem execAtsCompletion_ok : OutOk (execAtsCompletion s) := by
  unfold execAtsCompletion
  split
  · split
    · exact outOk_next h
    · exact outOk_ite (outOk_next (State.askPage_memOk h _))
        (outOk_next (State.flushRecords_memOk (State.wakeHost_memOk (by exact h) _ _)))
  · exact outOk_refused _

theorem State.refusePage_memOk (q : AtsReq) : (s.refusePage q).memOk := by
  unfold State.refusePage
  extract_lets s1
  have h1 : s1.memOk := State.ite_memOk (State.setAts_memOk h _) (by exact h)
  exact State.sendPages_memOk (State.flushRecords_memOk (State.wakeHost_memOk h1 q true))

theorem execPriResponse_ok : OutOk (execPriResponse s) := by
  unfold execPriResponse
  split
  · split
    · exact outOk_next h
    · exact outOk_ite (outOk_next (State.sendPages_memOk (State.countEvent_memOk (State.send_memOk (State.setAts_memOk h _) _) _ _ _)))
        (outOk_next (State.refusePage_memOk h _))
  · exact outOk_refused _

theorem execPriTimeout_ok : OutOk (execPriTimeout s) := by
  unfold execPriTimeout
  split
  · split
    · exact outOk_ite (outOk_next (State.refusePage_memOk h _)) (outOk_refused _)
    · exact outOk_refused _
  · exact outOk_refused _

/-! ### The object table (R330, R333) -/

theorem State.setObjctl_memOk (fn : Nat) (v : DWord) (go : Bool) (st : Nat) : (s.setObjctl fn v go st).memOk := h

theorem State.installRecord_memOk (c : Context) (idx : Nat) (r : ObjRec) : (s.installRecord c idx r).2.memOk := by
  unfold State.installRecord
  split
  · dsimp only
    split
    · exact h
    · split
      · exact h
      · refine State.setCtx_memOk ?_ _
        split <;> exact h
  · exact State.setCtx_memOk h _

theorem State.install_memOk (fn : Nat) (v : DWord) (c : Context) : (s.install fn v c).memOk := by
  unfold State.install
  split
  · exact State.setObjctl_memOk h _ _ _ _
  · split
    · exact State.setObjctl_memOk h _ _ _ _
    · exact State.setObjctl_memOk (State.setCtx_memOk h _) _ _ _ _
    · exact State.setObjctl_memOk (State.installRecord_memOk h _ _ _) _ _ _ _

theorem State.objContext_memOk (num : Nat) : (s.objContext num).2.memOk := by
  unfold State.objContext
  split
  · exact h
  · exact State.loadCtx_memOk h _

theorem outOk_objRun {fn : Nat} {v : DWord} {k : Context → State → Out} (hk : ∀ c (t : State), t.memOk → OutOk (k c t)) :
    OutOk (objRun fn v s k) := by
  have h1 := State.objContext_memOk h (objCtx v)
  unfold objRun
  split
  · next e => rw [e] at h1; exact outOk_next (State.setObjctl_memOk h1 _ _ _ _)
  · next e =>
    rw [e] at h1
    exact outOk_ite (outOk_next (State.setObjctl_memOk h1 _ _ _ _))
      (outOk_ite (outOk_next (State.setObjctl_memOk h1 _ _ _ _)) (hk _ _ h1))

theorem outOk_objWrite {row : String} {op : Nat} {k : Context → Nat → DWord → State → Out}
    (hk : ∀ c fn v (t : State), t.memOk → OutOk (k c fn v t)) : OutOk (objWrite row op s k) := by
  unfold objWrite
  split
  · exact outOk_ite (outOk_ite (outOk_next h) (outOk_objRun h fun _ _ => hk _ _ _ _)) (outOk_refused _)
  · exact outOk_ite (outOk_objRun h fun _ _ => hk _ _ _ _) (outOk_refused _)
  · exact outOk_refused _

theorem execObjctlInstall_ok : OutOk (execObjctlInstall s) :=
  outOk_objWrite h fun c fn v t ht => by
    split
    · exact outOk_ite (outOk_refused _)
        (outOk_next (State.setObjctl_memOk (State.memOk_of_mem (State.askFront_mem _ _ _ _) ht) _ _ _ _))
    · have hi := State.install_memOk (State.memOk_of_mem
        (t.asksFront_mem c.who [(c.objtab + BitVec.ofNat 64 (64 * objIndex v), 64)]) ht) fn v c
      exact outOk_next hi

theorem execObjctlRemove_ok : OutOk (execObjctlRemove s) :=
  outOk_objWrite h fun _ _ _ _ ht => outOk_next (State.setObjctl_memOk (State.setCtx_memOk ht _) _ _ _ _)

/-! ### Tenant counters, the class split, worlds and the VF enable (R252, R335, R337, R338, R346) -/

theorem execTcselWrite_ok : OutOk (execTcselWrite s) := by
  unfold execTcselWrite
  split
  · exact outOk_ite (outOk_next (State.ownWrite_memOk h (State.onRegs_memOk h _))) (outOk_refused _)
  · exact outOk_refused _

theorem execClasscfgWrite_ok : OutOk (execClasscfgWrite s) := by
  unfold execClasscfgWrite
  split
  · exact outOk_ite (outOk_next (State.ownWrite_memOk h (State.onRegs_memOk h _))) (outOk_refused _)
  · exact outOk_refused _

theorem execVfapszWrite_ok : OutOk (execVfapszWrite s) := by
  unfold execVfapszWrite
  split
  · exact outOk_ite (outOk_next (State.ownWrite_memOk h (State.onRegs_memOk h _))) (outOk_refused _)
  · exact outOk_refused _

theorem execVfEnableSet_ok : OutOk (execVfEnableSet s) := outOk_ite (outOk_refused _) (outOk_next (State.onRegs_memOk h _))

theorem execWorldRegisterWrite_ok : OutOk (execWorldRegisterWrite s) := by
  unfold execWorldRegisterWrite
  split
  · exact outOk_next (State.onRegs_memOk h _)
  · exact outOk_next (State.onRegs_memOk h _)
  · exact outOk_next (State.onRegs_memOk h _)
  · exact outOk_refused _

theorem State.tearDown_memOk (ctx : Nat) : (s.tearDown ctx).memOk :=
  State.foldl_memOk (fun _ _ ht => State.dropBand_memOk ht _) _ (State.killContext_memOk h ctx)

theorem State.clearVf_memOk (fn : Nat) : (s.clearVf fn).memOk := by
  unfold State.clearVf
  extract_lets ctxs qs s1 s2 s3
  have h1 : s1.memOk := State.foldl_memOk (fun _ _ ht => State.tearDown_memOk ht _) _ h
  have h2 : s2.memOk := State.foldl_memOk (fun _ _ ht => State.onFn_memOk ht _ _) _ h1
  have h3 : s3.memOk := h2
  exact State.onFn_memOk (s := s3.dropFn fn) h3 _ _

theorem execVfEnableClear_ok : OutOk (execVfEnableClear s) := by
  unfold execVfEnableClear
  split
  · exact outOk_ite (outOk_next (State.sendPages_memOk (State.clearVf_memOk h _))) (outOk_refused _)
  · exact outOk_next (State.sendPages_memOk (State.onRegs_memOk
      (State.foldl_memOk (f := fun t (k : Nat) => t.clearVf (k + 1)) (fun _ _ ht => State.clearVf_memOk ht _) _ h) _))
  · exact outOk_refused _

/-! ### Tables and inbound requests (R350, R351, R356) -/

theorem execFrtrootWrite_ok : OutOk (execFrtrootWrite s) := by
  unfold execFrtrootWrite
  split
  · exact outOk_ite (outOk_next (State.ownWrite_memOk h (by exact h))) (outOk_refused _)
  · exact outOk_refused _

theorem execFinrootWrite_ok : OutOk (execFinrootWrite s) := by
  unfold execFinrootWrite
  split
  · exact outOk_ite (outOk_next (State.ownWrite_memOk h (by exact h))) (outOk_refused _)
  · exact outOk_refused _

theorem State.refuseFabric_memOk (src : BitVec 20) (cls : Nat) : (s.refuseFabric src cls).memOk := h

theorem State.atMsc_memOk (t : Nat) (read : Bool) (ks : List Nat) : (s.atMsc t read ks).memOk :=
  State.memOk_of_mem (s.atMsc_mem t read ks) h

theorem execInboundFabricRequest_ok : OutOk (execInboundFabricRequest s) := by
  unfold execInboundFabricRequest
  split
  · dsimp only
    split
    · exact outOk_next (State.refuseFabric_memOk h _ _)
    · have hc (t a b n m : Nat) (read : Bool) (ks : List Nat) :=
        State.atMsc_memOk (State.countEvent_memOk (State.countEvent_memOk h t a n) t b m) t read ks
      split
      · exact outOk_next (State.send_memOk (State.writeKeys_wf (hc _ _ _ _ _ _ _) _ _) _)
      · exact outOk_next (State.send_memOk (hc _ _ _ _ _ _ _) _)
  · exact outOk_refused _

/-! ### Sending, answers and failures (R352 to R358) -/

theorem State.sendFlit_memOk (r : RemoteReq) : (s.sendFlit r).memOk :=
  State.send_memOk (State.countEvent_memOk (by exact h) _ _ _) _

theorem State.newWindow_memOk : s.newWindow.memOk := h

theorem execFabricWindowStart_ok : OutOk (execFabricWindowStart s) := outOk_ite (outOk_next (State.newWindow_memOk h)) (outOk_refused _)

theorem State.inWindow_memOk : s.inWindow.memOk := State.ite_memOk (State.newWindow_memOk h) h

theorem State.dropRemote_memOk (id : Nat) : (s.dropRemote id).memOk := h

theorem State.giveRemote_memOk (r : RemoteReq) (bytes : List Byte) : (s.giveRemote r bytes).memOk := h

theorem State.remoteWritten_memOk (r : RemoteReq) : (s.remoteWritten r).memOk := h

theorem State.cacheRemote_memOk (r : RemoteReq) (bytes : List Byte) : (s.cacheRemote r bytes).memOk := by
  unfold State.cacheRemote
  dsimp only
  split
  · have ht {t : State} (e : t.mem = s.mem) : t.memOk := State.memOk_of_mem e h
    split
    · refine State.memOk_of_mem (State.fillL1_mem _ _ _ _) (State.ite_memOk h ?_)
      split
      · exact h
      · exact ht (State.allocL2_mem _ _)
    · refine State.ite_memOk h ?_
      split
      · exact h
      · exact ht (State.allocL2_mem _ _)
  · exact h

theorem State.countAnswer_memOk (r : RemoteReq) (n : Nat) : (s.countAnswer r n).memOk := State.countEvent_memOk h _ _ _

theorem State.fabricRecord_memOk (r : RemoteReq) (err : Nat) : (s.fabricRecord r err).memOk := State.faultRecord_memOk h _ _

theorem State.failRemote_memOk (err : Nat) (r : RemoteReq) : (s.failRemote err r).memOk := by
  unfold State.failRemote
  extract_lets t
  have ht : t.memOk := State.fabricRecord_memOk (State.dropRemote_memOk (State.giveRemote_memOk h _ _) _) _ _
  split
  · exact ht
  · exact State.ite_memOk ht (State.remoteWritten_memOk ht _)

theorem execRemoteNak_ok : OutOk (execRemoteNak s) := by
  unfold execRemoteNak
  split
  · split
    · exact outOk_ite (outOk_next (State.failRemote_memOk (State.countAnswer_memOk h _ _) _ _)) (outOk_refused _)
    · exact outOk_refused _
  · exact outOk_refused _

theorem execRemoteTimeout_ok : OutOk (execRemoteTimeout s) := by
  unfold execRemoteTimeout
  split
  · split
    · exact outOk_ite (outOk_next (State.failRemote_memOk h _ _)) (outOk_refused _)
    · exact outOk_refused _
  · exact outOk_refused _

theorem State.failPorts_memOk : s.failPorts.memOk := State.foldl_memOk (fun _ _ ht => State.failRemote_memOk ht _ _) _ h

theorem State.flitTurn_memOk {r : RemoteReq} {t : State} (e : s.flitTurn r = some t) : t.memOk := by
  unfold State.flitTurn at e
  split at e
  · exact Option.some.inj e ▸ State.failRemote_memOk h _ _
  · split at e
    · exact Option.some.inj e ▸ State.sendFlit_memOk h _
    · cases e

theorem State.loseLinks_memOk (ks : BitVec 24) : (s.loseLinks ks).memOk := State.failPorts_memOk (by exact h)

theorem execLinkLoss_ok : OutOk (execLinkLoss s) := by
  unfold execLinkLoss
  split
  · exact outOk_ite (outOk_next (State.loseLinks_memOk (State.inWindow_memOk h) _)) (outOk_refused _)
  · exact outOk_refused _

theorem execLinkReturn_ok : OutOk (execLinkReturn s) := by
  unfold execLinkReturn
  split
  · have hw := State.inWindow_memOk h
    exact outOk_ite (outOk_next hw) (outOk_refused _)
  · exact outOk_refused _

/-! ### Accesses are performed (R159, R161) -/

theorem State.performLine_memOk (core line scope : Nat) : (s.performLine core line scope).memOk := by
  unfold State.performLine
  dsimp only
  have hc := State.cleanLine_wf h core line
  split
  · exact State.sendRemoteWrites_memOk (State.flushHostOf_wf (by exact hc) _) _
  · exact hc

theorem State.performStore_memOk {t : State} (e : s.performStore = some t) : t.memOk := by
  unfold State.performStore at e
  split at e
  · cases e
  · dsimp only at e
    split at e
    · exact Option.some.inj e ▸ State.performRel_wf (State.releaseAt_memOk h _ _) _
    · split at e
      · cases e
      · exact Option.some.inj e ▸ State.sendRemoteWrites_memOk (State.releaseAt_memOk h _ _) _

theorem execAccessPerformed_ok : OutOk (execAccessPerformed s) := by
  unfold execAccessPerformed
  split
  · exact outOk_ite (outOk_next (State.performLine_memOk h _ _ _)) (outOk_refused _)
  · split
    · exact outOk_ite (outOk_next (State.dropRemote_memOk (State.giveRemote_memOk
        (State.cacheRemote_memOk (State.countAnswer_memOk h _ _) _ _) _ _) _)) (outOk_refused _)
    · exact outOk_refused _
  · split
    · exact outOk_fault _
    · next ht =>
      split
      · next e => exact outOk_next (State.performStore_memOk (State.focus_memOk h ht) e)
      · exact outOk_refused _
  · split
    · exact outOk_ite (outOk_next (State.dropRemote_memOk (State.remoteWritten_memOk (State.countAnswer_memOk h _ _) _) _))
        (outOk_refused _)
    · exact outOk_refused _
  · exact outOk_refused _

end

end Sys2Proof.Machine
end

section
/-! SUPPORT. The events of resets, ownership, health and the debug window keep memory in its canonical form
(19_bring_up_and_health.md R361 to R370, 15_system_and_traps.md R290). -/

namespace Sys2Proof.Machine

open Sys2Proof

section
variable {s : State} (h : s.memOk)
include h

/-! ### Device resets (R361, R370) -/

theorem State.deviceReset_memOk (fail : Byte) : (s.deviceReset fail).memOk := Memory.wf_filter _ h

theorem execDeviceReset_ok : OutOk (execDeviceReset s) := by
  unfold execDeviceReset
  split
  · exact outOk_next (State.deviceReset_memOk h _)
  · exact outOk_ite (outOk_next (State.deviceReset_memOk h _)) (outOk_refused _)
  · exact outOk_ite (outOk_next (State.deviceReset_memOk h _)) (outOk_refused _)
  · exact outOk_refused _

theorem execThermalTrip_ok : OutOk (execThermalTrip s) := by
  unfold execThermalTrip
  split
  · exact outOk_next (State.deviceReset_memOk (State.send_memOk h _) _)
  · exact outOk_refused _

theorem execFeedLoss_ok : OutOk (execFeedLoss s) := by
  unfold execFeedLoss
  split
  · exact outOk_next (State.deviceReset_memOk h _)
  · exact outOk_refused _

/-! ### Ownership (R364, R365) -/

theorem State.claim_memOk (m : Master) : (s.claim m).memOk := State.ite_memOk (State.onRegs_memOk h _) h

theorem State.accept_memOk (m : Master) : (s.accept m).memOk := State.ite_memOk (State.onRegs_memOk h _) h

theorem State.writeOwnctl_memOk (m : Master) (v : Word) : (s.writeOwnctl m v).memOk := by
  unfold State.writeOwnctl
  extract_lets own s1 s2 s3
  have h1 : s1.memOk := State.ite_memOk (State.claim_memOk h m) h
  have h2 : s2.memOk := State.ite_memOk (State.onRegs_memOk h1 _) h1
  have h3 : s3.memOk := State.ite_memOk (State.accept_memOk h2 m) h2
  exact State.ite_memOk h3 (State.onRegs_memOk h3 _)

theorem State.writeBoth_memOk (m : Master) (v : DWord) (m2 : Master) (v2 : DWord) : (s.writeBoth m v m2 v2).memOk :=
  State.ite_memOk (State.writeOwnctl_memOk (State.writeOwnctl_memOk h _ _) _ _)
    (State.writeOwnctl_memOk (State.writeOwnctl_memOk h _ _) _ _)

theorem execOwnClaim_ok : OutOk (execOwnClaim s) := by
  unfold execOwnClaim
  split
  · exact outOk_ite (outOk_next (State.writeOwnctl_memOk h _ _)) (outOk_refused _)
  · exact outOk_ite (outOk_next (State.writeBoth_memOk h _ _ _ _)) (outOk_refused _)
  · exact outOk_refused _

theorem execOwnHandto_ok : OutOk (execOwnHandto s) := by
  unfold execOwnHandto
  split
  · exact outOk_ite (outOk_next (State.writeOwnctl_memOk h _ _)) (outOk_refused _)
  · exact outOk_ite (outOk_next (State.writeBoth_memOk h _ _ _ _)) (outOk_refused _)
  · exact outOk_refused _

theorem execOwnAccept_ok : OutOk (execOwnAccept s) := by
  unfold execOwnAccept
  split
  · exact outOk_ite (outOk_next (State.writeOwnctl_memOk h _ _)) (outOk_refused _)
  · exact outOk_ite (outOk_next (State.writeBoth_memOk h _ _ _ _)) (outOk_refused _)
  · exact outOk_refused _

theorem State.lapse_memOk : s.lapse.memOk := State.ite_memOk (State.onRegs_memOk h _) h

theorem execHostLinkDown_ok : OutOk (execHostLinkDown s) := outOk_next (State.lapse_memOk h)

theorem State.cancelCopies_memOk (fn : Nat) : (s.cancelCopies fn).memOk := State.mapGroups_memOk (by exact h) _ _

theorem execPfFunctionLevelReset_ok : OutOk (execPfFunctionLevelReset s) :=
  outOk_next (State.cancelCopies_memOk (State.lapse_memOk h) 0)

/-! ### Health and temperature (R369, R370) -/

theorem State.slow_memOk (d : Nat) : (s.slow d).memOk := h

theorem execHealthUpdate_ok : OutOk (execHealthUpdate s) := by
  unfold execHealthUpdate
  split
  · split
    · extract_lets v low s1 s2
      have h2 : s2.memOk :=
        State.foldl_memOk (f := fun (t : State) d => if low d then t.slow d else t)
          (fun _ _ ht => State.ite_memOk (State.slow_memOk ht _) ht) _ (s := s1) (State.onRegs_memOk h _)
      exact outOk_next h2
    · exact outOk_refused _
  · exact outOk_refused _

theorem execThermalLimit_ok : OutOk (execThermalLimit s) := by
  unfold execThermalLimit
  split
  · exact outOk_ite (outOk_next (by exact h)) (outOk_refused _)
  · exact outOk_refused _

theorem execCorrectedError_ok : OutOk (execCorrectedError s) := by
  unfold execCorrectedError
  split
  · exact outOk_next (State.corrected_memOk (State.onRegs_memOk h _) _)
  · exact outOk_refused _

/-! ### The debug window (R290, R367, R368) -/

theorem State.endDebug_memOk (v : DWord) (st : Nat) : (s.endDebug v st).memOk := State.onRegs_memOk h _

theorem outOk_debugRun {row : String} {op : Nat} {k : Group → DWord → State → State}
    (hk : ∀ g v, (k g v s).memOk) : OutOk (debugRun row op s k) := by
  unfold debugRun
  split
  · refine outOk_ite (outOk_ite (outOk_next h) (outOk_ite (outOk_next (State.endDebug_memOk h _ _)) ?_)) (outOk_refused _)
    split
    · exact outOk_next (State.endDebug_memOk h _ _)
    · exact outOk_ite (outOk_next (State.onRegs_memOk h _)) (outOk_next (hk _ _))
  · refine outOk_ite ?_ (outOk_refused _)
    split
    · exact outOk_next (State.endDebug_memOk h _ _)
    · exact outOk_ite (outOk_refused _) (outOk_next (hk _ _))
  · exact outOk_refused _

theorem State.halt_memOk : s.halt.memOk := by
  have h1 := State.endWait_memOk h
  exact State.ite_memOk h1 (State.park_wf (by exact h1) _ _ _)

theorem State.haltAway_memOk (restart : Bool) (st : Status) : (s.haltAway restart st).memOk :=
  State.onGrp_memOk (State.park_wf (by exact h) _ _ _) _

theorem State.haltGroup_memOk : s.haltGroup.memOk := by
  unfold State.haltGroup
  split
  · exact State.haltAway_memOk h _ _
  · exact State.haltAway_memOk h _ _
  · exact State.halt_memOk h

theorem execDebugHalt_ok : OutOk (execDebugHalt s) :=
  outOk_debugRun h fun _ _ => State.endDebug_memOk
    (State.ite_memOk h (State.asGroup_memOk h _ fun _ ht => State.haltGroup_memOk ht)) _ _

theorem execDebugRead_ok : OutOk (execDebugRead s) := by
  refine outOk_debugRun h fun g v => State.ite_memOk (State.endDebug_memOk h _ _) ?_
  split
  · exact State.endDebug_memOk (State.onRegs_memOk (by exact h) _) _ _
  · exact State.endDebug_memOk (State.onRegs_memOk h _) _ _
  · exact State.endDebug_memOk h _ _

theorem State.debugPut_memOk (v : DWord) (uid : Nat) (d : Dbg Group) : (s.debugPut v uid d).memOk := by
  cases d with
  | ok g => exact State.endDebug_memOk (State.asGroup_memOk h _ fun _ ht => by exact ht) _ _
  | notAlloc => exact State.endDebug_memOk h _ _
  | badReg => exact State.endDebug_memOk h _ _

theorem execDebugWrite_ok : OutOk (execDebugWrite s) :=
  outOk_debugRun h fun _ _ => State.ite_memOk (State.endDebug_memOk h _ _) (State.debugPut_memOk h _ _ _)

theorem execDebugWrec_ok : OutOk (execDebugWrec s) :=
  outOk_debugRun h fun _ _ => State.ite_memOk (State.endDebug_memOk h _ _) (State.debugPut_memOk h _ _ _)

end

end Sys2Proof.Machine
end

section
/-! SUPPORT. The register writes of the host and of the BMC keep memory in its canonical form (18_package_host_fabric.md R347,
19_bring_up_and_health.md R366): a write to the MSI-X table changes memory itself, any other only through the event that it starts. -/

namespace Sys2Proof.Machine

open Sys2Proof

section
variable {s : State} (h : s.memOk)
include h

/-! ### Registers that start an operation -/

theorem State.viaRow_memOk (a : EvArg) {row : State → Out} (hrow : ∀ t : State, t.memOk → OutOk (row t)) :
    (s.viaRow a row).memOk := by
  have hout : OutOk (row { s with ev := a }) := hrow _ h
  unfold State.viaRow
  split
  · next t e => exact hout t e
  · exact h

theorem State.writeQctl_memOk (fn : Nat) (v : DWord) : (s.writeQctl fn v).memOk := by
  unfold State.writeQctl
  refine State.ite_memOk h (State.ite_memOk ?_ (State.onFn_memOk h _ _))
  split
  · exact State.viaRow_memOk h _ fun _ ht => execQctlInval_ok ht
  · exact State.viaRow_memOk h _ fun _ ht => execQctlDestroy_ok ht
  · exact State.viaRow_memOk h _ fun _ ht => execQctlDbmap_ok ht
  · exact State.viaRow_memOk h _ fun _ ht => execQctlDbunmap_ok ht
  · exact State.endQctl_memOk h _ _ _

theorem State.writeObjctl_memOk (fn : Nat) (v : DWord) : (s.writeObjctl fn v).memOk := by
  unfold State.writeObjctl
  refine State.ite_memOk h (State.ite_memOk ?_ (State.setObjctl_memOk h _ _ _ _))
  split
  · exact State.viaRow_memOk h _ fun _ ht => execObjctlInstall_ok ht
  · exact State.viaRow_memOk h _ fun _ ht => execObjctlRemove_ok ht
  · exact State.setObjctl_memOk h _ _ _ _

theorem State.writeTlbinv_memOk (fn : Nat) (v : DWord) : (s.writeTlbinv fn v).memOk := by
  unfold State.writeTlbinv
  refine State.ite_memOk h (State.ite_memOk ?_ (State.onFn_memOk h _ _))
  split
  · exact State.viaRow_memOk h _ fun _ ht => execTlbinvPasid_ok ht
  · exact State.viaRow_memOk h _ fun _ ht => execTlbinvRange_ok ht
  · exact State.viaRow_memOk h _ fun _ ht => execTlbinvStage2_ok ht
  · exact State.endTlb_memOk h _ _ _

theorem State.writePkcmd_memOk (fn : Nat) (v : DWord) : (s.writePkcmd fn v).memOk := by
  unfold State.writePkcmd
  refine State.ite_memOk h (State.ite_memOk ?_ (State.onFn_memOk h _ _))
  split
  · exact State.viaRow_memOk h _ fun _ ht => execParkctlResumeInstruction_ok ht
  · exact State.viaRow_memOk h _ fun _ ht => execParkctlResumeHandler_ok ht
  · exact State.viaRow_memOk h _ fun _ ht => execParkctlKillGroup_ok ht
  · exact State.viaRow_memOk h _ fun _ ht => execParkctlKillTeam_ok ht
  · exact State.viaRow_memOk h _ fun _ ht => execParkctlKillBand_ok ht
  · exact State.viaRow_memOk h _ fun _ ht => execParkctlKillContext_ok ht
  · exact State.endPark_memOk h _ _ _

theorem State.writeDbgcmd_memOk (m : Master) (v : DWord) : (s.writeDbgcmd m v).memOk := by
  unfold State.writeDbgcmd
  refine State.ite_memOk h (State.ite_memOk ?_ (State.endDebug_memOk h _ _))
  split
  · exact State.viaRow_memOk h _ fun _ ht => execDebugHalt_ok ht
  · exact State.viaRow_memOk h _ fun _ ht => execDebugRead_ok ht
  · exact State.viaRow_memOk h _ fun _ ht => execDebugWrite_ok ht
  · exact State.viaRow_memOk h _ fun _ ht => execDebugWrec_ok ht
  · exact State.endDebug_memOk h _ _

theorem State.writeDreset_memOk (v : DWord) : (s.writeDreset v).memOk := by
  unfold State.writeDreset
  extract_lets die put
  have hput (go : Bool) (st : Nat) : (put go st).memOk := State.onRegs_memOk h _
  exact State.ite_memOk h (State.ite_memOk (hput _ _) (State.ite_memOk (hput _ _) (State.ite_memOk (hput _ _)
    (State.ite_memOk (hput _ _) (hput _ _)))))

/-! ### The register at an offset (R347) -/

theorem State.putPart_memOk (m : Master) (off : Nat) (v : DWord) : (s.putPart m off v).memOk := by
  unfold State.putPart
  extract_lets own
  have hown (f : PartRegs → PartRegs) : (own f).memOk := State.ownWrite_memOk h (State.onRegs_memOk h f)
  split
  · exact State.writeOwnctl_memOk h _ _
  · exact hown _
  · exact hown _
  · exact hown _
  · exact State.viaRow_memOk h _ fun _ ht => execClasscfgWrite_ok ht
  · exact State.viaRow_memOk h _ fun _ ht => execVfapszWrite_ok ht
  · exact State.ownWrite_memOk h (State.writeDreset_memOk h v)
  · exact hown _
  · exact hown _
  · exact State.viaRow_memOk h _ fun _ ht => execFrtrootWrite_ok ht
  · exact State.viaRow_memOk h _ fun _ ht => execFinrootWrite_ok ht
  · exact State.onRegs_memOk h _
  · exact State.onRegs_memOk h _
  · exact State.onRegs_memOk h _
  · exact State.writeDbgcmd_memOk h _ _
  · exact State.ite_memOk (State.ownWrite_memOk h (State.failPorts_memOk (State.onRegs_memOk h _))) h

theorem State.putReg_memOk (m : Master) (off : Nat) (v : DWord) : (s.putReg m off v).memOk := by
  unfold State.putReg
  extract_lets fn
  split
  · exact State.writeQctl_memOk h _ _
  · exact State.writeObjctl_memOk h _ _
  · exact State.ite_memOk h (State.onFn_memOk h _ _)
  · exact State.writeTlbinv_memOk h _ _
  · exact State.onFn_memOk h _ _
  · exact State.writePkcmd_memOk h _ _
  · exact State.ite_memOk (State.putPart_memOk h _ _ _) h

theorem State.writeMsix_memOk (fn off : Nat) (bytes : List Byte) :
    ({ s with mem := s.mem.setMany (keyMsix fn off) bytes } : State).memOk := Memory.wf_setMany h _ _

theorem State.regWrite_memOk (m : Master) (off size : Nat) (v : DWord) : (s.regWrite m off size v).memOk := by
  unfold State.regWrite
  extract_lets fn
  refine State.ite_memOk (State.send_memOk h _) (State.ite_memOk h (State.ite_memOk (State.writeMsix_memOk h _ _ _)
    (State.ite_memOk (State.viaRow_memOk h _ fun _ ht => execTcselWrite_ok ht) ?_)))
  split
  · exact State.ite_memOk (State.putReg_memOk h _ _ _) (State.ite_memOk (State.putReg_memOk h _ _ _) (State.putReg_memOk h _ _ _))
  · split
    · exact State.putReg_memOk h _ _ _
    · exact h

theorem execRegisterWrite_ok : OutOk (execRegisterWrite s) := by
  unfold execRegisterWrite
  split
  · exact outOk_ite (outOk_next (State.regWrite_memOk h _ _ _ _)) (outOk_refused _)
  · exact outOk_refused _

end

end Sys2Proof.Machine
end

section
/-! SUPPORT. The accesses of the host and the resets of dies keep memory in its canonical form (18_package_host_fabric.md R341 to
R348). -/

namespace Sys2Proof.Machine

open Sys2Proof

section
variable {s : State} (h : s.memOk)
include h

/-! ### The ordering point (R346, R348) -/

theorem State.countMsc_memOk (t l : Nat) : (s.countMsc t l).memOk := State.memOk_of_mem (s.countMsc_mem t l) h

theorem State.walkAperture_memOk (fn bar off n : Nat) : (s.walkAperture fn bar off n).memOk :=
  State.ite_memOk h (State.foldl_memOk (fun _ _ ht =>
    State.foldl_memOk (fun _ _ hu => State.countMsc_memOk hu _ _) _ (State.countEvent_memOk ht _ _ _)) _ h)

theorem State.setPosts_memOk (p : PostStream) : (s.setPosts p).memOk := h

theorem execInboundPostedWrite_ok : OutOk (execInboundPostedWrite s) := by
  unfold execInboundPostedWrite
  split
  · next fn bar off bytes _ =>
    extract_lets built s1 p s2
    have h1 : s1.memOk := h
    have h2 : s2.memOk := State.walkAperture_memOk h1 _ _ _ _
    refine outOk_ite (outOk_refused _) (outOk_ite (outOk_next (State.send_memOk h1 _)) ?_)
    split
    · exact outOk_next (State.setPosts_memOk h2 _)
    · exact outOk_next (State.send_memOk h2 _)
  · exact outOk_refused _

theorem State.sendPost_memOk (fn : Nat) (p : PostStream) (i : Nat) (r : PostReq) : (s.sendPost fn p i r).memOk := by
  unfold State.sendPost
  extract_lets p1 sp s1
  have h1 : s1.memOk := h
  exact State.ite_memOk (State.send_memOk h1 _) h1

theorem execOrderingPointSend_ok : OutOk (execOrderingPointSend s) := by
  unfold execOrderingPointSend
  split
  · dsimp only
    split
    · exact outOk_ite (outOk_next (State.sendPost_memOk h _ _ _ _)) (outOk_refused _)
    · exact outOk_refused _
  · exact outOk_refused _

theorem State.performPost_memOk (fn : Nat) (r : PostReq) : (s.performPost fn r).memOk := by
  unfold State.performPost
  split
  · exact State.writeKeys_wf (State.atMsc_memOk h _ _ _) _ _
  · exact State.ite_memOk (State.regWrite_memOk h _ _ _ _) (State.doorbell_memOk h _ _ _)

theorem State.ackPost_memOk (fn : Nat) (p : PostStream) (i : Nat) (r : PostReq) : (s.ackPost fn p i r).memOk :=
  State.performPost_memOk (State.setPosts_memOk h _) _ _

theorem execOrderingPointAck_ok : OutOk (execOrderingPointAck s) := by
  unfold execOrderingPointAck
  split
  · dsimp only
    split
    · exact outOk_ite (outOk_next (State.ackPost_memOk h _ _ _ _)) (outOk_refused _)
    · exact outOk_refused _
  · exact outOk_refused _

theorem State.readAperture_memOk (fn bar off n : Nat) : (s.readAperture fn bar off n).memOk :=
  State.ite_memOk (State.atMsc_memOk h _ _ _) h

theorem execInboundHostRead_ok : OutOk (execInboundHostRead s) := by
  unfold execInboundHostRead
  split
  · exact outOk_next (State.send_memOk h _)
  · next fn bar off count _ =>
    extract_lets built s1 s2
    have h1 : s1.memOk := h
    have h2 : s2.memOk := State.walkAperture_memOk h1 _ _ _ _
    refine outOk_ite (outOk_refused _) (outOk_ite (outOk_next (State.send_memOk h1 _)) ?_)
    split
    · exact outOk_next (State.send_memOk (State.readAperture_memOk h2 _ _ _ _) _)
    · exact outOk_next (State.send_memOk h2 _)
  · exact outOk_refused _

/-! ### Die resets (R341 to R343) -/

omit h in
/-- Fencing a die changes registers of the part and what of it is built. -/
theorem State.fenceDie_eq (s : State) (die : Nat) :
    ∃ (b : Built) (f : PartRegs → PartRegs), s.fenceDie die = { s.onRegs f with built := b } := ⟨_, _, rfl⟩

theorem State.fenceDie_memOk (die : Nat) : (s.fenceDie die).memOk := by
  obtain ⟨b, f, hfence⟩ := s.fenceDie_eq die
  rw [hfence]
  exact h

theorem State.drainX_memOk (d : Nat) : (s.drainX d).memOk := by
  have h1 : ((s.ctxsOn d).foldl State.killContext s).memOk := State.foldl_memOk (fun _ _ ht => State.killContext_memOk ht _) _ h
  exact State.sendFor_memOk (State.flushHost_wf h1) _

theorem State.resetX_memOk (d : Nat) : (s.resetX d).memOk := h

theorem State.drainStream_memOk (fn : Nat) (rs : List PostReq) : (s.drainStream fn rs).memOk := by
  induction rs generalizing s with
  | nil => exact h
  | cons r rs ih => exact ih (State.performPost_memOk h fn r)

theorem State.drainPosts_memOk : s.drainPosts.memOk :=
  State.foldl_memOk (f := fun t (p : PostStream) => t.drainStream p.fn p.reqs) (fun _ _ ht => State.drainStream_memOk ht _ _) _
    (s := { s with posts := [] }) h

theorem State.resetHd_memOk : s.resetHd.memOk := by
  have h1 : ((s.ctxs.map (·.num)).foldl State.killContext s).memOk :=
    State.foldl_memOk (fun _ _ ht => State.killContext_memOk ht _) _ h
  exact State.lapse_memOk (State.drainPosts_memOk h1)

theorem State.resetO_memOk (k : Nat) : (s.resetO k).memOk := State.loseLinks_memOk (State.inWindow_memOk h) _

theorem outOk_dresetX {d : Nat} {k : State → Out} (hk : ∀ t : State, t.memOk → OutOk (k t)) : OutOk (s.dresetX d k) := by
  have ht := State.drainX_memOk h d
  exact outOk_ite (hk _ (State.resetX_memOk ht d)) (outOk_ite (outOk_refused _) (outOk_next ht))

theorem execDreset_ok : OutOk (execDreset s) := by
  unfold execDreset
  split
  · extract_lets die done
    have hdone (t : State) (ht : t.memOk) : OutOk (done t) :=
      outOk_next (State.moveQueues_memOk (State.onRegs_memOk (State.ite_memOk (State.fenceDie_memOk ht _) ht) _))
    refine outOk_ite (outOk_ite (outOk_dresetX h hdone) (hdone _ ?_)) (outOk_refused _)
    exact State.ite_memOk (State.resetHd_memOk h) (State.resetO_memOk h _)
  · exact outOk_refused _

end

end Sys2Proof.Machine
end

section
/-! SUPPORT. Every instruction and every event keeps memory in its canonical form. The instructions on registers differ in their value
alone, so that one law serves all that leave it in the same place (R69, R78, R82, R83, R93). -/

namespace Sys2Proof.Machine

open Sys2Proof

section
variable {s : State} (h : s.memOk)
include h

/-! ### Instructions on registers -/

theorem branch_ok (ok taken : Bool) (off : Word) : OutOk (finish 1 (s.branch ok taken off)) :=
  outOk_finish _ (State.branch_keeps h ok taken off)

theorem call_ok (ok : Bool) (d : BitVec 6) (t : DWord) : OutOk (finish 1 (s.call ok d t)) :=
  outOk_finish _ (State.call_keeps h ok d t)

theorem indirect_ok (f : CB) : OutOk (finish 1 (s.indirect f)) := outOk_finish _ (State.indirect_keeps h f)

theorem tripleResult_ok (n : Nat) (ok : Bool) (d : BitVec 6) (x : LaneSet) : OutOk (finish n (s.toTriple ok d x)) :=
  outOk_finish _ (State.toTriple_keeps h ok d x)

theorem scalarResult_ok (n : Nat) (ok : Bool) (d : BitVec 6) (x : Word) : OutOk (finish n (s.toScalar ok d x)) :=
  outOk_finish _ (State.toScalar_keeps h ok d x)

theorem pairResult_ok (n : Nat) (ok : Bool) (d : BitVec 6) (x : DWord) : OutOk (finish n (s.toPair ok d x)) :=
  outOk_finish _ (State.toPair_keeps h ok d x)

theorem vectorResult_ok (ok fmt rgnw : Bool) (t : BitVec 3) (us : List Use) (body : VBody) :
    OutOk (finish 1 (s.runVR ok fmt rgnw t us body)) := outOk_finish _ (State.runVR_keeps h ok fmt rgnw t us body)

/-! ### Loops (R71 to R73) -/

theorem execLoop_ok (f : CB) : OutOk (execLoop f s) :=
  outOk_finish _ (State.need_then h (State.chk_then h fun _ _ =>
    runOk_ite (runOk_pure (by exact h)) (State.need_then h (runOk_done (State.onGrp_memOk h _)))))

theorem execLbrk_ok (f : CB) : OutOk (execLbrk f s) :=
  outOk_finish _ (State.need_then h (State.chk_then h fun _ _ => runOk_pure (State.onGrp_memOk h _)))

theorem execLcget_ok (f : CB) : OutOk (execLcget f s) :=
  outOk_finish _ (State.need_then h (State.need_then h (runOk_done (State.onGrp_memOk h _))))

theorem execLcset_ok (f : CB) : OutOk (execLcset f s) :=
  outOk_finish _ (State.need_then h (runOk_done (State.onGrp_memOk h _)))

/-! ### The dispatch -/

theorem exec_ok (i : Instr) : OutOk (exec i s) := by
  cases i with
  | br _ | beq _ | bne _ | blt _ | bge _ | bltu _ | bgeu _ | bmz _ | bmnz _ | bmall _ => exact branch_ok h _ _ _
  | call _ | calli _ => exact call_ok h _ _ _
  | ret _ | jmpi _ => exact indirect_ok h _
  | loop _ => exact execLoop_ok h _
  | lbrk _ => exact execLbrk_ok h _
  | lcget _ => exact execLcget_ok h _
  | lcset _ => exact execLcset_ok h _
  | exit _ => exact execExit_ok h _
  | yield _ => exact execYield_ok h _
  | nop _ => exact execNop_ok h _
  | snooze _ => exact execSnooze_ok h _
  | mand _ | mor _ | mxor _ | mandn _ | mnot _ => exact tripleResult_ok h _ _ _ _
  | mpopc _ | mffs _ => exact scalarResult_ok h _ _ _ _
  | mrange _ => exact tripleResult_ok h _ _ _ _
  | mtest _ => exact scalarResult_ok h _ _ _ _
  | mmov _ | mlive _ => exact tripleResult_ok h _ _ _ _
  | add _ | sub _ | mul _ | mulhs _ | mulhu _ | and _ | or _ | xor _ | andn _ | shl _ | shr _ | sar _ | rotl _ | min _
  | max _ | minu _ | maxu _ | slt _ | sltu _ | seq _ | sne _ | clz _ | ctz _ | popc _ | brev _ | cmov _
    => exact scalarResult_ok h _ _ _ _
  | addw _ | subw _ | mulw _ | shlw _ | shrw _ | sarw _ => exact pairResult_ok h _ _ _ _
  | sltw _ | sltuw _ | li _ => exact scalarResult_ok h _ _ _ _
  | liw _ _ | lea _ | movwCopy _ | movwRelative _ => exact pairResult_ok h _ _ _ _
  | vadd _ | vsub _ | vmul _ | vmulh _ | vmulhu _ | vmad _ | vand _ | vor _ | vxor _ | vandn _ | vshl _ | vshr _ | vsar _
  | vmin _ | vmax _ | vminu _ | vmaxu _ | vabs _ | vneg _ | vpopc _ | vclz _ | vicmp _ | vfcmp _ | vfadd _ | vfsub _
  | vfmul _ | vfma _ | vfnma _ | vfmin _ | vfmax _ | vfminn _ | vfmaxn _ | vfabs _ | vfneg _ | vfcps _ | vfrnd _ | vfdiv _
  | vfsqrt _ | vfclass _ | vrcp _ | vrsq _ | vexp2 _ | vlog2 _ | vsinpi _ | vcospi _ | vtanh _ | vmov _ | vsel _ | vbcst _
  | vidx _ | vget _ | vput _ | vcvtf _ | vf2i _ | vi2f _ | vcvt8 _ | vext8 _ | vscale _ | vbscl _ | vpk8 _ | vupk8 _
  | vrngs _ | vrng _ => exact vectorResult_ok h _ _ _ _ _ _
  | sld _ _ => exact execSld_ok h _ _
  | sst _ _ => exact execSst_ok h _ _
  | vld _ _ => exact vecLoad_ok h _ _ _ _
  | vst _ _ => exact vecStore_ok h _ _ _ _
  | vldb _ _ => exact vecLoad_ok h _ _ _ _
  | vstb _ _ => exact vecStore_ok h _ _ _ _
  | zset _ => exact execZset_ok h _
  | zsets _ => exact execZsets_ok h _
  | zrew _ => exact execZrew_ok h _
  | zposRead _ => exact execZposRead_ok h _
  | zposSet _ => exact execZposSet_ok h _
  | zposEnd _ => exact execZposEnd_ok h _
  | fence _ _ => exact execFence_ok h _ _
  | cwb _ _ | cinv _ _ => exact cacheLine_ok h _ _ _ _
  | pref _ _ => exact execPref_ok h _ _
  | chopen _ => exact execChopen_ok h _
  | chwait _ => exact execChwait_ok h _
  | chclose _ => exact execChclose_ok h _
  | satom _ _ => exact execSatom_ok h _ _
  | vatom _ _ => exact execVatom_ok h _ _
  | fxadd _ _ => exact execFxadd_ok h _ _
  | fxrd _ _ => exact execFxrd_ok h _ _
  | bart _ => exact execBart_ok h _
  | bara _ => exact execBara_ok h _
  | barw _ => exact execBarw_ok h _
  | barb _ => exact execBarb_ok h _
  | sbinit _ => exact execSbinit_ok h _
  | sbarv _ => exact execSbarv_ok h _
  | sbwait _ => exact execSbwait_ok h _
  | waitv _ _ => exact execWaitv_ok h _ _
  | batt _ => exact execBatt_ok h _
  | bpost _ => exact execBpost_ok h _
  | bread _ => exact execBread_ok h _
  | bdet _ => exact execBdet_ok h _
  | bvseg _ => exact execBvseg_ok h _
  | bvcmp _ => exact execBvcmp_ok h _
  | vvote _ | vshfl _ | vmatch _ | vred _ | vscan _ => exact vectorResult_ok h _ _ _ _ _ _
  | qbind _ => exact execQbind_ok h _
  | qpush _ => exact execQpush_ok h _
  | qpop _ => exact execQpop_ok h _
  | qtry _ => exact execQtry_ok h _
  | qstat _ => exact execQstat_ok h _
  | copyLinear _ _ | copyDescribed _ _ | copyg _ _ | copys _ _ | copyr _ _ => exact copyInstr_ok h _ _ _ _
  | mloop _ _ => exact execMloop_ok h _ _
  | mzero _ => exact execMzero_ok h _
  | mrd _ => exact execMrd_ok h _
  | mwr _ => exact execMwr_ok h _
  | mst _ _ => exact execMst_ok h _ _
  | mwait _ => exact execMwait_ok h _
  | mstat _ => exact execMstat_ok h _
  | rcrt _ => exact execRcrt_ok h _
  | hnext _ => exact execHnext_ok h _
  | hrd _ => exact execHrd_ok h _
  | hend _ => exact execHend_ok h _
  | hjoin _ => exact execHjoin_ok h _
  | hrel _ => exact execHrel_ok h _
  | rgnOpen _ => exact execRgnOpen_ok h _
  | rgnClose _ => exact execRgnClose_ok h _
  | rgnAbort _ => exact execRgnAbort_ok h _
  | rds _ => exact execRds_ok h _
  | wrs _ => exact execWrs_ok h _
  | trap _ => exact execTrap_ok h _
  | brk _ => exact execBrk_ok h _
  | eret _ => exact execEret_ok h _
  | sigs _ => exact execSigs_ok h _
  | pcnt _ => exact execPcnt_ok h _
  | dtime _ => exact execDtime_ok h _
  | unassignedWord w => exact execUnassignedWord_ok h w
  | yieldWake => exact execYieldWake_ok h
  | snoozeExpiry => exact execSnoozeExpiry_ok h
  | channelDrained => exact execChannelDrained_ok h
  | barrierWatchdogExpiry => exact execBarrierWatchdogExpiry_ok h
  | sbwaitRelease => exact execSbwaitRelease_ok h
  | waitvRecheck => exact execWaitvRecheck_ok h
  | waitvTimeout => exact execWaitvTimeout_ok h
  | bpostReturn => exact execBpostReturn_ok h
  | qpushRoom => exact execQpushRoom_ok h
  | qpopEntry => exact execQpopEntry_ok h
  | copyIssueUnblock => exact execCopyIssueUnblock_ok h
  | copyCommandStart => exact execCopyCommandStart_ok h
  | granuleLand => exact execGranuleLand_ok h
  | copyToken => exact execCopyToken_ok h
  | mwaitDone => exact execMwaitDone_ok h
  | kstepStart => exact execKstepStart_ok h
  | kstepComplete => exact execKstepComplete_ok h
  | tileFetch => exact execTileFetch_ok h
  | mstPerform => exact execMstPerform_ok h
  | mzeroPerform => exact execMzeroPerform_ok h
  | helperStart => exact execHelperStart_ok h
  | hjoinComplete => exact execHjoinComplete_ok h
  | chunkWatchdogExpiry => exact execChunkWatchdogExpiry_ok h
  | rgnOpenBufferGrant => exact execRgnOpenBufferGrant_ok h
  | rgnCommitPublish => exact execRgnCommitPublish_ok h
  | progressWatchdogExpiry => exact execProgressWatchdogExpiry_ok h
  | issueFairnessRaise => exact execIssueFairnessRaise_ok h
  | bankSweep => exact execBankSweep_ok h
  | machineCheck => exact execMachineCheck_ok h
  | harvestEviction => exact execHarvestEviction_ok h
  | spillComplete => exact execSpillComplete_ok h
  | harvestReload => exact execHarvestReload_ok h
  | bandPlace => exact execBandPlace_ok h
  | bandRetire => exact execBandRetire_ok h
  | tenantSliceEnd => exact execTenantSliceEnd_ok h
  | deadlineOverrun => exact execDeadlineOverrun_ok h
  | preemptHandlerTimeout => exact execPreemptHandlerTimeout_ok h
  | contextSave => exact execContextSave_ok h
  | contextResume => exact execContextResume_ok h
  | checkpointTrigger => exact execCheckpointTrigger_ok h
  | checkpointBundleStart => exact execCheckpointBundleStart_ok h
  | doorbellWrite => exact execDoorbellWrite_ok h
  | bundleRead => exact execBundleRead_ok h
  | waitConditionPoll => exact execWaitConditionPoll_ok h
  | bundleStart => exact execBundleStart_ok h
  | signalAfter => exact execSignalAfter_ok h
  | bundleRetire => exact execBundleRetire_ok h
  | qctlInval => exact execQctlInval_ok h
  | qctlDestroy => exact execQctlDestroy_ok h
  | destroyComplete => exact execDestroyComplete_ok h
  | qctlDbmap => exact execQctlDbmap_ok h
  | qctlDbunmap => exact execQctlDbunmap_ok h
  | parkctlResumeInstruction => exact execParkctlResumeInstruction_ok h
  | parkctlResumeHandler => exact execParkctlResumeHandler_ok h
  | parkctlKillGroup => exact execParkctlKillGroup_ok h
  | parkctlKillTeam => exact execParkctlKillTeam_ok h
  | parkctlKillBand => exact execParkctlKillBand_ok h
  | parkctlKillContext => exact execParkctlKillContext_ok h
  | tlbinvPasid => exact execTlbinvPasid_ok h
  | tlbinvRange => exact execTlbinvRange_ok h
  | tlbinvStage2 => exact execTlbinvStage2_ok h
  | tlbinvComplete => exact execTlbinvComplete_ok h
  | objctlInstall => exact execObjctlInstall_ok h
  | objctlRemove => exact execObjctlRemove_ok h
  | atsCompletion => exact execAtsCompletion_ok h
  | priResponse => exact execPriResponse_ok h
  | priTimeout => exact execPriTimeout_ok h
  | atsInvalidateRequest => exact execAtsInvalidateRequest_ok h
  | vfEnableClear => exact execVfEnableClear_ok h
  | inboundPostedWrite => exact execInboundPostedWrite_ok h
  | orderingPointSend => exact execOrderingPointSend_ok h
  | orderingPointAck => exact execOrderingPointAck_ok h
  | inboundHostRead => exact execInboundHostRead_ok h
  | hostLinkDown => exact execHostLinkDown_ok h
  | inboundFabricRequest => exact execInboundFabricRequest_ok h
  | remoteNak => exact execRemoteNak_ok h
  | remoteTimeout => exact execRemoteTimeout_ok h
  | linkLoss => exact execLinkLoss_ok h
  | linkReturn => exact execLinkReturn_ok h
  | fabricWindowStart => exact execFabricWindowStart_ok h
  | dreset => exact execDreset_ok h
  | deviceReset => exact execDeviceReset_ok h
  | ownClaim => exact execOwnClaim_ok h
  | ownHandto => exact execOwnHandto_ok h
  | ownAccept => exact execOwnAccept_ok h
  | debugHalt => exact execDebugHalt_ok h
  | debugRead => exact execDebugRead_ok h
  | debugWrite => exact execDebugWrite_ok h
  | debugWrec => exact execDebugWrec_ok h
  | classcfgWrite => exact execClasscfgWrite_ok h
  | vfapszWrite => exact execVfapszWrite_ok h
  | tcselWrite => exact execTcselWrite_ok h
  | frtrootWrite => exact execFrtrootWrite_ok h
  | finrootWrite => exact execFinrootWrite_ok h
  | registerWrite => exact execRegisterWrite_ok h
  | healthUpdate => exact execHealthUpdate_ok h
  | thermalLimit => exact execThermalLimit_ok h
  | thermalTrip => exact execThermalTrip_ok h
  | feedLoss => exact execFeedLoss_ok h
  | accessPerformed => exact execAccessPerformed_ok h
  | pfFunctionLevelReset => exact execPfFunctionLevelReset_ok h
  | correctedError => exact execCorrectedError_ok h
  | vfEnableSet => exact execVfEnableSet_ok h
  | worldRegisterWrite => exact execWorldRegisterWrite_ok h

end

end Sys2Proof.Machine
end

section
/-! SUPPORT. Turns, the machine's own schedule and the passing of time keep memory in its canonical form, and so does a step
(02_instruction_words.md R32, R52, 01_machine.md R27, R29, 15_system_and_traps.md R271). -/

namespace Sys2Proof.Machine

open Sys2Proof

section
variable {s : State} (h : s.memOk)
include h

/-! ### The issue of an instruction (R27, R32, R283) -/

omit h in
@[simp] theorem State.fetched_mem (s : State) : s.fetched.mem = s.mem := by
  unfold State.fetched
  extract_lets g t ks miss
  split
  · rw [State.allocLoad_mem]
    exact (State.countL2_mem _ _ _ _ _).trans (State.walkVas_mem _ _ _ _)
  · rfl

theorem State.fetched_memOk : s.fetched.memOk := State.memOk_of_mem s.fetched_mem h

theorem runWord_ok : OutOk s.runWord := by
  have hf := State.fetched_memOk h
  refine outOk_ite (outOk_next (State.continueAt_wf h _)) ?_
  split
  · exact outOk_next (State.takeTrap_memOk hf _)
  · exact exec_ok hf _

theorem runInsn_ok : OutOk s.runInsn := by
  refine outOk_ite ?_ (runWord_ok h)
  split
  · next t e => exact runWord_ok (State.memOk_of_mem (State.enter_mem e) h)
  · exact outOk_next (State.takeTrap_memOk h _)

theorem retry_ok (w : Wait) : OutOk (s.retry w) := by
  unfold State.retry
  split
  · exact runInsn_ok h
  · exact outOk_finish _ (State.openRegion_keeps h _)
  · exact outOk_finish _ (State.tryMx_keeps h _ _ _)
  · exact outOk_refused _

theorem State.progressTrap_memOk : s.progressTrap.memOk := State.killIfDue_memOk (State.takeTrap_memOk h _) _

theorem turn_ok : OutOk s.turn := by
  unfold State.turn
  extract_lets go
  have hgo {k : Out} (hk : OutOk k) : OutOk (go k) :=
    outOk_ite (outOk_next (State.progressTrap_memOk h)) (outOk_ite (outOk_next (State.takeTrap_memOk h _)) hk)
  split
  · exact outOk_ite (hgo (runInsn_ok (State.onGrp_memOk h _))) (outOk_refused _)
  · exact outOk_ite (outOk_refused _) (hgo (retry_ok h _))
  · exact outOk_refused _

theorem issue_ok (uid : Nat) : OutOk (s.issue uid) := by
  unfold State.issue
  split
  · exact outOk_fault _
  · next t e =>
    have ht := State.focus_memOk h e
    split
    · exact outOk_next (State.preemptNow_memOk ht _)
    · exact turn_ok ht

theorem event_ok (row : Instr) (arg : EvArg) : OutOk (s.event row arg) := outOk_ite (exec_ok (by exact h) _) (outOk_refused _)

/-! ### The turns of the agenda -/

theorem State.giveStorage_memOk (slice bank dst : Nat) : (s.giveStorage slice bank dst).memOk := h

theorem fillTlb_ok (fn pasid : Nat) (va : DWord) : OutOk (s.fillTlb fn pasid va) := by
  unfold State.fillTlb
  split
  · exact outOk_next h
  · exact outOk_refused _

theorem expand_ok (slice bank : Nat) : OutOk (s.expand slice bank) := by
  refine outOk_ite ?_ (outOk_refused _)
  split
  · exact outOk_next (State.giveStorage_memOk h _ _ _)
  · exact outOk_next h

theorem run_ok (t : Turn) : OutOk (s.run t) := by
  cases t with
  | issue uid => exact issue_ok h uid
  | event row arg => exact event_ok h row arg
  | elapse cycles => exact outOk_next h
  | l1Fill core line => exact outOk_ite (outOk_refused _) (outOk_next (State.memOk_of_mem (State.fillL1_mem _ _ _ _) h))
  | l1Evict core line => exact outOk_next (State.evictL1_wf h _ _)
  | l2Fill cluster line cls prio =>
    exact outOk_ite (outOk_refused _) (outOk_next (State.memOk_of_mem (State.fillL2_mem _ _ _ _ _) h))
  | mscFill line cls => exact outOk_next (State.memOk_of_mem (State.fillMsc_mem _ _ _) h)
  | mscEvict line => exact outOk_next (State.memOk_of_mem (State.leaveMsc_mem _ _) h)
  | l2Evict cluster line => exact outOk_next h
  | tlbFill fn pasid va => exact fillTlb_ok h fn pasid va
  | tlbDrop fn pasid vpage => exact outOk_next h
  | drowse slice bank => exact outOk_ite (outOk_next h) (outOk_refused _)
  | compress slice bank => exact outOk_ite (outOk_next h) (outOk_refused _)
  | expand slice bank => exact expand_ok h slice bank
  | scoreboard uid waits => exact outOk_next (State.mapGroups_memOk h _ _)
  | mxAhead uid line =>
    unfold State.run
    dsimp only
    split
    · exact outOk_ite (outOk_next h) (outOk_refused _)
    · exact outOk_refused _
  | hostOld core line => exact outOk_ite (outOk_next h) (outOk_refused _)
  | routeFill dev => exact outOk_next h
  | flit req =>
    unfold State.run
    dsimp only
    split
    · next t e =>
      obtain ⟨r, -, hr⟩ := Option.bind_eq_some_iff.1 e
      exact outOk_next (State.flitTurn_memOk (State.inWindow_memOk h) hr)
    · exact outOk_refused _
  | invalidated =>
    unfold State.run
    dsimp only
    split
    · next t e => exact outOk_next (State.invDone_memOk h e)
    · exact outOk_refused _

/-! ### The machine's own turns (log entry 14) -/

omit h in
/-- A choice of the schedule: where it gives a state, that state has its memory in canonical form. -/
def OptOk (o : Option State) : Prop := ∀ t, o = some t → t.memOk

omit h in
theorem optOk_none : OptOk none := fun _ e => by cases e

omit h in
theorem OptOk.orElse {o p : Option State} (ho : OptOk o) (hp : OptOk p) : OptOk (o <|> p) := by
  cases o with
  | none => exact hp
  | some t => exact ho

omit h in
theorem optOk_ite {c : Prop} [Decidable c] {o p : Option State} (ho : OptOk o) (hp : OptOk p) : OptOk (if c then o else p) := by
  split
  · exact ho
  · exact hp

omit h in
theorem optOk_findSome {α : Type} {f : α → Option State} (hf : ∀ x, OptOk (f x)) (xs : List α) : OptOk (xs.findSome? f) :=
  fun t e => by
    obtain ⟨x, -, hx⟩ := List.exists_of_findSome?_eq_some e
    exact hf x t hx

theorem tryEvent_ok (c : Instr × EvArg) : OptOk (s.tryEvent c) := fun t e => by
  unfold State.tryEvent at e
  split at e
  · next u hu => exact Option.some.inj e ▸ event_ok h _ _ u hu
  · cases e

theorem tryEvents_ok (cs : List (Instr × EvArg)) : OptOk (s.tryEvents cs) := optOk_findSome (tryEvent_ok h) cs

theorem firstIssue_ok (gs : List Group) : OptOk (s.firstIssue gs) := optOk_findSome (fun g t e => by
  split at e
  · next u hu => exact Option.some.inj e ▸ issue_ok h _ u hu
  · cases e) gs

theorem autoPlace_ok : OptOk s.autoPlace := optOk_findSome (tryEvent_ok h) _

theorem autoExpand_ok : OptOk s.autoExpand := optOk_findSome (fun n t e => by
  obtain ⟨b, -, hb⟩ := Option.map_eq_some_iff.1 e
  exact hb ▸ State.giveStorage_memOk h _ _ _) _

theorem autoEvict_ok : OptOk s.autoEvict := by
  unfold State.autoEvict
  split
  · exact tryEvent_ok h _
  · exact optOk_none

theorem autoReload_ok : OptOk s.autoReload := tryEvents_ok h _

theorem autoResume_ok : OptOk s.autoResume := optOk_findSome (fun _ => tryEvent_ok h _) _

theorem autoPoll_ok : OptOk s.autoPoll := tryEvents_ok h _

theorem autoFlit_ok : OptOk s.autoFlit :=
  optOk_findSome (fun _ _ e => State.flitTurn_memOk (State.inWindow_memOk h) e) _

theorem State.auto_memOk : s.auto.memOk := by
  unfold State.auto
  extract_lets busy quiet
  have hbusy : OptOk busy :=
    (autoFlit_ok h).orElse <| OptOk.orElse (fun _ e => State.invDone_memOk h e) <| (tryEvents_ok h _).orElse <|
      (autoPlace_ok h).orElse <| (autoExpand_ok h).orElse <| (autoEvict_ok h).orElse <| (autoReload_ok h).orElse <|
      (autoResume_ok h).orElse <| (firstIssue_ok h _).orElse (firstIssue_ok h _)
  have hquiet : OptOk quiet :=
    optOk_ite ((firstIssue_ok h _).orElse (autoPoll_ok h)) ((autoPoll_ok h).orElse (firstIssue_ok h _))
  have hnext : OptOk (if s.freeIx % 8 = 7 then quiet <|> busy else busy <|> quiet) :=
    optOk_ite (hquiet.orElse hbusy) (hbusy.orElse hquiet)
  cases e : (if s.freeIx % 8 = 7 then quiet <|> busy else busy <|> quiet) with
  | none => exact h
  | some t => exact hnext t e

/-! ### A step (R6, R18) -/

theorem State.trimCore_memOk (core : Nat) : (s.trimCore core).memOk :=
  State.foldl_memOk (f := fun t (l : L1Line) => t.evictL1 core l.line) (fun _ _ ht => State.evictL1_wf ht _ _) _ h

theorem State.trimL1_memOk : s.trimL1.memOk :=
  State.ite_memOk h (State.foldl_memOk (fun _ _ ht => State.trimCore_memOk ht _) _ h)

theorem State.tick_memOk : s.tick.memOk := State.trimL1_memOk h

theorem step_ok : OutOk (step s) := by
  have ht := State.tick_memOk h
  unfold step
  split
  · exact outOk_next (State.auto_memOk ht)
  · exact run_ok (by exact ht) _

end

end Sys2Proof.Machine

open Sys2Proof Sys2Proof.Machine

/-- Settles O6: memory in its canonical form is an invariant of the passing of time, of every instruction and of every event, and so
of the turn that a step takes. -/
theorem stepKeepsMemoryCanonical : Obligations.StepKeepsMemoryCanonical := fun _ t h e => step_ok h t e

end

section
/-! PROOFS. The arms of the fabric's event rows, and inbound requests (18_package_host_fabric.md R352, R356). -/

namespace Sys2Proof.Machine

open Sys2Proof

/-! ### The arms of the event rows -/

theorem exec_inboundFabricRequest (s : State) : exec .inboundFabricRequest s = execInboundFabricRequest s := rfl
theorem exec_remoteNak (s : State) : exec .remoteNak s = execRemoteNak s := rfl
theorem exec_remoteTimeout (s : State) : exec .remoteTimeout s = execRemoteTimeout s := rfl
theorem exec_accessPerformed (s : State) : exec .accessPerformed s = execAccessPerformed s := rfl
theorem exec_linkLoss (s : State) : exec .linkLoss s = execLinkLoss s := rfl
theorem exec_linkReturn (s : State) : exec .linkReturn s = execLinkReturn s := rfl
theorem exec_fabricWindowStart (s : State) : exec .fabricWindowStart s = execFabricWindowStart s := rfl

/-! ### Inbound requests (R352, R356) -/

/-- A read at the memory-side cache only counts. -/
theorem State.atMsc_read_only (s : State) (tenant : Nat) (ks : List Nat) : s.OnlyCounts (s.atMsc tenant true ks) :=
  State.foldl_only _ (fun t l => t.countMsc_only tenant l) _ s

/-- The machine once an inbound read of some bytes has been counted, before its answer leaves. -/
def State.inboundReadCounted (s : State) (tag n : Nat) (ks : List Nat) : State :=
  ((s.countEvent tag 9 64).countEvent tag 8 (flitBytes n)).atMsc tag true ks

theorem State.inboundReadCounted_only (s : State) (tag n : Nat) (ks : List Nat) :
    s.OnlyCounts (s.inboundReadCounted tag n ks) :=
  ((s.countEvent_only _ _ _).trans (State.countEvent_only _ _ _ _)).trans (State.atMsc_read_only _ _ _)

variable {s : State} {src : BitVec 20} {cls n tag : Nat} {a : DWord} {bytes : List Byte} {ks : List Nat}

theorem execInboundFabricRequest_read (hev : s.ev = .fabric src cls a none n)
    (hkeys : s.inboundKeys src a.toNat n false = some (ks, tag)) :
    execInboundFabricRequest s = .next ((s.inboundReadCounted tag n ks).send (.fabricData src cls (ks.map s.backing))) := by
  simp only [execInboundFabricRequest, hev, Option.map_none, Option.getD_none, Option.isSome_none, hkeys,
    State.inboundReadCounted]

theorem execInboundFabricRequest_write (hev : s.ev = .fabric src cls a (some bytes) n)
    (hkeys : s.inboundKeys src a.toNat bytes.length true = some (ks, tag)) :
    execInboundFabricRequest s = .next (((((s.countEvent tag 9 (flitBytes bytes.length)).countEvent tag 8 64).atMsc tag false
      ks).writeKeys ks bytes).send (.fabricAck src cls)) := by
  simp only [execInboundFabricRequest, hev, Option.map_some, Option.getD_some, Option.isSome_some, hkeys]

theorem execInboundFabricRequest_refusedRead (hev : s.ev = .fabric src cls a none n)
    (hkeys : s.inboundKeys src a.toNat n false = none) :
    execInboundFabricRequest s = .next (s.refuseFabric src cls) := by
  simp only [execInboundFabricRequest, hev, Option.map_none, Option.getD_none, Option.isSome_none, hkeys]

end Sys2Proof.Machine
end

section
/-! PROOFS. Answers to remote requests (18_package_host_fabric.md R352, R357). -/

namespace Sys2Proof.Machine

open Sys2Proof

/-! ### Overlays of bytes -/

theorem overlayGet_overlaySet_self (o : Memory) (k : Nat) (x : Byte) : overlayGet (overlaySet o k x) k = some x := by
  simp [overlayGet, overlaySet]

theorem overlayGet_overlaySet_of_ne {k j : Nat} (h : j ≠ k) (o : Memory) (x : Byte) :
    overlayGet (overlaySet o k x) j = overlayGet o j := by
  have hkept (c : Host.Cell) : (c.1 ≠ k ∧ c.1 = j) ↔ c.1 = j := and_iff_right_of_imp (fun hc => hc ▸ h)
  rw [overlayGet, overlaySet, List.find?_cons_of_neg (by simpa using h.symm), List.find?_filter]
  simp only [decide_eq_true_eq, hkept, overlayGet]

/-- Bytes at rising keys leave the keys below them as they are. -/
theorem overlayGet_overlaySets_below {j k : Nat} (h : j < k) (o : Memory) (xs : List Byte) :
    overlayGet (overlaySets o k xs) j = overlayGet o j := by
  induction xs generalizing o k with
  | nil => rfl
  | cons x xs ih => rw [overlaySets, ih (by omega), overlayGet_overlaySet_of_ne (by omega)]

/-- Each of the bytes at rising keys is found at its key. -/
theorem overlayGet_overlaySets (o : Memory) (k : Nat) (xs : List Byte) {i : Nat} (hi : i < xs.length) :
    overlayGet (overlaySets o k xs) (k + i) = xs[i]? := by
  induction xs generalizing o k i with
  | nil => exact absurd hi (Nat.not_lt_zero i)
  | cons x xs ih =>
    rw [overlaySets]
    cases i with
    | zero => exact (overlayGet_overlaySets_below (Nat.lt_add_one k) _ _).trans (overlayGet_overlaySet_self o k x)
    | succ i =>
      rw [show k + (i + 1) = k + 1 + i by omega, ih _ _ (Nat.lt_of_succ_lt_succ hi), List.getElem?_cons_succ]

/-! ### What changes the caches alone -/

/-- The state has the fields of another but the lines of L1 and L2. -/
def State.OnlyCaches (s t : State) : Prop := ∃ x y, t = { s with l1 := x, l2 := y }

theorem State.OnlyCaches.refl (s : State) : s.OnlyCaches s := ⟨s.l1, s.l2, rfl⟩

theorem State.OnlyCaches.trans {s t u : State} (h : s.OnlyCaches t) (k : t.OnlyCaches u) : s.OnlyCaches u := by
  obtain ⟨x, y, rfl⟩ := h
  obtain ⟨x', y', rfl⟩ := k
  exact ⟨x', y', rfl⟩

theorem State.OnlyCaches.ite {s t u : State} {c : Prop} [Decidable c] (ht : s.OnlyCaches t) (hu : s.OnlyCaches u) :
    s.OnlyCaches (if c then t else u) := by
  split
  · exact ht
  · exact hu

theorem State.allocL2_onlyCaches (s : State) (x : L2Line) : s.OnlyCaches (s.allocL2 x) := .ite (.refl s) ⟨_, _, rfl⟩

theorem State.fillL1_onlyCaches (s : State) (core line : Nat) (w : Want) : s.OnlyCaches (s.fillL1 core line w) :=
  .ite ⟨_, _, rfl⟩ (.refl s)

/-- The line of a remote read comes into the caches and nowhere else. -/
theorem State.cacheRemote_onlyCaches (s : State) (r : RemoteReq) (bytes : List Byte) : s.OnlyCaches (s.cacheRemote r bytes) := by
  unfold State.cacheRemote
  extract_lets line
  split
  case h_1 cl _ =>
    extract_lets t
    have ht : s.OnlyCaches t := .ite (.refl s) (by
      split
      · exact .refl s
      · exact s.allocL2_onlyCaches _)
    split
    · exact ht.trans (t.fillL1_onlyCaches _ _ _)
    · exact ht
  case h_2 => exact .refl s

theorem State.OnlyCaches.groups_eq {s t : State} (h : s.OnlyCaches t) : t.groups = s.groups := by
  obtain ⟨x, y, rfl⟩ := h; rfl

theorem State.OnlyCaches.mem_eq {s t : State} (h : s.OnlyCaches t) : t.mem = s.mem := by
  obtain ⟨x, y, rfl⟩ := h; rfl

/-! ### Answers (R352, R357) -/

theorem State.OnlyCounts.groups_eq {s t : State} (h : s.OnlyCounts t) : t.groups = s.groups := by
  obtain ⟨r, rfl⟩ := h; rfl

@[simp] theorem State.countAnswer_mem (s : State) (r : RemoteReq) (n : Nat) : (s.countAnswer r n).mem = s.mem :=
  s.countEvent_mem _ _ _
@[simp] theorem State.countAnswer_groups (s : State) (r : RemoteReq) (n : Nat) : (s.countAnswer r n).groups = s.groups :=
  (s.countEvent_only _ _ _).groups_eq
@[simp] theorem State.giveRemote_mem (s : State) (r : RemoteReq) (bytes : List Byte) : (s.giveRemote r bytes).mem = s.mem := rfl
@[simp] theorem State.remoteWritten_mem (s : State) (r : RemoteReq) : (s.remoteWritten r).mem = s.mem := rfl
@[simp] theorem State.dropRemote_mem (s : State) (id : Nat) : (s.dropRemote id).mem = s.mem := rfl
@[simp] theorem State.dropRemote_groups (s : State) (id : Nat) : (s.dropRemote id).groups = s.groups := rfl
@[simp] theorem State.cacheRemote_mem (s : State) (r : RemoteReq) (bytes : List Byte) : (s.cacheRemote r bytes).mem = s.mem :=
  (s.cacheRemote_onlyCaches r bytes).mem_eq
@[simp] theorem State.cacheRemote_groups (s : State) (r : RemoteReq) (bytes : List Byte) :
    (s.cacheRemote r bytes).groups = s.groups :=
  (s.cacheRemote_onlyCaches r bytes).groups_eq

theorem State.remote?_dropRemote (s : State) (id : Nat) : (s.dropRemote id).remote? id = none := by
  simp [State.remote?, State.dropRemote]

/-- A change of groups that keeps their uids changes the group of a uid as it changes the group. -/
theorem State.group?_mapGroups (s : State) (p : Group → Bool) {f : Group → Group} (hid : ∀ g, (f g).id = g.id) (uid : Nat) :
    (s.mapGroups p f).group? uid = (s.group? uid).map (fun g => if p g then f g else g) := by
  have huid (g : Group) : (if p g then f g else g).id.uid = g.id.uid := by split <;> simp [hid]
  simp only [State.group?, State.mapGroups_groups, List.find?_map, Function.comp_def, huid]

/-- The group that waits for a remote read has its bytes. -/
theorem State.giveRemote_group? {s : State} {r : RemoteReq} {uid : Nat} {g : Group} (bytes : List Byte)
    (hwho : r.group = some uid) (hg : s.group? uid = some g) :
    (s.giveRemote r bytes).group? uid =
      some { g with remoteGot := overlaySets g.remoteGot (keyRemote r.dev r.raddr) bytes } := by
  have huid : g.id.uid = uid := by simpa using List.find?_some hg
  rw [State.giveRemote, State.group?_mapGroups _ _ ?hid, hg, Option.map_some, hwho, huid, decide_eq_true rfl, if_pos rfl]
  case hid => exact fun _ => rfl

section
variable {s : State} {id : Nat} {r : RemoteReq} {bytes : List Byte}

theorem State.inTime_of_sent (hsent : r.sent = true) (htime : s.time ≤ r.since + 1000000) : s.inTime r = true := by
  simp [State.inTime, hsent, htime]

theorem execRemoteNak_inTime (hev : s.ev = .req id) (hr : s.remote? id = some r) (hin : s.inTime r = true) :
    execRemoteNak s = .next ((s.countAnswer r 64).failRemote 1 r) := by
  simp only [execRemoteNak, hev, hr, hin, if_true]

theorem execRemoteTimeout_late (hev : s.ev = .req id) (hr : s.remote? id = some r) (hlate : r.since + 1000000 < s.time) :
    execRemoteTimeout s = .next (s.failRemote 2 r) := by
  simp only [execRemoteTimeout, hev, hr, hlate, if_true]

/-- The machine once the line of a remote read has come. -/
def State.remoteReadDone (s : State) (r : RemoteReq) (id : Nat) (bytes : List Byte) : State :=
  (((s.countAnswer r 256).cacheRemote r bytes).giveRemote r bytes).dropRemote id

theorem execAccessPerformed_remoteRead (hev : s.ev = .performed (.remoteRead id bytes)) (hr : s.remote? id = some r)
    (hin : s.inTime r = true) (hread : r.write = none) (hlen : bytes.length = 128) :
    execAccessPerformed s = .next (s.remoteReadDone r id bytes) := by
  simp [execAccessPerformed, hev, hr, hin, hread, hlen, State.remoteReadDone]

theorem State.remoteReadDone_mem : (s.remoteReadDone r id bytes).mem = s.mem := by
  simp [State.remoteReadDone]

theorem State.remoteReadDone_group? {uid : Nat} {g : Group} (hwho : r.group = some uid) (hg : s.group? uid = some g) :
    (s.remoteReadDone r id bytes).group? uid =
      some { g with remoteGot := overlaySets g.remoteGot (keyRemote r.dev r.raddr) bytes } := by
  have hcached : ((s.countAnswer r 256).cacheRemote r bytes).group? uid = some g := by
    rwa [State.group?, State.cacheRemote_groups, State.countAnswer_groups]
  rw [State.remoteReadDone, State.group?, State.dropRemote_groups]
  exact State.giveRemote_group? bytes hwho hcached

/-- The machine once a remote device has acknowledged a write. -/
def State.remoteAckDone (s : State) (r : RemoteReq) (id : Nat) : State := ((s.countAnswer r 64).remoteWritten r).dropRemote id

theorem execAccessPerformed_remoteAck {cells : List Host.Cell} (hev : s.ev = .performed (.remoteAck id))
    (hr : s.remote? id = some r) (hin : s.inTime r = true) (hwrite : r.write = some cells) (horder : s.inOrder r = true) :
    execAccessPerformed s = .next (s.remoteAckDone r id) := by
  simp [execAccessPerformed, hev, hr, hin, hwrite, horder, State.remoteAckDone]

theorem State.remoteAckDone_mem : (s.remoteAckDone r id).mem = s.mem := by
  simp [State.remoteAckDone]

/-- An acknowledged byte is dirty no more. -/
theorem State.remoteAckDone_clean {cells : List Host.Cell} (hwrite : r.write = some cells) :
    ∀ c ∈ (s.remoteAckDone r id).remoteDirty, c ∉ cells := by
  intro c hc
  have hkept := (List.mem_filter.1 hc).2
  simpa [hwrite] using hkept

end

end Sys2Proof.Machine
end

section
/-! PROOFS. Lines and release stores that are performed, and the links and windows of the fabric (08_ordering.md R159,
18_package_host_fabric.md R354, R355, R358). -/

namespace Sys2Proof.Machine

open Sys2Proof

/-! ### Lines and release stores (R159) -/

section
variable {s : State} {core line scope : Nat}

theorem execAccessPerformed_writeBack {l : L1Line} (hev : s.ev = .performed (.writeBack core line scope)) (hlow : 3 ≤ scope)
    (hhigh : scope ≤ 6) (hl : s.l1Line core line = some l) (hdirty : l.dirty ≠ 0) :
    execAccessPerformed s = .next (s.performLine core line scope) := by
  simp only [execAccessPerformed, hev, hlow, hhigh, hl, Option.map_some, Option.getD_some, hdirty, ne_eq, not_false_eq_true,
    decide_true, Bool.and_self, if_true]

theorem State.performLine_l1 : (s.performLine core line scope).l1 = (s.cleanLine core line).l1 := by
  unfold State.performLine
  dsimp only
  split
  · exact State.sendRemoteWrites_l1 _ _
  · rfl

theorem State.performLine_lineClean : (s.performLine core line scope).lineClean core line := by
  rw [State.lineClean, State.performLine_l1]
  exact State.cleanLine_lineClean (.inl rfl)

theorem State.performStore_of_clear {r : RelStore} {rs : List RelStore} (hq : s.grp.relq = r :: rs)
    (hclear : r.scope = 6 → (s.releaseAt s.grp.coreNo 6).remoteDirty = []) :
    s.performStore = some ((s.releaseAt s.grp.coreNo r.scope).performRel r) := by
  have hnow : (decide (r.scope ≠ 6) || (s.releaseAt s.grp.coreNo r.scope).remoteClear) = true := by
    by_cases hscope : r.scope = 6
    · simp [hscope, State.remoteClear, hclear hscope]
    · simp [hscope]
  simp only [State.performStore, hq, hnow, if_true]

theorem execAccessPerformed_store {t u : State} {uid : Nat} (hev : s.ev = .performed (.store uid)) (ht : s.focus uid = some t)
    (hu : t.performStore = some u) : execAccessPerformed s = .next u := by
  simp only [execAccessPerformed, hev, ht, hu]

end

/-! ### Links (R358) -/

theorem getLsbD_linkBit {k : Nat} (h : k < 24) : (linkBit k).getLsbD k = true := by
  simp only [linkBit, BitVec.getLsbD_ofNat, Nat.testBit_two_pow_self, h, decide_true, Bool.and_self]

theorem execLinkLoss_present {s : State} {k : Nat} (hev : s.ev = .link k)
    (hpresent : (s.built.links ||| s.built.linkBack).getLsbD k = true) :
    execLinkLoss s = .next (s.inWindow.loseLinks (linkBit k)) := by
  simp only [execLinkLoss, hev, hpresent, if_true]

/-- A link has come back: it waits for the next window. -/
def State.linkReturned (s : State) (k : Nat) : State :=
  { s with built := { s.built with linkBack := s.built.linkBack ||| linkBit k } }

theorem State.linkReturned_linkBack (s : State) {k : Nat} (h : k < 24) : (s.linkReturned k).built.linkBack.getLsbD k = true := by
  simp [State.linkReturned, getLsbD_linkBit h]

theorem execLinkReturn_away {s : State} {k : Nat} (hev : s.ev = .link k) (hmade : s.made.links.getLsbD k = true)
    (hdie : s.built.ods.getLsbD (k / 6) = true) (haway : s.linksNow.getLsbD k = false) :
    execLinkReturn s = .next (s.inWindow.linkReturned k) := by
  simp [execLinkReturn, hev, hmade, hdie, haway, State.linkReturned]

/-! ### Windows (R354, R355) -/

theorem execFabricWindowStart_due {s : State} (h : s.window < s.time / 1000) : execFabricWindowStart s = .next s.newWindow :=
  if_pos h

theorem mem_fullAllowance {s : State} {x : Nat × Nat} :
    x ∈ s.fullAllowance ↔ ∃ p < 24, ∃ k < 4, x = (allowKey p (k / 2) (k % 2), s.allowOf p (k / 2) (k % 2)) := by
  simp only [State.fullAllowance, List.mem_flatMap, List.mem_map, List.mem_range, eq_comm]

/-- A port, a die and a class have an allowance of their own. -/
theorem allowKey_inj {p d c p' d' c' : Nat} (hd : d < 2) (hc : c < 2) (hd' : d' < 2) (hc' : c' < 2)
    (h : allowKey p d c = allowKey p' d' c') : p = p' ∧ d = d' ∧ c = c' := by
  unfold allowKey at h
  omega

/-- At the start of a window every allowance is what its register says. -/
theorem State.newWindow_allowLeft (s : State) {p d c : Nat} (hp : p < 24) (hd : d < 2) (hc : c < 2) :
    s.newWindow.allowLeft (allowKey p d c) = s.allowOf p d c := by
  have hmem : (allowKey p d c, s.allowOf p d c) ∈ s.fullAllowance :=
    mem_fullAllowance.2 ⟨p, hp, 2 * d + c, by omega, by rw [show (2 * d + c) / 2 = d by omega, show (2 * d + c) % 2 = c by omega]⟩
  have hunique : ∀ x ∈ s.fullAllowance, x.1 = allowKey p d c → x.2 = s.allowOf p d c := by
    intro x hx hkey
    obtain ⟨q, -, k, hk, rfl⟩ := mem_fullAllowance.1 hx
    obtain ⟨rfl, rfl, rfl⟩ := allowKey_inj (by omega) (by omega) hd hc hkey
    rfl
  change ((s.fullAllowance.find? (fun a => a.1 = allowKey p d c)).map (·.2)).getD 0 = _
  cases hfind : s.fullAllowance.find? (fun a => a.1 = allowKey p d c) with
  | none => exact absurd (decide_eq_true rfl) (List.find?_eq_none.1 hfind _ hmem)
  | some x => exact hunique x (List.mem_of_find?_eq_some hfind) (by simpa using List.find?_some hfind)

end Sys2Proof.Machine

open Sys2Proof Sys2Proof.Machine

/-- Settles O52: each event row, where its occasion holds, is the one operation that its rule names; an answer that is read reaches
the caches and the group's overlay alone, and no two allowances share a key. -/
theorem fabricEventsComplete : Obligations.FabricEventsComplete := by
  unfold Obligations.FabricEventsComplete
  refine ⟨?inbound, ?remote, ?line, ?store, ?link, ?window⟩
  case inbound =>
    intro s src cls a n bytes ks tag
    refine ⟨fun hev hkeys => ?_, fun hev hkeys => ?_, fun hev hkeys => ?_⟩
    · obtain ⟨regs, hcount⟩ := s.inboundReadCounted_only tag n ks
      refine ⟨_, (exec_inboundFabricRequest s).trans (execInboundFabricRequest_read hev hkeys), ?_⟩
      rw [hcount]
      exact ⟨rfl, rfl⟩
    · exact (exec_inboundFabricRequest s).trans (execInboundFabricRequest_write hev hkeys)
    · exact ⟨_, (exec_inboundFabricRequest s).trans (execInboundFabricRequest_refusedRead hev hkeys), rfl, rfl, rfl⟩
  case remote =>
    intro s id r hr
    refine ⟨?nak, ?timeout, ?read, ?ack⟩
    case nak =>
      intro hev hsent htime
      exact (exec_remoteNak s).trans (execRemoteNak_inTime hev hr (State.inTime_of_sent hsent htime))
    case timeout =>
      intro hev hlate
      exact (exec_remoteTimeout s).trans (execRemoteTimeout_late hev hr hlate)
    case read =>
      intro bytes hev hsent htime hread hlen
      refine ⟨_, (exec_accessPerformed s).trans
        (execAccessPerformed_remoteRead hev hr (State.inTime_of_sent hsent htime) hread hlen),
        State.remote?_dropRemote _ id, State.remoteReadDone_mem, fun g uid hwho hg => ?_⟩
      exact ⟨_, State.remoteReadDone_group? hwho hg, fun i hi => overlayGet_overlaySets _ _ _ (hlen ▸ hi)⟩
    case ack =>
      intro cells hev hsent htime hwrite horder
      exact ⟨_, (exec_accessPerformed s).trans
        (execAccessPerformed_remoteAck hev hr (State.inTime_of_sent hsent htime) hwrite horder),
        State.remote?_dropRemote _ id, State.remoteAckDone_clean hwrite, State.remoteAckDone_mem⟩
  case line =>
    intro s core line scope l hev hlow hhigh hl hdirty
    exact ⟨_, (exec_accessPerformed s).trans (execAccessPerformed_writeBack hev hlow hhigh hl hdirty),
      State.performLine_lineClean⟩
  case store =>
    intro s t uid r rs hev ht hq hclear
    exact (exec_accessPerformed s).trans (execAccessPerformed_store hev ht (State.performStore_of_clear hq hclear))
  case link =>
    intro s k hev
    refine ⟨fun hpresent => (exec_linkLoss s).trans (execLinkLoss_present hev hpresent), fun hmade hdie haway => ?_⟩
    exact ⟨_, (exec_linkReturn s).trans (execLinkReturn_away hev hmade hdie haway),
      State.linkReturned_linkBack _ (BitVec.lt_of_getLsbD hmade), rfl⟩
  case window =>
    intro s hdue
    exact ⟨_, (exec_fabricWindowStart s).trans (execFabricWindowStart_due hdue), rfl, rfl, rfl,
      fun p d c hp hd hc => s.newWindow_allowLeft hp hd hc⟩
end

section
/-! SUPPORT. What synchronisation instructions have in common: releases that end at once, for a group none of whose release stores
waits, and an access of one place (07_memory_access.md R141, 08_ordering.md R135, R157, R159, R161). -/

namespace Sys2Proof.Machine

open Sys2Proof

/-! ### Releases and acquires -/

@[simp] theorem State.releaseAt_grp (s : State) (core scope : Nat) : (s.releaseAt core scope).grp = s.grp :=
  State.grp_of_turns (s.releaseAt_turns core scope)

@[simp] theorem State.acquireAt_grp (s : State) (core scope : Nat) : (s.acquireAt core scope).grp = s.grp :=
  State.grp_of_turns (s.acquireAt_turns core scope)

@[simp] theorem State.acquireIf_mem (s : State) (ord scope : Nat) : (s.acquireIf ord scope).mem = s.mem := by
  unfold State.acquireIf
  split
  · exact s.acquireAt_mem _ _
  · rfl

theorem State.settleStores_of_none {s : State} (h : s.grp.relq = []) : s.settleStores = .ok s := by
  rw [State.settleStores, h]
  rfl

/-- No waiting release store holds one of the bytes (R135, R157). -/
theorem State.beforeKeys_of_unheld {s : State} {ks : List Nat} (h : ∀ k ∈ ks, relGet s.grp.relq k = none) :
    s.beforeKeys ks = .ok s := by
  have hheld : ks.any (fun k => (relGet s.grp.relq k).isSome) = false := by
    rw [List.any_eq_false]
    intro k hk
    simp [h k hk]
  rw [State.beforeKeys, hheld]
  rfl

theorem State.beforeKeys_of_none {s : State} {ks : List Nat} (h : s.grp.relq = []) : s.beforeKeys ks = .ok s :=
  State.beforeKeys_of_unheld fun k _ => by rw [h]; rfl

/-- The release of a group with no waiting release store ends at once, but for the remote devices that a release at system scope
waits for (R159). -/
theorem State.releaseRun_of_none {s : State} {scope : Nat} (h : s.grp.relq = [])
    (hremote : scope ≠ 6 ∨ (s.releaseAt s.grp.coreNo scope).remoteDirty = []) :
    s.releaseRun scope = .ok (s.releaseAt s.grp.coreNo scope) := by
  have hawait : (s.releaseAt s.grp.coreNo scope).awaitRemoteWrites scope = .ok () := by
    rw [State.awaitRemoteWrites, if_neg]
    rcases hremote with hscope | hdirty
    · simp [hscope]
    · simp [hdirty]
  simp only [State.releaseRun, State.settleStores_of_none h, hawait, Run.ok_bind, Run.pure_eq]

/-- What an atomic waits for, where its release ends at once and no release store of the group waits. -/
theorem State.releaseFirst_of_now {s : State} {ord scope : Nat} {ks : List Nat} (hq : s.grp.relq = [])
    (hnow : s.releasesNow ord scope) :
    s.releaseFirst ord scope ks = .ok (if releases ord then s.releaseAt s.grp.coreNo scope else s) := by
  unfold State.releaseFirst
  split
  · next hrel =>
    rcases hnow with hnone | ⟨-, hremote⟩
    · rw [hnone] at hrel
      cases hrel
    · exact State.releaseRun_of_none hq hremote
  · exact State.beforeKeys_of_none hq

/-! ### An access of one place (R141) -/

theorem State.accessAll_single {s : State} {space n : Nat} {find : Access → Place} {a : DWord} {ks : List Nat}
    (halign : a.toNat % n = 0) (hkeys : find ⟨0, a⟩ = .keys ks) : s.accessAll space n find [⟨0, a⟩] = .ok [(0, ks)] :=
  State.accessAll_of_keys (ks := fun _ => ks) (by simpa using halign) (by simpa using hkeys)

end Sys2Proof.Machine
end

section
/-! PROOFS. Atomics (09_synchronisation.md R170 to R175). -/

namespace Sys2Proof.Machine

open Sys2Proof

/-! ### Numbers as bytes (R3) -/

theorem bytesNat_natBytes {n x : Nat} (h : x < 2 ^ (8 * n)) : bytesNat (natBytes n x) = x := by
  induction n generalizing x with
  | zero =>
    have hx : x = 0 := by simpa using h
    rw [hx]
    rfl
  | succ n ih =>
    have hrest : x / 256 < 2 ^ (8 * n) := Nat.div_lt_of_lt_mul (by rwa [Nat.mul_succ, Nat.add_comm, Nat.pow_add] at h)
    rw [natBytes, bytesNat, ih hrest, BitVec.toNat_ofNat, Nat.mod_add_div]

/-! ### Coherent bytes before and after a write (R134) -/

theorem State.backing_of_local {s : State} {k : Nat} (h : keyKind k < 4) : s.backing k = s.mem.get k := by
  unfold State.backing
  split
  · omega
  · omega
  · rfl

theorem State.setBacking_of_local {s : State} {k : Nat} (h : keyKind k < 4) (x : Byte) :
    s.setBacking k x = { s with mem := s.mem.set k x, hostOld := s.hostOld.filter (fun o => o.2.1 ≠ lineOf k) } := by
  unfold State.setBacking
  split
  · omega
  · omega
  · rfl

/-- The first byte of a coherent write: no cluster keeps a copy of its line. -/
def State.setCoherent (s : State) (k : Nat) (x : Byte) : State :=
  { s.setBacking k x with l2 := (s.setBacking k x).l2.filter (fun l => l.line ≠ lineOf k) }

theorem State.writeCoherent_cons (s : State) (k : Nat) (x : Byte) (xs : List Byte) :
    s.writeCoherent k (x :: xs) = (s.setCoherent k x).writeCoherent (k + 1) xs := rfl

theorem State.setCoherent_memOk {s : State} (hm : s.memOk) (k : Nat) (x : Byte) : (s.setCoherent k x).memOk :=
  State.setBacking_wf hm k x

theorem State.backing_setCoherent_self {s : State} {k : Nat} (hm : s.memOk) (h : keyKind k < 4) (x : Byte) :
    (s.setCoherent k x).backing k = x := by
  rw [State.backing_of_local h, State.setCoherent, State.setBacking_of_local h]
  exact Memory.get_set_self hm

theorem State.backing_setCoherent_of_ne {s : State} {k j : Nat} (hm : s.memOk) (h : keyKind k < 4) (hne : j ≠ k) (x : Byte) :
    (s.setCoherent k x).backing j = s.backing j := by
  have hget : (s.mem.set k x).get j = s.mem.get j := Memory.get_set_other hm hne
  rw [State.setCoherent, State.setBacking_of_local h]
  simp only [State.backing, hget]

/-- A coherent write of local bytes leaves every other coherent byte. -/
theorem State.backing_writeCoherent_outside {s : State} {key k : Nat} {xs : List Byte} (hm : s.memOk)
    (hlocal : ∀ j, key ≤ j → j < key + xs.length → keyKind j < 4) (hk : k < key ∨ key + xs.length ≤ k) :
    (s.writeCoherent key xs).backing k = s.backing k := by
  induction xs generalizing s key with
  | nil => rfl
  | cons x xs ih =>
    rw [List.length_cons] at hlocal hk
    rw [State.writeCoherent_cons,
      ih (State.setCoherent_memOk hm key x) (fun j h1 h2 => hlocal j (by omega) (by omega)) (by omega)]
    exact State.backing_setCoherent_of_ne hm (hlocal key (by omega) (by omega)) (by omega) x

theorem State.readCoherent_succ (s : State) (key n : Nat) :
    s.readCoherent key (n + 1) = s.backing key :: s.readCoherent (key + 1) n := by
  simp [State.readCoherent, List.range_succ_eq_map, Nat.add_assoc, Nat.add_comm 1]

/-- A coherent read after a coherent write of local bytes gives the bytes written. -/
theorem State.readCoherent_writeCoherent {s : State} {key : Nat} {xs : List Byte} (hm : s.memOk)
    (hlocal : ∀ j, key ≤ j → j < key + xs.length → keyKind j < 4) :
    (s.writeCoherent key xs).readCoherent key xs.length = xs := by
  induction xs generalizing s key with
  | nil => rfl
  | cons x xs ih =>
    rw [List.length_cons] at hlocal
    have hm1 := State.setCoherent_memOk hm key x
    have hrest : ∀ j, key + 1 ≤ j → j < key + 1 + xs.length → keyKind j < 4 := fun j h1 h2 => hlocal j (by omega) (by omega)
    rw [State.writeCoherent_cons, List.length_cons, State.readCoherent_succ, ih hm1 hrest,
      State.backing_writeCoherent_outside hm1 hrest (.inl (Nat.lt_add_one key)),
      State.backing_setCoherent_self hm (hlocal key (by omega) (by omega))]

@[simp] theorem State.backing_mscKeep (s : State) (tenant line k : Nat) : (s.mscKeep tenant line).backing k = s.backing k := by
  unfold State.mscKeep
  split
  · rfl
  · split
    · simp only [State.backing]
    · obtain ⟨r, hcount⟩ := s.countEvent_only tenant 6 128
      rw [hcount]
      simp only [State.backing]

/-! ### One atomic at its point (R170) -/

@[simp] theorem State.takeExclusive_grp (s : State) (core key : Nat) : (s.takeExclusive core key).grp = s.grp := by
  unfold State.takeExclusive
  split
  · exact State.grp_of_turns (s.cleanLine_turns core (lineOf key))
  · rfl

theorem State.atomically_old (s : State) (key n : Nat) (f : Nat → Nat) :
    (s.atomically key n f).2 = bytesNat ((s.takeExclusive s.grp.coreNo key).readCoherent key n) := rfl

theorem State.atomically_grp (s : State) (key n : Nat) (f : Nat → Nat) : (s.atomically key n f).1.grp = s.grp.progressed := by
  have hwrite : (((s.takeExclusive s.grp.coreNo key).writeCoherent key (natBytes n (f (s.atomically key n f).2))).mscKeep
      s.grp.id.fn (lineOf key)).grp = s.grp :=
    State.grp_of_turns ((State.mscKeep_turns _ _ _).trans (State.writeCoherent_turns _ _ _)) |>.trans (s.takeExclusive_grp _ _)
  exact congrArg Group.progressed hwrite

section
variable {s : State} {key n : Nat} {f : Nat → Nat} (hm : s.memOk) (hlocal : ∀ k, key ≤ k → k < key + n → keyKind k < 4)
include hm hlocal

theorem State.atomically_writes (hf : ∀ x, f x < 2 ^ (8 * n)) :
    bytesNat ((s.atomically key n f).1.readCoherent key n) = f (s.atomically key n f).2 := by
  have hread : (s.atomically key n f).1.readCoherent key n =
      ((s.takeExclusive s.grp.coreNo key).writeCoherent key (natBytes n (f (s.atomically key n f).2))).readCoherent key n :=
    List.map_congr_left fun i _ => State.backing_mscKeep _ _ _ _
  have hback := State.readCoherent_writeCoherent (xs := natBytes n (f (s.atomically key n f).2))
    (State.takeExclusive_wf hm s.grp.coreNo key) (by rwa [natBytes_length])
  rw [natBytes_length] at hback
  rw [hread, hback, bytesNat_natBytes (hf _)]

theorem State.atomically_keeps {k : Nat} (hk : k < key ∨ key + n ≤ k) :
    (s.atomically key n f).1.backing k = (s.takeExclusive s.grp.coreNo key).backing k :=
  (State.backing_mscKeep _ _ _ _).trans (State.backing_writeCoherent_outside (State.takeExclusive_wf hm s.grp.coreNo key)
    (by rwa [natBytes_length]) (by rwa [natBytes_length]))

end

/-! ### SATOM (R172) -/

theorem exec_satom (p : Option Pfx) (f : VM) (s : State) : exec (.satom p f) s = execSatom p f s := rfl
theorem exec_vatom (p : Option Pfx) (f : VM) (s : State) : exec (.vatom p f) s = execVatom p f s := rfl
theorem exec_fxadd (p : Option Pfx) (f : VM) (s : State) : exec (.fxadd p f) s = execFxadd p f s := rfl
theorem exec_fxrd (p : Option Pfx) (f : VM) (s : State) : exec (.fxrd p f) s = execFxrd p f s := rfl

theorem Group.region_of_outside {g : Group} (h : g.inRegion = false) : g.region = none := by
  simpa [Group.inRegion] using h

/-- The state in which an atomic reaches L2: its walks are counted, its release is made, and its bytes are accessed past L1. -/
def State.toL2 (s : State) (ord scope : Nat) (ks : List Nat) (back : Bool) : State :=
  (if releases ord then s.releaseAt s.grp.coreNo scope else s).atL2 ks back

/-- What SATOM takes beside the old value: the new value of `cas` stands in the register or pair after V, and 0 after s0 (R49, R172). -/
theorem Group.satomOperand_eq (g : Group) (wide : Bool) (v : BitVec 6) (op : Nat) :
    (if op = 9 then
      if v = 0 then 0
      else if wide then (g.rp (if wide then v + 2 else v + 1)).toNat else (g.rs (if wide then v + 2 else v + 1)).toNat
    else if wide then (g.rp v).toNat else (g.rs v).toNat) =
    (if op = 9 ∧ v ≠ 0 then (if wide then (g.rp (v + 2)).toNat else (g.rs (v + 1)).toNat)
     else if wide then (g.rp v).toNat else (g.rs v).toNat) := by
  by_cases hop : op = 9
  · by_cases hv : v = 0
    · subst hv
      cases wide <;> simp only [hop, if_true, ne_eq, not_true_eq_false, and_false, if_false] <;> rfl
    · simp only [hop, hv, if_true, if_false, ne_eq, not_false_eq_true, and_self]
      cases wide <;> rfl
  · simp only [hop, if_false, false_and]

/-- The registers of SATOM may be named: its value, and the expected value of `cas` after it (R172). -/
theorem Group.satomRegs {g : Group} {wide : Bool} {v : BitVec 6} {op : Nat}
    (hval : (if wide then g.pairOk v else g.scalOk v) = true)
    (hnext : op = 9 → (if wide then g.pairOk (v + 2) else g.scalOk (v + 1)) = true) :
    (if wide then g.pairOk v && (decide (op ≠ 9) || g.pairOk (v + 2))
      else g.scalOk v && (decide (op ≠ 9) || g.scalOk (v + 1))) = true := by
  by_cases hop : op = 9
  · cases wide
    · simpa [hop] using ⟨hval, hnext hop⟩
    · simpa [hop] using ⟨hval, hnext hop⟩
  · cases wide
    · simpa [hop] using hval
    · simpa [hop] using hval

/-- The new value that SATOM makes of an old one (R172). -/
def Group.satomNew (g : Group) (f : VM) (wide : Bool) (v : BitVec 6) (old : Nat) : Nat :=
  atomNew (8 * sizeOf f.sz) f.atomOp old
    (if f.atomOp = 9 ∧ v ≠ 0 then (if wide then (g.rp (v + 2)).toNat else (g.rs (v + 1)).toNat)
     else if wide then (g.rp v).toNat else (g.rs v).toNat)
    (if wide then (g.rp v).toNat else (g.rs v).toNat)

theorem execSatom_outside {s : State} {p : Option Pfx} {f : VM} {e : Eff} {wide : Bool} {v : BitVec 6} {ks : List Nat} {u : State}
    (he : e = s.grp.eff p) (hwide : wide = decide (f.sz = 5)) (hv : v = f.v.setWidth 6) (hword : (Instr.satom p f).wf = true)
    (hbase : s.grp.pairOk f.sb = true) (hval : (if wide then s.grp.pairOk v else s.grp.scalOk v) = true)
    (hout : s.grp.inRegion = false)
    (hnext : f.atomOp = 9 → (if wide then s.grp.pairOk (v + 2) else s.grp.scalOk (v + 1)) = true)
    (hlive : noReturn f = true ∨ (if wide then s.grp.liveInPair v else s.grp.liveIn v) = false)
    (halign : (s.grp.rp f.sb + atomOfs f).toNat % sizeOf f.sz = 0)
    (hkeys : s.atomPlace none e.space (s.grp.rp f.sb + atomOfs f) (sizeOf f.sz) = .keys ks)
    (hu : u = s.walked e.space [⟨0, s.grp.rp f.sb + atomOfs f⟩]) (hq : u.grp.relq = []) (hnow : u.releasesNow e.ord e.scope)
    {r : State × Nat}
    (hr : r = (u.toL2 e.ord e.scope ks (!noReturn f)).atomically (ks.headD 0) (sizeOf f.sz) (s.grp.satomNew f wide v)) :
    execSatom p f s = .next (((r.1.acquireIf e.ord e.scope).onGrp (fun g =>
      if noReturn f then g else if wide then g.wp v (BitVec.ofNat 64 r.2) else g.ws v (BitVec.ofNat 32 r.2))).retire
        (pfxLen p)) := by
  subst he hwide hv hu hr
  have hlive : (noReturn f || !(if decide (f.sz = 5) then s.grp.liveInPair (f.v.setWidth 6) else s.grp.liveIn (f.v.setWidth 6)))
      = true := by
    rcases hlive with h | h
    · simp only [h, Bool.true_or]
    · simp only [h, Bool.not_false, Bool.or_true]
  have hplace : s.accessAll (s.grp.eff p).space (sizeOf f.sz) (fun x => s.atomPlace none (s.grp.eff p).space x.addr (sizeOf f.sz))
      [⟨0, s.grp.rp f.sb + atomOfs f⟩] = .ok [(0, ks)] := State.accessAll_single halign hkeys
  simp only [execSatom, hword, hbase, Group.satomRegs hval hnext, hout, hlive, hplace, Group.region_of_outside hout,
    State.releaseFirst_of_now hq hnow, Bool.and_self, Bool.not_false, Bool.true_or, State.need_true, Run.ok_bind, Run.pure_eq,
    List.flatMap_cons, List.flatMap_nil, List.append_nil, Group.satomOperand_eq, finish_ok, settle_done]
  by_cases hret : noReturn f = true
  · simp only [hret, if_true]
    rfl
  · simp only [hret]
    rfl

/-! ### VATOM (R171, R172) -/

theorem permute_perm {α : Type} (cs : List Nat) (xs : List α) : (permute cs xs).Perm xs := by
  induction cs generalizing xs with
  | nil => exact .refl xs
  | cons c cs ih =>
    rw [permute]
    split
    · next y hy =>
      obtain ⟨hlt, rfl⟩ := List.getElem?_eq_some_iff.1 hy
      exact ((ih _).cons _).trans (List.getElem_cons_eraseIdx_perm hlt)
    · exact .refl xs

/-- The number in a lane of a vector register, or of a pair of them. -/
def Group.wideLane (g : Group) (wide : Bool) (l k : Nat) : Nat :=
  (g.rvl k l).toNat + (if wide then (g.rvl (k + 1) l).toNat * 2 ^ 32 else 0)

/-- The register that holds VATOM's operand: V, or for `cas` the one after it (R172). -/
def vatomNext (f : VM) (wide : Bool) : Nat := if f.atomOp = 9 then (if wide then 2 else 1) else 0

theorem Group.vatomOperand_eq (g : Group) (f : VM) (wide : Bool) (l : Nat) :
    (if f.atomOp = 9 then g.wideLane wide l (f.v.toNat + (if wide then 2 else 1)) else g.wideLane wide l f.v.toNat) =
      g.wideLane wide l (f.v.toNat + vatomNext f wide) := by
  unfold vatomNext
  split <;> rfl

/-- The registers of VATOM may be named: for `cas` those of its new values too. -/
theorem Group.vatomRegs {g : Group} {f : VM} {wide : Bool}
    (h : f.atomOp = 9 → g.hasVec (f.v.toNat + vatomNext f wide) = true ∧ (wide = true → g.hasVec (f.v.toNat + 3) = true)) :
    (decide (f.atomOp ≠ 9) || (g.hasVec (f.v.toNat + (if wide then 2 else 1)) && (!wide || g.hasVec (f.v.toNat + 3)))) = true := by
  by_cases hop : f.atomOp = 9
  · obtain ⟨hlow, hhigh⟩ := h hop
    rw [vatomNext, if_pos hop] at hlow
    cases wide with
    | false => simpa using .inr hlow
    | true => simpa using .inr ⟨hlow, hhigh rfl⟩
  · simp [hop]

/-- The value that a lane of VATOM receives: what its own operation has read. -/
def oldOf (olds : List (Nat × Nat)) (l : Nat) : LaneRes :=
  ⟨BitVec.ofNat 64 (((olds.find? (fun q => q.1 = l)).map (·.2)).getD 0), 0⟩

section
variable {s u : State} {p : Option Pfx} {f : VM} {e : Eff} {ps : List (Nat × List Nat)} (he : e = s.grp.eff p)
include he

theorem execVatom_outside {wide : Bool} {xs : List Access} (hwide : wide = decide (f.sz = 5))
    (hword : (Instr.vatom p f).wf = true)
    (hnext : f.atomOp = 9 → s.grp.hasVec (f.v.toNat + vatomNext f wide) = true ∧ (wide = true → s.grp.hasVec (f.v.toNat + 3) = true))
    (hnames : s.grp.vmOk f = true) (hdata : s.grp.vmDataOk f wide = true) (hout : s.grp.inRegion = false)
    (hlive : s.grp.liveInVec f.v.toNat = false) (hliveHigh : wide = true → s.grp.liveInVec (f.v.toNat + 1) = false)
    (hxs : xs = (lanesOf (s.grp.mask f.m)).map (fun l => ⟨l, s.grp.vmAddr f (atomOfs f) l⟩))
    (hplaces : s.accessAll e.space (sizeOf f.sz) (fun x => s.atomPlace (some x.lane) e.space x.addr (sizeOf f.sz)) xs = .ok ps)
    (hu : u = s.walked e.space xs) (hq : u.grp.relq = []) (hnow : u.releasesNow e.ord e.scope) {s1 : State}
    (hs1 : s1 = u.toL2 e.ord e.scope (ps.flatMap (·.2)) true) {r : State × List (Nat × Nat)}
    (hr : r = (s1.chooseOrder ps).2.atomLanes (sizeOf f.sz) (fun l old => atomNew (8 * sizeOf f.sz) f.atomOp old
      (s.grp.wideLane wide l (f.v.toNat + vatomNext f wide)) (s.grp.wideLane wide l f.v.toNat)) (s1.chooseOrder ps).1) :
    execVatom p f s = .next (((r.1.acquireIf e.ord e.scope).onGrp (fun g =>
      g.writeLanes f.v.toNat wide (g.mask f.m) (oldOf r.2))).retire (pfxLen p)) := by
  subst he hxs hwide hu hs1 hr
  have hlive : (s.grp.liveInVec f.v.toNat || (decide (f.sz = 5) && s.grp.liveInVec (f.v.toNat + 1))) = false := by
    simpa [hlive] using hliveHigh
  simp only [execVatom, hword, hnames, hdata, hout, hlive, Group.vatomRegs hnext, hplaces, State.releaseFirst_of_now hq hnow,
    Bool.and_self, Bool.not_false, State.need_true, Run.ok_bind, Run.pure_eq, finish_ok, settle_done, ← Group.vatomOperand_eq]
  rfl

theorem execFxadd_outside {xs : List Access} {inc : Nat → Int × Flags} (hword : (Instr.fxadd p f).wf = true)
    (hnames : s.grp.vmOk f = true) (hdata : s.grp.vmDataOk f false = true) (hout : s.grp.region = none)
    (hxs : xs = (lanesOf (s.grp.mask f.m)).map (fun l => ⟨l, s.grp.vmAddr f (atomOfs f) l⟩))
    (hplaces : s.accessAll e.space 16 (fun x => s.atomPlace (some x.lane) e.space x.addr 16) xs = .ok ps)
    (hu : u = s.walked e.space xs) (hq : u.grp.relq = []) (hnow : u.releasesNow e.ord e.scope)
    (hinc : ∀ l, inc l = fxIncrement (flushIn s.grp.fpcr .f32 (s.grp.rvl f.v.toNat l).toNat)) :
    execFxadd p f s = .next (((((u.toL2 e.ord e.scope (ps.flatMap (·.2)) false).atomLanes 16 (fun l old =>
      (BitVec.ofNat 128 old + BitVec.ofInt 128 (inc l).1).toNat) ps).1.acquireIf e.ord e.scope).onGrp (fun g =>
        g.raiseFlags ((lanesOf (s.grp.mask f.m)).foldl (fun x l => x ||| (inc l).2) 0))).retire (pfxLen p)) := by
  obtain rfl : inc = fun l => fxIncrement (flushIn s.grp.fpcr .f32 (s.grp.rvl f.v.toNat l).toNat) := funext hinc
  subst he hxs hu
  simp only [execFxadd, hword, hnames, hdata, hout, hplaces, State.releaseFirst_of_now hq hnow, Bool.and_self, State.need_true,
    Run.ok_bind, Run.pure_eq, finish_ok, settle_done]
  rfl

/-- The value of FXRD: the accumulator, as the core's own dirty bytes leave it (R175). -/
def State.fxRead (s : State) (fpcr : Word) (wide : Bool) (ks : List Nat) : FRes :=
  fxValue fpcr (if wide then .f64 else .f32)
    (BitVec.ofNat 128 (bytesNat ((s.takeExclusive s.grp.coreNo (ks.headD 0)).readCoherent (ks.headD 0) 16)))

/-- What FXRD leaves of memory: with `clr` an atomic writes 0 at the accumulator. -/
def State.fxCleared (s : State) (clr : Bool) (ks : List Nat) : State :=
  if clr then (s.atomically (ks.headD 0) 16 (fun _ => 0)).1 else s.takeExclusive s.grp.coreNo (ks.headD 0)

theorem execFxrd_outside {wide clr : Bool} {v : BitVec 6} {ks : List Nat} (hwide : wide = decide (f.sz = 5))
    (hclr : clr = decide (f.atomOp = 1)) (hv : v = f.v.setWidth 6) (hword : (Instr.fxrd p f).wf = true)
    (hbase : s.grp.pairOk f.sb = true) (hval : (if wide then s.grp.pairOk v else s.grp.scalOk v) = true)
    (hout : s.grp.region = none) (hlive : (if wide then s.grp.liveInPair v else s.grp.liveIn v) = false)
    (halign : (s.grp.rp f.sb + atomOfs f).toNat % 16 = 0)
    (hkeys : (if clr then s.atomPlace none e.space (s.grp.rp f.sb + atomOfs f) 16
      else (s.place none e.space .read (s.grp.rp f.sb + atomOfs f) 16).local?) = .keys ks)
    (hu : u = s.walked e.space [⟨0, s.grp.rp f.sb + atomOfs f⟩]) (hq : u.grp.relq = [])
    (hnow : clr = false ∨ u.releasesNow e.ord e.scope) {s1 : State}
    (hs1 : s1 = (if clr && releases e.ord then u.releaseAt u.grp.coreNo e.scope else u).atL2 ks true) {y : FRes}
    (hy : y = s1.fxRead s.grp.fpcr wide ks) :
    execFxrd p f s = .next ((((s1.fxCleared clr ks).acquireIf (if clr then e.ord else fitLoad e.ord) e.scope).onGrp (fun g =>
      (if wide then g.wp v (BitVec.ofNat 64 y.bits) else g.ws v (BitVec.ofNat 32 y.bits)).raiseFlags y.flags)).retire
        (pfxLen p)) := by
  subst he hv hu hs1 hy
  have hplace : s.accessAll (s.grp.eff p).space 16 (fun x =>
      if clr then s.atomPlace none (s.grp.eff p).space x.addr 16
      else (s.place none (s.grp.eff p).space .read x.addr 16).local?) [⟨0, s.grp.rp f.sb + atomOfs f⟩] = .ok [(0, ks)] :=
    State.accessAll_single halign hkeys
  have hregion : s.grp.inRegion = false := by simp [Group.inRegion, hout]
  cases clr with
  | false =>
    have hfirst := State.releaseFirst_of_now (ks := ks) hq (.inl rfl : State.releasesNow _ 1 (s.grp.eff p).scope)
    simp only [Bool.false_eq_true, if_false] at hplace
    simp only [execFxrd, ← hclr, ← hwide, hword, hbase, hval, hout, hlive, hregion, hplace, hfirst, Bool.and_self, Bool.not_false,
      Bool.false_and, Bool.false_eq_true, if_false, State.need_true, Run.ok_bind, Run.pure_eq, finish_ok, settle_done,
      List.flatMap_cons, List.flatMap_nil, List.append_nil]
    rfl
  | true =>
    have hfirst := State.releaseFirst_of_now (ks := ks) hq (hnow.resolve_left (by decide))
    simp only [if_true] at hplace
    simp only [execFxrd, ← hclr, ← hwide, hword, hbase, hval, hout, hlive, hregion, hplace, hfirst, Bool.and_self, Bool.not_false,
      Bool.and_false, Bool.true_and, if_true, State.need_true, Run.ok_bind, Run.pure_eq, finish_ok, settle_done, List.flatMap_cons,
      List.flatMap_nil, List.append_nil]
    rfl

end

end Sys2Proof.Machine

open Sys2Proof Sys2Proof.Machine

/-- Settles O30: an atomic is a coherent read and a coherent write of the same bytes, and each instruction is its checks, its
release, its atomics in their order, and the old values written to its registers. -/
theorem atomicsActAtOnce : Obligations.AtomicsActAtOnce := by
  unfold Obligations.AtomicsActAtOnce
  refine ⟨?point, ?satom, ?vatom, ?lanes, ?fxadd, ?fxrd⟩
  case point =>
    intro s key n f hm hlocal hf
    exact ⟨s.atomically_old key n f, State.atomically_writes hm hlocal hf, fun k hk => State.atomically_keeps hm hlocal hk,
      s.atomically_grp key n f⟩
  case satom =>
    rintro s u s1 p f e wide v n ks he hwide hv rfl hword hbase hval hout hnext hlive halign hkeys hu hq hnow rfl r hr
    exact (exec_satom p f s).trans
      (execSatom_outside he hwide hv hword hbase hval hout hnext hlive halign hkeys hu hq hnow hr)
  case vatom =>
    rintro s u s1 p f e wide n k xs ps he hwide rfl rfl hword hnext hnames hdata hout hlive hliveHigh hxs hplaces hu hq hnow hs1
    exact ⟨(s1.chooseOrder ps).1, _, _, permute_perm _ _, rfl, rfl, (exec_vatom p f s).trans
      (execVatom_outside he hwide hword hnext hnames hdata hout hlive hliveHigh hxs hplaces hu hq hnow hs1 rfl)⟩
  case lanes =>
    intro s n f q qs
    exact ⟨rfl, rfl, rfl, rfl⟩
  case fxadd =>
    rintro s u s1 p f e xs ps he hword hnames hdata hout hxs hplaces hu hq hnow rfl inc hinc
    exact (exec_fxadd p f s).trans (execFxadd_outside he hword hnames hdata hout hxs hplaces hu hq hnow hinc)
  case fxrd =>
    rintro s u s1 p f e wide clr v ks he hwide hclr hv hword hbase hval hout hlive halign hkeys hu hq hnow hs1 y hy
    exact (exec_fxrd p f s).trans
      (execFxrd_outside he hwide hclr hv hword hbase hval hout hlive halign hkeys hu hq hnow hs1 hy)

end

section
/-! PROOFS. Team and band barriers (09_synchronisation.md R176, R177). -/

namespace Sys2Proof.Machine

open Sys2Proof

/-! ### Barriers by name (R176) -/

theorem State.band?_onBand (s : State) (u : Nat) {h : Band → Band} (huid : ∀ b, (h b).uid = b.uid) :
    (s.onBand u h).band? u = (s.band? u).map h := by
  have hkept (b : Band) : (if b.uid = u then h b else b).uid = b.uid := by split <;> simp [huid]
  simp only [State.band?, State.onBand, List.find?_map, Function.comp_def, hkept]
  cases hfind : s.bands.find? (fun b => b.uid = u) with
  | none => rfl
  | some b =>
    have hb : b.uid = u := by simpa using List.find?_some hfind
    simp [hb]

theorem Band.inst?_onInst (b : Band) (k : Nat) {h : Inst → Inst} (hk : ∀ i, (h i).k = i.k) :
    (b.onInst k h).inst? k = (b.inst? k).map h := by
  have hkept (i : Inst) : (if i.k = k then h i else i).k = i.k := by split <;> simp [hk]
  simp only [Band.inst?, Band.onInst, List.find?_map, Function.comp_def, hkept]
  cases hfind : b.insts.find? (fun i => i.k = k) with
  | none => rfl
  | some i =>
    have hi : i.k = k := by simpa using List.find?_some hfind
    simp [hi]

/-- The change of a barrier that its team holds. -/
def Inst.onBar (bar : Nat) (h : Barrier → Barrier) (i : Inst) : Inst :=
  match i.bars[bar]? with
  | some x => { i with bars := i.bars.setIfInBounds bar (h x) }
  | none => i

theorem Inst.onBar_k (bar : Nat) (h : Barrier → Barrier) (i : Inst) : (i.onBar bar h).k = i.k := by
  unfold Inst.onBar
  split <;> rfl

theorem Inst.onBar_bars (i : Inst) (bar : Nat) (h : Barrier → Barrier) : (i.onBar bar h).bars[bar]? = i.bars[bar]?.map h := by
  unfold Inst.onBar
  split
  · next x hx =>
    have hlt : bar < 16 := (Vector.getElem?_eq_some_iff.1 hx).1
    rw [hx]
    simp [hlt]
  · next hx => simp [hx]

theorem State.onBarrier_team (s : State) (band inst : Nat) {bar : Nat} (hbar : bar ≠ bandBar) (h : Barrier → Barrier) :
    s.onBarrier band inst bar h = s.onBand band (fun b => b.onInst inst (Inst.onBar bar h)) := by
  rw [State.onBarrier]
  simp only [if_neg hbar]
  rfl

/-- A changed barrier is found as it has been changed. -/
theorem State.barAt_onBarrier (s : State) (band inst bar : Nat) (h : Barrier → Barrier) :
    (s.onBarrier band inst bar h).barAt band inst bar = (s.barAt band inst bar).map h := by
  by_cases hbar : bar = bandBar
  · simp only [State.barAt, State.onBarrier, hbar, if_true]
    rw [State.band?_onBand]
    · cases s.band? band <;> rfl
    · exact fun _ => rfl
  · rw [State.onBarrier_team s band inst hbar]
    simp only [State.barAt, if_neg hbar]
    rw [State.band?_onBand _ _ (h := fun b => b.onInst inst (Inst.onBar bar h)) (fun _ => rfl)]
    cases s.band? band with
    | none => rfl
    | some b =>
      simp only [Option.map_some, Option.bind_some, Band.inst?_onInst b inst (Inst.onBar_k bar h)]
      cases b.inst? inst with
      | none => rfl
      | some i => exact i.onBar_bars bar h

theorem State.barAt_of_bands {s t : State} (h : t.bands = s.bands) (band inst bar : Nat) :
    t.barAt band inst bar = s.barAt band inst bar := by
  rw [State.barAt, State.barAt, State.band?, State.band?, h]

/-! ### The end of a phase (R176) -/

theorem State.shiftBudget_work (last : Option Nat) (cs : List Nat) (s : State) : (s.shiftBudget last cs).work = s.work := by
  induction cs generalizing s with
  | nil => rfl
  | cons c cs ih =>
    rw [State.shiftBudget, ih]
    rfl

/-- The barrier of a phase that has just begun. -/
def Barrier.next (b : Barrier) : Barrier := { b with phase := b.phase + 1, arrived := [], first := none }

/-- A group that waited on the barrier of a phase that ends is ready. -/
def Group.wakes (g : Group) (band inst bar : Nat) : Group := if g.waitsOn band inst bar then { g with status := .ready } else g

theorem Group.waitsOn_wakes (g : Group) (band inst bar : Nat) : (g.wakes band inst bar).waitsOn band inst bar = false := by
  unfold Group.wakes
  split
  · simp [Group.waitsOn, Group.waiting?]
  · next h => simpa using h

/-- A complete phase ends: the barrier is that of the next phase, and its waiting members are ready. -/
theorem State.endPhase_work_of_full {s : State} {band inst bar : Nat} {b : Barrier} (hb : s.barAt band inst bar = some b)
    (hfull : s.phaseFull band inst bar b = true) :
    (s.endPhase band inst bar).work =
      { (s.onBarrier band inst bar Barrier.next).work with others := s.others.map (fun g => g.wakes band inst bar) } := by
  simp only [State.endPhase, hb, hfull, if_true]
  split
  · exact State.shiftBudget_work _ _ _
  · rfl

/-- A group has arrived at a barrier. -/
def Barrier.enter (b : Barrier) (uid : Nat) : Barrier :=
  { b with arrived := uid :: b.arrived.filter (fun u => u ≠ uid), first := some (b.first.getD (uid, 0)) }

/-- The arrival of a group, before it is seen whether it ends the phase. -/
def State.entered (s : State) (bar : Nat) : State :=
  (s.onGrp (fun g => (g.setMark bar (some (s.phaseOf bar))).progressed)).onBarrier s.grp.id.band s.grp.id.inst bar
    (fun b => b.enter s.grp.id.uid)

theorem State.enterPhase_eq (s : State) (bar : Nat) :
    s.enterPhase bar = (s.entered bar).endPhase s.grp.id.band s.grp.id.inst bar := rfl

theorem Barrier.mem_enter {b : Barrier} {u v : Nat} (h : v = u ∨ b.arrived.contains v = true) :
    (b.enter u).arrived.contains v = true := by
  by_cases hv : v = u
  · simp [Barrier.enter, hv]
  · simpa [Barrier.enter, hv] using h

/-- Where every other member has arrived, the arrival of the group makes the phase complete. -/
theorem State.entered_full {s : State} {bar : Nat} {b : Barrier}
    (hothers : ∀ g ∈ s.others, g.memberOf s.grp.id.band s.grp.id.inst bar = true → b.arrived.contains g.id.uid = true) :
    (s.entered bar).phaseFull s.grp.id.band s.grp.id.inst bar (b.enter s.grp.id.uid) = true := by
  have hmembers : ∀ g ∈ (s.entered bar).members s.grp.id.band s.grp.id.inst bar,
      (b.enter s.grp.id.uid).arrived.contains g.id.uid = true := by
    intro g hg
    obtain ⟨hin, hmem⟩ := List.mem_filter.1 hg
    rcases List.mem_cons.1 hin with rfl | hg
    · exact Barrier.mem_enter (.inl rfl)
    · exact Barrier.mem_enter (.inr (hothers g hg hmem))
  rw [State.phaseFull, List.all_eq_true.2 hmembers]
  rfl

/-- The last arrival ends the phase. -/
theorem State.enterPhase_last {s : State} {bar : Nat} {b : Barrier}
    (hb : s.barAt s.grp.id.band s.grp.id.inst bar = some b)
    (hothers : ∀ g ∈ s.others, g.memberOf s.grp.id.band s.grp.id.inst bar = true → b.arrived.contains g.id.uid = true) :
    (s.enterPhase bar).barAt s.grp.id.band s.grp.id.inst bar = some (b.enter s.grp.id.uid).next ∧
    ∀ g ∈ (s.enterPhase bar).others, g.waitsOn s.grp.id.band s.grp.id.inst bar = false := by
  have hentered : (s.entered bar).barAt s.grp.id.band s.grp.id.inst bar = some (b.enter s.grp.id.uid) := by
    rw [State.entered, State.barAt_onBarrier, State.barAt_of_bands (State.onGrp_bands _ _), hb]
    rfl
  have hwork := State.endPhase_work_of_full hentered (State.entered_full hothers)
  rw [State.enterPhase_eq]
  constructor
  · rw [State.barAt_of_bands (congrArg Work.bands hwork :), State.barAt_onBarrier, hentered]
    rfl
  · intro g hg
    rw [show (State.others _) = _ from congrArg Work.others hwork] at hg
    obtain ⟨g', -, rfl⟩ := List.mem_map.1 hg
    exact Group.waitsOn_wakes _ _ _ _

/-! ### Arrive and Wait (R177) -/

theorem barScope_ne_six (bar : Nat) : barScope bar ≠ 6 := by
  unfold barScope
  split <;> decide

theorem State.arriveBar_of_none {s : State} (h : s.grp.relq = []) (bar : Nat) : s.arriveBar bar = .ok (s.arrives bar) := by
  rw [State.arriveBar, State.releaseRun_of_none h (.inl (barScope_ne_six bar))]
  rfl

theorem State.passBar_mark (s : State) (bar : Nat) : (s.passBar bar).grp.mark bar = none := by
  simp only [State.passBar, State.onGrp_grp, Group.mark, Group.setMark]
  by_cases h : bar < 17
  · simp [h]
  · simp [h]

theorem State.waitBar_of_unmarked {s : State} {bar : Nat} (h : s.grp.mark bar = none) : s.waitBar bar = .ok s := by
  rw [State.waitBar, h]

theorem State.waitBar_of_ended {s : State} {bar : Nat} {ph : Word} (h : s.grp.mark bar = some ph) (hph : s.phaseOf bar ≠ ph) :
    s.waitBar bar = .ok (s.passBar bar) := by
  simp [State.waitBar, State.barPassed, h, hph]

theorem State.waitBar_of_running {s : State} {bar : Nat} {ph : Word} (h : s.grp.mark bar = some ph) (hph : s.phaseOf bar = ph) :
    s.waitBar bar = .error (.wait (.barrier bar) s) := by
  simp [State.waitBar, State.barPassed, h, hph]

/-- A wait that is over leaves no mark. -/
theorem State.waitBar_of_passed {s : State} {bar : Nat} (h : s.barPassed bar = true) :
    ∃ t, s.waitBar bar = .ok t ∧ t.grp.mark bar = none := by
  cases hmark : s.grp.mark bar with
  | none => exact ⟨s, State.waitBar_of_unmarked hmark, hmark⟩
  | some ph =>
    have hph : s.phaseOf bar ≠ ph := by simpa [State.barPassed, hmark] using h
    exact ⟨_, State.waitBar_of_ended hmark hph, s.passBar_mark bar⟩

theorem State.arriveAndWait_of_unmarked {s : State} {bar : Nat} (hq : s.grp.relq = []) (h : s.grp.mark bar = none) :
    s.arriveAndWait bar = (s.arrives bar).waitBar bar := by
  rw [State.arriveAndWait, h, State.arriveBar_of_none hq]
  rfl

/-! ### The instructions (R177) -/

theorem exec_bart (f : EX) (s : State) : exec (.bart f) s = execBart f s := rfl
theorem exec_bara (f : EX) (s : State) : exec (.bara f) s = execBara f s := rfl
theorem exec_barw (f : EX) (s : State) : exec (.barw f) s = execBarw f s := rfl
theorem exec_barb (f : EX) (s : State) : exec (.barb f) s = execBarb f s := rfl

section
variable {s : State} {f : EX}

/-- What BART and BARB come to once their checks pass. -/
def State.arriveThenGo (s : State) (bar : Nat) : Out :=
  finish 1 (s.arriveAndWait bar >>= fun t => .ok (.done t))

theorem execBart_eq (hok : f.okBar 15 = true) (hhelper : s.grp.helper = none) (hout : s.grp.inRegion = false) :
    execBart f s = s.arriveThenGo (f.imm.toNat % 16) := by
  simp only [execBart, hok, hhelper, hout, Option.isNone_none, Bool.and_self, Bool.not_false, State.need_true, Run.ok_bind]
  rfl

theorem execBarb_eq (hok : f.okBar 0 = true) (hhelper : s.grp.helper = none) (hout : s.grp.inRegion = false)
    (hband : s.grp.id.bandBar = true) : execBarb f s = s.arriveThenGo 16 := by
  simp only [execBarb, hok, hhelper, hout, hband, Option.isNone_none, Bool.and_self, Bool.not_false, State.need_true, Run.ok_bind]
  rfl

theorem State.arriveThenGo_passes {bar : Nat} (hq : s.grp.relq = []) (hmark : s.grp.mark bar = none)
    (hpass : (s.arrives bar).barPassed bar = true) :
    ∃ t : State, s.arriveThenGo bar = .next (t.retire 1) ∧ t.grp.mark bar = none := by
  obtain ⟨t, hwait, ht⟩ := State.waitBar_of_passed hpass
  refine ⟨t, ?_, ht⟩
  rw [State.arriveThenGo, State.arriveAndWait_of_unmarked hq hmark, hwait]
  rfl

theorem State.arriveThenGo_waits {bar : Nat} {ph : Word} (hq : s.grp.relq = []) (hmark : s.grp.mark bar = none)
    (hkept : (s.arrives bar).grp.mark bar = some ph) (hph : (s.arrives bar).phaseOf bar = ph) :
    s.arriveThenGo bar = .next ((s.arrives bar).waitFor (.barrier bar)) := by
  rw [State.arriveThenGo, State.arriveAndWait_of_unmarked hq hmark, State.waitBar_of_running hkept hph]
  rfl

theorem execBara_of_unmarked (hok : f.okBar 15 = true) (hhelper : s.grp.helper = none) (hout : s.grp.inRegion = false)
    (hq : s.grp.relq = []) (hmark : s.grp.mark (f.imm.toNat % 16) = none) :
    execBara f s = .next ((s.arrives (f.imm.toNat % 16)).retire 1) := by
  have hwait : s.waitBar (barOf f) = .ok s := State.waitBar_of_unmarked hmark
  simp only [execBara, hok, hhelper, hout, hwait, State.arriveBar_of_none hq, Option.isNone_none, Bool.and_self, Bool.not_false,
    State.need_true, Run.ok_bind]
  rfl

theorem execBarw_of_wait {t : State} (hok : f.okBar 15 = true) (hhelper : s.grp.helper = none)
    (hwait : s.waitBar (f.imm.toNat % 16) = .ok t) : execBarw f s = .next (t.retire 1) := by
  have hwait : s.waitBar (barOf f) = .ok t := hwait
  simp only [execBarw, hok, hhelper, hwait, Option.isNone_none, Bool.and_self, State.need_true, Run.ok_bind]
  rfl

end

end Sys2Proof.Machine

open Sys2Proof Sys2Proof.Machine

/-- Settles O31: each barrier instruction is its checks, then Arrive and Wait, and the last arrival makes the phase complete, which
ends it. -/
theorem barriersComplete : Obligations.BarriersComplete := by
  unfold Obligations.BarriersComplete
  refine ⟨?instructions, ?lastArrival⟩
  case instructions =>
    intro s f hhelper hq
    refine ⟨?arrive, ?unmarked, ?ended, ?bandPasses, ?bandWaits⟩
    case arrive =>
      intro hok hout hmark
      rw [exec_bart, exec_bara, execBart_eq hok hhelper hout]
      exact ⟨State.arriveThenGo_passes hq hmark, fun ph hkept hph => State.arriveThenGo_waits hq hmark hkept hph,
        execBara_of_unmarked hok hhelper hout hq hmark⟩
    case unmarked =>
      intro hok hmark
      exact (exec_barw f s).trans (execBarw_of_wait hok hhelper (State.waitBar_of_unmarked hmark))
    case ended =>
      intro hok ph hmark hph
      exact ⟨_, (exec_barw f s).trans (execBarw_of_wait hok hhelper (State.waitBar_of_ended hmark hph)), s.passBar_mark _,
        s.acquireAt_mem _ _⟩
    case bandPasses =>
      intro hok hout hband hmark hpass
      rw [exec_barb, execBarb_eq hok hhelper hout hband]
      exact State.arriveThenGo_passes hq hmark hpass
    case bandWaits =>
      intro hok hout hband hmark ph hkept hph
      rw [exec_barb, execBarb_eq hok hhelper hout hband]
      exact State.arriveThenGo_waits hq hmark hkept hph
  case lastArrival =>
    intro s bar b _ hb _ hothers
    have hwork := s.releaseAt_work s.grp.coreNo (barScope bar)
    have hgrp := s.releaseAt_grp s.grp.coreNo (barScope bar)
    have hlast := State.enterPhase_last (s := s.releaseAt s.grp.coreNo (barScope bar)) (bar := bar) (b := b)
      (by rw [State.barAt_of_bands (State.bands_of_work hwork), hgrp]; exact hb)
      (by rw [hgrp, show (State.others _) = _ from congrArg Work.others hwork]; exact hothers)
    rw [hgrp] at hlast
    obtain ⟨hnext, hready⟩ := hlast
    exact ⟨⟨_, hnext, rfl, rfl, rfl⟩, hready⟩
end

section
/-! PROOFS. Barriers in scratch, and WAITV (09_synchronisation.md R180 to R182). -/

namespace Sys2Proof.Machine

open Sys2Proof

theorem exec_sbinit (f : EX) (s : State) : exec (.sbinit f) s = execSbinit f s := rfl
theorem exec_sbarv (f : EX) (s : State) : exec (.sbarv f) s = execSbarv f s := rfl
theorem exec_sbwait (f : EX) (s : State) : exec (.sbwait f) s = execSbwait f s := rfl
theorem exec_sbwaitRelease (s : State) : exec .sbwaitRelease s = execSbwaitRelease s := rfl
theorem exec_waitv (p : Option Pfx) (f : EX) (s : State) : exec (.waitv p f) s = execWaitv p f s := rfl
theorem exec_waitvRecheck (s : State) : exec .waitvRecheck s = execWaitvRecheck s := rfl
theorem exec_waitvTimeout (s : State) : exec .waitvTimeout s = execWaitvTimeout s := rfl

/-! ### The barrier object (R180) -/

/-- An object is read back from its 16 bytes. -/
theorem ScratchBar.ofNat_toNat (b : ScratchBar) : ScratchBar.ofNat b.toNat = b := by
  obtain ⟨rsv, valid, phase, count, expect⟩ := b
  have hc := count.isLt
  have he := expect.isLt
  have hp := phase.isLt
  have hr := rsv.isLt
  have hv : (if valid then 1 else 0) < 2 := by cases valid <;> decide
  simp only [ScratchBar.ofNat, ScratchBar.toNat, ScratchBar.mk.injEq]
  generalize hvn : (if valid then 1 else 0) = v at hv
  refine ⟨BitVec.eq_of_toNat_eq ?_, ?_, BitVec.eq_of_toNat_eq ?_, BitVec.eq_of_toNat_eq ?_, BitVec.eq_of_toNat_eq ?_⟩
  · rw [BitVec.toNat_ofNat]; omega
  · rw [show (expect.toNat + 2 ^ 32 * count.toNat + 2 ^ 64 * phase.toNat + 2 ^ 96 * v + 2 ^ 97 * rsv.toNat) / 2 ^ 96 % 2 = v by omega,
      ← hvn]
    cases valid <;> rfl
  all_goals rw [BitVec.toNat_ofNat]; omega

/-- AddBytes counts whole phases of a valid object. -/
theorem ScratchBar.add_of_valid {b : ScratchBar} (hvalid : b.valid = true) (hexpect : b.expect ≠ 0) (k : Nat) :
    b.add k = { b with
      phase := b.phase + BitVec.ofNat 32 ((b.count.toNat + k) / b.expect.toNat),
      count := BitVec.ofNat 32 ((b.count.toNat + k) % b.expect.toNat) } := by
  rw [ScratchBar.add, hvalid, decide_eq_true hexpect]
  rfl

/-- The count that is left is below the expected total, and so fits its field. -/
theorem ScratchBar.toNat_rest {e : Word} (he : e ≠ 0) (c : Nat) : (BitVec.ofNat 32 (c % e.toNat)).toNat = c % e.toNat := by
  have hpos : 0 < e.toNat := Nat.pos_of_ne_zero fun h => he (BitVec.eq_of_toNat_eq h)
  rw [BitVec.toNat_ofNat, Nat.mod_eq_of_lt ((Nat.mod_lt c hpos).trans e.isLt)]

/-! ### SBINIT, SBARV and SBWAIT (R181) -/

/-- The object that a scratch barrier instruction names is found. -/
theorem State.sbKey_of_place {s : State} {f : EX} {nd : Need} {ks : List Nat} (halign : (s.grp.rp f.a).toNat % 16 = 0)
    (hkeys : s.place none (if f.sub = 1 then 3 else 2) nd (s.grp.rp f.a) 16 = .keys ks) : s.sbKey f nd = .ok (ks.headD 0) := by
  have hplace : s.accessAll (if f.sub = 1 then 3 else 2) 16 (fun x => s.place none (if f.sub = 1 then 3 else 2) nd x.addr 16)
      [⟨0, s.grp.rp f.a⟩] = .ok [(0, ks)] := State.accessAll_single halign hkeys
  simp only [State.sbKey, hplace, Run.ok_bind, Run.pure_eq, List.flatMap_cons, List.flatMap_nil,
    List.append_nil]

section
variable {s : State} {f : EX} {ks : List Nat} (ha : s.grp.pairOk f.a = true) (hb : s.grp.scalOk f.b = true)
  (halign : (s.grp.rp f.a).toNat % 16 = 0)
include ha hb halign

theorem execSbinit_of_place (hkeys : s.place none (if f.sub = 1 then 3 else 2) .write (s.grp.rp f.a) 16 = .keys ks)
    (hout : s.grp.inRegion = false) (hq : s.grp.relq = []) (hok : f.okSb false true = true) (hc : s.grp.scalOk f.c = true) :
    execSbinit f s = .next (((s.onScratchBar (ks.headD 0) (fun b =>
      { b with valid := decide (s.grp.rs f.b ≠ 0), phase := s.grp.rs f.c, count := 0, expect := s.grp.rs f.b })).onGrp
        Group.progressed).retire 1) := by
  simp only [execSbinit, hok, ha, hb, hc, hout, State.sbKey_of_place halign hkeys, State.beforeKeys_of_none hq, Bool.and_self,
    Bool.not_false, State.need_true, Run.ok_bind, Run.pure_eq, finish_ok, settle_done]

theorem execSbarv_of_place (hkeys : s.place none (if f.sub = 1 then 3 else 2) .write (s.grp.rp f.a) 16 = .keys ks)
    (hout : s.grp.inRegion = false) (hq : s.grp.relq = []) (hok : f.okSb false false = true) :
    execSbarv f s = .next ((((s.releaseAt s.grp.coreNo 3).onScratchBar (ks.headD 0)
      (fun b => b.add (s.grp.rs f.b).toNat)).onGrp Group.progressed).retire 1) := by
  simp only [execSbarv, hok, ha, hb, hout, State.sbKey_of_place halign hkeys, State.releaseRun_of_none (scope := 3) hq (.inl (by decide)),
    Bool.and_self, Bool.not_false, State.need_true, Run.ok_bind, Run.pure_eq, finish_ok, settle_done]

theorem execSbwait_of_passed (hkeys : s.place none (if f.sub = 1 then 3 else 2) .read (s.grp.rp f.a) 16 = .keys ks)
    (hok : f.okSb true false = true) (hd : s.grp.scalOk f.d = true) (hlive : s.grp.liveIn f.d = false)
    (hunheld : ∀ i, i < 16 → relGet s.grp.relq (ks.headD 0 + i) = none)
    (hpassed : (s.scratchBar (ks.headD 0)).passed (s.grp.rs f.b) = true) :
    execSbwait f s = .next ((s.sbReturn f.d (ks.headD 0)).retire 1) := by
  have hbefore : s.beforeKeys (keyRun (ks.headD 0) 16) = .ok s :=
    State.beforeKeys_of_unheld (by simpa [keyRun] using hunheld)
  simp only [execSbwait, hok, ha, hb, hd, hlive, State.sbKey_of_place halign hkeys, hbefore, hpassed, if_true, Bool.and_self,
    Bool.not_false, State.need_true, Run.ok_bind, Run.pure_eq, finish_ok, settle_done]

end

theorem State.sbReturn_grp (s : State) (d : BitVec 6) (key : Nat) :
    (s.sbReturn d key).grp = s.grp.ws d (s.scratchBar key).phase :=
  congrArg (fun g => g.ws d (s.scratchBar key).phase) (s.acquireAt_grp _ _)

theorem execSbwaitRelease_of_passed {s t : State} {uid : Nat} {d : BitVec 6} {key : Nat} {ph : Word} (hev : s.ev = .group uid)
    (ht : s.focus uid = some t) (hwait : t.grp.status = .waiting (.scratchBar d key ph))
    (hpassed : (t.scratchBar key).passed ph = true) : execSbwaitRelease s = .next ((t.sbReturn d key).retire 1) := by
  rw [execSbwaitRelease, withGroup_of_focus _ _ hev ht]
  simp only [Group.waiting?, hwait, hpassed, if_true, settle_done]

/-! ### WAITV (R182) -/

/-- A read of a poll that gives a value counts misses, and changes nothing else of the group or of memory. -/
theorem State.pollRead_keeps_state {s u : State} {p : Option Pfx} {f : EX} {w : Word} (h : s.pollRead p f = .ok (w, u)) :
    u.mem = s.mem ∧ ∃ n bytes, u.grp = s.grp.countMisses n bytes := by
  obtain ⟨-, -, h⟩ := Run.bind_ok h
  obtain ⟨ps, -, h⟩ := Run.bind_ok h
  obtain ⟨-, -, h⟩ := Run.bind_ok h
  cases h
  obtain ⟨n, bytes, hgrp⟩ := (s.walked (s.grp.eff p).space [⟨0, s.grp.rp f.a⟩]).sawBeyond_grp s.grp.coreNo
    (pollHow (s.grp.eff p).scope (s.grp.eff p).cp) (s.grp.eff p).cp (ps.flatMap (·.2))
  exact ⟨by simp, n, bytes, by rw [hgrp, State.walked_grp]⟩

/-- The end of a poll writes its value; of the group it changes beside that only whether an acquire has been made. -/
theorem State.pollDone_grp (s : State) (p : Option Pfx) (f : EX) (w : Word) :
    (s.pollDone p f w).grp = { s.grp.ws f.d w with acqLoad := (s.pollDone p f w).grp.acqLoad } := by
  obtain ⟨b, hb⟩ := s.acquireIf_grp (fitLoad (s.grp.eff p).ord) (s.grp.eff p).scope
  have hgrp : (s.pollDone p f w).grp = ({ s.grp with acqLoad := b } : Group).ws f.d w := congrArg (fun g => g.ws f.d w) hb
  rw [hgrp]
  unfold Group.ws
  split <;> rfl

theorem State.pollDone_mem (s : State) (p : Option Pfx) (f : EX) (w : Word) : (s.pollDone p f w).mem = s.mem :=
  s.acquireIf_mem _ _

/-- A poll ends where its condition holds, or its timeout has passed. -/
theorem State.poll_ends {s u : State} {p : Option Pfx} {f : EX} {since : Nat} {w : Word} (h : s.pollRead p f = .ok (w, u))
    (hend : waitCond f.sub w (s.grp.rs f.b) = true ∨ s.pollExpired f since = true) :
    s.poll p f since = .ok (.done (u.pollDone p f w)) := by
  have hcond : (waitCond f.sub w (s.grp.rs f.b) || s.pollExpired f since) = true := by simpa using hend
  simp only [State.poll, h, pollAgain, Run.ok_bind, Run.pure_eq, hcond, if_true]

theorem State.pollExpired_of_le {s : State} {f : EX} {since : Nat} (hset : s.grp.rs f.c ≠ 0xFFFFFFFF)
    (hlate : since + (s.grp.rs f.c).toNat ≤ s.time) : s.pollExpired f since = true := by
  have hlate : (s.grp.rs f.c).toNat ≤ s.time - since := by omega
  rw [State.pollExpired, decide_eq_true hset, decide_eq_true hlate]
  rfl

theorem execWaitv_ends {s u : State} {p : Option Pfx} {f : EX} {w : Word} (hword : (Instr.waitv p f).wf = true)
    (hd : s.grp.scalOk f.d = true) (ha : s.grp.pairOk f.a = true) (hb : s.grp.scalOk f.b = true) (hc : s.grp.scalOk f.c = true)
    (hlive : s.grp.liveIn f.d = false) (h : s.pollRead p f = .ok (w, u))
    (hcond : waitCond f.sub w (s.grp.rs f.b) = true) : execWaitv p f s = .next ((u.pollDone p f w).retire (pfxLen p)) := by
  simp only [execWaitv, hword, hd, ha, hb, hc, hlive, State.poll_ends h (.inl hcond), Bool.and_self, Bool.not_false,
    State.need_true, Run.ok_bind, finish_ok, settle_done]

section
variable {s t v : State} {uid : Nat} {p : Option Pfx} {f : EX} {since : Nat} {w : Word} (hev : s.ev = .group uid)
  (ht : s.focus uid = some t) (hwait : t.grp.status = .waiting (.word f p since)) (h : t.pollRead p f = .ok (w, v))
include hev ht hwait h

theorem execWaitvRecheck_ends (hcond : waitCond f.sub w (t.grp.rs f.b) = true) :
    execWaitvRecheck s = .next ((v.pollDone p f w).retire (pfxLen p)) := by
  rw [execWaitvRecheck, withGroup_of_focus _ _ hev ht]
  simp only [Group.waiting?, hwait, State.poll_ends h (.inl hcond), finish_ok, settle_done]

theorem execWaitvTimeout_ends (hlate : t.pollExpired f since = true) :
    execWaitvTimeout s = .next ((v.pollDone p f w).retire (pfxLen p)) := by
  rw [execWaitvTimeout, withGroup_of_focus _ _ hev ht]
  simp only [Group.waiting?, hwait, hlate, if_true, State.poll_ends h (.inr hlate), finish_ok, settle_done]

end

end Sys2Proof.Machine

open Sys2Proof Sys2Proof.Machine

/-- Settles O32: the scratch barrier instructions find their object and do with it what R181 names, a poll that gives a value changes
counts alone, and AddBytes divides what it has counted by the expected total. -/
theorem scratchBarriersAndWaitv : Obligations.ScratchBarriersAndWaitv := by
  unfold Obligations.ScratchBarriersAndWaitv
  refine ⟨⟨?issue, ?wait, ?release, ?waitv, ?polling⟩, ?addBytes⟩
  case issue =>
    intro s f ks ha hb halign hkeys hout hq
    refine ⟨fun hok hc => ?_, fun hok => ?_⟩
    · exact (exec_sbinit f s).trans (execSbinit_of_place ha hb halign hkeys hout hq hok hc)
    · exact (exec_sbarv f s).trans (execSbarv_of_place ha hb halign hkeys hout hq hok)
  case wait =>
    intro s f ks hok hd ha hb hlive halign hkeys hunheld hpassed
    exact ⟨_, (exec_sbwait f s).trans
      (execSbwait_of_passed ha hb halign hkeys hok hd hlive hunheld (decide_eq_true hpassed)),
      s.acquireAt_mem _ _, s.sbReturn_grp _ _⟩
  case release =>
    intro s t uid d key ph hev ht hwait hpassed
    exact ⟨_, (exec_sbwaitRelease s).trans (execSbwaitRelease_of_passed hev ht hwait (decide_eq_true hpassed)), t.sbReturn_grp _ _⟩
  case waitv =>
    intro s u p f w hword hd ha hb hc hlive h
    obtain ⟨hmem, n, bytes, hgrp⟩ := State.pollRead_keeps_state h
    refine ⟨by rw [hgrp]; rfl, fun hcond => ?_⟩
    exact ⟨_, (exec_waitv p f s).trans (execWaitv_ends hword hd ha hb hc hlive h hcond), (u.pollDone_mem p f w).trans hmem,
      u.pollDone_grp p f w⟩
  case polling =>
    intro s t v uid p f since w hev ht hwait h
    refine ⟨fun hcond => ?_, fun hset hlate => ?_⟩
    · exact ⟨_, (exec_waitvRecheck s).trans (execWaitvRecheck_ends hev ht hwait h hcond), v.pollDone_grp p f w⟩
    · exact ⟨_, (exec_waitvTimeout s).trans (execWaitvTimeout_ends hev ht hwait h (State.pollExpired_of_le hset hlate)),
        v.pollDone_grp p f w⟩
  case addBytes =>
    intro b k hvalid hexpect
    refine ⟨?_, ?_, ?_, ?_, ScratchBar.ofNat_toNat _⟩
    all_goals rw [ScratchBar.add_of_valid hvalid hexpect]
    · exact ScratchBar.toNat_rest hexpect _
    · exact hvalid
end

section
/-! SUPPORT. Releases and acquires leave the boards as they are (08_ordering.md R135, R136, R159). -/

namespace Sys2Proof.Machine

open Sys2Proof

@[simp] theorem State.countEvent_boards (s : State) (f sel n : Nat) : (s.countEvent f sel n).boards = s.boards := by
  obtain ⟨r, h⟩ := s.countEvent_only f sel n
  rw [h]

@[simp] theorem State.mscKeep_boards (s : State) (f l : Nat) : (s.mscKeep f l).boards = s.boards := by
  unfold State.mscKeep
  split
  · rfl
  · split <;> simp

@[simp] theorem State.countWrite_boards (s : State) (f c l : Nat) : (s.countWrite f c l).boards = s.boards := by
  unfold State.countWrite State.mscWrite
  split
  · simp
  · rw [State.mscKeep_boards]
    split <;> simp

@[simp] theorem State.fillL2_boards (s : State) (c l k p : Nat) : (s.fillL2 c l k p).boards = s.boards := by
  simp only [State.fillL2, State.allocL2]
  split
  · rfl
  · split <;> rfl

@[simp] theorem State.wroteL2_boards (s : State) (c : Nat) (w : Want) (l : Nat) : (s.wroteL2 c w l).boards = s.boards := by
  simp only [State.wroteL2]
  split
  · split <;> simp
  · simp

@[simp] theorem State.writeBackBytes_boards (s : State) (c : Nat) (l : L1Line) (os : List Nat) :
    (s.writeBackBytes c l os).boards = s.boards := by
  have hbyte : ∀ (t : State) (k : Nat) (x : Byte), (t.writeL2Byte c k x).boards = t.boards := fun t k x => t.setBacking_boards k x
  induction os generalizing s with
  | nil => rfl
  | cons o os ih =>
    rw [State.writeBackBytes, ih]
    split <;> simp [hbyte]

@[simp] theorem State.writeBackLine_boards (s : State) (c : Nat) (l : L1Line) : (s.writeBackLine c l).boards = s.boards := by
  unfold State.writeBackLine
  split
  · rfl
  · rw [State.writeBackBytes_boards]
    split <;> simp

@[simp] theorem State.writeBackAll_boards (s : State) (c : Nat) (ls : List L1Line) :
    (s.writeBackAll c ls).boards = s.boards := by
  induction ls generalizing s with
  | nil => rfl
  | cons l ls ih =>
    rw [State.writeBackAll, ih]
    split <;> simp

@[simp] theorem State.releaseAt_boards (s : State) (c n : Nat) : (s.releaseAt c n).boards = s.boards := by
  have hclean : (s.cleanCore c).boards = s.boards := s.writeBackAll_boards c s.l1
  have hstale : ((s.cleanCore c).invalidateStale (clusterOfCore c) n).boards = s.boards := by
    unfold State.invalidateStale
    split <;> exact hclean
  unfold State.releaseAt
  split
  · rfl
  · dsimp only
    split <;> exact hstale

@[simp] theorem State.acquireAt_boards (s : State) (c n : Nat) : (s.acquireAt c n).boards = s.boards := by
  unfold State.acquireAt
  split
  · rfl
  · dsimp only
    split <;> rfl

end Sys2Proof.Machine
end

section
/-! PROOFS. The notice board and its view registers (09_synchronisation.md R184, R186, R187). -/

namespace Sys2Proof.Machine

open Sys2Proof

/-! ### Boards and slots (R183) -/

@[simp] theorem State.boardAt_num (s : State) (n : Nat) : (s.boardAt n).num = n := by
  unfold State.boardAt
  cases hfind : s.boards.find? (fun b => b.num = n) with
  | none => rfl
  | some b => simpa using List.find?_some hfind

theorem State.boardAt_of_boards {s t : State} (h : t.boards = s.boards) (n : Nat) : t.boardAt n = s.boardAt n := by
  rw [State.boardAt, State.boardAt, h]

theorem State.boardAt_setBoard_self (s : State) (b : Board) : (s.setBoard b).boardAt b.num = b := by
  simp [State.boardAt, State.setBoard]

theorem State.boardAt_setBoard_of_ne {b : Board} {n : Nat} (h : n ≠ b.num) (s : State) : (s.setBoard b).boardAt n = s.boardAt n := by
  have hkept (x : Board) : (x.num ≠ b.num ∧ x.num = n) ↔ x.num = n := and_iff_right_of_imp (fun hx => hx ▸ h)
  rw [State.boardAt, State.setBoard, List.find?_cons_of_neg (by simpa using h.symm), List.find?_filter]
  simp only [decide_eq_true_eq, hkept, State.boardAt]

@[simp] theorem Board.slot_idx (b : Board) (j : Nat) : (b.slot j).idx = j := by
  unfold Board.slot
  cases hfind : b.slots.find? (fun x => x.idx = j) with
  | none => rfl
  | some x => simpa using List.find?_some hfind

theorem Board.slot_setSlot_self (b : Board) (x : Slot) : (b.setSlot x).slot x.idx = x := by
  simp [Board.slot, Board.setSlot]

theorem Board.slot_setSlot_of_ne {x : Slot} {i : Nat} (h : i ≠ x.idx) (b : Board) : (b.setSlot x).slot i = b.slot i := by
  have hkept (y : Slot) : (y.idx ≠ x.idx ∧ y.idx = i) ↔ y.idx = i := and_iff_right_of_imp (fun hy => hy ▸ h)
  rw [Board.slot, Board.setSlot, List.find?_cons_of_neg (by simpa using h.symm), List.find?_filter]
  simp only [decide_eq_true_eq, hkept, Board.slot]

/-- A slot with an owner, or with none. -/
def Slot.withOwner (x : Slot) (owner : Option Nat) : Slot := { x with owner := owner }

@[simp] theorem Slot.withOwner_idx (x : Slot) (o : Option Nat) : (x.withOwner o).idx = x.idx := rfl
@[simp] theorem Slot.withOwner_owner (x : Slot) (o : Option Nat) : (x.withOwner o).owner = o := rfl

/-- A board with the owner of a slot changed. -/
def Board.giveSlot (b : Board) (j : Nat) (owner : Option Nat) : Board := b.setSlot ((b.slot j).withOwner owner)

/-- A board with one slot changed, and perhaps its level, put back: that slot and that board alone are changed. -/
theorem State.setBoard_slot {s t : State} {num j : Nat} {b : Board} {x : Slot} (hboards : t.boards = (s.setBoard b).boards)
    (hnum : b.num = num) (hslots : b.slots = ((s.boardAt num).setSlot x).slots) (hidx : x.idx = j) :
    t.boardAt num = b ∧ (t.boardAt num).slot j = x ∧ s.boardKept t num j := by
  subst hnum hidx
  have hslot : ∀ i, b.slot i = ((s.boardAt b.num).setSlot x).slot i := fun i => by rw [Board.slot, Board.slot, hslots]
  have hself : t.boardAt b.num = b := (State.boardAt_of_boards hboards _).trans (s.boardAt_setBoard_self b)
  refine ⟨hself, ?_, fun i hi => ?_, fun n hn => ?_⟩
  · rw [hself, hslot, Board.slot_setSlot_self]
  · rw [hself, hslot, Board.slot_setSlot_of_ne hi]
  · exact (State.boardAt_of_boards hboards _).trans (State.boardAt_setBoard_of_ne hn s)

/-- A board of the store with the owner of a slot changed, put back. -/
theorem State.setBoard_giveSlot {s t : State} {num j : Nat} {owner : Option Nat}
    (hboards : t.boards = (s.setBoard ((s.boardAt num).giveSlot j owner)).boards) :
    (t.boardAt num).slot j = ((s.boardAt num).slot j).withOwner owner ∧ s.boardKept t num j ∧
      (t.boardAt num).level = (s.boardAt num).level := by
  obtain ⟨hboard, hslot, hkept⟩ := State.setBoard_slot hboards (s.boardAt_num num) rfl (Board.slot_idx _ _)
  exact ⟨hslot, hkept, by rw [hboard]; rfl⟩

/-- A board that has an owner in no slot but one is free once that one has none. -/
theorem Board.free_giveSlot_none (b : Board) (j : Nat) :
    (b.giveSlot j none).free = true ↔ ∀ x ∈ b.slots, x.idx ≠ j → x.owner = none := by
  simp only [Board.free, Board.giveSlot, Board.setSlot, List.all_cons, Slot.withOwner_owner, Slot.withOwner_idx, Board.slot_idx,
    Option.isNone_none, Bool.true_and, List.all_filter, List.all_eq_true, Bool.or_eq_true, Bool.not_eq_true',
    decide_eq_false_iff_not, Option.isNone_iff_eq_none, imp_iff_not_or]

/-! ### The view (R184) -/

/-- The bits of the numbers below `n` that a test picks. -/
theorem getLsbD_foldl_or (p : Nat → Prop) [DecidablePred p] (n : Nat) {i : Nat} (hi : i < 256) :
    ((List.range n).foldl (fun (v : BitVec 256) j => if p j then v ||| BitVec.ofNat 256 (2 ^ j) else v) 0).getLsbD i = true ↔
      i < n ∧ p i := by
  induction n with
  | zero => simp
  | succ n ih =>
    rw [List.range_succ, List.foldl_append, List.foldl_cons, List.foldl_nil]
    have hbit : (BitVec.ofNat 256 (2 ^ n)).getLsbD i = decide (n = i) := by
      rw [BitVec.getLsbD_ofNat, Nat.testBit_two_pow, decide_eq_true hi, Bool.true_and]
    have hlast : i < n + 1 ↔ i < n ∨ n = i := by omega
    by_cases hp : p n
    · rw [if_pos hp, BitVec.getLsbD_or, Bool.or_eq_true, ih, hbit, decide_eq_true_eq, hlast]
      constructor
      · rintro (⟨hlt, hpi⟩ | rfl)
        · exact ⟨.inl hlt, hpi⟩
        · exact ⟨.inr rfl, hp⟩
      · rintro ⟨hlt | rfl, hpi⟩
        · exact .inl ⟨hlt, hpi⟩
        · exact .inr rfl
    · rw [if_neg hp, ih, hlast]
      constructor
      · exact fun ⟨hlt, hpi⟩ => ⟨.inl hlt, hpi⟩
      · rintro ⟨hlt | rfl, hpi⟩
        · exact ⟨hlt, hpi⟩
        · exact absurd hpi hp

theorem Board.getLsbD_view (b : Board) (nslot : Nat) {i : Nat} (hi : i < 256) :
    (b.view nslot).getLsbD i = true ↔ i < nslot ∧ (b.slot i).level ≠ 0 :=
  getLsbD_foldl_or (fun j => (b.slot j).level ≠ 0) nslot hi

/-! ### The record of a board and its slot (R332) -/

/-- An object index that names no board record with the right takes OBJ. -/
theorem State.useBoard_error {s : State} {idx right : Nat} {c : Ctl} (h : s.useBoard idx right = .error c) :
    c = .trap { cause := .obj } s := by
  unfold State.useBoard at h
  repeat' split at h
  all_goals cases h
  all_goals rfl

section
variable {s : State} {f : EX} {right num nslot : Nat}

theorem State.slotOf_below (h : s.useBoard f.imm.toNat right = .ok (num, nslot)) (hj : (s.grp.rs f.a).toNat < nslot) :
    s.slotOf f right = .ok (s.boardAt num, nslot, (s.grp.rs f.a).toNat) := by
  simp only [State.slotOf, h, hj, decide_true, State.need_true, Run.ok_bind, Run.pure_eq]

theorem State.slotOf_beyond (h : s.useBoard f.imm.toNat right = .ok (num, nslot)) (hj : nslot ≤ (s.grp.rs f.a).toNat) :
    s.slotOf f right = .error (.trap { cause := .board } s) := by
  have hj : decide ((s.grp.rs f.a).toNat < nslot) = false := decide_eq_false (by omega)
  simp only [State.slotOf, h, Run.ok_bind, State.need_false hj, Run.error_bind]

theorem State.slotOf_error {c : Ctl} (h : s.useBoard f.imm.toNat right = .error c) :
    s.slotOf f right = .error (.trap { cause := .obj } s) := by
  rw [State.slotOf, h, State.useBoard_error h]
  rfl

end

end Sys2Proof.Machine
end

section
/-! PROOFS. The notice-board instructions (09_synchronisation.md R186, R187). -/

namespace Sys2Proof.Machine

open Sys2Proof

theorem exec_batt (f : EX) (s : State) : exec (.batt f) s = execBatt f s := rfl
theorem exec_bpost (f : EX) (s : State) : exec (.bpost f) s = execBpost f s := rfl
theorem exec_bpostReturn (s : State) : exec .bpostReturn s = execBpostReturn s := rfl
theorem exec_bread (f : EX) (s : State) : exec (.bread f) s = execBread f s := rfl
theorem exec_bdet (f : EX) (s : State) : exec (.bdet f) s = execBdet f s := rfl
theorem exec_bvseg (f : EX) (s : State) : exec (.bvseg f) s = execBvseg f s := rfl
theorem exec_bvcmp (f : EX) (s : State) : exec (.bvcmp f) s = execBvcmp f s := rfl

/-! ### BATT -/

section
variable {s : State} {f : EX} {b : Board} {nslot j : Nat} (hok : f.okBatt = true) (ha : s.grp.scalOk f.a = true)
  (hpost : s.grp.mayPost = true)
include hok ha hpost

theorem execBatt_of_trap {e : Trap} (hslot : s.slotOf f 4 = .error (.trap e s)) : execBatt f s = .next (s.takeTrap e) := by
  simp only [execBatt, hok, ha, hpost, hslot, Bool.and_self, State.need_true, Run.ok_bind, Run.error_bind, finish_error, settle_trap]

theorem execBatt_of_owner (hslot : s.slotOf f 4 = .ok (b, nslot, j))
    (howner : (b.slot j).owner = none ∨ (b.slot j).owner = some s.grp.id.uid) :
    execBatt f s = .next (((s.setBoard (b.giveSlot j (some s.grp.id.uid))).onGrp Group.progressed).retire 1) := by
  have hneed : (decide ((b.slot j).owner = none) || decide ((b.slot j).owner = some s.grp.id.uid)) = true := by simpa using howner
  simp only [execBatt, hok, ha, hpost, hslot, hneed, Bool.and_self, State.need_true, Run.ok_bind]
  rfl

theorem execBatt_of_foreign {u : Nat} (hslot : s.slotOf f 4 = .ok (b, nslot, j)) (howner : (b.slot j).owner = some u)
    (hu : u ≠ s.grp.id.uid) : execBatt f s = .next (s.takeTrap { cause := .board }) := by
  have hneed : (decide ((b.slot j).owner = none) || decide ((b.slot j).owner = some s.grp.id.uid)) = false := by
    simp [howner, hu]
  simp only [execBatt, hok, ha, hpost, hslot, State.need_false hneed, Bool.and_self, State.need_true, Run.ok_bind, Run.error_bind,
    finish_error, settle_trap]

end

/-! ### BPOST -/

section
variable {s : State} {f : EX} {b : Board} {nslot j : Nat} (hok : f.okBpost = true) (hd : s.grp.pairOk f.d = true)
  (ha : s.grp.scalOk f.a = true) (hb : s.grp.pairOk f.b = true) (hpost : s.grp.mayPost = true)
include hok hd ha hb hpost

theorem execBpost_of_trap {e : Trap} (hslot : s.slotOf f 4 = .error (.trap e s)) : execBpost f s = .next (s.takeTrap e) := by
  simp only [execBpost, hok, hd, ha, hb, hpost, hslot, Bool.and_self, State.need_true, Run.ok_bind, Run.error_bind, finish_error,
    settle_trap]

theorem execBpost_of_foreign (hslot : s.slotOf f 4 = .ok (b, nslot, j)) (howner : (b.slot j).owner ≠ some s.grp.id.uid) :
    execBpost f s = .next (s.takeTrap { cause := .board }) := by
  have hneed := decide_eq_false howner
  simp only [execBpost, hok, hd, ha, hb, hpost, hslot, State.need_false hneed, Bool.and_self, State.need_true, Run.ok_bind,
    Run.error_bind, finish_error, settle_trap]

theorem execBpost_of_full (hslot : s.slotOf f 4 = .ok (b, nslot, j)) (howner : (b.slot j).owner = some s.grp.id.uid)
    (hlevel : b.level = 0xFFFFFFFF) : execBpost f s = .next (s.takeTrap { cause := .board }) := by
  have hneed : decide (b.level ≠ 0xFFFFFFFF) = false := by simp [hlevel]
  simp only [execBpost, hok, hd, ha, hb, hpost, hslot, howner, State.need_false hneed, decide_true, Bool.and_self, State.need_true,
    Run.ok_bind, Run.error_bind, finish_error, settle_trap]

/-- The machine as a post leaves it while its group waits for the return. -/
def State.posted (s : State) (b : Board) : State := ((s.releaseAt s.grp.coreNo 5).setBoard b).onGrp Group.progressed

theorem execBpost_of_owner (hslot : s.slotOf f 4 = .ok (b, nslot, j)) (howner : (b.slot j).owner = some s.grp.id.uid)
    (hlevel : b.level < 0xFFFFFFFF) (hq : s.grp.relq = []) :
    execBpost f s = .next ((s.posted (b.post j (s.grp.rp f.b))).waitFor (.bpost f ((b.post j (s.grp.rp f.b)).view nslot)
      (BitVec.ofNat 32 (b.post j (s.grp.rp f.b)).level)
      (BitVec.ofNat 32 ((b.post j (s.grp.rp f.b)).slot j).level))) := by
  have hneed : decide (b.level ≠ 0xFFFFFFFF) = true := decide_eq_true (by omega)
  simp only [execBpost, hok, hd, ha, hb, hpost, hslot, howner, hneed, State.releaseRun_of_none (scope := 5) hq (.inl (by decide)),
    decide_true, Bool.and_self, State.need_true, Run.ok_bind]
  rfl

end

theorem State.posted_boards (s : State) (b : Board) : (s.posted b).boards = (s.setBoard b).boards := by
  simp only [State.posted, State.onGrp_boards, State.setBoard, State.releaseAt_boards]

theorem State.posted_grp (s : State) (b : Board) : (s.posted b).grp = { s.grp with progress := 0 } :=
  congrArg Group.progressed (s.releaseAt_grp _ _)

/-- The slot of a post: its value, and a level that stops at 65,535. -/
def Slot.post (x : Slot) (value : DWord) : Slot := { x with value := value, level := min (x.level + 1) 0xFFFF }

theorem Board.post_slots (b : Board) (j : Nat) (value : DWord) :
    (b.post j value).slots = (b.setSlot ((b.slot j).post value)).slots := rfl

/-- BPOST_RETURN writes the view and the levels of its post. -/
theorem execBpostReturn_of_waiting {s t : State} {uid : Nat} {f : EX} {v : BitVec 256} {n l : Word} (hev : s.ev = .group uid)
    (ht : s.focus uid = some t) (hwait : t.grp.status = .waiting (.bpost f v n l)) :
    execBpostReturn s = .next ((t.bpostDone f v n l).retire 1) := by
  rw [execBpostReturn, withGroup_of_focus _ _ hev ht]
  simp only [Group.waiting?, hwait, settle_done]

theorem State.bpostDone_grp (s : State) (f : EX) (v : BitVec 256) (n l : Word) :
    (s.bpostDone f v n l).grp = { s.grp.wp f.d (l ++ n) with view := s.grp.view.setIfInBounds f.w.toNat v } :=
  congrArg (fun g : Group => { g.wp f.d (l ++ n) with view := g.view.setIfInBounds f.w.toNat v }) (s.acquireAt_grp _ _)

/-! ### BDET -/

section
variable {s : State} {f : EX} {b : Board} {nslot j : Nat} (hok : f.okBdet = true) (hd : s.grp.scalOk f.d = true)
  (ha : s.grp.scalOk f.a = true) (hpost : s.grp.mayPost = true)
include hok hd ha hpost

theorem execBdet_of_trap {e : Trap} (hslot : s.slotOf f 4 = .error (.trap e s)) : execBdet f s = .next (s.takeTrap e) := by
  simp only [execBdet, hok, hd, ha, hpost, hslot, Bool.and_self, State.need_true, Run.ok_bind, Run.error_bind, finish_error,
    settle_trap]

theorem execBdet_of_foreign (hslot : s.slotOf f 4 = .ok (b, nslot, j)) (howner : (b.slot j).owner ≠ some s.grp.id.uid) :
    execBdet f s = .next (s.takeTrap { cause := .board }) := by
  have hneed := decide_eq_false howner
  simp only [execBdet, hok, hd, ha, hpost, hslot, State.need_false hneed, Bool.and_self, State.need_true, Run.ok_bind,
    Run.error_bind, finish_error, settle_trap]

/-- The owner gives its slot up, and the board is not to be cleared or another slot has an owner. -/
theorem execBdet_keeps (hslot : s.slotOf f 4 = .ok (b, nslot, j)) (howner : (b.slot j).owner = some s.grp.id.uid)
    (hkeep : (decide (f.sub = 1) && (b.giveSlot j none).free) = false) :
    execBdet f s = .next (((s.setBoard (b.giveSlot j none)).onGrp (fun g => g.progressed.ws f.d 0)).retire 1) := by
  rw [Board.giveSlot, Slot.withOwner] at hkeep
  simp only [execBdet, hok, hd, ha, hpost, hslot, howner, decide_true, Bool.and_self, State.need_true, Run.ok_bind, Run.pure_eq,
    finish_ok, settle_done, hkeep]
  rfl

/-- The owner gives the board's last owned slot up, and the board is cleared. -/
theorem execBdet_clears (hslot : s.slotOf f 4 = .ok (b, nslot, j)) (howner : (b.slot j).owner = some s.grp.id.uid)
    (hsub : f.sub = 1) (hfree : (b.giveSlot j none).free = true) :
    execBdet f s = .next (((s.setBoard (b.giveSlot j none).cleared).onGrp (fun g => g.progressed.ws f.d 1)).retire 1) := by
  rw [Board.giveSlot, Slot.withOwner] at hfree
  simp only [execBdet, hok, hd, ha, hpost, hslot, howner, decide_true, Bool.and_self, State.need_true, Run.ok_bind, Run.pure_eq,
    finish_ok, settle_done, hsub, hfree]
  rfl

end

/-! ### BREAD -/

section
variable {s : State} {f : EX} {b : Board} {nslot j : Nat} (hok : f.okBread = true) (ha : s.grp.scalOk f.a = true)
  (hd : s.grp.pairOk f.d = true) (hd2 : s.grp.pairOk (f.d + 2) = true) (hlive : s.grp.liveInPair f.d = false)
  (hlive2 : s.grp.liveInPair (f.d + 2) = false)
include hok ha hd hd2 hlive hlive2

theorem execBread_of_trap {e : Trap} (hslot : s.slotOf f 0 = .error (.trap e s)) : execBread f s = .next (s.takeTrap e) := by
  simp only [execBread, hok, ha, hd, hd2, hlive, hlive2, hslot, Bool.and_self, Bool.or_self, Bool.not_false, State.need_true,
    Run.ok_bind, Run.error_bind, finish_error, settle_trap]

theorem execBread_of_slot (hslot : s.slotOf f 0 = .ok (b, nslot, j)) :
    execBread f s = .next (((s.acquireAt s.grp.coreNo 5).onGrp (fun g => (g.wp f.d (b.slot j).value).wp (f.d + 2)
      (pairOf (BitVec.ofNat 32 (b.slot j).level) (BitVec.ofNat 32 b.level)))).retire 1) := by
  simp only [execBread, hok, ha, hd, hd2, hlive, hlive2, hslot, Bool.and_self, Bool.or_self, Bool.not_false, State.need_true,
    Run.ok_bind, Run.pure_eq, finish_ok, settle_done]

end

/-! ### BVSEG and BVCMP -/

/-- A segment of a view, 0 above its last bit. -/
theorem getLsbD_segment (v : BitVec 256) (k : Nat) {l : Nat} (hl : l < 96) :
    ((v >>> k).setWidth 96).getLsbD l = (decide (k + l < 256) && v.getLsbD (k + l)) := by
  rw [BitVec.getLsbD_setWidth, BitVec.getLsbD_ushiftRight, decide_eq_true hl, Bool.true_and]
  by_cases h : k + l < 256
  · simp [h]
  · simp [h, BitVec.getLsbD_of_ge v (k + l) (by omega)]

/-- A condition as a word says 1 where it holds, and 0 where it does not. -/
theorem boolWord_decide (p : Prop) [Decidable p] :
    (boolWord (decide p) = 0 ∨ boolWord (decide p) = 1) ∧ (boolWord (decide p) = 1 ↔ p) := by
  by_cases h : p
  · rw [decide_eq_true h]
    exact ⟨.inr rfl, iff_of_true rfl h⟩
  · rw [decide_eq_false h]
    exact ⟨.inl rfl, iff_of_false (by decide) h⟩

theorem length_viewBits (v : BitVec 256) : (viewBits v).length = (List.range 256).countP (fun i => v.getLsbD i) := by
  rw [viewBits, List.countP_eq_length_filter]

/-- The bits of one view that another does not have. -/
theorem getLsbD_new (w j : BitVec 256) {i : Nat} (hi : i < 256) :
    (w &&& ~~~j).getLsbD i = (w.getLsbD i && !j.getLsbD i) := by
  simp [hi]

theorem viewBits_eq_nil {v : BitVec 256} (h : ∀ i < 256, v.getLsbD i = false) : viewBits v = [] :=
  List.filter_eq_nil_iff.2 fun i hi => by simp [h i (List.mem_range.1 hi)]

/-- The first bit of a view is the first of its list. -/
theorem viewBits_eq_cons {v : BitVec 256} {i : Nat} (hi : i < 256) (hbit : v.getLsbD i = true)
    (hbelow : ∀ k < i, v.getLsbD k = false) : ∃ rest, viewBits v = i :: rest := by
  have hhead : (viewBits v).head? = some i := by
    rw [viewBits, List.head?_filter, List.find?_range_eq_some]
    exact ⟨hbit, List.mem_range.2 hi, fun k hk => by simp [hbelow k hk]⟩
  cases hlist : viewBits v with
  | nil => rw [hlist] at hhead; cases hhead
  | cons k rest =>
    rw [hlist] at hhead
    cases hhead
    exact ⟨rest, rfl⟩

/-- One view holds another where the other has no bit beyond it. -/
theorem includes_iff (w j : BitVec 256) : j &&& ~~~w = 0 ↔ ∀ i < 256, j.getLsbD i = true → w.getLsbD i = true := by
  constructor
  · intro h i hi hj
    have hnone : (j &&& ~~~w).getLsbD i = false := by rw [h]; simp
    rw [getLsbD_new j w hi, hj] at hnone
    simpa using hnone
  · intro h
    refine BitVec.eq_of_getLsbD_eq fun i hi => ?_
    rw [getLsbD_new j w hi]
    cases hj : j.getLsbD i with
    | false => simp
    | true => simp [h i hi hj]

end Sys2Proof.Machine

open Sys2Proof Sys2Proof.Machine

/-- Settles O33: each board instruction finds its record and its slot or takes the trap of the one that is missing; where the slot is
the caller's, the board that it puts back differs in that slot and its level alone. -/
theorem boardInstructions : Obligations.BoardInstructions := by
  unfold Obligations.BoardInstructions
  refine ⟨?slots, ?noRecord, ?returns, ?read, ?segment, ?compare⟩
  case slots =>
    intro s f num nslot j huse ha hpost hj
    subst hj
    have hbeyond := State.slotOf_beyond huse
    refine ⟨fun hok => ⟨fun hj howner => ?attach, ?attachBad⟩,
      fun hok hd hb => ⟨fun hj howner hlevel hq => ?post, ?postBad⟩,
      fun hok hd => ⟨fun hj howner => ⟨fun hsub hfree => ?clear, fun hkeep => ?detach⟩, ?detachBad⟩⟩
    case attach =>
      obtain ⟨hslot, hkept, hlevel⟩ := State.setBoard_giveSlot (s := s) (j := (s.grp.rs f.a).toNat) (State.onGrp_boards _ _)
      exact ⟨_, (exec_batt f s).trans (execBatt_of_owner hok ha hpost (State.slotOf_below huse hj) howner), rfl, rfl, hslot, hkept,
        hlevel⟩
    case attachBad =>
      rw [exec_batt]
      rintro (hj | ⟨u, howner, hu⟩)
      · exact execBatt_of_trap hok ha hpost (hbeyond hj)
      · rcases Nat.lt_or_ge (s.grp.rs f.a).toNat nslot with hj | hj
        · exact execBatt_of_foreign hok ha hpost (State.slotOf_below huse hj) howner hu
        · exact execBatt_of_trap hok ha hpost (hbeyond hj)
    case post =>
      obtain ⟨hboard, hslot, hkept⟩ := State.setBoard_slot (s := s) (num := num)
        (s.posted_boards ((s.boardAt num).post (s.grp.rs f.a).toNat (s.grp.rp f.b))) (s.boardAt_num num) (Board.post_slots _ _ _)
        (Board.slot_idx _ _)
      have hnumber : (BitVec.ofNat 32 ((s.boardAt num).level + 1)).toNat = (s.boardAt num).level + 1 := by
        rw [BitVec.toNat_ofNat]; omega
      have hslotLevel : (BitVec.ofNat 32 (min (((s.boardAt num).slot (s.grp.rs f.a).toNat).level + 1) 0xFFFF)).toNat =
          min (((s.boardAt num).slot (s.grp.rs f.a).toNat).level + 1) 0xFFFF := by
        rw [BitVec.toNat_ofNat]; omega
      have hpostSlot := hboard ▸ hslot
      refine ⟨_, _, _, _, (exec_bpost f s).trans
        (execBpost_of_owner hok hd ha hb hpost (State.slotOf_below huse hj) howner hlevel hq), s.posted_grp _, hnumber, ?_, ?_, ?_,
        ?_, ?_, hkept, fun i hi => ?_⟩
      · rw [hpostSlot]; exact hslotLevel
      · rw [hslot]; rfl
      · rw [hslot, hpostSlot]; exact hslotLevel.symm
      · rw [hslot]; exact howner
      · rw [hboard]; exact hnumber.symm
      · rw [hboard]; exact Board.getLsbD_view _ _ hi
    case postBad =>
      rw [exec_bpost]
      intro hbad
      rcases Nat.lt_or_ge (s.grp.rs f.a).toNat nslot with hj | hj
      · by_cases howner : ((s.boardAt num).slot (s.grp.rs f.a).toNat).owner = some s.grp.id.uid
        · have hlevel : (s.boardAt num).level = 0xFFFFFFFF := by
            rcases hbad with hj' | hforeign | hlevel
            · omega
            · exact absurd howner hforeign
            · exact hlevel
          exact execBpost_of_full hok hd ha hb hpost (State.slotOf_below huse hj) howner hlevel
        · exact execBpost_of_foreign hok hd ha hb hpost (State.slotOf_below huse hj) howner
      · exact execBpost_of_trap hok hd ha hb hpost (hbeyond hj)
    case clear =>
      refine ⟨_, (exec_bdet f s).trans (execBdet_clears hok hd ha hpost (State.slotOf_below huse hj) howner hsub
        ((Board.free_giveSlot_none _ _).2 hfree)), rfl, ?_, rfl⟩
      have hself := s.boardAt_setBoard_self ((s.boardAt num).giveSlot (s.grp.rs f.a).toNat none).cleared
      rwa [show (((s.boardAt num).giveSlot (s.grp.rs f.a).toNat none).cleared).num = num from s.boardAt_num num] at hself
    case detach =>
      have hkeep : (decide (f.sub = 1) && ((s.boardAt num).giveSlot (s.grp.rs f.a).toNat none).free) = false := by
        rcases hkeep with hsub | ⟨x, hx, hidx, howned⟩
        · rw [hsub]
          rfl
        · have hnot := mt (Board.free_giveSlot_none (s.boardAt num) (s.grp.rs f.a).toNat).1 (fun hall => howned (hall x hx hidx))
          rw [Bool.eq_false_of_not_eq_true hnot, Bool.and_false]
      obtain ⟨hslot, hkept, hlevel⟩ := State.setBoard_giveSlot (s := s) (j := (s.grp.rs f.a).toNat) (State.onGrp_boards _ _)
      exact ⟨_, (exec_bdet f s).trans (execBdet_keeps hok hd ha hpost (State.slotOf_below huse hj) howner hkeep), rfl, hslot, hkept,
        hlevel, rfl⟩
    case detachBad =>
      rw [exec_bdet]
      intro hbad
      rcases Nat.lt_or_ge (s.grp.rs f.a).toNat nslot with hj | hj
      · exact execBdet_of_foreign hok hd ha hpost (State.slotOf_below huse hj) (hbad.resolve_left (by omega))
      · exact execBdet_of_trap hok hd ha hpost (hbeyond hj)
  case noRecord =>
    intro s f c huse ha hpost
    have hslot := State.slotOf_error huse
    exact ⟨fun hok => (exec_batt f s).trans (execBatt_of_trap hok ha hpost hslot),
      fun hok hd hb => (exec_bpost f s).trans (execBpost_of_trap hok hd ha hb hpost hslot),
      fun hok hd => (exec_bdet f s).trans (execBdet_of_trap hok hd ha hpost hslot)⟩
  case returns =>
    intro s t uid f v n l hev ht hwait
    exact ⟨_, (exec_bpostReturn s).trans (execBpostReturn_of_waiting hev ht hwait), t.acquireAt_mem _ _, t.bpostDone_grp f v n l⟩
  case read =>
    intro s f hok ha hd hd2 hlive hlive2
    rw [exec_bread]
    refine ⟨fun num nslot huse => ⟨fun hj => ?_, fun hj => ?_⟩, fun c huse => ?_⟩
    · exact ⟨_, execBread_of_slot hok ha hd hd2 hlive hlive2 (State.slotOf_below huse hj), s.acquireAt_mem _ _,
        s.acquireAt_boards _ _,
        congrArg (fun g : Group => (g.wp f.d _).wp (f.d + 2) _) (s.acquireAt_grp s.grp.coreNo 5)⟩
    · exact execBread_of_trap hok ha hd hd2 hlive hlive2 (State.slotOf_beyond huse hj)
    · exact execBread_of_trap hok ha hd hd2 hlive hlive2 (State.slotOf_error huse)
  case segment =>
    intro s f hok hd hlive
    exact ⟨_, (exec_bvseg f s).trans (finish_toTriple hok hd hlive), fun l hl => getLsbD_segment _ _ hl⟩
  case compare =>
    intro s f w j hok hd hlive hw hj
    subst hw hj
    refine ⟨_, (exec_bvcmp f s).trans (finish_toScalar hok hd hlive), fun hsub => ?incl, fun hsub => ?count, fun hsub => ?new,
      fun hsub hnone => ?firstNone, fun hsub i hi hbit hbelow => ?first⟩
    case incl =>
      rw [hsub, ← includes_iff]
      exact boolWord_decide _
    case count =>
      rw [hsub]
      exact congrArg (BitVec.ofNat 32) (length_viewBits _)
    case new =>
      rw [hsub]
      refine congrArg (BitVec.ofNat 32) ((length_viewBits _).trans (List.countP_congr fun i hi => ?_))
      rw [getLsbD_new _ _ (List.mem_range.1 hi)]
    case firstNone =>
      rw [hsub]
      have hnil := viewBits_eq_nil (v := s.grp.viewAt f.w.toNat &&& ~~~(s.grp.viewAt (f.imm.toNat % 8)))
        (fun i hi => (getLsbD_new _ _ hi).trans (hnone i hi))
      simp only [hnil]
      rfl
    case first =>
      rw [hsub]
      obtain ⟨rest, hcons⟩ := viewBits_eq_cons (v := s.grp.viewAt f.w.toNat &&& ~~~(s.grp.viewAt (f.imm.toNat % 8))) hi
        ((getLsbD_new _ _ hi).trans hbit) (fun k hk => (getLsbD_new _ _ (by omega)).trans (hbelow k hk))
      simp only [hcons]
      rfl
end

section
/-! PROOFS. The group-wide instructions: votes, shuffles, matches, reductions and scans (10_group_operations.md R189 to R195). -/

namespace Sys2Proof.Machine

open Sys2Proof

theorem exec_vvote (f : VR) (s : State) : exec (.vvote f) s = execVvote f s := rfl
theorem exec_vshfl (f : VR) (s : State) : exec (.vshfl f) s = execVshfl f s := rfl
theorem exec_vmatch (f : VR) (s : State) : exec (.vmatch f) s = execVmatch f s := rfl
theorem exec_vred (f : VR) (s : State) : exec (.vred f) s = execVred f s := rfl
theorem exec_vscan (f : VR) (s : State) : exec (.vscan f) s = execVscan f s := rfl

/-! ### Votes (R190) -/

theorem mem_lanesOf {m : LaneSet} {l : Nat} : l ∈ lanesOf m ↔ m.getLsbD l = true := by
  rw [lanesOf, List.mem_filter, List.mem_range, and_iff_right_iff_imp]
  exact BitVec.lt_of_getLsbD

theorem mem_votesOf {m : LaneSet} {v : LaneVals} {l : Nat} : l ∈ votesOf m v ↔ m.getLsbD l = true ∧ v.word l ≠ 0 := by
  rw [votesOf, List.mem_filter, mem_lanesOf, decide_eq_true_iff]

/-- Some member votes. -/
theorem votesOf_not_isEmpty (m : LaneSet) (v : LaneVals) :
    (!(votesOf m v).isEmpty) = (List.range 96).any (fun l => m.getLsbD l && decide (v.word l ≠ 0)) := by
  rw [Bool.eq_iff_iff, Bool.not_eq_true', List.isEmpty_eq_false_iff_exists_mem, List.any_eq_true]
  refine exists_congr fun l => ?_
  rw [mem_votesOf, List.mem_range, Bool.and_eq_true, decide_eq_true_iff]
  exact ⟨fun h => ⟨BitVec.lt_of_getLsbD h.1, h⟩, And.right⟩

/-- The members that vote, counted. -/
theorem length_votesOf (m : LaneSet) (v : LaneVals) :
    (votesOf m v).length = (List.range 96).countP (fun l => m.getLsbD l && decide (v.word l ≠ 0)) := by
  rw [votesOf, lanesOf, List.filter_filter, List.countP_eq_length_filter]
  simp only [Bool.and_comm]

/-- As many members vote as there are, where each of them votes. -/
theorem length_votesOf_eq_popCount (m : LaneSet) (v : LaneVals) :
    decide ((votesOf m v).length = popCount m) =
      (List.range 96).all (fun l => !m.getLsbD l || decide (v.word l ≠ 0)) := by
  rw [Bool.eq_iff_iff, decide_eq_true_iff, votesOf, popCount, List.length_filter_eq_length_iff, List.all_eq_true]
  refine ⟨fun h l _ => ?_, fun h l hl => ?_⟩
  · cases hm : m.getLsbD l with
    | false => rfl
    | true => exact h l (mem_lanesOf.2 hm)
  · have hvote := h l (List.mem_range.2 (BitVec.lt_of_getLsbD (mem_lanesOf.1 hl)))
    rwa [mem_lanesOf.1 hl] at hvote

/-- A set of lanes made from a list holds the lanes of the list. -/
theorem getLsbD_laneSetOf {ls : List Nat} {l : Nat} (hl : l < 96) : (laneSetOf ls).getLsbD l = true ↔ l ∈ ls := by
  have hfold (m : LaneSet) : (ls.foldl (fun m l => m ||| BitVec.ofNat 96 (2 ^ l)) m).getLsbD l = true ↔
      m.getLsbD l = true ∨ l ∈ ls := by
    induction ls generalizing m with
    | nil => simp
    | cons k ls ih =>
      rw [List.foldl_cons, ih, BitVec.getLsbD_or, BitVec.getLsbD_ofNat, Nat.testBit_two_pow, decide_eq_true hl, Bool.true_and,
        Bool.or_eq_true, decide_eq_true_iff, @eq_comm _ k l, or_assoc, List.mem_cons]
  rw [laneSetOf, hfold]
  simp

/-- The scalar that a vote writes: any, all or the count (R190). -/
def voteWord (x : Nat) (m : LaneSet) (v : LaneVals) : Word :=
  match x with
  | 0 => boolWord ((List.range 96).any (fun l => m.getLsbD l && decide (v.word l ≠ 0)))
  | 1 => boolWord ((List.range 96).all (fun l => !m.getLsbD l || decide (v.word l ≠ 0)))
  | _ => BitVec.ofNat 32 ((List.range 96).countP (fun l => m.getLsbD l && decide (v.word l ≠ 0)))

theorem VR.x_lt_of_okVote {f : VR} (hok : f.okVote = true) : f.x.toNat < 4 := by
  simp only [VR.okVote, Bool.and_eq_true, decide_eq_true_iff] at hok
  omega

section
variable {f : VR} {s : State} {vs : List (Nat × LaneVals)} (hok : f.okVote = true) (hm : s.grp.tripOk f.m = true)
  (hus : (usesOf 1 f false).all s.grp.useOk = true) (hvs : s.readStreams (streamsOf (usesOf 1 f false)) = .ok vs)
include hok hm hus hvs

theorem execVvote_scalar (hx : f.x ≠ 3) (hd : s.grp.scalOk (f.d.setWidth 6) = true)
    (hlive : s.grp.liveIn (f.d.setWidth 6) = false) :
    execVvote f s = .next (s.afterVR (usesOf 1 f false) (fun g =>
      g.ws (f.d.setWidth 6) (voteWord f.x.toNat (g.mask f.m) (s.opnds f.t (usesOf 1 f false) vs).a))) := by
  refine (finish_runVR (by rw [hok, hm, decide_eq_false hx, if_neg Bool.false_ne_true, hd]; rfl) hus
    (by rw [decide_eq_false hx, if_neg Bool.false_ne_true, hlive]) hvs).trans (congrArg _ (State.afterVR_congr ?_))
  have hlt := VR.x_lt_of_okVote hok
  have hne : f.x.toNat ≠ 3 := fun h => hx (BitVec.eq_of_toNat_eq h)
  dsimp only
  rw [votesOf_not_isEmpty, length_votesOf_eq_popCount, length_votesOf]
  generalize f.x.toNat = x at hlt hne
  match x, hlt, hne with
  | 0, _, _ => rfl
  | 1, _, _ => rfl
  | 2, _, _ => rfl
  | 3, _, hne => exact absurd rfl hne

theorem execVvote_ballot (hx : f.x = 3) (hd : s.grp.tripOk (f.d.setWidth 6) = true)
    (hlive : s.grp.liveInTriple (f.d.setWidth 6) = false) :
    execVvote f s = .next (s.afterVR (usesOf 1 f false) (fun g => g.setRaw (f.d.setWidth 6)
      (laneSetOf (votesOf (s.grp.mask f.m) (s.opnds f.t (usesOf 1 f false) vs).a)))) := by
  refine (finish_runVR (by simp [hok, hm, hx, hd]) hus (by simp [hx, hlive]) hvs).trans (congrArg _ (State.afterVR_congr ?_))
  rw [State.streamed_mask, hx]
  rfl

end

/-! ### Shuffles (R191) -/

/-- The lane that member `l` takes where the shuffle names lane `i`: its own, unless `i` is a member. -/
def memberOr (m : LaneSet) (i : Int) (l : Nat) : Nat := if 0 ≤ i ∧ i ≤ 95 ∧ m.getLsbD i.toNat = true then i.toNat else l

theorem memberOr_cases (m : LaneSet) (i : Int) (l : Nat) : memberOr m i l = l ∨ m.getLsbD (memberOr m i l) = true := by
  unfold memberOr
  split
  · next h => exact .inr h.2.2
  · exact .inl rfl

theorem memberOr_lt (m : LaneSet) (i : Int) {l : Nat} (hl : l < 96) : memberOr m i l < 96 := by
  rcases memberOr_cases m i l with h | h
  · rwa [h]
  · exact BitVec.lt_of_getLsbD h

/-- A lane number that is no lane is no member. -/
theorem memberOr_natCast (m : LaneSet) (i l : Nat) : memberOr m i l = if m.getLsbD i then i else l := by
  rw [memberOr, Int.toNat_natCast]
  refine if_congr ⟨fun h => h.2.2, fun h => ?_⟩ rfl rfl
  have hlt := BitVec.lt_of_getLsbD h
  exact ⟨by omega, by omega, h⟩

/-- Operand B of a shuffle in lane `l`. -/
def shuffleBy (f : VR) (o : Opnds) (l : Nat) : Nat := if f.kindB = 3 then (f.b.signExtend 32).toNat else (o.b.word l).toNat

/-- The four modes of R191. -/
theorem shuffleFrom_eq (x : BitVec 5) (l b : Nat) :
    shuffleFrom x l b = if x = 0 then (b : Int) else if x = 1 then ((l ^^^ b : Nat) : Int) else if x = 2 then (l : Int) - b
      else (l : Int) + b := by
  have hx (k : BitVec 5) : x.toNat = k.toNat ↔ x = k := BitVec.toNat_inj
  unfold shuffleFrom
  split
  · next h => rw [if_pos ((hx 0).1 h)]
  · next h => rw [(hx 1).1 h]; rfl
  · next h => rw [(hx 2).1 h]; rfl
  · next h0 h1 h2 => rw [if_neg (mt (hx 0).2 h0), if_neg (mt (hx 1).2 h1), if_neg (mt (hx 2).2 h2)]

/-- The lane that lane `l` of a shuffle takes its value from. -/
def shuffleLane (f : VR) (m : LaneSet) (o : Opnds) (l : Nat) : Nat := memberOr m (shuffleFrom f.x l (shuffleBy f o l)) l

theorem execVshfl_writes {f : VR} {s : State} {vs : List (Nat × LaneVals)} (hok : f.okShfl = true)
    (hs : s.vrReady f [useA f f.wide, useB f false] f.wide vs) :
    execVshfl f s = .next (s.afterLanes f [useA f f.wide, useB f false] f.wide
      (fun l => ⟨(s.opnds f.t [useA f f.wide, useB f false] vs).a[shuffleLane f (s.grp.mask f.m)
        (s.opnds f.t [useA f f.wide, useB f false] vs) l]?.getD 0, 0⟩)) := by
  refine (vecMove_writes hok hs).trans (congrArg _ (State.afterVR_congr (Group.writeLanes_congr fun l _ _ => ?_)))
  rw [shuffleLane, memberOr, State.streamed_mask]
  simp only [shuffleBy, Bool.and_eq_true, decide_eq_true_iff, and_assoc]
  exact congrArg (LaneRes.mk · 0)
    (apply_ite (fun j : Nat => (s.opnds f.t [useA f f.wide, useB f false] vs).a[j]?.getD 0) _ _ _).symm

/-! ### Matches (R192) -/

@[simp] theorem keyEq_self (fp : Bool) (fpcr a : Word) : keyEq fp fpcr a a = true := by
  cases fp <;> simp [keyEq]

theorem keyEq_float {fpcr a b : Word} {x y : Nat} (hx : x = flushIn fpcr .f32 a.toNat) (hy : y = flushIn fpcr .f32 b.toNat) :
    keyEq true fpcr a b = true ↔ ((fval .f32 x).isNan = true ∧ (fval .f32 y).isNan = true) ∨
      ((fval .f32 x).isZero = true ∧ (fval .f32 y).isZero = true) ∨ x = y := by
  subst hx hy
  simp only [keyEq, if_true, Bool.or_eq_true, Bool.and_eq_true, decide_eq_true_iff, or_assoc]

theorem loHalf_pairOf (lo hi : Word) : loHalf (pairOf lo hi) = lo := BitVec.extractLsb'_append_eq_right

theorem hiHalf_pairOf (lo hi : Word) : hiHalf (pairOf lo hi) = hi := BitVec.extractLsb'_append_eq_left

/-- The first of the lanes that a test picks, where it picks one. -/
theorem headD_filter_range {p : Nat → Bool} {l n : Nat} (hl : l < n) (hp : p l = true) :
    p (((List.range n).filter p).headD 0) = true ∧ ((List.range n).filter p).headD 0 < n ∧
      ∀ j, j < ((List.range n).filter p).headD 0 → p j = false := by
  obtain ⟨k, ks, hks⟩ := List.exists_cons_of_ne_nil (List.ne_nil_of_mem (List.mem_filter.2 ⟨List.mem_range.2 hl, hp⟩))
  have hfind : (List.range n).find? p = some k := by rw [← List.head?_filter, hks]; rfl
  obtain ⟨hk, hlt, hbelow⟩ := List.find?_range_eq_some.1 hfind
  rw [hks]
  exact ⟨hk, List.mem_range.1 hlt, fun j hj => by simpa using hbelow j hj⟩

/-- A lane of VMATCH: the first member whose key is the lane's, and the number of those members (R192). -/
def matchLane (m : LaneSet) (same : Nat → Nat → Bool) (l : Nat) : LaneRes :=
  ⟨pairOf (BitVec.ofNat 32 (((lanesOf m).filter (fun j => same j l)).headD 0))
    (BitVec.ofNat 32 ((lanesOf m).filter (fun j => same j l)).length), 0⟩

theorem filter_lanesOf (m : LaneSet) (p : Nat → Bool) :
    (lanesOf m).filter p = (List.range 96).filter (fun j => m.getLsbD j && p j) := by
  rw [lanesOf, List.filter_filter]
  simp only [Bool.and_comm]

theorem matchLane_count (m : LaneSet) (same : Nat → Nat → Bool) (l : Nat) :
    (hiHalf (matchLane m same l).val).toNat = (List.range 96).countP (fun j => m.getLsbD j && same j l) := by
  have hle : (List.range 96).countP (fun j => m.getLsbD j && same j l) ≤ 96 := List.countP_le_length.trans_eq List.length_range
  rw [matchLane, hiHalf_pairOf, filter_lanesOf, ← List.countP_eq_length_filter, BitVec.toNat_ofNat]
  omega

/-- A member's key equals itself, so there is a first member with its key. -/
theorem matchLane_first {m : LaneSet} {same : Nat → Nat → Bool} {l : Nat} (hm : m.getLsbD l = true)
    (hself : same l l = true) :
    m.getLsbD (loHalf (matchLane m same l).val).toNat = true ∧ same (loHalf (matchLane m same l).val).toNat l = true ∧
      ∀ j, j < (loHalf (matchLane m same l).val).toNat → m.getLsbD j = true → same j l = false := by
  obtain ⟨hfirst, hlt, hbelow⟩ := headD_filter_range (p := fun j => m.getLsbD j && same j l) (BitVec.lt_of_getLsbD hm)
    (by rw [hm, hself]; rfl)
  have hlow : (loHalf (matchLane m same l).val).toNat = ((List.range 96).filter (fun j => m.getLsbD j && same j l)).headD 0 := by
    rw [matchLane, loHalf_pairOf, filter_lanesOf, BitVec.toNat_ofNat]
    omega
  rw [hlow]
  obtain ⟨hmem, hsame⟩ := Bool.and_eq_true_iff.1 hfirst
  refine ⟨hmem, hsame, fun j hj hjm => ?_⟩
  simpa [hjm] using hbelow j hj

/-- Two lanes' keys, equal as VMATCH compares them. -/
def sameKey (f : VR) (fpcr : Word) (v : LaneVals) (i j : Nat) : Bool := keyEq (decide (f.t = 3)) fpcr (v.word i) (v.word j)

theorem sameKey_self (f : VR) (fpcr : Word) (v : LaneVals) (l : Nat) : sameKey f fpcr v l l = true := keyEq_self _ _ _

/-- Keys that are no floating-point values are equal as they stand. -/
theorem sameKey_bits {f : VR} (ht : f.t ≠ 3) (fpcr : Word) (v : LaneVals) (i j : Nat) :
    sameKey f fpcr v i j = decide (v.word i = v.word j) := by
  rw [sameKey, decide_eq_false ht]
  rfl

theorem execVmatch_writes {f : VR} {s : State} {vs : List (Nat × LaneVals)} (hok : f.okMatch = true)
    (hs : s.vrReady f (usesOf 1 f false) true vs) :
    execVmatch f s = .next (s.afterLanes f (usesOf 1 f false) true
      (matchLane (s.grp.mask f.m) (sameKey f s.grp.fpcr (s.opnds f.t (usesOf 1 f false) vs).a))) := by
  refine (finish_runVR_ready hok hs).trans (congrArg _ (State.afterVR_congr ?_))
  rw [State.streamed_mask, State.streamed_fpcr]
  rfl

/-! ### Reductions and scans (R193 to R195) -/

theorem execVred_writes {f : VR} {s : State} {vs : List (Nat × LaneVals)} (hok : f.okRed true = true)
    (hm : s.grp.tripOk f.m = true)
    (hd : (if f.wide then s.grp.scalOk (f.d.setWidth 6) && s.grp.scalOk (f.d.setWidth 6 + 1)
      else s.grp.scalOk (f.d.setWidth 6)) = true)
    (hlive : (if f.wide then s.grp.liveInPair (f.d.setWidth 6) else s.grp.liveIn (f.d.setWidth 6)) = false)
    (hus : (usesOf 1 f f.wide).all s.grp.useOk = true) (hvs : s.readStreams (streamsOf (usesOf 1 f f.wide)) = .ok vs) :
    execVred f s = .next (s.afterVR (usesOf 1 f f.wide) (fun g =>
      let r := reduceLanes g.fpcr f (s.opnds f.t (usesOf 1 f f.wide) vs).a (g.mask f.m)
      (if f.wide then g.wp (f.d.setWidth 6) (BitVec.ofNat 64 r.bits)
       else g.ws (f.d.setWidth 6) (BitVec.ofNat 32 r.bits)).raiseFlags r.flags)) :=
  finish_runVR (by rw [hok, hm, hd]; rfl) hus hlive hvs

theorem execVscan_writes {f : VR} {s : State} {vs : List (Nat × LaneVals)} (hok : f.okRed false = true)
    (hs : s.vrReady f (usesOf 1 f f.wide) f.wide vs) :
    execVscan f s = .next (s.afterLanes f (usesOf 1 f f.wide) f.wide (fun l =>
      (reduceLanes s.grp.fpcr f (s.opnds f.t (usesOf 1 f f.wide) vs).a
        (s.grp.mask f.m &&& laneRange 0 (if f.x.getLsbD 3 then l else l + 1))).lane)) := by
  refine (finish_runVR_ready hok hs).trans (congrArg _ (State.afterVR_congr ?_))
  rw [State.streamed_mask, State.streamed_fpcr]

/-! ### The sum of 32-bit integers (R193) -/

/-- What a part of the tree adds to a sum: nothing where it has no member. -/
def sumOf (r : Option FRes) : Nat := (r.map (·.bits)).getD 0

theorem comb_none_right (op : Nat → Nat → FRes) (p : Option FRes) : comb op p none = p := by
  cases p <;> rfl

theorem comb_none_left (op : Nat → Nat → FRes) (q : Option FRes) : comb op none q = q := rfl

section
variable {op : Nat → Nat → FRes} (hop : ∀ p q, (op p q).bits = (p + q) % 2 ^ 32)
include hop

/-- Comb of an addition modulo 2^32 adds. -/
theorem sumOf_comb {p q : Option FRes} {m n : Nat} (hp : sumOf p = m % 2 ^ 32) (hq : sumOf q = n % 2 ^ 32) :
    sumOf (comb op p q) = (m + n) % 2 ^ 32 := by
  match p, q with
  | none, q =>
    have hzero : m % 2 ^ 32 = 0 := hp.symm
    rw [comb_none_left, hq, Nat.add_mod, hzero, Nat.zero_add, Nat.mod_mod]
  | p, none =>
    have hzero : n % 2 ^ 32 = 0 := hq.symm
    rw [comb_none_right, hp, Nat.add_mod, hzero, Nat.add_zero, Nat.mod_mod]
  | some p, some q =>
    have hp' : p.bits = m % 2 ^ 32 := hp
    have hq' : q.bits = n % 2 ^ 32 := hq
    rw [Nat.add_mod, ← hp', ← hq']
    exact hop p.bits q.bits

/-- A tree of any height adds the members below it, modulo 2^32. -/
theorem sumOf_tree {x : Nat → Option Nat} (hx : ∀ l v, x l = some v → v < 2 ^ 32) (k lo : Nat) :
    sumOf (tree op x k lo) = ((List.range' lo (2 ^ k)).map (fun l => (x l).getD 0)).sum % 2 ^ 32 := by
  induction k generalizing lo with
  | zero =>
    cases hlo : x lo with
    | none => simp [sumOf, tree, hlo]
    | some v => simpa [sumOf, tree, hlo] using (Nat.mod_eq_of_lt (hx lo v hlo)).symm
  | succ k ih =>
    have hsplit : List.range' lo (2 ^ (k + 1)) = List.range' lo (2 ^ k) ++ List.range' (lo + 2 ^ k) (2 ^ k) := by
      rw [List.range'_append_1, Nat.pow_succ, Nat.mul_two]
    rw [tree, sumOf_comb hop (ih lo) (ih (lo + 2 ^ k)), hsplit, List.map_append, List.sum_append]

/-- The tree over the whole group adds its members, modulo 2^32. -/
theorem reduce_bits_of_add {x : Nat → Option Nat} (hx : ∀ l v, x l = some v → v < 2 ^ 32) :
    (reduce op 0 x).bits = ((List.range 96).map (fun l => (x l).getD 0)).sum % 2 ^ 32 := by
  have hsplit : List.range 96 = List.range' 0 32 ++ List.range' 32 32 ++ List.range' 64 32 := by
    rw [List.range'_append_1, List.range'_append_1, List.range_eq_range']
  have hsum := sumOf_comb hop (sumOf_comb hop (sumOf_tree hop hx 5 0) (sumOf_tree hop hx 5 32)) (sumOf_tree hop hx 5 64)
  rw [hsplit, List.map_append, List.map_append, List.sum_append, List.sum_append]
  refine Eq.trans ?_ hsum
  rw [reduce, sumOf]
  cases comb op (comb op (tree op x 5 0) (tree op x 5 32)) (tree op x 5 64) <;> rfl

end

/-- Values outside the set add nothing. -/
theorem sum_map_filter (p : Nat → Bool) (v : Nat → Nat) (ls : List Nat) :
    (ls.map (fun l => (if p l then some (v l) else none).getD 0)).sum = ((ls.filter p).map v).sum := by
  induction ls with
  | nil => rfl
  | cons l ls ih =>
    cases hp : p l with
    | false => simpa [hp] using ih
    | true => simpa [hp] using ih

theorem reduceOp_sum (fpcr : Word) (p q : Nat) : (reduceOp fpcr 0 0 p q).bits = (p + q) % 2 ^ 32 := by
  simp [reduceOp]

/-- A 32-bit integer sum is the sum of the members (R193). -/
theorem reduceLanes_sum {fpcr : Word} {f : VR} {v : LaneVals} {m : LaneSet} (ht : f.t = 0) (hop : f.x.extractLsb' 0 3 = 0)
    (hwide : f.wide = false) :
    (reduceLanes fpcr f v m).bits =
      (((List.range 96).filter (fun l => m.getLsbD l)).map (fun l => (v.word l).toNat)).sum % 2 ^ 32 := by
  have hform : reduceLanes fpcr f v m =
      reduce (reduceOp fpcr 0 0) 0 (fun l => if m.getLsbD l then some (v.word l).toNat else none) := by
    simp only [reduceLanes, ht, hop, hwide]
    rfl
  rw [hform, reduce_bits_of_add (reduceOp_sum fpcr), sum_map_filter]
  intro l y hy
  split at hy
  · cases hy; exact (v.word l).isLt
  · cases hy

end Sys2Proof.Machine

open Sys2Proof Sys2Proof.Machine

/-- Settles O21: a vote counts over the members, a shuffle takes a member's lane or its own, a match finds the first member
with the lane's key, and every part of the tree of a sum adds its own members. -/
theorem groupWideResults : Obligations.GroupWideResults := by
  unfold Obligations.GroupWideResults
  refine ⟨fun s f vs => ⟨fun hok hm hus hvs => ⟨?votes, ?ballot⟩, ?shuffle, ?firstOfKey, ?reduce, ?scan⟩, ?sum, ?keys⟩
  case votes => exact fun hx hd hlive => (exec_vvote f s).trans (execVvote_scalar hok hm hus hvs hx hd hlive)
  case ballot =>
    exact fun hx hd hlive => ⟨_, (exec_vvote f s).trans (execVvote_ballot hok hm hus hvs hx hd hlive),
      fun l hl => (getLsbD_laneSetOf hl).trans mem_votesOf⟩
  case shuffle =>
    intro hok hs
    refine ⟨_, (exec_vshfl f s).trans (execVshfl_writes hok hs), fun l hl => ⟨shuffleLane f _ _ l,
      memberOr_lt _ _ hl, rfl, memberOr_cases _ _ l, fun hx hb => ?_, fun b i hb hi => ?_⟩⟩
    · rw [shuffleLane, shuffleFrom_eq, if_pos hx, shuffleBy, if_neg hb, memberOr_natCast]
    · have hby : shuffleBy f (s.opnds f.t [useA f f.wide, useB f false] vs) l = b := hb.symm
      rw [shuffleLane, hby, shuffleFrom_eq, ← hi, memberOr]
  case firstOfKey =>
    intro hok hs
    refine ⟨_, (exec_vmatch f s).trans (execVmatch_writes hok hs), fun ht l _ hm => ?bits, fun same hsame l _ hm => ?general⟩
    case bits =>
      obtain ⟨hmem, hkey, -⟩ := matchLane_first hm (sameKey_self f s.grp.fpcr (s.opnds f.t (usesOf 1 f false) vs).a l)
      refine ⟨hmem, of_decide_eq_true ((sameKey_bits ht _ _ _ _).symm.trans hkey), ?_⟩
      rw [matchLane_count]
      simp only [sameKey_bits ht]
    case general =>
      obtain rfl : same = sameKey f s.grp.fpcr (s.opnds f.t (usesOf 1 f false) vs).a := funext₂ hsame
      obtain ⟨hmem, hkey, hbelow⟩ := matchLane_first hm (sameKey_self f _ _ l)
      exact ⟨hmem, hkey, hbelow, matchLane_count _ _ l⟩
  case reduce => exact fun hok hm hd hlive hus hvs => (exec_vred f s).trans (execVred_writes hok hm hd hlive hus hvs)
  case scan => exact fun hok hs => ⟨_, (exec_vscan f s).trans (execVscan_writes hok hs), fun _ _ => rfl⟩
  case sum => exact fun fpcr f v m => reduceLanes_sum
  case keys => exact fun fpcr a b x y => keyEq_float
end

section
/-! PROOFS. Queue registers: what a change of one leaves of the group, and QBIND, QPUSH, QPOP, QTRY and QSTAT with the events that
end their waits (11_engines_and_copies.md R197 to R203). -/

namespace Sys2Proof.Machine

open Sys2Proof

theorem exec_qbind (f : EX) (s : State) : exec (.qbind f) s = execQbind f s := rfl
theorem exec_qpush (f : EX) (s : State) : exec (.qpush f) s = execQpush f s := rfl
theorem exec_qpushRoom (s : State) : exec .qpushRoom s = execQpushRoom s := rfl
theorem exec_qpop (f : EX) (s : State) : exec (.qpop f) s = execQpop f s := rfl
theorem exec_qpopEntry (s : State) : exec .qpopEntry s = execQpopEntry s := rfl
theorem exec_qtry (f : EX) (s : State) : exec (.qtry f) s = execQtry f s := rfl
theorem exec_qstat (f : EX) (s : State) : exec (.qstat f) s = execQstat f s := rfl

/-! ### Queue registers of a group (R197) -/

theorem Group.queue_congr {g h : Group} (hq : g.queues = h.queues) (q : Nat) : g.queue q = h.queue q := by
  rw [Group.queue, Group.queue, hq]

theorem Group.queue_onQueue_self (g : Group) {q : Nat} (hq : q < 16) (h : QReg → QReg) :
    (g.onQueue q h).queue q = h (g.queue q) := by
  simp [Group.onQueue, Group.queue, hq]

theorem Group.queue_onQueue_of_ne (g : Group) {q r : Nat} (hne : r ≠ q) (h : QReg → QReg) :
    (g.onQueue q h).queue r = g.queue r := by
  simp [Group.onQueue, Group.queue, hne.symm]

@[simp] theorem Group.ws_queue (g : Group) (n : BitVec 6) (x : Word) (q : Nat) : (g.ws n x).queue q = g.queue q :=
  Group.queue_congr (g.ws_queues n x) q

@[simp] theorem Group.wp_queue (g : Group) (n : BitVec 6) (x : DWord) (q : Nat) : (g.wp n x).queue q = g.queue q :=
  Group.queue_congr (g.wp_queues n x) q

/-! ### QBIND and QSTAT (R203) -/

variable {s t : State} {f : EX} {uid u r : Nat} {q : BitVec 4} {d : BitVec 6} {x : DWord} {rest : List DWord}

@[simp] theorem State.qfault_true (s : State) (q : BitVec 4) : s.qfault q true = .ok () := rfl

theorem execQbind_binds (hmay : s.grp.mayQueue = true) (hok : f.okQbind = true) (hbind : s.bindOk f.q.toNat (kindOf f) = true) :
    execQbind f s = .next (s.after 1 (fun g =>
      { g.onQueue f.q.toNat (fun _ => ⟨kindOf f, [], [], 0⟩) with progress := 0 })) := by
  simp only [execQbind, hok, hmay, hbind, Bool.and_self, State.need_true, State.qfault_true, Run.ok_bind]
  rfl

theorem execQstat_reads (hok : f.okQstat = true) (hhelper : s.grp.helper = none) (hd : s.grp.scalOk f.d = true)
    (hlive : s.grp.liveIn f.d = false) :
    execQstat f s = .next (s.after 1 (fun g => g.ws f.d (g.queue f.q.toNat).status)) :=
  (finish_toScalar (by rw [hok, hhelper]; rfl) hd hlive).trans (congrArg Host.Outcome.next (State.after_congr rfl))

/-! ### QPUSH (R200, R203) -/

/-- The machine once a value stands at the tail of a receiver's register. -/
def State.pushedTo (s : State) (u r : Nat) (x : DWord) : State :=
  (s.onQueueOf u r (fun y => { y with entries := y.entries ++ [x], rel := y.rel ++ [0] })).onGrp (fun g => { g with progress := 0 })

/-- A push into a register with room is done at once, where no release store of the group waits (R161). -/
theorem State.tryPush_room (hto : s.sendTo q = some (u, r)) (hroom : s.held u r < 8) (hq : s.grp.relq = []) :
    s.tryPush q x = .ok (.done (s.pushedTo u r x)) := by
  simp only [State.tryPush, hto, if_pos hroom, State.releaseRun_of_none (scope := 2) hq (.inl (by decide)), Run.ok_bind]
  rfl

theorem State.tryPush_full (hto : s.sendTo q = some (u, r)) (hfull : 8 ≤ s.held u r) :
    s.tryPush q x = .ok (.wait (.push q x) s) := by
  simp only [State.tryPush, hto, if_neg (Nat.not_lt.2 hfull)]

theorem execQpush_eq (hmay : s.grp.mayQueue = true) (hok : f.okQpush = true) (ha : s.grp.pairOk f.a = true) :
    execQpush f s = finish 1 (s.tryPush f.q (s.grp.rp f.a)) := by
  simp only [execQpush, hok, ha, hmay, Bool.and_self, State.need_true, Run.ok_bind]

theorem execQpushRoom_room (hev : s.ev = .group uid) (ht : s.focus uid = some t) (hwait : t.grp.status = .waiting (.push q x))
    (hto : t.sendTo q = some (u, r)) (hroom : t.held u r < 8) (hq : t.grp.relq = []) :
    execQpushRoom s = .next ((t.pushedTo u r x).retire 1) := by
  rw [execQpushRoom, withGroup_of_focus _ _ hev ht, Group.waiting?_of_status hwait]
  simp only [hto, if_pos hroom, State.tryPush_room hto hroom hq, finish_ok, settle_done]

/-! ### QPOP and QTRY (R203) -/

@[simp] theorem State.popTo_mem (s : State) (d : BitVec 6) (q : Nat) : (s.popTo d q).mem = s.mem := by
  simp only [State.popTo, State.takeHead, State.onGrp_mem, State.acquireAt_mem]

/-- A group once the head of a register has gone, with what its loads may have acquired. -/
def Group.headTaken (g : Group) (q : Nat) (acq : Bool) : Group := { g.onQueue q QReg.pop with progress := 0, acqLoad := acq }

theorem Group.headTaken_entries (g : Group) {q : Nat} (hq : q < 16) (acq : Bool) :
    ((g.headTaken q acq).queue q).entries = (g.queue q).entries.drop 1 := by
  have hqueues : (g.headTaken q acq).queues = (g.onQueue q QReg.pop).queues := rfl
  rw [Group.queue_congr hqueues, Group.queue_onQueue_self g hq, QReg.pop]

/-- Taking the head of a register changes that register and the group's progress, and marks what the group has acquired; then the
head is written. -/
theorem State.popTo_grp (s : State) (d : BitVec 6) (q : Nat) :
    ∃ acq, (s.popTo d q).grp = (s.grp.headTaken q acq).wp d ((s.grp.queue q).entries.headD 0) := by
  have htaken (scope : Nat) : ((s.grp.onQueue q QReg.pop).acquired scope).progressed =
      s.grp.headTaken q (s.grp.acqLoad || decide (2 ≤ scope)) := rfl
  simp only [State.popTo, State.takeHead, State.onGrp_grp, State.acquireAt_grp, htaken]
  exact ⟨_, rfl⟩

theorem State.popTo_entries (d : BitVec 6) {q : Nat} (hq : q < 16) (hentries : (s.grp.queue q).entries = x :: rest) :
    ((s.popTo d q).grp.queue q).entries = rest := by
  obtain ⟨acq, hgrp⟩ := s.popTo_grp d q
  rw [hgrp, Group.wp_queue, Group.headTaken_entries _ hq, hentries]
  rfl

theorem State.popTo_rp {q : Nat} (hd : d ≠ 0) (heven : d.toNat % 2 = 0) (hentries : (s.grp.queue q).entries = x :: rest) :
    (s.popTo d q).grp.rp d = x := by
  obtain ⟨acq, hgrp⟩ := s.popTo_grp d q
  rw [hgrp, Group.rp_wp_self _ _ _ hd heven, hentries]
  rfl

section
variable (hmay : s.grp.mayQueue = true) (hd : s.grp.pairOk f.d = true) (hpops : s.grp.popsFrom f.q.toNat = true)
include hmay hd hpops

theorem execQpop_takes (hok : f.okQpop = true) (hentries : (s.grp.queue f.q.toNat).entries = x :: rest) :
    execQpop f s = .next ((s.popTo f.d f.q.toNat).retire 1) := by
  simp only [execQpop, hok, hd, hmay, hpops, hentries, Bool.and_self, State.need_true, State.qfault_true, Run.ok_bind]
  rfl

theorem execQpop_waits (hok : f.okQpop = true) (hentries : (s.grp.queue f.q.toNat).entries = []) :
    execQpop f s = .next (s.waitFor (.pop f.d f.q)) := by
  simp only [execQpop, hok, hd, hmay, hpops, hentries, Bool.and_self, State.need_true, State.qfault_true, Run.ok_bind]
  rfl

theorem execQtry_takes (hok : f.okQtry = true) (hentries : (s.grp.queue f.q.toNat).entries = x :: rest) :
    execQtry f s = .next (((s.popTo f.d f.q.toNat).onGrp (fun g => g.ws (f.d + 2) 1)).retire 1) := by
  simp only [execQtry, hok, hd, hmay, hpops, hentries, Bool.and_self, State.need_true, State.qfault_true, Run.ok_bind]
  rfl

theorem execQtry_finds_none (hok : f.okQtry = true) (hentries : (s.grp.queue f.q.toNat).entries = []) :
    execQtry f s = .next (s.after 1 (fun g => { (g.wp f.d 0).ws (f.d + 2) 0 with progress := 0 })) := by
  simp only [execQtry, hok, hd, hmay, hpops, hentries, Bool.and_self, State.need_true, State.qfault_true, Run.ok_bind]
  rfl

end

theorem execQpopEntry_takes (hev : s.ev = .group uid) (ht : s.focus uid = some t) (hwait : t.grp.status = .waiting (.pop d q))
    (hentries : (t.grp.queue q.toNat).entries = x :: rest) :
    execQpopEntry s = .next ((t.popTo d q.toNat).retire 1) := by
  rw [execQpopEntry, withGroup_of_focus _ _ hev ht, Group.waiting?_of_status hwait]
  simp only [hentries]
  rfl

/-! ### The destinations of QPOP and QTRY (R203) -/

theorem EX.even_of_okQpop (h : f.okQpop = true) : f.d.toNat % 2 = 0 := by
  simp only [EX.okQpop, even6, Bool.and_eq_true, decide_eq_true_eq] at h
  exact h.1.2

/-- The pair of QTRY and the scalar after it are four scalars from a multiple of 4 on. -/
theorem EX.dest_of_okQtry (h : f.okQtry = true) :
    f.d ≠ 0 ∧ f.d.toNat % 2 = 0 ∧ f.d + 2 ≠ 0 ∧ f.d ≠ f.d + 2 ∧ f.d + 1 ≠ f.d + 2 := by
  simp only [EX.okQtry, quad6, Bool.and_eq_true, decide_eq_true_eq] at h
  obtain ⟨⟨-, ⟨hquad, hlo⟩, hhi⟩, -⟩ := h
  refine ⟨?_, by omega, ?_, ?_, ?_⟩ <;> bv_omega

theorem Group.rp_ws_other (g : Group) (n m : BitVec 6) (x : Word) (h0 : m ≠ n) (h1 : m + 1 ≠ n) : (g.ws n x).rp m = g.rp m := by
  rw [Group.rp, Group.rp, Group.rs_ws_other _ _ _ _ h0, Group.rs_ws_other _ _ _ _ h1]

end Sys2Proof.Machine

open Sys2Proof Sys2Proof.Machine

/-- Settles O34: each instruction is its checks and then one change of one register: a push joins at the tail, a pop is the head. -/
theorem queueInstructions : Obligations.QueueInstructions := by
  unfold Obligations.QueueInstructions
  refine ⟨fun s f hmay => ⟨?bind, ?push, ?head, ?empty⟩, ?stat, ?room, ?entry⟩
  case bind => exact fun hok hbind => (exec_qbind f s).trans (execQbind_binds hmay hok hbind)
  case push =>
    intro u r hok ha hto
    rw [exec_qpush, execQpush_eq hmay hok ha]
    refine ⟨fun hroom hq => ?_, fun hfull => ?_⟩
    · rw [State.tryPush_room hto hroom hq]; rfl
    · rw [State.tryPush_full hto hfull]; rfl
  case head =>
    intro hpops hd x rest hentries
    have hrest := State.popTo_entries f.d f.q.isLt hentries
    refine ⟨fun hok => ⟨_, (exec_qpop f s).trans (execQpop_takes hmay hd hpops hok hentries), s.popTo_mem _ _, hrest,
      fun hd0 => State.popTo_rp hd0 (EX.even_of_okQpop hok) hentries⟩, fun hok => ?_⟩
    obtain ⟨hd0, heven, hflag, hne, hne1⟩ := EX.dest_of_okQtry hok
    refine ⟨_, (exec_qtry f s).trans (execQtry_takes hmay hd hpops hok hentries),
      (State.onGrp_mem _ _).trans (s.popTo_mem _ _), ?_, ?_, ?_⟩
    · rw [State.onGrp_grp, Group.ws_queue, hrest]
    · rw [State.onGrp_grp, Group.rp_ws_other _ _ _ _ hne hne1, State.popTo_rp hd0 heven hentries]
    · rw [State.onGrp_grp, Group.rs_ws_self _ _ _ hflag]
  case empty =>
    exact fun hpops hd hentries => ⟨fun hok => (exec_qpop f s).trans (execQpop_waits hmay hd hpops hok hentries),
      fun hok => (exec_qtry f s).trans (execQtry_finds_none hmay hd hpops hok hentries)⟩
  case stat => exact fun s f hok hhelper hd hlive => (exec_qstat f s).trans (execQstat_reads hok hhelper hd hlive)
  case room =>
    exact fun s t uid u r q x hev ht hwait hto hroom hq =>
      (exec_qpushRoom s).trans (execQpushRoom_room hev ht hwait hto hroom hq)
  case entry =>
    intro s t uid d q x rest hev ht hwait hentries
    obtain ⟨acq, hgrp⟩ := t.popTo_grp d q.toNat
    have hacq : (t.popTo d q.toNat).grp.acqLoad = acq := by rw [hgrp, Group.wp_acqLoad, Group.headTaken]
    refine ⟨_, (exec_qpopEntry s).trans (execQpopEntry_takes hev ht hwait hentries),
      State.popTo_entries d q.isLt hentries, ?_⟩
    rw [hacq, hgrp, hentries]
    rfl
end

section
/-! PROOFS. The copy instructions, and the event that ends their wait (11_engines_and_copies.md R198, R199, R210). -/

namespace Sys2Proof.Machine

open Sys2Proof

theorem exec_copyIssueUnblock (s : State) : exec .copyIssueUnblock s = execCopyIssueUnblock s := rfl

theorem exec_copyRow : ∀ row ∈ copyRows, ∀ (s : State) (p : Option Pfx) (f : EX),
    exec (row.1 p f) s = copyInstr (row.1 p f).wf row.2 p f s := by
  simp only [copyRows, List.forall_mem_cons]
  exact ⟨fun _ _ _ => rfl, fun _ _ _ => rfl, fun _ _ _ => rfl, fun _ _ _ => rfl, fun _ _ _ => rfl, by simp⟩

/-! ### The acquire flag of a command (R165) -/

theorem State.cleanCore_turns (s : State) (core : Nat) : (s.cleanCore core).turns = s.turns := s.writeBackAll_turns core s.l1

theorem State.engineAcquire_work (s : State) (acq : Bool) (scope : Nat) : (s.engineAcquire acq scope).work = s.work := by
  unfold State.engineAcquire
  split
  · extract_lets t
    have ht : t.work = s.work := (State.onGrp_work _ _).trans (s.releaseAt_work _ _)
    split
    · exact (t.sendRemoteWrites_work _).trans ht
    · exact ht
  · split
    · exact (State.onGrp_work _ _).trans (s.cleanCore_work _)
    · rfl

/-- A command's acquire changes of the group the scopes of its waiting release stores, and what its loads have acquired. -/
theorem State.engineAcquire_grp (s : State) (acq : Bool) (scope : Nat) :
    ∃ relq acqLoad, (s.engineAcquire acq scope).grp = { s.grp with relq := relq, acqLoad := acqLoad } := by
  unfold State.engineAcquire
  split
  · extract_lets t
    have ht : ∃ relq acqLoad, t.grp = { s.grp with relq := relq, acqLoad := acqLoad } :=
      ⟨_, _, by rw [State.onGrp_grp, State.releaseAt_grp]⟩
    split
    · rwa [State.grp_of_turns (t.sendRemoteWrites_turns _)]
    · exact ht
  · split
    · exact ⟨s.grp.relq, false, by rw [State.onGrp_grp, State.grp_of_turns (s.cleanCore_turns _)]⟩
    · exact ⟨s.grp.relq, s.grp.acqLoad, rfl⟩

/-! ### The push of a command (R198, R199) -/

/-- A group whose command of a uid has joined command register `q`, with completion register `done`, its tag in s[d]. -/
def Group.copyPushed (g : Group) (q done : Nat) (d : BitVec 6) (uid : DWord) : Group :=
  { ((g.onQueue q (fun r => r.push uid 0)).onQueue done (fun r => { r with outstanding := r.outstanding + 1 })).ws d
      (g.copyTag.setWidth 32) with copyTag := g.copyTag + 1 }

theorem Group.copyPushed_rs (g : Group) (q done : Nat) {d : BitVec 6} (hd : d ≠ 0) (uid : DWord) :
    (g.copyPushed q done d uid).rs d = g.copyTag.setWidth 32 := Group.rs_ws_self _ _ _ hd

theorem Group.copyPushed_queue (g : Group) (q done : Nat) (d : BitVec 6) (uid : DWord) (r : Nat) :
    (g.copyPushed q done d uid).queue r =
      ((g.onQueue q (fun r => r.push uid 0)).onQueue done (fun r => { r with outstanding := r.outstanding + 1 })).queue r :=
  Group.queue_congr (Group.ws_queues _ _ _) r

/-- The command is the last entry of its register, also where that is its own completion register. -/
theorem Group.copyPushed_entries (g : Group) {q done : Nat} (hq : q < 16) (d : BitVec 6) (uid : DWord) :
    ((g.copyPushed q done d uid).queue q).entries = (g.queue q).entries ++ [uid] := by
  rw [Group.copyPushed_queue]
  by_cases hsame : q = done
  · subst hsame
    rw [Group.queue_onQueue_self _ hq, Group.queue_onQueue_self _ hq, QReg.push]
  · rw [Group.queue_onQueue_of_ne _ hsame, Group.queue_onQueue_self _ hq, QReg.push]

theorem Group.copyPushed_outstanding (g : Group) {q done : Nat} (hdone : done < 16) (d : BitVec 6) (uid : DWord) :
    ((g.copyPushed q done d uid).queue done).outstanding = (g.queue done).outstanding + 1 := by
  rw [Group.copyPushed_queue, Group.queue_onQueue_self _ hdone]
  by_cases hsame : done = q
  · subst hsame
    rw [Group.queue_onQueue_self _ hdone, QReg.push]
  · rw [Group.queue_onQueue_of_ne _ hsame]

variable {s t : State} {op : CopyOp} {p : Option Pfx} {f : EX} {form : CopyForm} {bar : Word} {link : Nat × Nat} {uid : Nat}

theorem State.pushCopy_grp (s : State) (p : Option Pfx) (f : EX) (form : CopyForm) (bar : Word) (link : Nat × Nat) :
    (s.pushCopy p f form bar link).grp =
      (s.engineAcquire (acquires (s.grp.eff p).ord) (s.grp.eff p).scope).grp.copyPushed f.q.toNat link.1 f.d
        (BitVec.ofNat 64 s.nextId) := rfl

theorem State.pushCopy_pushed (hlink : link.1 < 16) : s.pushed (s.pushCopy p f form bar link) f form bar link := by
  have hcopies : (s.engineAcquire (acquires (s.grp.eff p).ord) (s.grp.eff p).scope).copies = s.copies :=
    congrArg Work.copies (s.engineAcquire_work _ _)
  obtain ⟨relq, acqLoad, hgrp⟩ := s.engineAcquire_grp (acquires (s.grp.eff p).ord) (s.grp.eff p).scope
  have hpushed := s.pushCopy_grp p f form bar link
  rw [hgrp] at hpushed
  refine ⟨_, congrArg (· ++ [_]) hcopies, rfl, rfl, rfl, rfl, rfl, rfl, rfl, rfl, rfl, ?_, fun hd => ?_, ?_, ?_⟩
  · rw [hpushed]; rfl
  · rw [hpushed, Group.copyPushed_rs _ _ _ hd]
  · rw [hpushed, Group.copyPushed_entries _ f.q.isLt]; rfl
  · rw [hpushed, Group.copyPushed_outstanding _ hlink]; rfl

/-! ### The instructions and their wait (R198, R210) -/

section
variable (hform : s.copyForm op f = some (form, bar)) (hlink : (s.grp.queue f.q.toNat).copyLink = some link)
include hform hlink

theorem State.tryCopy_room (hroom : s.copyRoom f link = true) :
    s.tryCopy op p f = .ok (.done (s.pushCopy p f form bar link)) := by
  rw [State.copyRoom] at hroom
  simp only [State.tryCopy, hform, hlink, hroom, if_true]

theorem State.tryCopy_full (hfull : s.copyRoom f link = false) : s.tryCopy op p f = .ok (.wait (.copyRoom op p f) s) := by
  rw [State.copyRoom] at hfull
  simp only [State.tryCopy, hform, hlink, hfull]
  rfl

end

theorem copyInstr_eq {ok : Bool} (hok : ok = true) (hmay : s.grp.mayQueue = true) :
    copyInstr ok op p f s = finish (pfxLen p) (s.tryCopy op p f) := by
  simp only [copyInstr, hok, hmay, Bool.and_self, State.need_true, Run.ok_bind]

theorem execCopyIssueUnblock_room (hev : s.ev = .group uid) (ht : s.focus uid = some t)
    (hwait : t.grp.status = .waiting (.copyRoom op p f)) (hform : t.copyForm op f = some (form, bar))
    (hlink : (t.grp.queue f.q.toNat).copyLink = some link) (hroom : t.copyRoom f link = true) :
    execCopyIssueUnblock s = .next ((t.pushCopy p f form bar link).retire (pfxLen p)) := by
  rw [execCopyIssueUnblock, withGroup_of_focus _ _ hev ht, Group.waiting?_of_status hwait]
  simp only [State.tryCopy_room hform hlink hroom, finish_ok, settle_done]

end Sys2Proof.Machine

open Sys2Proof Sys2Proof.Machine

/-- Settles O36: a copy instruction is its checks and then a push or a wait, and the push is the event's as well. -/
theorem copyInstructionsPush : Obligations.CopyInstructionsPush := by
  unfold Obligations.CopyInstructionsPush
  refine ⟨fun row hrow s p f form bar link hwf hmay hform hlink hdone => ?instruction,
    fun s t uid op p f form bar link hev ht hwait hform hlink hdone hroom => ?unblock⟩
  case instruction =>
    rw [exec_copyRow row hrow, copyInstr_eq hwf hmay]
    refine ⟨fun hroom => ⟨s.pushCopy p f form bar link, ?_, State.pushCopy_pushed hdone⟩, fun hfull => ?_⟩
    · rw [State.tryCopy_room hform hlink hroom]; rfl
    · rw [State.tryCopy_full hform hlink hfull]; rfl
  case unblock =>
    exact ⟨_, (exec_copyIssueUnblock s).trans (execCopyIssueUnblock_room hev ht hwait hform hlink hroom),
      State.pushCopy_pushed hdone⟩
end

section
/-! SUPPORT. Writes at system scope of bytes of the part's own memory, and what they leave as it is (08_ordering.md R134, R159,
18_package_host_fabric.md R348). -/

namespace Sys2Proof.Machine

open Sys2Proof

/-! ### The bytes that are written -/

theorem State.writeKeys_cons {s : State} {k : Nat} {x : Byte} {ks : List Nat} {xs : List Byte} (hk : keyKind k < 4) :
    s.writeKeys (k :: ks) (x :: xs) = (s.setCoherent k x).writeKeys ks xs := by
  have hthrough : (s.writeCoherent k [x]).throughHost k x = s.setCoherent k x := by
    rw [State.throughHost, if_neg (by omega)]
    rfl
  rw [State.writeKeys, hthrough]

theorem State.setCoherent_mem {s : State} {k : Nat} (hk : keyKind k < 4) (x : Byte) : (s.setCoherent k x).mem = s.mem.set k x := by
  rw [State.setCoherent, State.setBacking_of_local hk]

/-- A byte that is none of those written stays. -/
theorem State.writeKeys_get_outside {s : State} {cells : List Host.Cell} {k : Nat} (hm : s.memOk)
    (hlocal : ∀ c ∈ cells, keyKind c.1 < 4) (hk : k ∉ cells.map (·.1)) :
    (s.writeKeys (cells.map (·.1)) (cells.map (·.2))).mem.get k = s.mem.get k := by
  induction cells generalizing s with
  | nil => rfl
  | cons c cells ih =>
    rw [List.forall_mem_cons] at hlocal
    simp only [List.map_cons, List.mem_cons, not_or] at hk
    rw [List.map_cons, List.map_cons, State.writeKeys_cons hlocal.1,
      ih (State.setCoherent_memOk hm _ _) hlocal.2 hk.2, State.setCoherent_mem hlocal.1, Memory.get_set_other hm hk.1]

/-- Each of the bytes written, at keys that differ, is there afterwards. -/
theorem State.writeKeys_get {s : State} {cells : List Host.Cell} (hm : s.memOk) (hlocal : ∀ c ∈ cells, keyKind c.1 < 4)
    (hnodup : (cells.map (·.1)).Nodup) :
    ∀ c ∈ cells, (s.writeKeys (cells.map (·.1)) (cells.map (·.2))).mem.get c.1 = c.2 := by
  induction cells generalizing s with
  | nil => simp
  | cons d cells ih =>
    rw [List.forall_mem_cons] at hlocal
    rw [List.map_cons, List.nodup_cons] at hnodup
    have hm1 := State.setCoherent_memOk hm d.1 d.2
    rw [List.forall_mem_cons, List.map_cons, List.map_cons, State.writeKeys_cons hlocal.1]
    refine ⟨?_, ih hm1 hlocal.2 hnodup.2⟩
    rw [State.writeKeys_get_outside hm1 hlocal.2 hnodup.1, State.setCoherent_mem hlocal.1, Memory.get_set_self hm]

/-! ### What only counts (R335) -/

section
variable {s t : State} (h : s.OnlyCounts t)
include h

theorem State.OnlyCounts.mem_eq : t.mem = s.mem := by obtain ⟨regs, rfl⟩ := h; rfl
theorem State.OnlyCounts.outbox_eq : t.outbox = s.outbox := by obtain ⟨regs, rfl⟩ := h; rfl
theorem State.OnlyCounts.posts_eq : t.posts = s.posts := by obtain ⟨regs, rfl⟩ := h; rfl

end

/-! ### The streams of posted writes -/

theorem State.countEvent_posts (s : State) (tenant sel n : Nat) : (s.countEvent tenant sel n).posts = s.posts :=
  (s.countEvent_only tenant sel n).posts_eq

theorem State.mscWrite_posts (s : State) (tenant line : Nat) : (s.mscWrite tenant line).posts = s.posts := by
  have hkeep (t : State) : (t.mscKeep tenant line).posts = t.posts := by
    unfold State.mscKeep
    split
    · rfl
    · split
      · rfl
      · exact t.countEvent_posts _ _ _
  unfold State.mscWrite
  rw [hkeep]
  split
  · exact s.countEvent_posts _ _ _
  · exact s.countEvent_posts _ _ _
  · rfl

theorem State.atMsc_write_posts (s : State) (tenant : Nat) (ks : List Nat) : (s.atMsc tenant false ks).posts = s.posts :=
  State.foldl_keeps State.posts _ (fun t l => by rw [if_neg Bool.false_ne_true, State.mscWrite_posts]) _ s

theorem State.writeKeys_posts (s : State) (ks : List Nat) (xs : List Byte) : (s.writeKeys ks xs).posts = s.posts := by
  have hbyte (t : State) (k : Nat) (x : Byte) : ((t.writeCoherent k [x]).throughHost k x).posts = t.posts := by
    unfold State.throughHost
    split <;> exact t.setBacking_posts k x
  induction ks generalizing s xs with
  | nil => rfl
  | cons k ks ih =>
    cases xs with
    | nil => rfl
    | cons x xs => rw [State.writeKeys, ih, hbyte]

end Sys2Proof.Machine
end

section
/-! PROOFS. Posted writes, the ordering point and host reads, and the loss of the host link (11_engines_and_copies.md R208,
18_package_host_fabric.md R346, R348, 19_bring_up_and_health.md R363, R365). -/

namespace Sys2Proof.Machine

open Sys2Proof

theorem exec_inboundPostedWrite (s : State) : exec .inboundPostedWrite s = execInboundPostedWrite s := rfl
theorem exec_orderingPointSend (s : State) : exec .orderingPointSend s = execOrderingPointSend s := rfl
theorem exec_orderingPointAck (s : State) : exec .orderingPointAck s = execOrderingPointAck s := rfl
theorem exec_inboundHostRead (s : State) : exec .inboundHostRead s = execInboundHostRead s := rfl
theorem exec_hostLinkDown (s : State) : exec .hostLinkDown s = execHostLinkDown s := rfl
theorem exec_pfFunctionLevelReset (s : State) : exec .pfFunctionLevelReset s = execPfFunctionLevelReset s := rfl

/-! ### Streams (R348) -/

variable {s : State} {fn bar n i : Nat} {off : DWord} {bytes : List Byte} {rs : List PostReq} {r : PostReq}

@[simp] theorem State.postsOf_fn (s : State) (fn : Nat) : (s.postsOf fn).fn = fn := by
  unfold State.postsOf
  cases hfind : s.posts.find? (fun p => p.fn = fn) with
  | none => rfl
  | some p => simpa using List.find?_some hfind

theorem State.postsOf_congr {s t : State} (h : t.posts = s.posts) (fn : Nat) : t.postsOf fn = s.postsOf fn := by
  rw [State.postsOf, State.postsOf, h]

theorem State.postsOf_setPosts (s : State) {p : PostStream} (h : p.fn = fn) : (s.setPosts p).postsOf fn = p := by
  simp [State.postsOf, State.setPosts, h]

theorem State.reqs_setPosts (s t : State) (fn : Nat) (reqs : List PostReq) :
    ((t.setPosts { s.postsOf fn with reqs := reqs }).postsOf fn).reqs = reqs := by
  rw [State.postsOf_setPosts t (p := { s.postsOf fn with reqs := reqs }) (s.postsOf_fn fn)]

/-! ### Posted writes (R346, R348) -/

/-- The machine once a request has come over the host link. -/
def State.linkSeen (s : State) : State := { s with built := { s.built with linkUp := true } }

theorem State.walkAperture_only (s : State) (fn bar off n : Nat) : s.OnlyCounts (s.walkAperture fn bar off n) := by
  unfold State.walkAperture
  split
  · exact ⟨s.regs, rfl⟩
  · exact State.foldl_only _ (fun t _ =>
      (t.countEvent_only _ _ _).trans (State.foldl_only _ (fun u _ => u.countMsc_only _ _) _ _)) _ s

theorem execInboundPostedWrite_joins (hev : s.ev = .post fn bar off bytes) (hup : s.enumerated = true)
    (hthere : s.fnThere fn = true) (hbytes : bytes ≠ [])
    (hreqs : s.postReqs fn bar off.toNat bytes (s.postsOf fn).count = some rs) :
    execInboundPostedWrite s = .next ((s.linkSeen.walkAperture fn bar off.toNat bytes.length).setPosts
      { s.postsOf fn with count := (s.postsOf fn).count + 1, reqs := (s.postsOf fn).reqs ++ rs }) := by
  have hne : bytes.isEmpty = false := by simpa using hbytes
  simp only [execInboundPostedWrite, hev, hup, hthere, hne, hreqs, Bool.not_true, Bool.or_false, Bool.false_eq_true, if_false]
  rw [← hev]
  rfl

theorem execInboundPostedWrite_unsupported (hev : s.ev = .post fn bar off bytes) (hup : s.enumerated = true)
    (hthere : s.fnThere fn = false) : execInboundPostedWrite s = .next (s.linkSeen.send (.unsupported fn)) := by
  simp only [execInboundPostedWrite, hev, hup, hthere, Bool.not_true, Bool.not_false, Bool.true_or, Bool.false_eq_true,
    if_true, if_false]
  rw [← hev]
  rfl

/-! ### The ordering point (R348) -/

theorem PostStream.maySend_of_earlier {p : PostStream} (hunsent : r.sentAt = none)
    (hearlier : ∀ q ∈ p.reqs, q.write < r.write → q.route = r.route ∧ q.sentAt.isSome = true) : p.maySend r = true := by
  simp only [PostStream.maySend, hunsent, Option.isNone_none, Bool.true_and, List.all_eq_true, Bool.or_eq_true, Bool.and_eq_true,
    decide_eq_true_eq]
  exact fun q hq => (Nat.lt_or_ge q.write r.write).symm.imp_right (hearlier q hq)

theorem PostStream.mayAck_of_earlier {p : PostStream} (hsent : r.sentAt = some n)
    (hearlier : ∀ q ∈ p.reqs, q.route = r.route → ∀ k, q.sentAt = some k → n ≤ k) : p.mayAck r = true := by
  simp only [PostStream.mayAck, hsent, List.all_eq_true, Bool.or_eq_true, decide_eq_true_eq]
  intro q hq
  by_cases hroute : q.route = r.route
  · right
    cases hq' : q.sentAt with
    | none => rfl
    | some k => exact decide_eq_true (hearlier q hq hroute k hq')
  · exact .inl hroute

/-- Of the stream a sent request changes only that request; whether its write's credits are returned is no matter of the stream. -/
theorem State.sendPost_posts (s : State) (fn : Nat) (p : PostStream) (i : Nat) (r : PostReq) :
    (s.sendPost fn p i r).posts = (s.setPosts { p with reqs := p.reqs.set i { r with sentAt := some s.nextId } }).posts := by
  unfold State.sendPost
  dsimp only
  split <;> rfl

theorem State.sendPost_mem (s : State) (fn : Nat) (p : PostStream) (i : Nat) (r : PostReq) : (s.sendPost fn p i r).mem = s.mem := by
  unfold State.sendPost
  dsimp only
  split <;> rfl

theorem execOrderingPointSend_sends (hev : s.ev = .opoint fn i) (hr : (s.postsOf fn).reqs[i]? = some r)
    (hmay : (s.postsOf fn).maySend r = true) : execOrderingPointSend s = .next (s.sendPost fn (s.postsOf fn) i r) := by
  simp only [execOrderingPointSend, hev, hr, hmay, if_true]

theorem execOrderingPointAck_performs (hev : s.ev = .opoint fn i) (hr : (s.postsOf fn).reqs[i]? = some r)
    (hmay : (s.postsOf fn).mayAck r = true) : execOrderingPointAck s = .next (s.ackPost fn (s.postsOf fn) i r) := by
  simp only [execOrderingPointAck, hev, hr, hmay, if_true]

theorem State.sendPost_reqs (hr : (s.postsOf fn).reqs[i]? = some r) :
    ((s.sendPost fn (s.postsOf fn) i r).postsOf fn).reqs[i]? = some { r with sentAt := some s.nextId } := by
  obtain ⟨hi, -⟩ := List.getElem?_eq_some_iff.1 hr
  rw [State.postsOf_congr (s.sendPost_posts _ _ _ _), State.reqs_setPosts]
  exact List.getElem?_set_self hi

/-- The stream without a request that is acknowledged. -/
def State.withoutPost (s : State) (fn i : Nat) : State :=
  s.setPosts { s.postsOf fn with reqs := (s.postsOf fn).reqs.eraseIdx i }

/-- A request for memory is performed as a write of its bytes at system scope, once the stream has let it go. -/
theorem State.ackPost_mem (hbar : r.barWrite = none) : (s.ackPost fn (s.postsOf fn) i r).mem =
    (((s.withoutPost fn i).atMsc fn false (r.cells.map (·.1))).writeKeys (r.cells.map (·.1)) (r.cells.map (·.2))).mem := by
  simp only [State.ackPost, State.performPost, hbar, State.withoutPost]

theorem State.ackPost_reqs (hbar : r.barWrite = none) :
    ((s.ackPost fn (s.postsOf fn) i r).postsOf fn).reqs = (s.postsOf fn).reqs.eraseIdx i := by
  have hposts : (s.ackPost fn (s.postsOf fn) i r).posts = (s.withoutPost fn i).posts := by
    simp only [State.ackPost, State.performPost, hbar, State.writeKeys_posts, State.atMsc_write_posts, State.withoutPost]
  rw [State.postsOf_congr hposts, State.withoutPost, State.reqs_setPosts]

theorem State.withoutPost_atMsc_mem (s : State) (fn i : Nat) (ks : List Nat) :
    ((s.withoutPost fn i).atMsc fn false ks).mem = s.mem := (s.withoutPost fn i).atMsc_mem fn false ks

section
variable (hm : s.memOk) (hlocal : ∀ c ∈ r.cells, keyKind c.1 < 4) (hbar : r.barWrite = none)
include hm hlocal hbar

theorem State.ackPost_backing (hnodup : (r.cells.map (·.1)).Nodup) :
    ∀ c ∈ r.cells, (s.ackPost fn (s.postsOf fn) i r).backing c.1 = c.2 := by
  intro c hc
  rw [State.backing_of_local (hlocal c hc), State.ackPost_mem hbar]
  exact State.writeKeys_get (State.memOk_of_mem (s.withoutPost_atMsc_mem _ _ _) hm) hlocal hnodup c hc

theorem State.ackPost_get_outside {k : Nat} (hk : k ∉ r.cells.map (·.1)) :
    (s.ackPost fn (s.postsOf fn) i r).mem.get k = s.mem.get k := by
  rw [State.ackPost_mem hbar, State.writeKeys_get_outside (State.memOk_of_mem (s.withoutPost_atMsc_mem _ _ _) hm) hlocal hk,
    State.withoutPost_atMsc_mem]

end

/-! ### Host reads (R346, R348) -/

theorem State.readAperture_only (s : State) (fn bar off n : Nat) : s.OnlyCounts (s.readAperture fn bar off n) := by
  unfold State.readAperture
  split
  · exact s.atMsc_read_only _ _
  · exact ⟨s.regs, rfl⟩

/-- The machine once a host read of an aperture has been translated and counted. -/
def State.hostReadCounted (s : State) (fn bar off n : Nat) : State :=
  (s.linkSeen.walkAperture fn bar off n).readAperture fn bar off n

theorem State.hostReadCounted_only (s : State) (fn bar off n : Nat) : s.linkSeen.OnlyCounts (s.hostReadCounted fn bar off n) :=
  (s.linkSeen.walkAperture_only fn bar off n).trans (State.readAperture_only _ fn bar off n)

section
variable (hev : s.ev = .hostRead fn bar off n) (hup : s.enumerated = true) (hidle : (s.postsOf fn).reqs = [])
include hev hup hidle

theorem execInboundHostRead_answers {bs : List Byte} (hthere : s.fnThere fn = true)
    (hbs : s.hostBytes fn bar off.toNat n = some bs) :
    execInboundHostRead s = .next ((s.hostReadCounted fn bar off.toNat n).send (.readDone fn bs)) := by
  simp only [execInboundHostRead, hev, hup, hidle, hthere, hbs, List.isEmpty_nil, Bool.not_true, Bool.or_false,
    Bool.false_eq_true, if_false]
  rw [← hev]
  rfl

theorem execInboundHostRead_nowhere (hthere : s.fnThere fn = false) :
    execInboundHostRead s = .next (s.linkSeen.send (.unsupported fn)) := by
  simp only [execInboundHostRead, hev, hup, hidle, hthere, List.isEmpty_nil, Bool.not_true, Bool.not_false, Bool.or_false,
    Bool.false_eq_true, if_true, if_false]
  rw [← hev]
  rfl

theorem execInboundHostRead_nothing (hthere : s.fnThere fn = true) (hbs : s.hostBytes fn bar off.toNat n = none) :
    execInboundHostRead s = .next ((s.linkSeen.walkAperture fn bar off.toNat n).send (.unsupported fn)) := by
  simp only [execInboundHostRead, hev, hup, hidle, hthere, hbs, List.isEmpty_nil, Bool.not_true, Bool.or_false,
    Bool.false_eq_true, if_false]
  rw [← hev]
  rfl

end

/-! ### The loss of the host link, and the PF's reset (R208, R365) -/

theorem State.lapse_of_owner (h : s.owner = 1) : s.lapse.owner = 0 := by
  have howner : (ownctlOf 0 0).extractLsb' 0 2 = 0 := by decide
  rw [State.lapse, if_pos h]
  exact congrArg BitVec.toNat howner

theorem State.lapse_of_other (h : s.owner ≠ 1) : s.lapse = s := if_neg h

theorem State.lapse_mem (s : State) : s.lapse.mem = s.mem := by
  unfold State.lapse
  split <;> rfl

theorem State.cancelCopies_copies (s : State) (fn : Nat) : (s.cancelCopies fn).copies = s.copies.filter (fun c => c.fn ≠ fn) := rfl
theorem State.cancelCopies_mem (s : State) (fn : Nat) : (s.cancelCopies fn).mem = s.mem := rfl
theorem State.cancelCopies_regs (s : State) (fn : Nat) : (s.cancelCopies fn).regs = s.regs := rfl

end Sys2Proof.Machine

open Sys2Proof Sys2Proof.Machine

/-- Settles O51: a posted write and its requests by the stream that each leaves, a host read by the bytes it finds, and the two ends
of the link by the PF's ownership. -/
theorem hostLinkEventsComplete : Obligations.HostLinkEventsComplete := by
  unfold Obligations.HostLinkEventsComplete
  refine ⟨fun s fn bar off bytes hev hup => ⟨?joins, ?refused⟩, fun s fn i r hev hr => ⟨?send, ?ack⟩,
    fun s fn bar n off hev hup hidle => ⟨?answers, ?unsupported⟩, fun s => ?lost⟩
  case joins =>
    intro rs hthere hbytes hreqs
    have hstream := State.postsOf_setPosts (s.linkSeen.walkAperture fn bar off.toNat bytes.length)
      (p := { s.postsOf fn with count := (s.postsOf fn).count + 1, reqs := (s.postsOf fn).reqs ++ rs }) (State.postsOf_fn s fn)
    exact ⟨_, (exec_inboundPostedWrite s).trans (execInboundPostedWrite_joins hev hup hthere hbytes hreqs),
      by rw [hstream], by rw [hstream],
      (s.linkSeen.walkAperture_only fn bar off.toNat bytes.length).mem_eq⟩
  case refused =>
    exact fun hthere => ⟨_, (exec_inboundPostedWrite s).trans (execInboundPostedWrite_unsupported hev hup hthere), rfl, rfl⟩
  case send =>
    intro hunsent hearlier
    exact ⟨_, _, (exec_orderingPointSend s).trans
      (execOrderingPointSend_sends hev hr (PostStream.maySend_of_earlier hunsent hearlier)),
      State.sendPost_reqs hr, rfl, s.sendPost_mem _ _ _ _⟩
  case ack =>
    intro n hsent hearlier
    refine ⟨_, (exec_orderingPointAck s).trans
      (execOrderingPointAck_performs hev hr (PostStream.mayAck_of_earlier hsent hearlier)),
      fun hbar => ⟨State.ackPost_reqs hbar, fun hm hnodup hhome => ?_⟩⟩
    have hlocal : ∀ c ∈ r.cells, keyKind c.1 < 4 := fun c hc => by rw [hhome c hc]; decide
    exact ⟨State.ackPost_backing hm hlocal hbar hnodup, fun k hk => State.ackPost_get_outside hm hlocal hbar hk⟩
  case answers =>
    intro bs hthere hbs
    have hcounted := s.hostReadCounted_only fn bar off.toNat n
    exact ⟨_, (exec_inboundHostRead s).trans (execInboundHostRead_answers hev hup hidle hthere hbs),
      congrArg (OutMsg.readDone fn bs :: ·) hcounted.outbox_eq, hcounted.mem_eq⟩
  case unsupported =>
    intro hnothing
    cases hthere : s.fnThere fn with
    | false => exact ⟨_, (exec_inboundHostRead s).trans (execInboundHostRead_nowhere hev hup hidle hthere), rfl⟩
    | true =>
      have hbs : s.hostBytes fn bar off.toNat n = none := hnothing.resolve_left (by simp [hthere])
      exact ⟨_, (exec_inboundHostRead s).trans (execInboundHostRead_nothing hev hup hidle hthere hbs),
        congrArg (OutMsg.unsupported fn :: ·) (s.linkSeen.walkAperture_only fn bar off.toNat n).outbox_eq⟩
  case lost =>
    refine ⟨_, _, exec_hostLinkDown s, rfl, s.lapse_mem, exec_pfFunctionLevelReset s, fun c hc => ?_, s.lapse_mem,
      fun howner => ?_, fun hother => ?_⟩
    · rw [State.cancelCopies_copies] at hc
      exact of_decide_eq_true (List.mem_filter.1 hc).2
    · exact ⟨State.lapse_of_owner howner, State.lapse_of_owner howner⟩
    · have hregs : s.lapse.regs = s.regs := by rw [State.lapse_of_other hother]
      exact ⟨hregs, hregs⟩
end

section
/-! PROOFS. The last granule of a command with a release flag, where the overlay of written HOST bytes holds a byte of carve: the
release writes the overlay through (08_ordering.md R136, R165, 11_engines_and_copies.md R206). -/

namespace Sys2Proof.Machine

open Sys2Proof

theorem exec_granuleLand (s : State) : exec .granuleLand s = execGranuleLand s := rfl

/-- A context with two bytes of carve. -/
def carveContext : Context where
  num := 0
  pasid := 0
  tenant := 0
  debug := false
  fvec := 0
  route := 0
  fsize := 0
  fault := 0
  faultNext := 0
  save := 0
  ssize := 0
  bittern := 0
  bslots := 0
  objn := 0
  objtab := 0
  slice := 0
  ckmode := 0
  ckq := 0
  ckval := 0
  objs := []
  carve := 2
  sliceStart := 0
  tier := 0
  deadline := 0
  isSaved := false
  wrote := false
  savedCps := []
  savedMxs := []
  killed := false
  killDue := false
  ckLast := 0
  ckCount := 0
  ckPaused := false
  ckBundle := none
  ckSince := 0

/-- One byte from offset 0 of carve to offset 1. -/
def carvePlan : CopyPlan := .linear 0x1000000000000000 0x1000000000000001 1 0

/-- The command with that plan, on engine 0, with a release flag at system scope (R165). -/
def carveCopy : CopyCmd where
  uid := 0
  form := .linear 0x1000000000000000 0x1000000000000001 1 0
  group := none
  ctx := 0
  pasid := 0
  fn := 0
  cls := 0
  band := 0
  inst := 0
  cluster := 0
  core := 0
  reg := 0
  doneReg := 0
  eng := 0
  tag := 0
  acq := false
  acqDone := false
  rel := true
  scope := 6
  cp := 1
  bar := 0xFFFFFFFF
  mark := ⟨0, 0, none⟩
  bundle := 0
  sub := 0
  entry := 0
  engine := some 0
  plan := some carvePlan
  landed := 0
  ended := none
  suspended := false
  again := false
  keepBar := false
  keepFlags := false
  taken := 0
  dropToken := false
  waitHost := none
  denied := false

/-- The overlay of written HOST bytes holds the byte 7 for the command's destination, which lies in no HOST page. -/
def strayState : State :=
  { State.reset with
    ctxs := [carveContext], copies := [carveCopy], hostDirty := [(keyCarve 0 1, 7)], ev := .cmd 0 0 }

/-- A locator of carve names a byte of its context's allocation (R131, R204). -/
theorem State.locKey_carve {s : State} {c : CopyCmd} {x : Context} {nd : Need} {l : DWord} {off : Nat} (hspace : fld l 60 4 = 1)
    (hctx : s.ctx? c.ctx = some x) (hoff : locBase l + off < x.carve) :
    s.locKey c nd l off = .ok (keyCarve c.ctx (locBase l + off)) := by
  have hok : c.locOk l = true := by simp only [CopyCmd.locOk, hspace]
  simp only [State.locKey, hok, hspace, hctx, Option.map_some, Option.getD_some, hoff, if_true, Bool.not_true, Bool.false_eq_true,
    if_false]

/-- The command's only granule brings a byte 0. -/
theorem strayState_cells : strayState.granuleCells carveCopy carvePlan
    ((List.range (carvePlan.granule carveCopy.landed).2).map ((carvePlan.granule carveCopy.landed).1 + ·)) =
      .ok [(keyCarve 0 1, 0)] := by
  have hgranule : (List.range (carvePlan.granule carveCopy.landed).2).map ((carvePlan.granule carveCopy.landed).1 + ·) = [0] := by
    decide
  have hctx : strayState.ctx? carveCopy.ctx = some carveContext := rfl
  have hsource : strayState.locKey carveCopy .read 0x1000000000000000 0 = .ok (keyCarve 0 0) :=
    State.locKey_carve (by decide) hctx (by decide)
  have hdest : strayState.locKey carveCopy .write 0x1000000000000001 0 = .ok (keyCarve 0 1) :=
    State.locKey_carve (by decide) hctx (by decide)
  have hbyte : strayState.sourceByte carveCopy carvePlan 0 = .ok 0 := by
    simp only [State.sourceByte, State.sourceKey, State.sourceAt, carvePlan, bind, Except.bind, hsource]
    rfl
  have hplace : carvePlan.dest 0 = (0x1000000000000001, 0) := by decide
  rw [hgranule]
  simp only [State.granuleCells, hbyte, hplace, hdest, bind, Except.bind]
  rfl

theorem execGranuleLand_stray : execGranuleLand strayState = .next (strayState.landOne carveCopy carvePlan) := rfl

/-- The release that follows the last granule writes the overlay through, over the byte that has landed. -/
theorem strayState_backing : (strayState.landOne carveCopy carvePlan).backing (keyCarve 0 1) = 7 := rfl

end Sys2Proof.Machine

open Sys2Proof Sys2Proof.Machine

/-- Refutes O37: the statement lets the overlay of written HOST bytes hold a byte of carve, and there the release of a command's
last granule writes that byte over the one that has landed. -/
theorem not_copyCommandsRun : ¬ Obligations.CopyCommandsRun := by
  unfold Obligations.CopyCommandsRun
  rintro ⟨-, hlands, -, -⟩
  obtain ⟨hgranule, -⟩ := hlands strayState 0 0 carveCopy carvePlan rfl rfl rfl rfl rfl rfl rfl rfl
  obtain ⟨t, d, hexec, -, -, -, -, hcells⟩ := (hgranule (.inl rfl)).1 _ strayState_cells
  have ht : strayState.landOne carveCopy carvePlan = t :=
    Host.Outcome.next.inj (execGranuleLand_stray.symm.trans hexec)
  have hlanded := hcells (show Memory.wf [] = true from rfl) (by decide) (by decide) (keyCarve 0 1, 0) (by simp)
  rw [← ht, strayState_backing] at hlanded
  exact absurd hlanded (by decide)
end

section
/-! SUPPORT. What traffic with memory, and messages to the outside world, leave of the machine. -/

namespace Sys2Proof.Machine

open Sys2Proof

/-! ### Reads that are counted, or asked of the host -/

/-- The machine without its event counts and the messages that it has sent: all that a read of the front end changes. -/
def State.uncounted (s : State) : State :=
  { s with outbox := [], regs := { s.regs with tcount := Vector.replicate 64 (Vector.replicate 12 0) } }

@[simp] theorem State.countEvent_uncounted (s : State) (f sel n : Nat) : (s.countEvent f sel n).uncounted = s.uncounted := by
  unfold State.countEvent State.uncounted
  rfl

@[simp] theorem State.countMsc_uncounted (s : State) (f l : Nat) : (s.countMsc f l).uncounted = s.uncounted := by
  unfold State.countMsc
  split
  · split <;> simp
  · simp
  · rfl

@[simp] theorem State.walkVa_uncounted (s : State) (f p a : Nat) : (s.walkVa f p a).uncounted = s.uncounted := by
  unfold State.walkVa
  split
  · rfl
  · exact (State.foldl_keeps State.uncounted _ (fun t _ => t.countMsc_uncounted _ _) _ _).trans (s.countEvent_uncounted _ _ _)

@[simp] theorem State.walkVas_uncounted (s : State) (f p : Nat) (as : List Nat) : (s.walkVas f p as).uncounted = s.uncounted :=
  State.foldl_keeps State.uncounted _ (fun t q => t.walkVa_uncounted f p (4096 * q)) _ s

@[simp] theorem State.walkFront_uncounted (s : State) (w : Who) (a : DWord) (n : Nat) :
    (s.walkFront w a n).uncounted = s.uncounted := s.walkVas_uncounted _ _ _

@[simp] theorem State.askKeys_uncounted (s : State) (w : Who) (ks : List Nat) : (s.askKeys w ks).uncounted = s.uncounted :=
  State.foldl_keeps State.uncounted _ (fun t l => t.countMsc_uncounted w.fn l) ((ks.map lineOf).eraseDups) s

@[simp] theorem State.asksFront_uncounted (s : State) (w : Who) (rs : List (DWord × Nat)) :
    (s.asksFront w rs).uncounted = s.uncounted := by
  induction rs generalizing s with
  | nil => rfl
  | cons r rs ih => rw [State.asksFront, ih, State.askKeys_uncounted, State.walkFront_uncounted]

/-! ### The machine beside its memory -/

/-- The machine beside its memory: no bytes, no caches, no requests for the host's pages, no messages out, no event counts. -/
def State.desk (s : State) : State :=
  { s.uncounted with
    mem := [], hostDirty := [], remoteDirty := [], origins := [], ahead := [], hostOld := [], l1 := [], l2 := [], msc := [], ats := [],
    nextId := 0 }

theorem State.desk_of_uncounted {s t : State} (h : t.uncounted = s.uncounted) : t.desk = s.desk := by
  rw [State.desk, State.desk, h]

theorem State.grp_of_desk {s t : State} (h : t.desk = s.desk) : t.grp = s.grp := by
  have e := congrArg State.grp h
  exact e
theorem State.remote_of_desk {s t : State} (h : t.desk = s.desk) : t.remote = s.remote := by
  have e := congrArg State.remote h
  exact e

@[simp] theorem State.countEvent_desk (s : State) (f sel n : Nat) : (s.countEvent f sel n).desk = s.desk :=
  State.desk_of_uncounted (s.countEvent_uncounted f sel n)

@[simp] theorem State.countMsc_desk (s : State) (f l : Nat) : (s.countMsc f l).desk = s.desk :=
  State.desk_of_uncounted (s.countMsc_uncounted f l)

@[simp] theorem State.walkFront_desk (s : State) (w : Who) (a : DWord) (n : Nat) : (s.walkFront w a n).desk = s.desk :=
  State.desk_of_uncounted (s.walkFront_uncounted w a n)

@[simp] theorem State.askKeys_desk (s : State) (w : Who) (ks : List Nat) : (s.askKeys w ks).desk = s.desk :=
  State.desk_of_uncounted (s.askKeys_uncounted w ks)

@[simp] theorem State.asksFront_desk (s : State) (w : Who) (rs : List (DWord × Nat)) : (s.asksFront w rs).desk = s.desk :=
  State.desk_of_uncounted (s.asksFront_uncounted w rs)

/-! ### Lines of the caches -/

@[simp] theorem State.mscKeep_desk (s : State) (t l : Nat) : (s.mscKeep t l).desk = s.desk := by
  unfold State.mscKeep
  split
  · rfl
  · split
    · rfl
    · exact s.countEvent_desk _ _ _

@[simp] theorem State.mscWrite_desk (s : State) (t l : Nat) : (s.mscWrite t l).desk = s.desk := by
  unfold State.mscWrite
  rw [State.mscKeep_desk]
  split <;> simp

@[simp] theorem State.countWrite_desk (s : State) (t c l : Nat) : (s.countWrite t c l).desk = s.desk := by
  unfold State.countWrite
  split <;> simp

@[simp] theorem State.atMsc_desk (s : State) (t : Nat) (r : Bool) (ks : List Nat) : (s.atMsc t r ks).desk = s.desk :=
  State.foldl_keeps State.desk _ (fun u l => by split <;> simp) _ s

@[simp] theorem State.allocL2_desk (s : State) (x : L2Line) : (s.allocL2 x).desk = s.desk := by
  unfold State.allocL2
  split <;> rfl

@[simp] theorem State.fillL2_desk (s : State) (c l k p : Nat) : (s.fillL2 c l k p).desk = s.desk := by
  unfold State.fillL2
  dsimp only
  split
  · rfl
  · exact s.allocL2_desk _

@[simp] theorem State.wroteL2_desk (s : State) (c : Nat) (w : Want) (l : Nat) : (s.wroteL2 c w l).desk = s.desk := by
  unfold State.wroteL2
  dsimp only
  split
  · split <;> simp
  · simp

@[simp] theorem State.wroteLines_desk (s : State) (c : Nat) (w : Want) (ks : List Nat) :
    (s.wroteLines c w ks).desk = s.desk :=
  State.foldl_keeps State.desk _ (fun u l => u.wroteL2_desk c w l) _ s

/-! ### Bytes that are written -/

@[simp] theorem State.setBacking_desk (s : State) (k : Nat) (x : Byte) : (s.setBacking k x).desk = s.desk := by
  unfold State.setBacking
  split <;> rfl

@[simp] theorem State.writeL2Byte_desk (s : State) (c k : Nat) (x : Byte) : (s.writeL2Byte c k x).desk = s.desk :=
  s.setBacking_desk k x

@[simp] theorem State.writeL1Byte_desk (s : State) (c : Nat) (w : Want) (k : Nat) (x : Byte) :
    (s.writeL1Byte c w k x).desk = s.desk := by
  unfold State.writeL1Byte
  split <;> rfl

@[simp] theorem State.storeByte_desk (s : State) (c : Nat) (thru : Bool) (w : Want) (k : Nat) (x : Byte) :
    (s.storeByte c thru w k x).desk = s.desk := by
  unfold State.storeByte
  split
  · split
    · exact s.writeL2Byte_desk (clusterOfCore c) k x
    · exact s.writeL1Byte_desk c w k x
  · rfl

@[simp] theorem State.storeCells_desk (s : State) (thru : Bool) (w : Want) (cs : List Host.Cell) :
    (s.storeCells thru w cs).desk = s.desk := by
  induction cs generalizing s with
  | nil => rfl
  | cons c cs ih => rw [State.storeCells, ih, State.storeByte_desk]

@[simp] theorem State.storeLines_desk (s : State) (thru : Bool) (cp : Nat) (cs : List Host.Cell) :
    (s.storeLines thru cp cs).desk = s.desk := by
  unfold State.storeLines
  rw [State.storeCells_desk]
  split <;> simp

@[simp] theorem State.writeCoherent_desk (s : State) (k : Nat) (xs : List Byte) : (s.writeCoherent k xs).desk = s.desk := by
  induction xs generalizing s k with
  | nil => rfl
  | cons x xs ih =>
    rw [State.writeCoherent, ih]
    exact s.setBacking_desk k x

@[simp] theorem State.throughHost_desk (s : State) (k : Nat) (x : Byte) : (s.throughHost k x).desk = s.desk := by
  unfold State.throughHost
  split <;> rfl

@[simp] theorem State.writeKeys_desk (s : State) (ks : List Nat) (xs : List Byte) : (s.writeKeys ks xs).desk = s.desk := by
  induction ks generalizing s xs with
  | nil => cases xs <;> rfl
  | cons k ks ih =>
    cases xs with
    | nil => rfl
    | cons x xs => rw [State.writeKeys, ih, State.throughHost_desk, State.writeCoherent_desk]

@[simp] theorem State.writePhys_desk (s : State) (a : Nat) (xs : List Byte) : (s.writePhys a xs).desk = s.desk := by
  induction xs generalizing s a with
  | nil => rfl
  | cons x xs ih =>
    rw [State.writePhys, ih]
    split <;> simp

@[simp] theorem State.sendHost_desk (s : State) (f p : Nat) (cs : List Host.Cell) : (s.sendHost f p cs).desk = s.desk := rfl

theorem State.writeVirt_desk {s t : State} {w : Who} {a : DWord} {xs : List Byte} (h : s.writeVirt w a xs = .ok t) :
    t.desk = s.desk := by
  unfold State.writeVirt at h
  split at h
  · cases h
    simp
  · cases h

/-! ### Releases and acquires -/

@[simp] theorem State.writeBackBytes_desk (s : State) (c : Nat) (l : L1Line) (os : List Nat) :
    (s.writeBackBytes c l os).desk = s.desk := by
  induction os generalizing s with
  | nil => rfl
  | cons o os ih =>
    rw [State.writeBackBytes, ih]
    split <;> simp

@[simp] theorem State.writeBackLine_desk (s : State) (c : Nat) (l : L1Line) : (s.writeBackLine c l).desk = s.desk := by
  unfold State.writeBackLine
  split
  · rfl
  · rw [State.writeBackBytes_desk]
    split <;> simp

@[simp] theorem State.writeBackAll_desk (s : State) (c : Nat) (ls : List L1Line) : (s.writeBackAll c ls).desk = s.desk := by
  induction ls generalizing s with
  | nil => rfl
  | cons l ls ih =>
    rw [State.writeBackAll, ih]
    split <;> simp

@[simp] theorem State.cleanCore_desk (s : State) (c : Nat) : (s.cleanCore c).desk = s.desk := s.writeBackAll_desk c s.l1

@[simp] theorem State.invalidateStale_desk (s : State) (c n : Nat) : (s.invalidateStale c n).desk = s.desk := by
  unfold State.invalidateStale
  split <;> rfl

@[simp] theorem State.flushHost_desk (s : State) : s.flushHost.desk = s.desk := rfl

@[simp] theorem State.noteOrigin_desk (s : State) (o : Origin) (ks : List Nat) : (s.noteOrigin o ks).desk = s.desk := rfl

@[simp] theorem State.releaseAt_desk (s : State) (c n : Nat) : (s.releaseAt c n).desk = s.desk := by
  unfold State.releaseAt
  dsimp only
  split
  · rfl
  · split <;> simp

/-! ### Requests to other devices and to the host -/

@[simp] theorem State.askFront_desk (s : State) (f p v : Nat) : (s.askFront f p v).desk = s.desk := by
  unfold State.askFront
  split
  · rfl
  · exact State.countEvent_desk _ _ _ _

/-! ### Lines that are dropped, and messages out -/

@[simp] theorem State.dropOtherL2_desk (s : State) (c l : Nat) : (s.dropOtherL2 c l).desk = s.desk := rfl


@[simp] theorem State.cleanLine_desk (s : State) (c l : Nat) : (s.cleanLine c l).desk = s.desk := by
  unfold State.cleanLine
  split
  · exact s.writeBackLine_desk _ _
  · rfl

@[simp] theorem State.evictL1_desk (s : State) (c l : Nat) : (s.evictL1 c l).desk = s.desk := s.cleanLine_desk c l

@[simp] theorem State.keepPrivate_desk (s : State) (uid : Nat) : (s.keepPrivate uid).desk = s.desk :=
  State.foldl_keeps State.desk _ (fun t (l : L1Line) => t.evictL1_desk l.core l.line) _ s

@[simp] theorem State.send_desk (s : State) (m : OutMsg) : (s.send m).desk = s.desk := rfl

@[simp] theorem State.dropFailed_desk (s : State) (w : Who) : (s.dropFailed w).desk = s.desk := rfl

end Sys2Proof.Machine
end

section
/-! PROOFS. PARKCTL (15_system_and_traps.md R279, R280). -/

namespace Sys2Proof.Machine

open Sys2Proof

/-! ### The arms of the event rows -/

theorem exec_parkctlResumeInstruction (s : State) : exec .parkctlResumeInstruction s = execParkctlResumeInstruction s := rfl
theorem exec_parkctlResumeHandler (s : State) : exec .parkctlResumeHandler s = execParkctlResumeHandler s := rfl
theorem exec_parkctlKillGroup (s : State) : exec .parkctlKillGroup s = execParkctlKillGroup s := rfl
theorem exec_parkctlKillTeam (s : State) : exec .parkctlKillTeam s = execParkctlKillTeam s := rfl
theorem exec_parkctlKillBand (s : State) : exec .parkctlKillBand s = execParkctlKillBand s := rfl
theorem exec_parkctlKillContext (s : State) : exec .parkctlKillContext s = execParkctlKillContext s := rfl

/-! ### An action of PARKCTL (R280) -/

/-- A write of PKCMD that starts the action `op`, by a function that may: the part is up (R363), GO reads 0, and the context is one of
the function's own. -/
structure State.MayPark (s : State) (fn : Nat) (v : DWord) (op : Nat) : Prop where
  ev : s.ev = .fnReg fn v
  up : s.isUp = true
  go : v.getLsbD 63 = true
  fn_lt : fn < 64
  idle : (s.fnRegs fn).pkcmd.getLsbD 63 = false
  owned : fn = 0 ∨ ∃ c, s.ctxNow (parkTarget (s.fnRegs fn).pktgt v).ctx = some c ∧ s.ownsPasid fn c.pasid = true
  act : fld v 60 3 = op

section

variable {s : State} {fn op : Nat} {v : DWord}

/-- Such a write carries the action out on the target and ends with its status. -/
theorem parkWrite_acts (row : String) (k : ParkTarget → State → Option State × Nat) (h : s.MayPark fn v op) :
    parkWrite row op s k = .next (((k (parkTarget (s.fnRegs fn).pktgt v) s).1.getD s).endPark fn v
      (k (parkTarget (s.fnRegs fn).pktgt v) s).2) := by
  have howned : (decide (fn = 0) ||
      ((s.ctxNow (parkTarget (s.fnRegs fn).pktgt v).ctx).map (fun c => s.ownsPasid fn c.pasid)).getD false) = true := by
    rcases h.owned with h0 | ⟨c, hc, hown⟩
    · simp [h0]
    · simp [hc, hown]
  simp only [parkWrite, h.ev, h.up, h.go, h.act, h.fn_lt, h.idle, howned, decide_true, Bool.and_self, Bool.not_true, if_true,
    Bool.false_eq_true, if_false]
  generalize k _ s = r
  obtain ⟨r, st⟩ := r
  cases r <;> rfl

variable {t : ParkTarget} {g : Group} {nest : Bool} {f : State → State}

theorem State.parkResume_parked (hg : s.parkGroup t = some g) (hparked : g.status = .parked)
    (hnest : (nest && g.trapc.getLsbD 30) = false) : s.parkResume t nest f = (some (s.asGroup g.id.uid f), 0) := by
  simp only [State.parkResume, hg, hparked, hnest, ne_eq, not_true_eq_false, Bool.false_eq_true, if_false]

theorem State.parkResume_notParked (hg : s.parkGroup t = some g) (hruns : g.status ≠ .parked) :
    s.parkResume t nest f = (none, 3) := by
  simp [State.parkResume, hg, hruns]

/-- A trap that was raised in the handler is not delivered to it. -/
theorem State.parkResume_nested (hg : s.parkGroup t = some g) (hparked : g.status = .parked) (hnest : g.trapc.getLsbD 30 = true) :
    s.parkResume t true f = (none, 5) := by
  simp [State.parkResume, hg, hparked, hnest]

end

end Sys2Proof.Machine

open Sys2Proof Sys2Proof.Machine

/-- Settles O46: each row of PARKCTL is the one action that it names, on what the target names. -/
theorem parkctlActs : Obligations.ParkctlActs := by
  unfold Obligations.ParkctlActs
  rintro s fn v t hev hup hgo hfn hidle rfl howned
  have hmay : ∀ op, fld v 60 3 = op → s.MayPark fn v op := fun op hop => ⟨hev, hup, hgo, hfn, hidle, howned, hop⟩
  refine ⟨?instruction, ?handler, ?group, ?team, ?band, ?context⟩
  case instruction =>
    intro hop g hg
    rw [exec_parkctlResumeInstruction, execParkctlResumeInstruction, parkWrite_acts _ _ (hmay 0 hop)]
    refine ⟨fun hparked => ?_, fun hruns => ?_⟩
    · rw [State.parkResume_parked hg hparked rfl, Option.getD_some]
    · rw [State.parkResume_notParked hg hruns, Option.getD_none]
  case handler =>
    intro hop g hg hparked
    rw [exec_parkctlResumeHandler, execParkctlResumeHandler, parkWrite_acts _ _ (hmay 1 hop)]
    refine ⟨fun hnest => ?_, fun hnest => ?_⟩
    · rw [State.parkResume_parked hg hparked (Bool.and_eq_false_imp.2 fun _ => hnest), Option.getD_some]
    · rw [State.parkResume_nested hg hparked hnest, Option.getD_none]
  case group =>
    intro hop
    rw [exec_parkctlKillGroup, execParkctlKillGroup, parkWrite_acts _ _ (hmay 2 hop)]
    refine ⟨fun g hg => ?_, fun hnone => ?_⟩
    · simp only [hg, Option.getD_some]
    · simp only [hnone, Option.getD_none]
  case team =>
    intro hop b hb
    rw [exec_parkctlKillTeam, execParkctlKillTeam, parkWrite_acts _ _ (hmay 3 hop)]
    simp only [hb, Option.getD_some]
  case band =>
    intro hop b hb
    rw [exec_parkctlKillBand, execParkctlKillBand, parkWrite_acts _ _ (hmay 4 hop)]
    simp only [hb, Option.getD_some]
  case context =>
    intro hop c hc
    rw [exec_parkctlKillContext, execParkctlKillContext, parkWrite_acts _ _ (hmay 5 hop)]
    simp only [hc, Option.getD_some]
end

section
/-! PROOFS. Memory at reset (19_bring_up_and_health.md R361), and the registers that have an owner (14_harvest_regions.md R252,
17_translation_and_tenancy.md R335, R337, 18_package_host_fabric.md R346, R347, R351, R356, 19_bring_up_and_health.md R366). -/

namespace Sys2Proof.Machine

open Sys2Proof

/-! ### The owner's writes, and those of others (R366) -/

theorem State.ownWrite_of_owner {s : State} {m : Master} {k : State → State} (h : s.owns m = true) : s.ownWrite m k = k s := by
  rw [State.ownWrite, if_pos h]

/-- A write of a master that is not the owner is counted. -/
theorem State.ownWrite_of_other {s : State} {m : Master} {k : State → State} (h : s.owns m = false) (hm : ownerCode m ≠ 0) :
    s.ownWrite m k = s.countOwnErr := by
  rw [State.ownWrite, if_neg (by simp [h]), if_neg hm]

/-- The masters of the owner registers write in the PF's block. -/
theorem masterFn_of_ownerCode {m : Master} (h : ownerCode m ≠ 0) : masterFn m = 0 := by
  match m with
  | .bmc => rfl
  | .fn 0 => rfl
  | .fn (n + 1) => exact absurd rfl h

theorem ownerCode_of_owns {s : State} {m : Master} (h : s.owns m = true) : ownerCode m ≠ 0 := by
  rw [State.owns, Bool.and_eq_true, decide_eq_true_eq] at h
  exact h.1

/-- The code of a master fits OWNER. -/
theorem ownerCode_lt (m : Master) : ownerCode m < 3 := by
  match m with
  | .bmc => decide
  | .fn 0 => decide
  | .fn (n + 1) => exact Nat.zero_lt_succ 2

theorem State.countOwnErr_eq (s : State) : s.countOwnErr = { s with regs := { s.regs with
    ownerr := if s.regs.ownerr = 0xFFFFFFFF then 0xFFFFFFFF else s.regs.ownerr + 1 } } := by
  exact congrArg (fun x => ({ s with regs := { s.regs with ownerr := x } } : State)) (ite_congr rfl id fun _ => rfl)

/-! ### Rows that take an owner register -/

theorem exec_registerWrite (s : State) : exec .registerWrite s = execRegisterWrite s := rfl
theorem exec_tcselWrite (s : State) : exec .tcselWrite s = execTcselWrite s := rfl
theorem exec_classcfgWrite (s : State) : exec .classcfgWrite s = execClasscfgWrite s := rfl
theorem exec_vfapszWrite (s : State) : exec .vfapszWrite s = execVfapszWrite s := rfl
theorem exec_frtrootWrite (s : State) : exec .frtrootWrite s = execFrtrootWrite s := rfl
theorem exec_finrootWrite (s : State) : exec .finrootWrite s = execFinrootWrite s := rfl
theorem exec_worldRegisterWrite (s : State) : exec .worldRegisterWrite s = execWorldRegisterWrite s := rfl

section

variable {s : State} {m : Master} {v : DWord}

theorem execClasscfgWrite_eq (hev : s.ev = .master m v) (hup : s.isUp = true) : execClasscfgWrite s =
    .next (s.ownWrite m (fun t => t.onRegs (fun r => { r with classcfg := classcfgNext r.classcfg (loHalf v) }))) := by
  simp only [execClasscfgWrite, hev, hup, if_true]

theorem execVfapszWrite_eq (hev : s.ev = .master m v) (hup : s.isUp = true) : execVfapszWrite s =
    .next (s.ownWrite m (fun t => t.onRegs (fun r =>
      if r.vfEnable || !(decide (30 ≤ fld v 0 6) && decide (fld v 0 6 ≤ 46)) then r
      else { r with vfapsz := BitVec.ofNat 64 (fld v 0 6) }))) := by
  simp only [execVfapszWrite, hev, hup, if_true]

theorem execFrtrootWrite_eq (hev : s.ev = .master m v) (hup : s.isUp = true) : execFrtrootWrite s =
    .next (s.ownWrite m (fun t => { t.onRegs (fun r => { r with frtroot := v &&& rootMask }) with routes := [] })) := by
  simp only [execFrtrootWrite, hev, hup, if_true]

theorem execFinrootWrite_eq (hev : s.ev = .master m v) (hup : s.isUp = true) : execFinrootWrite s =
    .next (s.ownWrite m (fun t => { t.onRegs (fun r => { r with finroot := v &&& rootMask }) with
      windows := t.readWindows (v &&& rootMask) })) := by
  simp only [execFinrootWrite, hev, hup, if_true]

theorem execTcselWrite_eq {off size : Nat} (hev : s.ev = .reg m off size v) (hup : s.isUp = true) (hsize : size = 4 ∨ size = 8)
    (hlo : 0x240 ≤ off) (hhi : off < 0x250) (halign : off % size = 0) : execTcselWrite s =
    .next (s.ownWrite m (fun t => t.onRegs (fun r => r.setTcsels (off - 0x240) (natBytes size v.toNat)))) := by
  have hsize' : (decide (size = 4) || decide (size = 8)) = true := by simpa using hsize
  simp only [execTcselWrite, hev, hup, hsize', hlo, hhi, halign, decide_true, Bool.and_self, if_true]

/-- What an event row answers takes effect in a register write, whose own event stays. -/
theorem State.viaRow_of_next {a : EvArg} {row : State → Out} {t : State} (h : row { s with ev := a } = .next t) :
    s.viaRow a row = { t with ev := s.ev } := by
  rw [State.viaRow, h]

/-- A row whose owner register another master writes only counts. -/
theorem State.viaRow_of_other {a : EvArg} {row : State → Out} {k : State → State}
    (hrow : row { s with ev := a } = .next (({ s with ev := a } : State).ownWrite m k)) (h : s.owns m = false)
    (hm : ownerCode m ≠ 0) : s.viaRow a row = s.countOwnErr := by
  have hother : ({ s with ev := a } : State).ownWrite m k = ({ s with ev := a } : State).countOwnErr :=
    State.ownWrite_of_other (s := { s with ev := a }) h hm
  exact (State.viaRow_of_next (hrow.trans (congrArg _ hother))).trans rfl

end

/-! ### CLASSCFG (R252) -/

/-- A field of a sum of fields. -/
theorem extractLsb'_ofNat_fields {a b c : Nat} (ha : a < 32) (hb : b < 64) (hc : c < 128) :
    let w : Word := BitVec.ofNat 32 (a + b * 2 ^ 5 + c * 2 ^ 11)
    (w.extractLsb' 0 5).toNat = a ∧ (w.extractLsb' 5 6).toNat = b ∧ (w.extractLsb' 11 7).toNat = c ∧ w.extractLsb' 18 14 = 0 := by
  refine ⟨?_, ?_, ?_, BitVec.eq_of_toNat_eq (y := 0#14) ?_⟩ <;>
    simp only [BitVec.extractLsb'_toNat, BitVec.toNat_ofNat, Nat.shiftRight_eq_div_pow] <;> omega

/-- A field of CLASSCFG after a write holds the new value where that lies in its range, and the old one elsewhere. -/
theorem classField_eq (old new : Word) (lo len a b : Nat) :
    ∃ x, classField old new lo len a b = x * 2 ^ lo ∧ x < 2 ^ len ∧
      x = if a ≤ (new.extractLsb' lo len).toNat ∧ (new.extractLsb' lo len).toNat ≤ b then (new.extractLsb' lo len).toNat
        else (old.extractLsb' lo len).toNat := by
  refine ⟨_, rfl, ?_, rfl⟩
  split <;> exact BitVec.isLt _

theorem classcfgNext_fields (old new : Word) :
    let a (x : Word) := (x.extractLsb' 0 5).toNat
    let b (x : Word) := (x.extractLsb' 5 6).toNat
    let c (x : Word) := (x.extractLsb' 11 7).toNat
    a (classcfgNext old new) = (if 8 ≤ a new ∧ a new ≤ 16 then a new else a old) ∧
    b (classcfgNext old new) = (if 16 ≤ b new ∧ b new ≤ 32 then b new else b old) ∧
    c (classcfgNext old new) = (if c new ≤ 100 then c new else c old) ∧
    (classcfgNext old new).extractLsb' 18 14 = 0 := by
  obtain ⟨x, hx, hxlt, hxval⟩ := classField_eq old new 0 5 8 16
  obtain ⟨y, hy, hylt, hyval⟩ := classField_eq old new 5 6 16 32
  obtain ⟨z, hz, hzlt, hzval⟩ := classField_eq old new 11 7 0 100
  have hnext : classcfgNext old new = BitVec.ofNat 32 (x + y * 2 ^ 5 + z * 2 ^ 11) := by
    rw [classcfgNext, hx, hy, hz, Nat.pow_zero, Nat.mul_one]
  obtain ⟨ha, hb, hc, hrest⟩ := extractLsb'_ofNat_fields hxlt hylt hzlt
  simp only [hnext]
  exact ⟨ha.trans hxval, hb.trans hyval, hc.trans (by simpa using hzval), hrest⟩

/-! ### TCSEL (R335) -/

/-- What TCSEL holds of a byte: 13 to 255 read as 0. -/
def tcselByte (x : Byte) : Byte := if x.toNat < 13 then x else 0

theorem PartRegs.setTcsel_tcsel (r : PartRegs) (k j : Nat) (x : Byte) (hj : j < 12) :
    (r.setTcsel k x).tcsel[j]? = if k = j then some (tcselByte x) else r.tcsel[j]? := by
  unfold PartRegs.setTcsel
  split
  · rw [Vector.getElem?_setIfInBounds, if_pos (show k < 12 from ‹_›)]
    rfl
  · rw [if_neg (by omega)]

theorem PartRegs.setTcsel_tcount (r : PartRegs) (k n : Nat) (x : Byte) :
    (r.setTcsel k x).tcount[n]? = r.tcount[n]?.map (fun w => if k < 12 then w.setIfInBounds k 0 else w) := by
  unfold PartRegs.setTcsel
  split
  · exact Vector.getElem?_map ..
  · simp

/-- Bytes from `k` on leave the bytes and the counters below. -/
theorem PartRegs.setTcsels_below (xs : List Byte) (r : PartRegs) (k j n : Nat) (hj : j < k) (hj12 : j < 12) :
    (r.setTcsels k xs).tcsel[j]? = r.tcsel[j]? ∧
      (r.setTcsels k xs).tcount[n]?.map (fun w => w[j]?) = r.tcount[n]?.map (fun w => w[j]?) := by
  induction xs generalizing r k with
  | nil => exact ⟨rfl, rfl⟩
  | cons x xs ih =>
    obtain ⟨hsel, hcount⟩ := ih (r.setTcsel k x) (k + 1) (Nat.lt_succ_of_lt hj)
    have hne : k ≠ j := Nat.ne_of_gt hj
    refine ⟨hsel.trans ((r.setTcsel_tcsel k j x hj12).trans (if_neg hne)), hcount.trans ?_⟩
    rw [PartRegs.setTcsel_tcount, Option.map_map]
    refine congrArg (fun f => Option.map f r.tcount[n]?) (funext fun w => ?_)
    dsimp only [Function.comp]
    split
    · exact Vector.getElem?_setIfInBounds_ne hne
    · rfl

/-- Each byte of a write of TCSEL is taken on its own, and clears its counter of every tenant. -/
theorem PartRegs.setTcsels_written (xs : List Byte) (r : PartRegs) (k i : Nat) {x : Byte} (hx : xs[i]? = some x) (hlt : k + i < 12) :
    (r.setTcsels k xs).tcsel[k + i]? = some (tcselByte x) ∧
      ∀ (n : Nat) (w : Vector DWord 12), (r.setTcsels k xs).tcount[n]? = some w → w[k + i]? = some 0 := by
  induction xs generalizing r k i with
  | nil => cases hx
  | cons y ys ih =>
    cases i with
    | zero =>
      cases hx
      refine ⟨?_, fun n w hw => ?_⟩
      · rw [PartRegs.setTcsels, (PartRegs.setTcsels_below ys _ (k + 1) (k + 0) 0 (Nat.lt_succ_self k) hlt).1,
          PartRegs.setTcsel_tcsel _ _ _ _ hlt, if_pos (Nat.add_zero k).symm]
      · have hcount := (PartRegs.setTcsels_below ys (r.setTcsel k x) (k + 1) (k + 0) n (Nat.lt_succ_self k) hlt).2
        rw [PartRegs.setTcsels] at hw
        rw [hw, PartRegs.setTcsel_tcount, Option.map_map] at hcount
        obtain ⟨w0, -, hw0⟩ := Option.map_eq_some_iff.1 hcount.symm
        refine hw0.symm.trans ?_
        simp [show k < 12 from hlt]
    | succ i =>
      have := ih (r.setTcsel k y) (k + 1) i hx (by omega)
      rwa [show k + 1 + i = k + (i + 1) by omega] at this

theorem natBytes_getElem? (n x i : Nat) (hi : i < n) : (natBytes n x)[i]? = some (BitVec.ofNat 8 (x / 256 ^ i)) := by
  induction n generalizing x i with
  | zero => cases hi
  | succ n ih =>
    cases i with
    | zero => simp [natBytes]
    | succ i => rw [natBytes, List.getElem?_cons_succ, ih _ _ (Nat.lt_of_succ_lt_succ hi), Nat.div_div_eq_div_mul, Nat.pow_succ']

theorem tcselByte_ofNat (y : Nat) : tcselByte (BitVec.ofNat 8 y) = BitVec.ofNat 8 (if y % 256 < 13 then y else 0) := by
  rw [tcselByte, BitVec.toNat_ofNat]
  split <;> rfl

/-! ### Control blocks (R347) -/

section

variable {s : State} {m : Master} {off size : Nat} {v : DWord}

theorem execRegisterWrite_eq (hev : s.ev = .reg m off size v) (hm : masterFn m < 64) :
    execRegisterWrite s = .next (s.regWrite m off size v) := by
  simp only [execRegisterWrite, hev, hm, if_true]

/-- An access of another size or alignment is reported and dropped. -/
theorem State.regWrite_unsupported (h : accessOk off size = false) :
    s.regWrite m off size v = s.send (.unsupported (masterFn m)) := by
  simp only [State.regWrite, h, Bool.not_false, if_true]

/-- The registers that every function has stand below 0x44. -/
theorem State.commonReg_above (s : State) (fn : Nat) (h : 0x44 ≤ off) : s.commonReg fn off = none := by
  unfold State.commonReg
  split
  case h_10 => rfl
  all_goals omega

theorem State.putReg_part {x : DWord} (hm : masterFn m = 0) (h : 0x44 ≤ off) : s.putReg m off x = s.putPart m off x := by
  unfold State.putReg
  split
  case h_7 => exact if_pos hm
  all_goals omega

/-- A write that the part serves: aligned, the part up, and neither in the MSI-X table nor in TCSEL. -/
structure State.ServedWrite (s : State) (m : Master) (off size : Nat) : Prop where
  up : s.isUp = true
  size_eq : size = 4 ∨ size = 8
  align : off % size = 0
  fn : masterFn m = 0
  above : 0x44 ≤ off
  below : off < 0x10000
  apart : off < 0x240 ∨ 0x250 ≤ off

theorem accessOk_of_aligned (hsize : size = 4 ∨ size = 8) (halign : off % size = 0) : accessOk off size = true := by
  simpa [accessOk, halign] using hsize

/-- What is left of a write that the part serves: the value goes to the register at its offset, or to the upper half of the one before. -/
theorem State.ServedWrite.eq (h : s.ServedWrite m off size) : s.regWrite m off size v =
    match s.partReg off with
    | some (n, old) =>
      if size = 4 && n = 8 then s.putPart m off (pairOf (loHalf v) (hiHalf old))
      else if n = 4 then s.putPart m off (wordData (loHalf v)) else s.putPart m off v
    | none =>
      match (if off % 8 = 4 && decide (size = 4) then s.regAt 0 (off - 4) else none) with
      | some (8, old) => s.putReg m (off - 4) (pairOf (loHalf old) (loHalf v))
      | _ => s := by
  have hmsix : isMsix 0 off = false := by
    have := h.below
    simp only [isMsix, if_true, Bool.and_eq_false_iff, decide_eq_false_iff_not]
    omega
  have hsel : (decide (0x240 ≤ off) && decide (off < 0x250)) = false := by
    have := h.apart
    simp only [Bool.and_eq_false_iff, decide_eq_false_iff_not]
    omega
  have hserves : s.serves off = true := by rw [State.serves, h.up, Bool.true_or]
  have hreg : s.regAt 0 off = s.partReg off := by rw [State.regAt, s.commonReg_above 0 h.above]; rfl
  simp only [State.regWrite, accessOk_of_aligned h.size_eq h.align, hserves, h.fn, hmsix, hsel, hreg, State.putReg_part h.fn h.above,
    Bool.not_true, Bool.false_eq_true, if_false, decide_true, Bool.true_and] <;> rfl

end

/-! ### The owner registers of the map (R347, R366) -/

/-- An owner register of 8 bytes stands at the offset, TCSEL apart. -/
def OwnerWide (off : Nat) : Prop :=
  off ∈ [0x200, 0x208, 0x210, 0x220, 0x228, 0x230, 0x250, 0x258] ∨
  (off % 8 = 0 ∧ (0x280 ≤ off ∧ off < 0x2C0 ∨ 0x408 ≤ off ∧ off < 0x800 ∨ 0x900 ≤ off ∧ off < 0x9C0))

/-- An owner register of 4 bytes stands at the offset, OWNCTL apart. -/
def OwnerNarrow (off : Nat) : Prop := off ∈ [0x218, 0x238] ∨ (off % 8 = 0 ∧ 0x800 ≤ off ∧ off < 0x8C0)

/-- The registers of the map by name, and the upper halves of those of 8 bytes. -/
theorem owner_of_named : ∀ off ∈ [0x200, 0x208, 0x210, 0x220, 0x228, 0x230, 0x250, 0x258, 0x204, 0x20C, 0x214, 0x224, 0x22C, 0x234,
    0x254, 0x25C, 0x218, 0x238], (OwnerWide off ∨ OwnerNarrow off) ∨ (OwnerWide (off - 4) ∧ off % 8 = 4) := by
  unfold OwnerWide OwnerNarrow
  decide

theorem named_bounds : ∀ off ∈ [0x200, 0x208, 0x210, 0x220, 0x228, 0x230, 0x250, 0x258, 0x204, 0x20C, 0x214, 0x224, 0x22C, 0x234,
    0x254, 0x25C, 0x218, 0x238], 0x200 ≤ off ∧ off < 0x260 := by
  decide

theorem owner_of_indexed {off : Nat} (halign : off % 4 = 0) (h : (0x280 ≤ off ∧ off < 0x2C0) ∨ (0x408 ≤ off ∧ off < 0x800) ∨
    (0x800 ≤ off ∧ off < 0x8C0 ∧ off % 8 = 0) ∨ (0x900 ≤ off ∧ off < 0x9C0)) :
    (OwnerWide off ∨ OwnerNarrow off) ∨ (OwnerWide (off - 4) ∧ off % 8 = 4) := by
  by_cases h8 : off % 8 = 0
  · by_cases hport : 0x800 ≤ off ∧ off < 0x8C0
    · exact .inl (.inr (.inr ⟨h8, hport⟩))
    · exact .inl (.inl (.inr ⟨h8, by omega⟩))
  · exact .inr ⟨.inr ⟨by omega, by omega⟩, by omega⟩

theorem isArray_iff (off : Nat) : isArray off = true ↔
    0x280 ≤ off ∧ off < 0x2C0 ∨ 0x400 < off ∧ off < 0x8C0 ∨ 0x900 ≤ off ∧ off < 0x9C0 := by
  simp [isArray, or_assoc]

section

variable {s : State} {m : Master} {off size : Nat} {v : DWord}

/-- At an offset of an indexed register the map has that register. -/
theorem State.partReg_array (h : isArray off = true) : s.partReg off = s.arrayReg off := by
  unfold State.partReg
  split
  case h_19 => rfl
  all_goals exact absurd h (by decide)

theorem State.partReg_wide (h : OwnerWide off) : ∃ old, s.partReg off = some (8, old) := by
  rcases h with h | ⟨halign, h⟩
  · simp only [List.mem_cons, List.not_mem_nil, or_false] at h
    rcases h with rfl | rfl | rfl | rfl | rfl | rfl | rfl | rfl <;> exact ⟨_, rfl⟩
  · rw [State.partReg_array ((isArray_iff off).2 (by omega)), State.arrayReg]
    simp only [halign, ne_eq, not_true_eq_false, if_false]
    rw [if_neg (by omega)]
    rcases h with h | h | h
    · exact ⟨_, if_pos h⟩
    · rw [if_neg (by omega)]
      by_cases hlow : off < 0x600
      · exact ⟨_, if_pos ⟨by omega, hlow⟩⟩
      · exact ⟨_, (if_neg (by omega)).trans (if_pos (by omega))⟩
    · rw [if_neg (by omega), if_neg (by omega), if_neg (by omega), if_neg (by omega)]
      exact ⟨_, if_pos h⟩

theorem State.partReg_narrow (h : OwnerNarrow off) : ∃ old, s.partReg off = some (4, old) := by
  rcases h with h | ⟨halign, h⟩
  · simp only [List.mem_cons, List.not_mem_nil, or_false] at h
    rcases h with rfl | rfl <;> exact ⟨_, rfl⟩
  · rw [State.partReg_array ((isArray_iff off).2 (by omega)), State.arrayReg]
    simp only [halign, ne_eq, not_true_eq_false, if_false]
    rw [if_neg (by omega), if_neg (by omega), if_neg (by omega), if_neg (by omega)]
    exact ⟨_, if_pos h⟩

/-- At the upper half of a register of 8 bytes the map names none. -/
theorem State.partReg_upper (h : OwnerWide (off - 4)) (hlo : 4 ≤ off) (halign : off % 8 = 4) : s.partReg off = none := by
  have hnone : s.arrayReg off = none := by
    rw [State.arrayReg]
    exact if_pos (by omega)
  unfold State.partReg
  split
  case h_19 => exact hnone
  case h_2 => exact absurd h (by unfold OwnerWide; decide)
  all_goals omega

/-- An owner register that a master other than the owner writes takes nothing: the write is counted. -/
theorem State.putPart_of_other (h : OwnerWide off ∨ OwnerNarrow off) (hup : s.isUp = true) (hown : s.owns m = false)
    (hm : ownerCode m ≠ 0) : s.putPart m off v = s.countOwnErr := by
  have hvia : ∀ {row : State → Out} {k : State → State},
      row { s with ev := .master m v } = .next (({ s with ev := .master m v } : State).ownWrite m k) →
      s.viaRow (.master m v) row = s.countOwnErr := fun hrow => State.viaRow_of_other hrow hown hm
  have harray : isArray off = true → s.putPart m off v = s.countOwnErr := by
    intro h
    unfold State.putPart
    split
    case h_16 => rw [if_pos h, State.ownWrite_of_other hown hm]
    all_goals exact absurd h (by decide)
  rcases h with (h | h) | h | h
  · simp only [List.mem_cons, List.not_mem_nil, or_false] at h
    rcases h with rfl | rfl | rfl | rfl | rfl | rfl | rfl | rfl
    case inl | inr.inl | inr.inr.inl => simp only [State.putPart, State.ownWrite_of_other hown hm]
    case inr.inr.inr.inl => exact hvia (execVfapszWrite_eq rfl hup)
    case inr.inr.inr.inr.inl | inr.inr.inr.inr.inr.inl => simp only [State.putPart, State.ownWrite_of_other hown hm]
    case inr.inr.inr.inr.inr.inr.inl => exact hvia (execFrtrootWrite_eq rfl hup)
    case inr.inr.inr.inr.inr.inr.inr => exact hvia (execFinrootWrite_eq rfl hup)
  · exact harray ((isArray_iff off).2 (by omega))
  · simp only [List.mem_cons, List.not_mem_nil, or_false] at h
    rcases h with rfl | rfl
    · exact hvia (execClasscfgWrite_eq rfl hup)
    · simp only [State.putPart, State.ownWrite_of_other hown hm]
  · exact harray ((isArray_iff off).2 (by omega))

/-- A write of an owner register, or of a half of one, by a master that is not the owner is counted. -/
theorem State.ServedWrite.counts (h : s.ServedWrite m off size) (hown : s.owns m = false) (hm : ownerCode m ≠ 0)
    (hreg : (OwnerWide off ∨ OwnerNarrow off) ∨ (OwnerWide (off - 4) ∧ off % 8 = 4)) : s.regWrite m off size v = s.countOwnErr := by
  rw [h.eq]
  rcases hreg with hreg | ⟨hreg, halign⟩
  · have hput := fun x => State.putPart_of_other (v := x) hreg h.up hown hm
    obtain ⟨n, old, hreg⟩ : ∃ n old, s.partReg off = some (n, old) :=
      hreg.elim (fun h => ⟨8, State.partReg_wide h⟩) (fun h => ⟨4, State.partReg_narrow h⟩)
    simp only [hreg, hput, ite_self]
  · have hsize : size = 4 := by
      have := h.align
      rcases h.size_eq with rfl | rfl <;> omega
    have hlow : 0x44 ≤ off - 4 := by
      rcases hreg with hin | ⟨-, hin⟩
      · simp only [List.mem_cons, List.not_mem_nil, or_false] at hin
        omega
      · omega
    obtain ⟨old, hold⟩ := State.partReg_wide (s := s) hreg
    have hat : s.regAt 0 (off - 4) = some (8, old) := by rw [State.regAt, s.commonReg_above 0 hlow]; exact hold
    simp only [State.partReg_upper hreg (by omega) halign, halign, hsize, decide_true, Bool.and_self, if_true, hat,
      State.putReg_part h.fn hlow, State.putPart_of_other (.inl hreg) h.up hown hm]

/-- A write to OWNCTL that asks for neither CLAIM nor ACCEPT is counted where its master is not the owner. -/
theorem State.writeOwnctl_of_other {w : Word} (hown : s.owns m = false) (hm : ownerCode m ≠ 0) (hclaim : w.getLsbD 4 = false)
    (haccept : w.getLsbD 5 = false) : s.writeOwnctl m w = s.countOwnErr := by
  simp only [State.writeOwnctl, hown, hclaim, haccept, decide_eq_false hm, Bool.or_self, Bool.false_eq_true, if_false]

theorem State.regWrite_ownctl_of_other (h : s.ServedWrite m 0x104 size) (hown : s.owns m = false) (hm : ownerCode m ≠ 0)
    (hclaim : v.getLsbD 4 = false) (haccept : v.getLsbD 5 = false) : s.regWrite m 0x104 size v = s.countOwnErr := by
  have hlow : ∀ i, i < 32 → (loHalf (wordData (loHalf v))).getLsbD i = v.getLsbD i := by
    intro i hi
    simp [loHalf, wordData, hi, show i < 64 by omega]
  rw [h.eq]
  simp only [State.partReg, State.putPart]
  rw [if_neg (by simp), if_pos trivial]
  exact State.writeOwnctl_of_other hown hm ((hlow 4 (by decide)).trans hclaim) ((hlow 5 (by decide)).trans haccept)

/-- TCSEL takes its bytes by the row of its own, which counts a write of another master. -/
theorem State.regWrite_tcsel (hup : s.isUp = true) (hfn : masterFn m = 0) (hsize : size = 4 ∨ size = 8) (halign : off % size = 0)
    (hlo : 0x240 ≤ off) (hhi : off < 0x250) : s.regWrite m off size v = s.viaRow (.reg m off size v) execTcselWrite := by
  have hmsix : isMsix 0 off = false := by
    simp only [isMsix, if_true, Bool.and_eq_false_iff, decide_eq_false_iff_not]
    omega
  have hserves : s.serves off = true := by rw [State.serves, hup, Bool.true_or]
  simp only [State.regWrite, accessOk_of_aligned hsize halign, hserves, hfn, hmsix, hlo, hhi, decide_true, Bool.and_self,
    Bool.not_true, Bool.false_eq_true, if_false, if_true]

/-- The PF's registers are not there in the block of a VF. -/
theorem State.regWrite_of_vf {fn : Nat} (hvf : 1 ≤ fn) (hup : s.isUp = true) (hok : accessOk off size = true) (hlo : 0x100 ≤ off)
    (hhi : off < 0x8000) : s.regWrite (.fn fn) off size v = s := by
  have hfn : fn ≠ 0 := Nat.ne_of_gt hvf
  have hmsix : isMsix fn off = false := by
    simp only [isMsix, if_neg hfn, Bool.and_eq_false_iff, decide_eq_false_iff_not]
    omega
  have hserves : s.serves off = true := by rw [State.serves, hup, Bool.true_or]
  have hnone : ∀ a, 0x44 ≤ a → s.regAt fn a = none := fun a ha => by rw [State.regAt, s.commonReg_above fn ha]; exact if_neg hfn
  simp only [State.regWrite, masterFn, hok, hserves, hmsix, hfn, hnone off (by omega), hnone (off - 4) (by omega), ite_self,
    decide_false, Bool.false_and, Bool.not_true, Bool.false_eq_true, if_false]

end

end Sys2Proof.Machine

open Sys2Proof Sys2Proof.Machine

/-- Settles O7: no byte of memory has been written at reset. -/
theorem resetMemoryCanonical : Obligations.ResetMemoryCanonical := by
  unfold Obligations.ResetMemoryCanonical
  exact (rfl : Memory.wf [] = true)

/-- Settles O58: the map has an owner register at each of the offsets, or at the word before, and the write only counts. -/
theorem ownerRegistersKept : Obligations.OwnerRegistersKept := by
  unfold Obligations.OwnerRegistersKept
  refine ⟨?vf, ?others⟩
  case vf =>
    intro s fn off size v hev hup h1 hfn hok hlo hhi
    exact (exec_registerWrite s).trans ((execRegisterWrite_eq hev hfn).trans
      (congrArg _ (State.regWrite_of_vf h1 hup hok hlo hhi)))
  case others =>
    intro s m off size v hev hup hown hm hsize halign hoff
    have hfn := masterFn_of_ownerCode hm
    rw [exec_registerWrite, execRegisterWrite_eq hev (by rw [hfn]; decide), ← State.countOwnErr_eq]
    refine congrArg _ ?_
    have hserved : off < 0x240 ∨ 0x250 ≤ off → off < 0x10000 → 0x44 ≤ off → s.ServedWrite m off size :=
      fun hapart hbelow habove => ⟨hup, hsize, halign, hfn, habove, hbelow, hapart⟩
    by_cases hsel : 0x240 ≤ off ∧ off < 0x250
    · rw [State.regWrite_tcsel hup hfn hsize halign hsel.1 hsel.2]
      exact State.viaRow_of_other (execTcselWrite_eq rfl hup hsize hsel.1 hsel.2 halign) hown hm
    by_cases hctl : off = 0x104
    · subst hctl
      have hbits : v.getLsbD 4 = false ∧ v.getLsbD 5 = false := by simpa using hoff
      exact State.regWrite_ownctl_of_other (hserved (by omega) (by omega) (by omega)) hown hm hbits.1 hbits.2
    have halign4 : off % 4 = 0 := by rcases hsize with rfl | rfl <;> omega
    rcases hoff with hoff | hoff
    · obtain ⟨hlo, hhi⟩ := named_bounds off hoff
      exact (hserved (by omega) (by omega) (by omega)).counts hown hm (owner_of_named off hoff)
    · exact (hserved (by omega) (by omega) (by omega)).counts hown hm (owner_of_indexed halign4 (by omega))

/-- Settles O50: each row is the owner's change of its register, or the count of another master's write. -/
theorem registerWritesComplete : Obligations.RegisterWritesComplete := by
  unfold Obligations.RegisterWritesComplete
  refine ⟨fun s m v hev hup => ⟨fun hown => ?owner, fun hown hm => ?other⟩, classcfgNext_fields, fun s m off size v hev =>
    ⟨fun hup hown hsize hlo hhi halign => ?tcsel, fun hfn => ?block⟩, fun s v lim => ?world⟩
  case owner =>
    have hown' : ∀ k, (.next (s.ownWrite m k) : Out) = .next (k s) := fun k => congrArg _ (State.ownWrite_of_owner hown)
    have hsize := (exec_vfapszWrite s).trans ((execVfapszWrite_eq hev hup).trans (hown' _))
    refine ⟨(execClasscfgWrite_eq hev hup).trans (hown' _), fun hoff hlo hhi => hsize.trans ?_, fun hon => hsize.trans ?_,
      (execFrtrootWrite_eq hev hup).trans (hown' _), (execFinrootWrite_eq hev hup).trans (hown' _)⟩
    · simp [State.onRegs, hoff, hlo, hhi]
    · simp [State.onRegs, hon]
  case other =>
    simp only [List.forall_mem_cons, List.not_mem_nil, false_imp_iff, implies_true, and_true, exec_classcfgWrite,
      execClasscfgWrite_eq hev hup, exec_vfapszWrite, execVfapszWrite_eq hev hup, exec_frtrootWrite, execFrtrootWrite_eq hev hup,
      exec_finrootWrite, execFinrootWrite_eq hev hup, State.ownWrite_of_other hown hm, State.countOwnErr]
  case tcsel =>
    refine ⟨_, (exec_tcselWrite s).trans ((execTcselWrite_eq hev hup hsize hlo hhi halign).trans
      (congrArg _ (State.ownWrite_of_owner hown))), rfl, fun k hk hlt => ?_⟩
    rw [← tcselByte_ofNat]
    exact PartRegs.setTcsels_written _ s.regs _ k (natBytes_getElem? size v.toNat k hk) hlt
  case block =>
    rw [exec_registerWrite, execRegisterWrite_eq hev hfn]
    refine ⟨fun hbad => congrArg _ (State.regWrite_unsupported hbad), fun hup hown hfn0 hsize => ⟨?_, ?_, ?_⟩⟩ <;>
    · rintro rfl
      rw [State.ServedWrite.eq ⟨hup, .inr hsize, by rw [hsize], hfn0, by decide, by decide, by decide⟩]
      simp [State.partReg, State.putPart, hsize, State.ownWrite_of_owner hown]
  case world =>
    simp only [exec_worldRegisterWrite, execWorldRegisterWrite]
    refine ⟨fun hev => by rw [hev], fun hev => by rw [hev], fun n valid hev => ?_⟩
    rw [hev]
    exact ⟨_, rfl, Vector.getElem_set_self ..⟩
end

section
/-! PROOFS. The debug window (15_system_and_traps.md R290, 19_bring_up_and_health.md R367, R368). -/

namespace Sys2Proof.Machine

open Sys2Proof

theorem exec_debugHalt (s : State) : exec .debugHalt s = execDebugHalt s := rfl
theorem exec_debugRead (s : State) : exec .debugRead s = execDebugRead s := rfl
theorem exec_debugWrite (s : State) : exec .debugWrite s = execDebugWrite s := rfl
theorem exec_debugWrec (s : State) : exec .debugWrec s = execDebugWrec s := rfl

/-- A write of DBGCMD by the owner of a part that is up (R363), while GO reads 0, that starts the operation `op` on a group. -/
structure State.MayDebug (s : State) (m : Master) (v : DWord) (g : Group) (op : Nat) : Prop where
  ev : s.ev = .master m v
  go : v.getLsbD 63 = true
  up : s.isUp = true
  owner : s.owns m = true
  idle : s.regs.dbgcmd.getLsbD 63 = false
  target : s.debugTarget v = some g
  act : dbgOp v = op

section

variable {s : State} {m : Master} {v : DWord} {g : Group} {op : Nat}

/-- Such a write carries its operation out where no bank that it reaches is to be swept first (R97). -/
theorem debugRun_acts (row : String) (k : Group → DWord → State → State) (h : s.MayDebug m v g op)
    (hsweep : (s.debugStalls g s.regs.dbgreg && decide (op ≠ 0) && g.isParked) = false) : debugRun row op s k = .next (k g v s) := by
  have hm : decide (ownerCode m ≠ 0) = true := (Bool.and_eq_true_iff.1 h.owner).1
  simp only [debugRun, h.ev, h.up, h.go, h.act, hm, h.idle, h.owner, h.target, hsweep, decide_true, Bool.and_self, Bool.not_true,
    if_true, Bool.false_eq_true, if_false]

theorem sweepFree_of_halt : (s.debugStalls g s.regs.dbgreg && decide ((0 : Nat) ≠ 0) && g.isParked) = false := by simp

theorem sweepFree_of_running (h : g.isParked = false) : (s.debugStalls g s.regs.dbgreg && decide (op ≠ 0) && g.isParked) = false := by
  rw [h, Bool.and_false]

theorem sweepFree_of_swept (h : s.debugStalls g s.regs.dbgreg = false) :
    (s.debugStalls g s.regs.dbgreg && decide (op ≠ 0) && g.isParked) = false := by
  rw [h, Bool.false_and, Bool.false_and]

/-- An operation of DBGCMD that has ended leaves GO 0. -/
theorem State.endDebug_go (s : State) (v : DWord) (st : Nat) (h : st < 16) : (s.endDebug v st).regs.dbgcmd.getLsbD 63 = false := by
  have hst : (BitVec.ofNat 64 ((if false then 2 ^ 63 else 0) + st * 2 ^ 55)).getLsbD 63 = false := by
    rw [BitVec.getLsbD_ofNat, if_neg Bool.false_ne_true, Nat.zero_add, Nat.testBit_lt_two_pow (by omega), Bool.and_false]
  show (dbgcmdAfter v false st).getLsbD 63 = false
  rw [dbgcmdAfter, BitVec.getLsbD_or, BitVec.getLsbD_and, hst, Bool.or_false, Bool.and_eq_false_iff]
  exact .inr (by decide)

end

end Sys2Proof.Machine

open Sys2Proof Sys2Proof.Machine

/-- Settles O54: an operation that may run is its row's action on the group that the target names. -/
theorem debugWindowActs : Obligations.DebugWindowActs := by
  unfold Obligations.DebugWindowActs
  intro s m v g hev hgo hup hown hidle htarget
  have hmay : ∀ op, dbgOp v = op → s.MayDebug m v g op := fun op hop => ⟨hev, hgo, hup, hown, hidle, htarget, hop⟩
  refine ⟨fun hop => ?halt, fun hparked hswept => ⟨fun x t hop ht hx => ?read, fun h hop hh => ?write, fun h hop hh => ?wrec⟩,
    fun hruns => ?running⟩
  case halt =>
    rw [exec_debugHalt, execDebugHalt, debugRun_acts _ _ (hmay 0 hop) sweepFree_of_halt]
    exact ⟨fun h => by rw [if_pos h], fun h => by rw [if_neg (by simp [h])]⟩
  case read =>
    rw [exec_debugRead, execDebugRead, debugRun_acts _ _ (hmay 1 hop) (sweepFree_of_swept hswept)]
    simp only [hparked, ht, hx, Option.getD_some, Bool.not_true, Bool.false_eq_true, if_false]
    exact ⟨_, rfl, rfl, State.endDebug_go _ v 0 (by decide), rfl⟩
  case write =>
    rw [exec_debugWrite, execDebugWrite, debugRun_acts _ _ (hmay 2 hop) (sweepFree_of_swept hswept)]
    simp only [hparked, hh, Bool.not_true, Bool.false_eq_true, if_false]
    rfl
  case wrec =>
    rw [exec_debugWrec, execDebugWrec, debugRun_acts _ _ (hmay 3 hop) (sweepFree_of_swept hswept)]
    simp only [hparked, hh, Bool.not_true, Bool.false_eq_true, if_false]
    rfl
  case running =>
    have hwait := fun op => sweepFree_of_running (s := s) (op := op) hruns
    refine ⟨fun hop => ?_, fun hop => ?_, fun hop => ?_⟩
    · rw [exec_debugRead, execDebugRead, debugRun_acts _ _ (hmay 1 hop) (hwait 1), hruns]
      rfl
    · rw [exec_debugWrite, execDebugWrite, debugRun_acts _ _ (hmay 2 hop) (hwait 2), hruns]
      rfl
    · rw [exec_debugWrec, execDebugWrec, debugRun_acts _ _ (hmay 3 hop) (hwait 3), hruns]
      rfl
end

section
/-! PROOFS. Taking a trap and returning from one (15_system_and_traps.md R274 to R277, R292, R293). -/

namespace Sys2Proof.Machine

open Sys2Proof

/-! ### The header of a handler -/

/-- A target that passes Check holds the word of its header. -/
theorem State.fetch_of_check {s : State} {a : DWord} {h : Header} (hc : s.check a = .ok h) :
    ∃ w, s.fetch a = .ok w ∧ isHeader w = true ∧ Header.ofWord w = h := by
  unfold State.check at hc
  split at hc
  · cases hc
  · split at hc
    · cases hc
    · rename_i w hw
      rcases ite_eq_iff.1 hc with ⟨hhead, he⟩ | ⟨-, he⟩
      · exact ⟨w, hw, hhead, by injection he⟩
      · cases he

/-- A block whose header passes Check and its own checks, and opens no region, is entered, without LIVE, at its first word. -/
theorem State.enter_of_check {s : State} {a : DWord} {h : Header} (hc : s.check a = .ok h) (hok : h.ok = true)
    (hg : h.flagG = false) :
    s.enter a false = .ok { s with grp := { s.grp with pc := a + 8, blockHdr := a, blockEnd := blockEndOf a h } } := by
  obtain ⟨w, hw, hhead, rfl⟩ := State.fetch_of_check hc
  simp only [State.enter, hw, hhead, hok, hg, Bool.not_true, Bool.false_and, Bool.or_self, Bool.false_eq_true, if_false]

/-! ### What a trap records -/

/-- TRAPC of a delivered trap: HND, ARG and CODE (R274). -/
theorem trapcOf_delivered (arg : Nat) (c : Cause) :
    trapcOf true false arg c.code = BitVec.ofNat 32 (2 ^ 31 + arg % 256 * 2 ^ 16 + c.code) := by
  have hcode : c.code % 256 = c.code := by cases c <;> rfl
  rw [trapcOf, hcode]
  rfl

/-- CODE of TRAPC (R274). -/
theorem trapcOf_code (hnd nest : Bool) (arg : Nat) (c : Cause) : (trapcOf hnd nest arg c.code).toNat % 256 = c.code := by
  have hcode : c.code < 256 := by cases c <;> decide
  rw [trapcOf, BitVec.toNat_ofNat]
  split <;> split <;> omega

/-- NEST of TRAPC (R274). -/
theorem trapcOf_nest (hnd nest : Bool) (arg : Nat) (c : Cause) : (trapcOf hnd nest arg c.code).getLsbD 30 = nest := by
  have hcode : c.code < 256 := by cases c <;> decide
  rw [trapcOf, BitVec.getLsbD_ofNat, Nat.testBit_eq_decide_div_mod_eq]
  cases hnd <;> cases nest <;> simp <;> omega

/-- A byte of home memory, up to the next region, is none of the host's or of a remote device's. -/
theorem keyKind_homeAdd (die off : Nat) {i : Nat} (h : i < 8) : keyKind (keyHome die off + i) < 4 := by
  have hoff : off % 2 ^ 64 < 2 ^ 64 := Nat.mod_lt _ (by decide)
  unfold keyKind keyHome placeKey
  omega

theorem Built.homeKey_isHome {b : Built} {kind : PageKind} {pa k : Nat} (h : b.homeKey kind pa = some k) :
    ∃ die off, k = keyHome die off := by
  unfold Built.homeKey at h
  split at h
  · rcases ite_eq_iff.1 h with ⟨-, he⟩ | ⟨-, he⟩
    · exact ⟨_, _, (Option.some.inj he).symm⟩
    · cases he
  · dsimp only at h
    rcases ite_eq_iff.1 h with ⟨-, he⟩ | ⟨-, he⟩
    · exact ⟨_, _, (Option.some.inj he).symm⟩
    · cases he
  · cases h

/-- What may be executed is home memory. -/
theorem State.isHome_of_translate {s : State} {w : Who} {a : DWord} {k : Nat} (h : s.translate w a .exec = .at_ k) :
    ∃ die off, k = keyHome die off := by
  unfold State.translate at h
  rcases ite_eq_iff.1 h with ⟨-, he⟩ | ⟨-, h⟩
  · cases he
  split at h
  · cases h
  rcases ite_eq_iff.1 h with ⟨-, he⟩ | ⟨-, h⟩
  · cases he
  rcases ite_eq_iff.1 h with ⟨-, he⟩ | ⟨-, h⟩
  · cases he
  split at h
  · cases h
  · cases h
  · split at h
    · cases h
    · rename_i key hkey
      rcases ite_eq_iff.1 h with ⟨-, he⟩ | ⟨-, he⟩
      · cases he
      · obtain ⟨die, off, rfl⟩ := Built.homeKey_isHome hkey
        exact ⟨die, off, (Xlat.at_.inj he).symm⟩

theorem State.translate_withGrp (s : State) (g : Group) (w : Who) (a : DWord) (n : Need) :
    ({ s with grp := g } : State).translate w a n = s.translate w a n := by
  unfold State.translate
  rfl

/-- The words of home memory are read without the group. -/
theorem State.readHome_withGrp (s : State) (g : Group) (die off : Nat) :
    ({ s with grp := g } : State).readCoherent (keyHome die off) 8 = s.readCoherent (keyHome die off) 8 := by
  refine List.map_congr_left fun i hi => ?_
  have hlocal := keyKind_homeAdd die off (List.mem_range.1 hi)
  rw [State.backing_of_local hlocal, State.backing_of_local hlocal]

/-- A fetch reads the loop buffer and who the group is, and nothing else of the group. -/
theorem State.fetch_withGrp (s : State) {g : Group} (a : DWord) (hbuf : g.buffered a = s.grp.buffered a)
    (hid : g.id = s.grp.id) : ({ s with grp := g } : State).fetch a = s.fetch a := by
  have hwho : g.who = s.grp.who := by rw [Group.who, Group.who, hid]
  rw [State.fetch, State.fetch, hbuf, hwho, State.translate_withGrp]
  cases s.grp.buffered a with
  | some w => rfl
  | none =>
    cases hx : s.translate s.grp.who a .exec with
    | at_ k =>
      obtain ⟨die, off, rfl⟩ := State.isHome_of_translate hx
      dsimp only
      rw [State.readHome_withGrp]
    | _ => rfl

theorem State.check_withGrp (s : State) {g : Group} (a : DWord) (hbuf : g.buffered a = s.grp.buffered a)
    (hid : g.id = s.grp.id) : ({ s with grp := g } : State).check a = s.check a := by
  rw [State.check, State.check, s.fetch_withGrp a hbuf hid]

theorem State.recordTrap_eq (s : State) (t : Trap) : s.recordTrap t = { s with grp := (s.recordTrap t).grp } := rfl

theorem State.recordTrap_check (s : State) (t : Trap) (a : DWord) : (s.recordTrap t).check a = s.check a := by
  rw [State.recordTrap_eq]
  exact s.check_withGrp a rfl rfl

theorem State.recordTrap_routed (s : State) (t : Trap) (c : Cause) : (s.recordTrap t).routed c = s.routed c := rfl
theorem State.recordTrap_handlerOk (s : State) (t : Trap) : (s.recordTrap t).handlerOk = s.handlerOk := by
  rw [State.handlerOk, State.recordTrap_check]
  rfl
theorem State.recordTrap_pc (s : State) (t : Trap) : (s.recordTrap t).grp.trappc = t.pc.getD s.grp.pc := rfl
theorem State.recordTrap_sreg (s : State) (t : Trap) : (s.recordTrap t).grp.sreg = s.grp.sreg := rfl
theorem State.recordTrap_trapc (s : State) (t : Trap) :
    (s.recordTrap t).grp.trapc = trapcOf s.grp.hnd s.grp.hnd t.arg t.cause.code := rfl

/-! ### Where a trap goes -/

/-- The handler goes on at the first word of its block. -/
theorem State.enterHandler_of_check {s : State} {h : Header} (c : Cause) (arg : Nat) (hc : s.check s.grp.trapv = .ok h)
    (hok : h.ok = true) (hg : h.flagG = false) :
    s.enterHandler c arg = { s with grp := { s.grp with
      trapc := trapcOf true false arg c.code, status := .ready, pc := s.grp.trapv + 8, blockHdr := s.grp.trapv,
      blockEnd := blockEndOf s.grp.trapv h } } := by
  have hcheck : ({ s with grp := { s.grp with trapc := trapcOf true false arg c.code, status := .ready } } : State).check
      s.grp.trapv = .ok h := (s.check_withGrp _ rfl rfl).trans hc
  rw [State.enterHandler]
  dsimp only
  rw [State.enter_of_check hcheck hok hg]

/-- The group that parks keeps all but its status and a PREEMPT that is due. -/
theorem State.park_grp (s : State) (c : Cause) (arg : Nat) (failed : Bool) : (s.park c arg failed).grp = s.grp.parks := by
  rw [State.park, State.grp_of_turns (State.faultRecord_turns _ _ _), State.chargeHelper_grp]

/-- A trap that the group's handler takes is delivered to it. -/
theorem State.takeTrap_delivered {s : State} {t : Trap} (hhnd : s.grp.hnd = false) (hroute : s.routed t.cause = true)
    (hhandler : s.handlerOk = true) :
    s.takeTrap t = ((s.recordTrap t).enterHandler t.cause t.arg).walkFetch t.fetch := by
  rw [State.takeTrap]
  simp only [State.recordTrap_routed, State.recordTrap_handlerOk, hhnd, hroute, hhandler, Bool.not_true, Bool.or_self,
    Bool.false_eq_true, if_false, if_true]

/-- A trap that no handler takes parks the group, which keeps what the trap recorded. -/
theorem State.takeTrap_parks {s : State} {t : Trap}
    (h : s.grp.hnd = true ∨ s.routed t.cause = false ∨ s.handlerOk = false) : (s.takeTrap t).grp = (s.recordTrap t).grp.parks := by
  rw [State.takeTrap, State.walkFetch_grp, State.recordTrap_routed, State.recordTrap_handlerOk]
  split
  · exact State.park_grp _ _ _ _
  next hstays =>
    simp only [Bool.or_eq_true, Bool.not_eq_true', not_or, Bool.not_eq_true, Bool.not_eq_false] at hstays
    obtain ⟨hhnd, hroute⟩ := hstays
    have hhandler : s.handlerOk = false := by simpa [hhnd, hroute] using h
    rw [if_neg (by rw [hhandler]; decide), State.walkFetch_grp, State.park_grp]

/-! ### TRAP, BRK and ERET -/

/-- A user trap inside its block stands at the word that follows (R275). -/
theorem State.userTrap_inside {s : State} (c : Cause) (code : Nat) (h : s.grp.pc + 8 ≠ s.grp.blockEnd) :
    s.userTrap c code = .ok (.trap { cause := c, arg := code } (s.onGrp (fun g => { g with
      pc := g.pc + 8, retired := g.retired + 1, progress := g.progress + 1, status := .ready }))) := by
  rw [State.userTrap, State.fallTo, if_neg h]
  rfl

/-- The return to the address that delivery recorded inside its block (R293). -/
theorem State.resumeAt_recorded {s : State} (h : s.grp.trappc = s.grp.trappcRec) (hin : s.grp.trappc ≠ s.grp.trapHdr) :
    s.resumeAt s.grp.trappc = s.onGrp (fun g => { g with
      pc := g.trappc, blockHdr := g.trapHdr, blockEnd := g.trapBlockEnd, status := .ready }) := by
  rw [State.resumeAt]
  exact if_pos (Bool.and_eq_true_iff.2 ⟨decide_eq_true h, decide_eq_true hin⟩)

theorem State.deliverHeld_of_none {s : State} (h : s.grp.preempt = .none) (t : DWord) : s.deliverHeld t = s := by
  rw [State.deliverHeld, h]

theorem exec_trap (f : SR) (s : State) : exec (.trap f) s = execTrap f s := rfl
theorem exec_brk (f : SR) (s : State) : exec (.brk f) s = execBrk f s := rfl
theorem exec_eret (f : SR) (s : State) : exec (.eret f) s = execEret f s := rfl

end Sys2Proof.Machine

open Sys2Proof Sys2Proof.Machine

/-- Settles O43: a delivered trap is what it records, then the entry of the handler's block; any other parks the group. -/
theorem trapsAreTakenAndReturnedFrom : Obligations.TrapsAreTakenAndReturnedFrom := by
  unfold Obligations.TrapsAreTakenAndReturnedFrom
  refine ⟨⟨fun s t h hhnd hroute hc hT hok hG => ?delivered, fun s t hparks => ?parks⟩,
    fun s f hf hin => ⟨?trap, ?brk⟩, fun s f hf hhelper hhnd hrec hhdr hpre => ?eret⟩
  case delivered =>
    have hhandler : s.handlerOk = true := by rw [State.handlerOk, hc]; exact hT
    have hcheck : (s.recordTrap t).check (s.recordTrap t).grp.trapv = .ok h := (s.recordTrap_check t _).trans hc
    rw [State.takeTrap_delivered hhnd hroute hhandler, State.walkFetch_grp, State.walkFetch_mem,
      State.enterHandler_of_check t.cause t.arg hcheck hok hG]
    exact ⟨rfl, trapcOf_delivered _ _, rfl, rfl, rfl, rfl, rfl, rfl, rfl⟩
  case parks =>
    rw [State.takeTrap_parks hparks]
    exact ⟨rfl, rfl, trapcOf_code _ _ _ _, trapcOf_nest _ _ _ _, rfl⟩
  case trap => rw [exec_trap, execTrap, hf, State.need_true, Run.ok_bind, State.userTrap_inside _ _ hin, finish_ok, settle_trap]
  case brk => rw [exec_brk, execBrk, hf, State.need_true, Run.ok_bind, State.userTrap_inside _ _ hin, finish_ok, settle_trap]
  case eret =>
    have hok : (f.allZero && s.grp.helper.isNone && s.grp.hnd) = true := by rw [hf, hhelper, hhnd]; rfl
    rw [exec_eret, execEret, hok, State.need_true, Run.ok_bind]
    dsimp only
    rw [if_neg (not_not_intro hrec)]
    refine congrArg Host.Outcome.next ((congrArg (State.deliverHeld · _) (State.resumeAt_recorded
      (s := s.onGrp (fun g => { g.countRetired with trapc := g.trapc &&& 0x7FFFFFFF })) hrec hhdr)).trans ?_)
    refine (State.deliverHeld_of_none ?_ _).trans rfl
    exact hpre
end

section
/-! PROOFS. RDS, WRS, PCNT, DTIME and SIGS (15_system_and_traps.md R271, R291, R294, R295, 17_translation_and_tenancy.md R335). -/

namespace Sys2Proof.Machine

open Sys2Proof

theorem exec_rds (f : SR) (s : State) : exec (.rds f) s = execRds f s := rfl
theorem exec_wrs (f : SR) (s : State) : exec (.wrs f) s = execWrs f s := rfl
theorem exec_pcnt (f : SR) (s : State) : exec (.pcnt f) s = execPcnt f s := rfl
theorem exec_dtime (f : SR) (s : State) : exec (.dtime f) s = execDtime f s := rfl
theorem exec_sigs (f : SR) (s : State) : exec (.sigs f) s = execSigs f s := rfl

/-! ### Special registers (R271, R291) -/

section

variable {s : State} {f : SR}

theorem execRds_single (hok : f.okRds = true) (hsingle : isPairSpecial f.imm.toNat = false) (hd : s.grp.scalOk f.d = true)
    (hlive : s.grp.liveIn f.d = false) : execRds f s = .next (s.after 1 (fun g => g.ws f.d (s.special f.imm.toNat))) := by
  simp only [execRds, hok, hsingle, hd, hlive, Bool.and_self, Bool.not_false, Bool.false_eq_true, if_false, State.need_true,
    Run.ok_bind]
  rfl

theorem execRds_pair (hok : f.okRds = true) (hpair : isPairSpecial f.imm.toNat = true) (hd : s.grp.pairOk f.d = true)
    (hlive : s.grp.liveInPair f.d = false) : execRds f s = .next (s.after 1 (fun g => g.wp f.d (g.specialPair f.imm.toNat))) := by
  simp only [execRds, hok, hpair, hd, hlive, Bool.and_self, Bool.not_false, if_true, State.need_true, Run.ok_bind]
  rfl

theorem execWrs_done (hok : f.okWrs = true)
    (ha : (if isPairSpecial f.imm.toNat then s.grp.pairOk f.a else s.grp.scalOk f.a) = true)
    (hvalue : specialOk f.imm.toNat (s.grp.rs f.a) = true) :
    execWrs f s = .next ((s.onGrp (fun g => g.setSpecial f.imm.toNat (g.rs f.a) (g.rp f.a))).retire 1) := by
  have hneed : (f.okWrs && (if isPairSpecial f.imm.toNat then s.grp.pairOk f.a else s.grp.scalOk f.a) &&
      specialOk f.imm.toNat (s.grp.rs f.a)) = true := by rw [hok, ha, hvalue]; rfl
  rw [execWrs, hneed]
  rfl

theorem Group.setSpecial_sreg (g : Group) (n : Nat) (x : Word) (p : DWord) : (g.setSpecial n x p).sreg = g.sreg := by
  unfold Group.setSpecial
  split <;> rfl

/-! ### Counters and time (R295, R335) -/

theorem execPcnt_done (hok : f.okPcnt = true) (hd : s.grp.pairOk f.d = true) (hlive : s.grp.liveInPair f.d = false) :
    execPcnt f s = .next ((s.onGrp (fun g => g.wp f.d (s.counter f.imm.toNat))).retire 1) := by
  simp only [execPcnt, hok, hd, hlive, Bool.and_self, Bool.not_false, State.need_true, Run.ok_bind]
  rfl

theorem State.counter_tenant (s : State) {n : Nat} (h : 4 ≤ n) : s.counter n = s.tenantCounter (n - 4) := by
  obtain ⟨k, rfl⟩ : ∃ k, n = k + 4 := ⟨n - 4, by omega⟩
  rfl

/-- The counters of a tenant that does not count are 0. -/
theorem State.tenantCounter_disabled {k : Nat} (h : s.regs.tcen.getLsbD s.grp.id.fn = false) : s.tenantCounter k = 0 := by
  rw [State.tenantCounter]
  exact if_pos (by rw [h]; rfl)

/-- A counter whose selector names an event is the tenant's count of it. -/
theorem State.tenantCounter_enabled {k : Nat} {sel : Byte} {w : Vector DWord 12} {x : DWord}
    (h : s.regs.tcen.getLsbD s.grp.id.fn = true) (hsel : s.regs.tcsel[k]? = some sel) (hlo : 1 ≤ sel.toNat) (hhi : sel.toNat ≤ 12)
    (hw : s.regs.tcount[s.grp.id.fn]? = some w) (hx : w[k]? = some x) : s.tenantCounter k = x := by
  have hevent : ¬ (!s.regs.tcen.getLsbD s.grp.id.fn || decide (sel.toNat = 0) || decide (13 ≤ sel.toNat)) = true := by
    rw [h]
    simp
    omega
  simp only [State.tenantCounter, hsel, hw, Option.getD_some, hx]
  exact if_neg hevent

theorem execDtime_done (hok : f.okDtime = true) (hd : s.grp.pairOk f.d = true) (hlive : s.grp.liveInPair f.d = false) :
    execDtime f s = .next (s.after 1 (fun g => g.wp f.d (s.tenantTime g.id.fn))) := by
  simp only [execDtime, hok, hd, hlive, Bool.and_self, Bool.not_false, State.need_true, Run.ok_bind]
  rfl

/-- Device time in a tenant's offset, as one sum. -/
theorem State.tenantTime_eq (s : State) (fn : Nat) :
    s.tenantTime fn = BitVec.ofNat 64 (s.time + (s.regs.toffs[fn]?.getD 0).toNat) := by
  rw [State.tenantTime, BitVec.ofNat_add, BitVec.ofNat_toNat, BitVec.setWidth_eq]

/-! ### SIGS (R294) -/

theorem State.settleNow_of_none (h : s.grp.relq = []) : s.settleNow = s := by
  rw [State.settleNow, h]
  rfl

/-- A group with no release store that waits gives up its channels' lines. -/
theorem State.finishStores_grp (h : s.grp.relq = []) : s.finishStores.grp = { s.grp with chanOpen := [] } := by
  rw [State.finishStores, State.settleNow_of_none h]
  have hdrop := State.foldl_keeps State.desk (fun (t : State) (c : Nat × Nat) => t.dropOtherL2 t.grp.id.cluster c.2)
    (fun t c => t.dropOtherL2_desk _ c.2) s.grp.chanOpen s
  exact congrArg (fun g : Group => { g with chanOpen := [] }) (State.grp_of_desk hdrop)

theorem State.leavesCore_grp (s : State) : s.leavesCore.grp = s.grp := by
  have hgrp := State.grp_of_desk (s.keepPrivate_desk s.grp.id.uid)
  exact hgrp

theorem State.saveGroup_sreg (s : State) (e : DWord) : (s.saveGroup e).grp.sreg = s.grp.sreg := by
  have hgrp := congrArg Group.sreg s.leavesCore_grp
  exact hgrp

theorem State.remoteOpen_releaseAt (s : State) (c n : Nat) : (s.releaseAt c n).remoteOpen = s.remoteOpen := by
  rw [State.remoteOpen, State.remoteOpen, State.releaseAt_grp, State.remote_of_desk (s.releaseAt_desk c n)]

/-- The bits of TRAPC that SIGS and ERET keep are all but HND (R293, R294). -/
theorem clearHnd_hnd (x : Word) : (x &&& 0x7FFFFFFF).getLsbD 31 = false := by
  rw [BitVec.getLsbD_and]
  exact Bool.and_eq_false_iff.2 (.inr (by decide))

theorem execSigs_done {e : DWord} (hok : f.okSigs = true) (hhelper : s.grp.helper = none) (hregion : s.grp.inRegion = false)
    (hanswer : s.grp.mayAnswer = true) (he : e = (if f.a = 0 then s.grp.trappc else s.grp.rp f.a))
    (hentry : f.a = 0 ∧ e = s.grp.trappcRec ∨ ∃ h, s.check e = .ok h) (hq : s.grp.relq = [])
    (hremote : (s.releaseAt s.grp.coreNo 6).remoteDirty = []) (hopen : s.remoteOpen = false) :
    execSigs f s = .next ((s.releaseAt s.grp.coreNo 6).finishStores.saveGroup e) := by
  have hneed : (f.okSigs && s.grp.helper.isNone && !s.grp.inRegion && s.grp.mayAnswer) = true := by
    rw [hok, hhelper, hregion, hanswer]
    rfl
  have hrun : s.releaseRun 6 = .ok (s.releaseAt s.grp.coreNo 6) := State.releaseRun_of_none hq (.inr hremote)
  rw [execSigs]
  dsimp only
  rw [← he, hneed, hrun]
  simp only [State.need_true, Run.ok_bind, State.remoteOpen_releaseAt, hopen, Bool.false_eq_true, if_false]
  rcases hentry with ⟨ha, hrec⟩ | ⟨h, hc⟩
  · rw [if_neg (by simp [ha, hrec])]
    rfl
  · rw [hc]
    split <;> rfl

end

end Sys2Proof.Machine

open Sys2Proof Sys2Proof.Machine

/-- Settles O42: each instruction's checks pass, and what it retires with is its one effect; SIGS releases, then saves the group. -/
theorem systemInstructionsComplete : Obligations.SystemInstructionsComplete := by
  unfold Obligations.SystemInstructionsComplete
  intro s f
  refine ⟨fun hok hs hd hl => ?single, fun hok hp hd hl => ?pair, fun hok ha hx => ?wrs, fun hok hd hl => ?pcnt,
    fun hok hd hl => ?dtime, fun e hok hh hr ha he hc hq hrem ho => ?sigs⟩
  case single => exact (exec_rds f s).trans (execRds_single hok hs hd hl)
  case pair => exact (exec_rds f s).trans (execRds_pair hok hp hd hl)
  case wrs =>
    refine ⟨_, (exec_wrs f s).trans (execWrs_done hok ha hx), rfl, s.grp.setSpecial_sreg _ _ _, ?_⟩
    refine ⟨fun h => ?_, fun h => ?_, fun h => ?_, fun h => ?_, fun h => ?_, fun h => ?_, fun h => ?_⟩ <;> rw [h] <;> rfl
  case pcnt =>
    refine ⟨_, s.counter f.imm.toNat, (exec_pcnt f s).trans (execPcnt_done hok hd hl), rfl, rfl, ?_⟩
    refine ⟨fun h => by rw [h]; rfl, fun h => by rw [h]; rfl, fun h => by rw [h]; rfl, fun h => by rw [h]; rfl, fun h => ?_⟩
    rw [State.counter_tenant s h]
    refine ⟨State.tenantCounter_disabled, fun hen sel w hsel hlo hhi hw => ?_⟩
    have hk : f.imm.toNat - 4 < 12 := by
      have himm : f.imm.toNat ≤ 15 := of_decide_eq_true (Bool.and_eq_true_iff.1 hok).2
      omega
    have hx : w[f.imm.toNat - 4]? = some w[f.imm.toNat - 4] := Vector.getElem?_eq_getElem hk
    rw [State.tenantCounter_enabled hen hsel hlo hhi hw hx, hx]
  case dtime =>
    exact (exec_dtime f s).trans ((execDtime_done hok hd hl).trans
      (congrArg Host.Outcome.next (State.after_congr (by rw [State.tenantTime_eq]))))
  case sigs =>
    refine ⟨_, (exec_sigs f s).trans (execSigs_done hok hh hr ha he hc hq hrem ho), rfl, rfl,
      clearHnd_hnd _, ?_⟩
    rw [State.saveGroup_sreg, State.finishStores_grp (by rw [State.releaseAt_grp]; exact hq), State.releaseAt_grp]
end

section
/-! PROOFS. The operations of QCTL (16_launch_and_scheduling.md R297, R317). -/

namespace Sys2Proof.Machine

open Sys2Proof

theorem exec_qctlInval (s : State) : exec .qctlInval s = execQctlInval s := rfl
theorem exec_qctlDestroy (s : State) : exec .qctlDestroy s = execQctlDestroy s := rfl
theorem exec_qctlDbmap (s : State) : exec .qctlDbmap s = execQctlDbmap s := rfl
theorem exec_qctlDbunmap (s : State) : exec .qctlDbunmap s = execQctlDbunmap s := rfl
theorem exec_destroyComplete (s : State) : exec .destroyComplete s = execDestroyComplete s := rfl

/-! ### The registers of a function, and the queues -/

theorem State.fnRegs_onFn (s : State) {fn : Nat} (h : FnRegs → FnRegs) (hfn : fn < 64) :
    (s.onFn fn h).fnRegs fn = h (s.fnRegs fn) := by
  show (s.fns.setIfInBounds fn (h (s.fnRegs fn)))[fn]?.getD FnRegs.reset = h (s.fnRegs fn)
  rw [Vector.getElem?_setIfInBounds_self_of_lt hfn]
  rfl

theorem State.queues_of_desk {s t : State} (h : t.desk = s.desk) : t.queues = s.queues := by
  have e := congrArg State.queues h
  exact e

/-- The writes of a queue's QCB are memory. -/
@[simp] theorem State.writeBack_desk (s : State) (i : Nat) : (s.writeBack i).desk = s.desk := by
  unfold State.writeBack
  split
  · rfl
  · simp only [State.writePhys_desk]

/-- A queue that is changed reads as changed. -/
theorem State.queue_onQcb {s : State} {i : Nat} {q : Queue} (hq : s.queues[i]? = some q) (h : Queue → Queue) :
    (s.onQcb i h).queues[i]? = some (h q) := by
  have hlt : i < s.queues.length := (List.getElem?_eq_some_iff.1 hq).1
  rw [State.onQcb, hq]
  exact List.getElem?_set_self hlt

/-! ### GO of QCTL -/

/-- GO of QCTL reads 0 once an operation has ended (R297). -/
theorem qctlAfter_go (v : DWord) {st : Nat} (h : st < 16) : (qctlAfter v false st).getLsbD 63 = false := by
  have hst : (BitVec.ofNat 64 ((if false then 2 ^ 63 else 0) + st * 2 ^ 52)).getLsbD 63 = false := by
    rw [BitVec.getLsbD_ofNat, if_neg Bool.false_ne_true, Nat.zero_add, Nat.testBit_lt_two_pow (by omega), Bool.and_false]
  rw [qctlAfter, BitVec.getLsbD_or, BitVec.getLsbD_and, hst, Bool.or_false, Bool.and_eq_false_iff]
  exact .inr (by decide)

/-- An operation on the bells of a function ends with GO 0 and the bells that it leaves. -/
theorem State.endQctl_bells (s : State) {fn : Nat} (v : DWord) (h : List Bell → List Bell) (hfn : fn < 64) :
    (((s.onFn fn (fun r => { r with bells := h r.bells })).endQctl fn v 0).fnRegs fn).qctl.getLsbD 63 = false ∧
    (((s.onFn fn (fun r => { r with bells := h r.bells })).endQctl fn v 0).fnRegs fn).bells = h (s.fnRegs fn).bells := by
  rw [State.endQctl, State.fnRegs_onFn _ _ hfn, State.fnRegs_onFn _ _ hfn]
  exact ⟨qctlAfter_go v (by decide), rfl⟩

/-! ### A write of QCTL that starts an operation -/

/-- A write of QCTL that starts the operation `op`: the part is up (R363), GO reads 0, the function owns the PASID, and no DESTROY of
the queue is under way. -/
structure State.MayQctl (s : State) (fn : Nat) (v : DWord) (op : Nat) : Prop where
  ev : s.ev = .fnReg fn v
  up : s.isUp = true
  go : v.getLsbD 63 = true
  fn_lt : fn < 64
  idle : (s.fnRegs fn).qctl.getLsbD 63 = false
  owned : s.ownsPasid fn (qctlPasid v) = true
  quiet : s.queueBusy (qctlPasid v) (qctlQueue v) = false
  act : fld v 60 3 = op

/-- Such a write carries the operation out. -/
theorem qctlWrite_acts {s : State} {fn op : Nat} {v : DWord} (row : String) (k : Nat → DWord → State → State)
    (h : s.MayQctl fn v op) : qctlWrite row op s k = .next (k fn v s) := by
  simp only [qctlWrite, h.ev, h.up, h.go, h.act, h.fn_lt, h.idle, h.owned, h.quiet, decide_true, Bool.and_self, Bool.not_true, if_true,
    Bool.false_eq_true, if_false]

/-- The last step of a DESTROY: the queue is gone, and GO reads 0 (R317). -/
theorem execDestroyComplete_done {s : State} {i : Nat} {q : Queue} (hev : s.ev = .queue i) (hq : s.queues[i]? = some q)
    (hstate : q.state = .destroying) (hnone : ∀ b ∈ s.bundles, b.queue ≠ i) :
    execDestroyComplete s = .next (((s.onQcb i (fun q => { q with state := .destroyed })).writeBack i).onFn q.byFn
      (fun r => { r with qctl := qctlAfter r.qctl false 0 })) := by
  have hover : (decide (q.state = .destroying) && !s.bundles.any (fun b => b.queue = i)) = true := by
    rw [decide_eq_true hstate, Bool.true_and, Bool.not_eq_true', List.any_eq_false]
    exact fun b hb => by simpa using hnone b hb
  simp only [execDestroyComplete, hev, hq, hover, if_true]

end Sys2Proof.Machine

open Sys2Proof Sys2Proof.Machine

/-- Settles O48: a write that may start its operation carries it out on the queue that a walk or the cache finds. -/
theorem qctlActs : Obligations.QctlActs := by
  unfold Obligations.QctlActs
  refine ⟨fun s fn v hev hup hgo hfn hidle hown hquiet => ?ops, fun s i q hev hq hstate hnone => ?complete⟩
  case ops =>
    have hmay : ∀ op, fld v 60 3 = op → s.MayQctl fn v op := fun op hop => ⟨hev, hup, hgo, hfn, hidle, hown, hquiet, hop⟩
    refine ⟨fun hop w t hw => ?found, fun hop i t hw hi => ?lost, fun hop => ⟨fun i t hi => ?destroy, fun t ht => ?noqueue⟩,
      fun hop i t hi => ?bind, fun hop => ?free⟩
    case found =>
      rw [exec_qctlInval, execQctlInval, qctlWrite_acts _ _ (hmay 0 hop)]
      simp only [hw]
    case lost =>
      rw [exec_qctlInval, execQctlInval, qctlWrite_acts _ _ (hmay 0 hop)]
      simp only [hw, hi]
    case destroy =>
      rw [exec_qctlDestroy, execQctlDestroy, qctlWrite_acts _ _ (hmay 1 hop)]
      simp only [hi]
    case noqueue =>
      rw [exec_qctlDestroy, execQctlDestroy, qctlWrite_acts _ _ (hmay 1 hop)]
      simp only [ht]
    case bind =>
      obtain ⟨hdone, hbells⟩ := t.endQctl_bells v (fun bs =>
        ⟨qctlSlot v, qctlPasid v, qctlQueue v⟩ :: bs.filter (fun b => b.slot ≠ qctlSlot v)) hfn
      refine ⟨_, ?_, hdone, ?_⟩
      · rw [exec_qctlDbmap, execQctlDbmap, qctlWrite_acts _ _ (hmay 2 hop)]
        simp only [hi]
      · rw [hbells]
        exact List.find?_cons_of_pos (by simp)
    case free =>
      obtain ⟨hdone, hbells⟩ := s.endQctl_bells v (fun bs => bs.filter (fun b => b.slot ≠ qctlSlot v)) hfn
      refine ⟨_, ?_, hdone, ?_⟩
      · rw [exec_qctlDbunmap, execQctlDbunmap, qctlWrite_acts _ _ (hmay 3 hop)]
      · rw [hbells, List.find?_eq_none]
        exact fun b hb => by simpa using (List.mem_filter.1 hb).2
  case complete =>
    refine ⟨_, { q with state := .destroyed }, (exec_destroyComplete s).trans (execDestroyComplete_done hev hq hstate hnone), ?_, rfl,
      fun hfn => ?_⟩
    · exact (congrArg (fun qs : List Queue => qs[i]?) (State.queues_of_desk (State.writeBack_desk _ i))).trans
        (State.queue_onQcb hq _)
    · rw [State.fnRegs_onFn _ _ hfn]
      exact qctlAfter_go _ (by decide)
end

section
/-! SUPPORT. What the moves of queues, the records of contexts and the start of sub-launches leave of the front end
(16_launch_and_scheduling.md R299 to R309, 15_system_and_traps.md R278). -/

namespace Sys2Proof.Machine

open Sys2Proof

theorem State.bundles_of_desk {s t : State} (h : t.desk = s.desk) : t.bundles = s.bundles := by
  have e := congrArg State.bundles h
  exact e

/-! ### The machine beside its memory, its queues and its contexts -/

/-- The machine beside its memory, its queues, its contexts and the records that they wait to write. -/
def State.office (s : State) : State := { s.desk with queues := [], ctxs := [], records := [] }

theorem State.office_of_desk {s t : State} (h : t.desk = s.desk) : t.office = s.office := by
  rw [State.office, State.office, h]

theorem State.bundles_of_office {s t : State} (h : t.office = s.office) : t.bundles = s.bundles := by
  have e := congrArg State.bundles h
  exact e

@[simp] theorem State.setCtx_office (s : State) (c : Context) : (s.setCtx c).office = s.office := rfl

@[simp] theorem State.send_office (s : State) (m : OutMsg) : (s.send m).office = s.office := rfl

@[simp] theorem State.onQcb_office (s : State) (i : Nat) (h : Queue → Queue) : (s.onQcb i h).office = s.office := by
  unfold State.onQcb
  split <;> rfl

@[simp] theorem State.writeBack_office (s : State) (i : Nat) : (s.writeBack i).office = s.office :=
  State.office_of_desk (s.writeBack_desk i)

@[simp] theorem State.moveQueue_office (s : State) (i : Nat) : (s.moveQueue i).office = s.office := by
  unfold State.moveQueue
  split
  · rfl
  · split
    · rfl
    · rw [State.writeBack_office, State.onQcb_office]

@[simp] theorem State.moveQueues_office (s : State) : s.moveQueues.office = s.office :=
  State.foldl_keeps State.office _ (fun t i => t.moveQueue_office i) _ s

@[simp] theorem State.inCheckpoint_office (s : State) (q : Queue) (u : Nat) : (s.inCheckpoint q u).office = s.office := by
  unfold State.inCheckpoint
  split
  · split <;> rfl
  · rfl

@[simp] theorem State.countStep_office (s : State) (q : Queue) (b : Bundle) : (s.countStep q b).office = s.office := by
  unfold State.countStep
  split
  · split <;> rfl
  · rfl

/-- A write of the front end is memory, be it performed or, where it fails, only counted. -/
theorem State.written_office (s : State) (w : Who) (a : DWord) (n : Nat) (xs : List Byte) :
    (match s.writeVirt w a xs with
      | .ok t => t
      | .error _ => s.walkFront w a n).office = s.office := by
  split
  · rename_i t ht
    exact State.office_of_desk (State.writeVirt_desk ht)
  · exact State.office_of_desk (s.walkFront_desk w a n)

@[simp] theorem State.writeRecord_office (s : State) (ctx : Nat) (xs : List Byte) :
    (s.writeRecord ctx xs).office = s.office := by
  unfold State.writeRecord
  split
  · rfl
  · rename_i c _
    dsimp only
    rw [State.send_office]
    have hcount (ks : List Nat) (bs : List Byte) :
        (match (s.askKeys c.who ks).writeVirt c.who c.fault bs with
          | .ok t => t
          | .error _ => (s.askKeys c.who ks).walkFront c.who c.fault 8).office = s.office :=
      (State.written_office _ _ _ _ _).trans (State.office_of_desk (s.askKeys_desk _ _))
    split
    · split
      · rename_i t ht
        rw [State.setCtx_office]
        exact (State.office_of_desk (State.writeVirt_desk ht)).trans (hcount _ _)
      · rw [State.send_office]
        exact (State.office_of_desk (State.walkFront_desk _ _ _ _)).trans (hcount _ _)
    · exact hcount _ _

@[simp] theorem State.faultRecord_office (s : State) (ctx : Nat) (xs : List Byte) : (s.faultRecord ctx xs).office = s.office := by
  unfold State.faultRecord
  split
  · rfl
  · split
    · refine (State.office_of_desk (State.askFront_desk _ _ _ _)).trans ?_
      rfl
    · exact s.writeRecord_office ctx xs

/-! ### Queues -/

/-- A queue's STATE follows (R300), and nothing else of it. -/
theorem State.queue_moveQueue {s : State} {i : Nat} {q : Queue} (hq : s.queues[i]? = some q) :
    (s.moveQueue i).queues[i]? = some { q with state := s.stateOf i q } := by
  unfold State.moveQueue
  rw [hq]
  dsimp only
  split
  · rename_i hsame
    rw [hq, hsame]
  · rw [State.queues_of_desk (State.writeBack_desk _ i)]
    exact State.queue_onQcb hq _

/-- A queue that enters ERROR keeps its indices (R300). -/
theorem State.queue_queueError {s : State} {i : Nat} {q : Queue} (hq : s.queues[i]? = some q) :
    (s.queueError i).queues[i]? = some { q with state := .error } := by
  unfold State.queueError
  rw [hq]
  dsimp only
  split
  · rename_i herror
    rw [hq, ← herror]
  · have hset : ((s.onQcb i (fun q => { q with state := .error })).writeBack i).queues[i]? = some { q with state := .error } := by
      rw [State.queues_of_desk (State.writeBack_desk _ i)]
      exact State.queue_onQcb hq _
    split <;> exact hset

/-! ### Bundles -/

/-- What a bundle keeps while its sub-launches start, fail or retire. -/
def Bundle.note (b : Bundle) : Nat × Bool × Nat := (b.uid, b.started, b.subs.length)

/-- What the front end's bundles keep. -/
def State.notes (s : State) : List (Nat × Bool × Nat) := s.bundles.map Bundle.note

theorem State.notes_of_office {s t : State} (h : t.office = s.office) : t.notes = s.notes := by
  rw [State.notes, State.notes, State.bundles_of_office h]

theorem State.notes_of_desk {s t : State} (h : t.desk = s.desk) : t.notes = s.notes :=
  State.notes_of_office (State.office_of_desk h)

theorem State.bundle?_of_bundles {s t : State} (h : t.bundles = s.bundles) (u : Nat) : t.bundle? u = s.bundle? u := by
  rw [State.bundle?, State.bundle?, h]

theorem State.bundle?_uid {s : State} {u : Nat} {b : Bundle} (h : s.bundle? u = some b) : b.uid = u := by
  simpa using List.find?_some h

/-- The note of a bundle is the first under its uid. -/
theorem State.bundle?_note (s : State) (u : Nat) : (s.bundle? u).map Bundle.note = s.notes.find? (fun x => x.1 = u) := by
  rw [State.notes, List.find?_map]
  rfl

/-- A bundle stands, as noted, where the notes are kept. -/
theorem State.bundle?_of_notes {s t : State} {u : Nat} {b : Bundle} (h : t.notes = s.notes) (hb : s.bundle? u = some b) :
    ∃ c, t.bundle? u = some c ∧ c.started = b.started ∧ c.subs.length = b.subs.length := by
  have hnote := t.bundle?_note u
  rw [h, ← State.bundle?_note, hb, Option.map_some, Option.map_eq_some_iff] at hnote
  obtain ⟨c, hc, hcb⟩ := hnote
  exact ⟨c, hc, congrArg (fun x => x.2.1) hcb, congrArg (fun x => x.2.2) hcb⟩

/-- A bundle that is changed reads as changed. -/
theorem State.bundle?_onBundle {s : State} {u : Nat} {b : Bundle} (h : Bundle → Bundle) (hu : ∀ b, (h b).uid = b.uid)
    (hb : s.bundle? u = some b) : (s.onBundle u h).bundle? u = some (h b) := by
  have hkey : ((fun b : Bundle => decide (b.uid = u)) ∘ fun b => if b.uid = u then h b else b) =
      fun b : Bundle => decide (b.uid = u) := by
    funext x
    rw [Function.comp_apply]
    split
    · rw [hu]
    · rfl
  rw [State.bundle?, State.onBundle, List.find?_map, hkey]
  rw [State.bundle?] at hb
  rw [hb, Option.map_some, if_pos (by simpa using List.find?_some hb)]

/-- A change of a sub-launch leaves what is noted of its bundle. -/
@[simp] theorem State.onSub_notes (s : State) (u i : Nat) (h : SubLaunch → SubLaunch) : (s.onSub u i h).notes = s.notes := by
  unfold State.onSub State.onBundle State.notes
  rw [List.map_map]
  refine List.map_congr_left fun b _ => ?_
  rw [Function.comp_apply]
  dsimp only
  split
  · split
    · simp [Bundle.note]
    · rfl
  · rfl

@[simp] theorem State.frontWrite_notes (s : State) (q : Queue) (b : Bundle) (i which : Nat) (a : DWord) (xs : List Byte) :
    (s.frontWrite q b i which a xs).notes = s.notes := by
  unfold State.frontWrite
  split
  · rename_i t ht
    exact State.notes_of_desk (State.writeVirt_desk ht)
  · rw [State.frontRecord, State.notes_of_office (State.faultRecord_office _ _ _), State.onSub_notes,
      State.notes_of_desk (s.walkFront_desk _ _ _)]

@[simp] theorem State.signal_notes (s : State) (q : Queue) (b : Bundle) (i : Nat) (r : List Byte) :
    (s.signal q b i r).notes = s.notes := by
  have hreads (w : Who) (a : DWord) : (s.readsOld w a).notes = s.notes := by
    unfold State.readsOld
    split
    · exact State.notes_of_desk (s.askKeys_desk _ _)
    · rfl
  unfold State.signal
  dsimp only
  split
  · exact State.frontWrite_notes _ _ _ _ _ _ _
  · exact State.frontWrite_notes _ _ _ _ _ _ _
  · rw [State.frontWrite_notes, hreads]
  · rfl
  · rfl

@[simp] theorem State.startSubs_notes (s : State) (q : Queue) (w : Who) (b : Bundle) (ks : List (Nat × List Byte)) (is : List Nat) :
    (s.startSubs q w b ks is).notes = s.notes := by
  induction is generalizing s with
  | nil => rfl
  | cons i is ih =>
    rw [State.startSubs, ih]
    split
    · rfl
    · split
      · rfl
      · rfl
      · split
        · rfl
        · rw [State.onSub_notes, State.signal_notes]

@[simp] theorem State.fireLevel_notes (s : State) (q : Queue) (b : Bundle) (f : Field) (l : Level) :
    (s.fireLevel q b f l).notes = s.notes := by
  have hfield (h : Field → Field) : (s.onField f.uid h).notes = s.notes := rfl
  have hsend (t : State) (m : OutMsg) : (t.send m).notes = t.notes := rfl
  unfold State.fireLevel
  dsimp only
  split <;> split <;> simp only [hsend, State.frontWrite_notes, hfield]

@[simp] theorem State.fireLevels_notes (s : State) (uid : Nat) (ls : List Level) : (s.fireLevels uid ls).notes = s.notes := by
  induction ls generalizing s with
  | nil => rfl
  | cons l ls ih =>
    rw [State.fireLevels, ih]
    split
    · split
      · split
        · exact s.fireLevel_notes _ _ _ _
        · rfl
      · rfl
    · rfl

end Sys2Proof.Machine
end

section
/-! PROOFS. Doorbells, and the bundles of the front end (16_launch_and_scheduling.md R298 to R309, 18_package_host_fabric.md R349). -/

namespace Sys2Proof.Machine

open Sys2Proof

theorem exec_doorbellWrite (s : State) : exec .doorbellWrite s = execDoorbellWrite s := rfl
theorem exec_bundleRead (s : State) : exec .bundleRead s = execBundleRead s := rfl
theorem exec_waitConditionPoll (s : State) : exec .waitConditionPoll s = execWaitConditionPoll s := rfl
theorem exec_bundleStart (s : State) : exec .bundleStart s = execBundleStart s := rfl
theorem exec_signalAfter (s : State) : exec .signalAfter s = execSignalAfter s := rfl
theorem exec_bundleRetire (s : State) : exec .bundleRetire s = execBundleRetire s := rfl

/-! ### Doorbells (R302) -/

/-- The ring of a doorbell moves WRIDX alone, puts a queue that it overruns into ERROR, and is ignored where it does not advance. -/
theorem State.ring_queue {t : State} {i w : Nat} {q : Queue} (hq : t.queues[i]? = some q) (hdestroying : q.state ≠ .destroying)
    (hdestroyed : q.state ≠ .destroyed) (hw : w < 2 ^ 32) :
    ∃ r, (t.ring i w).queues[i]? = some r ∧ r.rdidx = q.rdidx ∧
      (idxSub w q.wridx = 0 ∨ 2 ^ 31 ≤ idxSub w q.wridx → r = q) ∧
      (idxSub w q.wridx ≠ 0 → idxSub w q.wridx < 2 ^ 31 → idxSub w q.rdidx ≤ 2 ^ q.log2sz → r.wridx = w) ∧
      (idxSub w q.wridx ≠ 0 → idxSub w q.wridx < 2 ^ 31 → 2 ^ q.log2sz < idxSub w q.rdidx → r.wridx = q.wridx ∧ r.state = .error) := by
  rw [State.ring, hq]
  simp only [hdestroying, hdestroyed, decide_false, Bool.false_or, Bool.or_eq_true, decide_eq_true_eq]
  split
  next hstill =>
    exact ⟨q, hq, rfl, fun _ => rfl, fun h0 hlt => by omega, fun h0 hlt => by omega⟩
  next hmoves =>
    split
    next hover =>
      exact ⟨_, State.queue_queueError hq, rfl, fun h => absurd h hmoves, fun _ _ hfits => by omega, fun _ _ _ => ⟨rfl, rfl⟩⟩
    next hfits =>
      have hset : (((t.onQcb i (fun q => { q with wridx := w % 2 ^ 32 })).writeBack i)).queues[i]? =
          some { q with wridx := w % 2 ^ 32 } := by
        rw [State.queues_of_desk (State.writeBack_desk _ i)]
        exact State.queue_onQcb hq _
      exact ⟨_, State.queue_moveQueue hset, rfl, fun h => absurd h hmoves, fun _ _ _ => Nat.mod_eq_of_lt hw,
        fun _ _ hover => absurd hover hfits⟩

theorem fld_lt (v : DWord) (lo n : Nat) : fld v lo n < 2 ^ n := (v.extractLsb' lo n).isLt

section

variable {s : State} {fn slot : Nat} {value : DWord}

theorem State.doorbell_unbound (hup : s.isUp = true) (hnone : (s.fnRegs fn).bells.find? (fun b => b.slot = slot) = none) :
    s.doorbell fn slot value =
      s.onFn fn (fun r => { r with dberr := if r.dberr = 0xFFFFFFFF then r.dberr else r.dberr + 1 }) := by
  simp only [State.doorbell, hup, hnone, Bool.not_true, Bool.false_eq_true, if_false]

theorem State.doorbell_busy {b : Bell} (hup : s.isUp = true)
    (hb : (s.fnRegs fn).bells.find? (fun b => b.slot = slot) = some b) (hbusy : s.queueBusy b.pasid b.queue = true) :
    s.doorbell fn slot value = s := by
  simp only [State.doorbell, hup, hb, hbusy, Bool.not_true, Bool.false_eq_true, if_false, if_true]

theorem State.doorbell_lost {b : Bell} {t : State} (hup : s.isUp = true)
    (hb : (s.fnRegs fn).bells.find? (fun b => b.slot = slot) = some b) (hbusy : s.queueBusy b.pasid b.queue = false)
    (ht : s.useQueue b.pasid b.queue = (none, t)) : s.doorbell fn slot value = t := by
  simp only [State.doorbell, hup, hb, hbusy, ht, Bool.not_true, Bool.false_eq_true, if_false]

theorem State.doorbell_rings {b : Bell} {i : Nat} {t : State} (hup : s.isUp = true)
    (hb : (s.fnRegs fn).bells.find? (fun b => b.slot = slot) = some b) (hbusy : s.queueBusy b.pasid b.queue = false)
    (ht : s.useQueue b.pasid b.queue = (some i, t)) : s.doorbell fn slot value = t.ring i (fld value 0 32) := by
  simp only [State.doorbell, hup, hb, hbusy, ht, Bool.not_true, Bool.false_eq_true, if_false]

theorem execDoorbellWrite_eq (hev : s.ev = .doorbell fn slot value) :
    execDoorbellWrite s = .next (s.doorbell fn slot value) := by
  rw [execDoorbellWrite, hev]

end

/-! ### Reading a bundle (R301, R303) -/

/-- A front-end access that waits for no page takes note of the refused pages. -/
theorem frontAccess_none (row : String) (s : State) (w : Who) (t : State) :
    frontAccess row s w none (.next t) = .next (t.dropFailed w) := rfl

theorem frontReads_none (row : String) (s : State) (w : Who) (rs : List (DWord × Nat)) {k : State → Out} {t : State}
    (h : k (s.asksFront w rs) = .next t) : frontReads row s w none rs k = .next (t.dropFailed w) := by
  rw [frontReads, h, frontAccess_none]

/-- The records of a bundle's bytes. -/
def recordsOf (n : Nat) (rs : List Byte) : List (List Byte) := (List.range n).map (fun k => (rs.drop (64 * k)).take 64)

/-- A bundle as read is queued, and the next one of its queue is looked for. -/
def State.takeBundle (v : State) (i : Nat) (q : Queue) (b : Bundle) : State :=
  let s1 : State := { v with bundles := v.bundles ++ [b], nextId := v.nextId + 1 }
  let s2 := if b.early.isSome then s1.inCheckpoint q v.nextId else s1
  (s2.onQcb i (fun q => { q with nextRead := (q.nextRead + 1) % 2 ^ 32 })).moveQueue i

@[simp] theorem State.inCheckpoint_queues (s : State) (q : Queue) (u : Nat) : (s.inCheckpoint q u).queues = s.queues := by
  unfold State.inCheckpoint
  split
  · split <;> rfl
  · rfl

theorem State.takeBundle_bundles (v : State) (i : Nat) (q : Queue) (b : Bundle) :
    (v.takeBundle i q b).bundles = v.bundles ++ [b] := by
  unfold State.takeBundle
  dsimp only
  rw [State.bundles_of_office (State.moveQueue_office _ _), State.bundles_of_office (State.onQcb_office _ _ _)]
  split
  · rw [State.bundles_of_office (State.inCheckpoint_office _ _ _)]
  · rfl

theorem State.takeBundle_queue {v : State} {i : Nat} {q x : Queue} (b : Bundle) (hx : v.queues[i]? = some x) :
    ∃ r, (v.takeBundle i q b).queues[i]? = some r ∧ r.nextRead = (x.nextRead + 1) % 2 ^ 32 := by
  unfold State.takeBundle
  dsimp only
  refine ⟨_, State.queue_moveQueue (State.queue_onQcb (q := x) ?_ _), rfl⟩
  split
  · rw [State.inCheckpoint_queues]
    exact hx
  · exact hx

section

variable {s : State} {i : Nat} {q : Queue}

/-- A queue whose QCB has been replaced is read again first (R298). -/
theorem execBundleRead_reread {j : Nat} {t : State} (hev : s.ev = .queue i) (hq : s.queues[i]? = some q) (hcached : q.cached = false)
    (hmay : s.mayRead i q = true) (ht : s.walkAndRead q.pasid q.num = (some j, t)) : execBundleRead s = .next t := by
  simp only [execBundleRead, hev, hq, hcached, hmay, ht, Bool.not_false, Bool.and_self, if_true]

theorem execBundleRead_gone {t : State} (hev : s.ev = .queue i) (hq : s.queues[i]? = some q) (hcached : q.cached = false)
    (hmay : s.mayRead i q = true) (ht : s.walkAndRead q.pasid q.num = (none, t)) : execBundleRead s = .next (t.queueError i) := by
  simp only [execBundleRead, hev, hq, hcached, hmay, ht, Bool.not_false, Bool.and_self, if_true]

/-- A ring that cannot be read puts its queue into ERROR. -/
theorem execBundleRead_lost (hev : s.ev = .queue i) (hq : s.queues[i]? = some q) (hcached : q.cached = true)
    (hmay : s.mayRead i q = true) (hgap : s.bundleGap q = none) (hring : s.ringBytes q (q.slotAddr q.nextRead) 64 = none) :
    execBundleRead s = .next ((s.queueError i).dropFailed q.ringWho) := by
  have hruns : s.bundleRuns q = [] := by rw [State.bundleRuns, hring]
  simp only [execBundleRead, hev, hq, hcached, hmay, hgap, hruns, Bool.not_true, Bool.false_and, Bool.false_eq_true, if_false, if_true]
  refine frontReads_none _ _ _ _ ?_
  rw [State.asksFront, hring]

theorem execBundleRead_done (hev : s.ev = .queue i) (hq : s.queues[i]? = some q) (hcached : q.cached = true)
    (hmay : s.mayRead i q = true) (hgap : s.bundleGap q = none) {v : State} {h rs : List Byte} {n : Nat}
    (hv : v = s.asksFront q.ringWho (s.bundleRuns q)) (hhead : v.ringBytes q (q.slotAddr q.nextRead) 64 = some h)
    (hn : n = (if natAt h 0 1 = 1 then min 4 (natAt h 2 1) else 0))
    (hrecs : v.ringBytes q (q.slotAddr q.nextRead + 64) (64 * n) = some rs) :
    execBundleRead s =
      .next ((v.takeBundle i q (bundleOf v.nextId i q.nextRead h (recordsOf n rs))).dropFailed q.ringWho) := by
  subst hv hn
  simp only [execBundleRead, hev, hq, hcached, hmay, hgap, Bool.not_true, Bool.false_and, Bool.false_eq_true, if_false, if_true]
  refine frontReads_none _ _ _ _ ?_
  simp only [hhead, hrecs]
  rfl

end

/-- What is found wrong with a bundle before it starts (R303). -/
theorem bundleOf_early (u i k : Nat) (h : List Byte) (recs : List (List Byte)) :
    (bundleOf u i k h recs).early = (if headerOk h
      then (badRecord ((bundleOf u i k h recs).subs.map (·.bytes))).map (fun k => (3, 0, k)) else some (3, 0, 0xFF)) := by
  have hbytes : (bundleOf u i k h recs).subs.map (·.bytes) = recs := by
    simp [bundleOf, Function.comp_def]
  rw [hbytes, bundleOf]
  cases headerOk h <;> rfl

/-! ### Wait conditions (R303) -/

section

variable {s v : State} {u k : Nat} {b : Bundle} {w : WaitCond} {q : Queue}

/-- What the poll of a wait makes of the machine. -/
def State.pollWait (v : State) (u k : Nat) (q : Queue) (who : Who) (w : WaitCond) : State :=
  match v.readVirt who w.addr 4 with
  | .error c => ((v.onBundle u (fun b => { b with early := some (1, c, 0xFF) })).inCheckpoint q u).moveQueues
  | .ok bs =>
    if waitCond (BitVec.ofNat 3 w.cond) (BitVec.ofNat 32 (bytesNat bs)) w.value then
      (v.onBundle u (fun b => { b with waits := b.waits.set k { w with held := true } })).moveQueues
    else v

theorem execWaitConditionPoll_done (hev : s.ev = .bundle u k) (hb : s.bundle? u = some b) (hw : b.waits[k]? = some w)
    (hq : s.queueOfBundle b = some q) (hstart : b.started = false) (hearly : b.early = none) (hheld : w.held = false)
    (hmay : s.mayDispatch q = true) (hgap : s.hostGap (s.queueWho q) .read w.addr 4 = none) :
    execWaitConditionPoll s =
      .next (((s.asksFront (s.queueWho q) [(w.addr, 4)]).pollWait u k q (s.queueWho q) w).dropFailed (s.queueWho q)) := by
  simp only [execWaitConditionPoll, hev, hb, hw, hq, hstart, hearly, hheld, hmay, hgap, Option.isNone_none, Bool.not_false,
    Bool.and_self, if_true]
  refine frontReads_none _ _ _ _ ?_
  cases hread : (s.asksFront (s.queueWho q) [(w.addr, 4)]).readVirt (s.queueWho q) w.addr 4 with
  | error c => simp only [State.pollWait, hread]
  | ok bs =>
    simp only [State.pollWait, hread]
    split <;> rfl

theorem State.pollWait_error {who : Who} {e : Nat} (hb : v.bundle? u = some b) (he : v.readVirt who w.addr 4 = .error e) :
    (v.pollWait u k q who w).bundle? u = some { b with early := some (1, e, 0xFF) } := by
  rw [State.pollWait, he]
  dsimp only
  rw [State.bundle?_of_bundles (State.bundles_of_office ((State.moveQueues_office _).trans (State.inCheckpoint_office _ _ _)))]
  exact State.bundle?_onBundle _ (fun _ => rfl) hb

theorem State.pollWait_ok {who : Who} {bs : List Byte} (hb : v.bundle? u = some b) (hbs : v.readVirt who w.addr 4 = .ok bs) :
    (v.pollWait u k q who w).bundle? u = some { b with
      waits := if waitCond (BitVec.ofNat 3 w.cond) (BitVec.ofNat 32 (bytesNat bs)) w.value = true
        then b.waits.set k { w with held := true } else b.waits } := by
  rw [State.pollWait, hbs]
  dsimp only
  split
  · rw [State.bundle?_of_bundles (State.bundles_of_office (State.moveQueues_office _))]
    exact State.bundle?_onBundle _ (fun _ => rfl) hb
  · exact hb

end

/-! ### The start of a bundle (R303, R309) -/

theorem State.serve_bundles (s : State) (i : Nat) : (s.serve i).bundles = s.bundles := by
  unfold State.serve
  split <;> rfl

section

variable {s v : State} {u i : Nat} {b : Bundle} {q : Queue}

theorem execBundleStart_done (hev : s.ev = .bundle u i) (hb : s.bundle? u = some b) (hq : s.queueOfBundle b = some q)
    (hstart : s.startable b = true) (hckq : q.ckq = false) (hturn : s.servedLater b.queue = false)
    (hgap : s.firstGap (s.queueWho q) (s.startReach (s.queueWho q) b) = none) :
    execBundleStart s = .next ((((s.asksFront (s.queueWho q) (readRuns (s.startReach (s.queueWho q) b))).serve b.queue).startBundle
      q b).dropFailed (s.queueWho q)) := by
  simp only [execBundleStart, hev, hb, hq, hstart, hckq, hturn, hgap, Bool.not_false, Bool.and_self, if_true]
  exact frontReads_none _ _ _ _ rfl

/-- A bundle that fails its checks ends with their verdict. -/
theorem State.startBundle_refused {e : Nat × Nat × Nat} (hb : v.bundle? u = some b)
    (he : v.startChecks (v.queueWho q) q.cls (((v.ctx? q.ctx).map (·.bslots)).getD 0) b = .error e) :
    (v.startBundle q b).bundle? u = some { b with early := some e } := by
  obtain rfl := State.bundle?_uid hb
  rw [State.startBundle]
  dsimp only
  rw [he]
  dsimp only
  rw [State.bundle?_of_bundles (State.bundles_of_office ((State.moveQueues_office _).trans (State.inCheckpoint_office _ _ _)))]
  exact State.bundle?_onBundle _ (fun _ => rfl) hb

/-- A bundle that passes them has started. -/
theorem State.startBundle_starts {ks : List (Nat × List Byte)} (hb : v.bundle? u = some b)
    (hks : v.startChecks (v.queueWho q) q.cls (((v.ctx? q.ctx).map (·.bslots)).getD 0) b = .ok ks) :
    ∃ c, (v.startBundle q b).bundle? u = some c ∧ c.started = true := by
  obtain rfl := State.bundle?_uid hb
  have hset : (v.onBundle b.uid (fun b => { b with started := true, startTime := v.time })).bundle? b.uid =
      some { b with started := true, startTime := v.time } := State.bundle?_onBundle _ (fun _ => rfl) hb
  have hnotes : (v.startBundle q b).notes =
      (v.onBundle b.uid (fun b => { b with started := true, startTime := v.time })).notes := by
    rw [State.startBundle]
    dsimp only
    rw [hks]
    dsimp only
    rw [State.notes_of_office ((State.moveQueues_office _).trans ((State.countStep_office _ _ _).trans
      (State.inCheckpoint_office _ _ _))), State.startSubs_notes]
  obtain ⟨c, hc, hstarted, -⟩ := State.bundle?_of_notes hnotes hset
  exact ⟨c, hc, hstarted⟩

/-! ### AFTER signals (R306) -/

theorem execSignalAfter_done {x : SubLaunch} (hev : s.ev = .bundle u i) (hb : s.bundle? u = some b)
    (hq : s.queueOfBundle b = some q) (hx : b.subs[i]? = some x) (hafter : x.after = true) (hret : x.retired = false)
    (hdue : s.afterDue b i = true)
    (hgap : ∀ a n, signalTarget x.bytes = some (a, n) → s.hostGap (s.queueWho q) .write a n = none) :
    execSignalAfter s = .next (((if s.afterRuns b then s.signal q b i x.bytes else s).onSub u i
      (fun y => { y with retired := true })).dropFailed (s.queueWho q)) := by
  have hnone : (match signalTarget x.bytes with
      | some (a, n) => if s.afterRuns b then s.hostGap (s.queueWho q) .write a n else none
      | none => none) = none := by
    split
    · rename_i a n htarget
      rw [hgap a n htarget, ite_self]
    · rfl
  simp only [execSignalAfter, hev, hb, hq, hx, hafter, hret, hdue, Bool.not_false, Bool.and_self, if_true]
  refine Eq.trans ?_ (frontAccess_none "SIGNAL_AFTER" s (s.queueWho q) _)
  exact congrArg (frontAccess "SIGNAL_AFTER" s (s.queueWho q) · _) hnone

/-- The signal has retired, in its bundle. -/
theorem State.onSub_retired {c : Bundle} (hc : v.bundle? u = some c) (hi : i < c.subs.length) :
    ∃ d y, (v.onSub u i (fun y => { y with retired := true })).bundle? u = some d ∧ d.subs[i]? = some y ∧ y.retired = true := by
  refine ⟨_, { c.subs[i] with retired := true }, State.bundle?_onBundle _ ?_ hc, ?_, rfl⟩
  · intro b
    split <;> rfl
  · rw [List.getElem?_eq_getElem hi]
    exact List.getElem?_set_self hi

theorem State.afterSignal_notes (s : State) (p : Bool) (q : Queue) (b : Bundle) (i : Nat) (r : List Byte) :
    (if p then s.signal q b i r else s).notes = s.notes := by
  split
  · exact s.signal_notes q b i r
  · rfl

/-! ### Retirement (R307) -/

theorem execBundleRetire_done (hev : s.ev = .bundle u i) (hb : s.bundle? u = some b) (hq : s.queueOfBundle b = some q)
    (hover : s.bundleOver b = true) (hreport : ∀ f ∈ s.fields, f.bundle = u → s.reportGap f.uid = none)
    (hrec : b.crec ≠ 0 → s.hostGap (s.queueWho q) .write b.crec 32 = none) :
    ∃ t : State, t.notes = s.notes ∧ execBundleRetire s = .next ((t.retireBundle q ((t.bundle? u).getD b)).dropFailed (s.queueWho q)) := by
  have hfields : (((s.fields.filter (fun f => decide (f.bundle = b.uid))).map (·.uid)).findSome? s.reportGap) = none := by
    rw [List.findSome?_eq_none_iff]
    intro v hv
    obtain ⟨f, hf, rfl⟩ := List.mem_map.1 hv
    obtain ⟨hmem, hbundle⟩ := List.mem_filter.1 hf
    exact hreport f hmem ((of_decide_eq_true hbundle).trans (State.bundle?_uid hb))
  have hcrec : (if b.crec = 0 then none else s.hostGap (s.queueWho q) .write b.crec 32) = none := by
    split
    · rfl
    · rename_i hne
      exact hrec hne
  refine ⟨((s.fields.filter (fun f => decide (f.bundle = b.uid))).map (·.uid)).foldl (fun t v => t.fireLevels v levels) s,
    State.foldl_keeps State.notes _ (fun t v => t.fireLevels_notes v levels) _ s, ?_⟩
  simp only [execBundleRetire, hev, hb, hq, hover, hfields, hcrec, Option.or_none, if_true]
  rfl

theorem State.retireBundle_bundles (t : State) (q : Queue) (b : Bundle) :
    ∃ bs : List Bundle, (t.retireBundle q b).bundles = bs.filter (fun x => x.uid ≠ b.uid) := by
  unfold State.retireBundle
  dsimp only
  rw [State.bundles_of_office (State.moveQueues_office _)]
  have hqcb (v : State) : ((v.onQcb b.queue (fun q => q.retireIdx b.ridx)).writeBack b.queue).bundles = v.bundles :=
    State.bundles_of_office ((State.writeBack_office _ _).trans (State.onQcb_office _ _ _))
  split
  · split
    · exact ⟨_, hqcb _⟩
    · exact ⟨_, hqcb _⟩
  · exact ⟨_, hqcb _⟩

/-- A bundle that retires leaves the front end. -/
theorem State.retireBundle_gone (t : State) (q : Queue) (b : Bundle) : (t.retireBundle q b).bundle? b.uid = none := by
  obtain ⟨bs, hbs⟩ := t.retireBundle_bundles q b
  rw [State.bundle?, hbs, List.find?_eq_none]
  exact fun x hx => by simpa using (List.mem_filter.1 hx).2

end

end Sys2Proof.Machine

open Sys2Proof Sys2Proof.Machine

/-- Settles O47: each event, where its occasion holds, is its one operation; what the rule asks of the queue or the bundle is read off
that operation, which keeps the rest of the front end. -/
theorem bundlesRun : Obligations.BundlesRun := by
  unfold Obligations.BundlesRun
  refine ⟨fun s fn slot value hev hup => ?doorbell, fun s i q hev hq => ?read,
    fun s u k b w q hev hb hw hq hstart hearly hheld hmay hgap v hv => ?wait, fun s u i b q hev hb hq => ?bundle⟩
  case doorbell =>
    simp only [exec_doorbellWrite, execDoorbellWrite_eq hev]
    refine ⟨fun hnone => by rw [State.doorbell_unbound hup hnone], fun b hbell => ⟨fun hbusy => ?_, fun t hbusy ht => ?_,
      fun i t q w hbusy ht hq hdestroying hdestroyed hw => ?_⟩⟩
    · rw [State.doorbell_busy hup hbell hbusy]
    · rw [State.doorbell_lost hup hbell hbusy ht]
    · rw [State.doorbell_rings hup hbell hbusy ht, hw]
      obtain ⟨r, hr⟩ := State.ring_queue hq hdestroying hdestroyed (fld_lt value 0 32)
      exact ⟨_, r, rfl, hr⟩
  case read =>
    refine ⟨fun hcached hmay => ⟨fun j t ht => ?_, fun t ht => ?_⟩, fun hcached hmay hgap => ⟨fun hring => ?_, fun v h rs n hv hhead hn hrecs => ?_⟩⟩
    · exact (exec_bundleRead s).trans (execBundleRead_reread hev hq hcached hmay ht)
    · exact (exec_bundleRead s).trans (execBundleRead_gone hev hq hcached hmay ht)
    · exact (exec_bundleRead s).trans (execBundleRead_lost hev hq hcached hmay hgap hring)
    · have hdesk : v.desk = s.desk := hv ▸ s.asksFront_desk _ _
      obtain ⟨r, hr, hnext⟩ := State.takeBundle_queue (bundleOf v.nextId i q.nextRead h (recordsOf n rs))
        ((State.queues_of_desk hdesk).symm ▸ hq)
      refine ⟨_, bundleOf v.nextId i q.nextRead h (recordsOf n rs), r,
        (exec_bundleRead s).trans (execBundleRead_done hev hq hcached hmay hgap hv hhead hn hrecs), ?_, rfl, rfl, rfl, ?_, hr, hnext,
        bundleOf_early _ _ _ _ _⟩
      · exact (State.takeBundle_bundles _ _ _ _).trans (by rw [State.bundles_of_desk hdesk])
      · simp [bundleOf, recordsOf]
  case wait =>
    subst hv
    have hbv := (State.bundle?_of_bundles (State.bundles_of_desk (s.asksFront_desk (s.queueWho q) [(w.addr, 4)])) u).trans hb
    have hrun := (exec_waitConditionPoll s).trans (execWaitConditionPoll_done hev hb hw hq hstart hearly hheld hmay hgap)
    cases hread : (s.asksFront (s.queueWho q) [(w.addr, 4)]).readVirt (s.queueWho q) w.addr 4 with
    | ok bs =>
      refine ⟨_, _, hrun, State.pollWait_ok hbv hread, hstart, fun bs' h => ?_, fun e h => nomatch h⟩
      cases h
      exact ⟨hearly, rfl⟩
    | error e =>
      refine ⟨_, _, hrun, State.pollWait_error hbv hread, hstart, fun bs h => (nomatch h), fun e' h => ?_⟩
      cases h
      exact ⟨rfl, rfl⟩
  case bundle =>
    refine ⟨fun v hv hstartable hckq hturn hgap => ?start, fun x hx hafter hret hdue hgap => ?after, fun hover hreport hrec => ?retire⟩
    case start =>
      have hbundles : v.bundles = s.bundles := by rw [hv, State.serve_bundles, State.bundles_of_desk (State.asksFront_desk _ _ _)]
      have hbv := (State.bundle?_of_bundles hbundles u).trans hb
      have hrun := (exec_bundleStart s).trans (execBundleStart_done hev hb hq hstartable hckq hturn hgap)
      rw [← hv] at hrun
      have hstart : b.started = false := by
        simp only [State.startable, Bool.and_eq_true, Bool.not_eq_true'] at hstartable
        exact hstartable.1.1.1
      cases hchecks : v.startChecks (v.queueWho q) q.cls (((v.ctx? q.ctx).map (·.bslots)).getD 0) b with
      | ok ks =>
        obtain ⟨c, hc, hstarted⟩ := State.startBundle_starts hbv hchecks
        exact ⟨_, c, hrun, hc, fun e h => (nomatch h), fun _ _ => hstarted⟩
      | error e =>
        refine ⟨_, _, hrun, State.startBundle_refused hbv hchecks, fun e' h => ?_, fun ks h => nomatch h⟩
        cases h
        exact ⟨rfl, hstart⟩
    case after =>
      have hrun := (exec_signalAfter s).trans (execSignalAfter_done hev hb hq hx hafter hret hdue hgap)
      obtain ⟨c, hc, -, hlen⟩ := State.bundle?_of_notes (s.afterSignal_notes (s.afterRuns b) q b i x.bytes) hb
      obtain ⟨d, y, hd, hy, hretired⟩ := State.onSub_retired hc (hlen ▸ (List.getElem?_eq_some_iff.1 hx).1)
      exact ⟨_, d, y, hrun, rfl, hd, hy, hretired⟩
    case retire =>
      obtain ⟨t, hnotes, hrun⟩ := execBundleRetire_done hev hb hq hover hreport hrec
      obtain ⟨c, hc, -, -⟩ := State.bundle?_of_notes hnotes hb
      refine ⟨_, (exec_bundleRetire s).trans hrun, ?_⟩
      rw [hc, ← State.bundle?_uid hc]
      exact State.retireBundle_gone _ _ _
end

section
/-! PROOFS. Invalidations, the object table, the answers of the host, and the VF enable (17_translation_and_tenancy.md R326 to R333,
R338). -/

namespace Sys2Proof.Machine

open Sys2Proof

theorem exec_tlbinvPasid (s : State) : exec .tlbinvPasid s = execTlbinvPasid s := rfl
theorem exec_tlbinvRange (s : State) : exec .tlbinvRange s = execTlbinvRange s := rfl
theorem exec_tlbinvStage2 (s : State) : exec .tlbinvStage2 s = execTlbinvStage2 s := rfl
theorem exec_tlbinvComplete (s : State) : exec .tlbinvComplete s = execTlbinvComplete s := rfl
theorem exec_atsInvalidateRequest (s : State) : exec .atsInvalidateRequest s = execAtsInvalidateRequest s := rfl
theorem exec_atsCompletion (s : State) : exec .atsCompletion s = execAtsCompletion s := rfl
theorem exec_priResponse (s : State) : exec .priResponse s = execPriResponse s := rfl
theorem exec_priTimeout (s : State) : exec .priTimeout s = execPriTimeout s := rfl
theorem exec_objctlInstall (s : State) : exec .objctlInstall s = execObjctlInstall s := rfl
theorem exec_objctlRemove (s : State) : exec .objctlRemove s = execObjctlRemove s := rfl
theorem exec_vfEnableSet (s : State) : exec .vfEnableSet s = execVfEnableSet s := rfl
theorem exec_vfEnableClear (s : State) : exec .vfEnableClear s = execVfEnableClear s := rfl

/-! ### The cached translations, which the performing of accesses leaves -/

/-- The cached translations. -/
def State.maps (s : State) : List TlbEntry × List HostEntry := (s.tlb, s.hostTlb)

theorem State.maps_of_desk {s t : State} (h : t.desk = s.desk) : t.maps = s.maps := by
  have e := congrArg State.maps h
  exact e

theorem State.tlb_of_maps {s t : State} (h : t.maps = s.maps) : t.tlb = s.tlb := congrArg Prod.fst h
theorem State.hostTlb_of_maps {s t : State} (h : t.maps = s.maps) : t.hostTlb = s.hostTlb := congrArg Prod.snd h

@[simp] theorem State.requestWrites_maps (s : State) (xs : List (Nat × List Host.Cell)) : (s.requestWrites xs).maps = s.maps := by
  induction xs generalizing s with
  | nil => rfl
  | cons x xs ih =>
    rw [State.requestWrites, ih]
    rfl

@[simp] theorem State.sendRemoteWrites_maps (s : State) (cs : List Host.Cell) : (s.sendRemoteWrites cs).maps = s.maps :=
  s.requestWrites_maps _

@[simp] theorem State.releaseAt_maps (s : State) (c n : Nat) : (s.releaseAt c n).maps = s.maps :=
  State.maps_of_desk (s.releaseAt_desk c n)

@[simp] theorem State.drainChannel_maps (s : State) (n : Nat) : (s.drainChannel n).maps = s.maps := by
  have hdrop := State.foldl_keeps State.maps (fun (t : State) (c : Nat × Nat) => t.dropOtherL2 t.grp.id.cluster c.2)
    (fun _ _ => rfl) (s.grp.chanOpen.filter (fun c => c.1 = n)) s
  exact hdrop

@[simp] theorem State.performRel_maps (s : State) (r : RelStore) : (s.performRel r).maps = s.maps := by
  have hdrain : (if r.chan = 0 then s else s.drainChannel r.chan).maps = s.maps := by
    split
    · rfl
    · exact s.drainChannel_maps _
  have hgrp (t : State) (f : Group → Group) : (t.onGrp f).maps = t.maps := rfl
  have hflush (t : State) : t.flushHost.maps = t.maps := rfl
  unfold State.performRel
  dsimp only
  split <;>
    simp only [State.sendRemoteWrites_maps, hflush, State.maps_of_desk (State.invalidateStale_desk _ _ _), hgrp,
      State.maps_of_desk (State.storeLines_desk _ _ _ _), State.maps_of_desk (State.noteOrigin_desk _ _ _), hdrain]

@[simp] theorem State.settleFar_maps (s : State) (rs : List RelStore) : (State.settleFar rs s).maps = s.maps := by
  induction rs generalizing s with
  | nil => rfl
  | cons r rs ih =>
    rw [State.settleFar]
    split
    · rw [State.sendRemoteWrites_maps, State.releaseAt_maps]
    · rw [ih, State.performRel_maps, State.releaseAt_maps]

theorem State.focus_maps {s t : State} {u : Nat} (h : s.focus u = some t) : t.maps = s.maps := by
  unfold State.focus at h
  split at h
  · cases h; rfl
  · split at h
    · cases h
    · cases h; rfl

theorem State.asGroup_maps {f : State → State} (hf : ∀ t, (f t).maps = t.maps) (s : State) (u : Nat) :
    (s.asGroup u f).maps = s.maps := by
  unfold State.asGroup
  split
  · rfl
  · next t ht =>
    have hdone : (f t).maps = s.maps := (hf t).trans (State.focus_maps ht)
    cases hback : (f t).focus s.grp.id.uid with
    | none => exact hdone
    | some v => exact (State.focus_maps hback).trans hdone

@[simp] theorem State.performAll_maps (s : State) : s.performAll.maps = s.maps := by
  have hsettle := State.foldl_keeps State.maps (fun t (g : Group) => t.asGroup g.id.uid State.settleNow)
    (fun t g => State.asGroup_maps (fun v => v.settleFar_maps v.grp.relq) t g.id.uid) (s.groups.filter (fun g => !g.relq.isEmpty)) s
  have hclean (t : State) (cores : List Nat) : (cores.foldl (fun t core => t.releaseAt core 6) t).maps = t.maps :=
    State.foldl_keeps State.maps _ (fun t core => t.releaseAt_maps core 6) cores t
  exact (hclean _ _).trans hsettle

@[simp] theorem State.performRemote_maps (s : State) (p : Nat) : (s.performRemote p).maps = s.maps := by
  unfold State.performRemote
  split
  · exact State.asGroup_maps (fun t => t.sendRemoteWrites_maps t.remoteDirty) s _
  · rfl

/-! ### TLBINV (R328, R329) -/

theorem State.dropPasid_gone (s : State) (p : Nat) :
    (∀ e ∈ (s.dropPasid p).tlb, e.pasid ≠ p) ∧ ∀ e ∈ (s.dropPasid p).hostTlb, e.pasid ≠ p :=
  ⟨fun _ he => of_decide_eq_true (List.mem_filter.1 he).2, fun _ he => of_decide_eq_true (List.mem_filter.1 he).2⟩

theorem State.dropFn_gone (s : State) (fn : Nat) :
    (∀ e ∈ (s.dropFn fn).tlb, e.fn ≠ fn) ∧ ∀ e ∈ (s.dropFn fn).hostTlb, e.fn ≠ fn :=
  ⟨fun _ he => of_decide_eq_true (List.mem_filter.1 he).2, fun _ he => of_decide_eq_true (List.mem_filter.1 he).2⟩

/-- GO of TLBINV as an operation leaves it. -/
theorem tlbAfter_go (hi : DWord) : (tlbAfter hi true 0).getLsbD 63 = true := by
  rw [tlbAfter, BitVec.getLsbD_or]
  exact Bool.or_eq_true_iff.2 (.inr (by decide))

theorem State.goTlb_go (s : State) {fn : Nat} (hi : DWord) (hfn : fn < 64) :
    ((s.goTlb fn hi).fnRegs fn).tlbinvHi.getLsbD 63 = true := by
  rw [State.goTlb, State.fnRegs_onFn _ _ hfn]
  exact tlbAfter_go hi

/-- An operation of TLBINV that goes on performs accesses, and leaves the translations that it has not dropped. -/
theorem State.goTlb_tlb (s : State) (p fn : Nat) (hi : DWord) : ((s.performAll.performRemote p).goTlb fn hi).tlb = s.tlb :=
  State.tlb_of_maps ((State.performRemote_maps _ p).trans s.performAll_maps)

/-- A write of TLBINV that starts the operation `op` of a function: the part is up (R363), and GO reads 0. -/
structure State.MayInvalidate (s : State) (fn : Nat) (hi : DWord) (op : Nat) : Prop where
  ev : s.ev = .fnReg fn hi
  up : s.isUp = true
  go : hi.getLsbD 63 = true
  fn_lt : fn < 64
  idle : (s.fnRegs fn).tlbinvHi.getLsbD 63 = false
  act : fld hi 61 2 = op

theorem tlbWrite_acts {s : State} {fn op : Nat} {hi : DWord} (row : String) (k : Nat → DWord → State → State)
    (h : s.MayInvalidate fn hi op) : tlbWrite row op s k = .next (k fn hi s) := by
  simp only [tlbWrite, h.ev, h.up, h.go, h.act, h.fn_lt, h.idle, decide_true, Bool.and_self, if_true, Bool.false_eq_true, if_false]

section

variable {s : State} {fn : Nat} {hi : DWord}

theorem State.dropCovered_pasid (h : fld hi 61 2 = 0) : s.dropCovered fn hi = s.dropPasid (tlbPasid hi) := by
  simp only [State.dropCovered, h]

theorem State.dropCovered_range (h : fld hi 61 2 = 1) :
    s.dropCovered fn hi = s.dropRange (tlbPasid hi) (fld (s.fnRegs fn).tlbinvLo 18 39 * 2 ^ 18)
      (fld (s.fnRegs fn).tlbinvLo 18 39 * 2 ^ 18 + tlbPages hi * 2 ^ 18) := by
  simp only [State.dropCovered, h]

theorem State.dropCovered_fn (h : fld hi 61 2 = 2) : s.dropCovered fn hi = s.dropFn (tlbFunc hi) := by
  simp only [State.dropCovered, h]

end

/-- A page that touches no address of a range has none of its addresses there. -/
theorem touches_of_mem {a v l r lo hi : Nat} (hlr : l ≤ r) (ha : a / 2 ^ l = v) (hlo : lo ≤ a) (hhi : a < hi) :
    touches (v * 2 ^ l) r lo hi = true := by
  obtain ⟨k, rfl⟩ := Nat.exists_eq_add_of_le hlr
  have hl : 0 < 2 ^ l := Nat.two_pow_pos l
  have hpage : v * 2 ^ l / 2 ^ (l + k) = a / 2 ^ (l + k) := by
    rw [Nat.pow_add, ← Nat.div_div_eq_div_mul, ← Nat.div_div_eq_div_mul, Nat.mul_div_cancel _ hl, ha]
  rw [touches, hpage, Bool.and_eq_true_iff, decide_eq_true_eq, decide_eq_true_eq]
  exact ⟨lt_of_le_of_lt (Nat.div_mul_le_self _ _) hhi, lt_of_le_of_lt hlo (Nat.lt_mul_of_div_lt (Nat.lt_succ_self _) (Nat.two_pow_pos _))⟩

theorem TlbEntry.log2_le_reach (e : TlbEntry) : e.leaf.log2 ≤ e.reach := by
  unfold TlbEntry.reach
  split
  · exact Nat.le_refl _
  · exact Nat.le_max_right _ _

/-- No translation that a range covers stays (R328). -/
theorem State.dropRange_tlb {s : State} {pasid lo hi a : Nat} {e : TlbEntry} (he : e ∈ (s.dropRange pasid lo hi).tlb)
    (hp : e.pasid = pasid) (ha : a / 2 ^ e.leaf.log2 = e.vpage) : ¬ (lo ≤ a ∧ a < hi) := by
  rintro ⟨hlo, hhi⟩
  have hkept := (List.mem_filter.1 he).2
  rw [hp, touches_of_mem e.log2_le_reach ha hlo hhi] at hkept
  simp at hkept

section

variable {s : State} {fn : Nat} {hi : DWord}

theorem execTlbinvPasid_owned (h : s.MayInvalidate fn hi 0) (hown : s.ownsPasid fn (tlbPasid hi) = true) :
    execTlbinvPasid s = .next ((((s.dropPasid (tlbPasid hi)).performAll).performRemote (tlbPasid hi)).goTlb fn hi) := by
  rw [execTlbinvPasid, tlbWrite_acts _ _ h, if_pos hown, State.dropCovered_pasid h.act]

theorem execTlbinvRange_owned (h : s.MayInvalidate fn hi 1) (hn : tlbPages hi ≠ 0) (hown : s.ownsPasid fn (tlbPasid hi) = true) :
    execTlbinvRange s = .next ((((s.dropRange (tlbPasid hi) (fld (s.fnRegs fn).tlbinvLo 18 39 * 2 ^ 18)
      (fld (s.fnRegs fn).tlbinvLo 18 39 * 2 ^ 18 + tlbPages hi * 2 ^ 18)).performAll).performRemote (tlbPasid hi)).goTlb fn hi) := by
  rw [execTlbinvRange, tlbWrite_acts _ _ h, if_neg hn, if_pos hown, State.dropCovered_range h.act]

theorem execTlbinvStage2_named (h : s.MayInvalidate fn hi 2) (hfn : fn = 0) (hvf : tlbFunc hi ≠ 0) :
    execTlbinvStage2 s = .next (((s.dropFn (tlbFunc hi)).performAll).goTlb fn hi) := by
  rw [execTlbinvStage2, tlbWrite_acts _ _ h, if_neg (not_not_intro hfn), if_neg hvf, State.dropCovered_fn h.act]

theorem execTlbinvComplete_done (hev : s.ev = .fn fn) (hfn : fn < 64) (hgo : (s.fnRegs fn).tlbinvHi.getLsbD 63 = true)
    (hopen : s.performAll.tlbOpen (s.fnRegs fn).tlbinvHi = false) :
    execTlbinvComplete s =
      .next ((s.performAll.dropCovered fn (s.fnRegs fn).tlbinvHi).endTlb fn (s.fnRegs fn).tlbinvHi 0) := by
  simp only [execTlbinvComplete, hev, hfn, hgo, hopen, decide_true, Bool.and_self, Bool.not_false, if_true]

end

/-! ### Invalidate Requests (R326, R327) -/

section

variable {s : State} {fn pasid n : Nat} {va : DWord}

theorem execAtsInvalidateRequest_quiet (hev : s.ev = .atsInv fn pasid va n)
    (hopen : ((s.dropInvalid fn pasid va n).performAll).hostOpen fn pasid = false) :
    execAtsInvalidateRequest s = .next (((s.dropInvalid fn pasid va n).performAll).send (.invalidateDone fn)) := by
  simp only [execAtsInvalidateRequest, hev, hopen, Bool.false_eq_true, if_false]

theorem execAtsInvalidateRequest_open (hev : s.ev = .atsInv fn pasid va n)
    (hopen : ((s.dropInvalid fn pasid va n).performAll).hostOpen fn pasid = true) :
    execAtsInvalidateRequest s = .next { (s.dropInvalid fn pasid va n).performAll with
      invs := (fn, pasid) :: ((s.dropInvalid fn pasid va n).performAll).invs } := by
  simp only [execAtsInvalidateRequest, hev, hopen, if_true]

end

/-! ### The object table (R330, R333) -/

/-- What the front end reads, no count of its reads changes. -/
theorem State.readVirt_uncounted (s : State) (w : Who) (va : DWord) (n : Nat) :
    s.uncounted.readVirt w va n = s.readVirt w va n := by
  induction n generalizing va with
  | zero => rfl
  | succ n ih =>
    have htranslate : s.uncounted.translate w va .read = s.translate w va .read := by
      unfold State.translate
      rfl
    rw [State.readVirt, State.readVirt, htranslate, ih]
    rfl

theorem State.readVirt_of_uncounted {s t : State} (h : t.uncounted = s.uncounted) (w : Who) (va : DWord) (n : Nat) :
    t.readVirt w va n = s.readVirt w va n := by
  rw [← State.readVirt_uncounted t, h, State.readVirt_uncounted]

theorem State.ctxs_of_desk {s t : State} (h : t.desk = s.desk) : t.ctxs = s.ctxs := by
  have e := congrArg State.ctxs h
  exact e

theorem State.objContext_ctx? {s t : State} {n : Nat} {c : Context} (h : s.objContext n = (some c, t)) : t.ctx? n = some c := by
  unfold State.objContext at h
  split at h
  · rename_i d hd
    cases h
    exact hd
  · obtain ⟨hc, rfl⟩ := Prod.mk.inj h
    exact hc

/-- GO of OBJCTL reads 0 once an operation has ended (R333). -/
theorem objctlAfter_go (v : DWord) : (objctlAfter v false 0).getLsbD 63 = false := by
  rw [objctlAfter, BitVec.getLsbD_or, BitVec.getLsbD_and, Bool.or_eq_false_iff, Bool.and_eq_false_iff]
  exact ⟨.inr (by decide), by decide⟩

theorem State.setObjctl_ctx? (s : State) (fn : Nat) (v : DWord) (go : Bool) (st n : Nat) :
    (s.setObjctl fn v go st).ctx? n = s.ctx? n := rfl

theorem State.dropFailed_ctx? (s : State) (w : Who) (n : Nat) : (s.dropFailed w).ctx? n = s.ctx? n := rfl

theorem State.setObjctl_go (s : State) {fn : Nat} (v : DWord) (hfn : fn < 64) :
    ((s.setObjctl fn v false 0).fnRegs fn).objctl.getLsbD 63 = false := by
  rw [State.setObjctl, State.fnRegs_onFn _ _ hfn]
  exact objctlAfter_go v

/-- An operation of OBJCTL that may run on the context `c`, which the machine `t` knows: the part is up (R363), GO reads 0, the function
owns the context, and the index is below OBJN. -/
structure State.MayObject (s t : State) (fn : Nat) (v : DWord) (c : Context) (op : Nat) : Prop where
  ev : s.ev = .fnReg fn v
  up : s.isUp = true
  go : v.getLsbD 63 = true
  fn_lt : fn < 64
  idle : (s.fnRegs fn).objctl.getLsbD 63 = false
  known : s.objContext (objCtx v) = (some c, t)
  owned : t.ownsCtx fn c = true
  index : objIndex v < c.objn
  act : fld v 61 2 = op

section

variable {s t : State} {fn op : Nat} {v : DWord} {c : Context}

theorem objWrite_acts (row : String) (k : Context → Nat → DWord → State → Out) (h : s.MayObject t fn v c op) :
    objWrite row op s k = k c fn v t := by
  have hindex : ¬ c.objn ≤ objIndex v := Nat.not_le.2 h.index
  simp only [objWrite, objRun, h.ev, h.up, h.go, h.act, h.fn_lt, h.idle, h.known, h.owned, hindex, decide_true, Bool.and_self,
    Bool.not_true, if_true, Bool.false_eq_true, if_false]

theorem execObjctlInstall_tensor {x : Tensor} {b : List Byte} (h : s.MayObject t fn v c 0)
    (hgap : t.hostGap c.who .read (c.objtab + BitVec.ofNat 64 (64 * objIndex v)) 64 = none)
    (hread : t.readVirt c.who (c.objtab + BitVec.ofNat 64 (64 * objIndex v)) 64 = .ok b)
    (hrec : recordOf b = some (some (.tensor x))) :
    execObjctlInstall s = .next ((((t.asksFront c.who [(c.objtab + BitVec.ofNat 64 (64 * objIndex v), 64)]).setCtx
      (c.install (objIndex v) (.tensor x))).setObjctl fn v false 0).dropFailed c.who) := by
  rw [execObjctlInstall, objWrite_acts _ _ h, hgap]
  simp only [State.install, State.readVirt_of_uncounted (t.asksFront_uncounted _ _), hread, hrec, State.installRecord]

theorem execObjctlRemove_done (h : s.MayObject t fn v c 1) :
    execObjctlRemove s = .next ((t.setCtx (c.uninstall (objIndex v))).setObjctl fn v false 0) := by
  rw [execObjctlRemove, objWrite_acts _ _ h]

end

/-! ### The answers of the host (R326) -/

section

variable {s : State} {id : Nat} {q : AtsReq}

theorem execAtsCompletion_granted {granted : BitVec 3} {host : DWord} (hq : s.ats.find? (fun q => decide (q.id = id) && !q.pri && !q.failed) = some q)
    (hev : s.ev = .ats id granted host) (hgranted : granted.toNat % 4 ≠ 0) :
    execAtsCompletion s = .next (({ s with
      hostTlb := ⟨q.fn, q.pasid, q.vpage, host.toNat / 4096, granted.getLsbD 0, granted.getLsbD 1⟩ :: s.hostTlb,
      ats := s.ats.filter (fun r => r.id ≠ id) } : State).wakeHost q false).flushRecords := by
  simp only [execAtsCompletion, hev, hq, hgranted, if_false]

theorem execAtsCompletion_refused {granted : BitVec 3} {host : DWord} (hq : s.ats.find? (fun q => decide (q.id = id) && !q.pri && !q.failed) = some q)
    (hev : s.ev = .ats id granted host) (hnone : granted.toNat % 4 = 0) : execAtsCompletion s = .next (s.askPage q) := by
  simp only [execAtsCompletion, hev, hq, hnone, if_true]

theorem State.askPage_outbox (s : State) (q : AtsReq) :
    (s.askPage q).outbox = (if s.pagesOut < 512 then [.priRequest q.id q.fn q.pasid (BitVec.ofNat 64 (q.vpage * 4096))] else []) ++
      s.outbox := by
  unfold State.askPage
  split <;> rfl

variable (hq : s.ats.find? (fun q => decide (q.id = id) && q.pri && !q.held && !q.failed) = some q)

include hq

theorem execPriResponse_inTime (hev : s.ev = .pri id true) (htime : s.time ≤ q.since + 100000000) :
    execPriResponse s = .next (((s.setAts { q with pri := false, since := s.time }).send
      (.atsRequest q.id q.fn q.pasid (BitVec.ofNat 64 (q.vpage * 4096)))).countEvent q.fn 11 1).sendPages := by
  simp only [execPriResponse, hev, hq, htime, decide_true, Bool.and_self, if_true]

theorem execPriResponse_late (hev : s.ev = .pri id true) (htime : q.since + 100000000 < s.time) :
    execPriResponse s = .next (s.refusePage q) := by
  simp only [execPriResponse, hev, hq, Nat.not_le.2 htime, decide_false, Bool.and_false, Bool.false_eq_true, if_false]

theorem execPriResponse_failure (hev : s.ev = .pri id false) : execPriResponse s = .next (s.refusePage q) := by
  simp only [execPriResponse, hev, hq, Bool.false_and, Bool.false_eq_true, if_false]

theorem execPriTimeout_late (hev : s.ev = .req id) (htime : q.since + 100000000 < s.time) :
    execPriTimeout s = .next (s.refusePage q) := by
  simp only [execPriTimeout, hev, hq, htime, if_true]

end

/-! ### The VF enable (R338) -/

@[simp] theorem State.askPage_desk (s : State) (q : AtsReq) : (s.askPage q).desk = s.desk := by
  unfold State.askPage
  split
  · exact State.countEvent_desk _ _ _ _
  · rfl

@[simp] theorem State.sendPages_desk (s : State) : s.sendPages.desk = s.desk :=
  State.foldl_keeps State.desk _ (fun t q => t.askPage_desk q) _ s

theorem State.fnRegs_of_desk {s t : State} (h : t.desk = s.desk) (fn : Nat) : t.fnRegs fn = s.fnRegs fn := by
  have e := congrArg (fun u => State.fnRegs u fn) h
  exact e

theorem State.vfEnable_of_desk {s t : State} (h : t.desk = s.desk) : t.regs.vfEnable = s.regs.vfEnable := by
  have e := congrArg (fun u => u.regs.vfEnable) h
  exact e

/-- A VF that is cleared has its registers at reset, and no context and no cached translation. -/
theorem State.clearVf_gone (s : State) {fn : Nat} (hfn : fn < 64) :
    (s.clearVf fn).fnRegs fn = FnRegs.reset ∧ (∀ c ∈ (s.clearVf fn).ctxs, c.tenant ≠ fn) ∧ ∀ e ∈ (s.clearVf fn).tlb, e.fn ≠ fn := by
  refine ⟨State.fnRegs_onFn _ _ hfn, fun c hc => ?_, fun e he => ?_⟩
  · exact of_decide_eq_true (List.mem_filter.1 hc).2
  · exact of_decide_eq_true (List.mem_filter.1 he).2

theorem execVfEnableClear_one {s : State} {fn : Nat} (h1 : 1 ≤ fn) (hfn : fn < 64) (hev : s.ev = .vf (some fn)) :
    execVfEnableClear s = .next (s.clearVf fn).sendPages := by
  simp only [execVfEnableClear, hev]
  exact if_pos ⟨h1, hfn⟩

theorem execVfEnableClear_all {s : State} (hev : s.ev = .vf none) :
    execVfEnableClear s = .next (((List.range 63).foldl (fun t k => t.clearVf (k + 1)) s).onRegs
      (fun r => { r with vfEnable := false })).sendPages := by
  simp only [execVfEnableClear, hev]

theorem execVfEnableSet_done {s : State} (hup : s.enumerated = true) (hoff : s.regs.vfEnable = false) :
    execVfEnableSet s = .next (s.onRegs (fun r => { r with vfEnable := true, vfapInForce := r.vfapsz })) := by
  simp only [execVfEnableSet, hup, hoff, Bool.not_true, Bool.or_self, Bool.false_eq_true, if_false]

end Sys2Proof.Machine

open Sys2Proof Sys2Proof.Machine

/-- Settles O49: each event, where its occasion holds, is its one operation; the performing of accesses and the sending of page requests,
which follow, leave the translations, the registers and the contexts as that operation made them. -/
theorem translationEventsComplete : Obligations.TranslationEventsComplete := by
  unfold Obligations.TranslationEventsComplete
  refine ⟨fun s fn hi hev hup hgo hfn hidle => ⟨fun hop hown => ?pasid, fun hop hn hown => ?range, fun hop h0 hvf => ?stage2⟩,
    fun s fn hev hfn hgo hopen => ?complete, fun s u fn pasid n va hev hu => ⟨fun hopen => ?quiet, fun hopen => ?held⟩,
    fun s t fn v c hev hup hgo hfn hidle hknown hown hindex => ⟨fun x b hop hgap hread hrec => ?install, fun hop => ?remove⟩,
    fun s id q => ⟨fun hq => ⟨fun granted host hev hg => ?granted, fun granted host hev hg => ?asked⟩, fun hq => ?pri⟩,
    fun s fn h1 hfn hev => ?vf, fun s hev => ?vfs, fun s hup hoff => ?enable⟩
  case pasid =>
    have hmaps := ((s.dropPasid (tlbPasid hi)).performAll.performRemote_maps (tlbPasid hi)).trans (State.performAll_maps _)
    obtain ⟨htlb, hhost⟩ := s.dropPasid_gone (tlbPasid hi)
    rw [← State.tlb_of_maps hmaps] at htlb
    rw [← State.hostTlb_of_maps hmaps] at hhost
    exact ⟨_, (exec_tlbinvPasid s).trans (execTlbinvPasid_owned ⟨hev, hup, hgo, hfn, hidle, hop⟩ hown), State.goTlb_go _ hi hfn,
      htlb, hhost⟩
  case range =>
    refine ⟨_, (exec_tlbinvRange s).trans (execTlbinvRange_owned ⟨hev, hup, hgo, hfn, hidle, hop⟩ hn hown), State.goTlb_go _ hi hfn,
      fun e he hp a ha => ?_⟩
    rw [State.goTlb_tlb] at he
    exact State.dropRange_tlb he hp ha
  case stage2 =>
    have hmaps := (s.dropFn (tlbFunc hi)).performAll_maps
    obtain ⟨htlb, hhost⟩ := s.dropFn_gone (tlbFunc hi)
    rw [← State.tlb_of_maps hmaps] at htlb
    rw [← State.hostTlb_of_maps hmaps] at hhost
    exact ⟨_, (exec_tlbinvStage2 s).trans (execTlbinvStage2_named ⟨hev, hup, hgo, hfn, hidle, hop⟩ h0 hvf), State.goTlb_go _ hi hfn,
      htlb, hhost⟩
  case complete => exact (exec_tlbinvComplete s).trans (execTlbinvComplete_done hev hfn hgo hopen)
  case quiet =>
    subst hu
    exact (exec_atsInvalidateRequest s).trans (execAtsInvalidateRequest_quiet hev hopen)
  case held =>
    subst hu
    exact (exec_atsInvalidateRequest s).trans (execAtsInvalidateRequest_open hev hopen)
  case install =>
    have hmay : s.MayObject t fn v c 0 := ⟨hev, hup, hgo, hfn, hidle, hknown, hown, hindex, hop⟩
    have hc := State.objContext_ctx? hknown
    have hctx : (t.asksFront c.who [(c.objtab + BitVec.ofNat 64 (64 * objIndex v), 64)]).ctx? c.num = some c := by
      rw [State.ctx?_congr (State.ctxs_of_desk (t.asksFront_desk _ _)), State.ctx?_num hc]
      exact hc
    refine ⟨_, c.install (objIndex v) (.tensor x), (exec_objctlInstall s).trans (execObjctlInstall_tensor hmay hgap hread hrec),
      ?_, List.find?_cons_of_pos (by simp), State.setObjctl_go _ v hfn⟩
    rw [State.dropFailed_ctx?, State.setObjctl_ctx?]
    exact State.ctx?_setCtx hctx rfl
  case remove =>
    have hmay : s.MayObject t fn v c 1 := ⟨hev, hup, hgo, hfn, hidle, hknown, hown, hindex, hop⟩
    have hc := State.objContext_ctx? hknown
    refine ⟨_, c.uninstall (objIndex v), (exec_objctlRemove s).trans (execObjctlRemove_done hmay),
      ?_, ?_, State.setObjctl_go _ v hfn⟩
    · rw [State.setObjctl_ctx?]
      exact State.ctx?_setCtx ((State.ctx?_num hc).symm ▸ hc) rfl
    · exact List.find?_eq_none.2 fun o ho => by simpa using (List.mem_filter.1 ho).2
  case granted => exact (exec_atsCompletion s).trans (execAtsCompletion_granted hq hev hg)
  case asked => exact ⟨_, (exec_atsCompletion s).trans (execAtsCompletion_refused hq hev hg), s.askPage_outbox q⟩
  case pri =>
    refine ⟨fun hev ht => ⟨_, (exec_priResponse s).trans (execPriResponse_inTime hq hev ht), rfl⟩,
      fun hev ht => (exec_priResponse s).trans (execPriResponse_late hq hev ht),
      fun hev => (exec_priResponse s).trans (execPriResponse_failure hq hev),
      fun hev ht => (exec_priTimeout s).trans (execPriTimeout_late hq hev ht)⟩
  case vf =>
    have hdesk := (s.clearVf fn).sendPages_desk
    obtain ⟨hregs, hctxs, htlb⟩ := s.clearVf_gone hfn
    refine ⟨_, (exec_vfEnableClear s).trans (execVfEnableClear_one h1 hfn hev), (State.fnRegs_of_desk hdesk fn).trans hregs, ?_, ?_⟩
    · rw [State.ctxs_of_desk hdesk]
      exact hctxs
    · rw [State.tlb_of_maps (State.maps_of_desk hdesk)]
      exact htlb
  case vfs => exact ⟨_, (exec_vfEnableClear s).trans (execVfEnableClear_all hev), State.vfEnable_of_desk (State.sendPages_desk _)⟩
  case enable => exact (exec_vfEnableSet s).trans (execVfEnableSet_done hup hoff)
end

section
/-! PROOFS. Resets, ownership, health, temperature and corrected errors (15_system_and_traps.md R289, 18_package_host_fabric.md R343,
19_bring_up_and_health.md R361 to R370). -/

namespace Sys2Proof.Machine

open Sys2Proof

theorem exec_deviceReset (s : State) : exec .deviceReset s = execDeviceReset s := rfl
theorem exec_feedLoss (s : State) : exec .feedLoss s = execFeedLoss s := rfl
theorem exec_thermalTrip (s : State) : exec .thermalTrip s = execThermalTrip s := rfl
theorem exec_dreset (s : State) : exec .dreset s = execDreset s := rfl
theorem exec_ownClaim (s : State) : exec .ownClaim s = execOwnClaim s := rfl
theorem exec_ownHandto (s : State) : exec .ownHandto s = execOwnHandto s := rfl
theorem exec_ownAccept (s : State) : exec .ownAccept s = execOwnAccept s := rfl
theorem exec_healthUpdate (s : State) : exec .healthUpdate s = execHealthUpdate s := rfl
theorem exec_thermalLimit (s : State) : exec .thermalLimit s = execThermalLimit s := rfl
theorem exec_correctedError (s : State) : exec .correctedError s = execCorrectedError s := rfl

/-! ### What a device reset leaves of memory (R361) -/

/-- A canonical list of bytes, read byte by byte. -/
theorem Memory.get_cons {lo b k : Nat} {v : Byte} {rest : Memory} (h : Memory.wfFrom lo ((b, v) :: rest) = true) :
    Memory.get ((b, v) :: rest) k = if k = b then v else Memory.get rest k := by
  obtain ⟨-, -, hrest⟩ := Memory.wfFrom_cons.1 h
  rw [Memory.get]
  by_cases hkb : k < b
  · rw [if_pos hkb, Memory.get_below hrest (Nat.lt_succ_of_lt hkb)]
  · rw [if_neg hkb]

/-- Of a memory, the bytes whose keys a test picks. -/
theorem Memory.get_filter {lo k : Nat} {m : Memory} (p : Nat → Bool) (h : Memory.wfFrom lo m = true) :
    Memory.get (m.filter (fun c => p c.1)) k = if p k then Memory.get m k else 0 := by
  induction m generalizing lo with
  | nil => simp [Memory.get]
  | cons c rest ih =>
    obtain ⟨b, v⟩ := c
    obtain ⟨-, -, hrest⟩ := Memory.wfFrom_cons.1 h
    have hfilter := Memory.wfFrom_filter (fun c : Host.Cell => p c.1) h
    rw [List.filter_cons] at hfilter ⊢
    rw [Memory.get_cons h]
    by_cases hpb : p b
    · rw [if_pos hpb] at hfilter ⊢
      rw [Memory.get_cons hfilter, ih hrest]
      by_cases hkb : k = b
      · subst hkb
        rw [if_pos rfl, if_pos hpb, if_pos rfl]
      · rw [if_neg hkb, if_neg hkb]
    · rw [if_neg hpb, ih hrest]
      by_cases hkb : k = b
      · subst hkb
        rw [if_neg hpb, if_neg hpb]
      · rw [if_neg hkb]

theorem State.deviceReset_get {s : State} {fail : Byte} (h : s.memOk) (k : Nat) :
    (s.deviceReset fail).mem.get k = if keyKind k = 0 ∨ keyKind k = 4 then s.mem.get k else 0 := by
  refine (Memory.get_filter (fun k => decide (keyKind k = 0) || decide (keyKind k = 4)) h).trans ?_
  simp only [Bool.or_eq_true, decide_eq_true_eq]

theorem State.deviceReset_owner (s : State) (fail : Byte) : (s.deviceReset fail).owner = 0 := by
  have hreset : (s.deviceReset fail).regs.ownctl = 0 := rfl
  rw [State.owner, hreset]
  rfl

/-- The registers are at reset but for what the boot finds and the policy store keeps. -/
theorem State.deviceReset_regs (s : State) (fail : Byte) : ∃ (b : Word) (h : DWord), (s.deviceReset fail).regs =
    { PartRegs.reset with bootst := b, allowStore := s.regs.allowStore, health := h, healthAt := s.time } := ⟨_, _, rfl⟩

theorem State.deviceReset_allowStore (s : State) (fail : Byte) : (s.deviceReset fail).regs.allowStore = s.regs.allowStore := by
  obtain ⟨b, h, hregs⟩ := s.deviceReset_regs fail
  rw [hregs]

/-! ### Die resets (R343) -/

theorem State.dreset_of_office {s t : State} (h : t.office = s.office) : t.regs.dreset = s.regs.dreset := by
  have e := congrArg (fun u => u.regs.dreset) h
  exact e

theorem dresetOf_go (die : Nat) : (dresetOf die false 0).getLsbD 63 = false := by
  have hlt : die % 16 + 0 * 2 ^ 52 + (if false then 2 ^ 63 else 0) < 2 ^ 63 := by
    rw [if_neg Bool.false_ne_true]
    omega
  rw [dresetOf, BitVec.getLsbD_ofNat, Nat.testBit_lt_two_pow hlt, Bool.and_false]

/-- The end of a die reset: the die is authenticated again, and GO of DRESET reads 0. -/
theorem State.dresetDone_go (s : State) (die : Nat) :
    (s.onRegs (fun r => { r with dreset := dresetOf die false 0 })).moveQueues.regs.dreset.getLsbD 63 = false := by
  rw [State.dreset_of_office (State.moveQueues_office _)]
  exact dresetOf_go die

theorem execDreset_done {s : State} {cause : ResetCause} {fail : Byte} (hev : s.ev = .reset cause fail)
    (hgo : s.regs.dreset.getLsbD 63 = true) (hdie : fld s.regs.dreset 0 4 < 8)
    (hdrained : fld s.regs.dreset 0 4 < 2 → (s.drainX (fld s.regs.dreset 0 4)).drained1 (fld s.regs.dreset 0 4) = true) :
    ∃ t : State, execDreset s = .next (t.onRegs (fun r => { r with dreset := dresetOf (fld s.regs.dreset 0 4) false 0 })).moveQueues := by
  simp only [execDreset, hev, hgo, hdie, decide_true, Bool.and_self, if_true]
  by_cases hx : fld s.regs.dreset 0 4 < 2
  · rw [if_pos hx, State.dresetX, hdrained hx]
    exact ⟨_, rfl⟩
  · rw [if_neg hx]
    exact ⟨_, rfl⟩

/-! ### Ownership (R364, R365) -/

theorem State.owner_ownctlOf (s : State) {o h : Nat} (ho : o < 4) :
    (s.onRegs (fun r => { r with ownctl := ownctlOf o h })).owner = o := by
  show ((ownctlOf o h).extractLsb' 0 2).toNat = o
  rw [ownctlOf, BitVec.extractLsb'_toNat, BitVec.toNat_ofNat]
  simp only [Nat.shiftRight_zero]
  omega

theorem State.handTo_ownctlOf (s : State) {o h : Nat} (hh : h < 4) :
    (s.onRegs (fun r => { r with ownctl := ownctlOf o h })).handTo = h := by
  show ((ownctlOf o h).extractLsb' 2 2).toNat = h
  rw [ownctlOf, BitVec.extractLsb'_toNat, BitVec.toNat_ofNat, Nat.shiftRight_eq_div_pow]
  omega

theorem getLsbD_loHalf (v : DWord) {i : Nat} (h : i < 32) : (loHalf v).getLsbD i = v.getLsbD i := by
  rw [loHalf, BitVec.getLsbD_extractLsb', decide_eq_true h, Bool.true_and, Nat.zero_add]

/-- HANDTO of a written word. -/
theorem fld_loHalf (v : DWord) : ((loHalf v).extractLsb' 2 2).toNat = fld v 2 2 := by
  rw [fld, loHalf]
  congr 1
  ext i hi
  simp [BitVec.getElem_extractLsb']

theorem State.owner_lt (s : State) : s.owner < 4 := (s.regs.ownctl.extractLsb' 0 2).isLt
theorem State.handTo_lt (s : State) : s.handTo < 4 := (s.regs.ownctl.extractLsb' 2 2).isLt

section

variable {s : State} {m : Master} {w : Word}

theorem State.owns_of_owner (hm : ownerCode m ≠ 0) (h : s.owner = ownerCode m) : s.owns m = true := by
  simp [State.owns, hm, h]

theorem State.owns_of_other (h : s.owner ≠ ownerCode m) : s.owns m = false := by simp [State.owns, h]

/-- The first CLAIM, while OWNER is 0. -/
theorem State.writeOwnctl_claims (hm : ownerCode m ≠ 0) (hclaim : w.getLsbD 4 = true) (haccept : w.getLsbD 5 = false)
    (hnone : s.owner = 0) : s.writeOwnctl m w = s.onRegs (fun r => { r with ownctl := ownctlOf (ownerCode m) s.handTo }) := by
  have hown : s.owns m = false := State.owns_of_other (by omega)
  have hfirst : (decide (s.owner = 0) && decide (ownerCode m ≠ 0)) = true := by simp [hnone, hm]
  simp only [State.writeOwnctl, State.claim, hown, hclaim, haccept, hfirst, Bool.or_true, Bool.true_or, if_true, Bool.false_eq_true,
    if_false]

/-- A CLAIM by a master that is not the owner, while another is. -/
theorem State.writeOwnctl_claimed (hclaim : w.getLsbD 4 = true) (haccept : w.getLsbD 5 = false) (hsome : s.owner ≠ 0)
    (hother : s.owner ≠ ownerCode m) : s.writeOwnctl m w = s := by
  simp only [State.writeOwnctl, State.claim, State.owns_of_other hother, hclaim, haccept, hsome, decide_false, Bool.false_and,
    Bool.or_true, Bool.true_or, if_true, Bool.false_eq_true, if_false]

/-- The owner's write of HANDTO and ALLOW. -/
theorem State.writeOwnctl_hands (hm : ownerCode m ≠ 0) (hclaim : w.getLsbD 4 = false) (haccept : w.getLsbD 5 = false)
    (howner : s.owner = ownerCode m) : s.writeOwnctl m w = s.handOver w := by
  simp only [State.writeOwnctl, State.owns_of_owner hm howner, hclaim, haccept, Bool.true_or, if_true, Bool.false_eq_true, if_false]

/-- An ACCEPT by the master that HANDTO names. -/
theorem State.writeOwnctl_accepts (hm : ownerCode m ≠ 0) (hclaim : w.getLsbD 4 = false) (haccept : w.getLsbD 5 = true)
    (hother : s.owner ≠ ownerCode m) (hnamed : s.handTo = ownerCode m) :
    s.writeOwnctl m w = s.onRegs (fun r => { r with ownctl := ownctlOf (ownerCode m) 0 }) := by
  have hturn : (decide (ownerCode m ≠ 0) && decide (s.handTo = ownerCode m)) = true := by simp [hm, hnamed]
  simp only [State.writeOwnctl, State.accept, State.owns_of_other hother, hclaim, haccept, hturn, Bool.or_true, Bool.true_or, if_true,
    Bool.false_eq_true, if_false]

/-- An ACCEPT by another master. -/
theorem State.writeOwnctl_unnamed (hclaim : w.getLsbD 4 = false) (haccept : w.getLsbD 5 = true) (hother : s.owner ≠ ownerCode m)
    (hunnamed : s.handTo ≠ ownerCode m) : s.writeOwnctl m w = s := by
  simp only [State.writeOwnctl, State.accept, State.owns_of_other hother, hclaim, haccept, hunnamed, decide_false, Bool.and_false,
    Bool.or_true, Bool.true_or, if_true, Bool.false_eq_true, if_false]

theorem State.handOver_owner (s : State) (w : Word) : (s.handOver w).owner = s.owner :=
  State.owner_ownctlOf (s.onRegs (fun r => { r with allowStore := w.getLsbD 8 })) s.owner_lt

theorem State.handOver_handTo (h : (w.extractLsb' 2 2).toNat ≠ 3) : (s.handOver w).handTo = (w.extractLsb' 2 2).toNat := by
  have hset := State.handTo_ownctlOf (s.onRegs (fun r => { r with allowStore := w.getLsbD 8 })) (o := s.owner)
    (w.extractLsb' 2 2).isLt
  rw [State.handOver]
  simp only [if_neg h]
  exact hset

end

section

variable {s : State} {m : Master} {v : DWord}

theorem execOwnClaim_written (hev : s.ev = .master m v) (hhears : s.hears = true) (hclaim : v.getLsbD 4 = true) :
    execOwnClaim s = .next (s.writeOwnctl m (loHalf v)) := by
  simp only [execOwnClaim, hev, hhears, hclaim, Bool.and_self, if_true]

theorem execOwnHandto_written (hev : s.ev = .master m v) (hhears : s.hears = true) (hclaim : v.getLsbD 4 = false)
    (haccept : v.getLsbD 5 = false) : execOwnHandto s = .next (s.writeOwnctl m (loHalf v)) := by
  simp only [execOwnHandto, hev, hhears, hclaim, haccept, Bool.not_false, Bool.and_self, if_true]

theorem execOwnAccept_written (hev : s.ev = .master m v) (hhears : s.hears = true) (haccept : v.getLsbD 5 = true) :
    execOwnAccept s = .next (s.writeOwnctl m (loHalf v)) := by
  simp only [execOwnAccept, hev, hhears, haccept, Bool.and_self, if_true]

end

/-! ### Health and temperature (R369, R370) -/

/-- A die whose cores slow down keeps its registers and memory. -/
theorem State.slow_regs (s : State) (d : Nat) : (s.slow d).regs = s.regs := rfl

theorem State.slowAny_view (p : Nat → Bool) (ds : List Nat) (s : State) :
    (ds.foldl (fun t d => if p d then t.slow d else t) s).regs = s.regs ∧
    (ds.foldl (fun t d => if p d then t.slow d else t) s).mem = s.mem := by
  have hkeep := State.foldl_keeps (fun t : State => (t.regs, t.mem)) (fun t d => if p d then t.slow d else t)
    (fun t d => by split <;> rfl) ds s
  exact ⟨congrArg Prod.fst hkeep, congrArg Prod.snd hkeep⟩

/-- The hourly update of HEALTH. -/
theorem execHealthUpdate_hour {s : State} {v : DWord} (hev : s.ev = .health v) (hhour : s.regs.healthAt + 3600000000000 ≤ s.time) :
    ∃ t : State, execHealthUpdate s = .next t ∧ t.regs.health = s.healthOf v ∧ t.regs.healthAt = s.time ∧ t.mem = s.mem := by
  simp only [execHealthUpdate, hev, hhour, if_true]
  refine ⟨_, rfl, ?_⟩
  obtain ⟨hregs, hmem⟩ := State.slowAny_view (fun d => decide (fld (s.healthOf v) (24 + 8 * d) 8 < 8)) (List.range 2)
    (s.onRegs (fun r => { r with
        health := s.healthOf v, healthAt := s.time, hbmErrs := r.hbmErrs.filter (fun t => decide (s.time < t + dayNanos)) }))
  refine ⟨?_, ?_, hmem⟩
  · exact congrArg PartRegs.health hregs
  · exact congrArg PartRegs.healthAt hregs

/-- No core of a die that has slowed down runs above 2.0 GHz. -/
theorem State.slow_mhz (s : State) {d core : Nat} (h : dieOfCluster (clusterOfCore core) = d) : (s.slow d).mhz core = 2000 := by
  have hnone : (s.slow d).coreMHz.find? (fun c => c.1 = core) = none := by
    rw [List.find?_eq_none]
    intro c hc hcore
    have hkept := (List.mem_filter.1 hc).2
    simp only [decide_eq_true_eq] at hcore
    subst hcore
    simp [h] at hkept
  rw [State.mhz, hnone]
  rfl

theorem execThermalLimit_die {s : State} {d : Nat} (hev : s.ev = .die d) (hd : d < 2) :
    execThermalLimit s = .next { s.slow d with
      built := { s.built with heatCap := s.built.heatCap ||| BitVec.ofNat 2 (2 ^ d) } } := by
  simp only [execThermalLimit, hev, hd, if_true]
  rfl

theorem heatCap_set (x : BitVec 2) {d : Nat} (hd : d < 2) : (x ||| BitVec.ofNat 2 (2 ^ d)).getLsbD d = true := by
  rw [BitVec.getLsbD_or, BitVec.getLsbD_ofNat, Nat.testBit_two_pow_self, decide_eq_true hd]
  simp

theorem execCorrectedError_eq {s : State} {unit : Nat} {owner : Option Nat} {die cluster core slice : Byte} {loc synd : DWord}
    (hev : s.ev = .check unit owner die cluster core slice loc synd) :
    execCorrectedError s = .next ((s.onRegs (fun r => { r with
      hbmErrs := if unit = 4 then s.time :: r.hbmErrs else r.hbmErrs })).corrected
        (s.checkRecord unit 0 die cluster core slice loc synd)) := by
  simp only [execCorrectedError, hev]

end Sys2Proof.Machine

open Sys2Proof Sys2Proof.Machine

/-- Settles O53: each event, where its occasion holds, is its one operation; a device reset keeps the bytes of home memory and of the
host's, and a write of OWNCTL changes the fields that its writer may change. -/
theorem bringUpEventsComplete : Obligations.BringUpEventsComplete := by
  unfold Obligations.BringUpEventsComplete
  refine ⟨fun s fail hev => ⟨?reset, ?feed, ?trip⟩, fun s fail hm => ?kept, fun s cause fail hev hgo hdie hdrained => ?die,
    fun s m v hev hm hhears => ⟨fun hclaim haccept => ⟨fun hnone => ?claims, fun hsome hother => ?claimed⟩,
      fun hclaim haccept => ⟨fun howner => ?hands, fun hother => ?counted⟩,
      fun hclaim haccept hother => ⟨fun hnamed => ?accepts, fun hunnamed => ?unnamed⟩⟩,
    fun s v hev hhour => ?health, fun s d hev hd => ?limit, fun s unit owner die cluster core slice loc synd hev => ?corrected⟩
  case reset => rw [exec_deviceReset, execDeviceReset, hev]
  case feed => rw [exec_feedLoss, execFeedLoss, hev]
  case trip => rw [exec_thermalTrip, execThermalTrip, hev]
  case kept =>
    refine ⟨State.deviceReset_memOk hm fail, rfl, rfl, rfl, rfl, s.deviceReset_owner fail, s.deviceReset_allowStore fail,
      fun k hk => ?_, fun k hk => ?_⟩
    · rw [State.deviceReset_get hm, if_pos (.inl hk)]
    · rw [State.deviceReset_get hm, if_neg (by omega)]
  case die =>
    obtain ⟨t, ht⟩ := execDreset_done hev hgo hdie hdrained
    exact ⟨_, (exec_dreset s).trans ht, t.dresetDone_go _⟩
  case claims =>
    refine ⟨_, (exec_ownClaim s).trans ((execOwnClaim_written hev hhears hclaim).trans (congrArg Host.Outcome.next
      (State.writeOwnctl_claims hm ((getLsbD_loHalf v (by decide)).trans hclaim) ((getLsbD_loHalf v (by decide)).trans haccept) hnone))),
      State.owner_ownctlOf _ (by have := ownerCode_lt m; omega)⟩
  case claimed =>
    rw [exec_ownClaim, execOwnClaim_written hev hhears hclaim, State.writeOwnctl_claimed ((getLsbD_loHalf v (by decide)).trans hclaim)
      ((getLsbD_loHalf v (by decide)).trans haccept) hsome hother]
  case hands =>
    refine ⟨_, (exec_ownHandto s).trans ((execOwnHandto_written hev hhears hclaim haccept).trans (congrArg Host.Outcome.next
      (State.writeOwnctl_hands hm ((getLsbD_loHalf v (by decide)).trans hclaim) ((getLsbD_loHalf v (by decide)).trans haccept) howner))),
      (s.handOver_owner _).trans howner, getLsbD_loHalf v (by decide), fun hname => ?_⟩
    have hfield := fld_loHalf v
    exact (State.handOver_handTo (hfield ▸ hname)).trans hfield
  case counted =>
    rw [exec_ownHandto, execOwnHandto_written hev hhears hclaim haccept, State.writeOwnctl_of_other (State.owns_of_other hother) hm
      ((getLsbD_loHalf v (by decide)).trans hclaim) ((getLsbD_loHalf v (by decide)).trans haccept)]
  case accepts =>
    refine ⟨_, (exec_ownAccept s).trans ((execOwnAccept_written hev hhears haccept).trans (congrArg Host.Outcome.next
      (State.writeOwnctl_accepts hm ((getLsbD_loHalf v (by decide)).trans hclaim) ((getLsbD_loHalf v (by decide)).trans haccept)
        hother hnamed))), State.owner_ownctlOf _ (by have := ownerCode_lt m; omega), State.handTo_ownctlOf _ (by decide)⟩
  case unnamed =>
    rw [exec_ownAccept, execOwnAccept_written hev hhears haccept, State.writeOwnctl_unnamed ((getLsbD_loHalf v (by decide)).trans hclaim)
      ((getLsbD_loHalf v (by decide)).trans haccept) hother hunnamed]
  case health =>
    obtain ⟨t, ht, hrest⟩ := execHealthUpdate_hour hev hhour
    exact ⟨t, (exec_healthUpdate s).trans ht, hrest⟩
  case limit =>
    exact ⟨_, (exec_thermalLimit s).trans (execThermalLimit_die hev hd), heatCap_set _ hd, fun core hcore => s.slow_mhz hcore⟩
  case corrected =>
    refine ⟨_, s.checkRecord unit 0 die cluster core slice loc synd, (exec_correctedError s).trans (execCorrectedError_eq hev),
      rfl, fun hunit => if_pos hunit, rfl, rfl⟩
end

section
/-! PROOFS. Helpers: recruiting, chunks, the end and the join (13_helpers.md R241, R243, R245, R247, R249, R250). -/

namespace Sys2Proof.Machine

open Sys2Proof

theorem exec_rcrt (f : EX) (s : State) : exec (.rcrt f) s = execRcrt f s := rfl
theorem exec_hnext (f : EX) (s : State) : exec (.hnext f) s = execHnext f s := rfl
theorem exec_hrd (f : EX) (s : State) : exec (.hrd f) s = execHrd f s := rfl
theorem exec_hend (f : EX) (s : State) : exec (.hend f) s = execHend f s := rfl
theorem exec_hrel (f : EX) (s : State) : exec (.hrel f) s = execHrel f s := rfl
theorem exec_hjoin (f : EX) (s : State) : exec (.hjoin f) s = execHjoin f s := rfl
theorem exec_helperStart (s : State) : exec .helperStart s = execHelperStart s := rfl
theorem exec_hjoinComplete (s : State) : exec .hjoinComplete s = execHjoinComplete s := rfl
theorem exec_chunkWatchdogExpiry (s : State) : exec .chunkWatchdogExpiry s = execChunkWatchdogExpiry s := rfl

/-! ### The lane mask em (R43) -/

theorem Group.raw_setRaw_em (g : Group) (m : LaneSet) : (g.setRaw 0 m).raw 0 = m := by
  have h63 : (g.setRaw 0 m).rs 63 = laneWord m 2 := Group.rs_ws_self _ _ _ (by decide)
  have h62 : (g.setRaw 0 m).rs 62 = laneWord m 1 :=
    (Group.rs_ws_other _ 63 62 _ (by decide)).trans (Group.rs_ws_self _ _ _ (by decide))
  have h61 : (g.setRaw 0 m).rs 61 = laneWord m 0 :=
    (Group.rs_ws_other _ 63 61 _ (by decide)).trans ((Group.rs_ws_other _ 62 61 _ (by decide)).trans
      (Group.rs_ws_self _ _ _ (by decide)))
  show (g.setRaw 0 m).rs 63 ++ (g.setRaw 0 m).rs 62 ++ (g.setRaw 0 m).rs 61 = m
  rw [h63, h62, h61, laneWords_append]

/-- A scalar below em is none of its words. -/
theorem Group.raw_ws_below (g : Group) {d : BitVec 6} (x : Word) (hd : d.toNat < 61) : (g.ws d x).raw 0 = g.raw 0 := by
  have hother (n : BitVec 6) (hn : 61 ≤ n.toNat) : (g.ws d x).rs n = g.rs n :=
    Group.rs_ws_other g d n x (fun he => by rw [he] at hn; omega)
  show (g.ws d x).rs 63 ++ (g.ws d x).rs 62 ++ (g.ws d x).rs 61 = g.rs 63 ++ g.rs 62 ++ g.rs 61
  rw [hother 63 (by decide), hother 62 (by decide), hother 61 (by decide)]

/-! ### RCRT (R249) -/

/-- What a placement is looked for by is no memory. -/
theorem State.helperPlace_desk (s : State) : s.desk.helperPlace = s.helperPlace := rfl

theorem State.helperPlace_of_desk {s t : State} (h : t.desk = s.desk) : t.helperPlace = s.helperPlace := by
  rw [← State.helperPlace_desk t, h, State.helperPlace_desk]

theorem State.others_of_desk {s t : State} (h : t.desk = s.desk) : t.others = s.others := by
  have e := congrArg State.others h
  exact e

/-- The helpers of a grant are new groups of their recruiter: no more than asked for, and one where there is a place. -/
theorem State.grantHelpers_eq (s : State) (entry : DWord) (n k : Nat) : ∃ hs : List Group,
    s.grantHelpers entry n k = (k + hs.length, { s with others := s.others ++ hs, nextId := s.nextId + hs.length }) ∧
    hs.length ≤ n ∧ (∀ g ∈ hs, g.helps s.grp.id.uid = true ∧ g.status = .granted) ∧
    (0 < n → s.helperPlace.isSome = true → 1 ≤ hs.length) := by
  induction n generalizing s k with
  | zero => exact ⟨[], by simp [State.grantHelpers], Nat.le_refl _, by simp, fun h => absurd h (Nat.lt_irrefl _)⟩
  | succ n ih =>
    rw [State.grantHelpers]
    cases hplace : s.helperPlace with
    | none => exact ⟨[], by simp, Nat.zero_le _, by simp, fun _ h => by simp at h⟩
    | some p =>
      obtain ⟨hs, heq, hlen, hall, -⟩ := ih { s with
        others := s.others ++ [s.grp.makeHelper s.nextId p.1 p.2 k s.clock entry], nextId := s.nextId + 1 } (k + 1)
      refine ⟨s.grp.makeHelper s.nextId p.1 p.2 k s.clock entry :: hs, ?_, by simpa using hlen, ?_, fun _ _ => by simp⟩
      · dsimp only
        rw [heq]
        simp only [List.length_cons, List.append_assoc, List.singleton_append, Nat.add_assoc, Nat.add_comm 1]
      · intro g hg
        rcases List.mem_cons.1 hg with rfl | hg
        · exact ⟨decide_eq_true rfl, rfl⟩
        · exact hall g hg

theorem needAt_true (c : Cause) (a : DWord) : needAt true c a = .ok () := rfl

section

variable {s : State} {f : EX} {h : Header}

/-- The checks of RCRT that stand before its count. -/
structure State.MayRecruit (s : State) (f : EX) (h : Header) : Prop where
  form : f.okRcrt = true
  dest : s.grp.scalOk f.d = true
  count : s.grp.scalOk f.a = true
  lent : s.grp.lentOk f = true
  free : s.grp.recruit = none
  live : s.grp.liveIn f.d = false
  entry : s.check (s.grp.pc + 8 * f.imm.signExtend 64) = .ok h
  flag : h.flagH = true
  bound : (s.grp.rs f.a).toNat ≤ 24576

theorem State.MayRecruit.need (hm : s.MayRecruit f h) :
    (f.okRcrt && s.grp.scalOk f.d && s.grp.scalOk f.a && s.grp.lentOk f && s.grp.recruit.isNone) = true := by
  rw [hm.form, hm.dest, hm.count, hm.lent, hm.free]
  rfl

theorem execRcrt_zero (hm : s.MayRecruit f h) (hn : (s.grp.rs f.a).toNat = 0) :
    execRcrt f s = .next (s.after 1 (fun g => g.ws f.d 0)) := by
  simp only [execRcrt, hm.need, hm.live, hm.entry, hm.flag, hn, Nat.zero_le, decide_true, needAt_true, Bool.not_false,
    State.need_true, State.chk_ok, Run.ok_bind, if_true]
  rfl

theorem execRcrt_refused (hm : s.MayRecruit f h) (hn : (s.grp.rs f.a).toNat ≠ 0) (hcode : s.recruitCode ≠ 0) :
    execRcrt f s = .next (s.after 1 (fun g => g.ws f.d (BitVec.ofNat 32 s.recruitCode))) := by
  simp only [execRcrt, hm.need, hm.live, hm.entry, hm.flag, hm.bound, decide_true, needAt_true, Bool.not_false,
    State.need_true, State.chk_ok, Run.ok_bind, if_neg hn, if_pos hcode]
  rfl

/-- A group that has been granted helpers: its code and its recruitment. -/
def Group.recruits (g : Group) (f : EX) (n k : Nat) : Group :=
  { g.ws f.d (BitVec.ofNat 32 (k * 2 ^ 8 + (n + 95) / 96 * 2 ^ 16)) with recruit := some (g.newRecruit f n k) }

theorem execRcrt_granted (hm : s.MayRecruit f h) (hn : (s.grp.rs f.a).toNat ≠ 0) (hcode : s.recruitCode = 0)
    (hq : s.grp.relq = []) {k : Nat} {t : State}
    (hgrant : (s.releaseAt s.grp.coreNo 3).grantHelpers (s.grp.pc + 8 * f.imm.signExtend 64)
      (min 16 (min (((s.grp.rs f.a).toNat + 95) / 96) (s.quotaLeft s.grp.id.band))) 0 = (k, t)) (hgrp : t.grp = s.grp) :
    execRcrt f s = .next ((t.onGrp (fun g => g.recruits f (s.grp.rs f.a).toNat k)).retire 1) := by
  have hrun : s.releaseRun 3 = .ok (s.releaseAt s.grp.coreNo 3) := State.releaseRun_of_none hq (.inl (by decide))
  have hcode' : ¬ s.recruitCode ≠ 0 := not_not_intro hcode
  simp only [execRcrt, hm.need, hm.live, hm.entry, hm.flag, hm.bound, decide_true, needAt_true, Bool.not_false,
    State.need_true, State.chk_ok, Run.ok_bind, if_neg hn, if_neg hcode', hrun, chunksOf, hgrant, Run.pure_eq, finish_ok, settle_done]
  rw [State.onGrp, State.onGrp, Group.recruits, hgrp]

/-- Where RCRT gives no code, a helper can be placed, and the band has quota left. -/
theorem State.place_of_code (h : s.recruitCode = 0) : s.helperPlace.isSome = true ∧ s.quotaLeft s.grp.id.band ≠ 0 := by
  unfold State.recruitCode at h
  split at h
  · cases h
  split at h
  · cases h
  split at h
  · cases h
  split at h
  · cases h
  next hquota =>
    split at h
    · cases h
    next hplace => exact ⟨by simpa [Option.isSome_iff_ne_none] using hplace, hquota⟩

end

/-! ### Claims of chunks (R243, R250) -/

/-- A group with its claim replaced. -/
def Group.withClaim (g : Group) (c : Option Nat) : Group :=
  match g.helper with
  | some h => { g with helper := some { h with chunk := c, claimedAt := g.ccnt } }
  | none => { g with recruit := g.recruit.map (fun r => { r with selfClaim := c }) }

theorem State.setClaim_eq (s : State) (c : Option Nat) : s.setClaim c = s.onGrp (fun g => g.withClaim c) := rfl

theorem Group.withClaim_id (g : Group) (c : Option Nat) : (g.withClaim c).id = g.id := by
  unfold Group.withClaim
  split <;> rfl

theorem Group.withClaim_helper {g : Group} {h : Helper} (hh : g.helper = some h) (c : Option Nat) :
    (g.withClaim c).helper = some { h with chunk := c, claimedAt := g.ccnt } ∧ (g.withClaim c).recruit = g.recruit := by
  simp only [Group.withClaim, hh, and_self]

theorem Group.withClaim_self {g : Group} (hh : g.helper = none) (c : Option Nat) :
    (g.withClaim c).helper = none ∧ (g.withClaim c).recruit = g.recruit.map (fun r => { r with selfClaim := c }) := by
  simp only [Group.withClaim, hh, and_self]

/-- A group of a uid keeps its recruitment where the group in focus keeps its own. -/
theorem State.recruit_onGrp {s : State} {f : Group → Group} {u : Nat} {g : Group} (hid : (f s.grp).id = s.grp.id)
    (hrec : (f s.grp).recruit = s.grp.recruit) (hg : s.group? u = some g) :
    ∃ g', (s.onGrp f).group? u = some g' ∧ g'.recruit = g.recruit := by
  unfold State.group? State.groups at hg ⊢
  rw [List.find?_cons] at hg
  show ∃ g', (f s.grp :: s.others).find? _ = some g' ∧ _
  rw [List.find?_cons, hid]
  split at hg
  · cases hg
    exact ⟨f s.grp, by simp_all, hrec⟩
  · exact ⟨g, by simp_all, rfl⟩

/-- A group whose uid is not the one in focus keeps standing as it was. -/
theorem State.group?_onGrp_other {s : State} {f : Group → Group} {u : Nat} (hid : (f s.grp).id = s.grp.id)
    (hne : s.grp.id.uid ≠ u) : (s.onGrp f).group? u = s.group? u := by
  show (f s.grp :: s.others).find? _ = (s.grp :: s.others).find? _
  rw [List.find?_cons_of_neg (by simpa [hid] using hne), List.find?_cons_of_neg (by simpa using hne)]

theorem State.group?_of_desk {s t : State} (h : t.desk = s.desk) (u : Nat) : t.group? u = s.group? u := by
  rw [State.group?, State.group?, State.groups, State.groups, State.grp_of_desk h, State.others_of_desk h]

/-- The recruitment of a recruiter that is changed. -/
theorem State.group?_onRecruit {s : State} {u : Nat} {g : Group} {r : Recruit} (h : Recruit → Recruit) (hg : s.group? u = some g)
    (hr : g.recruit = some r) : (s.onRecruit u h).group? u = some { g with recruit := some (h r) } := by
  have huid : g.id.uid = u := by simpa using List.find?_some hg
  have hmap := s.group?_mapGroups (fun g => decide (g.id.uid = u)) (f := fun g => { g with recruit := g.recruit.map h }) (fun _ => rfl) u
  rw [State.onRecruit, hmap, hg, Option.map_some, if_pos (decide_eq_true huid), hr]
  rfl

theorem State.onRecruit_grp (s : State) (u : Nat) (h : Recruit → Recruit) :
    (s.onRecruit u h).grp = if s.grp.id.uid = u then { s.grp with recruit := s.grp.recruit.map h } else s.grp := by
  rw [State.onRecruit, State.mapGroups_grp]
  simp only [decide_eq_true_eq]

theorem State.onRecruit_id (s : State) (u : Nat) (h : Recruit → Recruit) : (s.onRecruit u h).grp.id = s.grp.id := by
  rw [State.onRecruit_grp]
  split <;> rfl

theorem State.onRecruit_helper (s : State) (u : Nat) (h : Recruit → Recruit) : (s.onRecruit u h).grp.helper = s.grp.helper := by
  rw [State.onRecruit_grp]
  split <;> rfl

/-- The recruitment that a group works in, after a change of it and a claim of the group's own. -/
theorem State.recruitOf_claimed {s : State} {u : Nat} {r : Recruit} (h : Recruit → Recruit) (c : Option Nat) {f : Group → Group}
    (hid : ∀ g, (f g).id = g.id) (hhelper : ∀ g, (f g).helper = g.helper) (hrec : ∀ g, (f g).recruit = g.recruit)
    (hr : s.recruitOf = some (u, r)) :
    (((s.onRecruit u h).setClaim c).onGrp f).recruitOf.map (fun x => x.2.next) = some (h r).next := by
  unfold State.recruitOf at hr
  split at hr
  next x hx =>
    obtain ⟨g, hg, hgr⟩ := Option.bind_eq_some_iff.1 hr
    obtain ⟨r', hr', he⟩ := Option.map_eq_some_iff.1 hgr
    obtain ⟨rfl, rfl⟩ := Prod.mk.inj he
    have hx1 : (s.onRecruit x.recruiter h).grp.helper = some x := (s.onRecruit_helper _ _).trans hx
    obtain ⟨hclaim, hkeep⟩ := Group.withClaim_helper hx1 c
    obtain ⟨g', hg', hrec'⟩ := State.recruit_onGrp (f := fun g => f (g.withClaim c)) ((hid _).trans (Group.withClaim_id _ _))
      ((hrec _).trans hkeep) (State.group?_onRecruit h hg hr')
    have hsome : (((s.onRecruit x.recruiter h).setClaim c).onGrp f).grp.helper =
        some { x with chunk := c, claimedAt := (s.onRecruit x.recruiter h).grp.ccnt } := (hhelper _).trans hclaim
    have hg'' : (((s.onRecruit x.recruiter h).setClaim c).onGrp f).group? x.recruiter = some g' := hg'
    rw [State.recruitOf, hsome]
    dsimp only
    rw [hg'', Option.bind_some, hrec']
    rfl
  next hnone =>
    obtain ⟨r', hr', he⟩ := Option.map_eq_some_iff.1 hr
    obtain ⟨rfl, rfl⟩ := Prod.mk.inj he
    have hgrp : (s.onRecruit s.grp.id.uid h).grp = { s.grp with recruit := some (h r') } := by
      rw [State.onRecruit_grp, if_pos rfl, hr']
      rfl
    obtain ⟨hself, hmap⟩ := Group.withClaim_self (g := (s.onRecruit s.grp.id.uid h).grp) (by rw [hgrp]; exact hnone) c
    have hn : (((s.onRecruit s.grp.id.uid h).setClaim c).onGrp f).grp.helper = none := (hhelper _).trans hself
    have hm : (((s.onRecruit s.grp.id.uid h).setClaim c).onGrp f).grp.recruit = some { h r' with selfClaim := c } :=
      (hrec _).trans (hmap.trans (by rw [hgrp]; rfl))
    rw [State.recruitOf, hn]
    dsimp only
    rw [hm]
    rfl

theorem Group.claimed_keeps (g : Group) (d : BitVec 6) (n : Nat) (c : Option Nat) :
    (g.claimed d n c).progressed.id = g.id ∧ (g.claimed d n c).progressed.helper = g.helper ∧
    (g.claimed d n c).progressed.recruit = g.recruit := by
  cases c <;> simp [Group.claimed, Group.progressed]

/-- The lanes of a claimed chunk (R239, R250). -/
theorem Group.claimed_lanes (g : Group) {d : BitVec 6} (hd : d.toNat < 61) (n c : Nat) {l : Nat} (hl : l < 96) :
    ((g.claimed d n (some c)).progressed.raw 0).getLsbD l = (decide (l < min 96 (n - 96 * c)) && g.live.getLsbD l) := by
  have hraw : (g.claimed d n (some c)).progressed.raw 0 = laneRange 0 (min 96 (n - 96 * c)) &&& g.live :=
    (Group.raw_ws_below _ _ hd).trans (Group.raw_setRaw_em _ _)
  have hrange : (laneRange 0 (min 96 (n - 96 * c))).getLsbD l = decide (l < min 96 (n - 96 * c)) := by
    rw [Bool.eq_iff_iff, getLsbD_laneRange hl, decide_eq_true_eq]
    simp only [Nat.zero_le, true_and]
  rw [hraw, BitVec.getLsbD_and, hrange]

section

variable {s : State} {f : EX} {u : Nat} {r : Recruit}

/-- HNEXT claims the next chunk, or none where the recruitment is released or all are claimed. -/
theorem execHnext_claims (hok : f.okHelper true 0 0 = true) (hd : s.grp.scalOk f.d = true) (hmay : s.grp.mayClaim = true)
    (hlive : s.grp.liveIn f.d = false) (hr : s.recruitOf = some (u, r)) {c : Option Nat}
    (hc : (if r.release || decide (chunksOf r.iters ≤ r.next) then none else some r.next) = c) :
    execHnext f s = .next ((((s.onRecruit u (fun r => { r.complete s.myClaim with
      next := if c.isSome then r.next + 1 else r.next })).setClaim c).onGrp (fun g => (g.claimed f.d r.iters c).progressed)).retire 1) := by
  simp only [execHnext, hok, hd, hmay, hlive, hr, hc, Bool.and_self, Bool.not_false, State.need_true, Run.ok_bind, Run.pure_eq, finish_ok,
    settle_done]

/-- What a claim leaves in focus. -/
theorem State.claim_grp (s : State) (u : Nat) (h : Recruit → Recruit) (c : Option Nat) (F : Group → Group) :
    ∃ g : Group, g.live = s.grp.live ∧ (((s.onRecruit u h).setClaim c).onGrp F).grp = F g :=
  ⟨(s.onRecruit u h).grp.withClaim c, congrArg (fun i : GroupId => liveMask i.lanes)
    ((Group.withClaim_id _ _).trans (s.onRecruit_id u h)), rfl⟩

theorem execHrd_reads (hok : f.okHelper true 22 0 = true) (hd : s.grp.scalOk f.d = true) (hmay : s.grp.mayClaim = true)
    (hlive : s.grp.liveIn f.d = false) (hr : s.recruitOf = some (u, r)) (hawake : ∀ g, s.group? u = some g → s.asleep g = false) :
    execHrd f s = .next (s.after 1 (fun g => g.ws f.d
      (if f.imm.toNat < 8 then r.lentVec[f.imm.toNat]?.getD 0 else r.lentScal[f.imm.toNat - 7]?.getD 0))) := by
  have hswept : ((s.group? u).map s.asleep).getD false = false := by
    cases hg : s.group? u with
    | none => rfl
    | some g => exact hawake g hg
  simp only [execHrd, hok, hd, hmay, hlive, hr, hswept, Bool.and_self, Bool.not_false, State.need_true, Run.ok_bind, Bool.false_eq_true,
    if_false]
  rfl

/-! ### The end of a helper (R247, R250) -/

theorem execHend_ends {h : Helper} (hok : f.okHelper false 0 0 = true) (hh : s.grp.helper = some h) (hq : s.grp.relq = []) :
    execHend f s = .next ((s.releaseAt s.grp.coreNo 3).endHelper h.recruiter) := by
  have hrun : s.releaseRun 3 = .ok (s.releaseAt s.grp.coreNo 3) := State.releaseRun_of_none hq (.inl (by decide))
  simp only [execHend, hok, hh, hrun, Option.isSome_some, Bool.and_self, State.need_true, Run.ok_bind]
  rfl

/-- The recruitment that a helper which ends leaves: its flags, and its chunk complete. -/
theorem State.endHelper_recruit {g : Group} (hne : s.grp.id.uid ≠ u) (hg : s.group? u = some g) (hr : g.recruit = some r) :
    (s.endHelper u).group? u = some { g with recruit := some { r.complete s.myClaim with fpsr := r.fpsr ||| s.grp.fpsr } } := by
  have hdrop (t : State) (v : Nat) : (t.dropPrivate v).group? u = t.group? u := rfl
  rw [State.endHelper]
  dsimp only
  rw [hdrop, State.group?_onGrp_other rfl (by rw [State.onRecruit_id]; exact hne), State.group?_onRecruit _ hg hr]

theorem Recruit.complete_done (r : Recruit) {c : Nat} (hc : c < 256) : (r.complete (some c)).done.getLsbD c = true := by
  show (r.done ||| BitVec.ofNat 256 (2 ^ c)).getLsbD c = true
  rw [BitVec.getLsbD_or, BitVec.getLsbD_ofNat, Nat.testBit_two_pow_self, decide_eq_true hc, Bool.and_self, Bool.or_true]

theorem Recruit.complete_fpsr (r : Recruit) (c : Option Nat) : (r.complete c).fpsr = r.fpsr := by cases c <;> rfl

/-! ### HREL and HJOIN (R250) -/

theorem execHrel_releases (hok : f.okHelper false 0 0 = true) (hh : s.grp.helper = none) :
    execHrel f s = .next ((s.onRecruit s.grp.id.uid (fun r => { r with release := true })).retire 1) := by
  simp only [execHrel, hok, hh, Option.isNone_none, Bool.and_self, State.need_true, Run.ok_bind]
  rfl

theorem State.join_none (hr : s.grp.recruit = none) (w : BitVec 4) :
    s.join (some w) = .ok (s.onGrp (fun g => { g with view := g.view.setIfInBounds w.toNat 0 })) := by
  simp only [State.join, hr]

theorem State.join_waits (hr : s.grp.recruit = some r) (hready : s.joinReady = false) (w : BitVec 4) :
    s.join (some w) = .error (.wait (.join w) s) := by
  simp only [State.join, hr, hready, Bool.not_false, if_true]

/-- A join of helpers none of which has faulted. -/
theorem State.join_joins (hr : s.grp.recruit = some r) (hready : s.joinReady = true) (hfaults : r.faults = []) (w : BitVec 4) :
    s.join (some w) = .ok ((s.joined (r.complete r.selfClaim)).onGrp (fun g => { g with
      view := g.view.setIfInBounds w.toNat (r.complete r.selfClaim).done })) := by
  have hfirst : r.firstFault = none := by rw [Recruit.firstFault, hfaults]; rfl
  simp only [State.join, hr, hready, hfirst, Bool.not_true, Bool.false_eq_true, if_false]

theorem execHjoin_eq (hok : f.okHelper false 0 7 = true) (hh : s.grp.helper = none) :
    execHjoin f s = finish 1 (s.join (some f.w) >>= fun t => .ok (.done t)) := by
  simp only [execHjoin, hok, hh, Option.isNone_none, Bool.and_self, State.need_true, Run.ok_bind]
  rfl

theorem execHjoin_joins (hok : f.okHelper false 0 7 = true) (hh : s.grp.helper = none) (hr : s.grp.recruit = some r)
    (hready : s.joinReady = true) (hfaults : r.faults = []) :
    execHjoin f s = .next (((s.joined (r.complete r.selfClaim)).onGrp (fun g => { g with
      view := g.view.setIfInBounds f.w.toNat (r.complete r.selfClaim).done })).retire 1) := by
  rw [execHjoin_eq hok hh, State.join_joins hr hready hfaults]
  rfl

/-- What a join leaves of the recruiter. -/
theorem State.joined_grp (s : State) (r : Recruit) : (s.joined r).grp = { s.grp with fpsr := s.grp.fpsr ||| r.fpsr, recruit := none } :=
  congrArg (fun g : Group => { g with fpsr := g.fpsr ||| r.fpsr, recruit := none }) (s.acquireAt_grp s.grp.coreNo 3)

theorem State.joined_mem (s : State) (r : Recruit) : (s.joined r).mem = s.mem := s.acquireAt_mem _ _

end

/-! ### Events of helpers (R241, R245, R250) -/

section

variable {s t : State} {uid : Nat} (hev : s.ev = .group uid) (ht : s.focus uid = some t)

include hev ht

theorem execHelperStart_starts (hgranted : t.grp.status = .granted) (hfits : t.helperFits t.grp = true) :
    ∃ (v : State) (b : List Nat), v.grp = t.grp ∧ v.mem = t.mem ∧ execHelperStart s = .next (v.onGrp (fun g =>
      { g with status := .ready, bankIds := b, helper := g.helper.map (fun h => { h with started := true }) })) := by
  have hfree : (t.grp.granted && t.helperFits t.grp) = true := by rw [Group.granted, decide_eq_true hgranted, hfits, Bool.and_self]
  have hwake (core : Nat) (first : List (Nat × Nat)) : (t.wake core first).grp = t.grp ∧ (t.wake core first).mem = t.mem := by
    unfold State.wake
    split <;> exact ⟨rfl, rfl⟩
  rw [execHelperStart, withGroup_of_focus _ _ hev ht, if_pos hfree]
  exact ⟨_, _, (State.acquireAt_grp _ _ _).trans (hwake _ _).1, (State.acquireAt_mem _ _ _).trans (hwake _ _).2, rfl⟩

theorem execHjoinComplete_joins {w : BitVec 4} {r : Recruit} (hwait : t.grp.status = .waiting (.join w)) (hready : t.joinReady = true)
    (hr : t.grp.recruit = some r) (hfaults : r.faults = []) :
    execHjoinComplete s = .next (((t.joined (r.complete r.selfClaim)).onGrp (fun g => { g with
      view := g.view.setIfInBounds w.toNat (r.complete r.selfClaim).done })).retire 1) := by
  rw [execHjoinComplete, withGroup_of_focus _ _ hev ht]
  simp only [Group.waiting?_of_status hwait, hready, if_true, State.join_joins hr hready hfaults, Run.ok_bind]
  rfl

theorem execChunkWatchdogExpiry_over {h : Helper} (hh : t.grp.helper = some h) (hchunk : h.chunk.isSome = true)
    (hres : t.grp.resident = true) (hruns : t.grp.status ≠ .parked) (hlong : 16384 < t.grp.ccnt - h.claimedAt) :
    execChunkWatchdogExpiry s = .next (t.takeTrap { cause := .wdprog }) := by
  have hover : (t.grp.chunkOver && t.grp.resident && decide (t.grp.status ≠ .parked)) = true := by
    simp only [Group.chunkOver, hh, hchunk, hres, hruns, hlong, decide_true, ne_eq, not_false_eq_true, Bool.and_self]
  rw [execChunkWatchdogExpiry, withGroup_of_focus _ _ hev ht, if_pos hover]

end

end Sys2Proof.Machine

open Sys2Proof Sys2Proof.Machine

/-- Settles O40: each instruction's checks pass, and its one effect is on the group and on the recruitment that it works in, which is
found again under its recruiter's uid. -/
theorem helpersComplete : Obligations.HelpersComplete := by
  unfold Obligations.HelpersComplete
  refine ⟨fun s f h n hform hdest hcount hlent hfree hlive hentry hflag hn hbound => ?recruit,
    fun s f u r hd hmay hlive hr => ⟨fun hok hbelow => ⟨fun hrel hnext => ?claims, fun hnone => ?none⟩, fun hok hawake => ?read⟩,
    fun s f h hok hh hne hq => ?ends, fun s f hh => ⟨fun hok => ?releases, fun hok => ?join⟩,
    fun s t uid hev ht => ⟨fun hgranted hfits => ?starts, fun w r hwait hready hr hfaults => ?joins,
      fun h hh hchunk hres hruns hlong => ?overdue⟩⟩
  case recruit =>
    subst hn
    have hm : s.MayRecruit f h := ⟨hform, hdest, hcount, hlent, hfree, hlive, hentry, hflag, hbound⟩
    refine ⟨fun h0 => (exec_rcrt f s).trans (execRcrt_zero hm h0), fun h0 hcode => (exec_rcrt f s).trans (execRcrt_refused hm h0 hcode),
      fun h0 hcode hq => ?_⟩
    obtain ⟨hplace, hquota⟩ := State.place_of_code hcode
    obtain ⟨hs, hgrant, hlen, hall, hone⟩ := (s.releaseAt s.grp.coreNo 3).grantHelpers_eq (s.grp.pc + 8 * f.imm.signExtend 64)
      (min 16 (min (((s.grp.rs f.a).toNat + 95) / 96) (s.quotaLeft s.grp.id.band))) 0
    rw [Nat.zero_add] at hgrant
    rw [State.releaseAt_grp] at hall
    rw [State.helperPlace_of_desk (State.releaseAt_desk _ _ _)] at hone
    have hgrp := s.releaseAt_grp s.grp.coreNo 3
    refine ⟨_, hs.length, s.grp.newRecruit f (s.grp.rs f.a).toNat hs.length,
      (exec_rcrt f s).trans (execRcrt_granted hm h0 hcode hq hgrant hgrp), hone (by omega) hplace, hlen,
      congrArg (fun g => g.recruits f (s.grp.rs f.a).toNat hs.length) hgrp, rfl, rfl, rfl, rfl, rfl, hs, ?_, rfl, hall⟩
    exact congrArg (· ++ hs) (State.others_of_desk (s.releaseAt_desk s.grp.coreNo 3))
  case claims =>
    have hc : (if r.release || decide (chunksOf r.iters ≤ r.next) then none else some r.next) = some r.next := by
      rw [chunksOf, hrel, decide_eq_false (Nat.not_le.2 hnext)]
      rfl
    obtain ⟨g, hlanes, hgrp⟩ := s.claim_grp u (fun x => { x.complete s.myClaim with next := if (some r.next).isSome then x.next + 1 else x.next })
      (some r.next) (fun g => (g.claimed f.d r.iters (some r.next)).progressed)
    refine ⟨_, (exec_hnext f s).trans (execHnext_claims hok hd hmay hlive hr hc), fun h0 => ?_, fun l hl => ?_, ?_⟩
    · rw [hgrp]
      exact Group.rs_ws_self _ _ _ h0
    · rw [hgrp, Group.claimed_lanes g hbelow _ _ hl, hlanes]
    · exact State.recruitOf_claimed _ _ (fun g => (g.claimed_keeps _ _ _).1) (fun g => (g.claimed_keeps _ _ _).2.1)
        (fun g => (g.claimed_keeps _ _ _).2.2) hr
  case none =>
    have hc : (if r.release || decide (chunksOf r.iters ≤ r.next) then none else some r.next) = none := by
      rcases hnone with h | h
      · rw [h]; rfl
      · rw [chunksOf, decide_eq_true h, Bool.or_true]; rfl
    refine ⟨_, (exec_hnext f s).trans (execHnext_claims hok hd hmay hlive hr hc), fun h0 => Group.rs_ws_self _ _ _ h0, ?_⟩
    exact (Group.raw_ws_below _ _ hbelow).trans (Group.raw_setRaw_em _ _)
  case read => exact (exec_hrd f s).trans (execHrd_reads hok hd hmay hlive hr hawake)
  case ends =>
    have hdesk := s.releaseAt_desk s.grp.coreNo 3
    have hgrp := State.grp_of_desk hdesk
    have hclaim : (s.releaseAt s.grp.coreNo 3).myClaim = h.chunk := by
      rw [State.myClaim, hgrp, hh]
    refine ⟨_, (exec_hend f s).trans (execHend_ends hok hh hq), rfl, fun g r hg hr => ?_⟩
    rw [← State.group?_of_desk hdesk] at hg
    refine ⟨_, _, State.endHelper_recruit (by rw [hgrp]; exact hne.symm) hg hr, rfl, by rw [hgrp], fun c hc hlt => ?_⟩
    rw [hclaim, hc]
    exact Recruit.complete_done r hlt
  case releases =>
    exact ⟨_, (exec_hrel f s).trans (execHrel_releases hok hh), (s.onRecruit_grp _ _).trans (if_pos rfl)⟩
  case join =>
    refine ⟨fun hr => ?_, fun r hr hready => ?_, fun r hr hready hfaults =>
      ⟨_, (exec_hjoin f s).trans (execHjoin_joins hok hh hr hready hfaults), ?_⟩⟩
    · rw [exec_hjoin, execHjoin_eq hok hh, State.join_none hr]
      rfl
    · rw [exec_hjoin, execHjoin_eq hok hh, State.join_waits hr hready]
      rfl
    · refine (congrArg (fun g : Group => { g with view := g.view.setIfInBounds f.w.toNat (r.complete r.selfClaim).done })
        (s.joined_grp _)).trans ?_
      rw [Recruit.complete_fpsr]
  case starts =>
    obtain ⟨v, b, hgrp, hmem, hrun⟩ := execHelperStart_starts hev ht hgranted hfits
    have hpc := congrArg Group.pc hgrp
    exact ⟨_, (exec_helperStart s).trans hrun, rfl, hpc, hmem⟩
  case joins =>
    exact ⟨_, (exec_hjoinComplete s).trans (execHjoinComplete_joins hev ht hwait hready hr hfaults),
      rfl, t.joined_mem (r.complete r.selfClaim)⟩
  case overdue =>
    exact (exec_chunkWatchdogExpiry s).trans (execChunkWatchdogExpiry_over hev ht hh hchunk hres hruns hlong)
end

section
/-! PROOFS. Regions, the eviction of harvest groups and their reload (14_harvest_regions.md R253 to R261, R263, R265, R268 to
R270). -/

namespace Sys2Proof.Machine

open Sys2Proof

theorem exec_rgnOpen (f : EX) (s : State) : exec (.rgnOpen f) s = execRgnOpen f s := rfl
theorem exec_rgnClose (f : EX) (s : State) : exec (.rgnClose f) s = execRgnClose f s := rfl
theorem exec_rgnAbort (f : EX) (s : State) : exec (.rgnAbort f) s = execRgnAbort f s := rfl
theorem exec_rgnOpenBufferGrant (s : State) : exec .rgnOpenBufferGrant s = execRgnOpenBufferGrant s := rfl
theorem exec_rgnCommitPublish (s : State) : exec .rgnCommitPublish s = execRgnCommitPublish s := rfl
theorem exec_harvestEviction (s : State) : exec .harvestEviction s = execHarvestEviction s := rfl
theorem exec_spillComplete (s : State) : exec .spillComplete s = execSpillComplete s := rfl
theorem exec_harvestReload (s : State) : exec .harvestReload s = execHarvestReload s := rfl

/-! ### RGN.OPEN (R253, R257, R268) -/

theorem Group.opens_newRegion (g : Group) (f : EX) : g.opens f (g.newRegion f) := by
  refine ⟨rfl, rfl, rfl, rfl, rfl, rfl, rfl, fun i hi => ?_⟩
  simp only [Group.newRegion, List.getElem?_map, List.getElem?_range hi, Option.map_some]

theorem State.openRegion_opens {s : State} {f : EX} (hfree : s.bufferFree = true) (htiles : s.grp.tilesBusy f.w = false) :
    finish 1 (s.openRegion f) =
      .next (s.after 1 (fun g => { g with region := some (s.grp.newRegion f), reopens := false })) := by
  simp only [State.openRegion, hfree, htiles, Bool.not_true, Bool.false_eq_true, if_false]
  rfl

section

variable {s : State} {f : EX}

theorem execRgnOpen_eq (hok : f.okRgnOpen = true) (hfirst : s.firstInG = true) (hmay : s.grp.mayOpen f = true) :
    execRgnOpen f s = finish 1 (s.openRegion f) := by
  simp only [execRgnOpen, hok, hfirst, hmay, Bool.and_self, State.need_true, Run.ok_bind]

theorem State.openRegion_noBuffer (hfree : s.bufferFree = false) :
    finish 1 (s.openRegion f) = .next (s.waitFor (.regionBuffer f)) := by
  simp only [State.openRegion, hfree, Bool.not_false, if_true, finish_ok, settle_wait]

theorem State.openRegion_tilesBusy (hfree : s.bufferFree = true) (htiles : s.grp.tilesBusy f.w = true) :
    finish 1 (s.openRegion f) = .next (s.waitFor (.regionTiles f)) := by
  simp only [State.openRegion, hfree, htiles, Bool.not_true, Bool.false_eq_true, if_false, if_true, finish_ok, settle_wait]

end

theorem execRgnOpenBufferGrant_free {s t : State} {uid : Nat} {f : EX} (hev : s.ev = .group uid) (ht : s.focus uid = some t)
    (hwait : t.grp.status = .waiting (.regionBuffer f)) (hfree : t.bufferFree = true) :
    execRgnOpenBufferGrant s = finish 1 (t.openRegion f) := by
  simp only [execRgnOpenBufferGrant, withGroup_of_focus _ _ hev ht, Group.waiting?_of_status hwait, hfree, if_true]

/-! ### Writing the sources of a commit -/

section

variable {f : EX}

/-- A walk of scalar writes keeps what each of them keeps. -/
theorem Group.writeScalars_region (g : Group) (d : Nat) (xs : List Word) : (g.writeScalars d xs).region = g.region := by
  induction xs generalizing g d with
  | nil => rfl
  | cons x xs ih => exact (ih _ _).trans (Group.ws_region _ _ _)

/-- A scalar below those written keeps its value. -/
theorem Group.writeScalars_below (g : Group) (d : Nat) (xs : List Word) {k : Nat} (hk : k < d) (hd : d + xs.length ≤ 64) :
    (g.writeScalars d xs).rs (BitVec.ofNat 6 k) = g.rs (BitVec.ofNat 6 k) := by
  induction xs generalizing g d with
  | nil => rfl
  | cons x xs ih =>
    rw [List.length_cons] at hd
    have hne : BitVec.ofNat 6 k ≠ BitVec.ofNat 6 d := fun he => by
      have hnat := congrArg BitVec.toNat he
      simp only [BitVec.toNat_ofNat] at hnat
      omega
    exact (ih _ (d + 1) (by omega) (by omega)).trans (Group.rs_ws_other _ _ _ _ hne)

/-- Each scalar written, other than s0, has its value of the list. -/
theorem Group.writeScalars_at (g : Group) (d : Nat) (xs : List Word) {i : Nat} (hi : i < xs.length) (hd : d + xs.length ≤ 64)
    (hzero : d + i ≠ 0) : (g.writeScalars d xs).rs (BitVec.ofNat 6 (d + i)) = xs[i] := by
  induction xs generalizing g d i with
  | nil => exact absurd hi (Nat.not_lt_zero _)
  | cons x xs ih =>
    rw [List.length_cons] at hd hi
    cases i with
    | zero =>
      have hne : BitVec.ofNat 6 d ≠ 0 := fun he => by
        have hnat := congrArg BitVec.toNat he
        have hnat' : d % 64 = 0 := hnat
        omega
      exact (Group.writeScalars_below _ _ _ (Nat.lt_succ_self d) (by omega)).trans (Group.rs_ws_self _ _ _ hne)
    | succ i =>
      have hnext := ih (g.ws (BitVec.ofNat 6 d) x) (d + 1) (i := i) (by omega) (by omega) (by omega)
      rw [show d + (i + 1) = d + 1 + i by omega]
      exact hnext

theorem EX.okRgnClose_fits (hok : f.okRgnClose = true) (hc : f.c.toNat ≠ 0) : f.d.toNat + f.c.toNat ≤ 64 := by
  have hc' : f.c ≠ 0 := fun he => hc (by rw [he]; rfl)
  simp only [EX.okRgnClose, if_neg hc', Bool.and_eq_true, decide_eq_true_eq] at hok
  exact hok.2.1

end

/-! ### RGN.CLOSE and its commit (R259, R269) -/

theorem State.publishLine_grp (s : State) (line : Nat) (mask : BitVec 128) (data : Vector Byte 128) :
    (s.publishLine line mask data).grp = s.grp := by
  refine (State.foldl_keeps State.grp _ (fun t o => ?_) _ _).trans (s.takeExclusive_grp _ _)
  split
  · exact t.setBacking_grp _ _
  · rfl

theorem State.publishBytes_grp (s : State) (key : Nat) (xs : List Byte) : (s.publishBytes key xs).grp = s.grp := by
  induction xs generalizing s key with
  | nil => rfl
  | cons x xs ih => exact (ih _ _).trans (s.setBacking_grp _ _)

theorem State.applyEntry_grp (s : State) (e : BufEntry) : (s.applyEntry e).grp = s.grp := by
  cases e with
  | line l m d => exact s.publishLine_grp l m d
  | atom k n o x => exact (State.publishBytes_grp _ _ _).trans (s.takeExclusive_grp _ _)

/-- What the publication of a region's buffer leaves of its group. -/
theorem State.publish_grp (s : State) (r : Region) :
    (s.publish r).grp = ({ s.grp with region := none, rgnRst := none } : Group).progressed := by
  rw [State.publish, State.onGrp, State.onGrp, State.foldl_keeps State.grp _ State.applyEntry_grp]

/-- The state after a commit, with the sources written. -/
def State.committed (s : State) (f : EX) (r : Region) : State :=
  (s.publish r).onGrp (fun g => g.writeScalars f.d.toNat (s.grp.sources f))

theorem State.committed_region (s : State) (f : EX) (r : Region) : (s.committed f r).grp.region = none := by
  rw [State.committed, State.onGrp, Group.writeScalars_region, State.publish_grp]
  rfl

theorem State.committed_sources (s : State) {f : EX} (r : Region) (hok : f.okRgnClose = true) {i : Nat} (hi : i < f.c.toNat)
    (hzero : f.d.toNat + i ≠ 0) : (s.committed f r).grp.rs (BitVec.ofNat 6 (f.d.toNat + i)) =
      s.grp.rs (BitVec.ofNat 6 (f.a.toNat + i)) := by
  have hlen : (s.grp.sources f).length = f.c.toNat := by rw [Group.sources, List.length_map, List.length_range]
  have hfits := EX.okRgnClose_fits hok (by omega)
  rw [State.committed, State.onGrp, Group.writeScalars_at _ _ _ (by rw [hlen]; exact hi) (by rw [hlen]; exact hfits) hzero]
  simp only [Group.sources, List.getElem_map, List.getElem_range]

theorem State.commit_once {s : State} {f : EX} (r : Region) (h : f.imm = 0 ∨ s.grp.rs f.b = 0) :
    s.commit f r = .done (s.committed f r) := by
  have hagain : (decide (f.imm = 1) && decide (s.grp.rs f.b ≠ 0)) = false := by
    rcases h with h | h
    · rw [h]; rfl
    · rw [h]; exact Bool.and_false _
  simp only [State.commit, hagain, Bool.false_eq_true, if_false]
  rfl

theorem State.commit_again {s : State} {f : EX} (r : Region) (himm : f.imm = 1) (hb : s.grp.rs f.b ≠ 0) :
    s.commit f r = .goto r.marker ((s.committed f r).onGrp (fun g => { g with reopens := true })) := by
  simp only [State.commit, himm, decide_eq_true hb, decide_true, Bool.and_self, if_true]
  rfl

/-- A group that waits. -/
def Group.awaits (g : Group) (w : Wait) : Group := { g with status := .waiting w }

/-- The part as RGN.CLOSE leaves it: released at the commit's scope, the remote bytes on their way, the group waiting to commit. -/
def State.gathers (s : State) (f : EX) : State :=
  let u := s.releaseAt s.grp.coreNo f.sub.toNat
  if f.sub = 6 then (u.sendRemoteWrites u.remoteDirty).waitFor (.commit f u.remoteDirty) else u.waitFor (.commit f [])

/-- The remote bytes whose acknowledgement a commit waits for. -/
def State.gathered (s : State) (f : EX) : List Host.Cell :=
  if f.sub = 6 then (s.releaseAt s.grp.coreNo 6).remoteDirty else []

theorem State.gathers_grp (s : State) (f : EX) :
    (s.gathers f).grp = s.grp.awaits (.commit f (s.gathered f)) := by
  have hgrp (t : State) (w : Wait) (h : t.grp = s.grp) : (t.waitFor w).grp = s.grp.awaits w :=
    congrArg (fun g : Group => g.awaits w) h
  have hsent (u : State) : (u.sendRemoteWrites u.remoteDirty).grp = u.grp := State.grp_of_turns (u.sendRemoteWrites_turns _)
  unfold State.gathers State.gathered
  by_cases hsub : f.sub = 6
  · have hscope : f.sub.toNat = 6 := by rw [hsub]; rfl
    rw [if_pos hsub, if_pos hsub, hscope]
    exact hgrp _ _ ((hsent _).trans (s.releaseAt_grp _ _))
  · rw [if_neg hsub, if_neg hsub]
    exact hgrp _ _ (s.releaseAt_grp _ _)

section

variable {s : State} {f : EX} {r : Region}

theorem execRgnClose_gathers (hok : f.okRgnClose = true) (hr : s.grp.region = some r) (hmx : s.grp.mxq = [])
    (hrel : s.grp.relq = []) : execRgnClose f s = .next (s.gathers f) := by
  have hin : s.grp.inRegion = true := by rw [Group.inRegion, hr]; rfl
  simp only [execRgnClose, hok, hin, hmx, State.settleStores_of_none hrel, Bool.and_self, State.need_true, Run.ok_bind,
    List.isEmpty_nil, Bool.not_true, Bool.false_eq_true, if_false, State.gathers]
  split <;> rfl

/-- The event by which a group that has gathered commits. -/
theorem execRgnCommitPublish_gathered {t : State} {uid : Nat} {sent : List Host.Cell} (hev : t.ev = .group uid)
    (huid : t.grp.id.uid = uid) (hr : t.grp.region = some r) (hwait : t.grp.status = .waiting (.commit f sent))
    (hack : t.unacked sent = false) : execRgnCommitPublish t = settle 1 (t.commit f r) := by
  have hfocus : t.focus uid = some t := if_pos huid
  rw [execRgnCommitPublish, withGroup_of_focus _ _ hev hfocus]
  simp only [Group.waiting?_of_status hwait, hr, hack, Bool.false_eq_true, if_false]

end

/-! ### RGN.ABORT (R254, R270) -/

/-- What entering a block, without LIVE, changes. -/
theorem State.enter_dead {s t : State} {a : DWord} (h : s.enter a false = .ok t) :
    ∃ e, t = { s with grp := { s.grp with pc := a + 8, blockHdr := a, blockEnd := e } } := by
  unfold State.enter at h
  cases hw : s.fetch a with
  | error c =>
    rw [hw] at h
    cases h
  | ok w =>
    simp only [hw, Bool.false_eq_true, if_false] at h
    by_cases hhead : isHeader w = true
    · simp only [hhead, Bool.not_true, Bool.false_eq_true, if_false] at h
      rcases ite_eq_iff.1 h with ⟨-, he⟩ | ⟨-, he⟩
      · cases he
      · injection he with ht
        exact ⟨_, ht.symm⟩
    · simp only [hhead, Bool.not_false, if_true] at h
      cases h

section

variable {r : Region}

theorem Group.restart_livein (g : Group) {i : Nat} (hlo : r.first ≤ i) (hhi : i < r.first + r.count) (hi : i < 61)
    (hzero : i ≠ 0) : (g.restart r).rs (BitVec.ofNat 6 i) = r.svals[i - r.first]?.getD 0 := by
  have hnat : (BitVec.ofNat 6 i).toNat = i := by rw [BitVec.toNat_ofNat]; exact Nat.mod_eq_of_lt (by omega)
  have hne : BitVec.ofNat 6 i ≠ 0 := fun he => hzero (hnat.symm.trans (congrArg BitVec.toNat he))
  have hin : (decide (r.first ≤ i) && decide (i < r.first + r.count)) = true := by
    rw [decide_eq_true hlo, decide_eq_true hhi]
    rfl
  have hbelow : ¬ 61 ≤ i := by omega
  simp only [Group.rs, if_neg hne, Group.restart, restartScalars, Vector.getElem_ofFn, hnat, hin, if_neg hbelow, if_true]

end

theorem execRgnAbort_enters {s t : State} {f : EX} {r : Region} (hok : f.okHelper false 0 0 = true)
    (hr : s.grp.region = some r) (ht : ((s.onGrp Group.countRetired).toMarker r).enter r.marker false = .ok t) :
    execRgnAbort f s = .next t := by
  have hin : s.grp.inRegion = true := by rw [Group.inRegion, hr]; rfl
  have hr' : (s.onGrp Group.countRetired).grp.region = some r := hr
  have hrestart : (s.onGrp Group.countRetired).restartRegion = t := by simp only [State.restartRegion, hr', ht]
  simp only [execRgnAbort, hok, hin, Bool.and_self, State.need_true, Run.ok_bind, hrestart, Run.pure_eq, finish_ok, settle_at]

/-! ### Eviction, spill and reload (R260 to R265) -/

theorem execHarvestEviction_due {s t : State} {uid : Nat} {w : BitVec 4} (hev : s.ev = .evict uid w) (ht : s.focus uid = some t)
    (hvictim : t.grp.victim = true) (hdue : t.evictionDue t.grp = true) : execHarvestEviction s = .next t.evict := by
  simp only [execHarvestEviction, hev, ht, hvictim, hdue, Bool.and_self, if_true]

theorem State.evict_grp (s : State) :
    ∃ r p, s.evict.grp.status = .evicted r false p ∧ s.evict.grp.bankIds = [] := ⟨_, _, rfl, rfl⟩

theorem State.spilled_grp (s : State) (r p : Bool) :
    (s.spilled r p).grp.status = .evicted r true p ∧ (s.spilled r p).mem = s.mem := by
  unfold State.spilled
  split
  · exact ⟨rfl, rfl⟩
  · exact ⟨rfl, rfl⟩

theorem State.placeToken_runs (s : State) (uid reg : Nat) (token : DWord) (rel : Nat) :
    ((s.placeToken uid reg token rel).grp.status, (s.placeToken uid reg token rel).grp.pc,
      (s.placeToken uid reg token rel).grp.sreg) = (s.grp.status, s.grp.pc, s.grp.sreg) := by
  rw [State.placeToken, State.mapGroups_grp]
  split
  · rfl
  · rfl

/-- Tokens that come back to a group leave what it runs on. -/
theorem State.placeHeld_runs (s : State) :
    (s.placeHeld.grp.status, s.placeHeld.grp.pc, s.placeHeld.grp.sreg) = (s.grp.status, s.grp.pc, s.grp.sreg) :=
  State.foldl_keeps (fun t : State => (t.grp.status, t.grp.pc, t.grp.sreg)) _ (fun t _ => t.placeToken_runs _ _ _ _) _ s

theorem State.wakeFor_grp (s : State) (core slice need : Nat) : (s.wakeFor core slice need).2.grp = s.grp := by
  unfold State.wakeFor State.wake
  dsimp only
  split
  · rfl
  · rfl

/-- A group that was evicted outside a region goes on where it was. -/
theorem State.reload_outside (s : State) (slice : Nat) (p : Bool) :
    (s.reload slice false p).grp.status = (if p then .parked else .ready) ∧ (s.reload slice false p).grp.pc = s.grp.pc ∧
      (s.reload slice false p).grp.sreg = s.grp.sreg := by
  have hwake := s.wakeFor_grp s.grp.coreNo slice s.grp.id.bankNeed
  have hgrp := ((s.wakeFor s.grp.coreNo slice s.grp.id.bankNeed).2.acquireAt_grp
    (s.wakeFor s.grp.coreNo slice s.grp.id.bankNeed).2.grp.coreNo 6).trans hwake
  have hruns := State.placeHeld_runs (((s.wakeFor s.grp.coreNo slice s.grp.id.bankNeed).2.acquireAt
    (s.wakeFor s.grp.coreNo slice s.grp.id.bankNeed).2.grp.coreNo 6).onGrp (fun g =>
    { g with
      id := { g.id with slice := slice, placedAt := s.clock }, bankIds := (s.wakeFor s.grp.coreNo slice s.grp.id.bankNeed).1,
      drowsy := [], slot := none, slotBytes := [], status := if p then .parked else .ready }))
  simp only [Prod.mk.injEq] at hruns
  obtain ⟨hstatus, hpc, hsreg⟩ := hruns
  have hpc' := congrArg Group.pc hgrp
  have hsreg' := congrArg Group.sreg hgrp
  exact ⟨hstatus, hpc.trans hpc', hsreg.trans hsreg'⟩

section

variable {s t : State} {uid : Nat} {r p : Bool}

theorem execSpillComplete_clear (hev : s.ev = .group uid) (ht : s.focus uid = some t)
    (hstatus : t.grp.status = .evicted r false p) (hrel : t.grp.relq = []) (hclear : t.remoteDirty = []) :
    execSpillComplete s = .next (t.spilled r p) := by
  have hclear' : t.remoteClear = true := by rw [State.remoteClear, hclear]; rfl
  simp only [execSpillComplete, withGroup_of_focus _ _ hev ht, hstatus, State.settleFirst, State.settleNow_of_none hrel, hrel,
    hclear', List.isEmpty_nil, Bool.not_true, Bool.or_true, Bool.and_self, if_true]

variable {l : Nat}

theorem execHarvestReload_kept (hev : s.ev = .group uid) (ht : s.focus uid = some t)
    (hstatus : t.grp.status = .evicted r true p) (hslice : t.reloadSlice = some l) (hheld : t.ctxHeld = false)
    (hslot : t.slotChanged = false) : execHarvestReload s = .next (t.reload l r p) := by
  simp only [execHarvestReload, withGroup_of_focus _ _ hev ht, hstatus, hslice, hheld, hslot, Bool.false_eq_true, if_false]

theorem execHarvestReload_changed (hev : s.ev = .group uid) (ht : s.focus uid = some t)
    (hstatus : t.grp.status = .evicted r true p) (hslice : t.reloadSlice = some l) (hheld : t.ctxHeld = false)
    (hslot : t.slotChanged = true) : ∃ u : State, execHarvestReload s = .next (u.killContext t.grp.id.ctx) := by
  simp only [execHarvestReload, withGroup_of_focus _ _ hev ht, hstatus, hslice, hheld, hslot, Bool.false_eq_true, if_false,
    if_true]
  exact ⟨_, rfl⟩

end

end Sys2Proof.Machine
end

open Sys2Proof Sys2Proof.Machine

section

/-- Settles O41: RGN.CLOSE and RGN.ABORT by what a commit and a restart leave of the group, a reload by what the tokens that
come back leave. -/
theorem regionsComplete : Obligations.RegionsComplete := by
  unfold Obligations.RegionsComplete
  refine ⟨?open_, ?grant, ?close, ?abort, ?evict, ?spill⟩
  case open_ =>
    intro s f hok hfirst hmay
    rw [exec_rgnOpen, execRgnOpen_eq hok hfirst hmay]
    exact ⟨State.openRegion_noBuffer, fun hfree htiles => ⟨_, State.openRegion_opens hfree htiles, s.grp.opens_newRegion f⟩,
      State.openRegion_tilesBusy⟩
  case grant =>
    intro s t uid f hev ht hwait hfree htiles
    rw [exec_rgnOpenBufferGrant, execRgnOpenBufferGrant_free hev ht hwait hfree]
    exact ⟨_, State.openRegion_opens hfree htiles, t.grp.opens_newRegion f⟩
  case close =>
    intro s f r hok hr hmx hrel
    have hgrp := s.gathers_grp f
    have hwait : (s.gathers f).grp.status = .waiting (.commit f (s.gathered f)) := congrArg Group.status hgrp
    have hregion : (s.gathers f).grp.region = some r := (congrArg Group.region hgrp).trans hr
    have huid : (s.gathers f).grp.id.uid = s.grp.id.uid := (congrArg (fun g : Group => g.id.uid) hgrp).trans rfl
    have hrs (n : BitVec 6) : (s.gathers f).grp.rs n = s.grp.rs n := (congrArg (fun g : Group => g.rs n) hgrp).trans rfl
    have hcommit (hack : (s.gathers f).unacked (s.gathered f) = false) :=
      execRgnCommitPublish_gathered (t := { s.gathers f with ev := .group s.grp.id.uid }) rfl huid hregion hwait hack
    refine ⟨s.gathers f, s.gathered f, (exec_rgnClose f s).trans (execRgnClose_gathers hok hr hmx hrel), hwait, rfl, ?_, ?_⟩
    · intro hack honce
      have honce' := State.commit_once (s := { s.gathers f with ev := .group s.grp.id.uid }) r
        (honce.imp_right (fun h => (hrs f.b).trans h))
      exact ⟨_, (hcommit hack).trans (congrArg (settle 1) honce'), State.committed_region _ f r,
        fun i hi hzero => (State.committed_sources _ r hok hi hzero).trans (hrs _)⟩
    · intro hack himm hb
      have hagain := State.commit_again (s := { s.gathers f with ev := .group s.grp.id.uid }) r himm
        (fun h => hb ((hrs f.b).symm.trans h))
      exact ⟨_, (hcommit hack).trans (congrArg (settle 1) hagain), State.committed_region _ f r⟩
  case abort =>
    intro s s1 t f r hok hr hs1 ht
    subst hs1
    have hexec := execRgnAbort_enters hok hr ht
    obtain ⟨e, rfl⟩ := State.enter_dead ht
    exact ⟨hexec, rfl, rfl, rfl, State.acquireAt_mem _ _ _, rfl,
      fun i hlo hhi hi hzero => Group.restart_livein ((s.onGrp Group.countRetired).acquireAt s.grp.coreNo 6).grp.discardMx hlo hhi hi
        hzero⟩
  case evict =>
    intro s t uid w hev ht hvictim hdue
    obtain ⟨r, p, hstatus, hbanks⟩ := t.evict_grp
    exact ⟨_, r, p, execHarvestEviction_due hev ht hvictim hdue, hstatus, hbanks⟩
  case spill =>
    intro s t uid r p hev ht
    refine ⟨fun hstatus hrel hclear => ⟨execSpillComplete_clear hev ht hstatus hrel hclear, t.spilled_grp r p⟩, ?_⟩
    intro l hstatus hslice hheld
    refine ⟨fun hslot => ⟨_, execHarvestReload_kept hev ht hstatus hslice hheld hslot, ?_⟩,
      execHarvestReload_changed hev ht hstatus hslice hheld⟩
    rintro rfl
    exact t.reload_outside l p

end

section
/-! SUPPORT. The tiles of a group and its queue of matrix commands: what is read after a change, and what the beginning and the
end of a command leave (12_matrix.md R219, R233). -/

namespace Sys2Proof.Machine

open Sys2Proof

/-! ### Tiles -/

theorem Group.tile_onTile_self (g : Group) {t : Nat} (h : Tile → Tile) (ht : t < 4) : (g.onTile t h).tile t = h (g.tile t) := by
  simp only [Group.tile, Group.onTile, Vector.getElem?_setIfInBounds_self_of_lt ht, Option.getD_some]

theorem Group.tile_onTile_other (g : Group) {t i : Nat} (h : Tile → Tile) (hne : t ≠ i) : (g.onTile t h).tile i = g.tile i := by
  simp only [Group.tile, Group.onTile, Vector.getElem?_setIfInBounds_ne hne]

/-- A change of a tile that leaves a view of it leaves that view of every tile. -/
theorem Group.onTile_keeps {α : Type} (view : Tile → α) (g : Group) (t : Nat) {h : Tile → Tile}
    (hk : ∀ x, view (h x) = view x) (i : Nat) : view ((g.onTile t h).tile i) = view (g.tile i) := by
  by_cases hti : t = i
  · subst hti
    by_cases ht : t < 4
    · rw [Group.tile_onTile_self g h ht, hk]
    · simp only [Group.tile, Group.onTile, Vector.getElem?_eq_none (Nat.le_of_not_lt ht), Option.getD_none]
  · rw [Group.tile_onTile_other g h hti]

@[simp] theorem Group.tile_onHead (g : Group) (t : Nat) (h : MxCmd → MxCmd) (i : Nat) : (g.onHead t h).tile i = g.tile i := rfl

theorem Group.tile_congr {g h : Group} (e : h.tiles = g.tiles) (t : Nat) : h.tile t = g.tile t := by
  rw [Group.tile, e, Group.tile]

theorem Group.mxCount_congr {g h : Group} (e : h.mxq = g.mxq) (t : Nat) : h.mxCount t = g.mxCount t := by
  rw [Group.mxCount, e, Group.mxCount]

theorem Group.mxHead_congr {g h : Group} (e : h.mxq = g.mxq) (t : Nat) : h.mxHead t = g.mxHead t := by
  rw [Group.mxHead, e, Group.mxHead]

/-! ### The head of a tile's queue -/

section

variable {t : Nat} {h : MxCmd → MxCmd} (hk : ∀ c, (h c).tile = c.tile)
include hk

theorem mxSetHead_find (cs : List MxCmd) :
    (mxSetHead t h cs).find? (fun c => c.tile = t) = (cs.find? (fun c => c.tile = t)).map h := by
  induction cs with
  | nil => rfl
  | cons c cs ih =>
    rw [mxSetHead]
    by_cases hc : c.tile = t
    · rw [if_pos hc, List.find?_cons_of_pos (by simpa [hk] using hc), List.find?_cons_of_pos (by simpa using hc), Option.map_some]
    · rw [if_neg hc, List.find?_cons_of_neg (by simpa using hc), List.find?_cons_of_neg (by simpa using hc), ih]

theorem mxSetHead_tiles (cs : List MxCmd) : (mxSetHead t h cs).map (·.tile) = cs.map (·.tile) := by
  induction cs with
  | nil => rfl
  | cons c cs ih =>
    rw [mxSetHead]
    split
    · rw [List.map_cons, List.map_cons, hk]
    · rw [List.map_cons, List.map_cons, ih]

theorem Group.mxHead_onHead (g : Group) : (g.onHead t h).mxHead t = (g.mxHead t).map h := mxSetHead_find hk g.mxq

theorem Group.onHead_length (g : Group) : (g.onHead t h).mxq.length = g.mxq.length := by
  have htiles := congrArg List.length (mxSetHead_tiles (t := t) hk g.mxq)
  rwa [List.length_map, List.length_map] at htiles

end

/-- Which tiles the queued commands name, in order, decides whether a tile has a command. -/
theorem Group.mxHead_isSome_of_tiles {g h : Group} (e : h.mxq.map (·.tile) = g.mxq.map (·.tile)) {t : Nat}
    (hg : (g.mxHead t).isSome = true) : (h.mxHead t).isSome = true := by
  have hmem (k : Group) : (k.mxHead t).isSome = true ↔ t ∈ k.mxq.map (·.tile) := by
    rw [Group.mxHead, List.find?_isSome, List.mem_map]
    exact exists_congr fun c => and_congr_right fun _ => decide_eq_true_iff
  rw [hmem, e, ← hmem]
  exact hg

theorem Group.mxHead_none_of_count {g : Group} {t : Nat} (h : g.mxCount t = 0) : g.mxHead t = none := by
  rw [Group.mxCount, List.length_eq_zero_iff] at h
  rw [Group.mxHead, List.find?_eq_none]
  exact List.filter_eq_nil_iff.1 h

/-- A command that joins the queue of an idle tile stands at its head. -/
theorem Group.mxHead_append {g : Group} {c : MxCmd} (h : g.mxCount c.tile = 0) :
    ({ g with mxq := g.mxq ++ [c] } : Group).mxHead c.tile = some c := by
  have hnone : g.mxq.find? (fun d => d.tile = c.tile) = none := Group.mxHead_none_of_count h
  simp [Group.mxHead, List.find?_append, hnone]

theorem Group.dropHead_length {g : Group} {t : Nat} (h : (g.mxHead t).isSome = true) :
    (g.dropHead t).mxq.length < g.mxq.length := by
  obtain ⟨c, hc⟩ := Option.isSome_iff_exists.1 h
  rw [Group.mxHead] at hc
  have hmem := List.mem_of_find?_eq_some hc
  have htile := List.find?_some hc
  have hlen := List.length_eraseP_of_mem (p := fun c : MxCmd => decide (c.tile = t)) hmem htile
  exact hlen.trans_lt (Nat.sub_one_lt_of_lt (List.length_pos_of_mem hmem))

/-- What is left of a tile's commands once its head is gone. -/
theorem Group.dropHead_count (g : Group) (t : Nat) : (g.dropHead t).mxCount t = g.mxCount t - 1 := by
  have hlist (cs : List MxCmd) : ((cs.eraseP (fun c => decide (c.tile = t))).filter (fun c => decide (c.tile = t))).length =
      (cs.filter (fun c => decide (c.tile = t))).length - 1 := by
    induction cs with
    | nil => rfl
    | cons c cs ih =>
      by_cases hc : c.tile = t
      · rw [List.eraseP_cons_of_pos (by simpa using hc), List.filter_cons_of_pos (by simpa using hc), List.length_cons,
          Nat.add_sub_cancel]
      · rw [List.eraseP_cons_of_neg (by simpa using hc), List.filter_cons_of_neg (by simpa using hc),
          List.filter_cons_of_neg (by simpa using hc), ih]
  exact hlist g.mxq

/-! ### A completed command's release flag -/

theorem Group.noteRel_mxq (g : Group) (t : Nat) (c : MxCmd) : (g.noteRel t c).mxq = g.mxq := by
  unfold Group.noteRel
  split <;> rfl

theorem Group.noteRel_data (g : Group) (t : Nat) (c : MxCmd) (i : Nat) : ((g.noteRel t c).tile i).data = (g.tile i).data := by
  unfold Group.noteRel
  split
  · exact Group.onTile_keeps Tile.data g t (by intro x; rfl) i
  · rfl

/-! ### Beginning a command -/

/-- What the sequencer never writes: the group's scalars and its next tag. -/
def Group.mxFile (g : Group) : Vector Word 64 × BitVec 16 := (g.sreg, g.mxTag)

theorem Group.noteRel_mxFile (g : Group) (t : Nat) (c : MxCmd) : (g.noteRel t c).mxFile = g.mxFile := by
  unfold Group.noteRel
  split <;> rfl

theorem Group.dropHead_mxFile (g : Group) (t : Nat) : (g.dropHead t).mxFile = g.mxFile := rfl

theorem Group.beginLoop_mxFile (g : Group) (t : Nat) (c : MxCmd) : (g.beginLoop t c).mxFile = g.mxFile := by
  unfold Group.beginLoop
  split <;> rfl

theorem Group.beginLoop_length (g : Group) (t : Nat) (c : MxCmd) : (g.beginLoop t c).mxq.length = g.mxq.length := by
  unfold Group.beginLoop
  split
  · rfl
  · exact Group.onHead_length (by intro d; rfl) _

theorem Group.dropHead_length_le (g : Group) (t : Nat) : (g.dropHead t).mxq.length ≤ g.mxq.length := List.length_eraseP_le

theorem Group.beginHeads_length (fuel t : Nat) (g : Group) : (Group.beginHeads fuel t g).mxq.length ≤ g.mxq.length := by
  induction fuel generalizing g with
  | zero => exact Nat.le_refl _
  | succ fuel ih =>
    rw [Group.beginHeads]
    split
    · exact Nat.le_refl _
    · rename_i c _
      split
      · exact Nat.le_refl _
      · split
        · calc _ ≤ _ := ih _
            _ ≤ _ := Group.dropHead_length_le _ t
            _ = _ := congrArg List.length (Group.noteRel_mxq _ t c)
            _ = _ := g.beginLoop_length t c
        · exact Nat.le_of_eq (g.beginLoop_length t c)

theorem Group.beginHeads_mxFile (fuel t : Nat) (g : Group) : (Group.beginHeads fuel t g).mxFile = g.mxFile := by
  induction fuel generalizing g with
  | zero => rfl
  | succ fuel ih =>
    rw [Group.beginHeads]
    split
    · rfl
    · rename_i c _
      split
      · rfl
      · split
        · calc _ = _ := ih _
            _ = _ := Group.dropHead_mxFile _ t
            _ = _ := Group.noteRel_mxFile _ t c
            _ = _ := g.beginLoop_mxFile t c
        · exact g.beginLoop_mxFile t c

theorem Group.startMx_length (g : Group) (t : Nat) : (g.startMx t).mxq.length ≤ g.mxq.length := Group.beginHeads_length 8 t g

theorem Group.queueMx_mxFile (g : Group) (c : MxCmd) : (g.queueMx c).mxFile = g.mxFile := Group.beginHeads_mxFile 8 c.tile _

section

variable {g : Group} {t : Nat} {c : MxCmd}

theorem Group.startMx_idle (h : g.mxHead t = none) : g.startMx t = g := by
  simp only [Group.startMx, Group.beginHeads, h]

/-- A command that is no loop begins with its event. -/
theorem Group.startMx_of_kind (h : g.mxHead t = some c) (hk : c.kind ≠ .loop) : g.startMx t = g := by
  simp only [Group.startMx, Group.beginHeads, h, decide_eq_true hk, Bool.true_or, if_true]

/-- A loop with steps to do begins once it is at the head of a tile without a fault. -/
theorem Group.startMx_loop (h : g.mxHead t = some c) (hk : c.kind = .loop) (hrun : c.running = none)
    (hcause : (g.tile t).cause = 0) (hsteps : c.done < c.nstep) : g.startMx t = g.beginLoop t c := by
  have hwait : (decide (c.kind ≠ .loop) || c.running.isSome || decide ((g.tile t).cause ≠ 0)) = false := by
    rw [hk, hrun, hcause]
    rfl
  simp only [Group.startMx, Group.beginHeads, h, hwait, Bool.false_eq_true, if_false, if_neg (Nat.not_le.2 hsteps)]

theorem Group.beginLoop_head (h : g.mxHead t = some c) (hbegun : c.begun = false) :
    (g.beginLoop t c).mxHead t = some { c with begun := true } := by
  rw [Group.beginLoop, hbegun, if_neg Bool.false_ne_true]
  exact (Group.mxHead_onHead (by intro d; rfl) _).trans (congrArg (Option.map _) h)

theorem Group.beginLoop_steps (hbegun : c.begun = false) (ht : t < 4) : ((g.beginLoop t c).tile t).steps = 0 := by
  rw [Group.beginLoop, hbegun, if_neg Bool.false_ne_true, Group.tile_onHead, Group.tile_onTile_self g _ ht]

theorem Group.queueMx_head_of_kind (hcount : g.mxCount c.tile = 0) (hk : c.kind ≠ .loop) :
    (g.queueMx c).mxHead c.tile = some c := by
  have hhead := Group.mxHead_append hcount
  rw [Group.queueMx, Group.startMx_of_kind hhead hk, hhead]

/-- A loop that joins the queue of an idle tile begins at once (R219, R233). -/
theorem Group.queueMx_head_loop (hcount : g.mxCount c.tile = 0) (hk : c.kind = .loop) (hrun : c.running = none)
    (hbegun : c.begun = false) (hcause : (g.tile c.tile).cause = 0) (hsteps : c.done < c.nstep) (ht : c.tile < 4) :
    (g.queueMx c).mxHead c.tile = some { c with begun := true } ∧ ((g.queueMx c).tile c.tile).steps = 0 := by
  have hhead := Group.mxHead_append hcount
  rw [Group.queueMx, Group.startMx_loop hhead hk hrun hcause hsteps]
  exact ⟨Group.beginLoop_head hhead hbegun, Group.beginLoop_steps hbegun ht⟩

/-! ### The end of a command -/

theorem Group.mxComplete_length (h : g.mxHead t = some c) : (g.mxComplete t).mxq.length < g.mxq.length := by
  have hnote : (g.noteRel t c).mxq = g.mxq := Group.noteRel_mxq g t c
  have hhead : ((g.noteRel t c).mxHead t).isSome = true := by rw [Group.mxHead_congr hnote, h]; rfl
  rw [Group.mxComplete, h, Option.map_some, Option.getD_some]
  calc _ ≤ _ := Group.startMx_length _ t
    _ < _ := Group.dropHead_length hhead
    _ = _ := congrArg List.length hnote

/-- The last command of a tile leaves its elements as they are when it completes. -/
theorem Group.mxComplete_data (h : g.mxHead t = some c) (hcount : g.mxCount t = 1) :
    ((g.mxComplete t).tile t).data = (g.tile t).data := by
  have hidle : ((g.noteRel t c).dropHead t).mxCount t = 0 := by
    rw [Group.dropHead_count, Group.mxCount_congr (Group.noteRel_mxq g t c), hcount]
  rw [Group.mxComplete, h, Option.map_some, Option.getD_some, Group.startMx_idle (Group.mxHead_none_of_count hidle)]
  exact Group.noteRel_data g t c t

end

end Sys2Proof.Machine
end

section
/-! PROOFS. The matrix instructions (12_matrix.md R219, R232 to R238). -/

namespace Sys2Proof.Machine

open Sys2Proof

theorem exec_mloop (p : Option Pfx) (f : EX) (s : State) : exec (.mloop p f) s = execMloop p f s := rfl
theorem exec_mzero (f : EX) (s : State) : exec (.mzero f) s = execMzero f s := rfl
theorem exec_mrd (f : EX) (s : State) : exec (.mrd f) s = execMrd f s := rfl
theorem exec_mwr (f : EX) (s : State) : exec (.mwr f) s = execMwr f s := rfl
theorem exec_mst (p : Option Pfx) (f : EX) (s : State) : exec (.mst p f) s = execMst p f s := rfl
theorem exec_mwait (f : EX) (s : State) : exec (.mwait f) s = execMwait f s := rfl
theorem exec_mstat (f : EX) (s : State) : exec (.mstat f) s = execMstat f s := rfl

/-! ### Queueing a command (R219) -/

/-- A tile of the group with no deferred fault raises none. -/
theorem State.takeMx_own {s : State} {t : Nat} (h : (s.grp.tile t).cause = 0) : s.takeMx s.grp.id.uid t = .ok s := by
  simp only [State.takeMx, State.group?_self, Option.map_some, h, if_true]

theorem State.queueOrWait_full {s : State} (len : Nat) (d : Option (BitVec 6)) (c : MxCmd) (h : 8 ≤ s.grp.mxq.length) :
    s.queueOrWait len d c = .wait (.mxRoom len d c) s := if_neg (Nat.not_lt.2 h)

theorem State.queueOrWait_room {s : State} (len : Nat) (d : Option (BitVec 6)) (c : MxCmd) (h : s.grp.mxq.length < 8) :
    s.queueOrWait len d c = .done (s.pushMx d c) := if_pos h

/-- A group that has given the next tag to s[d]. -/
def Group.tagged (g : Group) (d : BitVec 6) : Group := { g.ws d (g.mxTag.setWidth 32) with mxTag := g.mxTag + 1 }

theorem Group.tagged_mxq (g : Group) (d : BitVec 6) : (g.tagged d).mxq = g.mxq := Group.ws_mxq _ _ _
theorem Group.tagged_tiles (g : Group) (d : BitVec 6) : (g.tagged d).tiles = g.tiles := Group.ws_tiles _ _ _

/-- The group from which a command is queued: the one that pushes it, with its release stores' scopes and its acquired loads as the
command's acquire leaves them. -/
def Group.beforePush (g : Group) (relq : List RelStore) (acqLoad : Bool) : Group := { g with relq := relq, acqLoad := acqLoad }

theorem State.pushMx_tagged (s : State) (d : BitVec 6) (c : MxCmd) : ∃ relq acqLoad,
    (s.pushMx (some d) c).grp = ((s.grp.beforePush relq acqLoad).tagged d).queueMx { c with tag := s.grp.mxTag } := by
  obtain ⟨relq, acqLoad, hgrp⟩ := s.engineAcquire_grp c.acq c.scope
  refine ⟨relq, acqLoad, ?_⟩
  rw [State.pushMx, State.onGrp, hgrp]
  rfl

theorem State.pushMx_untagged (s : State) (c : MxCmd) : ∃ relq acqLoad,
    (s.pushMx none c).grp = (s.grp.beforePush relq acqLoad).queueMx c := by
  obtain ⟨relq, acqLoad, hgrp⟩ := s.engineAcquire_grp c.acq c.scope
  refine ⟨relq, acqLoad, ?_⟩
  rw [State.pushMx, State.onGrp, hgrp]
  rfl

/-- A tagged command's tag is used, and stands in s[d]. -/
theorem State.pushMx_file (s : State) (d : BitVec 6) (c : MxCmd) :
    (s.pushMx (some d) c).grp.mxTag = s.grp.mxTag + 1 ∧ (d ≠ 0 → (s.pushMx (some d) c).grp.rs d = s.grp.mxTag.setWidth 32) := by
  obtain ⟨relq, acqLoad, hgrp⟩ := s.pushMx_tagged d c
  have hfile := Group.queueMx_mxFile ((s.grp.beforePush relq acqLoad).tagged d) { c with tag := s.grp.mxTag }
  rw [← hgrp] at hfile
  have hsreg := congrArg Prod.fst hfile
  refine ⟨congrArg Prod.snd hfile, fun hd => ?_⟩
  have hself : ((s.grp.beforePush relq acqLoad).tagged d).rs d = s.grp.mxTag.setWidth 32 := Group.rs_ws_self _ _ _ hd
  rw [← hself, Group.rs, Group.rs, if_neg hd, if_neg hd]
  congr 1

section

variable {s : State} {c : MxCmd} (hidle : s.grp.mxCount c.tile = 0)
include hidle

/-- A tagged command that is no loop stands at the head of its idle tile's queue, as it was captured. -/
theorem State.pushMx_head (d : BitVec 6) (hk : c.kind ≠ .loop) (htag : c.tag = s.grp.mxTag) :
    (s.pushMx (some d) c).grp.mxHead c.tile = some c := by
  obtain ⟨relq, acqLoad, hgrp⟩ := s.pushMx_tagged d c
  rw [hgrp, ← htag]
  exact Group.queueMx_head_of_kind ((Group.mxCount_congr (Group.tagged_mxq _ d) _).trans hidle) hk

theorem State.pushMx_head_untagged (hk : c.kind ≠ .loop) : (s.pushMx none c).grp.mxHead c.tile = some c := by
  obtain ⟨relq, acqLoad, hgrp⟩ := s.pushMx_untagged c
  rw [hgrp]
  exact Group.queueMx_head_of_kind hidle hk

/-- A loop with steps to do begins at once on an idle tile. -/
theorem State.pushMx_head_loop (d : BitVec 6) (hk : c.kind = .loop) (htag : c.tag = s.grp.mxTag) (hrun : c.running = none)
    (hbegun : c.begun = false) (hcause : (s.grp.tile c.tile).cause = 0) (hsteps : c.done < c.nstep) (ht : c.tile < 4) :
    (s.pushMx (some d) c).grp.mxHead c.tile = some { c with begun := true } ∧
      ((s.pushMx (some d) c).grp.tile c.tile).steps = 0 := by
  obtain ⟨relq, acqLoad, hgrp⟩ := s.pushMx_tagged d c
  have hcause' : (((s.grp.beforePush relq acqLoad).tagged d).tile c.tile).cause = 0 :=
    (congrArg Tile.cause (Group.tile_congr (Group.tagged_tiles _ d) _)).trans hcause
  rw [hgrp, ← htag]
  exact Group.queueMx_head_loop ((Group.mxCount_congr (Group.tagged_mxq _ d) _).trans hidle) hk hrun hbegun hcause' hsteps ht

end

theorem EX.tileOf_lt {f : EX} (h : f.tileName = true) : tileOf f < 4 := Nat.lt_succ_of_le (of_decide_eq_true h)

/-! ### MLOOP (R233) -/

/-- A read of a format block changes two counts of the group. -/
theorem State.readBlock_grp (s : State) (c : MxCmd) (a : DWord) (ks : List Nat) :
    ∃ n bytes, (s.readBlock c a ks).grp = s.grp.countMisses n bytes := by
  unfold State.readBlock
  extract_lets u missed t
  refine ⟨missed.length, 128 * missed.length, (State.grp_of_turns (State.allocLoad_turns _ _ _ _ _)).trans ?_⟩
  have hread : t.grp = (u.walked 1 [⟨0, a⟩]).grp.countMisses missed.length (128 * missed.length) := State.readMissed_grp _ _ _ _
  rw [hread, State.walked_grp]

section

variable {s : State} {p : Option Pfx} {f : EX}

theorem EX.okMloop_of_wf (h : (Instr.mloop p f).wf = true) : f.okMloop = true := (Bool.and_eq_true_iff.1 h).1
theorem EX.okMst_of_wf (h : (Instr.mst p f).wf = true) : f.okMst = true := (Bool.and_eq_true_iff.1 h).1

/-- A captured loop has its tile and the group's next tag, and has not begun. -/
theorem State.mloopReads_captured {c : MxCmd} (h : s.mloopReads p f c) : c.tile = tileOf f ∧ c.tag = s.grp.mxTag ∧
    c.kind = .loop ∧ c.running = none ∧ c.begun = false ∧ c.done = 0 := by
  obtain ⟨ps, -, -, rfl⟩ := h
  exact ⟨rfl, rfl, rfl, rfl, rfl, rfl⟩

theorem EX.tileOf_lt_of_mloop (h : (Instr.mloop p f).wf = true) : tileOf f < 4 := by
  have hok := EX.okMloop_of_wf h
  simp only [EX.okMloop, Bool.and_eq_true] at hok
  exact EX.tileOf_lt hok.1.2

theorem execMloop_queues (hwf : (Instr.mloop p f).wf = true) (hfree : s.mxFree f) (htile : s.grp.liveInTile (tileOf f) = false)
    (hlive : s.grp.liveIn f.d = false) {c : MxCmd} (hreads : s.mloopReads p f c) (hok : mloopOk c) : ∃ ks,
    execMloop p f s = settle (pfxLen p) ((s.readBlock c (c.pair 8) ks).queueOrWait (pfxLen p) (some f.d) c) := by
  obtain ⟨hmx, hcause⟩ := hfree
  obtain ⟨ps, hps, hthere, rfl⟩ := hreads
  obtain ⟨hfmt, hlayA, hlayB, hlocA, hlocB, ⟨hbaseA, hincA⟩, hbaseB, hincB⟩ := hok
  refine ⟨ps.flatMap (·.2), ?_⟩
  simp only [execMloop, hwf, hmx, htile, hlive, Bool.and_self, Bool.or_self, Bool.not_false, State.need_true, Run.ok_bind,
    State.takeMx_own hcause, hps, State.awaitRemote_of_there hthere, hfmt, decide_eq_true hlayA, decide_eq_true hlayB, hlocA,
    hlocB, decide_eq_true hbaseA, decide_eq_true hbaseB, decide_eq_true hincA, decide_eq_true hincB, needAt_true, State.chk_ok,
    Run.pure_eq, finish_ok]
  rfl

end

/-! ### MZERO and MST (R234, R236) -/

section

variable {s : State} {p : Option Pfx} {f : EX}

theorem execMzero_queues (hok : f.okMzero = true) (hfree : s.mxFree f) (htile : s.grp.liveInTile (tileOf f) = false) :
    execMzero f s = settle 1 (s.queueOrWait 1 none (s.grp.mkMx .zero none f [] [] false)) := by
  obtain ⟨hmx, hcause⟩ := hfree
  simp only [execMzero, hok, hmx, htile, Bool.and_self, Bool.not_false, State.need_true, Run.ok_bind, State.takeMx_own hcause,
    Run.pure_eq, finish_ok]

theorem execMst_queues (hwf : (Instr.mst p f).wf = true) (hfree : s.mxFree f) (hregion : s.grp.inRegion = false)
    (hlive : s.grp.liveIn f.d = false) (hready : mstReady (s.grp.mkMx .store p f (s.grp.capture f.a 6) [] false)) :
    execMst p f s = settle (pfxLen p)
      (s.queueOrWait (pfxLen p) (some f.d) (s.grp.mkMx .store p f (s.grp.capture f.a 6) [] false)) := by
  obtain ⟨hmx, hcause⟩ := hfree
  obtain ⟨hfmt, hlocA, hlocB, hbase, hpitch, hrow⟩ := hready
  have hscale (b x : Bool) (h : b = true → x = true) : (!b || x) = true := by
    cases b
    · rfl
    · exact h rfl
  simp only [execMst, hwf, hmx, hregion, hlive, Bool.and_self, Bool.not_false, State.need_true, Run.ok_bind,
    State.takeMx_own hcause, hfmt, hlocA, hscale _ _ hlocB, decide_eq_true hbase, decide_eq_true hpitch, decide_eq_true hrow,
    needAt_true, State.chk_ok, Run.pure_eq, finish_ok]

end

/-! ### MRD and MWR (R235) -/

section

variable {s : State} {f : EX}

theorem State.mxLine_free (hok : f.okMrd = true) (hfree : s.mxFree f) (hvec : s.grp.hasVec (mxVec f) = true)
    (hidle : s.grp.mxCount (tileOf f) = 0) : s.mxLine f false = .ok s := by
  obtain ⟨hmx, hcause⟩ := hfree
  simp only [State.mxLine, hok, hmx, hvec, Bool.and_self, Bool.not_false, State.need_true, Run.ok_bind, State.takeMx_own hcause,
    hidle, if_true, Run.pure_eq]

theorem EX.tileOf_lt_of_mrd (h : f.okMrd = true) : tileOf f < 4 := by
  simp only [EX.okMrd, Bool.and_eq_true] at h
  exact EX.tileOf_lt h.1.2

/-- The elements that MRD reads. -/
def Group.mxRead (g : Group) (f : EX) : Lanes :=
  Vector.ofFn (fun l => (cellOf f (g.tile (tileOf f)) (g.rs f.a).toNat ((g.rs f.b).toNat + l.val)).getD 0)

theorem execMrd_reads (h : s.mxLine f (s.grp.liveInVec (mxVec f)) = .ok s) :
    execMrd f s = .next (s.after 1 (fun g => g.wvm (mxVec f) g.live (s.grp.mxRead f))) := by
  simp only [execMrd, h, Run.ok_bind]
  rfl

/-- A tile with the lanes of a set written into its line. -/
def Tile.setLine (t : Tile) (f : EX) (r c0 : Nat) (v : Lanes) (ls : List Nat) : Tile :=
  ls.foldl (fun x l => x.setCell f r (c0 + l) (v[l]?.getD 0)) t

theorem execMwr_writes (h : s.mxLine f (s.grp.liveInTile (tileOf f)) = .ok s) :
    execMwr f s = .next ((s.onGrp (fun g => g.onTile (tileOf f) (fun t =>
      t.setLine f (s.grp.rs f.a).toNat (s.grp.rs f.b).toNat (s.grp.rv (mxVec f)) (lanesOf g.live)))).retire 1) := by
  simp only [execMwr, h, Run.ok_bind]
  rfl

/-- Element (i, j) of a tile. -/
def Tile.elem (t : Tile) (i j : Nat) : Word := (t.data[i]?.getD (Vector.replicate 128 0))[j]?.getD 0

theorem cellOf_eq (t : Tile) {r x : Nat} (hr : r < 128) (hx : x < 128) :
    (cellOf f t r x).getD 0 = if f.sub = 0 then t.elem r x else t.elem x r := by
  have hin : (decide (r < 128) && decide (x < 128)) = true := by rw [decide_eq_true hr, decide_eq_true hx]; rfl
  rw [cellOf, if_pos hin]
  rfl

/-- A write of one element of the data of a tile. -/
theorem Tile.elem_set (t : Tile) {i j a b : Nat} (hi : i < 128) (hj : j < 128) (w : Word) :
    ({ t with data := t.data.setIfInBounds i ((t.data[i]?.getD (Vector.replicate 128 0)).setIfInBounds j w) } : Tile).elem a b =
      if a = i ∧ b = j then w else t.elem a b := by
  by_cases ha : a = i
  · subst ha
    by_cases hb : b = j
    · subst hb
      simp only [Tile.elem, Vector.getElem?_setIfInBounds_self_of_lt hi, Vector.getElem?_setIfInBounds_self_of_lt hj,
        Option.getD_some, and_self, if_true]
    · simp only [Tile.elem, Vector.getElem?_setIfInBounds_self_of_lt hi, Vector.getElem?_setIfInBounds_ne (Ne.symm hb),
        Option.getD_some, true_and, if_neg hb]
  · simp only [Tile.elem, Vector.getElem?_setIfInBounds_ne (Ne.symm ha), if_neg (fun h : a = i ∧ b = j => ha h.1)]

theorem Tile.cellOf_setCell (t : Tile) {r x a b : Nat} (w : Word) (ha : a < 128) (hb : b < 128) :
    (cellOf f (t.setCell f r x w) a b).getD 0 = if a = r ∧ b = x then w else (cellOf f t a b).getD 0 := by
  rw [cellOf_eq _ ha hb, cellOf_eq _ ha hb]
  by_cases hin : r < 128 ∧ x < 128
  · obtain ⟨hr, hx⟩ := hin
    by_cases hsub : f.sub = 0
    · simp only [Tile.setCell, if_pos hsub, decide_eq_true hr, decide_eq_true hx, Bool.and_self, if_true, Tile.elem_set t hr hx]
    · simp only [Tile.setCell, if_neg hsub, decide_eq_true hr, decide_eq_true hx, Bool.and_self, if_true, Tile.elem_set t hx hr,
        and_comm]
  · have hother : ¬ (a = r ∧ b = x) := fun h => hin ⟨h.1 ▸ ha, h.2 ▸ hb⟩
    have hkept : t.setCell f r x w = t := by
      by_cases hsub : f.sub = 0
      · simp only [Tile.setCell, if_pos hsub, Bool.and_eq_true, decide_eq_true_eq, if_neg hin]
      · simp only [Tile.setCell, if_neg hsub, Bool.and_eq_true, decide_eq_true_eq, and_comm, if_neg hin]
    rw [hkept, if_neg hother]

/-- A line written lane by lane: each lane of the set has its element, every other element of the tile is kept. -/
theorem Tile.cellOf_setLine (t : Tile) {r c0 a b : Nat} (v : Lanes) (ls : List Nat) (ha : a < 128) (hb : b < 128) :
    (cellOf f (t.setLine f r c0 v ls) a b).getD 0 =
      if a = r ∧ c0 ≤ b ∧ b - c0 ∈ ls then v[b - c0]?.getD 0 else (cellOf f t a b).getD 0 := by
  induction ls generalizing t with
  | nil => simp [Tile.setLine]
  | cons l ls ih =>
    have hstep := ih (t.setCell f r (c0 + l) (v[l]?.getD 0))
    rw [Tile.cellOf_setCell t _ ha hb] at hstep
    refine hstep.trans ?_
    by_cases hl : b = c0 + l
    · subst hl
      by_cases hr : a = r
      · simp [hr]
      · simp [hr]
    · have hmem : c0 ≤ b → (b - c0 ∈ l :: ls ↔ b - c0 ∈ ls) := fun hle => by
        rw [List.mem_cons, or_iff_right (by omega)]
      simp only [hl, and_false, if_false]
      exact if_congr (and_congr_right fun _ => and_congr_right fun hle => (hmem hle).symm) rfl rfl

end

/-! ### MWAIT (R237) -/

section

variable {s : State} {f : EX}

/-- The walk by which an MWAIT takes the flags of its tiles. -/
def Group.takeFlags (g : Group) (ts : List Nat) : Group :=
  ts.foldl (fun h t => (h.raiseFlags (h.tile t).flags).onTile t (fun x => { x with rel := 0 })) g

theorem Group.takeFlags_sreg (g : Group) (ts : List Nat) : (g.takeFlags ts).sreg = g.sreg := by
  induction ts generalizing g with
  | nil => rfl
  | cons t ts ih => exact (ih _).trans rfl

theorem Group.takeFlags_fpsr (g : Group) (ts : List Nat) {k : Nat} (hk : k < 6) :
    (g.takeFlags ts).fpsr.getLsbD k = true ↔
      g.fpsr.getLsbD k = true ∨ ∃ i ∈ ts, (g.tile i).flags.getLsbD k = true := by
  induction ts generalizing g with
  | nil => simp [Group.takeFlags]
  | cons t ts ih =>
    have hflags (i : Nat) : (((g.raiseFlags (g.tile t).flags).onTile t (fun x => { x with rel := 0 })).tile i).flags =
        (g.tile i).flags := Group.onTile_keeps Tile.flags _ t (by intro x; rfl) i
    have hfirst : (g.raiseFlags (g.tile t).flags).fpsr.getLsbD k =
        (g.fpsr.getLsbD k || (g.tile t).flags.getLsbD k) := by
      have hk' : k < 32 := by omega
      simp [Group.raiseFlags, hk']
    refine (ih _).trans ?_
    have hfpsr : ((g.raiseFlags (g.tile t).flags).onTile t (fun x => { x with rel := 0 })).fpsr =
        (g.raiseFlags (g.tile t).flags).fpsr := rfl
    simp only [hfpsr, hfirst, hflags, Bool.or_eq_true, List.exists_mem_cons_iff, or_assoc]

theorem State.mwaitReturn_grp (s : State) (f : EX) :
    (s.mwaitReturn f).grp = (s.grp.takeFlags (s.grp.waitedTiles f)).progressed := by
  rw [State.mwaitReturn, State.onGrp, State.acquireAt_grp]
  rfl

theorem State.mwaitReturn_mem (s : State) (f : EX) : (s.mwaitReturn f).mem = s.mem := State.acquireAt_mem _ _ _

theorem State.takeMxAll_own (h : ∀ t ∈ s.grp.waitedTiles f, (s.grp.tile t).cause = 0) :
    s.takeMxAll ((s.grp.waitedTiles f).map (fun t => (s.grp.id.uid, t))) = .ok s := by
  refine State.takeMxAll_faultless fun q hq g hg => ?_
  obtain ⟨t, ht, rfl⟩ := List.mem_map.1 hq
  rw [State.group?_self] at hg
  exact Option.some.inj hg ▸ h t ht

theorem State.mwait_complete (hcause : ∀ t ∈ s.grp.waitedTiles f, (s.grp.tile t).cause = 0)
    (hidle : ∀ t ∈ s.grp.waitedTiles f, s.grp.mxCount t = 0) : s.mwait f = .ok (.done (s.mwaitReturn f)) := by
  have hall : (s.grp.waitedTiles f).all (fun t => decide (s.grp.mxCount t = 0)) = true :=
    List.all_eq_true.2 fun t ht => decide_eq_true (hidle t ht)
  simp only [State.mwait, State.takeMxAll_own hcause, Run.ok_bind, hall, if_true, Run.pure_eq]

theorem State.mwait_waits (hcause : ∀ t ∈ s.grp.waitedTiles f, (s.grp.tile t).cause = 0)
    (hbusy : ∃ t ∈ s.grp.waitedTiles f, s.grp.mxCount t ≠ 0) : s.mwait f = .ok (.wait (.matrix f) s) := by
  obtain ⟨t, ht, hne⟩ := hbusy
  have hall : ¬ (s.grp.waitedTiles f).all (fun t => decide (s.grp.mxCount t = 0)) = true := fun h =>
    hne (of_decide_eq_true (List.all_eq_true.1 h t ht))
  simp only [State.mwait, State.takeMxAll_own hcause, Run.ok_bind, if_neg hall, Run.pure_eq]

theorem execMwait_eq (hok : f.okMwait = true) (hhelper : s.grp.helper = none)
    (htile : f.sub = 0 ∨ tileOf f < s.grp.id.ntiles) : execMwait f s = finish 1 (s.mwait f) := by
  have htile' : (decide (f.sub = 0) || decide (tileOf f < s.grp.id.ntiles)) = true := by
    rw [← Bool.decide_or]
    exact decide_eq_true htile
  simp only [execMwait, hok, hhelper, htile', Option.isNone_none, Bool.and_self, State.need_true, Run.ok_bind]

end

/-! ### MSTAT (R238) -/

/-- The fields of a number that is put together as a status word is. -/
theorem statusFields {flags count busy cause tag : Nat} (hflags : flags < 64) (hcount : count ≤ 8) (hbusy : busy = 0 ∨ busy = 4096)
    (hcause : cause < 8) (htag : tag < 65536) {x : Nat} (hx : x = flags + count * 256 + busy + cause * 8192 + tag * 65536) :
    x % 64 = flags ∧ x / 256 % 16 = count ∧ x / 8192 % 8 = cause ∧ x / 65536 % 65536 = tag ∧ x < 4294967296 := by
  omega

theorem Group.mstat_fields (g : Group) (t : Nat) :
    (g.mstat t).extractLsb' 0 6 = (g.tile t).flags &&& 0x3D ∧ ((g.mstat t).extractLsb' 8 4).toNat = min 8 (g.mxCount t) ∧
      ((g.mstat t).extractLsb' 13 3).toNat = (g.tile t).cause % 8 ∧ (g.mstat t).extractLsb' 16 16 = (g.tile t).tag := by
  obtain ⟨busy, x, hbusy, hx, hword⟩ : ∃ busy x, (busy = 0 ∨ busy = 4096) ∧
      x = ((g.tile t).flags &&& 0x3D).toNat + min 8 (g.mxCount t) * 256 + busy + (g.tile t).cause % 8 * 8192 +
        (g.tile t).tag.toNat * 65536 ∧ g.mstat t = BitVec.ofNat 32 x := by
    refine ⟨if ((g.mxHead t).isSome && decide ((g.tile t).cause = 0)) = true then 4096 else 0, _, ?_, rfl, rfl⟩
    split
    · exact .inr rfl
    · exact .inl rfl
  obtain ⟨hflags, hcount, hcause, htag, hlt⟩ := statusFields ((g.tile t).flags &&& 0x3D).isLt (Nat.min_le_left 8 (g.mxCount t))
    hbusy (Nat.mod_lt (g.tile t).cause (by decide)) (g.tile t).tag.isLt hx
  have hfield (start len : Nat) : ((g.mstat t).extractLsb' start len).toNat = x / 2 ^ start % 2 ^ len := by
    rw [BitVec.extractLsb'_toNat, Nat.shiftRight_eq_div_pow, hword, BitVec.toNat_ofNat, Nat.mod_eq_of_lt hlt]
  exact ⟨BitVec.eq_of_toNat_eq ((hfield 0 6).trans ((congrArg (· % 64) (Nat.div_one _)).trans hflags)), (hfield 8 4).trans hcount,
    (hfield 13 3).trans hcause, BitVec.eq_of_toNat_eq ((hfield 16 16).trans htag)⟩

theorem execMstat_reads {s : State} {f : EX} (hok : f.okMstat = true) (hmx : s.grp.mxOk f = true)
    (hpair : s.grp.pairOk f.d = true) (hlive : s.grp.liveInPair f.d = false) :
    execMstat f s = .next (s.after 1 (fun g => g.wp f.d ((s.grp.tile (tileOf f)).steps ++ s.grp.mstat (tileOf f)))) := by
  simp only [execMstat, hok, hmx, hpair, hlive, Bool.and_self, Bool.not_false, State.need_true, Run.ok_bind, Run.pure_eq,
    finish_ok, settle_done, State.after, State.onGrp, pairOf]

end Sys2Proof.Machine
end

open Sys2Proof Sys2Proof.Machine

section

/-- Settles O38: the instructions that queue a command by what the push of one leaves, MWR by the elements of a line written lane by
lane, MWAIT by the walk of its tiles' flags. -/
theorem matrixInstructionsComplete : Obligations.MatrixInstructionsComplete := by
  unfold Obligations.MatrixInstructionsComplete
  refine ⟨?mloop, ?mzero, ?line, ?mst, ?mwait, ?mstat⟩
  case mloop =>
    intro s p f hwf hfree htile hlive c hreads hok
    obtain ⟨ks, hexec⟩ := execMloop_queues hwf hfree htile hlive hreads hok
    obtain ⟨n, bytes, hgrp⟩ := s.readBlock_grp c (c.pair 8) ks
    have hlen : (s.readBlock c (c.pair 8) ks).grp.mxq.length = s.grp.mxq.length := (congrArg (fun g : Group => g.mxq.length) hgrp).trans rfl
    obtain ⟨htile', htag', hkind, hrun, hbegun, hdone⟩ := State.mloopReads_captured hreads
    rw [exec_mloop, hexec]
    refine ⟨fun hfull => ⟨ks, ?_⟩, fun hroom => ?_⟩
    · rw [State.queueOrWait_full _ _ _ (by rwa [hlen]), settle_wait]
    · rw [State.queueOrWait_room _ _ _ (by rwa [hlen]), settle_done]
      obtain ⟨htag, hrs⟩ := (s.readBlock c (c.pair 8) ks).pushMx_file f.d c
      rw [hgrp] at htag hrs
      refine ⟨_, rfl, htag, hrs, fun hidle hsteps => ?_⟩
      have hidle' : (s.readBlock c (c.pair 8) ks).grp.mxCount c.tile = 0 := by rw [hgrp]; exact htile' ▸ hidle
      obtain ⟨hhead, hcount⟩ := State.pushMx_head_loop hidle' f.d hkind (by rw [hgrp]; exact htag') hrun hbegun
        (by rw [hgrp]; exact htile' ▸ hfree.2) (by rw [hdone]; exact Nat.pos_of_ne_zero hsteps)
        (by rw [htile']; exact EX.tileOf_lt_of_mloop hwf)
      exact ⟨(congrArg (Group.mxHead _) htile').symm.trans hhead,
        (congrArg (fun t => (Group.tile _ t).steps) htile').symm.trans hcount⟩
  case mzero =>
    intro s f hok hfree htile
    rw [exec_mzero, execMzero_queues hok hfree htile]
    refine ⟨fun hfull => ?_, fun hroom => ?_⟩
    · rw [State.queueOrWait_full _ _ _ hfull, settle_wait]
    · rw [State.queueOrWait_room _ _ _ hroom, settle_done]
      exact ⟨_, rfl, fun hidle => ⟨_, State.pushMx_head_untagged hidle MxKind.noConfusion, rfl⟩⟩
  case line =>
    intro s f hok hfree hvec hidle
    have hline := State.mxLine_free hok hfree hvec hidle
    refine ⟨fun hlive => ⟨_, (exec_mrd f s).trans (execMrd_reads (by rw [hlive]; exact hline)), fun l hl => ?_⟩, fun hlive =>
      ⟨_, (exec_mwr f s).trans (execMwr_writes (by rw [hlive]; exact hline)), fun r c hr hc => ?_⟩⟩
    · exact Vector.getElem_ofFn hl
    · rw [State.onGrp, Group.tile_onTile_self _ _ (EX.tileOf_lt_of_mrd hok), Tile.cellOf_setLine _ _ _ hr hc]
      have hlane (l : Nat) : l ∈ lanesOf s.grp.live ↔ l < 96 ∧ s.grp.live.getLsbD l = true :=
        mem_lanesOf.trans (and_iff_right_of_imp BitVec.lt_of_getLsbD).symm
      exact if_congr (and_congr_right fun _ => and_congr_right fun _ => hlane _) rfl rfl
  case mst =>
    intro s p f hwf hfree hregion hlive hready
    rw [exec_mst, execMst_queues hwf hfree hregion hlive hready]
    refine ⟨fun hfull => ?_, fun hroom => ?_⟩
    · rw [State.queueOrWait_full _ _ _ hfull, settle_wait]
    · rw [State.queueOrWait_room _ _ _ hroom, settle_done]
      obtain ⟨htag, hrs⟩ := s.pushMx_file f.d (s.grp.mkMx .store p f (s.grp.capture f.a 6) [] false)
      exact ⟨_, rfl, htag, hrs, fun hidle => State.pushMx_head hidle f.d MxKind.noConfusion rfl⟩
  case mwait =>
    intro s f hok hhelper htile hcause
    rw [exec_mwait, execMwait_eq hok hhelper htile]
    refine ⟨fun hidle => ⟨s.mwaitReturn f, ?_, s.mwaitReturn_mem f, ?_, fun k hk => ?_⟩, fun hbusy => ?_⟩
    · rw [State.mwait_complete hcause hidle, finish_ok, settle_done]
    · rw [State.mwaitReturn_grp]
      exact s.grp.takeFlags_sreg _
    · rw [State.mwaitReturn_grp]
      exact s.grp.takeFlags_fpsr _ hk
    · rw [State.mwait_waits hcause hbusy, finish_ok, settle_wait]
  case mstat =>
    intro s f hok hmx hpair hlive
    exact ⟨s.grp.mstat (tileOf f), (exec_mstat f s).trans (execMstat_reads hok hmx hpair hlive), s.grp.mstat_fields (tileOf f)⟩

end

section
/-! PROOFS. The events of the matrix unit (12_matrix.md R219, R220, R226, R227, R234, R236, R237). -/

namespace Sys2Proof.Machine

open Sys2Proof

theorem exec_kstepStart (s : State) : exec .kstepStart s = execKstepStart s := rfl
theorem exec_kstepComplete (s : State) : exec .kstepComplete s = execKstepComplete s := rfl
theorem exec_tileFetch (s : State) : exec .tileFetch s = execTileFetch s := rfl
theorem exec_mstPerform (s : State) : exec .mstPerform s = execMstPerform s := rfl
theorem exec_mzeroPerform (s : State) : exec .mzeroPerform s = execMzeroPerform s := rfl
theorem exec_mwaitDone (s : State) : exec .mwaitDone s = execMwaitDone s := rfl

/-- An event of a tile without a fault, whose group's commands may run, is about the head of the tile's queue. -/
structure State.HeadsAt (s t : State) (tile : Nat) (c : MxCmd) : Prop where
  event : ∃ uid, s.ev = .tile uid tile ∧ s.focus uid = some t
  head : t.grp.mxHead tile = some c
  cause : (t.grp.tile tile).cause = 0
  held : t.mxHeld = false

section

variable {s t : State} {tile : Nat} {c : MxCmd}

theorem withHead_of (h : s.HeadsAt t tile c) (row : String) (k : State → Nat → MxCmd → Out) : withHead row s k = k t tile c := by
  obtain ⟨uid, hev, hfocus⟩ := h.event
  have hruns : (decide ((t.grp.tile tile).cause = 0) && !t.mxHeld) = true := by rw [h.cause, h.held]; rfl
  simp only [withHead, hev, hfocus, h.head, hruns, if_true]

/-! ### K-steps (R219, R220, R225) -/

theorem execKstepStart_starts (h : s.HeadsAt t tile c) (hready : c.ready = true) (hbusy : t.mxBusy t.grp.coreNo = false)
    (hturn : t.mxTurn t.grp.coreNo = some (t.grp.id.uid, tile)) : ∃ last, execKstepStart s =
      .next { (t.onGrp (fun g => g.onHead tile (fun x => { x with running := some 0 }))) with mxLast := last } := by
  have hturn' : decide (t.mxTurn t.grp.coreNo = some (t.grp.id.uid, tile)) = true := decide_eq_true hturn
  simp only [execKstepStart, withHead_of h, hready, hbusy, hturn', Bool.not_false, Bool.and_self, if_true]
  exact ⟨_, rfl⟩

/-- A command `d` when the step that command `c` was at ends. -/
def MxCmd.stepDone (c d : MxCmd) : MxCmd :=
  { d with
    done := d.done + 1, pinned := d.pinned.filter (fun p => p.1.1 ≠ c.done), lines := d.lines.filter (fun l => l.1 ≠ c.done),
    running := none }

variable {g : Group}

theorem Group.finishStep_eq (h : g.mxHead tile = some c) (hrun : c.running.isSome = true) :
    g.finishStep tile = (g.onTile tile (fun x => stepTile x c)).onHead tile c.stepDone := by
  simp only [Group.finishStep, h, hrun, if_true]
  rfl

theorem Group.finishStep_head (h : g.mxHead tile = some c) (hrun : c.running.isSome = true) :
    (g.finishStep tile).mxHead tile = some (c.stepDone c) := by
  rw [Group.finishStep_eq h hrun, Group.mxHead_onHead (h := c.stepDone) fun _ => rfl]
  exact congrArg (Option.map c.stepDone) h

theorem Group.finishStep_length (h : g.mxHead tile = some c) (hrun : c.running.isSome = true) :
    (g.finishStep tile).mxq.length = g.mxq.length := by
  rw [Group.finishStep_eq h hrun, Group.onHead_length (h := c.stepDone) fun _ => rfl]
  rfl

theorem MxCmd.finished_stepDone (hkind : c.kind = .loop) (hbegun : c.begun = true) :
    (c.stepDone c).finished = decide (c.nstep ≤ c.done + 1) := by
  have hfin : (c.stepDone c).finished = (decide (c.kind = .loop) && c.begun && decide (c.nstep ≤ c.done + 1)) := rfl
  rw [hfin, decide_eq_true hkind, hbegun]
  rfl

/-- A step that is not a loop's last leaves the loop at the head, with the step's result in the tile. -/
theorem Group.endStep_goesOn (h : g.mxHead tile = some c) (hrun : c.running.isSome = true) (hkind : c.kind = .loop)
    (hbegun : c.begun = true) (hmore : c.done + 1 < c.nstep) : g.endStep tile = g.finishStep tile := by
  have hfin : (((g.finishStep tile).mxHead tile).map MxCmd.finished).getD false = false := by
    rw [Group.finishStep_head h hrun, Option.map_some, Option.getD_some, MxCmd.finished_stepDone hkind hbegun]
    exact decide_eq_false (Nat.not_le.2 hmore)
  rw [Group.endStep, hfin, if_neg Bool.false_ne_true]

/-- A loop's last step completes it. -/
theorem Group.endStep_ends (h : g.mxHead tile = some c) (hrun : c.running.isSome = true) (hkind : c.kind = .loop)
    (hbegun : c.begun = true) (hlast : c.nstep ≤ c.done + 1) : (g.endStep tile).mxq.length < g.mxq.length := by
  have hhead := Group.finishStep_head h hrun
  have hfin : (((g.finishStep tile).mxHead tile).map MxCmd.finished).getD false = true := by
    rw [hhead, Option.map_some, Option.getD_some, MxCmd.finished_stepDone hkind hbegun]
    exact decide_eq_true hlast
  rw [Group.endStep, hfin, if_pos rfl, ← Group.finishStep_length h hrun]
  exact Group.mxComplete_length hhead

theorem execKstepComplete_ends (h : s.HeadsAt t tile c) {n : Nat} (hrun : c.running = some n) (hn : 32 ≤ n) :
    execKstepComplete s = .next (t.onGrp (fun g => g.endStep tile)) := by
  simp only [execKstepComplete, withHead_of h, hrun, if_pos hn]

/-! ### The tile fetch unit (R226, R227) -/

/-- The machine's choices pick what is fetched, and are no part of what a fetch reads. -/
theorem State.mxKey_choices (s : State) (cs : List Nat) (nd : Need) (l : DWord) :
    ({ s with choices := cs } : State).mxKey nd l = s.mxKey nd l := by
  unfold State.mxKey State.translate
  rfl

/-- A machine in which a fetch finds what it finds in another: a locator's place, a byte, and the lines of L2. -/
structure State.FetchesAs (t s : State) : Prop where
  grp : t.grp = s.grp
  mem : t.mem = s.mem
  key : t.mxKey = s.mxKey
  byte : t.mxByte = s.mxByte
  line : t.l2Line = s.l2Line

theorem State.choices_fetchesAs (s : State) (cs : List Nat) : ({ s with choices := cs } : State).FetchesAs s :=
  ⟨rfl, rfl, funext fun _ => funext fun _ => s.mxKey_choices cs _ _, rfl, rfl⟩

theorem State.FetchesAs.newLines {t s : State} (h : t.FetchesAs s) : t.newLines = s.newLines := by
  unfold State.newLines
  rw [h.key]

theorem State.FetchesAs.withLines {t s : State} (h : t.FetchesAs s) : t.withLines = s.withLines := by
  unfold State.withLines
  rw [h.newLines, h.byte]

theorem State.FetchesAs.mxFetch {t s : State} (h : t.FetchesAs s) : t.mxFetch = s.mxFetch := by
  unfold State.mxFetch
  rw [h.key, h.byte, h.line, h.grp]

/-- A pick changes the choices that are left. -/
theorem State.pick_eq {α : Type} (s : State) (xs : List α) : ∃ t : State, t.FetchesAs s ∧ s.pick xs = ((s.pick xs).1, t) := by
  cases hc : s.choices with
  | nil => exact ⟨s, ⟨rfl, rfl, rfl, rfl, rfl⟩, by simp only [State.pick, hc]⟩
  | cons c cs => exact ⟨_, s.choices_fetchesAs cs, by simp only [State.pick, hc]⟩

theorem State.mxWalk_grp (s : State) (qs : List (DWord × Nat)) : (s.mxWalk qs).grp = s.grp := s.walkVas_grp _ _ _

theorem State.mxWalk_mem (s : State) (qs : List (DWord × Nat)) : (s.mxWalk qs).mem = s.mem := s.walkVas_mem _ _ _

/-- Lines that are read at L2 leave the group and memory. -/
theorem State.mxFill_grpMem (s : State) (cp : BitVec 3) (u : MxUnit) (lines : List Nat) :
    (s.mxFill cp u lines).grpMem = s.grpMem := by
  have hread : (((s.mxWalk [(u.loc, 0)]).countL2 s.grp.id.fn s.grp.id.cluster false lines).seen 0 .l2 [] lines).grpMem =
      s.grpMem :=
    Prod.ext ((State.grp_of_turns (State.countL2_turns _ _ _ _ _)).trans (s.mxWalk_grp _))
      ((State.countL2_mem _ _ _ _ _).trans (s.mxWalk_mem _))
  have hfill (t : State) (n prio : Nat) : (t.fillL2 s.grp.id.cluster n s.grp.id.cls prio).grpMem = t.grpMem :=
    Prod.ext (State.grp_of_turns (State.fillL2_turns _ _ _ _ _)) (State.fillL2_mem _ _ _ _ _)
  unfold State.mxFill
  dsimp only
  cases l2Prio cp.toNat with
  | none => exact hread
  | some prio => exact (State.foldl_keeps State.grpMem _ (fun t n => hfill t n prio) _ _).trans hread

variable {q : Nat × Nat} {x : MxUnit}

/-- A command with a unit of a step pinned. -/
def State.pinUnit (t : State) (q : Nat × Nat) (x : MxUnit) (data : Vector Byte 128) (d : MxCmd) : MxCmd :=
  { t.withLines d q.1 x with pinned := (q, data) :: d.pinned, acqDone := d.acq }

/-- The lines fetched are all that is new in a command. -/
theorem State.withLines_eq (s : State) (c : MxCmd) (step : Nat) (u : MxUnit) :
    ∃ lines, s.withLines c step u = { c with lines := lines } := ⟨_, rfl⟩

theorem State.pinUnit_tile (t : State) (q : Nat × Nat) (x : MxUnit) (data : Vector Byte 128) (d : MxCmd) :
    (t.pinUnit q x data d).tile = d.tile := by
  obtain ⟨lines, hlines⟩ := t.withLines_eq d q.1 x
  rw [State.pinUnit, hlines]

theorem State.fetchUnit_pins (hpick : (t.pick c.lacking).1 = some q) (hx : (c.units q.1)[q.2]? = some x)
    {data : Vector Byte 128} (hdata : t.mxFetch c q.1 x = .ok data) : ∃ v : State, v.grpMem = t.grpMem ∧
      t.fetchUnit tile c = some (v.onGrp (fun g => g.onHead tile (t.pinUnit q x data))) := by
  obtain ⟨u, hu, hpicked⟩ := t.pick_eq c.lacking
  rw [hpick] at hpicked
  rw [← hu.mxFetch] at hdata
  refine ⟨u.mxFill c.cp x (u.newLines c q.1 x), (u.mxFill_grpMem _ _ _).trans (Prod.ext hu.grp hu.mem), ?_⟩
  -- what a fetch gives is too long for the kernel to evaluate: it is made opaque
  obtain ⟨fetch, hfetch⟩ : ∃ fetch, fetch = State.mxFetch := ⟨_, rfl⟩
  rw [← hfetch] at hdata
  rw [State.fetchUnit, ← hfetch, hpicked]
  simp only [Option.bind_some, hx, Option.map_some, hdata, hu.withLines]
  rfl

theorem State.fetchUnit_faults (hpick : (t.pick c.lacking).1 = some q) (hx : (c.units q.1)[q.2]? = some x)
    {cause : Nat} {a : DWord} (hfault : t.mxFetch c q.1 x = .error (cause, a)) (hnext : q.1 = c.done) (hrun : c.running = none) :
    ∃ v : State, t.fetchUnit tile c = some (v.onGrp (fun g => g.deferFault tile cause a)) := by
  obtain ⟨u, hu, hpicked⟩ := t.pick_eq c.lacking
  rw [hpick] at hpicked
  rw [← hu.mxFetch] at hfault
  have hown : (decide (q.1 = c.done) && c.running.isNone) = true := by rw [decide_eq_true hnext, hrun]; rfl
  refine ⟨u.mxWalk [(x.loc, 0)], ?_⟩
  obtain ⟨fetch, hfetch⟩ : ∃ fetch, fetch = State.mxFetch := ⟨_, rfl⟩
  rw [← hfetch] at hfault
  rw [State.fetchUnit, ← hfetch, hpicked]
  simp only [Option.bind_some, hx, Option.map_some, hfault, hown, if_true]

theorem execTileFetch_eq (h : s.HeadsAt t tile c) (hkind : c.kind = .loop) (hbegun : c.begun = true)
    (hruns : t.grp.mxRuns = true) (hacq : t.mxAcquireWaits c = false) {u : State} (hu : t.fetchUnit tile c = some u) :
    execTileFetch s = .next u := by
  have hmay : (decide (c.kind = .loop) && c.begun && t.grp.mxRuns && !t.mxAcquireWaits c) = true := by
    rw [decide_eq_true hkind, hbegun, hruns, hacq]
    rfl
  simp only [execTileFetch, withHead_of h, hmay, if_true, hu]

/-- A tile with a deferred fault has its cause and its address. -/
theorem Group.deferFault_tile (g : Group) (cause : Nat) (a : DWord) (ht : tile < 4) :
    ((g.deferFault tile cause a).tile tile).cause = cause ∧ ((g.deferFault tile cause a).tile tile).faultAddr = a := by
  rw [Group.deferFault, Group.tile_onHead, Group.tile_onTile_self _ _ ht]
  exact ⟨rfl, rfl⟩

/-! ### MST_PERFORM (R236) -/

/-- The tiles that a group's queued commands name, in order. -/
def Group.mxOrder (g : Group) : List Nat := g.mxq.map (·.tile)

theorem Group.mxOrder_onHead (g : Group) (n : Nat) {k : MxCmd → MxCmd} (hk : ∀ d, (k d).tile = d.tile) :
    (g.onHead n k).mxOrder = g.mxOrder := mxSetHead_tiles hk g.mxq

theorem Group.mxOrder_onTile (g : Group) (n : Nat) (k : Tile → Tile) : (g.onTile n k).mxOrder = g.mxOrder := rfl

theorem State.engineWrites_grp (s : State) (cluster : Nat) (cs : List Host.Cell) : (s.engineWrites cluster cs).grp = s.grp := by
  induction cs generalizing s with
  | nil => rfl
  | cons c cs ih =>
    refine (ih _).trans ?_
    unfold State.engineWrite
    split
    · exact State.grp_of_turns (State.writeL2Byte_turns _ _ _ _)
    · rfl

/-- The rows that a store writes leave which tiles the queued commands name. -/
theorem State.mstRows_order (s : State) (n : Nat) (c : MxCmd) (o : MstOut) (is : List Nat) :
    (s.mstRows n c o is).1.grp.mxOrder = s.grp.mxOrder := by
  induction is generalizing s with
  | nil => rfl
  | cons i is ih =>
    unfold State.mstRows
    extract_lets row u
    have hu : u.grp = s.grp := s.mxWalk_grp _
    split
    · rename_i ks ss _ _
      have hwritten := (State.engineWrites_grp (((u.noteOrigin u.grp.origin ((ks ++ ss).map (·.1))).wroteLines u.grp.id.cluster
        (u.grp.want c.cp.toNat) ((ks ++ ss).map (·.1)))) u.grp.id.cluster (ks ++ ss)).trans (State.grp_of_turns
          ((State.wroteLines_turns _ _ _ _).trans (State.noteOrigin_turns u _ _)))
      calc _ = _ := ih _
        _ = _ := Group.mxOrder_onHead _ _ (by intro d; rfl)
        _ = _ := Group.mxOrder_onTile _ _ _
        _ = _ := congrArg Group.mxOrder (hwritten.trans hu)
    · exact congrArg Group.mxOrder hu
    · exact congrArg Group.mxOrder hu

theorem State.acquiredRows_order (c : MxCmd) (o : MstOut) (is : List Nat) {v : State} {y : Option (DWord × MxPlace)}
    (hrows : (t.acquiredHead tile).mstRows tile c o is = (v, y)) : v.grp.mxOrder = t.grp.mxOrder := by
  have horder := (t.acquiredHead tile).mstRows_order tile c o is
  rw [hrows] at horder
  exact horder.trans (Group.mxOrder_onHead _ _ (by intro d; rfl))

/-- Commands that name the same tiles in order are as many. -/
theorem Group.length_of_mxOrder {g h : Group} (e : h.mxOrder = g.mxOrder) : h.mxq.length = g.mxq.length := by
  have hlen := congrArg List.length e
  rwa [Group.mxOrder, Group.mxOrder, List.length_map, List.length_map] at hlen

theorem State.mstDone_length {v : State} (hhead : (v.grp.mxHead tile).isSome = true) :
    (v.mstDone tile c).grp.mxq.length < v.grp.mxq.length := by
  obtain ⟨d, hd⟩ := Option.isSome_iff_exists.1 hhead
  unfold State.mstDone
  extract_lets s1 s2
  have h1 : s1.grp = v.grp := by
    unfold s1
    split
    · exact State.grp_of_turns (v.invalidateStale_turns _ _)
    · rfl
  have h2 : s2.grp = v.grp := by
    refine Eq.trans ?_ h1
    unfold s2
    split
    · exact State.grp_of_turns s1.flushHost_turns
    · rfl
  rw [State.onGrp, h2]
  exact Group.mxComplete_length (g := v.grp.onTile tile (fun x => { x with tag := c.tag })) hd

theorem State.mstWritten_done {v : State} (h : c.rel = false ∨ c.scope ≠ 6 ∨ v.remoteDirty = []) :
    v.mstWritten tile c = .next (v.mstDone tile c) := by
  unfold State.mstWritten
  by_cases hsys : (c.rel && decide (c.scope = 6)) = true
  · have hclear : v.remoteClear = true := by
      obtain ⟨hrel, hscope⟩ := Bool.and_eq_true_iff.1 hsys
      rcases h with h | h | h
      · exact absurd (hrel.symm.trans h) Bool.true_eq_false_eq_False
      · exact absurd (of_decide_eq_true hscope) h
      · rw [State.remoteClear, h]; rfl
    simp only [if_pos hsys, State.remoteFirst, hclear, Bool.not_true, Bool.and_false, Bool.false_eq_true, if_false, if_true]
  · rw [if_neg hsys]

/-- A store at the head of its tile's queue may write. -/
structure State.Stores (t : State) (c : MxCmd) : Prop where
  kind : c.kind = .store
  runs : t.grp.mxRuns = true
  host : c.waitHost = none
  acquire : t.mxAcquireWaits c = false

theorem State.Stores.may (h : t.Stores c) :
    (decide (c.kind = .store) && t.grp.mxRuns && c.waitHost.isNone && !t.mxAcquireWaits c) = true := by
  rw [decide_eq_true h.kind, h.runs, h.host, h.acquire]
  rfl

section

variable {v : State} {a : DWord}

theorem execMstPerform_written (h : s.HeadsAt t tile c) (hs : t.Stores c)
    (hrows : (t.acquiredHead tile).mstRows tile c (.ofWord (c.op 3)) ((List.range 128).drop c.done) = (v, none)) :
    execMstPerform s = v.mstWritten tile c := by
  simp only [execMstPerform, withHead_of h, hs.may, if_true, hrows]

theorem execMstPerform_faults (h : s.HeadsAt t tile c) (hs : t.Stores c) {cause : Nat}
    (hrows : (t.acquiredHead tile).mstRows tile c (.ofWord (c.op 3)) ((List.range 128).drop c.done) = (v, some (a, .fault cause))) :
    execMstPerform s = .next (v.onGrp (fun g => g.deferFault tile cause a)) := by
  simp only [execMstPerform, withHead_of h, hs.may, if_true, hrows]

theorem execMstPerform_asks (h : s.HeadsAt t tile c) (hs : t.Stores c) (hdenied : c.denied = false) {page : Nat}
    (hrows : (t.acquiredHead tile).mstRows tile c (.ofWord (c.op 3)) ((List.range 128).drop c.done) = (v, some (a, .host page))) :
    execMstPerform s = .next ((v.askHost v.grp.id.fn v.grp.id.pasid page).onGrp (fun g =>
      g.onHead tile (fun x => { x with waitHost := some page }))) := by
  simp only [execMstPerform, withHead_of h, hs.may, if_true, hrows, hdenied, Bool.false_eq_true, if_false]

end

/-! ### MZERO_PERFORM and MWAIT_DONE (R234, R237) -/

theorem execMzeroPerform_zeroes (h : s.HeadsAt t tile c) (hkind : c.kind = .zero) (hruns : t.grp.mxRuns = true) :
    execMzeroPerform s = .next (t.onGrp (fun g => (g.onTile tile Tile.zeroed).mxComplete tile)) := by
  simp only [execMzeroPerform, withHead_of h, hkind, hruns, decide_true, Bool.and_self, if_true]

theorem execMwaitDone_completes {uid : Nat} {f : EX} (hev : s.ev = .group uid) (ht : s.focus uid = some t)
    (hwait : t.grp.status = .waiting (.matrix f)) (hcause : ∀ i ∈ t.grp.waitedTiles f, (t.grp.tile i).cause = 0)
    (hidle : ∀ i ∈ t.grp.waitedTiles f, t.grp.mxCount i = 0) : execMwaitDone s = .next ((t.mwaitReturn f).retire 1) := by
  simp only [execMwaitDone, withGroup_of_focus _ _ hev ht, Group.waiting?_of_status hwait, State.mwait_complete hcause hidle,
    finish_ok, settle_done]

end

end Sys2Proof.Machine
end

open Sys2Proof Sys2Proof.Machine

section

/-- Settles O39: each event by what it does to the command at the head of its tile's queue. -/
theorem matrixEventsHappen : Obligations.MatrixEventsHappen := by
  unfold Obligations.MatrixEventsHappen
  refine ⟨fun s t uid tile c hev ht hhead hcause hheld htile => ?_, fun s t uid f hev ht hwait hfree => ?_⟩
  case refine_2 =>
    exact ⟨_, (exec_mwaitDone s).trans (execMwaitDone_completes hev ht hwait (fun i hi => (hfree i hi).1)
      (fun i hi => (hfree i hi).2)), t.mwaitReturn_mem f⟩
  have hat : s.HeadsAt t tile c := ⟨⟨uid, hev, ht⟩, hhead, hcause, hheld⟩
  refine ⟨?start, ?step, ?fetch, ?store, ?zero⟩
  case start =>
    intro hready hbusy hturn
    obtain ⟨last, hexec⟩ := execKstepStart_starts hat hready hbusy hturn
    exact ⟨_, (exec_kstepStart s).trans hexec,
      (Group.mxHead_onHead (by intro d; rfl) _).trans (congrArg (Option.map _) hhead), rfl, rfl⟩
  case step =>
    intro n hrun hn hkind hbegun
    have hsome : c.running.isSome = true := by rw [hrun]; rfl
    refine ⟨_, (exec_kstepComplete s).trans (execKstepComplete_ends hat hrun hn), rfl, fun hmore => ?_,
      Group.endStep_ends hhead hsome hkind hbegun⟩
    rw [State.onGrp, Group.endStep_goesOn hhead hsome hkind hbegun hmore]
    refine ⟨Group.finishStep_head hhead hsome, ?_⟩
    rw [Group.finishStep_eq hhead hsome, Group.tile_onHead, Group.tile_onTile_self _ _ htile]
  case fetch =>
    intro hkind hbegun hruns hacq q x hpick hx
    refine ⟨fun data hdata => ?_, fun cause a hfault hnext hrun => ?_⟩
    · obtain ⟨v, hv, hfetch⟩ := State.fetchUnit_pins (tile := tile) hpick hx hdata
      have hvhead : v.grp.mxHead tile = some c := (congrArg (fun k : Group × Memory => k.1.mxHead tile) hv).trans hhead
      refine ⟨_, (exec_tileFetch s).trans (execTileFetch_eq hat hkind hbegun hruns hacq hfetch), congrArg Prod.snd hv, ?_⟩
      exact (Group.mxHead_onHead (t.pinUnit_tile q x data) v.grp).trans (congrArg (Option.map _) hvhead)
    · obtain ⟨v, hfetch⟩ := State.fetchUnit_faults (tile := tile) hpick hx hfault hnext hrun
      exact ⟨_, (exec_tileFetch s).trans (execTileFetch_eq hat hkind hbegun hruns hacq hfetch),
        v.grp.deferFault_tile cause a htile⟩
  case store =>
    intro hkind hruns hhost hacq v y hrows
    have hs : t.Stores c := ⟨hkind, hruns, hhost, hacq⟩
    have horder := State.acquiredRows_order c _ _ hrows
    have hvhead : (v.grp.mxHead tile).isSome = true := Group.mxHead_isSome_of_tiles horder (by rw [hhead]; rfl)
    refine ⟨?_, ?_, ?_⟩
    · rintro rfl hclear
      refine ⟨_, (exec_mstPerform s).trans ((execMstPerform_written hat hs hrows).trans (State.mstWritten_done hclear)), ?_⟩
      exact (State.mstDone_length hvhead).trans_eq (Group.length_of_mxOrder horder)
    · rintro a cause rfl
      exact ⟨_, (exec_mstPerform s).trans (execMstPerform_faults hat hs hrows), v.grp.deferFault_tile cause a htile⟩
    · rintro a page rfl hdenied
      obtain ⟨d, hd⟩ := Option.isSome_iff_exists.1 hvhead
      have hgrp : (v.askHost v.grp.id.fn v.grp.id.pasid page).grp = v.grp :=
        congrArg Prod.fst (v.askHost_grpMem v.grp.id.fn v.grp.id.pasid page)
      refine ⟨_, { d with waitHost := some page }, (exec_mstPerform s).trans (execMstPerform_asks hat hs hdenied hrows), ?_, rfl⟩
      rw [State.onGrp, hgrp]
      exact (Group.mxHead_onHead (by intro k; rfl) v.grp).trans (congrArg (Option.map _) hd)
  case zero =>
    intro hkind hruns
    have hzhead : (t.grp.onTile tile Tile.zeroed).mxHead tile = some c := hhead
    refine ⟨_, (exec_mzeroPerform s).trans (execMzeroPerform_zeroes hat hkind hruns), Group.mxComplete_length hzhead, fun hone => ?_⟩
    rw [State.onGrp, Group.mxComplete_data hzhead hone, Group.tile_onTile_self _ _ htile]
    rfl

end
